-- ==== Sys2Proof/Word.lean ====
section
/-! DEFINITION. The word types of the wall and their plainest arithmetic: bytes, bit fields of a number
(R21), and numbers laid out little-endian (R20). -/

namespace Sys2Proof

/-- One byte, as it stands in a frame, a datagram or a host-memory transfer. -/
abbrev Byte := BitVec 8

/-- Bits `[hi:lo]` of a number, bit 0 least significant (R21). -/
def bits (v hi lo : Nat) : Nat := (v / 2 ^ lo) % 2 ^ (hi + 1 - lo)

/-- Bit `i` of a number. -/
def bit (v i : Nat) : Bool := v.testBit i

/-- A Boolean as the number a BOOL object holds (R77). -/
def b2n (b : Bool) : Nat := if b then 1 else 0

/-- `v` with bit `i` set. -/
def setBit (v i : Nat) : Nat := v ||| 2 ^ i

/-- `v` with bit `i` cleared. -/
def clrBit (v i : Nat) : Nat := if v.testBit i then v - 2 ^ i else v

/-- `v` with bits `[hi:lo]` replaced by `x`. -/
def putBits (v hi lo x : Nat) : Nat :=
  v % 2 ^ lo + (x % 2 ^ (hi + 1 - lo)) * 2 ^ lo + (v / 2 ^ (hi + 1)) * 2 ^ (hi + 1)

/-- Round up the quotient `a / b`. -/
def ceilDiv (a b : Nat) : Nat := (a + b - 1) / b

/-- A signed number of `n` bits in two's complement, as the unsigned number that holds it. -/
def ofInt (n : Nat) (i : Int) : Nat := (i % (2 ^ n : Int)).toNat

/-- The signed value of an `n`-bit two's complement number. -/
def toInt (n v : Nat) : Int := if v % 2 ^ n < 2 ^ (n - 1) then (v % 2 ^ n : Nat) else ((v % 2 ^ n : Nat) : Int) - 2 ^ n

/-- Sum that stops at `top` (a counter whose meaning states that it saturates, R593). -/
def satAdd (v n top : Nat) : Nat := min (v + n) top

/-- The number of bits of `v`: 0 for 0, else one more than the floor of its base-2 logarithm. -/
def bitLen (v : Nat) : Nat := if v = 0 then 0 else Nat.log2 v + 1

/-- The number of one bits among bits 0 to `n - 1` of `v`. -/
def popCount (v : Nat) : Nat → Nat
  | 0 => 0
  | n + 1 => popCount v n + b2n (v.testBit n)

end Sys2Proof
end

