-- ==== Sys2Proof/Config.lean ====
section
/-! DEFINITION. What one implementation or one factory fixes, and the free values: constants without a
body, of which no proof can see a value. Notes 2, 3 and 4 of the assumption log name each of them. -/

namespace Sys2Proof.Config

/-! ### Factory values (the Default column reads "factory") -/

opaque hwRevision : Nat → Nat
opaque serial : Nat → Nat
opaque romVersion : Nat → Nat
/-- HW_EPOCH, the hardware interface epoch (R154). -/
opaque hwEpoch : Nat → Nat
opaque deviceId : Nat → Nat
/-- LAYOUT_MAX of the ROM code (R137). -/
opaque romLayoutMax : Nat → Nat
/-- MAC addresses of F0 and F1 (R123). -/
opaque fieldMac : Nat → Nat
/-- Factory MAC address of each sub-port (R306). -/
opaque spMac : Nat → Nat
/-- Measured internal transmit and receive delays of a sub-port at a rate code and FEC mode, 1/16 ns (R432). -/
opaque txPathDelay : Nat → Nat → Nat
opaque rxPathDelay : Nat → Nat → Nat → Nat
/-- Word of a sequencer's micro ROM (R557): the ROM's contents are not given. -/
opaque romMicro : Nat → Nat → Nat
/-- C after a subtraction: the borrow, or its complement (R560 does not say which). -/
opaque carryIsBorrow : Nat → Bool
/-- Bit positions of Z, N, C and V (0 to 3) in the register-space word FLAGS (R563 gives none). -/
opaque flagPos : Nat → Nat
/-- The macro-instruction address at which a loaded program is entered, 0 for the vendor entry point (R558, R577). -/
opaque vendorEntry : Nat → Nat
/-- Micro-address of a vendor opcode in the dispatch section of an image (R573 gives its size, not its layout); `none` where
the section leaves the illegal-op handler. -/
opaque vendorDispatch : List Byte → Nat → Option Nat
/-- Which 32-bit word of its Bellhouse ENABLE bits an I/O address sets, if it is one of those (R583 gives no address). -/
opaque ioEnableWord : Nat → Nat → Option Nat
/-- The layout of a Granary as the factory leaves it is not given. -/
opaque factoryLayout : Nat → Nat

/-! ### Cryptographic functions of published standards (R455): the standards' functions, uninterpreted -/

/-- ECDSA P-384 with SHA-384: key, message, signature. -/
opaque ecdsaVerify : Nat → List Byte → Nat → Bool
opaque ecdsaSign : Nat → List Byte → Nat
/-- A point lies on the P-384 curve (R464). -/
opaque onCurve : Nat → Bool
/-- The two Uhlano image keys held in ROM (R466). -/
opaque romImageKey : Bool → Nat
/-- AES-KW unwrap under a key: `none` when the integrity check fails (R461, R468). -/
opaque aesKwUnwrap : Nat → List Byte → Option (List Byte)
opaque aesKwWrap : Nat → List Byte → List Byte
/-- The storage key derived at each KINDLE from the fused value (R482). -/
opaque storageKey : Nat → Nat
/-- First 8 bytes of SHA-384 over "MIOVEX-KI", salt and key (R453). -/
opaque kiFingerprint : Nat → List Byte → Nat
/-- GCM-AES-XPN protect: key, salt, SSCI, PN, integrity-only and offset settings, frame; the protected frame. -/
opaque gcmProtect : List Byte → Nat → Nat → Nat → Nat → List Byte → List Byte
/-- GCM-AES-XPN validate: the user data when the ICV holds. -/
opaque gcmValidate : List Byte → Nat → Nat → Nat → Nat → List Byte → Option (List Byte)
/-- The n-th output of the DRBG. -/
opaque drbg : Nat → Nat
/-- P-384 public point of a private scalar. -/
opaque publicPoint : Nat → Nat
/-- Session keys of R465 from the private ephemeral, the peer point and the transcript. -/
opaque sessionKeys : Nat → Nat → List Byte → Nat

/-! ### Functions of real numbers, whose rounding the spec does not give -/

/-- log10(age / 3600) in units of 2^-32, for the log-time of R242 and R244. -/
opaque log10 : Nat → Int

/-! ### Free values: the spec gives an effect and leaves its value open (log entry 4) -/

/-- The n-th free number; nothing constrains it. -/
opaque freeNat : Nat → Nat
/-- The n-th free choice. -/
opaque freeBool : Nat → Bool

end Sys2Proof.Config
end

