-- ==== Sys2Proof/Syntax.lean ====
section
/-! DEFINITION. The commands the wall takes: one constructor per row of opcode_table.json, with the
operands its rule names. Where a row is a Ledger request or write that reaches the head of the Ledger
queue (R79, R80), the request itself stands in the queue and the command carries only what the outside
world adds. Unit numbers are of the size of R1 to R9. -/

namespace Sys2Proof

abbrev Course := Fin 4
abbrev Brick := Fin 16
abbrev Port := Fin 64
abbrev SubPort := Fin 512
abbrev Lane := Fin 1088
/-- Sequencers: 0 to 15 the stewards, 16 the Reeve. -/
abbrev Seqr := Fin 17
abbrev RingNo := Fin 256
abbrev Reg4 := Fin 16

/-- A Granary sheaf (R480); `body` is the 44 bytes as one number, least significant byte first. -/
structure Sheaf where
  type : Nat
  tomb : Bool
  last : Bool
  rkey : Nat
  gen : Nat
  layout : Nat
  body : Nat
  deriving DecidableEq, Repr

/-- What the 64 bytes of one slot of one bank read as (R480): not blank and not a valid sheaf, or a valid sheaf. -/
inductive SlotCopy where
  | invalid
  | sheaf (s : Sheaf)
  deriving DecidableEq, Repr

/-- A copy found changed in a bank when it is read: bank, slot position, what it now reads as (`none`: blank). -/
structure Damage where
  bank : Fin 2
  slot : Nat
  copy : Option SlotCopy
  deriving DecidableEq, Repr

/-- What the world gives a KINDLE (R131, R132, R142, R145): pins, test outcomes and what the stores read as. -/
structure KindleIn where
  romOk : Bool
  zeroisePin : Bool
  /-- Failed row of R467, 0 when every self-test passed. -/
  selftest : Nat
  retentionCrcOk : Bool
  headerOk0 : Bool
  headerOk1 : Bool
  damage : List Damage
  shelfReadable : Bool
  courseBad : Nat
  brickBad : Nat
  replayUs : Nat
  kindleUs : Nat
  deriving DecidableEq, Repr

/-- A frame at the receive MAC: destination address through FCS as received (R275, R276). -/
structure RxFrame where
  sp : SubPort
  bytes : List Byte
  /-- An error block stood inside the frame (R282). -/
  codeError : Bool
  /-- The sub-port's reception was cut by its going down (R301). -/
  cut : Bool
  /-- Stamp count at the timestamp point, at the pins (R413). -/
  stamp : Nat
  deriving DecidableEq, Repr

/-- A cell of R56: header fields and the 256 payload bytes. -/
structure PipeCell where
  seq : Nat
  sp : Nat
  kind : Nat
  start : Nat
  ends : Nat
  grout : Nat
  stamp : Nat
  payload : List Byte
  deriving DecidableEq, Repr

/-- The paths of Dvor (R93): F0, F1 and in-band. -/
inductive Path where
  | f0 | f1 | inband
  deriving DecidableEq, Repr

/-- Where a datagram came from (R93): path, link-layer and IPv6 source, UDP source port. -/
structure Peer where
  path : Path
  mac : Nat
  ip : Nat
  port : Nat
  deriving DecidableEq, Repr

/-- The body of an OPEN (R464) with its source. -/
structure DvorOpen where
  peer : Peer
  role : Nat
  cred : Nat
  nonce : Nat
  point : Nat
  staticPoint : Nat
  deriving DecidableEq, Repr

/-- A request datagram that passed authentication: session slot, source, sequence number (R96, R104). -/
structure DvorReq where
  slot : Fin 8
  peer : Peer
  seq : Nat
  index : Nat
  sub : Nat
  deriving DecidableEq, Repr

/-- Why a datagram is discarded (R95, R97). -/
inductive BadDatagram where
  | ver | type | tag | oversize
  deriving DecidableEq, Repr

/-- A lane group: that of a sub-port, or a pool or held lane training alone (R216). -/
inductive Group where
  | sub (sp : SubPort)
  | alone (l : Lane)
  deriving DecidableEq, Repr

/-- What one survey measured at this end (R236): margins of the three eyes, errors and bits checked. -/
structure SurveyMeas where
  v : List Nat
  h : List Nat
  errors : Nat
  bits : Nat
  deriving DecidableEq, Repr

/-- Direction of a host ring (R9). -/
inductive RingDir where
  | tx | rx
  deriving DecidableEq, Repr

/-- Master copy of a Sieve entry as a scrub finds it (R339). -/
inductive Master where
  | agrees | correct | uncorrectable
  deriving DecidableEq, Repr

/-- The commands of the wall, one constructor for each row of the table. -/
inductive Instr where
  -- boundary (R23 to R75, R628)
  | powerGood (reflanes : Nat)
  | rootPllLock (k : KindleIn)
  | refcoreLoss
  | refcoreRestored
  | reflaneLoss (b : Brick)
  | reflaneRestored (b : Brick)
  | pfailAccept
  | pfailDrainDone
  | pfailNRise
  | pfailReopen
  | wakeAccept
  | zeroiseAccept
  | vcoreRemoved
  | targetAccessError (offset size : Nat)
  | unmappedAccess (write : Bool) (offset : Nat)
  | hostWindowWrite (offset size value : Nat)
  | readCompletion (tag : Fin 512)
  | readTagTimeout (tag : Fin 512)
  | tagQuarantineEnd (tag : Fin 512)
  | creditReturn (c : Course) (n : Nat)
  | creditInit (c : Course) (value : Nat)
  | creditWordInvalid (c : Course) (value : Nat)
  | egressCell (p : Port) (cell : PipeCell)
  | decisionArrive (b : Brick) (handle result status : Nat)
  | decisionTimeout (b : Brick) (handle : Nat)
  | flushSpIssue (b : Brick)
  | flushSpComplete (b : Brick) (tag : Nat)
  | flushSpOverdue (b : Brick) (tag : Nat)
  | lookupSearch
  | lookupNext
  | lookupComplete (b : Brick) (tag : Nat) (hit : Bool) (answer : Nat)
  | lookupTimeout (b : Brick) (tag : Nat)
  | waitingChange (p : Port) (level : Bool)
  | avsStep
  | avsAnswer (ack : Bool)
  | avsAnswerTimeout
  | tjAlarm (sensor : Fin 5) (reading : Int)
  | thermalShutdown (sensor : Fin 5) (reading : Int)
  -- Ledger and Dvor (R76 to R125)
  | mbxRead
  | mbxWrite
  | mbxSegRead
  | mbxSegWrite (last : Bool)
  | ledgerRead
  | ledgerWrite
  | ledgerSegRead
  | ledgerSegWrite
  | dvorOpen (o : DvorOpen)
  | dvorOpenConfirm (peer : Peer) (session sig : Nat)
  | dvorClose (slot : Fin 8)
  | dvorRead (r : DvorReq)
  | dvorWrite (r : DvorReq) (data : List Byte)
  | dvorSegRead (r : DvorReq) (offset gen len : Nat)
  | dvorSegWrite (r : DvorReq) (offset gen : Nat) (last : Bool) (data : List Byte)
  | dvorEventAck (r : DvorReq) (events : List Nat)
  | dvorKeepalive (r : DvorReq)
  | dvorDatagramBad (path : Path) (why : BadDatagram)
  | icmpv6Request (path : Path) (echo : Bool)
  | fieldFrameOther (path : Path)
  | dozeWakeFrame (path : Path) (frame : List Byte)
  /-- `place`: among the handshakes in progress, oldest first. -/
  | handshakeTimeout (place : Fin 4)
  | sessionIdleTimeout (slot : Fin 8)
  | segTransferTimeout (index sub : Nat)
  | eventRetransmit (slot : Fin 8) (event : Nat)
  | storeRange
  | restoreRange
  | defaultRange
  | storeComplete
  -- modes (R126 to R156, R627)
  | modeRequestEmber
  | emberDrained
  | modeRequestKindle
  | modeRequestService
  | modeRequestDoze
  | reeveWatchdog
  -- lanes (R157 to R212)
  | detectDone (g : Group)
  | detectTimeout (g : Group)
  | pam2Timeout (g : Group)
  | trainingTimeout (g : Group)
  | exchangeTimeout (g : Group)
  | backoffExpiry (g : Group)
  | listeningBurst (g : Group)
  | activeHoldExpiry (sp : SubPort)
  | trainRestart
  | trainingFrame (l : Lane) (good : Bool) (msg : List Byte) (invertedOnly : Bool)
  | hello (l : Lane) (rates role seed : Nat)
  | trainingReady (l : Lane) (count : Nat)
  | readyCountdownEnd (l : Lane)
  | rxReady (l : Lane) (coarse : List Nat) (fine : List Nat)
  | trainingCountdownEnd (l : Lane)
  | blockLock (g : Group)
  | cdrLock (l : Lane)
  | cdrLockLoss (l : Lane) (slip : Bool)
  | signalDetectLoss (l : Lane)
  | gossipStatus (l : Lane) (exch payload : Nat)
  | gossipOffer (l : Lane) (exch payload : Nat)
  | gossipAccept (l : Lane) (exch payload : Nat)
  | gossipConfirm (l : Lane) (exch payload : Nat)
  | gossipSpare (l : Lane) (payload : Nat)
  | gossipPrepare (l : Lane) (exch payload : Nat)
  | gossipReady (l : Lane) (exch payload : Nat)
  | gossipRoll (l : Lane) (exch payload : Nat) (codeword : Nat)
  | gossipRolled (l : Lane) (exch payload : Nat)
  | gossipRefuse (l : Lane) (exch payload : Nat)
  | gossipSurvey (l : Lane) (exch payload : Nat)
  | gossipRetire (l : Lane) (payload : Nat)
  | gossipBadWord (l : Lane)
  | gossipLoss (l : Lane)
  | fecWindowEnd (sp : SubPort) (roleCorrected : List Nat) (codewords corrected uncorrectable : Nat)
  | laneTestStart
  | laneTestStop
  | prbsClear
  | prbsCheckerLock (l : Lane) (gained : Bool) (bits errors : Nat)
  | eyeScanStart
  | eyeScanDone (l : Lane) (counts : List Nat)
  | eyeScanResume (l : Lane)
  | eyeScanAbort (l : Lane)
  | fieldLaneUp (f : Fin 2)
  | fieldLaneDown (f : Fin 2)
  | fieldLaneRetry (f : Fin 2)
  | fieldLaneConfigWrite
  -- repointing and ageing (R213 to R252, R629)
  | spareBurst (l : Lane)
  | spareFault (l : Lane)
  | bridgeCompareDone (p : Port) (role : Reg4)
  | rollCodeword (p : Port) (role : Reg4) (shift : Int)
  | rollTimeout (p : Port) (role : Reg4)
  | spareDeskewed (p : Port) (role : Reg4) (shift : Int) (interruptNs : Nat)
  | retestStart (l : Lane)
  | retestMeasured (l : Lane) (m : SurveyMeas)
  | retireClear
  | roundNow
  | roundPeriodExpiry
  | surveyStart (b : Brick)
  | surveyPrbsEnd (b : Brick) (m : SurveyMeas) (remeasured : Option SurveyMeas) (again : Option SurveyMeas)
  | surveyNow
  | telltaleMeasure (stressed reference : List Nat)
  | serviceSHourly
  | spareRateWrite
  -- ports and frames (R253 to R307)
  | portRestart
  | spAdminWrite
  | headerLockLoss (sp : SubPort)
  | headerLockTimeout (sp : SubPort)
  | hiBer (sp : SubPort)
  | rxFrame (f : RxFrame)
  | pauseFrameRx (sp : SubPort) (quanta : Nat)
  | pfcFrameRx (sp : SubPort) (enable : Nat) (times : List Nat)
  | pauseExpiry (sp : SubPort) (tc : Fin 8)
  | pfcRefresh (sp : SubPort) (tc : Fin 8)
  | quietIdleExpiry (p : Port)
  | lpiReceived (p : Port)
  | quietHandshakeTimeout (p : Port)
  | partnerWakeBurst (p : Port)
  | quietWakeComplete (p : Port)
  | partnerWakeTimeout (p : Port)
  -- ingress (R308 to R362)
  | cellIdleClose (sp : SubPort)
  | cellSend (b : Brick)
  | creditStall (b : Brick) (us : Nat)
  | gleanerExpiry (b : Brick) (entry : Fin 1024)
  | gleanFlush
  | sieveWriteShadow (b : Brick) (index : Fin 8192)
  | sieveWriteBoth (b : Brick) (index : Fin 8192)
  | sieveReadShadow (b : Brick) (index : Fin 8192)
  | sieveReadActive (b : Brick) (index : Fin 8192)
  | sieveInvalidateShadow (b : Brick) (index : Fin 8192)
  | sieveInvalidateBoth (b : Brick) (index : Fin 8192)
  | sieveSwap (window : Option Brick)
  | sieveSwapDone (b : Brick)
  | sieveScrubCompare (b : Brick) (bank : Fin 2) (index : Fin 8192) (m : Master) (forced : Bool)
  | hitCountClear (b : Brick) (index : Fin 8192)
  | policerApply (b : Brick) (index : Fin 1024) (value : Nat)
  -- egress (R363 to R404)
  | schedulerSelect (sp : SubPort)
  | txFrameDone (sp : SubPort) (departure : Nat)
  | calendarRelease (p : Port) (shaper : Fin 128)
  | gateEntryChange (sp : SubPort)
  | gateConfigChange (sp : SubPort)
  | gateSchedule
  | gateCancel
  | queueDropsClear (p : Port) (q : Fin 64)
  | shaperApply (p : Port) (shaper : Fin 128) (value : Nat)
  -- time (R405 to R433)
  | timeResync
  | timeSet
  | timeStep
  | freqAdjWrite
  | txStampNextRead
  -- MACsec and security (R434 to R476)
  | saInstall
  | saRemove
  | encodingAnWrite
  | pnReservationCommit (sp : SubPort) (an : Fin 4)
  | pnReservationRetry (sp : SubPort) (an : Fin 4)
  | kekInstall
  | kekClear
  | kiForget
  | selftestNow (failedRow : Nat)
  | zeroiseNow
  | zeroisationComplete
  | hostOfficerSWrite
  | hostOfficerExpiry
  | macsecKatDaily (p : Port) (ok : Bool)
  | continuousTestFail
  | tamperEvent
  -- Granary (R477 to R511, R626)
  | sheafCommit (readbackBad : Option (Fin 2))
  | wearProjection
  | granaryScrubRead (slot : Nat) (damage : List Damage)
  | vgranLoss
  | vgranRestored
  | vgranFailTimeout
  | changeCommitTimer (index sub : Nat)
  | allowanceRefill
  | digestBucketRefill
  | shelfRollback
  -- rings and Mill (R512 to R556)
  | ringDoorbell (d : RingDir) (i : RingNo) (value : Nat)
  | ringEnable (d : RingDir) (i : RingNo) (ctrl : Nat)
  | ringDisable (d : RingDir) (i : RingNo) (ctrl : Nat)
  | ringStopped (d : RingDir) (i : RingNo)
  | descriptorFetchDone (d : RingDir) (i : RingNo) (descs : List Nat)
  | txDataReadDone (i : RingNo) (data : List Byte)
  | rxRingDeliver (i : RingNo)
  | vectorDelivery (v : Fin 256)
  | millEnable
  | millDisable
  | millDrained (sp : SubPort)
  | millFrame (b : Brick)
  | millOversize (b : Brick)
  | hostBhEnableWrite (hi : Bool) (value : Nat)
  | hostBhClear (hi : Bool) (value : Nat)
  -- macro-instructions (R557 to R592)
  | mNop (u : Seqr)
  | mMov (u : Seqr) (d s : Reg4)
  | mLdi (u : Seqr) (imm : Byte)
  | mLdh (u : Seqr) (imm : Byte)
  | mAdd (u : Seqr) (d s : Reg4)
  | mSub (u : Seqr) (d s : Reg4)
  | mAnd (u : Seqr) (d s : Reg4)
  | mOr (u : Seqr) (d s : Reg4)
  | mXor (u : Seqr) (d s : Reg4)
  | mShl (u : Seqr) (d s : Reg4)
  | mShr (u : Seqr) (d s : Reg4)
  | mCmp (u : Seqr) (d s : Reg4)
  | mAddq (u : Seqr) (d : Reg4) (imm : Fin 16)
  | mSubq (u : Seqr) (d : Reg4) (imm : Fin 16)
  | mLd (u : Seqr) (d s : Reg4)
  | mSt (u : Seqr) (d s : Reg4)
  | mIn (u : Seqr) (d s : Reg4)
  | mOut (u : Seqr) (d s : Reg4)
  | mBr (u : Seqr) (off : Byte)
  | mBz (u : Seqr) (off : Byte)
  | mBnz (u : Seqr) (off : Byte)
  | mBn (u : Seqr) (off : Byte)
  | mBc (u : Seqr) (off : Byte)
  | mCall (u : Seqr) (off : Byte)
  | mRet (u : Seqr)
  | mJr (u : Seqr) (d s : Reg4)
  | mWait (u : Seqr)
  | mReti (u : Seqr)
  | mDi (u : Seqr)
  | mEi (u : Seqr)
  | mHook (u : Seqr) (n : Byte)
  | mKick (u : Seqr)
  | mTrap (u : Seqr) (code : Byte)
  | vendorOpcode (u : Seqr) (op opr : Byte)
  | illegalOpcode (u : Seqr) (op opr : Byte)
  | bellhouseTake (u : Seqr)
  | holdoffExpiry (u : Seqr) (g : Fin 8)
  | routineOverrun (u : Seqr)
  | stewardWatchdog (n : Fin 16)
  | stewardRestart
  | stewardRestartDone (n : Fin 16)
  -- observability (R593 to R625)
  | counterWrap (b : Brick) (k : Fin 32)
  | pcValueRead (b : Brick) (k : Fin 32)
  | pcClearAll
  | tallyWindowEnd (p : Port)
  | tallyUsWrite
  | sampleNextRead
  | booksRun
  | booksPeriodDue
  | booksComplete
  | headerLockRegained (sp : SubPort)
  | vcoreToleranceChange (inBand : Bool)
  | vembRemoved
  | idleAfterLpi (p : Port)
  | sequencerTimerExpiry (u : Seqr) (t : Fin 8)
  | drbgReseedDue
  deriving DecidableEq, Repr

end Sys2Proof
end

