-- ==== Sys2Proof/WellFormed.lean ====
section
/-! DEFINITION. Well-formed commands: every operand within the field that carries it. Lengths and sizes are those of
the messages, words and tables of the rules named. -/

namespace Sys2Proof

/-- A number fits a field of `n` bits. -/
def lt (v n : Nat) : Bool := decide (v < 2 ^ n)

/-- A sheaf of R480. -/
def sheafOk (s : Sheaf) : Bool := lt s.type 8 && lt s.rkey 32 && lt s.gen 48 && lt s.layout 16 && lt s.body 352

/-- A copy found changed: a slot of a bank (R478). -/
def damageOk (d : Damage) : Bool :=
  decide (d.slot < 122880) && (match d.copy with | some (.sheaf s) => sheafOk s | _ => true)

/-- What a KINDLE finds (R131, R142). -/
def kindleOk (k : KindleIn) : Bool :=
  lt k.selftest 8 && lt k.courseBad 4 && lt k.brickBad 16 && lt k.replayUs 32 && lt k.kindleUs 32 && k.damage.all damageOk

/-- A cell of R56. -/
def cellOk (c : PipeCell) : Bool :=
  lt c.seq 16 && lt c.sp 9 && lt c.kind 3 && lt c.start 16 && lt c.ends 16 && lt c.grout 32 && lt c.stamp 32 &&
    c.payload.length == 256

/-- Addresses of a datagram (R93). -/
def peerOk (p : Peer) : Bool := lt p.mac 48 && lt p.ip 128 && lt p.port 16

/-- A request header (R96). -/
def reqOk (r : DvorReq) : Bool := peerOk r.peer && lt r.seq 32 && lt r.index 16 && lt r.sub 8

/-- A measurement of three eyes (R236). -/
def measOk (m : SurveyMeas) : Bool := decide (m.v.length ≤ 3) && decide (m.h.length ≤ 3)

/-- A command whose operands fit. -/
def WellFormed : Instr → Bool
  | .powerGood r => lt r 16
  | .rootPllLock k => kindleOk k
  | .refcoreLoss => true
  | .refcoreRestored => true
  | .reflaneLoss _ => true
  | .reflaneRestored _ => true
  | .pfailAccept => true
  | .pfailDrainDone => true
  | .pfailNRise => true
  | .pfailReopen => true
  | .wakeAccept => true
  | .zeroiseAccept => true
  | .vcoreRemoved => true
  | .targetAccessError o n => lt o 26 && !((n == 4 || n == 8) && o % n == 0)
  | .unmappedAccess _ o => lt o 26 && o % 4 == 0
  | .hostWindowWrite o n v => lt o 26 && (n == 4 || n == 8) && o % n == 0 && lt v (8 * n)
  | .readCompletion _ => true
  | .readTagTimeout _ => true
  | .tagQuarantineEnd _ => true
  | .creditReturn _ n => lt n 16
  | .creditInit _ v => lt v 16
  | .creditWordInvalid _ v => lt v 16
  | .egressCell _ c => cellOk c
  | .decisionArrive _ h r s => lt h 32 && lt r 64 && lt s 2
  | .decisionTimeout _ h => lt h 32
  | .flushSpIssue _ => true
  | .flushSpComplete _ t => lt t 8
  | .flushSpOverdue _ t => lt t 8
  | .lookupSearch => true
  | .lookupNext => true
  | .lookupComplete _ t _ a => lt t 8 && lt a 512
  | .lookupTimeout _ t => lt t 8
  | .waitingChange _ _ => true
  | .avsStep => true
  | .avsAnswer _ => true
  | .avsAnswerTimeout => true
  | .tjAlarm _ _ => true
  | .thermalShutdown _ _ => true
  | .mbxRead => true
  | .mbxWrite => true
  | .mbxSegRead => true
  | .mbxSegWrite _ => true
  | .ledgerRead => true
  | .ledgerWrite => true
  | .ledgerSegRead => true
  | .ledgerSegWrite => true
  | .dvorOpen o => peerOk o.peer && lt o.role 8 && lt o.cred 8 && lt o.nonce 256 && lt o.point 776 && lt o.staticPoint 776
  | .dvorOpenConfirm p n s => peerOk p && lt n 32 && lt s 768
  | .dvorClose _ => true
  | .dvorRead r => reqOk r
  | .dvorWrite r d => reqOk r && decide (d.length ≤ 1192)
  | .dvorSegRead r o g n => reqOk r && lt o 32 && lt g 32 && lt n 16
  | .dvorSegWrite r o g _ d => reqOk r && lt o 32 && lt g 32 && decide (d.length ≤ 1192)
  | .dvorEventAck r e => reqOk r && e.all fun n => lt n 32
  | .dvorKeepalive r => reqOk r
  | .dvorDatagramBad _ _ => true
  | .icmpv6Request _ _ => true
  | .fieldFrameOther _ => true
  | .dozeWakeFrame _ _ => true
  | .handshakeTimeout _ => true
  | .sessionIdleTimeout _ => true
  | .segTransferTimeout i s => lt i 16 && lt s 8
  | .eventRetransmit _ _ => true
  | .storeRange => true
  | .restoreRange => true
  | .defaultRange => true
  | .storeComplete => true
  | .modeRequestEmber => true
  | .emberDrained => true
  | .modeRequestKindle => true
  | .modeRequestService => true
  | .modeRequestDoze => true
  | .reeveWatchdog => true
  | .detectDone _ => true
  | .detectTimeout _ => true
  | .pam2Timeout _ => true
  | .trainingTimeout _ => true
  | .exchangeTimeout _ => true
  | .backoffExpiry _ => true
  | .listeningBurst _ => true
  | .activeHoldExpiry _ => true
  | .trainRestart => true
  | .trainingFrame _ _ m _ => m.length == 12
  | .hello _ r o s => lt r 8 && lt o 4 && lt s 32
  | .trainingReady _ n => lt n 8
  | .readyCountdownEnd _ => true
  | .rxReady _ c f => decide (c.length ≤ 32) && decide (f.length ≤ 32)
  | .trainingCountdownEnd _ => true
  | .blockLock _ => true
  | .cdrLock _ => true
  | .cdrLockLoss _ _ => true
  | .signalDetectLoss _ => true
  | .gossipStatus _ e p => lt e 8 && lt p 28
  | .gossipOffer _ e p => lt e 8 && lt p 28
  | .gossipAccept _ e p => lt e 8 && lt p 28
  | .gossipConfirm _ e p => lt e 8 && lt p 28
  | .gossipSpare _ p => lt p 28
  | .gossipPrepare _ e p => lt e 8 && lt p 28
  | .gossipReady _ e p => lt e 8 && lt p 28
  | .gossipRoll _ e p c => lt e 8 && lt p 28 && lt c 24
  | .gossipRolled _ e p => lt e 8 && lt p 28
  | .gossipRefuse _ e p => lt e 8 && lt p 28
  | .gossipSurvey _ e p => lt e 8 && lt p 28
  | .gossipRetire _ p => lt p 28
  | .gossipBadWord _ => true
  | .gossipLoss _ => true
  | .fecWindowEnd _ r c d u => decide (r.length ≤ 16) && decide (d + u ≤ c)
  | .laneTestStart => true
  | .laneTestStop => true
  | .prbsClear => true
  | .prbsCheckerLock _ _ _ _ => true
  | .eyeScanStart => true
  | .eyeScanDone _ c => c.all fun n => lt n 41
  | .eyeScanResume _ => true
  | .eyeScanAbort _ => true
  | .fieldLaneUp _ => true
  | .fieldLaneDown _ => true
  | .fieldLaneRetry _ => true
  | .fieldLaneConfigWrite => true
  | .spareBurst _ => true
  | .spareFault _ => true
  | .bridgeCompareDone _ _ => true
  | .rollCodeword _ _ _ => true
  | .rollTimeout _ _ => true
  | .spareDeskewed _ _ _ _ => true
  | .retestStart _ => true
  | .retestMeasured _ m => measOk m
  | .retireClear => true
  | .roundNow => true
  | .roundPeriodExpiry => true
  | .surveyStart _ => true
  | .surveyPrbsEnd _ m r a => measOk m && r.all measOk && a.all measOk
  | .surveyNow => true
  | .telltaleMeasure s r => s.length == 32 && r.length == 32
  | .serviceSHourly => true
  | .spareRateWrite => true
  | .portRestart => true
  | .spAdminWrite => true
  | .headerLockLoss _ => true
  | .headerLockTimeout _ => true
  | .hiBer _ => true
  | .rxFrame f => lt f.stamp 96
  | .pauseFrameRx _ q => lt q 16
  | .pfcFrameRx _ e t => lt e 8 && t.length == 8 && t.all fun n => lt n 16
  | .pauseExpiry _ _ => true
  | .pfcRefresh _ _ => true
  | .quietIdleExpiry _ => true
  | .lpiReceived _ => true
  | .quietHandshakeTimeout _ => true
  | .partnerWakeBurst _ => true
  | .quietWakeComplete _ => true
  | .partnerWakeTimeout _ => true
  | .cellIdleClose _ => true
  | .cellSend _ => true
  | .creditStall _ _ => true
  | .gleanerExpiry _ _ => true
  | .gleanFlush => true
  | .sieveWriteShadow _ _ => true
  | .sieveWriteBoth _ _ => true
  | .sieveReadShadow _ _ => true
  | .sieveReadActive _ _ => true
  | .sieveInvalidateShadow _ _ => true
  | .sieveInvalidateBoth _ _ => true
  | .sieveSwap _ => true
  | .sieveSwapDone _ => true
  | .sieveScrubCompare _ _ _ _ _ => true
  | .hitCountClear _ _ => true
  | .policerApply _ _ v => lt v 32
  | .schedulerSelect _ => true
  | .txFrameDone _ d => lt d 96
  | .calendarRelease _ _ => true
  | .gateEntryChange _ => true
  | .gateConfigChange _ => true
  | .gateSchedule => true
  | .gateCancel => true
  | .queueDropsClear _ _ => true
  | .shaperApply _ _ v => lt v 32
  | .timeResync => true
  | .timeSet => true
  | .timeStep => true
  | .freqAdjWrite => true
  | .txStampNextRead => true
  | .saInstall => true
  | .saRemove => true
  | .encodingAnWrite => true
  | .pnReservationCommit _ _ => true
  | .pnReservationRetry _ _ => true
  | .kekInstall => true
  | .kekClear => true
  | .kiForget => true
  | .selftestNow r => lt r 8
  | .zeroiseNow => true
  | .zeroisationComplete => true
  | .hostOfficerSWrite => true
  | .hostOfficerExpiry => true
  | .macsecKatDaily _ _ => true
  | .continuousTestFail => true
  | .tamperEvent => true
  | .sheafCommit _ => true
  | .wearProjection => true
  | .granaryScrubRead n d => decide (n < 122880) && d.all damageOk
  | .vgranLoss => true
  | .vgranRestored => true
  | .vgranFailTimeout => true
  | .changeCommitTimer i s => lt i 16 && lt s 8
  | .allowanceRefill => true
  | .digestBucketRefill => true
  | .shelfRollback => true
  | .ringDoorbell _ _ v => lt v 32
  | .ringEnable _ _ v => lt v 32 && bit v 0
  | .ringDisable _ _ v => lt v 32 && !bit v 0
  | .ringStopped _ _ => true
  | .descriptorFetchDone _ _ d => decide (d.length ≤ 32) && d.all fun n => lt n 256
  | .txDataReadDone _ _ => true
  | .rxRingDeliver _ => true
  | .vectorDelivery _ => true
  | .millEnable => true
  | .millDisable => true
  | .millDrained _ => true
  | .millFrame _ => true
  | .millOversize _ => true
  | .hostBhEnableWrite _ v => lt v 32
  | .hostBhClear _ v => lt v 32
  | .mNop _ => true
  | .mMov _ _ _ => true
  | .mLdi _ _ => true
  | .mLdh _ _ => true
  | .mAdd _ _ _ => true
  | .mSub _ _ _ => true
  | .mAnd _ _ _ => true
  | .mOr _ _ _ => true
  | .mXor _ _ _ => true
  | .mShl _ _ _ => true
  | .mShr _ _ _ => true
  | .mCmp _ _ _ => true
  | .mAddq _ _ _ => true
  | .mSubq _ _ _ => true
  | .mLd _ _ _ => true
  | .mSt _ _ _ => true
  | .mIn _ _ _ => true
  | .mOut _ _ _ => true
  | .mBr _ _ => true
  | .mBz _ _ => true
  | .mBnz _ _ => true
  | .mBn _ _ => true
  | .mBc _ _ => true
  | .mCall _ _ => true
  | .mRet _ => true
  | .mJr _ _ _ => true
  | .mWait _ => true
  | .mReti _ => true
  | .mDi _ => true
  | .mEi _ => true
  | .mHook _ _ => true
  | .mKick _ => true
  | .mTrap _ _ => true
  | .vendorOpcode _ o _ => decide (0x40 ≤ o.toNat) && decide (o.toNat < 0xC0)
  | .illegalOpcode _ _ _ => true
  | .bellhouseTake _ => true
  | .holdoffExpiry _ _ => true
  | .routineOverrun _ => true
  | .stewardWatchdog _ => true
  | .stewardRestart => true
  | .stewardRestartDone _ => true
  | .counterWrap _ _ => true
  | .pcValueRead _ _ => true
  | .pcClearAll => true
  | .tallyWindowEnd _ => true
  | .tallyUsWrite => true
  | .sampleNextRead => true
  | .booksRun => true
  | .booksPeriodDue => true
  | .booksComplete => true
  | .headerLockRegained _ => true
  | .vcoreToleranceChange _ => true
  | .vembRemoved => true
  | .idleAfterLpi _ => true
  | .sequencerTimerExpiry _ _ => true
  | .drbgReseedDue => true

end Sys2Proof
end

