-- ==== Sys2Proof/Decode.lean ====
section
/-! DEFINITION. Words and commands: no row of opcode_table.json gives its command any bits (every row's fields are
empty), so no word spells one. -/

namespace Sys2Proof

def decodeTableWord (_nbits _w : Nat) : Option Instr := none

end Sys2Proof
end

