-- ==== Sys2Proof/Machine/State.lean ====
section
/-! DEFINITION. The state of the wall: everything the spec gives it, as plain data, and the state after
reset. Every Ledger object lives in `Wall.regs` (an unlisted object reads as its default, R17) and every
host-window register that is not a Ledger object lives in `Wall.win` (unlisted: its reset value, R18);
the structures below hold the rest. -/

namespace Sys2Proof.Machine

/-- The six modes of R126. -/
inductive Mode where
  | off | ember | kindle | service | doze | sealedMode
  deriving DecidableEq, Repr

/-- A table by number: keys strictly rising. -/
abbrev Tbl (α : Type) := List (Nat × α)

/-- Who asked for a Ledger request (R80): the mailbox, or a Dvor session with its SEQ and its path. -/
inductive Who where
  | mailbox
  | session (slot : Nat) (id : Nat) (seq : Nat) (peer : Peer)
  deriving DecidableEq, Repr

/-- Ledger roles (R458). -/
inductive Role where
  | h | f | o
  deriving DecidableEq, Repr

/-- The operation of a Ledger request. -/
inductive LOp where
  | read
  | write (data : List Byte)
  | segRead (offset gen len : Nat)
  | segWrite (offset gen : Nat) (last : Bool) (data : List Byte)
  deriving DecidableEq, Repr

/-- An entry of the Ledger queue (R80). -/
structure LReq where
  who : Who
  role : Role
  index : Nat
  sub : Nat
  op : LOp
  deriving DecidableEq, Repr

/-- What the wall sends out of its boundary: the model's own record of emissions, newest first (log entry 6). -/
inductive Out where
  | response (who : Who) (wallSeq : Nat) (renew : Bool) (status gen : Nat) (data : List Byte)
  | event (slot no wallSeq src code srcSeq detail stamp lost cls : Nat) (renew : Bool) (peer : Peer)
  | openReply (peer : Peer) (session nonce point sig : Nat) (approved : Bool)
  | openAbort (peer : Peer) (status : Nat)
  | closeMsg (session reason wallSeq : Nat) (peer : Peer)
  | icmp (path : Path) (echo : Bool)
  | completionError (offset size : Nat)
  | pipeCell (c : Course) (cell : PipeCell)
  | key (b : Brick) (key : Nat)
  | lookup (b : Brick) (tag op : Nat) (operand : Nat)
  | creditGrant (p : Port) (n : Nat)
  | mortarRead (tag addr len : Nat)
  | mortarWrite (addr : Nat) (data : List Byte)
  | lineFrame (sp : SubPort) (frame : List Byte) (stomped : Bool)
  | pauseFrame (sp : SubPort) (pfc : Bool) (prios : Nat) (quanta : Nat)
  | avsRequest (mv : Nat)
  | railsOff
  | wakeRequest
  | hello (l : Lane) (rates role seed : Nat)
  | ready (l : Lane) (count : Nat)
  | gossip (l : Lane) (kind exch role payload : Nat)
  | wakeBurst (p : Port)
  | lpi (p : Port) (on : Bool)
  | deviceKeyDrawn (pub : Nat)
  deriving DecidableEq, Repr

/-! ### Time (R405 to R412) -/

/-- A time write that waits for its resync instant (R411). -/
inductive TimeOp where
  | set (t : Nat)
  | step (d : Int)
  | freq (ppt : Int)
  deriving DecidableEq, Repr

structure TimeWait where
  op : TimeOp
  who : Who
  applied : Nat
  /-- A resync instant less than 1 µs after the write has passed (R411). -/
  seen : Bool
  deriving DecidableEq, Repr

structure TimeSt where
  /-- tclk edges since reset, the model's measure of elapsed time (1.25 ns each). -/
  tclk : Nat
  /-- dclk edges counted while dclk runs. -/
  dclk : Nat
  /-- The stamp count with its 32 further fraction bits (R405). -/
  acc : Nat
  /-- The increment in force (R405). -/
  inc : Nat
  /-- The step offset in 1/16 ns (R407). -/
  offset : Int
  waits : List TimeWait
  /-- TX_ADJ and RX_ADJ in force, as the last resync instant took them (R417): key port × 2, and one more for RX_ADJ. -/
  adj : Tbl Nat
  /-- TX_STAMP_NEXT FIFOs by sub-port, oldest first (R426). -/
  captures : Tbl (List Nat)
  deriving DecidableEq, Repr

/-! ### Boundary -/

/-- Who issued a Mortar read (R52). -/
inductive ReadUse where
  | desc (d : RingDir) (i : Nat)
  | data (i : Nat)
  deriving DecidableEq, Repr

inductive TagState where
  | out (u : ReadUse)
  | quarantined
  deriving DecidableEq, Repr

structure BoundarySt where
  /-- All rails are good and the wall waits for REFCORE (R41). -/
  waitRef : Bool
  /-- The related clocks stand still after a REFCORE loss (R30). -/
  clocksStopped : Bool
  /-- The Reeve's first ROM fetch is due: KINDLE was entered and its sequence has not run (R131). -/
  fetchDue : Bool
  /-- LAST_CAUSE of the move into KINDLE under way (R155), plus 256 × the code of the mode left. -/
  cause : Nat
  pfail : Bool
  pfailHigh : Bool
  vcoreIn : Bool
  vgranOk : Bool
  /-- The commit queue closed by a REFCORE loss or an EMBER entry. -/
  queueShut : Bool
  inhibit : Bool
  vembUp : Bool
  wakeReq : Bool
  zeroLatch : Bool
  /-- The ember tick counter (R29), 48 bits, and its value at EMBER entry (R144). -/
  emberTick : Nat
  emberEntry : Nat
  refLanes : Nat
  tags : Tbl TagState
  /-- Ingress pool of each course once its credit-init has come (R58), and credits the wall holds (R59). -/
  pool : Tbl Nat
  credits : Tbl Nat
  waiting : Nat
  avsOut : Option Nat
  avsRestoring : Bool
  avsRound : Bool
  /-- The wall is in DOZE: no egress credit is granted and no descriptor is fetched (R147, R148). -/
  dozing : Bool
  /-- Bricks whose steward ROM or whose course failed its KINDLE check (R142), by bit. -/
  deadBricks : Nat
  /-- A thermal shutdown holds (R72): ports that still wait for PORT_RESTART. -/
  thermal : Nat
  deriving DecidableEq, Repr

/-! ### Ledger and Dvor -/

/-- A response that waits for something after its request left the queue (R84, R337, R347, R411, R442). -/
inductive WaitFor where
  | store
  | lookup (b tag : Nat)
  | swap (b : Nat)
  | sa (key : Nat)
  | kek (k : Nat)
  deriving DecidableEq, Repr

structure Deferred where
  who : Who
  role : Role
  on : WaitFor
  deriving DecidableEq, Repr

structure Transfer where
  who : Who
  role : Role
  data : List Byte
  deriving DecidableEq, Repr

structure UnackedEvent where
  no : Nat
  src : Nat
  code : Nat
  srcSeq : Nat
  detail : Nat
  stamp : Nat
  lost : Nat
  cls : Nat
  /-- Wall SEQ the EVENT was first sent with (R103). -/
  wallSeq : Nat
  /-- RENEW_SOON as it was first sent (R103, R108). -/
  renew : Bool
  /-- Current retransmission interval in ms (R114). -/
  interval : Nat
  deriving DecidableEq, Repr

structure Response where
  seq : Nat
  wallSeq : Nat
  renew : Bool
  status : Nat
  gen : Nat
  data : List Byte
  deriving DecidableEq, Repr

structure Session where
  id : Nat
  role : Role
  keys : Nat
  peer : Peer
  high : Nat
  accepted : List Nat
  waiting : List Nat
  cache : List Response
  wallSeq : Nat
  eventNo : Nat
  lost : Nat
  unacked : List UnackedEvent
  mask : Nat
  cursor : Nat
  indicator : Bool
  /-- tclk of the last authenticated message (R101, IDLE_MS). -/
  heardAt : Nat
  deriving DecidableEq, Repr

structure Handshake where
  slot : Option Nat
  id : Nat
  peer : Peer
  role : Role
  cred : Nat
  staticPoint : Nat
  nonce : Nat
  wallNonce : Nat
  ephemeral : Nat
  point : Nat
  transcript : List Byte
  sig : Nat
  approved : Bool
  deriving DecidableEq, Repr

inductive StoreKind where
  | store | restore | dflt
  deriving DecidableEq, Repr

/-- A mode move that waits until a store command's response has been sent (R130). -/
structure StoreCmd where
  kind : StoreKind
  gens : List Nat
  deriving DecidableEq, Repr

structure LedgerSt where
  queue : List LReq
  closed : Bool
  deferred : List Deferred
  store : Option StoreCmd
  transfers : Tbl Transfer
  domGen : Tbl Nat
  doms : Tbl (List Byte)
  sessions : Tbl Session
  handshakes : List Handshake
  cursor : Nat
  indicator : Bool
  /-- MODE_REQUEST accepted, its move not begun (R130). -/
  moveDue : Nat
  icmpSecond : Nat
  icmpCount : Nat
  inbandSecond : Nat
  inbandCount : Nat
  /-- Emissions whose in-band messages have entered their egress queue (R121). -/
  inbandSent : Nat
  deriving DecidableEq, Repr

/-! ### Lanes and groups -/

structure LaneRt where
  /-- SEED sent in HELLO, redrawn at each DETECT entry and on a tie (R181, R182), and the partner's. -/
  seed : Nat
  peerSeed : Nat
  heard : Bool
  peerHeard : Bool
  peerRates : Nat
  lastMsg : List Byte
  sameMsgs : Nat
  goodRun : Nat
  badRun : Nat
  readySent : Bool
  txPam4 : Bool
  rxPam4 : Bool
  rxReady : Bool
  peerRxReady : Nat
  txData : Bool
  /-- The CDR has locked in the current phase (R170). -/
  lockedOnce : Bool
  /-- State and category left for TEST (R199). -/
  testFrom : Option (Nat × Nat)
  eyeCtrl : Nat
  eyeStartS : Nat
  /-- Failed retests so far (R231). -/
  retestFails : Nat
  retesting : Bool
  /-- The partner's local lane named in the last SPARE word (R217), and whether that word had FREE set. -/
  pair : Option Nat
  freeSeen : Bool
  /-- Rate at which a pool lane has trained (R216). -/
  trained : Option Nat
  deriving DecidableEq, Repr

structure GroupRt where
  /-- EXCH of the exchange in progress, and of the last one this side led (R191). -/
  exch : Nat
  led : Nat
  leader : Bool
  accepted : Option Nat
  /-- Rate code agreed for the group (R182). -/
  rate : Nat
  /-- Failure count of a lane training alone (R216). -/
  fails : Nat
  held10s : Bool
  /-- tclk at ACTIVE entry. -/
  activeAt : Nat
  deriving DecidableEq, Repr

/-! ### Repointing, round, Almanac -/

structure Exch where
  initiator : Bool
  exch : Nat
  /-- The spare (own lane), its partner's local number, and the lane that served the role. -/
  spare : Nat
  peerSpare : Nat
  old : Nat
  unplanned : Bool
  survey : Bool
  retire : Bool
  /-- PREPARE accepted and the spare bridged (R225 steps 2, 3). -/
  bridged : Bool
  selfBridged : Bool
  peerBridged : Bool
  /-- ROLL copies received: lane and roll codeword (R221). -/
  rollCopies : List (Nat × Nat)
  rollSent : Bool
  /-- Own receiver has taken the role; the partner's ROLLED has come. -/
  taken : Bool
  peerRolled : Bool
  tries : Nat
  oldFaulty : Bool
  oldWasPool : Bool
  deriving DecidableEq, Repr

inductive SurveyPhase where
  | moving | measuring | returning
  deriving DecidableEq, Repr

structure SurveyRt where
  /-- Port × 16 + role moved away, none for a pool lane (R237). -/
  role : Option Nat
  spare : Nat
  phase : SurveyPhase
  own : Bool
  /-- The partner's results of SURVEY PHASE 1. -/
  peerV : Nat
  peerH : Nat
  peerErr : Nat
  /-- Role whose fault waits for this survey's spare (R238). -/
  faultFor : Option Nat
  deriving DecidableEq, Repr

structure RoundRt where
  todo : List Nat
  again : List Nat
  second : Bool
  /-- Lane that this side surveys now. -/
  current : Option Nat
  /-- Lanes asked for by SURVEY_NOW. -/
  asked : List Nat
  deriving DecidableEq, Repr

structure AlmRec where
  kind : Nat
  rate : Nat
  unit : Nat
  age : Nat
  epoch : Nat
  ctle : Nat
  swing : Nat
  temp : Nat
  vcore : Nat
  v : Nat
  h : Nat
  pv : Nat
  ph : Nat
  bitsLog2 : Nat
  pErrLog2 : Nat
  errors : Nat
  action : Nat
  old : Nat
  new : Nat
  deficit : Nat
  seq : Nat
  deriving DecidableEq, Repr

structure LaneSt where
  lanes : Tbl LaneRt
  groups : Tbl GroupRt
  exchs : Tbl Exch
  exchNo : Tbl Nat
  rounds : Tbl RoundRt
  /-- Surveys under way by surveyed lane, this side's and the partner's. -/
  surveys : Tbl SurveyRt
  roundStartS : Nat
  almanac : Tbl (List AlmRec)
  deriving DecidableEq, Repr

/-! ### Ports -/

inductive QuietPhase where
  | none | requesting | answering | waking
  deriving DecidableEq, Repr

structure QuietRt where
  phase : QuietPhase
  /-- QUIET_IDLE_US has passed without a frame while another condition of R293 failed. -/
  idleDue : Bool
  /-- The wall's own wake burst has gone out and no partner burst has come yet (R299). -/
  awaiting : Bool
  deriving DecidableEq, Repr

/-- A PAUSE or PFC frame ready to go first (R289): priorities and quanta. -/
structure PauseOut where
  tc : Nat
  prios : Nat
  quanta : Nat
  deriving DecidableEq, Repr

structure PortSt where
  quiet : Tbl QuietRt
  /-- End of the pause of a sub-port's priority, in ps since reset: key sub-port × 8 + priority (R287). -/
  pauseUntil : Tbl Nat
  pauseOut : Tbl (List PauseOut)
  lockLost : List Nat
  /-- PORT_FEC_MODE in force by port (R307). -/
  fecMode : Tbl Nat
  parse : Tbl (Nat × Nat)
  lastMs : Tbl Nat
  deriving DecidableEq, Repr

/-! ### Ingress -/

/-- Part of a frame in a cell, and whether the frame begins and ends there. -/
structure Seg where
  frame : Nat
  /-- First chunk in the cell and number of chunks; byte offset of the first chunk in the frame. -/
  lo : Nat
  n : Nat
  off : Nat
  starts : Bool
  ends : Bool
  deriving DecidableEq, Repr

structure ICell where
  seq : Nat
  segs : List Seg
  stamp : Nat
  closed : Bool
  sent : Bool
  cls : Nat
  charged : Bool
  deriving DecidableEq, Repr

/-- What becomes of a frame in the brick buffer. -/
inductive Disp where
  | waiting | pipe | host | dropped
  deriving DecidableEq, Repr

structure IFrame where
  sp : Nat
  bytes : List Byte
  handle : Nat
  /-- Receive timestamp as TIME96 (R408, R413). -/
  stamp : Nat
  /-- A key was sent to the core, and its decision is outstanding. -/
  keyed : Bool
  keyOut : Bool
  disp : Disp
  down : Bool
  copy : Bool
  ring : Nat
  tag : Nat
  colour : Nat
  frag : Nat
  gleaned : Bool
  secured : Bool
  l3ck : Nat
  l4ck : Nat
  result : Option Nat
  /-- A delivery or copy to a host ring has not ended yet (R312). -/
  hostPending : Bool
  deriving DecidableEq, Repr

structure Glean where
  kind : Nat
  src : Nat
  dst : Nat
  ident : Nat
  proto : Nat
  bytes : List Byte
  seen : Nat
  total : Option Nat
  refreshed : Nat
  deriving DecidableEq, Repr

structure SieveEntry where
  value : Nat
  mask : Nat
  action : Nat
  deriving DecidableEq, Repr

structure Policer where
  cir : Nat
  cbs : Nat
  ebs : Nat
  flags : Nat
  /-- Bucket contents in 1/12 800 000 byte, in which a refill by elapsed dclk is exact, and the dclk of the last refill (R340). -/
  tc : Nat
  te : Nat
  last : Nat
  deriving DecidableEq, Repr

inductive LookupUse where
  | flush (sp : Nat)
  | relay
  | dead
  deriving DecidableEq, Repr

structure IngressSt where
  cells : Tbl (List ICell)
  frames : Tbl IFrame
  nextFrame : Nat
  seqIn : Tbl Nat
  seqEg : Tbl Nat
  glean : Tbl Glean
  sieve : Tbl SieveEntry
  master : Tbl SieveEntry
  hits : Tbl Nat
  indirection : Tbl Nat
  policers : Tbl Policer
  lookups : Tbl LookupUse
  flushWait : List Nat
  learnHeld : List Nat
  keysIssued : Tbl Nat
  keysMatched : Tbl Nat
  keysTimedOut : Tbl Nat
  swapCopy : Tbl Bool
  wrr : Tbl Nat
  stalled : Nat
  lastMs : Tbl Nat
  deriving DecidableEq, Repr

/-! ### Egress -/

/-- Source of an egress frame. -/
inductive FrameSrc where
  | pipe
  /-- Ring, index of the first descriptor, number of descriptors. -/
  | host (ring first count : Nat)
  | inband
  deriving DecidableEq, Repr

structure EFrame where
  src : FrameSrc
  sp : Nat
  bytes : List Byte
  whole : Bool
  chunks : Nat
  stamp : Nat
  /-- First descriptor of a host frame. -/
  desc : Nat
  deriving DecidableEq, Repr

structure EQueue where
  frames : List EFrame
  deficit : Int
  turn : Bool
  drops : Nat
  sent : Nat
  deriving DecidableEq, Repr

structure Shaper where
  rate : Nat
  burst : Nat
  /-- Tokens in 1/12 800 byte, in which accrual by elapsed dclk is exact (R381), and the dclk they were last brought up to. -/
  tokens : Int
  last : Nat
  calendar : Bool
  deriving DecidableEq, Repr

structure TxNow where
  frame : EFrame
  queue : Nat
  tc : Nat
  /-- Packet number and AN of the SA that protects the frame (R438). -/
  pn : Option (Nat × Nat)
  /-- MAX_FRAME at the frame boundary at which it started (R307). -/
  maxFrame : Nat
  deriving DecidableEq, Repr

structure Gate where
  oper : List (Nat × Nat)
  cycle : Nat
  base : Nat
  index : Nat
  changeAt : Option Nat
  extendTo : Option Nat
  deriving DecidableEq, Repr

structure EgressSt where
  queues : Tbl EQueue
  active : Tbl (List Nat)
  shapers : Tbl Shaper
  building : Tbl EFrame
  txNow : Tbl TxNow
  /-- Frames whose remaining bytes are thrown away as they arrive, by sub-port (R279, R352). -/
  skipping : List Nat
  pipeOcc : Tbl Nat
  hostOcc : Tbl Nat
  hostChunks : Tbl Nat
  coreCredits : Tbl Nat
  gates : Tbl Gate
  wrr : Tbl Nat
  deriving DecidableEq, Repr

/-! ### Security -/

structure Sa where
  key : List Byte
  durable : Bool
  ki : Option Nat
  salt : Nat
  ssci : Nat
  nextPn : Nat
  reservedEnd : Nat
  /-- The reservation asked for and not yet committed (R448), and whether it waits for a retry. -/
  want : Option Nat
  retry : Bool
  stalled : Bool
  warned : Bool
  highest : Nat
  /-- The LOWEST_PN a receive SA was installed or resumed with (R442, R452). -/
  floor : Nat
  /-- Installation waits for its first reservation, and for its durable record (R442). -/
  pendingInstall : Bool
  recordDue : Bool
  deriving DecidableEq, Repr

structure KiEntry where
  ki : Nat
  fp : Nat
  ssci : Nat
  reservedEnd : Nat
  age : Nat
  deriving DecidableEq, Repr

structure SecSt where
  sas : Tbl Sa
  blobs : Tbl (List Byte × Bool)
  kis : Tbl KiEntry
  kiClock : Nat
  keks : Tbl (List Byte)
  deviceKey : Option Nat
  drbg : Nat
  testsPassed : Bool
  /-- A zeroisation under way and its cause (R471); 16 more when KINDLE reruns it from the marker (R502). -/
  zeroising : Option Nat
  stallS : Tbl Nat
  deriving DecidableEq, Repr

/-! ### Granary -/

structure Header where
  gen : Nat
  layout : Nat
  retired : List Nat
  zeroiseCount : Nat
  marker : Option Nat
  deriving DecidableEq, Repr

inductive RowState where
  | free | opened | full | retired
  deriving DecidableEq, Repr

structure Row where
  state : RowState
  key : Bool
  cycles : Nat
  used : Nat
  deriving DecidableEq, Repr

/-- What follows the commit of a group's last sheaf (R491). -/
inductive After where
  | none
  | reservation (sa : Nat) (resEnd : Nat)
  | saRecord (sa : Nat)
  | store (gen : Nat)
  | kekRecord (k : Nat)
  /-- The last live sheaf of a reclaimed row has moved: the row becomes free (R487). -/
  | freeRow (r : Nat)
  /-- The last live sheaf of a row that failed read-back has moved: the row is retired (R488). -/
  | retireRow (r bank : Nat)
  deriving DecidableEq, Repr

structure CommitItem where
  sheaf : Sheaf
  rank : Nat
  after : After
  /-- Rewrite in place at this slot of this bank instead of an append (R500). -/
  repair : Option (Nat × Nat)
  deriving DecidableEq, Repr

structure ShelfSlot where
  valid : Bool
  gen : Nat
  image : List Byte
  deriving DecidableEq, Repr

structure Retention where
  valid : Bool
  tick : Nat
  edges : Tbl Nat
  enables : Tbl Nat
  holdoffs : Tbl Nat
  deriving DecidableEq, Repr

structure GranarySt where
  bank0 : Tbl SlotCopy
  bank1 : Tbl SlotCopy
  hdr0 : List Header
  hdr1 : List Header
  rows : Tbl Row
  queue : List CommitItem
  waiting : List CommitItem
  done : List After
  genNext : Nat
  /-- tclk of the last event 0x0B01 (R509). -/
  benignAt : Option Nat
  digestSeq : Nat
  shelf : Tbl ShelfSlot
  /-- Shelf generations of the images that run: 0 the Reeve's, 1 the stewards', 2 the customer's (R573); 16 + n when
  steward n runs its ROM only (R577). -/
  loadedGen : Tbl Nat
  digest : List Nat
  digestWait : List Nat
  bucket : Nat
  suppressed : Nat
  retiredToday : Tbl Nat
  retireDay : Nat
  wearDays : List (Nat × Nat)
  retention : Retention
  deriving DecidableEq, Repr

/-! ### Rings, vectors, Mill -/

structure RingRt where
  /-- Next descriptor index to fetch, descriptors held with their index, whether a descriptor read is out. -/
  fetchAt : Nat
  held : List (Nat × Nat)
  reading : Bool
  /-- Transmit: descriptors of the frame whose data read is outstanding. -/
  dataFor : List (Nat × Nat)
  /-- The sub-port that frame goes to, whose port holds its chunks. -/
  feeds : Nat
  /-- Transmit: first index, descriptors so far and first descriptor of a frame of more than 32 descriptors whose
  EOP has not come yet (R522). -/
  tooLong : Option (Nat × Nat × Nat)
  /-- Completed descriptor indices beyond RING_HEAD. -/
  done : List Nat
  dozeTail : Option Nat
  /-- Receive: frames waiting for their delivery (frame numbers), oldest first. -/
  due : List Nat
  deriving DecidableEq, Repr

structure VecRt where
  pending : Nat
  first : Nat
  last : Nat
  deriving DecidableEq, Repr

structure MillFrame where
  bytes : List Byte
  first : Nat
  count : Nat
  desc : Nat
  value : Nat
  bad : Bool
  deriving DecidableEq, Repr

structure MillRt where
  waiting : List MillFrame
  loop : List MillFrame
  taken : Nat
  delivered : Nat
  lost : Nat
  deriving DecidableEq, Repr

structure HostSt where
  rings : Tbl RingRt
  vecs : Tbl VecRt
  mills : Tbl MillRt
  /-- Ring served last by sub-port (R529). -/
  turn : Tbl Nat
  deriving DecidableEq, Repr

/-! ### Sequencers and Bellhouse -/

structure SeqRt where
  g : Tbl Nat
  t : Tbl Nat
  mpc : Nat
  stack : List Nat
  z : Bool
  n : Bool
  c : Bool
  v : Bool
  ie : Bool
  inHandler : Bool
  retMpc : Nat
  retFlags : Nat
  source : Option Nat
  waiting : Bool
  data : Tbl Nat
  io : Tbl Nat
  dispatch : Tbl Nat
  micro : Tbl Nat
  handlers : Tbl Nat
  macroMem : Tbl Nat
  kicked : Nat
  /-- Running hold-offs by group and their ends in tclk (R582). -/
  holdoff : Tbl Nat
  /-- Code of the last TRAP, as the vendor trap routine receives it in OPR (R576). -/
  trap : Option Nat
  macroCount : Nat
  /-- tclk of the last event 0x0D02 and of the last customer event (R576, R589). -/
  lastIllegal : Option Nat
  lastCustomer : Option Nat
  /-- What a precise sample of the instruction executing now would hold (R611). -/
  nowMpc : Nat
  nowOp : Nat
  nowOpr : Nat
  nowAddr : Nat
  nowKind : Nat
  nowLat : Nat
  nowCust : Bool
  deriving DecidableEq, Repr

structure StewardSt where
  seqs : Tbl SeqRt
  hooks : Tbl Nat
  /-- Level causes now high, by Bellhouse (R580). -/
  levels : Tbl Nat
  /-- Stewards whose restart is under way, with its cause (R577). -/
  restarting : Tbl Nat
  /-- A Reeve fault whose restart, a move to KINDLE, is due at the end of the step (R576). -/
  reeveFault : Bool
  deriving DecidableEq, Repr

/-! ### Observability -/

structure DbEntry where
  src : Nat
  code : Nat
  seq : Nat
  stamp : Nat
  detail : Nat
  deriving DecidableEq, Repr

structure Tally where
  rxBytes : Nat
  txBytes : Nat
  rxFrames : Nat
  txFrames : Nat
  notActive : Bool
  deriving DecidableEq, Repr

structure ObsSt where
  day : Tbl DbEntry
  srcSeq : Tbl Nat
  samples : List Nat
  sampleSeq : Tbl Nat
  high : Tbl Nat
  tally : Tbl Tally
  tallyRecs : Tbl Nat
  tallySeq : Tbl Nat
  books : Option Nat
  booksDue : Bool
  illegalS : Tbl Nat
  deriving DecidableEq, Repr

/-- Everything but the mode and the queue of waiting commands. -/
structure Wall where
  regs : Tbl Nat
  win : Tbl Nat
  time : TimeSt
  bnd : BoundarySt
  led : LedgerSt
  lan : LaneSt
  prt : PortSt
  ing : IngressSt
  egr : EgressSt
  sec : SecSt
  gra : GranarySt
  hst : HostSt
  stw : StewardSt
  obs : ObsSt
  /-- The model's own counter of free values taken so far (log entry 4). -/
  freeN : Nat
  out : List Out
  deriving DecidableEq, Repr

/-- The state: the queue of waiting commands, the mode of R126, and the wall. -/
structure State where
  pending : List Instr
  mode : Mode
  w : Wall
  deriving DecidableEq, Repr

/-- Faults of the model: nobody raises one, since the spec gives every command of the table an effect. -/
inductive Fault where
  /-- Raised by nobody. Safe. -/
  | none
  deriving DecidableEq, Repr

/-- Refusals of the model. -/
inductive Refusal where
  /-- Raised by an arm of `exec` whose command has no meaning yet. Safe. -/
  | notModelled (mnemonic : String)
  deriving DecidableEq, Repr

def TimeSt.reset : TimeSt :=
  { tclk := 0, dclk := 0, acc := 0, inc := 20 * 2 ^ 32, offset := 0, waits := [], adj := [], captures := [] }

def BoundarySt.reset : BoundarySt :=
  { waitRef := false, clocksStopped := false, fetchDue := false, cause := 1, pfail := false,
    pfailHigh := false, vcoreIn := true, vgranOk := true, queueShut := false, inhibit := false,
    vembUp := true, wakeReq := false, zeroLatch := false, emberTick := 0, emberEntry := 0,
    refLanes := 0, tags := [], pool := [], credits := [], waiting := 0, avsOut := none,
    avsRestoring := false, avsRound := false, dozing := false, deadBricks := 0, thermal := 0 }

def LedgerSt.reset : LedgerSt :=
  { queue := [], closed := false, deferred := [], store := none, transfers := [], domGen := [],
    doms := [], sessions := [], handshakes := [], cursor := 0, indicator := true, moveDue := 0,
    icmpSecond := 0, icmpCount := 0, inbandSecond := 0, inbandCount := 0, inbandSent := 0 }

def LaneSt.reset : LaneSt :=
  { lanes := [], groups := [], exchs := [], exchNo := [], rounds := [], surveys := [], roundStartS := 0, almanac := [] }

def PortSt.reset : PortSt :=
  { quiet := [], pauseUntil := [], pauseOut := [], lockLost := [], fecMode := [], parse := [], lastMs := [] }

def IngressSt.reset : IngressSt :=
  { cells := [], frames := [], nextFrame := 0, seqIn := [], seqEg := [], glean := [], sieve := [],
    master := [], hits := [], indirection := [], policers := [], lookups := [], flushWait := [],
    learnHeld := [], keysIssued := [], keysMatched := [], keysTimedOut := [], swapCopy := [],
    wrr := [], stalled := 0, lastMs := [] }

def EgressSt.reset : EgressSt :=
  { queues := [], active := [], shapers := [], building := [], txNow := [], skipping := [],
    pipeOcc := [], hostOcc := [], hostChunks := [], coreCredits := [], gates := [], wrr := [] }

def SecSt.reset : SecSt :=
  { sas := [], blobs := [], kis := [], kiClock := 0, keks := [], deviceKey := none, drbg := 0,
    testsPassed := false, zeroising := none, stallS := [] }

def GranarySt.reset : GranarySt :=
  let h : Header := { gen := 1, layout := Config.factoryLayout 0, retired := [], zeroiseCount := 0, marker := none }
  { bank0 := [], bank1 := [], hdr0 := [h], hdr1 := [h], rows := [], queue := [], waiting := [], done := [],
    genNext := 1, benignAt := none, digestSeq := 0, shelf := [], loadedGen := [], digest := [], digestWait := [], bucket := 16,
    suppressed := 0, retiredToday := [], retireDay := 0, wearDays := [],
    retention := { valid := false, tick := 0, edges := [], enables := [], holdoffs := [] } }

def HostSt.reset : HostSt := { rings := [], vecs := [], mills := [], turn := [] }

def StewardSt.reset : StewardSt := { seqs := [], hooks := [], levels := [], restarting := [], reeveFault := false }

def ObsSt.reset : ObsSt :=
  { day := [], srcSeq := [], samples := [], sampleSeq := [], high := [],
    tally := [], tallyRecs := [], tallySeq := [], books := none, booksDue := false, illegalS := [] }

def Wall.reset : Wall :=
  { regs := [], win := [], time := .reset, bnd := .reset, led := .reset, lan := .reset, prt := .reset,
    ing := .reset, egr := .reset, sec := .reset, gra := .reset, hst := .reset, stw := .reset, obs := .reset,
    freeN := 0, out := [] }

/-- The wall before any power-good: mode OFF, every object at its default, nothing in any store (R17, R126). -/
def State.reset : State := { pending := [], mode := .off, w := .reset }

end Sys2Proof.Machine
end

