-- ==== Sys2Proof/Machine/Regs.lean ====
section
/-! DEFINITION. The Ledger objects by name: for each the key under which `Wall.regs` holds it
(index × 256 + subindex), its default (R17), and its width in bits. `u` is the unit (brick, port, sub-port,
lane, session slot, sequencer …) and `k` the place within a row of subindices, both from 0. -/

namespace Sys2Proof.Machine

/-- A Ledger object's place, default and width. -/
structure Reg where
  key : Nat
  dflt : Nat
  bits : Nat

/-- The lane that serves role `r` of port `p` at factory default (R3). -/
def homeLane (p r : Nat) : Nat := p / 4 * 68 + p % 4 * 16 + r

/-- Port × 16 + role of a lane at factory default, 0xFFFF for a spare (R3). -/
def homeServes (l : Nat) : Nat :=
  if l % 68 < 64 then (l / 68 * 4 + l % 68 / 16) * 16 + l % 16 else 0xFFFF

/-- Bits 64 to 67: the four spares of a brick (R3). -/
def poolHome : Nat := 0xF * 2 ^ 64

/-- "Uhlano Microsystems", as a TEXT value with its length mark. -/
def vendorText : Nat :=
  [0x55, 0x68, 0x6C, 0x61, 0x6E, 0x6F, 0x20, 0x4D, 0x69, 0x63, 0x72, 0x6F, 0x73, 0x79, 0x73, 0x74, 0x65, 0x6D, 0x73].foldr
    (fun b a => b + 256 * a) 1

/-- "Miovex W64", likewise. -/
def deviceText : Nat :=
  [0x4D, 0x69, 0x6F, 0x76, 0x65, 0x78, 0x20, 0x57, 0x36, 0x34].foldr (fun b a => b + 256 * a) 1

/-- FIELDS of profile 63: bytes 0 to 55 as seven fields of 8; zero for every other profile (R318). -/
def fieldsHome (i : Nat) : Nat :=
  if i = 63 then
    [0, 8, 8, 8, 16, 8, 24, 8, 32, 8, 40, 8, 48, 8].foldr (fun b a => b + 256 * a) 0
  else 0

/-- HASH_BYTES of profile 63: data bytes 0 to 11 (R342). -/
def hashBytesHome (i : Nat) : Nat := if i = 63 then 0xFFF else 0

/-- QUEUE_MAP: entry v is v mod 8 (R402). -/
def queueMapHome : Nat := (List.range 64).foldr (fun v a => v % 8 + 256 * a) 0

/-- Bytes of a number in the other order: `n` bytes. -/
def swapBytes : Nat → Nat → Nat
  | 0, _ => 0
  | n + 1, v => v % 256 * 256 ^ n + swapBytes n (v / 256)

/-- TX_SCI at default: the sub-port's factory address followed by port number 1 (R475). -/
def sciOf (sp : Nat) : Nat := Config.spMac sp % 2 ^ 48 + 0x0100 * 2 ^ 48

/-- Field `f` of the security association `k` = channel × 4 + AN of sub-port `u`; channel 0 is the transmit SC,
channel 1 + c is receive SC c (R475). -/
def saKey (u k f : Nat) : Nat := (0x7001 + u * 8 + k / 4) * 256 + 0x10 * (k % 4 + 1) + f

/-- RAIL_GOOD (R74). -/
def Reg.railGood : Reg := ⟨(0x1040) * 256 + 0x01, 0, 8⟩

/-- VCORE_MV (R74). -/
def Reg.vcoreMv : Reg := ⟨(0x1040) * 256 + 0x02, 700, 16⟩

/-- PFAIL_COUNT (R74). -/
def Reg.pfailCount : Reg := ⟨(0x1040) * 256 + 0x03, 0, 32⟩

/-- TJ (R74). -/
def Reg.tj (k : Nat) : Reg := ⟨(0x1041) * 256 + 0x01 + k, 0, 16⟩

/-- TJ_ALARM_C (R74). -/
def Reg.tjAlarmC : Reg := ⟨(0x1041) * 256 + 0x06, 100, 16⟩

/-- AVS_ENABLE (R74). -/
def Reg.avsEnable : Reg := ⟨(0x1042) * 256 + 0x01, 1, 1⟩

/-- AVS_STORED_MV (R74). -/
def Reg.avsStoredMv : Reg := ⟨(0x1042) * 256 + 0x02, 700, 16⟩

/-- AVS_MIN_MV (R74). -/
def Reg.avsMinMv : Reg := ⟨(0x1042) * 256 + 0x03, 650, 16⟩

/-- AVS_MAX_MV (R74). -/
def Reg.avsMaxMv : Reg := ⟨(0x1042) * 256 + 0x04, 800, 16⟩

/-- AVS_REFUSED (R74). -/
def Reg.avsRefused : Reg := ⟨(0x1042) * 256 + 0x05, 0, 32⟩

/-- TAGS_OUT (R74). -/
def Reg.tagsOut : Reg := ⟨(0x1043) * 256 + 0x01, 0, 16⟩

/-- READ_TIMEOUTS (R74). -/
def Reg.readTimeouts : Reg := ⟨(0x1043) * 256 + 0x02, 0, 32⟩

/-- LATE_COMPLETIONS (R74). -/
def Reg.lateCompletions : Reg := ⟨(0x1043) * 256 + 0x03, 0, 32⟩

/-- UNMAPPED_ACCESS (R74). -/
def Reg.unmappedAccess : Reg := ⟨(0x1043) * 256 + 0x04, 0, 32⟩

/-- ROOT_LOCKED (R74). -/
def Reg.rootLocked : Reg := ⟨(0x1300) * 256 + 0x01, 0, 1⟩

/-- REFCORE_LOSSES (R74). -/
def Reg.refcoreLosses : Reg := ⟨(0x1300) * 256 + 0x02, 0, 32⟩

/-- REFLANE_PRESENT (R74). -/
def Reg.reflanePresent : Reg := ⟨(0x1300) * 256 + 0x03, 0, 16⟩

/-- SYNCOUT_ENABLE (R74). -/
def Reg.syncoutEnable (u : Nat) : Reg := ⟨(0x1301 + u) * 256 + 0x01, 0, 1⟩

/-- SYNCOUT_SP (R74). -/
def Reg.syncoutSp (u : Nat) : Reg := ⟨(0x1301 + u) * 256 + 0x02, 0, 16⟩

/-- SYNCOUT_ROLE (R74). -/
def Reg.syncoutRole (u : Nat) : Reg := ⟨(0x1301 + u) * 256 + 0x03, 0, 8⟩

/-- SYNCOUT_DIVIDER (R74). -/
def Reg.syncoutDivider (u : Nat) : Reg := ⟨(0x1301 + u) * 256 + 0x04, 680, 16⟩

/-- SYNCOUT_STATE (R74). -/
def Reg.syncoutState (u : Nat) : Reg := ⟨(0x1301 + u) * 256 + 0x05, 0, 8⟩

/-- STORE_RANGE (R123). -/
def Reg.storeRange : Reg := ⟨(0x1010) * 256 + 0x01, 0, 32⟩

/-- STORE_STATE (R123). -/
def Reg.storeState : Reg := ⟨(0x1010) * 256 + 0x02, 0, 8⟩

/-- STORE_RESULT (R123). -/
def Reg.storeResult : Reg := ⟨(0x1010) * 256 + 0x03, 0, 32⟩

/-- RESTORE_RANGE (R123). -/
def Reg.restoreRange : Reg := ⟨(0x1011) * 256 + 0x01, 0, 32⟩

/-- DEFAULT_RANGE (R123). -/
def Reg.defaultRange : Reg := ⟨(0x1011) * 256 + 0x02, 0, 32⟩

/-- FIELD_ADDR (R123). -/
def Reg.fieldAddr : Reg := ⟨(0x1100) * 256 + 0x01, 0, 128⟩

/-- DVOR_UDP_PORT (R123). -/
def Reg.dvorUdpPort : Reg := ⟨(0x1100) * 256 + 0x03, 49710, 16⟩

/-- F0_MAC (R123). -/
def Reg.f0Mac : Reg := ⟨(0x1100) * 256 + 0x04, Config.fieldMac 0, 48⟩

/-- F1_MAC (R123). -/
def Reg.f1Mac : Reg := ⟨(0x1100) * 256 + 0x05, Config.fieldMac 1, 48⟩

/-- AUTH_FAIL (R123). -/
def Reg.authFail : Reg := ⟨(0x1101) * 256 + 0x01, 0, 32⟩

/-- SEQ_OLD (R123). -/
def Reg.seqOld : Reg := ⟨(0x1101) * 256 + 0x02, 0, 32⟩

/-- SEQ_AHEAD (R123). -/
def Reg.seqAhead : Reg := ⟨(0x1101) * 256 + 0x03, 0, 32⟩

/-- BUSY_REFUSED (R123). -/
def Reg.busyRefused : Reg := ⟨(0x1101) * 256 + 0x04, 0, 32⟩

/-- EVENTS_DROPPED (R123). -/
def Reg.eventsDropped : Reg := ⟨(0x1101) * 256 + 0x05, 0, 32⟩

/-- FIELD_OTHER (R123). -/
def Reg.fieldOther : Reg := ⟨(0x1101) * 256 + 0x06, 0, 32⟩

/-- INBAND_ENABLE (R123). -/
def Reg.inbandEnable : Reg := ⟨(0x1110) * 256 + 0x01, 0, 1⟩

/-- INBAND_SP (R123). -/
def Reg.inbandSp : Reg := ⟨(0x1110) * 256 + 0x02, 0, 16⟩

/-- INBAND_QUEUE (R123). -/
def Reg.inbandQueue : Reg := ⟨(0x1110) * 256 + 0x03, 63, 8⟩

/-- INBAND_RATE (R123). -/
def Reg.inbandRate : Reg := ⟨(0x1110) * 256 + 0x04, 10000, 32⟩

/-- INBAND_DROPPED (R123). -/
def Reg.inbandDropped : Reg := ⟨(0x1110) * 256 + 0x05, 0, 32⟩

/-- SESSION_STATE (R123). -/
def Reg.sessionState (u : Nat) : Reg := ⟨(0x1120 + u) * 256 + 0x01, 0, 8⟩

/-- SESSION_ROLE (R123). -/
def Reg.sessionRole (u : Nat) : Reg := ⟨(0x1120 + u) * 256 + 0x02, 0, 8⟩

/-- SESSION_ID (R123). -/
def Reg.sessionId (u : Nat) : Reg := ⟨(0x1120 + u) * 256 + 0x03, 0, 32⟩

/-- SEQ_IN_HIGH (R123). -/
def Reg.seqInHigh (u : Nat) : Reg := ⟨(0x1120 + u) * 256 + 0x04, 0, 32⟩

/-- SEQ_OUT (R123). -/
def Reg.seqOut (u : Nat) : Reg := ⟨(0x1120 + u) * 256 + 0x05, 0, 32⟩

/-- IDLE_MS (R123). -/
def Reg.idleMs (u : Nat) : Reg := ⟨(0x1120 + u) * 256 + 0x06, 0, 32⟩

/-- EVENTS_UNACKED (R123). -/
def Reg.eventsUnacked (u : Nat) : Reg := ⟨(0x1120 + u) * 256 + 0x07, 0, 8⟩

/-- MY_EVENT_MASK (R123). -/
def Reg.myEventMask : Reg := ⟨(0x1130) * 256 + 0x01, (2^64-1), 64⟩

/-- VENDOR (R154). -/
def Reg.vendor : Reg := ⟨(0x1000) * 256 + 0x01, vendorText, 2056⟩

/-- DEVICE (R154). -/
def Reg.device : Reg := ⟨(0x1000) * 256 + 0x02, deviceText, 2056⟩

/-- HW_REVISION (R154). -/
def Reg.hwRevision : Reg := ⟨(0x1000) * 256 + 0x03, Config.hwRevision 0, 16⟩

/-- SERIAL (R154). -/
def Reg.serial : Reg := ⟨(0x1000) * 256 + 0x04, Config.serial 0, 128⟩

/-- ROM_VERSION (R154). -/
def Reg.romVersion : Reg := ⟨(0x1001) * 256 + 0x01, Config.romVersion 0, 32⟩

/-- HW_EPOCH (R154). -/
def Reg.hwEpoch : Reg := ⟨(0x1001) * 256 + 0x02, Config.hwEpoch 0, 16⟩

/-- REEVE_EPOCH (R154). -/
def Reg.reeveEpoch : Reg := ⟨(0x1001) * 256 + 0x03, 0, 16⟩

/-- STEWARD_EPOCH (R154). -/
def Reg.stewardEpoch : Reg := ⟨(0x1001) * 256 + 0x04, 0, 16⟩

/-- STEWARD_ABI (R154). -/
def Reg.stewardAbi : Reg := ⟨(0x1001) * 256 + 0x05, 0, 16⟩

/-- GRANARY_LAYOUT (R154). -/
def Reg.granaryLayout : Reg := ⟨(0x1001) * 256 + 0x06, 0, 16⟩

/-- LAYOUT_MAX (R154). -/
def Reg.layoutMax : Reg := ⟨(0x1001) * 256 + 0x07, 0, 16⟩

/-- IMAGE_SLOTS (R154). -/
def Reg.imageSlots : Reg := ⟨(0x1001) * 256 + 0x08, 0, 8⟩

/-- MODE (R154). -/
def Reg.mode : Reg := ⟨(0x1002) * 256 + 0x01, 2, 8⟩

/-- MODE_REQUEST (R154). -/
def Reg.modeRequest : Reg := ⟨(0x1002) * 256 + 0x02, 0, 8⟩

/-- BARE (R154). -/
def Reg.bare : Reg := ⟨(0x1002) * 256 + 0x03, 0, 8⟩

/-- LAST_CAUSE (R154). -/
def Reg.lastCause : Reg := ⟨(0x1002) * 256 + 0x04, 0, 8⟩

/-- KINDLE_COUNT (R154). -/
def Reg.kindleCount : Reg := ⟨(0x1002) * 256 + 0x05, 0, 32⟩

/-- KINDLE_FROM (R154). -/
def Reg.kindleFrom : Reg := ⟨(0x1002) * 256 + 0x06, 0, 8⟩

/-- KINDLE_STEP (R154). -/
def Reg.kindleStep : Reg := ⟨(0x1002) * 256 + 0x07, 1, 8⟩

/-- KINDLE_US (R154). -/
def Reg.kindleUs : Reg := ⟨(0x1002) * 256 + 0x08, 0, 32⟩

/-- FORCE_BARE (R154). -/
def Reg.forceBare : Reg := ⟨(0x1002) * 256 + 0x09, 0, 1⟩

/-- GRANARY_RO (R154). -/
def Reg.granaryRo : Reg := ⟨(0x1002) * 256 + 0x0A, 0, 1⟩

/-- SEALED_CAUSE (R154). -/
def Reg.sealedCause : Reg := ⟨(0x1002) * 256 + 0x0B, 0, 8⟩

/-- EMBER_TICKS (R154). -/
def Reg.emberTicks : Reg := ⟨(0x1002) * 256 + 0x0C, 0, 64⟩

/-- WAKE_PATTERN (R154). -/
def Reg.wakePattern (k : Nat) : Reg := ⟨(0x1003) * 256 + 0x01 + k, 0, 512⟩

/-- WAKE_MASK (R154). -/
def Reg.wakeMask (k : Nat) : Reg := ⟨(0x1003) * 256 + 0x05 + k, 0, 512⟩

/-- WAKE_ENABLE (R154). -/
def Reg.wakeEnable : Reg := ⟨(0x1003) * 256 + 0x09, 0, 8⟩

/-- WAKE_CAUSE (R154). -/
def Reg.wakeCause : Reg := ⟨(0x1003) * 256 + 0x0A, 0, 8⟩

/-- LANE_RATE (R209). -/
def Reg.laneRate (u : Nat) : Reg := ⟨(0x4001 + u * 64) * 256 + 0x00, 0, 8⟩

/-- TRAIN_MODE (R209). -/
def Reg.trainMode (u : Nat) : Reg := ⟨(0x4002 + u * 64) * 256 + 0x00, 0, 8⟩

/-- OFFER_CAPS (R209). -/
def Reg.offerCaps (u : Nat) : Reg := ⟨(0x4003 + u * 64) * 256 + 0x00, 0x0F, 8⟩

/-- AGREED_CAPS (R209). -/
def Reg.agreedCaps (u k : Nat) : Reg := ⟨(0x4004 + u * 64) * 256 + 0x01 + k, 0, 16⟩

/-- BRINGUP_STATE (R209). -/
def Reg.bringupState (u k : Nat) : Reg := ⟨(0x4005 + u * 64) * 256 + 0x01 + k, 0, 8⟩

/-- BRINGUP_FAILS (R209). -/
def Reg.bringupFails (u k : Nat) : Reg := ⟨(0x4006 + u * 64) * 256 + 0x01 + k, 0, 8⟩

/-- LAST_FAIL (R209). -/
def Reg.lastFail (u k : Nat) : Reg := ⟨(0x4007 + u * 64) * 256 + 0x01 + k, 0, 8⟩

/-- TRAIN_RESTART (R209). -/
def Reg.trainRestart (u : Nat) : Reg := ⟨(0x4008 + u * 64) * 256 + 0x00, 0, 8⟩

/-- CDR_BW_DEFAULT (R209). -/
def Reg.cdrBwDefault (u : Nat) : Reg := ⟨(0x4009 + u * 64) * 256 + 0x00, 2, 8⟩

/-- LANE_STATE (R210). -/
def Reg.laneState (u : Nat) : Reg := ⟨(0x6000 + u) * 256 + 0x01, 0, 8⟩

/-- CTLE_CODE (R210). -/
def Reg.ctleCode (u : Nat) : Reg := ⟨(0x6000 + u) * 256 + 0x02, 0, 8⟩

/-- CTLE_OVERRIDE (R210). -/
def Reg.ctleOverride (u : Nat) : Reg := ⟨(0x6000 + u) * 256 + 0x03, 0xFF, 8⟩

/-- TX_SWING (R210). -/
def Reg.txSwing (u : Nat) : Reg := ⟨(0x6000 + u) * 256 + 0x04, 10, 8⟩

/-- TX_SWING_OVERRIDE (R210). -/
def Reg.txSwingOverride (u : Nat) : Reg := ⟨(0x6000 + u) * 256 + 0x05, 0xFF, 8⟩

/-- CDR_BW (R210). -/
def Reg.cdrBw (u : Nat) : Reg := ⟨(0x6000 + u) * 256 + 0x06, 2, 8⟩

/-- DEEMPH_ENABLE (R210). -/
def Reg.deemphEnable (u : Nat) : Reg := ⟨(0x6000 + u) * 256 + 0x07, 1, 1⟩

/-- TX_INVERT (R210). -/
def Reg.txInvert (u : Nat) : Reg := ⟨(0x6000 + u) * 256 + 0x08, 0, 1⟩

/-- RX_POLARITY (R210). -/
def Reg.rxPolarity (u : Nat) : Reg := ⟨(0x6000 + u) * 256 + 0x09, 0, 8⟩

/-- RX_INVERTED (R210). -/
def Reg.rxInverted (u : Nat) : Reg := ⟨(0x6000 + u) * 256 + 0x0A, 0, 1⟩

/-- SIGNAL_DETECT (R210). -/
def Reg.signalDetect (u : Nat) : Reg := ⟨(0x6000 + u) * 256 + 0x0B, 0, 1⟩

/-- CDR_LOCKED (R210). -/
def Reg.cdrLocked (u : Nat) : Reg := ⟨(0x6000 + u) * 256 + 0x0C, 0, 1⟩

/-- LOCK_LOSSES (R210). -/
def Reg.lockLosses (u : Nat) : Reg := ⟨(0x6000 + u) * 256 + 0x0D, 0, 32⟩

/-- TRAIN_FAILS (R210). -/
def Reg.trainFails (u : Nat) : Reg := ⟨(0x6000 + u) * 256 + 0x0E, 0, 32⟩

/-- TRAIN_BAD_FRAMES (R210). -/
def Reg.trainBadFrames (u : Nat) : Reg := ⟨(0x6000 + u) * 256 + 0x0F, 0, 32⟩

/-- GOSSIP_BAD (R210). -/
def Reg.gossipBad (u : Nat) : Reg := ⟨(0x6000 + u) * 256 + 0x10, 0, 32⟩

/-- TEST_ENABLE (R210). -/
def Reg.testEnable (u : Nat) : Reg := ⟨(0x6000 + u) * 256 + 0x11, 0, 1⟩

/-- TEST_RATE (R210). -/
def Reg.testRate (u : Nat) : Reg := ⟨(0x6000 + u) * 256 + 0x12, 0, 8⟩

/-- PRBS_TX (R210). -/
def Reg.prbsTx (u : Nat) : Reg := ⟨(0x6000 + u) * 256 + 0x13, 0, 8⟩

/-- PRBS_RX (R210). -/
def Reg.prbsRx (u : Nat) : Reg := ⟨(0x6000 + u) * 256 + 0x14, 0, 8⟩

/-- PRBS_LOCK (R210). -/
def Reg.prbsLock (u : Nat) : Reg := ⟨(0x6000 + u) * 256 + 0x15, 0, 1⟩

/-- PRBS_BITS (R210). -/
def Reg.prbsBits (u : Nat) : Reg := ⟨(0x6000 + u) * 256 + 0x16, 0, 64⟩

/-- PRBS_ERRORS (R210). -/
def Reg.prbsErrors (u : Nat) : Reg := ⟨(0x6000 + u) * 256 + 0x17, 0, 64⟩

/-- PRBS_CLEAR (R210). -/
def Reg.prbsClear (u : Nat) : Reg := ⟨(0x6000 + u) * 256 + 0x18, 0, 1⟩

/-- EYE_CTRL (R210). -/
def Reg.eyeCtrl (u : Nat) : Reg := ⟨(0x6000 + u) * 256 + 0x19, 0, 32⟩

/-- EYE_STATE (R210). -/
def Reg.eyeState (u : Nat) : Reg := ⟨(0x6000 + u) * 256 + 0x1A, 0, 8⟩

/-- EYE_BER_EXP (R210). -/
def Reg.eyeBerExp (u : Nat) : Reg := ⟨(0x6000 + u) * 256 + 0x1B, 6, 8⟩

/-- EYE_H_MARGIN (R210). -/
def Reg.eyeHMargin (u : Nat) : Reg := ⟨(0x6000 + u) * 256 + 0x1C, 0, 16⟩

/-- EYE_V_MARGIN (R210). -/
def Reg.eyeVMargin (u : Nat) : Reg := ⟨(0x6000 + u) * 256 + 0x1D, 0, 16⟩

/-- EYE_MAP (R210). -/
def Reg.eyeMap (u : Nat) : Reg := ⟨(0x6000 + u) * 256 + 0x1E, 0, 0⟩

/-- F_RATE (R212). -/
def Reg.fRate : Reg := ⟨(0x1180) * 256 + 0x01, 1, 8⟩

/-- F_FEC (R212). -/
def Reg.fFec : Reg := ⟨(0x1180) * 256 + 0x02, 0, 8⟩

/-- F_ENABLE (R212). -/
def Reg.fEnable : Reg := ⟨(0x1180) * 256 + 0x03, 0x03, 8⟩

/-- F_POLARITY (R212). -/
def Reg.fPolarity : Reg := ⟨(0x1180) * 256 + 0x04, 0, 8⟩

/-- F0_UP (R212). -/
def Reg.f0Up : Reg := ⟨(0x1181) * 256 + 0x01, 0, 1⟩

/-- F1_UP (R212). -/
def Reg.f1Up : Reg := ⟨(0x1181) * 256 + 0x02, 0, 1⟩

/-- F0_DOWNS (R212). -/
def Reg.f0Downs : Reg := ⟨(0x1181) * 256 + 0x03, 0, 32⟩

/-- F1_DOWNS (R212). -/
def Reg.f1Downs : Reg := ⟨(0x1181) * 256 + 0x04, 0, 32⟩

/-- ROLE_LANE (R250). -/
def Reg.roleLane (u k : Nat) : Reg := ⟨(0x400A + u * 64) * 256 + 0x01 + k, homeLane u k, 16⟩

/-- SPARE_REACH (R250). -/
def Reg.spareReach (u k : Nat) : Reg := ⟨(0x2108 + u * 16) * 256 + 0x01 + k, 0x0F, 8⟩

/-- SPARE_RATE (R250). -/
def Reg.spareRate (u : Nat) : Reg := ⟨(0x2108 + u * 16) * 256 + 0x05, 0, 8⟩

/-- POOL_MAP (R250). -/
def Reg.poolMap (u : Nat) : Reg := ⟨(0x2108 + u * 16) * 256 + 0x06, poolHome, 72⟩

/-- POOL_FREE (R250). -/
def Reg.poolFree (u : Nat) : Reg := ⟨(0x2108 + u * 16) * 256 + 0x07, 0, 8⟩

/-- RETIRED_MAP (R250). -/
def Reg.retiredMap (u : Nat) : Reg := ⟨(0x2109 + u * 16) * 256 + 0x01, 0, 72⟩

/-- HELD_MAP (R250). -/
def Reg.heldMap (u : Nat) : Reg := ⟨(0x2109 + u * 16) * 256 + 0x02, 0, 72⟩

/-- ROUND_LANE (R250). -/
def Reg.roundLane (u : Nat) : Reg := ⟨(0x210A + u * 16) * 256 + 0x01, 0xFFFF, 16⟩

/-- ROUND_DONE (R250). -/
def Reg.roundDone (u : Nat) : Reg := ⟨(0x210A + u * 16) * 256 + 0x02, 0, 16⟩

/-- ROUND_SKIPPED (R250). -/
def Reg.roundSkipped (u : Nat) : Reg := ⟨(0x210A + u * 16) * 256 + 0x03, 0, 16⟩

/-- PLANNED_COUNT (R250). -/
def Reg.plannedCount (u : Nat) : Reg := ⟨(0x210B + u * 16) * 256 + 0x01, 0, 32⟩

/-- UNPLANNED_COUNT (R250). -/
def Reg.unplannedCount (u : Nat) : Reg := ⟨(0x210B + u * 16) * 256 + 0x02, 0, 32⟩

/-- ABANDONED_COUNT (R250). -/
def Reg.abandonedCount (u : Nat) : Reg := ⟨(0x210B + u * 16) * 256 + 0x03, 0, 32⟩

/-- LAST_INTERRUPT_NS (R250). -/
def Reg.lastInterruptNs (u : Nat) : Reg := ⟨(0x210B + u * 16) * 256 + 0x04, 0, 32⟩

/-- LANE_USE (R251). -/
def Reg.laneUse (u : Nat) : Reg := ⟨(0x6000 + u) * 256 + 0x20, (if u % 68 < 64 then 0 else 1), 8⟩

/-- SERVES (R251). -/
def Reg.serves (u : Nat) : Reg := ⟨(0x6000 + u) * 256 + 0x21, homeServes u, 16⟩

/-- SURVEY_AGE_S (R251). -/
def Reg.surveyAgeS (u : Nat) : Reg := ⟨(0x6000 + u) * 256 + 0x22, 0, 32⟩

/-- SURVEY_V (R251). -/
def Reg.surveyV (u : Nat) : Reg := ⟨(0x6000 + u) * 256 + 0x23, 0, 32⟩

/-- SURVEY_H (R251). -/
def Reg.surveyH (u : Nat) : Reg := ⟨(0x6000 + u) * 256 + 0x24, 0, 32⟩

/-- SURVEY_PARTNER (R251). -/
def Reg.surveyPartner (u : Nat) : Reg := ⟨(0x6000 + u) * 256 + 0x25, 0, 16⟩

/-- SURVEY_ERRORS (R251). -/
def Reg.surveyErrors (u : Nat) : Reg := ⟨(0x6000 + u) * 256 + 0x26, 0, 32⟩

/-- TREND_SLOPE (R251). -/
def Reg.trendSlope (u : Nat) : Reg := ⟨(0x6000 + u) * 256 + 0x27, 0, 32⟩

/-- TREND_PROJECTED (R251). -/
def Reg.trendProjected (u : Nat) : Reg := ⟨(0x6000 + u) * 256 + 0x28, 0, 32⟩

/-- SETTINGS_EPOCH (R251). -/
def Reg.settingsEpoch (u : Nat) : Reg := ⟨(0x6000 + u) * 256 + 0x29, 0, 8⟩

/-- CTLE_BIAS (R251). -/
def Reg.ctleBias (u : Nat) : Reg := ⟨(0x6000 + u) * 256 + 0x2A, 0, 16⟩

/-- SWING_PLAN (R251). -/
def Reg.swingPlan (u : Nat) : Reg := ⟨(0x6000 + u) * 256 + 0x2B, 10, 8⟩

/-- RETIRE_CAUSE (R251). -/
def Reg.retireCause (u : Nat) : Reg := ⟨(0x6000 + u) * 256 + 0x2C, 0, 8⟩

/-- RETIRE_CLEAR (R251). -/
def Reg.retireClear (u : Nat) : Reg := ⟨(0x6000 + u) * 256 + 0x2D, 0, 1⟩

/-- SURVEY_NOW (R251). -/
def Reg.surveyNow (u : Nat) : Reg := ⟨(0x6000 + u) * 256 + 0x2E, 0, 1⟩

/-- ALMANAC (R251). -/
def Reg.almanac (u : Nat) : Reg := ⟨(0x6000 + u) * 256 + 0x2F, 0, 0⟩

/-- ROUND_ENABLE (R252). -/
def Reg.roundEnable : Reg := ⟨(0x1480) * 256 + 0x01, 1, 1⟩

/-- ROUND_PERIOD_H (R252). -/
def Reg.roundPeriodH : Reg := ⟨(0x1480) * 256 + 0x02, 24, 16⟩

/-- ROUND_PRBS_S (R252). -/
def Reg.roundPrbsS : Reg := ⟨(0x1480) * 256 + 0x03, 4, 8⟩

/-- ROUND_NOW (R252). -/
def Reg.roundNow : Reg := ⟨(0x1480) * 256 + 0x04, 0, 1⟩

/-- ROUND_COUNT (R252). -/
def Reg.roundCount : Reg := ⟨(0x1480) * 256 + 0x05, 0, 32⟩

/-- ROUND_ACTIVE (R252). -/
def Reg.roundActive : Reg := ⟨(0x1480) * 256 + 0x06, 0, 1⟩

/-- REPLAN_MODE (R252). -/
def Reg.replanMode : Reg := ⟨(0x1481) * 256 + 0x01, 2, 8⟩

/-- HORIZON_DAYS (R252). -/
def Reg.horizonDays : Reg := ⟨(0x1481) * 256 + 0x02, 365, 16⟩

/-- V_FLOOR_MV (R252). -/
def Reg.vFloorMv : Reg := ⟨(0x1481) * 256 + 0x03, 36, 8⟩

/-- H_FLOOR (R252). -/
def Reg.hFloor : Reg := ⟨(0x1481) * 256 + 0x04, 12, 8⟩

/-- MIN_POINTS (R252). -/
def Reg.minPoints : Reg := ⟨(0x1481) * 256 + 0x05, 4, 8⟩

/-- RETIRE_ENABLE (R252). -/
def Reg.retireEnable : Reg := ⟨(0x1481) * 256 + 0x06, 1, 1⟩

/-- RETIRE_MIN_SPARES (R252). -/
def Reg.retireMinSpares : Reg := ⟨(0x1481) * 256 + 0x07, 2, 8⟩

/-- SWING_MAX (R252). -/
def Reg.swingMax : Reg := ⟨(0x1481) * 256 + 0x08, 15, 8⟩

/-- REPLAN_ACTIONS (R252). -/
def Reg.replanActions : Reg := ⟨(0x1481) * 256 + 0x09, 0, 32⟩

/-- TT_DEFICIT_C (R252). -/
def Reg.ttDeficitC (k : Nat) : Reg := ⟨(0x1482) * 256 + 0x01 + k, 0, 32⟩

/-- TT_PERIOD_S (R252). -/
def Reg.ttPeriodS : Reg := ⟨(0x1482) * 256 + 0x05, 600, 16⟩

/-- TT_STEP_PPM (R252). -/
def Reg.ttStepPpm : Reg := ⟨(0x1482) * 256 + 0x06, 1500, 16⟩

/-- AVS_BASE_MV (R252). -/
def Reg.avsBaseMv : Reg := ⟨(0x1482) * 256 + 0x07, 700, 16⟩

/-- AVS_TARGET_MV (R252). -/
def Reg.avsTargetMv : Reg := ⟨(0x1482) * 256 + 0x08, 700, 16⟩

/-- SERVICE_S (R252). -/
def Reg.serviceS : Reg := ⟨(0x1483) * 256 + 0x01, 0, 64⟩

/-- ALMANAC_RECORDS (R252). -/
def Reg.almanacRecords : Reg := ⟨(0x1483) * 256 + 0x02, 0, 32⟩

/-- COURSE_ALMANAC (R252). -/
def Reg.courseAlmanac (k : Nat) : Reg := ⟨(0x1483) * 256 + 0x03 + k, 0, 0⟩

/-- SP_WIDTH (R305). -/
def Reg.spWidth (u k : Nat) : Reg := ⟨(0x4010 + u * 64) * 256 + 0x01 + k, (if k = 0 then 16 else 0), 8⟩

/-- SP_ADMIN (R305). -/
def Reg.spAdmin (u k : Nat) : Reg := ⟨(0x4011 + u * 64) * 256 + 0x01 + k, 1, 1⟩

/-- LANE_SER_LIMIT (R305). -/
def Reg.laneSerLimit (u : Nat) : Reg := ⟨(0x4012 + u * 64) * 256 + 0x01, 850, 16⟩

/-- HIBER_LIMIT (R305). -/
def Reg.hiberLimit (u : Nat) : Reg := ⟨(0x4012 + u * 64) * 256 + 0x02, 64, 16⟩

/-- PORT_FEC_MODE (R305). -/
def Reg.portFecMode (u : Nat) : Reg := ⟨(0x4012 + u * 64) * 256 + 0x03, 0, 8⟩

/-- QUIET_ENABLE (R305). -/
def Reg.quietEnable (u : Nat) : Reg := ⟨(0x4013 + u * 64) * 256 + 0x01, 0, 1⟩

/-- QUIET_IDLE_US (R305). -/
def Reg.quietIdleUs (u : Nat) : Reg := ⟨(0x4013 + u * 64) * 256 + 0x02, 100, 32⟩

/-- QUIET_ENTRIES (R305). -/
def Reg.quietEntries (u : Nat) : Reg := ⟨(0x4013 + u * 64) * 256 + 0x03, 0, 32⟩

/-- QUIET_REFUSED (R305). -/
def Reg.quietRefused (u : Nat) : Reg := ⟨(0x4013 + u * 64) * 256 + 0x04, 0, 32⟩

/-- SP_STATE (R305). -/
def Reg.spState (u k : Nat) : Reg := ⟨(0x4014 + u * 64) * 256 + 0x01 + k, 0, 8⟩

/-- DOWN_REASON (R305). -/
def Reg.downReason (u k : Nat) : Reg := ⟨(0x4015 + u * 64) * 256 + 0x01 + k, 0, 8⟩

/-- SP_DOWNS (R305). -/
def Reg.spDowns (u k : Nat) : Reg := ⟨(0x4016 + u * 64) * 256 + 0x01 + k, 0, 32⟩

/-- WIDTH_IN_USE (R305). -/
def Reg.widthInUse (u k : Nat) : Reg := ⟨(0x4017 + u * 64) * 256 + 0x01 + k, (if k = 0 then 16 else 0), 8⟩

/-- HEADROOM_CELLS (R305). -/
def Reg.headroomCells (u k : Nat) : Reg := ⟨(0x4018 + u * 64) * 256 + 0x01 + k, 0, 16⟩

/-- HEADROOM_USED (R305). -/
def Reg.headroomUsed (u k : Nat) : Reg := ⟨(0x4019 + u * 64) * 256 + 0x01 + k, 0, 16⟩

/-- GEARBOX_SLIPS (R305). -/
def Reg.gearboxSlips (u : Nat) : Reg := ⟨(0x401A + u * 64) * 256 + 0x00, 0, 32⟩

/-- PORT_RESTART (R305). -/
def Reg.portRestart (u : Nat) : Reg := ⟨(0x401F + u * 64) * 256 + 0x00, 0, 1⟩

/-- MAX_FRAME (R306). -/
def Reg.maxFrame (u : Nat) : Reg := ⟨(0x5000 + u * 8) * 256 + 0x01, 9216, 16⟩

/-- FC_MODE (R306). -/
def Reg.fcMode (u : Nat) : Reg := ⟨(0x5000 + u * 8) * 256 + 0x02, 0, 8⟩

/-- PFC_ENABLE (R306). -/
def Reg.pfcEnable (u : Nat) : Reg := ⟨(0x5000 + u * 8) * 256 + 0x03, 0, 8⟩

/-- PAUSE_QUANTA (R306). -/
def Reg.pauseQuanta (u : Nat) : Reg := ⟨(0x5000 + u * 8) * 256 + 0x04, 65535, 16⟩

/-- XOFF_CELLS (R306). -/
def Reg.xoffCells (u : Nat) : Reg := ⟨(0x5000 + u * 8) * 256 + 0x05, 512, 16⟩

/-- XON_CELLS (R306). -/
def Reg.xonCells (u : Nat) : Reg := ⟨(0x5000 + u * 8) * 256 + 0x06, 256, 16⟩

/-- PCP_TO_TC (R306). -/
def Reg.pcpToTc (u : Nat) : Reg := ⟨(0x5000 + u * 8) * 256 + 0x07, 0x00FAC688, 32⟩

/-- DEFAULT_TC (R306). -/
def Reg.defaultTc (u : Nat) : Reg := ⟨(0x5000 + u * 8) * 256 + 0x08, 0, 8⟩

/-- RX_PAUSED (R306). -/
def Reg.rxPaused (u : Nat) : Reg := ⟨(0x5000 + u * 8) * 256 + 0x09, 0, 8⟩

/-- TX_XOFF (R306). -/
def Reg.txXoff (u : Nat) : Reg := ⟨(0x5000 + u * 8) * 256 + 0x0A, 0, 8⟩

/-- SP_MAC (R306). -/
def Reg.spMac (u : Nat) : Reg := ⟨(0x5000 + u * 8) * 256 + 0x0B, Config.spMac u, 48⟩

/-- WALL_TX_NS (R306). -/
def Reg.wallTxNs (u : Nat) : Reg := ⟨(0x5000 + u * 8) * 256 + 0x0C, 0, 16⟩

/-- WALL_RX_NS (R306). -/
def Reg.wallRxNs (u : Nat) : Reg := ⟨(0x5000 + u * 8) * 256 + 0x0D, 0, 16⟩

/-- FILTER_MODE (R306). -/
def Reg.filterMode (u : Nat) : Reg := ⟨(0x5001 + u * 8) * 256 + 0x01, 0x02, 8⟩

/-- FILTER_ADDR (R306). -/
def Reg.filterAddr (u k : Nat) : Reg := ⟨(0x5001 + u * 8) * 256 + 0x02 + k, 0, 48⟩

/-- MCAST_HASH (R306). -/
def Reg.mcastHash (u : Nat) : Reg := ⟨(0x5001 + u * 8) * 256 + 0x12, 0, 256⟩

/-- SHAPE (R360). -/
def Reg.shape (u : Nat) : Reg := ⟨(0x2000 + u) * 256 + 0x01, 0, 384⟩

/-- FIELDS (R360). -/
def Reg.fields (u : Nat) : Reg := ⟨(0x2000 + u) * 256 + 0x02, fieldsHome u, 256⟩

/-- HASH_BYTES (R360). -/
def Reg.hashBytes (u : Nat) : Reg := ⟨(0x2000 + u) * 256 + 0x03, hashBytesHome u, 56⟩

/-- SYM_PAIRS (R360). -/
def Reg.symPairs (u : Nat) : Reg := ⟨(0x2000 + u) * 256 + 0x04, (2^64-1), 64⟩

/-- L3 (R360). -/
def Reg.l3 (u : Nat) : Reg := ⟨(0x2000 + u) * 256 + 0x05, 0, 16⟩

/-- L4 (R360). -/
def Reg.l4 (u : Nat) : Reg := ⟨(0x2000 + u) * 256 + 0x06, 0, 16⟩

/-- GLEAN_FIELDS (R360). -/
def Reg.gleanFields (u : Nat) : Reg := ⟨(0x2000 + u) * 256 + 0x07, 0, 16⟩

/-- HASH_SEED (R360). -/
def Reg.hashSeed : Reg := ⟨(0x2040) * 256 + 0x01, 0x5A5A3C3C, 32⟩

/-- ACTIVE_BANK (R361). -/
def Reg.activeBank (u : Nat) : Reg := ⟨(0x2100 + u * 16) * 256 + 0x01, 0, 8⟩

/-- SIEVE_SWAP (R361). -/
def Reg.sieveSwap (u : Nat) : Reg := ⟨(0x2100 + u * 16) * 256 + 0x02, 0, 1⟩

/-- SWAP_STATE (R361). -/
def Reg.swapState (u : Nat) : Reg := ⟨(0x2100 + u * 16) * 256 + 0x03, 0, 8⟩

/-- COPY_AFTER_SWAP (R361). -/
def Reg.copyAfterSwap (u : Nat) : Reg := ⟨(0x2100 + u * 16) * 256 + 0x04, 1, 1⟩

/-- SWAP_COUNT (R361). -/
def Reg.swapCount (u : Nat) : Reg := ⟨(0x2100 + u * 16) * 256 + 0x05, 0, 32⟩

/-- SHADOWED (R361). -/
def Reg.shadowed (u : Nat) : Reg := ⟨(0x2100 + u * 16) * 256 + 0x06, 0, 64⟩

/-- SIEVE_MISSES (R361). -/
def Reg.sieveMisses (u : Nat) : Reg := ⟨(0x2100 + u * 16) * 256 + 0x07, 0, 64⟩

/-- SIEVE_SHADOW (R361). -/
def Reg.sieveShadow (u : Nat) : Reg := ⟨(0x2100 + u * 16) * 256 + 0x08, 0, 0⟩

/-- SCRUB_PERIOD_US (R361). -/
def Reg.scrubPeriodUs (u : Nat) : Reg := ⟨(0x2101 + u * 16) * 256 + 0x01, 1000, 16⟩

/-- SIEVE_REPAIRS (R361). -/
def Reg.sieveRepairs (u : Nat) : Reg := ⟨(0x2101 + u * 16) * 256 + 0x02, 0, 32⟩

/-- SIEVE_DISABLED (R361). -/
def Reg.sieveDisabled (u : Nat) : Reg := ⟨(0x2101 + u * 16) * 256 + 0x03, 0, 16⟩

/-- FORCED_SLOTS (R361). -/
def Reg.forcedSlots (u : Nat) : Reg := ⟨(0x2101 + u * 16) * 256 + 0x04, 0, 64⟩

/-- POLICERS (R361). -/
def Reg.policers (u : Nat) : Reg := ⟨(0x2102 + u * 16) * 256 + 0x01, 0, 0⟩

/-- FRAG_TIMEOUT_US (R361). -/
def Reg.fragTimeoutUs (u : Nat) : Reg := ⟨(0x2103 + u * 16) * 256 + 0x01, 2000, 32⟩

/-- GLEAN_USED (R361). -/
def Reg.gleanUsed (u : Nat) : Reg := ⟨(0x2103 + u * 16) * 256 + 0x02, 0, 16⟩

/-- GLEAN_FULL (R361). -/
def Reg.gleanFull (u : Nat) : Reg := ⟨(0x2103 + u * 16) * 256 + 0x03, 0, 64⟩

/-- GLEAN_ORPHANS (R361). -/
def Reg.gleanOrphans (u : Nat) : Reg := ⟨(0x2103 + u * 16) * 256 + 0x04, 0, 64⟩

/-- GLEAN_EXPIRED (R361). -/
def Reg.gleanExpired (u : Nat) : Reg := ⟨(0x2103 + u * 16) * 256 + 0x05, 0, 64⟩

/-- GLEAN_COMPLETED (R361). -/
def Reg.gleanCompleted (u : Nat) : Reg := ⟨(0x2103 + u * 16) * 256 + 0x06, 0, 64⟩

/-- GLEAN_DUPLICATES (R361). -/
def Reg.gleanDuplicates (u : Nat) : Reg := ⟨(0x2103 + u * 16) * 256 + 0x07, 0, 64⟩

/-- GLEAN_FLUSH (R361). -/
def Reg.gleanFlush (u : Nat) : Reg := ⟨(0x2103 + u * 16) * 256 + 0x08, 0, 1⟩

/-- INDIRECTION (R361). -/
def Reg.indirection (u : Nat) : Reg := ⟨(0x2104 + u * 16) * 256 + 0x01, 0, 0⟩

/-- BUF_FREE (R361). -/
def Reg.bufFree (u : Nat) : Reg := ⟨(0x2105 + u * 16) * 256 + 0x01, 32768, 16⟩

/-- RESERVE_CELLS (R361). -/
def Reg.reserveCells (u : Nat) : Reg := ⟨(0x2105 + u * 16) * 256 + 0x02, 2112, 16⟩

/-- PORT_CAP_CELLS (R361). -/
def Reg.portCapCells (u : Nat) : Reg := ⟨(0x2105 + u * 16) * 256 + 0x03, 12288, 16⟩

/-- PENDING_KEYS (R361). -/
def Reg.pendingKeys (u : Nat) : Reg := ⟨(0x2105 + u * 16) * 256 + 0x04, 0, 16⟩

/-- LATE_DECISIONS (R361). -/
def Reg.lateDecisions (u : Nat) : Reg := ⟨(0x2105 + u * 16) * 256 + 0x05, 0, 64⟩

/-- PARITY_MISSES (R361). -/
def Reg.parityMisses (u : Nat) : Reg := ⟨(0x2105 + u * 16) * 256 + 0x06, 0, 64⟩

/-- CREDIT_STALLS (R361). -/
def Reg.creditStalls (u : Nat) : Reg := ⟨(0x2105 + u * 16) * 256 + 0x07, 0, 32⟩

/-- CREDIT_STALL_US (R361). -/
def Reg.creditStallUs (u : Nat) : Reg := ⟨(0x2105 + u * 16) * 256 + 0x08, 1000, 32⟩

/-- LOOKUP_REQ (R361). -/
def Reg.lookupReq (u : Nat) : Reg := ⟨(0x2106 + u * 16) * 256 + 0x01, 0, 544⟩

/-- LOOKUP_RESULT (R361). -/
def Reg.lookupResult (u : Nat) : Reg := ⟨(0x2106 + u * 16) * 256 + 0x02, 0, 544⟩

/-- GROUT_FAILS (R361). -/
def Reg.groutFails (u : Nat) : Reg := ⟨(0x2107 + u * 16) * 256 + 0x01, 0, 64⟩

/-- GROUT_SEQ_GAPS (R361). -/
def Reg.groutSeqGaps (u : Nat) : Reg := ⟨(0x2107 + u * 16) * 256 + 0x02, 0, 64⟩

/-- MISDIRECTED (R361). -/
def Reg.misdirected (u : Nat) : Reg := ⟨(0x2107 + u * 16) * 256 + 0x03, 0, 64⟩

/-- KIND_BAD (R361). -/
def Reg.kindBad (u : Nat) : Reg := ⟨(0x2107 + u * 16) * 256 + 0x04, 0, 64⟩

/-- PROFILE_CHAIN (R362). -/
def Reg.profileChain (u : Nat) : Reg := ⟨(0x5002 + u * 8) * 256 + 0x01, 0xFFFFFFFF, 32⟩

/-- FALLBACK_PROFILE (R362). -/
def Reg.fallbackProfile (u : Nat) : Reg := ⟨(0x5002 + u * 8) * 256 + 0x02, 63, 8⟩

/-- NO_MATCH_ACTION (R362). -/
def Reg.noMatchAction (u : Nat) : Reg := ⟨(0x5002 + u * 8) * 256 + 0x03, 0, 64⟩

/-- SP_POLICER (R362). -/
def Reg.spPolicer (u : Nat) : Reg := ⟨(0x5002 + u * 8) * 256 + 0x04, 0xFFFF, 16⟩

/-- IND_BASE (R362). -/
def Reg.indBase (u : Nat) : Reg := ⟨(0x5002 + u * 8) * 256 + 0x05, 0, 16⟩

/-- IND_SIZE_LOG2 (R362). -/
def Reg.indSizeLog2 (u : Nat) : Reg := ⟨(0x5002 + u * 8) * 256 + 0x06, 12, 8⟩

/-- MISS_DEST (R362). -/
def Reg.missDest (u : Nat) : Reg := ⟨(0x5002 + u * 8) * 256 + 0x07, 0, 8⟩

/-- CK_DISCARD (R362). -/
def Reg.ckDiscard (u : Nat) : Reg := ⟨(0x5002 + u * 8) * 256 + 0x08, 0, 8⟩

/-- ORPHAN_DEST (R362). -/
def Reg.orphanDest (u : Nat) : Reg := ⟨(0x5002 + u * 8) * 256 + 0x09, 0, 8⟩

/-- QUEUE_SP (R402). -/
def Reg.queueSp (u k : Nat) : Reg := ⟨(0x4020 + u * 64) * 256 + 0x01 + k, 0, 8⟩

/-- QUEUE_TC (R402). -/
def Reg.queueTc (u k : Nat) : Reg := ⟨(0x4021 + u * 64) * 256 + 0x01 + k, k % 8, 8⟩

/-- QUANTUM (R402). -/
def Reg.quantum (u k : Nat) : Reg := ⟨(0x4022 + u * 64) * 256 + 0x01 + k, 9728, 32⟩

/-- QUEUE_MAX_CHUNKS (R402). -/
def Reg.queueMaxChunks (u k : Nat) : Reg := ⟨(0x4023 + u * 64) * 256 + 0x01 + k, 16384, 32⟩

/-- Q_SHAPE_RATE (R402). -/
def Reg.qShapeRate (u k : Nat) : Reg := ⟨(0x4024 + u * 64) * 256 + 0x01 + k, 0, 32⟩

/-- Q_SHAPE_BURST (R402). -/
def Reg.qShapeBurst (u k : Nat) : Reg := ⟨(0x4025 + u * 64) * 256 + 0x01 + k, 65536, 32⟩

/-- Q_RESET_FULL (R402). -/
def Reg.qResetFull (u : Nat) : Reg := ⟨(0x4026 + u * 64) * 256 + 0x00, 0, 64⟩

/-- EGRESS_FREE_CHUNKS (R402). -/
def Reg.egressFreeChunks (u : Nat) : Reg := ⟨(0x4027 + u * 64) * 256 + 0x01, 0, 32⟩

/-- HOST_CHUNKS (R402). -/
def Reg.hostChunks (u : Nat) : Reg := ⟨(0x4027 + u * 64) * 256 + 0x02, 4096, 32⟩

/-- PIPE_CREDITS (R402). -/
def Reg.pipeCredits (u : Nat) : Reg := ⟨(0x4027 + u * 64) * 256 + 0x03, 0, 16⟩

/-- PANIC_LEVEL (R402). -/
def Reg.panicLevel (u : Nat) : Reg := ⟨(0x4027 + u * 64) * 256 + 0x04, 1024, 16⟩

/-- PANIC_HYST (R402). -/
def Reg.panicHyst (u : Nat) : Reg := ⟨(0x4027 + u * 64) * 256 + 0x05, 256, 16⟩

/-- PANIC_ASSERTS (R402). -/
def Reg.panicAsserts (u : Nat) : Reg := ⟨(0x4027 + u * 64) * 256 + 0x06, 0, 32⟩

/-- PANIC_NOW (R402). -/
def Reg.panicNow (u : Nat) : Reg := ⟨(0x4027 + u * 64) * 256 + 0x07, 0, 1⟩

/-- SP_WEIGHT (R402). -/
def Reg.spWeight (u k : Nat) : Reg := ⟨(0x4028 + u * 64) * 256 + 0x01 + k, 0, 8⟩

/-- CUT_THROUGH_CHUNKS (R402). -/
def Reg.cutThroughChunks (u k : Nat) : Reg := ⟨(0x4029 + u * 64) * 256 + 0x01 + k, 32, 16⟩

/-- SEL_OFFSET (R403). -/
def Reg.selOffset (u : Nat) : Reg := ⟨(0x5003 + u * 8) * 256 + 0x01, 14, 8⟩

/-- SEL_SHIFT (R403). -/
def Reg.selShift (u : Nat) : Reg := ⟨(0x5003 + u * 8) * 256 + 0x02, 13, 8⟩

/-- SEL_TEST (R403). -/
def Reg.selTest (u : Nat) : Reg := ⟨(0x5003 + u * 8) * 256 + 0x03, 0xFFFF_8100_00_8C, 48⟩

/-- QUEUE_MAP (R403). -/
def Reg.queueMap (u : Nat) : Reg := ⟨(0x5003 + u * 8) * 256 + 0x04, queueMapHome, 512⟩

/-- DEFAULT_QUEUE (R403). -/
def Reg.defaultQueue (u : Nat) : Reg := ⟨(0x5003 + u * 8) * 256 + 0x05, 0, 8⟩

/-- CK_INSERT_PROFILE (R403). -/
def Reg.ckInsertProfile (u : Nat) : Reg := ⟨(0x5003 + u * 8) * 256 + 0x06, 0xFF, 8⟩

/-- CK_INSERT (R403). -/
def Reg.ckInsert (u : Nat) : Reg := ⟨(0x5003 + u * 8) * 256 + 0x07, 0, 8⟩

/-- SHAPE_OVERHEAD (R403). -/
def Reg.shapeOverhead (u : Nat) : Reg := ⟨(0x5003 + u * 8) * 256 + 0x08, 20, 8⟩

/-- C_SHAPE_RATE (R403). -/
def Reg.cShapeRate (u k : Nat) : Reg := ⟨(0x5003 + u * 8) * 256 + 0x09 + k, 0, 32⟩

/-- C_SHAPE_BURST (R403). -/
def Reg.cShapeBurst (u k : Nat) : Reg := ⟨(0x5003 + u * 8) * 256 + 0x11 + k, 65536, 32⟩

/-- C_RESET_FULL (R403). -/
def Reg.cResetFull (u : Nat) : Reg := ⟨(0x5003 + u * 8) * 256 + 0x19, 0, 8⟩

/-- GATE_ENABLE (R403). -/
def Reg.gateEnable (u : Nat) : Reg := ⟨(0x5003 + u * 8) * 256 + 0x1A, 0, 1⟩

/-- GATE_GUARD_NS (R403). -/
def Reg.gateGuardNs (u : Nat) : Reg := ⟨(0x5003 + u * 8) * 256 + 0x1B, 20, 16⟩

/-- PENDING_GCL (R403). -/
def Reg.pendingGcl (u : Nat) : Reg := ⟨(0x5003 + u * 8) * 256 + 0x1C, 0, 0⟩

/-- PENDING_LEN (R403). -/
def Reg.pendingLen (u : Nat) : Reg := ⟨(0x5003 + u * 8) * 256 + 0x1D, 1, 16⟩

/-- PENDING_BASE (R403). -/
def Reg.pendingBase (u : Nat) : Reg := ⟨(0x5003 + u * 8) * 256 + 0x1E, 0, 96⟩

/-- PENDING_CYCLE_NS (R403). -/
def Reg.pendingCycleNs (u : Nat) : Reg := ⟨(0x5003 + u * 8) * 256 + 0x1F, 1000000, 32⟩

/-- PENDING_EXT_NS (R403). -/
def Reg.pendingExtNs (u : Nat) : Reg := ⟨(0x5003 + u * 8) * 256 + 0x20, 0, 32⟩

/-- CONFIG_CHANGE (R403). -/
def Reg.configChange (u : Nat) : Reg := ⟨(0x5003 + u * 8) * 256 + 0x21, 0, 8⟩

/-- GATE_STATE (R403). -/
def Reg.gateState (u : Nat) : Reg := ⟨(0x5003 + u * 8) * 256 + 0x22, 0, 8⟩

/-- CHANGE_TIME (R403). -/
def Reg.changeTime (u : Nat) : Reg := ⟨(0x5003 + u * 8) * 256 + 0x23, 0, 96⟩

/-- OPER_GCL (R403). -/
def Reg.operGcl (u : Nat) : Reg := ⟨(0x5003 + u * 8) * 256 + 0x24, 0, 0⟩

/-- OPER_CYCLE_NS (R403). -/
def Reg.operCycleNs (u : Nat) : Reg := ⟨(0x5003 + u * 8) * 256 + 0x25, 0, 32⟩

/-- MAX_WINDOW_NS (R403). -/
def Reg.maxWindowNs (u k : Nat) : Reg := ⟨(0x5003 + u * 8) * 256 + 0x26 + k, 0xFFFFFFFF, 32⟩

/-- WALL_TIME (R431). -/
def Reg.wallTime : Reg := ⟨(0x1303) * 256 + 0x01, 0, 96⟩

/-- STAMP_COUNT (R431). -/
def Reg.stampCount : Reg := ⟨(0x1303) * 256 + 0x02, 0, 64⟩

/-- TIME_PAIR (R431). -/
def Reg.timePair : Reg := ⟨(0x1303) * 256 + 0x03, 0, 160⟩

/-- TIME_VALID (R431). -/
def Reg.timeValid : Reg := ⟨(0x1303) * 256 + 0x04, 0, 1⟩

/-- TIME_SET (R431). -/
def Reg.timeSet : Reg := ⟨(0x1304) * 256 + 0x01, 0, 96⟩

/-- TIME_STEP (R431). -/
def Reg.timeStep : Reg := ⟨(0x1304) * 256 + 0x02, 0, 64⟩

/-- FREQ_ADJ_PPT (R431). -/
def Reg.freqAdjPpt : Reg := ⟨(0x1304) * 256 + 0x03, 0, 32⟩

/-- STEP_COUNT (R431). -/
def Reg.stepCount : Reg := ⟨(0x1304) * 256 + 0x04, 0, 32⟩

/-- STEP_AT (R431). -/
def Reg.stepAt : Reg := ⟨(0x1304) * 256 + 0x05, 0, 96⟩

/-- TX_ADJ (R432). -/
def Reg.txAdj (u : Nat) : Reg := ⟨(0x4030 + u * 64) * 256 + 0x01, 0, 32⟩

/-- RX_ADJ (R432). -/
def Reg.rxAdj (u : Nat) : Reg := ⟨(0x4030 + u * 64) * 256 + 0x02, 0, 32⟩

/-- TX_PATH_DELAY (R432). -/
def Reg.txPathDelay (u k : Nat) : Reg := ⟨(0x4031 + u * 64) * 256 + 0x01 + k, 0, 32⟩

/-- RX_PATH_DELAY (R432). -/
def Reg.rxPathDelay (u k : Nat) : Reg := ⟨(0x4032 + u * 64) * 256 + 0x01 + k, 0, 32⟩

/-- RX_REF_LANE (R432). -/
def Reg.rxRefLane (u k : Nat) : Reg := ⟨(0x4033 + u * 64) * 256 + 0x01 + k, homeLane (u) (2*k), 16⟩

/-- RX_REF_SHIFT (R432). -/
def Reg.rxRefShift (u k : Nat) : Reg := ⟨(0x4034 + u * 64) * 256 + 0x01 + k, 0, 32⟩

/-- PTP_ENCAP (R433). -/
def Reg.ptpEncap (u : Nat) : Reg := ⟨(0x5004 + u * 8) * 256 + 0x01, 0, 8⟩

/-- TX_ONE_STEP (R433). -/
def Reg.txOneStep (u : Nat) : Reg := ⟨(0x5004 + u * 8) * 256 + 0x02, 0, 8⟩

/-- TX_CAPTURE (R433). -/
def Reg.txCapture (u : Nat) : Reg := ⟨(0x5004 + u * 8) * 256 + 0x03, 0, 1⟩

/-- TX_STAMP_NEXT (R433). -/
def Reg.txStampNext (u : Nat) : Reg := ⟨(0x5004 + u * 8) * 256 + 0x04, 0, 128⟩

/-- TX_STAMP_LOST (R433). -/
def Reg.txStampLost (u : Nat) : Reg := ⟨(0x5004 + u * 8) * 256 + 0x05, 0, 32⟩

/-- APPROVED_MODE (R474). -/
def Reg.approvedMode : Reg := ⟨(0x1200) * 256 + 0x01, 0, 1⟩

/-- SERVICE_INDICATOR (R474). -/
def Reg.serviceIndicator : Reg := ⟨(0x1200) * 256 + 0x02, 1, 1⟩

/-- APPROVED_ONLY (R474). -/
def Reg.approvedOnly : Reg := ⟨(0x1200) * 256 + 0x03, 1, 1⟩

/-- SELFTEST_NOW (R474). -/
def Reg.selftestNow : Reg := ⟨(0x1200) * 256 + 0x04, 0, 1⟩

/-- SELFTEST_RESULT (R474). -/
def Reg.selftestResult : Reg := ⟨(0x1200) * 256 + 0x05, 0, 8⟩

/-- ZEROISE_NOW (R474). -/
def Reg.zeroiseNow : Reg := ⟨(0x1201) * 256 + 0x01, 0, 32⟩

/-- ZEROISE_COUNT (R474). -/
def Reg.zeroiseCount : Reg := ⟨(0x1201) * 256 + 0x02, 0, 32⟩

/-- DEVICE_PUBKEY (R474). -/
def Reg.devicePubkey : Reg := ⟨(0x1202) * 256 + 0x01, 0, 776⟩

/-- DEVICE_CERT (R474). -/
def Reg.deviceCert : Reg := ⟨(0x1202) * 256 + 0x02, 0, 0⟩

/-- HOST_OFFICER_S (R474). -/
def Reg.hostOfficerS : Reg := ⟨(0x1203) * 256 + 0x01, 0, 16⟩

/-- CRED_PUBKEY (R474). -/
def Reg.credPubkey (u : Nat) : Reg := ⟨(0x1210 + u) * 256 + 0x01, 0, 776⟩

/-- CRED_ROLE (R474). -/
def Reg.credRole (u : Nat) : Reg := ⟨(0x1210 + u) * 256 + 0x02, 0, 8⟩

/-- CRED_LABEL (R474). -/
def Reg.credLabel (u : Nat) : Reg := ⟨(0x1210 + u) * 256 + 0x03, 0, 2056⟩

/-- KEK_VALUE (R474). -/
def Reg.kekValue (u : Nat) : Reg := ⟨(0x1220 + u) * 256 + 0x01, 0, 384⟩

/-- KEK_STATE (R474). -/
def Reg.kekState (u : Nat) : Reg := ⟨(0x1220 + u) * 256 + 0x02, 0, 8⟩

/-- KEK_CLEAR (R474). -/
def Reg.kekClear (u : Nat) : Reg := ⟨(0x1220 + u) * 256 + 0x03, 0, 1⟩

/-- KI_USED (R474). -/
def Reg.kiUsed : Reg := ⟨(0x1230) * 256 + 0x01, 0, 16⟩

/-- KI_EVICT_AUTO (R474). -/
def Reg.kiEvictAuto : Reg := ⟨(0x1230) * 256 + 0x02, 1, 1⟩

/-- KI_FORGET (R474). -/
def Reg.kiForget : Reg := ⟨(0x1230) * 256 + 0x03, 0, 128⟩

/-- KI_EVICTED (R474). -/
def Reg.kiEvicted : Reg := ⟨(0x1230) * 256 + 0x04, 0, 32⟩

/-- CUSTOMER_IMAGE_KEY (R474). -/
def Reg.customerImageKey : Reg := ⟨(0x1240) * 256 + 0x01, 0, 776⟩

/-- MACSEC_POLICY (R475). -/
def Reg.macsecPolicy (u : Nat) : Reg := ⟨(0x7000 + u * 8) * 256 + 0x01, 0, 8⟩

/-- CIPHER (R475). -/
def Reg.cipher (u : Nat) : Reg := ⟨(0x7000 + u * 8) * 256 + 0x02, 1, 8⟩

/-- TX_SCI (R475). -/
def Reg.txSci (u : Nat) : Reg := ⟨(0x7000 + u * 8) * 256 + 0x03, sciOf u, 64⟩

/-- CONF_OFFSET (R475). -/
def Reg.confOffset (u : Nat) : Reg := ⟨(0x7000 + u * 8) * 256 + 0x04, 0, 8⟩

/-- ENCRYPT (R475). -/
def Reg.encrypt (u : Nat) : Reg := ⟨(0x7000 + u * 8) * 256 + 0x05, 1, 1⟩

/-- INCLUDE_SCI (R475). -/
def Reg.includeSci (u : Nat) : Reg := ⟨(0x7000 + u * 8) * 256 + 0x06, 1, 1⟩

/-- TX_ENCODING_AN (R475). -/
def Reg.txEncodingAn (u : Nat) : Reg := ⟨(0x7000 + u * 8) * 256 + 0x07, 0, 8⟩

/-- VALIDATE (R475). -/
def Reg.validate (u : Nat) : Reg := ⟨(0x7000 + u * 8) * 256 + 0x08, 2, 8⟩

/-- REPLAY_PROTECT (R475). -/
def Reg.replayProtect (u : Nat) : Reg := ⟨(0x7000 + u * 8) * 256 + 0x09, 1, 1⟩

/-- REPLAY_WINDOW (R475). -/
def Reg.replayWindow (u : Nat) : Reg := ⟨(0x7000 + u * 8) * 256 + 0x0A, 0, 32⟩

/-- BYPASS_ETYPE (R475). -/
def Reg.bypassEtype (u : Nat) : Reg := ⟨(0x7000 + u * 8) * 256 + 0x0B, 0, 32⟩

/-- PN_WARN (R475). -/
def Reg.pnWarn (u : Nat) : Reg := ⟨(0x7000 + u * 8) * 256 + 0x0C, 0xC000_0000_0000_0000, 64⟩

/-- TX_SA_STATE (R475). -/
def Reg.saState (u k : Nat) : Reg := ⟨saKey u k 1, 0, 8⟩

/-- TX_KEY_BLOB (R475). -/
def Reg.saKeyBlob (u k : Nat) : Reg := ⟨saKey u k 2, 0, 384⟩

/-- TX_KI (R475). -/
def Reg.saKi (u k : Nat) : Reg := ⟨saKey u k 3, 0, 128⟩

/-- TX_SSCI (R475). -/
def Reg.saSsci (u k : Nat) : Reg := ⟨saKey u k 4, 0, 32⟩

/-- TX_SALT (R475). -/
def Reg.saSalt (u k : Nat) : Reg := ⟨saKey u k 5, 0, 96⟩

/-- TX_NEXT_PN (R475). -/
def Reg.saNextPn (u k : Nat) : Reg := ⟨saKey u k 6, 1, 64⟩

/-- TX_RESERVED_END (R475). -/
def Reg.saReservedEnd (u k : Nat) : Reg := ⟨saKey u k 7, 0, 64⟩

/-- TX_DURABLE (R475). -/
def Reg.saDurable (u k : Nat) : Reg := ⟨saKey u k 8, 0, 1⟩

/-- TX_INSTALL (R475). -/
def Reg.saInstall (u k : Nat) : Reg := ⟨saKey u k 9, 0, 1⟩

/-- TX_PN_STALLS (R475). -/
def Reg.txPnStalls (u : Nat) : Reg := ⟨(0x7001 + u * 8) * 256 + 0x01, 0, 32⟩

/-- RX_SCI (R475). -/
def Reg.rxSci (u : Nat) : Reg := ⟨((0x7002 + (u / 4) * 8 + u % 4) * 256 + 1), 0, 64⟩

/-- RX_SC_ENABLE (R475). -/
def Reg.rxScEnable (u : Nat) : Reg := ⟨((0x7002 + (u / 4) * 8 + u % 4) * 256 + 2), 0, 1⟩

/-- BANK_STATE (R510). -/
def Reg.bankState : Reg := ⟨(0x1400) * 256 + 0x01, 0x03, 8⟩

/-- LIVE_SHEAVES (R510). -/
def Reg.liveSheaves : Reg := ⟨(0x1400) * 256 + 0x02, 0, 32⟩

/-- FREE_ROWS (R510). -/
def Reg.freeRows : Reg := ⟨(0x1400) * 256 + 0x03, 0, 16⟩

/-- RETIRED_ROWS (R510). -/
def Reg.retiredRows : Reg := ⟨(0x1400) * 256 + 0x04, 0, 16⟩

/-- GEN_NOW (R510). -/
def Reg.genNow : Reg := ⟨(0x1400) * 256 + 0x05, 0, 64⟩

/-- REPLAY_US (R510). -/
def Reg.replayUs : Reg := ⟨(0x1400) * 256 + 0x06, 0, 32⟩

/-- PN_BLOCK_LOG2 (R510). -/
def Reg.pnBlockLog2 : Reg := ⟨(0x1401) * 256 + 0x01, 28, 8⟩

/-- WEAR_MAX_CYCLES (R510). -/
def Reg.wearMaxCycles : Reg := ⟨(0x1401) * 256 + 0x02, 0, 32⟩

/-- WEAR_PROJECTED (R510). -/
def Reg.wearProjected : Reg := ⟨(0x1401) * 256 + 0x03, 0, 16⟩

/-- BLOCK_DOUBLINGS (R510). -/
def Reg.blockDoublings : Reg := ⟨(0x1401) * 256 + 0x04, 0, 8⟩

/-- WEAR_SPREAD (R510). -/
def Reg.wearSpread : Reg := ⟨(0x1401) * 256 + 0x05, 65536, 32⟩

/-- STORE_ALLOWANCE (R510). -/
def Reg.storeAllowance : Reg := ⟨(0x1401) * 256 + 0x06, 262144, 32⟩

/-- SCRUB_PERIOD_H (R510). -/
def Reg.scrubPeriodH : Reg := ⟨(0x1402) * 256 + 0x01, 168, 16⟩

/-- SCRUB_REPAIRS (R510). -/
def Reg.scrubRepairs : Reg := ⟨(0x1402) * 256 + 0x02, 0, 32⟩

/-- BENIGN_DIVERGENCE (R510). -/
def Reg.benignDivergence : Reg := ⟨(0x1402) * 256 + 0x03, 0, 32⟩

/-- SUSPECT_RECORDS (R510). -/
def Reg.suspectRecords : Reg := ⟨(0x1402) * 256 + 0x04, 0, 32⟩

/-- FORWARD_PADS (R510). -/
def Reg.forwardPads : Reg := ⟨(0x1402) * 256 + 0x05, 0, 32⟩

/-- IMAGE_REEVE (R510). -/
def Reg.imageReeve : Reg := ⟨(0x1440) * 256 + 0x01, 0, 0⟩

/-- IMAGE_STEWARD (R510). -/
def Reg.imageSteward : Reg := ⟨(0x1440) * 256 + 0x02, 0, 0⟩

/-- IMAGE_CUSTOMER (R510). -/
def Reg.imageCustomer : Reg := ⟨(0x1440) * 256 + 0x03, 0, 0⟩

/-- SHELF_VALID (R510). -/
def Reg.shelfValid : Reg := ⟨(0x1440) * 256 + 0x04, 0, 8⟩

/-- SHELF_ROLLBACK (R510). -/
def Reg.shelfRollback : Reg := ⟨(0x1440) * 256 + 0x05, 0, 8⟩

/-- FAULT_DIGEST (R510). -/
def Reg.faultDigest : Reg := ⟨(0x1450) * 256 + 0x01, 0, 0⟩

/-- DIGEST_ENTRIES (R510). -/
def Reg.digestEntries : Reg := ⟨(0x1450) * 256 + 0x02, 0, 16⟩

/-- DIGEST_SUPPRESSED (R510). -/
def Reg.digestSuppressed : Reg := ⟨(0x1450) * 256 + 0x03, 0, 32⟩

/-- HOST_SP (R554). -/
def Reg.hostSp (u : Nat) : Reg := ⟨(0x5005 + u * 8) * 256 + 0x01, 0, 1⟩

/-- TX_RINGS (R554). -/
def Reg.txRings (u : Nat) : Reg := ⟨(0x5005 + u * 8) * 256 + 0x02, 0, 256⟩

/-- TX_QUEUE (R554). -/
def Reg.txQueue (u : Nat) : Reg := ⟨(0x5005 + u * 8) * 256 + 0x03, 0, 8⟩

/-- MILL_ENABLE (R554). -/
def Reg.millEnable (u : Nat) : Reg := ⟨(0x5005 + u * 8) * 256 + 0x04, 0, 1⟩

/-- MILL_TX_RING (R554). -/
def Reg.millTxRing (u : Nat) : Reg := ⟨(0x5005 + u * 8) * 256 + 0x05, 0, 8⟩

/-- MILL_RX_RING (R554). -/
def Reg.millRxRing (u : Nat) : Reg := ⟨(0x5005 + u * 8) * 256 + 0x06, 0, 8⟩

/-- MILL_STATE (R554). -/
def Reg.millState (u : Nat) : Reg := ⟨(0x5005 + u * 8) * 256 + 0x07, 0, 8⟩

/-- CV_POLY (R555). -/
def Reg.cvPoly (u : Nat) : Reg := ⟨(0x2080 + u) * 256 + 0x01, 0, 8⟩

/-- CV_CHAIN (R555). -/
def Reg.cvChain (u : Nat) : Reg := ⟨(0x2080 + u) * 256 + 0x02, 0, 1⟩

/-- CV_FOLD (R555). -/
def Reg.cvFold (u : Nat) : Reg := ⟨(0x2080 + u) * 256 + 0x03, 0, 8⟩

/-- CV_FOLD_SEQ (R555). -/
def Reg.cvFoldSeq (u : Nat) : Reg := ⟨(0x2080 + u) * 256 + 0x04, 0, 32⟩

/-- CV_RUNNING (R555). -/
def Reg.cvRunning (u : Nat) : Reg := ⟨(0x2080 + u) * 256 + 0x05, 0xFFFFFFFF, 64⟩

/-- CV_FRAMES (R555). -/
def Reg.cvFrames (u : Nat) : Reg := ⟨(0x2080 + u) * 256 + 0x06, 0, 64⟩

/-- CV_BAD_COUNT (R555). -/
def Reg.cvBadCount (u : Nat) : Reg := ⟨(0x2080 + u) * 256 + 0x07, 0, 64⟩

/-- MILL_BYTES (R555). -/
def Reg.millBytes (u : Nat) : Reg := ⟨(0x2080 + u) * 256 + 0x08, 0, 64⟩

/-- VECTOR (R556). -/
def Reg.vector (u k : Nat) : Reg := ⟨(0x20C0 + u) * 256 + 0x01 + k, 0, 128⟩

/-- MOD_GROUP (R556). -/
def Reg.modGroup (k : Nat) : Reg := ⟨(0x20C2) * 256 + 0x01 + k, 1, 64⟩

/-- SOURCE_VECTOR (R556). -/
def Reg.sourceVector (k : Nat) : Reg := ⟨(0x20C3) * 256 + 0x01 + k, 0xFFFF, 16⟩

/-- VECTORS_SENT (R556). -/
def Reg.vectorsSent : Reg := ⟨(0x20C4) * 256 + 0x01, 0, 64⟩

/-- REEVE_BUILD (R590). -/
def Reg.reeveBuild : Reg := ⟨(0x1600) * 256 + 0x01, 0, 128⟩

/-- STEWARD_BUILD (R590). -/
def Reg.stewardBuild : Reg := ⟨(0x1600) * 256 + 0x02, 0, 128⟩

/-- CUSTOMER_BUILD (R590). -/
def Reg.customerBuild : Reg := ⟨(0x1600) * 256 + 0x03, 0, 128⟩

/-- CUSTOMER_ABI (R590). -/
def Reg.customerAbi : Reg := ⟨(0x1600) * 256 + 0x04, 0, 16⟩

/-- CUSTOMER_STATE (R590). -/
def Reg.customerState : Reg := ⟨(0x1600) * 256 + 0x05, 0, 8⟩

/-- CUSTOMER_FAULT_LIMIT (R590). -/
def Reg.customerFaultLimit : Reg := ⟨(0x1600) * 256 + 0x06, 16, 8⟩

/-- WD_TIMEOUT_US (R590). -/
def Reg.wdTimeoutUs : Reg := ⟨(0x1600) * 256 + 0x07, 10000, 32⟩

/-- REEVE_WD_COUNT (R590). -/
def Reg.reeveWdCount : Reg := ⟨(0x1600) * 256 + 0x08, 0, 32⟩

/-- STEWARD_RESTART (R590). -/
def Reg.stewardRestart : Reg := ⟨(0x1600) * 256 + 0x09, 0, 16⟩

/-- ST_STATE (R590). -/
def Reg.stState (u : Nat) : Reg := ⟨(0x1610 + u) * 256 + 0x01, 0, 8⟩

/-- ST_RESTARTS (R590). -/
def Reg.stRestarts (u : Nat) : Reg := ⟨(0x1610 + u) * 256 + 0x02, 0, 32⟩

/-- ST_LAST_CAUSE (R590). -/
def Reg.stLastCause (u : Nat) : Reg := ⟨(0x1610 + u) * 256 + 0x03, 0, 8⟩

/-- ILLEGAL_OPS (R590). -/
def Reg.illegalOps (u : Nat) : Reg := ⟨(0x1610 + u) * 256 + 0x04, 0, 32⟩

/-- LAST_ILLEGAL (R590). -/
def Reg.lastIllegal (u : Nat) : Reg := ⟨(0x1610 + u) * 256 + 0x05, 0, 32⟩

/-- CUSTOMER_FAULTS (R590). -/
def Reg.customerFaults (u : Nat) : Reg := ⟨(0x1610 + u) * 256 + 0x06, 0, 32⟩

/-- LAST_CUSTOMER_FAULT (R590). -/
def Reg.lastCustomerFault (u : Nat) : Reg := ⟨(0x1610 + u) * 256 + 0x07, 0, 32⟩

/-- CUSTOMER_ACTIVE (R590). -/
def Reg.customerActive (u : Nat) : Reg := ⟨(0x1610 + u) * 256 + 0x08, 0, 1⟩

/-- HOOK_RUNS (R590). -/
def Reg.hookRuns (u : Nat) : Reg := ⟨(0x1610 + u) * 256 + 0x09, 0, 64⟩

/-- ST_ECC_CORRECTED (R590). -/
def Reg.stEccCorrected (u : Nat) : Reg := ⟨(0x1610 + u) * 256 + 0x0A, 0, 32⟩

/-- BH_PENDING (R591). -/
def Reg.bhPending (u : Nat) : Reg := ⟨(0x1700 + u) * 256 + 0x01, 0, 128⟩

/-- BH_ENABLE (R591). -/
def Reg.bhEnable (u : Nat) : Reg := ⟨(0x1700 + u) * 256 + 0x02, 0, 128⟩

/-- BH_GROUP (R591). -/
def Reg.bhGroup (u : Nat) : Reg := ⟨(0x1700 + u) * 256 + 0x03, (2^1024-1), 1024⟩

/-- BH_HOLDOFF (R591). -/
def Reg.bhHoldoff (u k : Nat) : Reg := ⟨(0x1700 + u) * 256 + 0x04 + k, 0, 16⟩

/-- BH_TAKEN (R591). -/
def Reg.bhTaken (u : Nat) : Reg := ⟨(0x1700 + u) * 256 + 0x0C, 0, 64⟩

/-- BH_COALESCED (R591). -/
def Reg.bhCoalesced (u : Nat) : Reg := ⟨(0x1700 + u) * 256 + 0x0D, 0, 32⟩

/-- DB_WRITTEN (R623). -/
def Reg.dbWritten : Reg := ⟨(0x1500) * 256 + 0x01, 0, 64⟩

/-- DB_CURSOR (R623). -/
def Reg.dbCursor : Reg := ⟨(0x1500) * 256 + 0x02, 0, 64⟩

/-- DB_BATCH (R623). -/
def Reg.dbBatch : Reg := ⟨(0x1500) * 256 + 0x03, 0, 8192⟩

/-- PC_RUN_ALL (R623). -/
def Reg.pcRunAll : Reg := ⟨(0x1510) * 256 + 0x01, 1, 1⟩

/-- PC_CLEAR_ALL (R623). -/
def Reg.pcClearAll : Reg := ⟨(0x1510) * 256 + 0x02, 0, 1⟩

/-- LIT_STEWARD (R623). -/
def Reg.litSteward : Reg := ⟨(0x1510) * 256 + 0x03, 0xFF, 8⟩

/-- SAMPLE_ENABLE (R623). -/
def Reg.sampleEnable : Reg := ⟨(0x1520) * 256 + 0x01, 0, 1⟩

/-- REEVE_SAMPLE_PERIOD (R623). -/
def Reg.reeveSamplePeriod : Reg := ⟨(0x1520) * 256 + 0x02, 0, 32⟩

/-- SAMPLE_NEXT (R623). -/
def Reg.sampleNext : Reg := ⟨(0x1520) * 256 + 0x03, 0, 256⟩

/-- SAMPLES_HELD (R623). -/
def Reg.samplesHeld : Reg := ⟨(0x1520) * 256 + 0x04, 0, 16⟩

/-- SAMPLES_LOST (R623). -/
def Reg.samplesLost : Reg := ⟨(0x1520) * 256 + 0x05, 0, 32⟩

/-- BOOKS_RUN (R623). -/
def Reg.booksRun : Reg := ⟨(0x1530) * 256 + 0x01, 0, 16⟩

/-- BOOKS_PERIOD_S (R623). -/
def Reg.booksPeriodS : Reg := ⟨(0x1530) * 256 + 0x02, 3600, 32⟩

/-- BOOKS_WAIT_MS (R623). -/
def Reg.booksWaitMs : Reg := ⟨(0x1530) * 256 + 0x03, 100, 16⟩

/-- BOOKS_STATE (R623). -/
def Reg.booksState : Reg := ⟨(0x1530) * 256 + 0x04, 0, 8⟩

/-- BOOKS_RESULT (R623). -/
def Reg.booksResult : Reg := ⟨(0x1530) * 256 + 0x05, 0, 128⟩

/-- BOOKS_DETAIL (R623). -/
def Reg.booksDetail : Reg := ⟨(0x1530) * 256 + 0x06, 0, 128⟩

/-- BOOKS_IMBALANCES (R623). -/
def Reg.booksImbalances : Reg := ⟨(0x1530) * 256 + 0x07, 0, 32⟩

/-- PC_CONFIG (R624). -/
def Reg.pcConfig (u k : Nat) : Reg := ⟨(0x210C + u * 16) * 256 + 0x01 + k, 0, 32⟩

/-- PC_VALUE (R624). -/
def Reg.pcValue (u k : Nat) : Reg := ⟨(0x210D + u * 16) * 256 + 0x01 + k, 0, 64⟩

/-- PC_PAIR (R624). -/
def Reg.pcPair (u k : Nat) : Reg := ⟨(0x210E + u * 16) * 256 + 0x01 + k, 0, 96⟩

/-- PC_OVF (R624). -/
def Reg.pcOvf (u : Nat) : Reg := ⟨(0x210F + u * 16) * 256 + 0x01, 0, 32⟩

/-- ROLE_CORRECTED (R625). -/
def Reg.roleCorrected (u k : Nat) : Reg := ⟨(0x4038 + u * 64) * 256 + 0x01 + k, 0, 64⟩

/-- TALLY_US (R625). -/
def Reg.tallyUs (u : Nat) : Reg := ⟨(0x4039 + u * 64) * 256 + 0x00, 1000, 32⟩

/-- STATISTIC (R625). -/
def Reg.statistic (u k : Nat) : Reg := ⟨(0x5006 + u * 8) * 256 + 0x01 + k, 0, 64⟩

/-- TALLY_SEQ (R625). -/
def Reg.tallySeq (u : Nat) : Reg := ⟨(0x5007 + u * 8) * 256 + 0x01, 0, 32⟩

/-- TALLY_HISTORY (R625). -/
def Reg.tallyHistory (u : Nat) : Reg := ⟨(0x5007 + u * 8) * 256 + 0x02, 0, 4096⟩

end Sys2Proof.Machine
end

