-- ==== Sys2Proof/Machine/ObjTable.lean ====
section
/-! DEFINITION. The object tables of the manual: for every Ledger object its type, its access code for each
role, its kept class, its range and its reserved bits (R76, R77, R87). -/

namespace Sys2Proof.Machine

/-- Types of R77. -/
inductive OTy where
  | bool
  | u (bytes : Nat)
  | i (bytes : Nat)
  | time96
  | oct (n : Nat)
  | text
  | domain
  deriving DecidableEq, Repr

/-- Access codes (chapter 00). -/
inductive Acc where
  | ro | wo | rw | rws | none
  deriving DecidableEq, Repr

/-- Kept classes (chapter 00). -/
inductive Kept where
  | v | e | g
  deriving DecidableEq, Repr

/-- Ranges that the tables state by numbers; the rules that compare several values are in the family files. -/
inductive Rng where
  | any
  | rng (lo hi : Nat)
  | rngOr (lo hi other : Nat)
  | sgn (lo hi : Int)
  | oneOf (l : List Nat)
  deriving DecidableEq, Repr

/-- Where a row's objects stand: base index, stride, count and subindices; or the fields of an SA (R475); or
those of a receive SC. -/
inductive Loc where
  | at (base stride count sub0 subN : Nat)
  | sa (f : Nat)
  | rxsc (s : Nat)
  deriving DecidableEq, Repr

structure ObjRow where
  name : String
  loc : Loc
  type : OTy
  h : Acc
  f : Acc
  o : Acc
  kept : Kept
  rng : Rng
  resv : Nat
  reg : Nat → Nat → Reg

/-- Objects of R74. -/
def objsR74 : List ObjRow := [
  { name := "RAIL_GOOD", loc := .at 0x1040 1 1 1 1, type := (.u 1), h := .ro, f := .ro, o := .ro, kept := .v, rng := .any, resv := 0, reg := fun _ _ => Reg.railGood },
  { name := "VCORE_MV", loc := .at 0x1040 1 1 2 2, type := (.u 2), h := .ro, f := .ro, o := .ro, kept := .v, rng := .any, resv := 0, reg := fun _ _ => Reg.vcoreMv },
  { name := "PFAIL_COUNT", loc := .at 0x1040 1 1 3 3, type := (.u 4), h := .ro, f := .ro, o := .ro, kept := .g, rng := .any, resv := 0, reg := fun _ _ => Reg.pfailCount },
  { name := "TJ", loc := .at 0x1041 1 1 1 5, type := (.i 2), h := .ro, f := .ro, o := .ro, kept := .v, rng := .any, resv := 0, reg := fun _ k => Reg.tj k },
  { name := "TJ_ALARM_C", loc := .at 0x1041 1 1 6 6, type := (.i 2), h := .rws, f := .rws, o := .ro, kept := .g, rng := (.sgn 80 110), resv := 0, reg := fun _ _ => Reg.tjAlarmC },
  { name := "AVS_ENABLE", loc := .at 0x1042 1 1 1 1, type := .bool, h := .rws, f := .rws, o := .ro, kept := .g, rng := .any, resv := 0, reg := fun _ _ => Reg.avsEnable },
  { name := "AVS_STORED_MV", loc := .at 0x1042 1 1 2 2, type := (.u 2), h := .ro, f := .ro, o := .ro, kept := .g, rng := .any, resv := 0, reg := fun _ _ => Reg.avsStoredMv },
  { name := "AVS_MIN_MV", loc := .at 0x1042 1 1 3 3, type := (.u 2), h := .rws, f := .rws, o := .ro, kept := .g, rng := (.rng 650 800), resv := 0, reg := fun _ _ => Reg.avsMinMv },
  { name := "AVS_MAX_MV", loc := .at 0x1042 1 1 4 4, type := (.u 2), h := .rws, f := .rws, o := .ro, kept := .g, rng := (.rng 650 800), resv := 0, reg := fun _ _ => Reg.avsMaxMv },
  { name := "AVS_REFUSED", loc := .at 0x1042 1 1 5 5, type := (.u 4), h := .ro, f := .ro, o := .ro, kept := .v, rng := .any, resv := 0, reg := fun _ _ => Reg.avsRefused },
  { name := "TAGS_OUT", loc := .at 0x1043 1 1 1 1, type := (.u 2), h := .ro, f := .ro, o := .ro, kept := .v, rng := .any, resv := 0, reg := fun _ _ => Reg.tagsOut },
  { name := "READ_TIMEOUTS", loc := .at 0x1043 1 1 2 2, type := (.u 4), h := .ro, f := .ro, o := .ro, kept := .v, rng := .any, resv := 0, reg := fun _ _ => Reg.readTimeouts },
  { name := "LATE_COMPLETIONS", loc := .at 0x1043 1 1 3 3, type := (.u 4), h := .ro, f := .ro, o := .ro, kept := .v, rng := .any, resv := 0, reg := fun _ _ => Reg.lateCompletions },
  { name := "UNMAPPED_ACCESS", loc := .at 0x1043 1 1 4 4, type := (.u 4), h := .ro, f := .ro, o := .ro, kept := .v, rng := .any, resv := 0, reg := fun _ _ => Reg.unmappedAccess },
  { name := "ROOT_LOCKED", loc := .at 0x1300 1 1 1 1, type := .bool, h := .ro, f := .ro, o := .ro, kept := .v, rng := .any, resv := 0, reg := fun _ _ => Reg.rootLocked },
  { name := "REFCORE_LOSSES", loc := .at 0x1300 1 1 2 2, type := (.u 4), h := .ro, f := .ro, o := .ro, kept := .g, rng := .any, resv := 0, reg := fun _ _ => Reg.refcoreLosses },
  { name := "REFLANE_PRESENT", loc := .at 0x1300 1 1 3 3, type := (.u 2), h := .ro, f := .ro, o := .ro, kept := .v, rng := .any, resv := 0, reg := fun _ _ => Reg.reflanePresent },
  { name := "SYNCOUT_ENABLE", loc := .at 0x1301 1 2 1 1, type := .bool, h := .rws, f := .rws, o := .ro, kept := .g, rng := .any, resv := 0, reg := fun u _ => Reg.syncoutEnable u },
  { name := "SYNCOUT_SP", loc := .at 0x1301 1 2 2 2, type := (.u 2), h := .rws, f := .rws, o := .ro, kept := .g, rng := (.rng 0 511), resv := 0, reg := fun u _ => Reg.syncoutSp u },
  { name := "SYNCOUT_ROLE", loc := .at 0x1301 1 2 3 3, type := (.u 1), h := .rws, f := .rws, o := .ro, kept := .g, rng := (.rng 0 15), resv := 0, reg := fun u _ => Reg.syncoutRole u },
  { name := "SYNCOUT_DIVIDER", loc := .at 0x1301 1 2 4 4, type := (.u 2), h := .rws, f := .rws, o := .ro, kept := .g, rng := (.rng 2 4095), resv := 0, reg := fun u _ => Reg.syncoutDivider u },
  { name := "SYNCOUT_STATE", loc := .at 0x1301 1 2 5 5, type := (.u 1), h := .ro, f := .ro, o := .ro, kept := .v, rng := .any, resv := 0, reg := fun u _ => Reg.syncoutState u }]

/-- Objects of R123. -/
def objsR123 : List ObjRow := [
  { name := "STORE_RANGE", loc := .at 0x1010 1 1 1 1, type := (.u 4), h := .wo, f := .wo, o := .wo, kept := .v, rng := .any, resv := 0, reg := fun _ _ => Reg.storeRange },
  { name := "STORE_STATE", loc := .at 0x1010 1 1 2 2, type := (.u 1), h := .ro, f := .ro, o := .ro, kept := .v, rng := .any, resv := 0, reg := fun _ _ => Reg.storeState },
  { name := "STORE_RESULT", loc := .at 0x1010 1 1 3 3, type := (.u 4), h := .ro, f := .ro, o := .ro, kept := .v, rng := .any, resv := 0, reg := fun _ _ => Reg.storeResult },
  { name := "RESTORE_RANGE", loc := .at 0x1011 1 1 1 1, type := (.u 4), h := .wo, f := .wo, o := .wo, kept := .v, rng := .any, resv := 0, reg := fun _ _ => Reg.restoreRange },
  { name := "DEFAULT_RANGE", loc := .at 0x1011 1 1 2 2, type := (.u 4), h := .wo, f := .wo, o := .wo, kept := .v, rng := .any, resv := 0, reg := fun _ _ => Reg.defaultRange },
  { name := "FIELD_ADDR", loc := .at 0x1100 1 1 1 1, type := (.oct 16), h := .rws, f := .rws, o := .ro, kept := .g, rng := .any, resv := 0, reg := fun _ _ => Reg.fieldAddr },
  { name := "DVOR_UDP_PORT", loc := .at 0x1100 1 1 3 3, type := (.u 2), h := .rws, f := .rws, o := .ro, kept := .g, rng := (.rng 1024 65535), resv := 0, reg := fun _ _ => Reg.dvorUdpPort },
  { name := "F0_MAC", loc := .at 0x1100 1 1 4 4, type := (.oct 6), h := .ro, f := .ro, o := .ro, kept := .g, rng := .any, resv := 0, reg := fun _ _ => Reg.f0Mac },
  { name := "F1_MAC", loc := .at 0x1100 1 1 5 5, type := (.oct 6), h := .ro, f := .ro, o := .ro, kept := .g, rng := .any, resv := 0, reg := fun _ _ => Reg.f1Mac },
  { name := "AUTH_FAIL", loc := .at 0x1101 1 1 1 1, type := (.u 4), h := .ro, f := .ro, o := .ro, kept := .v, rng := .any, resv := 0, reg := fun _ _ => Reg.authFail },
  { name := "SEQ_OLD", loc := .at 0x1101 1 1 2 2, type := (.u 4), h := .ro, f := .ro, o := .ro, kept := .v, rng := .any, resv := 0, reg := fun _ _ => Reg.seqOld },
  { name := "SEQ_AHEAD", loc := .at 0x1101 1 1 3 3, type := (.u 4), h := .ro, f := .ro, o := .ro, kept := .v, rng := .any, resv := 0, reg := fun _ _ => Reg.seqAhead },
  { name := "BUSY_REFUSED", loc := .at 0x1101 1 1 4 4, type := (.u 4), h := .ro, f := .ro, o := .ro, kept := .v, rng := .any, resv := 0, reg := fun _ _ => Reg.busyRefused },
  { name := "EVENTS_DROPPED", loc := .at 0x1101 1 1 5 5, type := (.u 4), h := .ro, f := .ro, o := .ro, kept := .v, rng := .any, resv := 0, reg := fun _ _ => Reg.eventsDropped },
  { name := "FIELD_OTHER", loc := .at 0x1101 1 1 6 6, type := (.u 4), h := .ro, f := .ro, o := .ro, kept := .v, rng := .any, resv := 0, reg := fun _ _ => Reg.fieldOther },
  { name := "INBAND_ENABLE", loc := .at 0x1110 1 1 1 1, type := .bool, h := .rws, f := .rws, o := .ro, kept := .g, rng := .any, resv := 0, reg := fun _ _ => Reg.inbandEnable },
  { name := "INBAND_SP", loc := .at 0x1110 1 1 2 2, type := (.u 2), h := .rws, f := .rws, o := .ro, kept := .g, rng := (.rng 0 511), resv := 0, reg := fun _ _ => Reg.inbandSp },
  { name := "INBAND_QUEUE", loc := .at 0x1110 1 1 3 3, type := (.u 1), h := .rws, f := .rws, o := .ro, kept := .g, rng := (.rng 0 63), resv := 0, reg := fun _ _ => Reg.inbandQueue },
  { name := "INBAND_RATE", loc := .at 0x1110 1 1 4 4, type := (.u 4), h := .rws, f := .rws, o := .ro, kept := .g, rng := (.rng 100 100000), resv := 0, reg := fun _ _ => Reg.inbandRate },
  { name := "INBAND_DROPPED", loc := .at 0x1110 1 1 5 5, type := (.u 4), h := .ro, f := .ro, o := .ro, kept := .v, rng := .any, resv := 0, reg := fun _ _ => Reg.inbandDropped },
  { name := "SESSION_STATE", loc := .at 0x1120 1 8 1 1, type := (.u 1), h := .ro, f := .ro, o := .ro, kept := .v, rng := .any, resv := 0, reg := fun u _ => Reg.sessionState u },
  { name := "SESSION_ROLE", loc := .at 0x1120 1 8 2 2, type := (.u 1), h := .ro, f := .ro, o := .ro, kept := .v, rng := .any, resv := 0, reg := fun u _ => Reg.sessionRole u },
  { name := "SESSION_ID", loc := .at 0x1120 1 8 3 3, type := (.u 4), h := .ro, f := .ro, o := .ro, kept := .v, rng := .any, resv := 0, reg := fun u _ => Reg.sessionId u },
  { name := "SEQ_IN_HIGH", loc := .at 0x1120 1 8 4 4, type := (.u 4), h := .ro, f := .ro, o := .ro, kept := .v, rng := .any, resv := 0, reg := fun u _ => Reg.seqInHigh u }]

/-- Objects of R123. -/
def objsR123_1 : List ObjRow := [
  { name := "SEQ_OUT", loc := .at 0x1120 1 8 5 5, type := (.u 4), h := .ro, f := .ro, o := .ro, kept := .v, rng := .any, resv := 0, reg := fun u _ => Reg.seqOut u },
  { name := "IDLE_MS", loc := .at 0x1120 1 8 6 6, type := (.u 4), h := .ro, f := .ro, o := .ro, kept := .v, rng := .any, resv := 0, reg := fun u _ => Reg.idleMs u },
  { name := "EVENTS_UNACKED", loc := .at 0x1120 1 8 7 7, type := (.u 1), h := .ro, f := .ro, o := .ro, kept := .v, rng := .any, resv := 0, reg := fun u _ => Reg.eventsUnacked u },
  { name := "MY_EVENT_MASK", loc := .at 0x1130 1 1 1 1, type := (.u 8), h := .none, f := .rw, o := .rw, kept := .v, rng := .any, resv := 0, reg := fun _ _ => Reg.myEventMask }]

/-- Objects of R154. -/
def objsR154 : List ObjRow := [
  { name := "VENDOR", loc := .at 0x1000 1 1 1 1, type := .text, h := .ro, f := .ro, o := .ro, kept := .v, rng := .any, resv := 0, reg := fun _ _ => Reg.vendor },
  { name := "DEVICE", loc := .at 0x1000 1 1 2 2, type := .text, h := .ro, f := .ro, o := .ro, kept := .v, rng := .any, resv := 0, reg := fun _ _ => Reg.device },
  { name := "HW_REVISION", loc := .at 0x1000 1 1 3 3, type := (.u 2), h := .ro, f := .ro, o := .ro, kept := .v, rng := .any, resv := 0, reg := fun _ _ => Reg.hwRevision },
  { name := "SERIAL", loc := .at 0x1000 1 1 4 4, type := (.oct 16), h := .ro, f := .ro, o := .ro, kept := .v, rng := .any, resv := 0, reg := fun _ _ => Reg.serial },
  { name := "ROM_VERSION", loc := .at 0x1001 1 1 1 1, type := (.u 4), h := .ro, f := .ro, o := .ro, kept := .v, rng := .any, resv := 0, reg := fun _ _ => Reg.romVersion },
  { name := "HW_EPOCH", loc := .at 0x1001 1 1 2 2, type := (.u 2), h := .ro, f := .ro, o := .ro, kept := .v, rng := .any, resv := 0, reg := fun _ _ => Reg.hwEpoch },
  { name := "REEVE_EPOCH", loc := .at 0x1001 1 1 3 3, type := (.u 2), h := .ro, f := .ro, o := .ro, kept := .v, rng := .any, resv := 0, reg := fun _ _ => Reg.reeveEpoch },
  { name := "STEWARD_EPOCH", loc := .at 0x1001 1 1 4 4, type := (.u 2), h := .ro, f := .ro, o := .ro, kept := .v, rng := .any, resv := 0, reg := fun _ _ => Reg.stewardEpoch },
  { name := "STEWARD_ABI", loc := .at 0x1001 1 1 5 5, type := (.u 2), h := .ro, f := .ro, o := .ro, kept := .v, rng := .any, resv := 0, reg := fun _ _ => Reg.stewardAbi },
  { name := "GRANARY_LAYOUT", loc := .at 0x1001 1 1 6 6, type := (.u 2), h := .ro, f := .ro, o := .ro, kept := .v, rng := .any, resv := 0, reg := fun _ _ => Reg.granaryLayout },
  { name := "LAYOUT_MAX", loc := .at 0x1001 1 1 7 7, type := (.u 2), h := .ro, f := .ro, o := .ro, kept := .v, rng := .any, resv := 0, reg := fun _ _ => Reg.layoutMax },
  { name := "IMAGE_SLOTS", loc := .at 0x1001 1 1 8 8, type := (.u 1), h := .ro, f := .ro, o := .ro, kept := .v, rng := .any, resv := 0, reg := fun _ _ => Reg.imageSlots },
  { name := "MODE", loc := .at 0x1002 1 1 1 1, type := (.u 1), h := .ro, f := .ro, o := .ro, kept := .v, rng := .any, resv := 0, reg := fun _ _ => Reg.mode },
  { name := "MODE_REQUEST", loc := .at 0x1002 1 1 2 2, type := (.u 1), h := .wo, f := .wo, o := .wo, kept := .v, rng := .any, resv := 0, reg := fun _ _ => Reg.modeRequest },
  { name := "BARE", loc := .at 0x1002 1 1 3 3, type := (.u 1), h := .ro, f := .ro, o := .ro, kept := .v, rng := .any, resv := 0, reg := fun _ _ => Reg.bare },
  { name := "LAST_CAUSE", loc := .at 0x1002 1 1 4 4, type := (.u 1), h := .ro, f := .ro, o := .ro, kept := .v, rng := .any, resv := 0, reg := fun _ _ => Reg.lastCause },
  { name := "KINDLE_COUNT", loc := .at 0x1002 1 1 5 5, type := (.u 4), h := .ro, f := .ro, o := .ro, kept := .g, rng := .any, resv := 0, reg := fun _ _ => Reg.kindleCount },
  { name := "KINDLE_FROM", loc := .at 0x1002 1 1 6 6, type := (.u 1), h := .ro, f := .ro, o := .ro, kept := .v, rng := .any, resv := 0, reg := fun _ _ => Reg.kindleFrom },
  { name := "KINDLE_STEP", loc := .at 0x1002 1 1 7 7, type := (.u 1), h := .ro, f := .ro, o := .ro, kept := .v, rng := .any, resv := 0, reg := fun _ _ => Reg.kindleStep },
  { name := "KINDLE_US", loc := .at 0x1002 1 1 8 8, type := (.u 4), h := .ro, f := .ro, o := .ro, kept := .v, rng := .any, resv := 0, reg := fun _ _ => Reg.kindleUs },
  { name := "FORCE_BARE", loc := .at 0x1002 1 1 9 9, type := .bool, h := .rws, f := .rws, o := .ro, kept := .g, rng := .any, resv := 0, reg := fun _ _ => Reg.forceBare },
  { name := "GRANARY_RO", loc := .at 0x1002 1 1 10 10, type := .bool, h := .ro, f := .ro, o := .ro, kept := .v, rng := .any, resv := 0, reg := fun _ _ => Reg.granaryRo },
  { name := "SEALED_CAUSE", loc := .at 0x1002 1 1 11 11, type := (.u 1), h := .ro, f := .ro, o := .ro, kept := .g, rng := .any, resv := 0, reg := fun _ _ => Reg.sealedCause },
  { name := "EMBER_TICKS", loc := .at 0x1002 1 1 12 12, type := (.u 8), h := .ro, f := .ro, o := .ro, kept := .v, rng := .any, resv := 0, reg := fun _ _ => Reg.emberTicks }]

/-- Objects of R154. -/
def objsR154_1 : List ObjRow := [
  { name := "WAKE_PATTERN", loc := .at 0x1003 1 1 1 4, type := (.oct 64), h := .rws, f := .rws, o := .ro, kept := .g, rng := .any, resv := 0, reg := fun _ k => Reg.wakePattern k },
  { name := "WAKE_MASK", loc := .at 0x1003 1 1 5 8, type := (.oct 64), h := .rws, f := .rws, o := .ro, kept := .g, rng := .any, resv := 0, reg := fun _ k => Reg.wakeMask k },
  { name := "WAKE_ENABLE", loc := .at 0x1003 1 1 9 9, type := (.u 1), h := .rws, f := .rws, o := .ro, kept := .g, rng := .any, resv := 0xF0, reg := fun _ _ => Reg.wakeEnable },
  { name := "WAKE_CAUSE", loc := .at 0x1003 1 1 10 10, type := (.u 1), h := .ro, f := .ro, o := .ro, kept := .v, rng := .any, resv := 0, reg := fun _ _ => Reg.wakeCause }]

/-- Objects of R209. -/
def objsR209 : List ObjRow := [
  { name := "LANE_RATE", loc := .at 0x4001 64 64 0 0, type := (.u 1), h := .rws, f := .rws, o := .ro, kept := .g, rng := (.rng 0 2), resv := 0, reg := fun u _ => Reg.laneRate u },
  { name := "TRAIN_MODE", loc := .at 0x4002 64 64 0 0, type := (.u 1), h := .rws, f := .rws, o := .ro, kept := .g, rng := (.rng 0 1), resv := 0, reg := fun u _ => Reg.trainMode u },
  { name := "OFFER_CAPS", loc := .at 0x4003 64 64 0 0, type := (.u 1), h := .rws, f := .rws, o := .ro, kept := .g, rng := .any, resv := 0xF0, reg := fun u _ => Reg.offerCaps u },
  { name := "AGREED_CAPS", loc := .at 0x4004 64 64 1 8, type := (.u 2), h := .ro, f := .ro, o := .ro, kept := .v, rng := .any, resv := 0, reg := fun u k => Reg.agreedCaps u k },
  { name := "BRINGUP_STATE", loc := .at 0x4005 64 64 1 8, type := (.u 1), h := .ro, f := .ro, o := .ro, kept := .v, rng := .any, resv := 0, reg := fun u k => Reg.bringupState u k },
  { name := "BRINGUP_FAILS", loc := .at 0x4006 64 64 1 8, type := (.u 1), h := .ro, f := .ro, o := .ro, kept := .v, rng := .any, resv := 0, reg := fun u k => Reg.bringupFails u k },
  { name := "LAST_FAIL", loc := .at 0x4007 64 64 1 8, type := (.u 1), h := .ro, f := .ro, o := .ro, kept := .v, rng := .any, resv := 0, reg := fun u k => Reg.lastFail u k },
  { name := "TRAIN_RESTART", loc := .at 0x4008 64 64 0 0, type := (.u 1), h := .wo, f := .wo, o := .none, kept := .v, rng := .any, resv := 0, reg := fun u _ => Reg.trainRestart u },
  { name := "CDR_BW_DEFAULT", loc := .at 0x4009 64 64 0 0, type := (.u 1), h := .rws, f := .rws, o := .ro, kept := .g, rng := (.rng 0 3), resv := 0, reg := fun u _ => Reg.cdrBwDefault u }]

/-- Objects of R210. -/
def objsR210 : List ObjRow := [
  { name := "LANE_STATE", loc := .at 0x6000 1 1088 1 1, type := (.u 1), h := .ro, f := .ro, o := .ro, kept := .v, rng := .any, resv := 0, reg := fun u _ => Reg.laneState u },
  { name := "CTLE_CODE", loc := .at 0x6000 1 1088 2 2, type := (.u 1), h := .ro, f := .ro, o := .ro, kept := .v, rng := .any, resv := 0, reg := fun u _ => Reg.ctleCode u },
  { name := "CTLE_OVERRIDE", loc := .at 0x6000 1 1088 3 3, type := (.u 1), h := .rws, f := .rws, o := .ro, kept := .g, rng := (.rngOr 0 36 255), resv := 0, reg := fun u _ => Reg.ctleOverride u },
  { name := "TX_SWING", loc := .at 0x6000 1 1088 4 4, type := (.u 1), h := .ro, f := .ro, o := .ro, kept := .v, rng := .any, resv := 0, reg := fun u _ => Reg.txSwing u },
  { name := "TX_SWING_OVERRIDE", loc := .at 0x6000 1 1088 5 5, type := (.u 1), h := .rws, f := .rws, o := .ro, kept := .g, rng := (.rngOr 0 15 255), resv := 0, reg := fun u _ => Reg.txSwingOverride u },
  { name := "CDR_BW", loc := .at 0x6000 1 1088 6 6, type := (.u 1), h := .rw, f := .rw, o := .ro, kept := .v, rng := (.rng 0 3), resv := 0, reg := fun u _ => Reg.cdrBw u },
  { name := "DEEMPH_ENABLE", loc := .at 0x6000 1 1088 7 7, type := .bool, h := .rws, f := .rws, o := .ro, kept := .g, rng := .any, resv := 0, reg := fun u _ => Reg.deemphEnable u },
  { name := "TX_INVERT", loc := .at 0x6000 1 1088 8 8, type := .bool, h := .rws, f := .rws, o := .ro, kept := .g, rng := .any, resv := 0, reg := fun u _ => Reg.txInvert u },
  { name := "RX_POLARITY", loc := .at 0x6000 1 1088 9 9, type := (.u 1), h := .rws, f := .rws, o := .ro, kept := .g, rng := (.rng 0 2), resv := 0, reg := fun u _ => Reg.rxPolarity u },
  { name := "RX_INVERTED", loc := .at 0x6000 1 1088 10 10, type := .bool, h := .ro, f := .ro, o := .ro, kept := .v, rng := .any, resv := 0, reg := fun u _ => Reg.rxInverted u },
  { name := "SIGNAL_DETECT", loc := .at 0x6000 1 1088 11 11, type := .bool, h := .ro, f := .ro, o := .ro, kept := .v, rng := .any, resv := 0, reg := fun u _ => Reg.signalDetect u },
  { name := "CDR_LOCKED", loc := .at 0x6000 1 1088 12 12, type := .bool, h := .ro, f := .ro, o := .ro, kept := .v, rng := .any, resv := 0, reg := fun u _ => Reg.cdrLocked u },
  { name := "LOCK_LOSSES", loc := .at 0x6000 1 1088 13 13, type := (.u 4), h := .ro, f := .ro, o := .ro, kept := .v, rng := .any, resv := 0, reg := fun u _ => Reg.lockLosses u },
  { name := "TRAIN_FAILS", loc := .at 0x6000 1 1088 14 14, type := (.u 4), h := .ro, f := .ro, o := .ro, kept := .v, rng := .any, resv := 0, reg := fun u _ => Reg.trainFails u },
  { name := "TRAIN_BAD_FRAMES", loc := .at 0x6000 1 1088 15 15, type := (.u 4), h := .ro, f := .ro, o := .ro, kept := .v, rng := .any, resv := 0, reg := fun u _ => Reg.trainBadFrames u },
  { name := "GOSSIP_BAD", loc := .at 0x6000 1 1088 16 16, type := (.u 4), h := .ro, f := .ro, o := .ro, kept := .v, rng := .any, resv := 0, reg := fun u _ => Reg.gossipBad u },
  { name := "TEST_ENABLE", loc := .at 0x6000 1 1088 17 17, type := .bool, h := .rw, f := .rw, o := .ro, kept := .v, rng := .any, resv := 0, reg := fun u _ => Reg.testEnable u },
  { name := "TEST_RATE", loc := .at 0x6000 1 1088 18 18, type := (.u 1), h := .rw, f := .rw, o := .ro, kept := .v, rng := (.rng 0 2), resv := 0, reg := fun u _ => Reg.testRate u },
  { name := "PRBS_TX", loc := .at 0x6000 1 1088 19 19, type := (.u 1), h := .rw, f := .rw, o := .ro, kept := .v, rng := .any, resv := 0x7C, reg := fun u _ => Reg.prbsTx u },
  { name := "PRBS_RX", loc := .at 0x6000 1 1088 20 20, type := (.u 1), h := .rw, f := .rw, o := .ro, kept := .v, rng := .any, resv := 0x7C, reg := fun u _ => Reg.prbsRx u },
  { name := "PRBS_LOCK", loc := .at 0x6000 1 1088 21 21, type := .bool, h := .ro, f := .ro, o := .ro, kept := .v, rng := .any, resv := 0, reg := fun u _ => Reg.prbsLock u },
  { name := "PRBS_BITS", loc := .at 0x6000 1 1088 22 22, type := (.u 8), h := .ro, f := .ro, o := .ro, kept := .v, rng := .any, resv := 0, reg := fun u _ => Reg.prbsBits u },
  { name := "PRBS_ERRORS", loc := .at 0x6000 1 1088 23 23, type := (.u 8), h := .ro, f := .ro, o := .ro, kept := .v, rng := .any, resv := 0, reg := fun u _ => Reg.prbsErrors u },
  { name := "PRBS_CLEAR", loc := .at 0x6000 1 1088 24 24, type := .bool, h := .wo, f := .wo, o := .none, kept := .v, rng := .any, resv := 0, reg := fun u _ => Reg.prbsClear u }]

/-- Objects of R210. -/
def objsR210_1 : List ObjRow := [
  { name := "EYE_CTRL", loc := .at 0x6000 1 1088 25 25, type := (.u 4), h := .wo, f := .wo, o := .none, kept := .v, rng := .any, resv := 0, reg := fun u _ => Reg.eyeCtrl u },
  { name := "EYE_STATE", loc := .at 0x6000 1 1088 26 26, type := (.u 1), h := .ro, f := .ro, o := .ro, kept := .v, rng := .any, resv := 0, reg := fun u _ => Reg.eyeState u },
  { name := "EYE_BER_EXP", loc := .at 0x6000 1 1088 27 27, type := (.u 1), h := .rw, f := .rw, o := .ro, kept := .v, rng := (.rng 3 12), resv := 0, reg := fun u _ => Reg.eyeBerExp u },
  { name := "EYE_H_MARGIN", loc := .at 0x6000 1 1088 28 28, type := (.u 2), h := .ro, f := .ro, o := .ro, kept := .v, rng := .any, resv := 0, reg := fun u _ => Reg.eyeHMargin u },
  { name := "EYE_V_MARGIN", loc := .at 0x6000 1 1088 29 29, type := (.u 2), h := .ro, f := .ro, o := .ro, kept := .v, rng := .any, resv := 0, reg := fun u _ => Reg.eyeVMargin u },
  { name := "EYE_MAP", loc := .at 0x6000 1 1088 30 30, type := .domain, h := .ro, f := .ro, o := .ro, kept := .v, rng := .any, resv := 0, reg := fun u _ => Reg.eyeMap u }]

/-- Objects of R212. -/
def objsR212 : List ObjRow := [
  { name := "F_RATE", loc := .at 0x1180 1 1 1 1, type := (.u 1), h := .rws, f := .rws, o := .ro, kept := .g, rng := (.rng 0 1), resv := 0, reg := fun _ _ => Reg.fRate },
  { name := "F_FEC", loc := .at 0x1180 1 1 2 2, type := (.u 1), h := .rws, f := .rws, o := .ro, kept := .g, rng := (.rng 0 2), resv := 0, reg := fun _ _ => Reg.fFec },
  { name := "F_ENABLE", loc := .at 0x1180 1 1 3 3, type := (.u 1), h := .rws, f := .rws, o := .ro, kept := .g, rng := .any, resv := 0xFC, reg := fun _ _ => Reg.fEnable },
  { name := "F_POLARITY", loc := .at 0x1180 1 1 4 4, type := (.u 1), h := .rws, f := .rws, o := .ro, kept := .g, rng := .any, resv := 0xF0, reg := fun _ _ => Reg.fPolarity },
  { name := "F0_UP", loc := .at 0x1181 1 1 1 1, type := .bool, h := .ro, f := .ro, o := .ro, kept := .v, rng := .any, resv := 0, reg := fun _ _ => Reg.f0Up },
  { name := "F1_UP", loc := .at 0x1181 1 1 2 2, type := .bool, h := .ro, f := .ro, o := .ro, kept := .v, rng := .any, resv := 0, reg := fun _ _ => Reg.f1Up },
  { name := "F0_DOWNS", loc := .at 0x1181 1 1 3 3, type := (.u 4), h := .ro, f := .ro, o := .ro, kept := .v, rng := .any, resv := 0, reg := fun _ _ => Reg.f0Downs },
  { name := "F1_DOWNS", loc := .at 0x1181 1 1 4 4, type := (.u 4), h := .ro, f := .ro, o := .ro, kept := .v, rng := .any, resv := 0, reg := fun _ _ => Reg.f1Downs }]

/-- Objects of R250. -/
def objsR250 : List ObjRow := [
  { name := "ROLE_LANE", loc := .at 0x400A 64 64 1 16, type := (.u 2), h := .ro, f := .ro, o := .ro, kept := .v, rng := .any, resv := 0, reg := fun u k => Reg.roleLane u k },
  { name := "SPARE_REACH", loc := .at 0x2108 16 16 1 4, type := (.u 1), h := .rws, f := .rws, o := .ro, kept := .g, rng := (.rng 0 15), resv := 0, reg := fun u k => Reg.spareReach u k },
  { name := "SPARE_RATE", loc := .at 0x2108 16 16 5 5, type := (.u 1), h := .rws, f := .rws, o := .ro, kept := .g, rng := (.rng 0 2), resv := 0, reg := fun u _ => Reg.spareRate u },
  { name := "POOL_MAP", loc := .at 0x2108 16 16 6 6, type := (.oct 9), h := .ro, f := .ro, o := .ro, kept := .v, rng := .any, resv := 0, reg := fun u _ => Reg.poolMap u },
  { name := "POOL_FREE", loc := .at 0x2108 16 16 7 7, type := (.u 1), h := .ro, f := .ro, o := .ro, kept := .v, rng := .any, resv := 0, reg := fun u _ => Reg.poolFree u },
  { name := "RETIRED_MAP", loc := .at 0x2109 16 16 1 1, type := (.oct 9), h := .ro, f := .ro, o := .ro, kept := .g, rng := .any, resv := 0, reg := fun u _ => Reg.retiredMap u },
  { name := "HELD_MAP", loc := .at 0x2109 16 16 2 2, type := (.oct 9), h := .ro, f := .ro, o := .ro, kept := .v, rng := .any, resv := 0, reg := fun u _ => Reg.heldMap u },
  { name := "ROUND_LANE", loc := .at 0x210A 16 16 1 1, type := (.u 2), h := .ro, f := .ro, o := .ro, kept := .v, rng := .any, resv := 0, reg := fun u _ => Reg.roundLane u },
  { name := "ROUND_DONE", loc := .at 0x210A 16 16 2 2, type := (.u 2), h := .ro, f := .ro, o := .ro, kept := .v, rng := .any, resv := 0, reg := fun u _ => Reg.roundDone u },
  { name := "ROUND_SKIPPED", loc := .at 0x210A 16 16 3 3, type := (.u 2), h := .ro, f := .ro, o := .ro, kept := .v, rng := .any, resv := 0, reg := fun u _ => Reg.roundSkipped u },
  { name := "PLANNED_COUNT", loc := .at 0x210B 16 16 1 1, type := (.u 4), h := .ro, f := .ro, o := .ro, kept := .g, rng := .any, resv := 0, reg := fun u _ => Reg.plannedCount u },
  { name := "UNPLANNED_COUNT", loc := .at 0x210B 16 16 2 2, type := (.u 4), h := .ro, f := .ro, o := .ro, kept := .g, rng := .any, resv := 0, reg := fun u _ => Reg.unplannedCount u },
  { name := "ABANDONED_COUNT", loc := .at 0x210B 16 16 3 3, type := (.u 4), h := .ro, f := .ro, o := .ro, kept := .g, rng := .any, resv := 0, reg := fun u _ => Reg.abandonedCount u },
  { name := "LAST_INTERRUPT_NS", loc := .at 0x210B 16 16 4 4, type := (.u 4), h := .ro, f := .ro, o := .ro, kept := .v, rng := .any, resv := 0, reg := fun u _ => Reg.lastInterruptNs u }]

/-- Objects of R251. -/
def objsR251 : List ObjRow := [
  { name := "LANE_USE", loc := .at 0x6000 1 1088 32 32, type := (.u 1), h := .ro, f := .ro, o := .ro, kept := .v, rng := .any, resv := 0, reg := fun u _ => Reg.laneUse u },
  { name := "SERVES", loc := .at 0x6000 1 1088 33 33, type := (.u 2), h := .ro, f := .ro, o := .ro, kept := .v, rng := .any, resv := 0, reg := fun u _ => Reg.serves u },
  { name := "SURVEY_AGE_S", loc := .at 0x6000 1 1088 34 34, type := (.u 4), h := .ro, f := .ro, o := .ro, kept := .g, rng := .any, resv := 0, reg := fun u _ => Reg.surveyAgeS u },
  { name := "SURVEY_V", loc := .at 0x6000 1 1088 35 35, type := (.u 4), h := .ro, f := .ro, o := .ro, kept := .g, rng := .any, resv := 0, reg := fun u _ => Reg.surveyV u },
  { name := "SURVEY_H", loc := .at 0x6000 1 1088 36 36, type := (.u 4), h := .ro, f := .ro, o := .ro, kept := .g, rng := .any, resv := 0, reg := fun u _ => Reg.surveyH u },
  { name := "SURVEY_PARTNER", loc := .at 0x6000 1 1088 37 37, type := (.u 2), h := .ro, f := .ro, o := .ro, kept := .g, rng := .any, resv := 0, reg := fun u _ => Reg.surveyPartner u },
  { name := "SURVEY_ERRORS", loc := .at 0x6000 1 1088 38 38, type := (.u 4), h := .ro, f := .ro, o := .ro, kept := .g, rng := .any, resv := 0, reg := fun u _ => Reg.surveyErrors u },
  { name := "TREND_SLOPE", loc := .at 0x6000 1 1088 39 39, type := (.i 4), h := .ro, f := .ro, o := .ro, kept := .v, rng := .any, resv := 0, reg := fun u _ => Reg.trendSlope u },
  { name := "TREND_PROJECTED", loc := .at 0x6000 1 1088 40 40, type := (.i 4), h := .ro, f := .ro, o := .ro, kept := .v, rng := .any, resv := 0, reg := fun u _ => Reg.trendProjected u },
  { name := "SETTINGS_EPOCH", loc := .at 0x6000 1 1088 41 41, type := (.u 1), h := .ro, f := .ro, o := .ro, kept := .g, rng := .any, resv := 0, reg := fun u _ => Reg.settingsEpoch u },
  { name := "CTLE_BIAS", loc := .at 0x6000 1 1088 42 42, type := (.i 2), h := .ro, f := .ro, o := .ro, kept := .g, rng := .any, resv := 0, reg := fun u _ => Reg.ctleBias u },
  { name := "SWING_PLAN", loc := .at 0x6000 1 1088 43 43, type := (.u 1), h := .ro, f := .ro, o := .ro, kept := .g, rng := .any, resv := 0, reg := fun u _ => Reg.swingPlan u },
  { name := "RETIRE_CAUSE", loc := .at 0x6000 1 1088 44 44, type := (.u 1), h := .ro, f := .ro, o := .ro, kept := .g, rng := .any, resv := 0, reg := fun u _ => Reg.retireCause u },
  { name := "RETIRE_CLEAR", loc := .at 0x6000 1 1088 45 45, type := .bool, h := .wo, f := .wo, o := .none, kept := .v, rng := .any, resv := 0, reg := fun u _ => Reg.retireClear u },
  { name := "SURVEY_NOW", loc := .at 0x6000 1 1088 46 46, type := .bool, h := .wo, f := .wo, o := .none, kept := .v, rng := .any, resv := 0, reg := fun u _ => Reg.surveyNow u },
  { name := "ALMANAC", loc := .at 0x6000 1 1088 47 47, type := .domain, h := .ro, f := .ro, o := .ro, kept := .g, rng := .any, resv := 0, reg := fun u _ => Reg.almanac u }]

/-- Objects of R252. -/
def objsR252 : List ObjRow := [
  { name := "ROUND_ENABLE", loc := .at 0x1480 1 1 1 1, type := .bool, h := .rws, f := .rws, o := .ro, kept := .g, rng := .any, resv := 0, reg := fun _ _ => Reg.roundEnable },
  { name := "ROUND_PERIOD_H", loc := .at 0x1480 1 1 2 2, type := (.u 2), h := .rws, f := .rws, o := .ro, kept := .g, rng := (.rng 1 720), resv := 0, reg := fun _ _ => Reg.roundPeriodH },
  { name := "ROUND_PRBS_S", loc := .at 0x1480 1 1 3 3, type := (.u 1), h := .rws, f := .rws, o := .ro, kept := .g, rng := (.rng 3 30), resv := 0, reg := fun _ _ => Reg.roundPrbsS },
  { name := "ROUND_NOW", loc := .at 0x1480 1 1 4 4, type := .bool, h := .wo, f := .wo, o := .none, kept := .v, rng := .any, resv := 0, reg := fun _ _ => Reg.roundNow },
  { name := "ROUND_COUNT", loc := .at 0x1480 1 1 5 5, type := (.u 4), h := .ro, f := .ro, o := .ro, kept := .g, rng := .any, resv := 0, reg := fun _ _ => Reg.roundCount },
  { name := "ROUND_ACTIVE", loc := .at 0x1480 1 1 6 6, type := .bool, h := .ro, f := .ro, o := .ro, kept := .v, rng := .any, resv := 0, reg := fun _ _ => Reg.roundActive },
  { name := "REPLAN_MODE", loc := .at 0x1481 1 1 1 1, type := (.u 1), h := .rws, f := .rws, o := .ro, kept := .g, rng := (.rng 0 2), resv := 0, reg := fun _ _ => Reg.replanMode },
  { name := "HORIZON_DAYS", loc := .at 0x1481 1 1 2 2, type := (.u 2), h := .rws, f := .rws, o := .ro, kept := .g, rng := (.rng 30 7300), resv := 0, reg := fun _ _ => Reg.horizonDays },
  { name := "V_FLOOR_MV", loc := .at 0x1481 1 1 3 3, type := (.u 1), h := .rws, f := .rws, o := .ro, kept := .g, rng := (.rng 10 120), resv := 0, reg := fun _ _ => Reg.vFloorMv },
  { name := "H_FLOOR", loc := .at 0x1481 1 1 4 4, type := (.u 1), h := .rws, f := .rws, o := .ro, kept := .g, rng := (.rng 4 32), resv := 0, reg := fun _ _ => Reg.hFloor },
  { name := "MIN_POINTS", loc := .at 0x1481 1 1 5 5, type := (.u 1), h := .rws, f := .rws, o := .ro, kept := .g, rng := (.rng 3 16), resv := 0, reg := fun _ _ => Reg.minPoints },
  { name := "RETIRE_ENABLE", loc := .at 0x1481 1 1 6 6, type := .bool, h := .rws, f := .rws, o := .ro, kept := .g, rng := .any, resv := 0, reg := fun _ _ => Reg.retireEnable },
  { name := "RETIRE_MIN_SPARES", loc := .at 0x1481 1 1 7 7, type := (.u 1), h := .rws, f := .rws, o := .ro, kept := .g, rng := (.rng 1 4), resv := 0, reg := fun _ _ => Reg.retireMinSpares },
  { name := "SWING_MAX", loc := .at 0x1481 1 1 8 8, type := (.u 1), h := .rws, f := .rws, o := .ro, kept := .g, rng := (.rng 10 15), resv := 0, reg := fun _ _ => Reg.swingMax },
  { name := "REPLAN_ACTIONS", loc := .at 0x1481 1 1 9 9, type := (.u 4), h := .ro, f := .ro, o := .ro, kept := .g, rng := .any, resv := 0, reg := fun _ _ => Reg.replanActions },
  { name := "TT_DEFICIT_C", loc := .at 0x1482 1 1 1 4, type := (.i 4), h := .ro, f := .ro, o := .ro, kept := .v, rng := .any, resv := 0, reg := fun _ k => Reg.ttDeficitC k },
  { name := "TT_PERIOD_S", loc := .at 0x1482 1 1 5 5, type := (.u 2), h := .rws, f := .rws, o := .ro, kept := .g, rng := (.rng 60 3600), resv := 0, reg := fun _ _ => Reg.ttPeriodS },
  { name := "TT_STEP_PPM", loc := .at 0x1482 1 1 6 6, type := (.u 2), h := .rws, f := .rws, o := .ro, kept := .g, rng := (.rng 500 10000), resv := 0, reg := fun _ _ => Reg.ttStepPpm },
  { name := "AVS_BASE_MV", loc := .at 0x1482 1 1 7 7, type := (.u 2), h := .rws, f := .rws, o := .ro, kept := .g, rng := (.rng 650 800), resv := 0, reg := fun _ _ => Reg.avsBaseMv },
  { name := "AVS_TARGET_MV", loc := .at 0x1482 1 1 8 8, type := (.u 2), h := .ro, f := .ro, o := .ro, kept := .v, rng := .any, resv := 0, reg := fun _ _ => Reg.avsTargetMv },
  { name := "SERVICE_S", loc := .at 0x1483 1 1 1 1, type := (.u 8), h := .ro, f := .ro, o := .ro, kept := .g, rng := .any, resv := 0, reg := fun _ _ => Reg.serviceS },
  { name := "ALMANAC_RECORDS", loc := .at 0x1483 1 1 2 2, type := (.u 4), h := .ro, f := .ro, o := .ro, kept := .v, rng := .any, resv := 0, reg := fun _ _ => Reg.almanacRecords },
  { name := "COURSE_ALMANAC", loc := .at 0x1483 1 1 3 6, type := .domain, h := .ro, f := .ro, o := .ro, kept := .g, rng := .any, resv := 0, reg := fun _ k => Reg.courseAlmanac k }]

/-- Objects of R305. -/
def objsR305 : List ObjRow := [
  { name := "SP_WIDTH", loc := .at 0x4010 64 64 1 8, type := (.u 1), h := .rws, f := .rws, o := .ro, kept := .g, rng := .any, resv := 0, reg := fun u k => Reg.spWidth u k },
  { name := "SP_ADMIN", loc := .at 0x4011 64 64 1 8, type := .bool, h := .rws, f := .rws, o := .ro, kept := .g, rng := .any, resv := 0, reg := fun u k => Reg.spAdmin u k },
  { name := "LANE_SER_LIMIT", loc := .at 0x4012 64 64 1 1, type := (.u 2), h := .rws, f := .rws, o := .ro, kept := .g, rng := (.rng 16 8191), resv := 0, reg := fun u _ => Reg.laneSerLimit u },
  { name := "HIBER_LIMIT", loc := .at 0x4012 64 64 2 2, type := (.u 2), h := .rws, f := .rws, o := .ro, kept := .g, rng := (.rng 1 65535), resv := 0, reg := fun u _ => Reg.hiberLimit u },
  { name := "PORT_FEC_MODE", loc := .at 0x4012 64 64 3 3, type := (.u 1), h := .rws, f := .rws, o := .ro, kept := .g, rng := (.rng 0 1), resv := 0, reg := fun u _ => Reg.portFecMode u },
  { name := "QUIET_ENABLE", loc := .at 0x4013 64 64 1 1, type := .bool, h := .rws, f := .rws, o := .ro, kept := .g, rng := .any, resv := 0, reg := fun u _ => Reg.quietEnable u },
  { name := "QUIET_IDLE_US", loc := .at 0x4013 64 64 2 2, type := (.u 4), h := .rws, f := .rws, o := .ro, kept := .g, rng := (.rng 1 1000000), resv := 0, reg := fun u _ => Reg.quietIdleUs u },
  { name := "QUIET_ENTRIES", loc := .at 0x4013 64 64 3 3, type := (.u 4), h := .ro, f := .ro, o := .ro, kept := .v, rng := .any, resv := 0, reg := fun u _ => Reg.quietEntries u },
  { name := "QUIET_REFUSED", loc := .at 0x4013 64 64 4 4, type := (.u 4), h := .ro, f := .ro, o := .ro, kept := .v, rng := .any, resv := 0, reg := fun u _ => Reg.quietRefused u },
  { name := "SP_STATE", loc := .at 0x4014 64 64 1 8, type := (.u 1), h := .ro, f := .ro, o := .ro, kept := .v, rng := .any, resv := 0, reg := fun u k => Reg.spState u k },
  { name := "DOWN_REASON", loc := .at 0x4015 64 64 1 8, type := (.u 1), h := .ro, f := .ro, o := .ro, kept := .v, rng := .any, resv := 0, reg := fun u k => Reg.downReason u k },
  { name := "SP_DOWNS", loc := .at 0x4016 64 64 1 8, type := (.u 4), h := .ro, f := .ro, o := .ro, kept := .v, rng := .any, resv := 0, reg := fun u k => Reg.spDowns u k },
  { name := "WIDTH_IN_USE", loc := .at 0x4017 64 64 1 8, type := (.u 1), h := .ro, f := .ro, o := .ro, kept := .v, rng := .any, resv := 0, reg := fun u k => Reg.widthInUse u k },
  { name := "HEADROOM_CELLS", loc := .at 0x4018 64 64 1 8, type := (.u 2), h := .rws, f := .rws, o := .ro, kept := .g, rng := .any, resv := 0, reg := fun u k => Reg.headroomCells u k },
  { name := "HEADROOM_USED", loc := .at 0x4019 64 64 1 8, type := (.u 2), h := .ro, f := .ro, o := .ro, kept := .v, rng := .any, resv := 0, reg := fun u k => Reg.headroomUsed u k },
  { name := "GEARBOX_SLIPS", loc := .at 0x401A 64 64 0 0, type := (.u 4), h := .ro, f := .ro, o := .ro, kept := .v, rng := .any, resv := 0, reg := fun u _ => Reg.gearboxSlips u },
  { name := "PORT_RESTART", loc := .at 0x401F 64 64 0 0, type := .bool, h := .wo, f := .wo, o := .none, kept := .v, rng := .any, resv := 0, reg := fun u _ => Reg.portRestart u }]

/-- Objects of R306. -/
def objsR306 : List ObjRow := [
  { name := "MAX_FRAME", loc := .at 0x5000 8 512 1 1, type := (.u 2), h := .rws, f := .rws, o := .ro, kept := .g, rng := (.rng 64 16384), resv := 0, reg := fun u _ => Reg.maxFrame u },
  { name := "FC_MODE", loc := .at 0x5000 8 512 2 2, type := (.u 1), h := .rws, f := .rws, o := .ro, kept := .g, rng := (.rng 0 2), resv := 0, reg := fun u _ => Reg.fcMode u },
  { name := "PFC_ENABLE", loc := .at 0x5000 8 512 3 3, type := (.u 1), h := .rws, f := .rws, o := .ro, kept := .g, rng := .any, resv := 0, reg := fun u _ => Reg.pfcEnable u },
  { name := "PAUSE_QUANTA", loc := .at 0x5000 8 512 4 4, type := (.u 2), h := .rws, f := .rws, o := .ro, kept := .g, rng := (.rng 1 65535), resv := 0, reg := fun u _ => Reg.pauseQuanta u },
  { name := "XOFF_CELLS", loc := .at 0x5000 8 512 5 5, type := (.u 2), h := .rws, f := .rws, o := .ro, kept := .g, rng := (.rng 16 8192), resv := 0, reg := fun u _ => Reg.xoffCells u },
  { name := "XON_CELLS", loc := .at 0x5000 8 512 6 6, type := (.u 2), h := .rws, f := .rws, o := .ro, kept := .g, rng := .any, resv := 0, reg := fun u _ => Reg.xonCells u },
  { name := "PCP_TO_TC", loc := .at 0x5000 8 512 7 7, type := (.u 4), h := .rws, f := .rws, o := .ro, kept := .g, rng := .any, resv := 0xFF000000, reg := fun u _ => Reg.pcpToTc u },
  { name := "DEFAULT_TC", loc := .at 0x5000 8 512 8 8, type := (.u 1), h := .rws, f := .rws, o := .ro, kept := .g, rng := (.rng 0 7), resv := 0, reg := fun u _ => Reg.defaultTc u },
  { name := "RX_PAUSED", loc := .at 0x5000 8 512 9 9, type := (.u 1), h := .ro, f := .ro, o := .ro, kept := .v, rng := .any, resv := 0, reg := fun u _ => Reg.rxPaused u },
  { name := "TX_XOFF", loc := .at 0x5000 8 512 10 10, type := (.u 1), h := .ro, f := .ro, o := .ro, kept := .v, rng := .any, resv := 0, reg := fun u _ => Reg.txXoff u },
  { name := "SP_MAC", loc := .at 0x5000 8 512 11 11, type := (.oct 6), h := .rws, f := .rws, o := .ro, kept := .g, rng := .any, resv := 0, reg := fun u _ => Reg.spMac u },
  { name := "WALL_TX_NS", loc := .at 0x5000 8 512 12 12, type := (.u 2), h := .ro, f := .ro, o := .ro, kept := .v, rng := .any, resv := 0, reg := fun u _ => Reg.wallTxNs u },
  { name := "WALL_RX_NS", loc := .at 0x5000 8 512 13 13, type := (.u 2), h := .ro, f := .ro, o := .ro, kept := .v, rng := .any, resv := 0, reg := fun u _ => Reg.wallRxNs u },
  { name := "FILTER_MODE", loc := .at 0x5001 8 512 1 1, type := (.u 1), h := .rws, f := .rws, o := .ro, kept := .g, rng := .any, resv := 0xF8, reg := fun u _ => Reg.filterMode u },
  { name := "FILTER_ADDR", loc := .at 0x5001 8 512 2 17, type := (.oct 6), h := .rws, f := .rws, o := .ro, kept := .g, rng := .any, resv := 0, reg := fun u k => Reg.filterAddr u k },
  { name := "MCAST_HASH", loc := .at 0x5001 8 512 18 18, type := (.oct 32), h := .rws, f := .rws, o := .ro, kept := .g, rng := .any, resv := 0, reg := fun u _ => Reg.mcastHash u }]

/-- Objects of R360. -/
def objsR360 : List ObjRow := [
  { name := "SHAPE", loc := .at 0x2000 1 64 1 1, type := (.oct 48), h := .rws, f := .rws, o := .ro, kept := .g, rng := .any, resv := 0, reg := fun u _ => Reg.shape u },
  { name := "FIELDS", loc := .at 0x2000 1 64 2 2, type := (.oct 32), h := .rws, f := .rws, o := .ro, kept := .g, rng := .any, resv := 0, reg := fun u _ => Reg.fields u },
  { name := "HASH_BYTES", loc := .at 0x2000 1 64 3 3, type := (.oct 7), h := .rws, f := .rws, o := .ro, kept := .g, rng := .any, resv := 0, reg := fun u _ => Reg.hashBytes u },
  { name := "SYM_PAIRS", loc := .at 0x2000 1 64 4 4, type := (.oct 8), h := .rws, f := .rws, o := .ro, kept := .g, rng := .any, resv := 0, reg := fun u _ => Reg.symPairs u },
  { name := "L3", loc := .at 0x2000 1 64 5 5, type := (.u 2), h := .rws, f := .rws, o := .ro, kept := .g, rng := .any, resv := 0xFC00, reg := fun u _ => Reg.l3 u },
  { name := "L4", loc := .at 0x2000 1 64 6 6, type := (.u 2), h := .rws, f := .rws, o := .ro, kept := .g, rng := .any, resv := 0xFF00, reg := fun u _ => Reg.l4 u },
  { name := "GLEAN_FIELDS", loc := .at 0x2000 1 64 7 7, type := (.u 2), h := .rws, f := .rws, o := .ro, kept := .g, rng := .any, resv := 0, reg := fun u _ => Reg.gleanFields u },
  { name := "HASH_SEED", loc := .at 0x2040 1 1 1 1, type := (.u 4), h := .rws, f := .rws, o := .ro, kept := .g, rng := .any, resv := 0, reg := fun _ _ => Reg.hashSeed }]

/-- Objects of R361. -/
def objsR361 : List ObjRow := [
  { name := "ACTIVE_BANK", loc := .at 0x2100 16 16 1 1, type := (.u 1), h := .ro, f := .ro, o := .ro, kept := .v, rng := .any, resv := 0, reg := fun u _ => Reg.activeBank u },
  { name := "SIEVE_SWAP", loc := .at 0x2100 16 16 2 2, type := .bool, h := .wo, f := .wo, o := .none, kept := .v, rng := .any, resv := 0, reg := fun u _ => Reg.sieveSwap u },
  { name := "SWAP_STATE", loc := .at 0x2100 16 16 3 3, type := (.u 1), h := .ro, f := .ro, o := .ro, kept := .v, rng := .any, resv := 0, reg := fun u _ => Reg.swapState u },
  { name := "COPY_AFTER_SWAP", loc := .at 0x2100 16 16 4 4, type := .bool, h := .rws, f := .rws, o := .ro, kept := .g, rng := .any, resv := 0, reg := fun u _ => Reg.copyAfterSwap u },
  { name := "SWAP_COUNT", loc := .at 0x2100 16 16 5 5, type := (.u 4), h := .ro, f := .ro, o := .ro, kept := .v, rng := .any, resv := 0, reg := fun u _ => Reg.swapCount u },
  { name := "SHADOWED", loc := .at 0x2100 16 16 6 6, type := (.u 8), h := .ro, f := .ro, o := .ro, kept := .v, rng := .any, resv := 0, reg := fun u _ => Reg.shadowed u },
  { name := "SIEVE_MISSES", loc := .at 0x2100 16 16 7 7, type := (.u 8), h := .ro, f := .ro, o := .ro, kept := .v, rng := .any, resv := 0, reg := fun u _ => Reg.sieveMisses u },
  { name := "SIEVE_SHADOW", loc := .at 0x2100 16 16 8 8, type := .domain, h := .rw, f := .rw, o := .ro, kept := .v, rng := .any, resv := 0, reg := fun u _ => Reg.sieveShadow u },
  { name := "SCRUB_PERIOD_US", loc := .at 0x2101 16 16 1 1, type := (.u 2), h := .rws, f := .rws, o := .ro, kept := .g, rng := (.rng 100 10000), resv := 0, reg := fun u _ => Reg.scrubPeriodUs u },
  { name := "SIEVE_REPAIRS", loc := .at 0x2101 16 16 2 2, type := (.u 4), h := .ro, f := .ro, o := .ro, kept := .v, rng := .any, resv := 0, reg := fun u _ => Reg.sieveRepairs u },
  { name := "SIEVE_DISABLED", loc := .at 0x2101 16 16 3 3, type := (.u 2), h := .ro, f := .ro, o := .ro, kept := .v, rng := .any, resv := 0, reg := fun u _ => Reg.sieveDisabled u },
  { name := "FORCED_SLOTS", loc := .at 0x2101 16 16 4 4, type := (.u 8), h := .ro, f := .ro, o := .ro, kept := .v, rng := .any, resv := 0, reg := fun u _ => Reg.forcedSlots u },
  { name := "POLICERS", loc := .at 0x2102 16 16 1 1, type := .domain, h := .rw, f := .rw, o := .ro, kept := .v, rng := .any, resv := 0, reg := fun u _ => Reg.policers u },
  { name := "FRAG_TIMEOUT_US", loc := .at 0x2103 16 16 1 1, type := (.u 4), h := .rws, f := .rws, o := .ro, kept := .g, rng := (.rng 100 100000), resv := 0, reg := fun u _ => Reg.fragTimeoutUs u },
  { name := "GLEAN_USED", loc := .at 0x2103 16 16 2 2, type := (.u 2), h := .ro, f := .ro, o := .ro, kept := .v, rng := .any, resv := 0, reg := fun u _ => Reg.gleanUsed u },
  { name := "GLEAN_FULL", loc := .at 0x2103 16 16 3 3, type := (.u 8), h := .ro, f := .ro, o := .ro, kept := .v, rng := .any, resv := 0, reg := fun u _ => Reg.gleanFull u },
  { name := "GLEAN_ORPHANS", loc := .at 0x2103 16 16 4 4, type := (.u 8), h := .ro, f := .ro, o := .ro, kept := .v, rng := .any, resv := 0, reg := fun u _ => Reg.gleanOrphans u },
  { name := "GLEAN_EXPIRED", loc := .at 0x2103 16 16 5 5, type := (.u 8), h := .ro, f := .ro, o := .ro, kept := .v, rng := .any, resv := 0, reg := fun u _ => Reg.gleanExpired u },
  { name := "GLEAN_COMPLETED", loc := .at 0x2103 16 16 6 6, type := (.u 8), h := .ro, f := .ro, o := .ro, kept := .v, rng := .any, resv := 0, reg := fun u _ => Reg.gleanCompleted u },
  { name := "GLEAN_DUPLICATES", loc := .at 0x2103 16 16 7 7, type := (.u 8), h := .ro, f := .ro, o := .ro, kept := .v, rng := .any, resv := 0, reg := fun u _ => Reg.gleanDuplicates u },
  { name := "GLEAN_FLUSH", loc := .at 0x2103 16 16 8 8, type := .bool, h := .wo, f := .wo, o := .none, kept := .v, rng := .any, resv := 0, reg := fun u _ => Reg.gleanFlush u },
  { name := "INDIRECTION", loc := .at 0x2104 16 16 1 1, type := .domain, h := .rw, f := .rw, o := .ro, kept := .v, rng := .any, resv := 0, reg := fun u _ => Reg.indirection u },
  { name := "BUF_FREE", loc := .at 0x2105 16 16 1 1, type := (.u 2), h := .ro, f := .ro, o := .ro, kept := .v, rng := .any, resv := 0, reg := fun u _ => Reg.bufFree u },
  { name := "RESERVE_CELLS", loc := .at 0x2105 16 16 2 2, type := (.u 2), h := .rws, f := .rws, o := .ro, kept := .g, rng := (.rng 66 16384), resv := 0, reg := fun u _ => Reg.reserveCells u }]

/-- Objects of R361. -/
def objsR361_1 : List ObjRow := [
  { name := "PORT_CAP_CELLS", loc := .at 0x2105 16 16 3 3, type := (.u 2), h := .rws, f := .rws, o := .ro, kept := .g, rng := (.rng 1024 32768), resv := 0, reg := fun u _ => Reg.portCapCells u },
  { name := "PENDING_KEYS", loc := .at 0x2105 16 16 4 4, type := (.u 2), h := .ro, f := .ro, o := .ro, kept := .v, rng := .any, resv := 0, reg := fun u _ => Reg.pendingKeys u },
  { name := "LATE_DECISIONS", loc := .at 0x2105 16 16 5 5, type := (.u 8), h := .ro, f := .ro, o := .ro, kept := .v, rng := .any, resv := 0, reg := fun u _ => Reg.lateDecisions u },
  { name := "PARITY_MISSES", loc := .at 0x2105 16 16 6 6, type := (.u 8), h := .ro, f := .ro, o := .ro, kept := .v, rng := .any, resv := 0, reg := fun u _ => Reg.parityMisses u },
  { name := "CREDIT_STALLS", loc := .at 0x2105 16 16 7 7, type := (.u 4), h := .ro, f := .ro, o := .ro, kept := .v, rng := .any, resv := 0, reg := fun u _ => Reg.creditStalls u },
  { name := "CREDIT_STALL_US", loc := .at 0x2105 16 16 8 8, type := (.u 4), h := .rws, f := .rws, o := .ro, kept := .g, rng := (.rng 10 1000000), resv := 0, reg := fun u _ => Reg.creditStallUs u },
  { name := "LOOKUP_REQ", loc := .at 0x2106 16 16 1 1, type := (.oct 68), h := .wo, f := .wo, o := .none, kept := .v, rng := .any, resv := 0, reg := fun u _ => Reg.lookupReq u },
  { name := "LOOKUP_RESULT", loc := .at 0x2106 16 16 2 2, type := (.oct 68), h := .ro, f := .ro, o := .ro, kept := .v, rng := .any, resv := 0, reg := fun u _ => Reg.lookupResult u },
  { name := "GROUT_FAILS", loc := .at 0x2107 16 16 1 1, type := (.u 8), h := .ro, f := .ro, o := .ro, kept := .v, rng := .any, resv := 0, reg := fun u _ => Reg.groutFails u },
  { name := "GROUT_SEQ_GAPS", loc := .at 0x2107 16 16 2 2, type := (.u 8), h := .ro, f := .ro, o := .ro, kept := .v, rng := .any, resv := 0, reg := fun u _ => Reg.groutSeqGaps u },
  { name := "MISDIRECTED", loc := .at 0x2107 16 16 3 3, type := (.u 8), h := .ro, f := .ro, o := .ro, kept := .v, rng := .any, resv := 0, reg := fun u _ => Reg.misdirected u },
  { name := "KIND_BAD", loc := .at 0x2107 16 16 4 4, type := (.u 8), h := .ro, f := .ro, o := .ro, kept := .v, rng := .any, resv := 0, reg := fun u _ => Reg.kindBad u }]

/-- Objects of R362. -/
def objsR362 : List ObjRow := [
  { name := "PROFILE_CHAIN", loc := .at 0x5002 8 512 1 1, type := (.oct 4), h := .rws, f := .rws, o := .ro, kept := .g, rng := .any, resv := 0, reg := fun u _ => Reg.profileChain u },
  { name := "FALLBACK_PROFILE", loc := .at 0x5002 8 512 2 2, type := (.u 1), h := .rws, f := .rws, o := .ro, kept := .g, rng := (.rngOr 0 63 255), resv := 0, reg := fun u _ => Reg.fallbackProfile u },
  { name := "NO_MATCH_ACTION", loc := .at 0x5002 8 512 3 3, type := (.u 8), h := .rws, f := .rws, o := .ro, kept := .g, rng := .any, resv := 0xFFFFF, reg := fun u _ => Reg.noMatchAction u },
  { name := "SP_POLICER", loc := .at 0x5002 8 512 4 4, type := (.u 2), h := .rws, f := .rws, o := .ro, kept := .g, rng := (.rngOr 0 1023 65535), resv := 0, reg := fun u _ => Reg.spPolicer u },
  { name := "IND_BASE", loc := .at 0x5002 8 512 5 5, type := (.u 2), h := .rws, f := .rws, o := .ro, kept := .g, rng := .any, resv := 0, reg := fun u _ => Reg.indBase u },
  { name := "IND_SIZE_LOG2", loc := .at 0x5002 8 512 6 6, type := (.u 1), h := .rws, f := .rws, o := .ro, kept := .g, rng := (.rng 0 12), resv := 0, reg := fun u _ => Reg.indSizeLog2 u },
  { name := "MISS_DEST", loc := .at 0x5002 8 512 7 7, type := (.u 1), h := .rws, f := .rws, o := .ro, kept := .g, rng := (.rng 0 2), resv := 0, reg := fun u _ => Reg.missDest u },
  { name := "CK_DISCARD", loc := .at 0x5002 8 512 8 8, type := (.u 1), h := .rws, f := .rws, o := .ro, kept := .g, rng := .any, resv := 0xFC, reg := fun u _ => Reg.ckDiscard u },
  { name := "ORPHAN_DEST", loc := .at 0x5002 8 512 9 9, type := (.u 1), h := .rws, f := .rws, o := .ro, kept := .g, rng := (.rng 0 2), resv := 0, reg := fun u _ => Reg.orphanDest u }]

/-- Objects of R402. -/
def objsR402 : List ObjRow := [
  { name := "QUEUE_SP", loc := .at 0x4020 64 64 1 64, type := (.u 1), h := .rws, f := .rws, o := .ro, kept := .g, rng := (.rng 0 7), resv := 0, reg := fun u k => Reg.queueSp u k },
  { name := "QUEUE_TC", loc := .at 0x4021 64 64 1 64, type := (.u 1), h := .rws, f := .rws, o := .ro, kept := .g, rng := (.rng 0 7), resv := 0, reg := fun u k => Reg.queueTc u k },
  { name := "QUANTUM", loc := .at 0x4022 64 64 1 64, type := (.u 4), h := .rws, f := .rws, o := .ro, kept := .g, rng := (.rng 64 1048576), resv := 0, reg := fun u k => Reg.quantum u k },
  { name := "QUEUE_MAX_CHUNKS", loc := .at 0x4023 64 64 1 64, type := (.u 4), h := .rws, f := .rws, o := .ro, kept := .g, rng := (.rng 4 65536), resv := 0, reg := fun u k => Reg.queueMaxChunks u k },
  { name := "Q_SHAPE_RATE", loc := .at 0x4024 64 64 1 64, type := (.u 4), h := .rws, f := .rws, o := .ro, kept := .g, rng := (.rng 0 3200000), resv := 0, reg := fun u k => Reg.qShapeRate u k },
  { name := "Q_SHAPE_BURST", loc := .at 0x4025 64 64 1 64, type := (.u 4), h := .rws, f := .rws, o := .ro, kept := .g, rng := (.rng 0 16777215), resv := 0, reg := fun u k => Reg.qShapeBurst u k },
  { name := "Q_RESET_FULL", loc := .at 0x4026 64 64 0 0, type := (.u 8), h := .rws, f := .rws, o := .ro, kept := .g, rng := .any, resv := 0, reg := fun u _ => Reg.qResetFull u },
  { name := "EGRESS_FREE_CHUNKS", loc := .at 0x4027 64 64 1 1, type := (.u 4), h := .ro, f := .ro, o := .ro, kept := .v, rng := .any, resv := 0, reg := fun u _ => Reg.egressFreeChunks u },
  { name := "HOST_CHUNKS", loc := .at 0x4027 64 64 2 2, type := (.u 4), h := .rws, f := .rws, o := .ro, kept := .g, rng := (.rng 1024 16384), resv := 0, reg := fun u _ => Reg.hostChunks u },
  { name := "PIPE_CREDITS", loc := .at 0x4027 64 64 3 3, type := (.u 2), h := .ro, f := .ro, o := .ro, kept := .v, rng := .any, resv := 0, reg := fun u _ => Reg.pipeCredits u },
  { name := "PANIC_LEVEL", loc := .at 0x4027 64 64 4 4, type := (.u 2), h := .rws, f := .rws, o := .ro, kept := .g, rng := .any, resv := 0, reg := fun u _ => Reg.panicLevel u },
  { name := "PANIC_HYST", loc := .at 0x4027 64 64 5 5, type := (.u 2), h := .rws, f := .rws, o := .ro, kept := .g, rng := .any, resv := 0, reg := fun u _ => Reg.panicHyst u },
  { name := "PANIC_ASSERTS", loc := .at 0x4027 64 64 6 6, type := (.u 4), h := .ro, f := .ro, o := .ro, kept := .v, rng := .any, resv := 0, reg := fun u _ => Reg.panicAsserts u },
  { name := "PANIC_NOW", loc := .at 0x4027 64 64 7 7, type := .bool, h := .ro, f := .ro, o := .ro, kept := .v, rng := .any, resv := 0, reg := fun u _ => Reg.panicNow u },
  { name := "SP_WEIGHT", loc := .at 0x4028 64 64 1 8, type := (.u 1), h := .rws, f := .rws, o := .ro, kept := .g, rng := (.rng 0 64), resv := 0, reg := fun u k => Reg.spWeight u k },
  { name := "CUT_THROUGH_CHUNKS", loc := .at 0x4029 64 64 1 8, type := (.u 2), h := .rws, f := .rws, o := .ro, kept := .g, rng := (.rngOr 4 1024 0), resv := 0, reg := fun u k => Reg.cutThroughChunks u k }]

/-- Objects of R403. -/
def objsR403 : List ObjRow := [
  { name := "SEL_OFFSET", loc := .at 0x5003 8 512 1 1, type := (.u 1), h := .rws, f := .rws, o := .ro, kept := .g, rng := (.rng 0 30), resv := 0, reg := fun u _ => Reg.selOffset u },
  { name := "SEL_SHIFT", loc := .at 0x5003 8 512 2 2, type := (.u 1), h := .rws, f := .rws, o := .ro, kept := .g, rng := (.rng 0 15), resv := 0, reg := fun u _ => Reg.selShift u },
  { name := "SEL_TEST", loc := .at 0x5003 8 512 3 3, type := (.oct 6), h := .rws, f := .rws, o := .ro, kept := .g, rng := .any, resv := 0, reg := fun u _ => Reg.selTest u },
  { name := "QUEUE_MAP", loc := .at 0x5003 8 512 4 4, type := (.oct 64), h := .rws, f := .rws, o := .ro, kept := .g, rng := .any, resv := 0, reg := fun u _ => Reg.queueMap u },
  { name := "DEFAULT_QUEUE", loc := .at 0x5003 8 512 5 5, type := (.u 1), h := .rws, f := .rws, o := .ro, kept := .g, rng := (.rng 0 63), resv := 0, reg := fun u _ => Reg.defaultQueue u },
  { name := "CK_INSERT_PROFILE", loc := .at 0x5003 8 512 6 6, type := (.u 1), h := .rws, f := .rws, o := .ro, kept := .g, rng := (.rngOr 0 63 255), resv := 0, reg := fun u _ => Reg.ckInsertProfile u },
  { name := "CK_INSERT", loc := .at 0x5003 8 512 7 7, type := (.u 1), h := .rws, f := .rws, o := .ro, kept := .g, rng := .any, resv := 0xFC, reg := fun u _ => Reg.ckInsert u },
  { name := "SHAPE_OVERHEAD", loc := .at 0x5003 8 512 8 8, type := (.u 1), h := .rws, f := .rws, o := .ro, kept := .g, rng := (.rng 0 64), resv := 0, reg := fun u _ => Reg.shapeOverhead u },
  { name := "C_SHAPE_RATE", loc := .at 0x5003 8 512 9 16, type := (.u 4), h := .rws, f := .rws, o := .ro, kept := .g, rng := (.rng 0 3200000), resv := 0, reg := fun u k => Reg.cShapeRate u k },
  { name := "C_SHAPE_BURST", loc := .at 0x5003 8 512 17 24, type := (.u 4), h := .rws, f := .rws, o := .ro, kept := .g, rng := (.rng 0 16777215), resv := 0, reg := fun u k => Reg.cShapeBurst u k },
  { name := "C_RESET_FULL", loc := .at 0x5003 8 512 25 25, type := (.u 1), h := .rws, f := .rws, o := .ro, kept := .g, rng := .any, resv := 0, reg := fun u _ => Reg.cResetFull u },
  { name := "GATE_ENABLE", loc := .at 0x5003 8 512 26 26, type := .bool, h := .rws, f := .rws, o := .ro, kept := .g, rng := .any, resv := 0, reg := fun u _ => Reg.gateEnable u },
  { name := "GATE_GUARD_NS", loc := .at 0x5003 8 512 27 27, type := (.u 2), h := .rws, f := .rws, o := .ro, kept := .g, rng := (.rng 0 1000), resv := 0, reg := fun u _ => Reg.gateGuardNs u },
  { name := "PENDING_GCL", loc := .at 0x5003 8 512 28 28, type := .domain, h := .rws, f := .rws, o := .ro, kept := .g, rng := .any, resv := 0, reg := fun u _ => Reg.pendingGcl u },
  { name := "PENDING_LEN", loc := .at 0x5003 8 512 29 29, type := (.u 2), h := .ro, f := .ro, o := .ro, kept := .g, rng := .any, resv := 0, reg := fun u _ => Reg.pendingLen u },
  { name := "PENDING_BASE", loc := .at 0x5003 8 512 30 30, type := .time96, h := .rws, f := .rws, o := .ro, kept := .g, rng := .any, resv := 0, reg := fun u _ => Reg.pendingBase u },
  { name := "PENDING_CYCLE_NS", loc := .at 0x5003 8 512 31 31, type := (.u 4), h := .rws, f := .rws, o := .ro, kept := .g, rng := .any, resv := 0, reg := fun u _ => Reg.pendingCycleNs u },
  { name := "PENDING_EXT_NS", loc := .at 0x5003 8 512 32 32, type := (.u 4), h := .rws, f := .rws, o := .ro, kept := .g, rng := (.rng 0 1000000000), resv := 0, reg := fun u _ => Reg.pendingExtNs u },
  { name := "CONFIG_CHANGE", loc := .at 0x5003 8 512 33 33, type := (.u 1), h := .wo, f := .wo, o := .none, kept := .v, rng := (.rng 1 2), resv := 0, reg := fun u _ => Reg.configChange u },
  { name := "GATE_STATE", loc := .at 0x5003 8 512 34 34, type := (.u 1), h := .ro, f := .ro, o := .ro, kept := .v, rng := .any, resv := 0, reg := fun u _ => Reg.gateState u },
  { name := "CHANGE_TIME", loc := .at 0x5003 8 512 35 35, type := .time96, h := .ro, f := .ro, o := .ro, kept := .v, rng := .any, resv := 0, reg := fun u _ => Reg.changeTime u },
  { name := "OPER_GCL", loc := .at 0x5003 8 512 36 36, type := .domain, h := .ro, f := .ro, o := .ro, kept := .v, rng := .any, resv := 0, reg := fun u _ => Reg.operGcl u },
  { name := "OPER_CYCLE_NS", loc := .at 0x5003 8 512 37 37, type := (.u 4), h := .ro, f := .ro, o := .ro, kept := .v, rng := .any, resv := 0, reg := fun u _ => Reg.operCycleNs u },
  { name := "MAX_WINDOW_NS", loc := .at 0x5003 8 512 38 45, type := (.u 4), h := .ro, f := .ro, o := .ro, kept := .v, rng := .any, resv := 0, reg := fun u k => Reg.maxWindowNs u k }]

/-- Objects of R431. -/
def objsR431 : List ObjRow := [
  { name := "WALL_TIME", loc := .at 0x1303 1 1 1 1, type := .time96, h := .ro, f := .ro, o := .ro, kept := .v, rng := .any, resv := 0, reg := fun _ _ => Reg.wallTime },
  { name := "STAMP_COUNT", loc := .at 0x1303 1 1 2 2, type := (.u 8), h := .ro, f := .ro, o := .ro, kept := .v, rng := .any, resv := 0, reg := fun _ _ => Reg.stampCount },
  { name := "TIME_PAIR", loc := .at 0x1303 1 1 3 3, type := (.oct 20), h := .ro, f := .ro, o := .ro, kept := .v, rng := .any, resv := 0, reg := fun _ _ => Reg.timePair },
  { name := "TIME_VALID", loc := .at 0x1303 1 1 4 4, type := .bool, h := .ro, f := .ro, o := .ro, kept := .v, rng := .any, resv := 0, reg := fun _ _ => Reg.timeValid },
  { name := "TIME_SET", loc := .at 0x1304 1 1 1 1, type := .time96, h := .wo, f := .wo, o := .none, kept := .v, rng := .any, resv := 0, reg := fun _ _ => Reg.timeSet },
  { name := "TIME_STEP", loc := .at 0x1304 1 1 2 2, type := (.i 8), h := .wo, f := .wo, o := .none, kept := .v, rng := .any, resv := 0, reg := fun _ _ => Reg.timeStep },
  { name := "FREQ_ADJ_PPT", loc := .at 0x1304 1 1 3 3, type := (.i 4), h := .rw, f := .rw, o := .ro, kept := .v, rng := (.sgn (-500000000) 500000000), resv := 0, reg := fun _ _ => Reg.freqAdjPpt },
  { name := "STEP_COUNT", loc := .at 0x1304 1 1 4 4, type := (.u 4), h := .ro, f := .ro, o := .ro, kept := .v, rng := .any, resv := 0, reg := fun _ _ => Reg.stepCount },
  { name := "STEP_AT", loc := .at 0x1304 1 1 5 5, type := .time96, h := .ro, f := .ro, o := .ro, kept := .v, rng := .any, resv := 0, reg := fun _ _ => Reg.stepAt }]

/-- Objects of R432. -/
def objsR432 : List ObjRow := [
  { name := "TX_ADJ", loc := .at 0x4030 64 64 1 1, type := (.i 4), h := .rws, f := .rws, o := .ro, kept := .g, rng := .any, resv := 0, reg := fun u _ => Reg.txAdj u },
  { name := "RX_ADJ", loc := .at 0x4030 64 64 2 2, type := (.i 4), h := .rws, f := .rws, o := .ro, kept := .g, rng := .any, resv := 0, reg := fun u _ => Reg.rxAdj u },
  { name := "TX_PATH_DELAY", loc := .at 0x4031 64 64 1 8, type := (.u 4), h := .ro, f := .ro, o := .ro, kept := .v, rng := .any, resv := 0, reg := fun u k => Reg.txPathDelay u k },
  { name := "RX_PATH_DELAY", loc := .at 0x4032 64 64 1 8, type := (.u 4), h := .ro, f := .ro, o := .ro, kept := .v, rng := .any, resv := 0, reg := fun u k => Reg.rxPathDelay u k },
  { name := "RX_REF_LANE", loc := .at 0x4033 64 64 1 8, type := (.u 2), h := .ro, f := .ro, o := .ro, kept := .v, rng := .any, resv := 0, reg := fun u k => Reg.rxRefLane u k },
  { name := "RX_REF_SHIFT", loc := .at 0x4034 64 64 1 8, type := (.i 4), h := .ro, f := .ro, o := .ro, kept := .v, rng := .any, resv := 0, reg := fun u k => Reg.rxRefShift u k }]

/-- Objects of R433. -/
def objsR433 : List ObjRow := [
  { name := "PTP_ENCAP", loc := .at 0x5004 8 512 1 1, type := (.u 1), h := .rws, f := .rws, o := .ro, kept := .g, rng := (.rng 0 4), resv := 0, reg := fun u _ => Reg.ptpEncap u },
  { name := "TX_ONE_STEP", loc := .at 0x5004 8 512 2 2, type := (.u 1), h := .rws, f := .rws, o := .ro, kept := .g, rng := (.rng 0 2), resv := 0, reg := fun u _ => Reg.txOneStep u },
  { name := "TX_CAPTURE", loc := .at 0x5004 8 512 3 3, type := .bool, h := .rws, f := .rws, o := .ro, kept := .g, rng := .any, resv := 0, reg := fun u _ => Reg.txCapture u },
  { name := "TX_STAMP_NEXT", loc := .at 0x5004 8 512 4 4, type := (.oct 16), h := .ro, f := .ro, o := .ro, kept := .v, rng := .any, resv := 0, reg := fun u _ => Reg.txStampNext u },
  { name := "TX_STAMP_LOST", loc := .at 0x5004 8 512 5 5, type := (.u 4), h := .ro, f := .ro, o := .ro, kept := .v, rng := .any, resv := 0, reg := fun u _ => Reg.txStampLost u }]

/-- Objects of R474. -/
def objsR474 : List ObjRow := [
  { name := "APPROVED_MODE", loc := .at 0x1200 1 1 1 1, type := .bool, h := .none, f := .none, o := .ro, kept := .v, rng := .any, resv := 0, reg := fun _ _ => Reg.approvedMode },
  { name := "SERVICE_INDICATOR", loc := .at 0x1200 1 1 2 2, type := .bool, h := .none, f := .none, o := .ro, kept := .v, rng := .any, resv := 0, reg := fun _ _ => Reg.serviceIndicator },
  { name := "APPROVED_ONLY", loc := .at 0x1200 1 1 3 3, type := .bool, h := .none, f := .none, o := .rws, kept := .g, rng := .any, resv := 0, reg := fun _ _ => Reg.approvedOnly },
  { name := "SELFTEST_NOW", loc := .at 0x1200 1 1 4 4, type := .bool, h := .none, f := .none, o := .wo, kept := .v, rng := .any, resv := 0, reg := fun _ _ => Reg.selftestNow },
  { name := "SELFTEST_RESULT", loc := .at 0x1200 1 1 5 5, type := (.u 1), h := .none, f := .none, o := .ro, kept := .v, rng := .any, resv := 0, reg := fun _ _ => Reg.selftestResult },
  { name := "ZEROISE_NOW", loc := .at 0x1201 1 1 1 1, type := (.u 4), h := .none, f := .none, o := .wo, kept := .v, rng := .any, resv := 0, reg := fun _ _ => Reg.zeroiseNow },
  { name := "ZEROISE_COUNT", loc := .at 0x1201 1 1 2 2, type := (.u 4), h := .none, f := .none, o := .ro, kept := .g, rng := .any, resv := 0, reg := fun _ _ => Reg.zeroiseCount },
  { name := "DEVICE_PUBKEY", loc := .at 0x1202 1 1 1 1, type := (.oct 97), h := .none, f := .none, o := .ro, kept := .g, rng := .any, resv := 0, reg := fun _ _ => Reg.devicePubkey },
  { name := "DEVICE_CERT", loc := .at 0x1202 1 1 2 2, type := .domain, h := .none, f := .none, o := .rws, kept := .g, rng := .any, resv := 0, reg := fun _ _ => Reg.deviceCert },
  { name := "HOST_OFFICER_S", loc := .at 0x1203 1 1 1 1, type := (.u 2), h := .none, f := .none, o := .rw, kept := .v, rng := (.rng 0 3600), resv := 0, reg := fun _ _ => Reg.hostOfficerS },
  { name := "CRED_PUBKEY", loc := .at 0x1210 1 8 1 1, type := (.oct 97), h := .none, f := .none, o := .rws, kept := .g, rng := .any, resv := 0, reg := fun u _ => Reg.credPubkey u },
  { name := "CRED_ROLE", loc := .at 0x1210 1 8 2 2, type := (.u 1), h := .none, f := .none, o := .rws, kept := .g, rng := (.rng 0 2), resv := 0, reg := fun u _ => Reg.credRole u },
  { name := "CRED_LABEL", loc := .at 0x1210 1 8 3 3, type := .text, h := .none, f := .none, o := .rws, kept := .g, rng := .any, resv := 0, reg := fun u _ => Reg.credLabel u },
  { name := "KEK_VALUE", loc := .at 0x1220 1 4 1 1, type := (.oct 48), h := .none, f := .none, o := .wo, kept := .g, rng := .any, resv := 0, reg := fun u _ => Reg.kekValue u },
  { name := "KEK_STATE", loc := .at 0x1220 1 4 2 2, type := (.u 1), h := .none, f := .none, o := .ro, kept := .g, rng := .any, resv := 0, reg := fun u _ => Reg.kekState u },
  { name := "KEK_CLEAR", loc := .at 0x1220 1 4 3 3, type := .bool, h := .none, f := .none, o := .wo, kept := .v, rng := .any, resv := 0, reg := fun u _ => Reg.kekClear u },
  { name := "KI_USED", loc := .at 0x1230 1 1 1 1, type := (.u 2), h := .none, f := .none, o := .ro, kept := .g, rng := .any, resv := 0, reg := fun _ _ => Reg.kiUsed },
  { name := "KI_EVICT_AUTO", loc := .at 0x1230 1 1 2 2, type := .bool, h := .none, f := .none, o := .rws, kept := .g, rng := .any, resv := 0, reg := fun _ _ => Reg.kiEvictAuto },
  { name := "KI_FORGET", loc := .at 0x1230 1 1 3 3, type := (.oct 16), h := .none, f := .none, o := .wo, kept := .v, rng := .any, resv := 0, reg := fun _ _ => Reg.kiForget },
  { name := "KI_EVICTED", loc := .at 0x1230 1 1 4 4, type := (.u 4), h := .none, f := .none, o := .ro, kept := .g, rng := .any, resv := 0, reg := fun _ _ => Reg.kiEvicted },
  { name := "CUSTOMER_IMAGE_KEY", loc := .at 0x1240 1 1 1 1, type := (.oct 97), h := .none, f := .none, o := .rws, kept := .g, rng := .any, resv := 0, reg := fun _ _ => Reg.customerImageKey }]

/-- Objects of R475. -/
def objsR475 : List ObjRow := [
  { name := "MACSEC_POLICY", loc := .at 0x7000 8 512 1 1, type := (.u 1), h := .none, f := .none, o := .rws, kept := .g, rng := (.rng 0 2), resv := 0, reg := fun u _ => Reg.macsecPolicy u },
  { name := "CIPHER", loc := .at 0x7000 8 512 2 2, type := (.u 1), h := .none, f := .none, o := .rws, kept := .g, rng := (.rng 0 1), resv := 0, reg := fun u _ => Reg.cipher u },
  { name := "TX_SCI", loc := .at 0x7000 8 512 3 3, type := (.oct 8), h := .none, f := .none, o := .rws, kept := .g, rng := .any, resv := 0, reg := fun u _ => Reg.txSci u },
  { name := "CONF_OFFSET", loc := .at 0x7000 8 512 4 4, type := (.u 1), h := .none, f := .none, o := .rws, kept := .g, rng := (.oneOf [0, 30, 50]), resv := 0, reg := fun u _ => Reg.confOffset u },
  { name := "ENCRYPT", loc := .at 0x7000 8 512 5 5, type := .bool, h := .none, f := .none, o := .rws, kept := .g, rng := .any, resv := 0, reg := fun u _ => Reg.encrypt u },
  { name := "INCLUDE_SCI", loc := .at 0x7000 8 512 6 6, type := .bool, h := .none, f := .none, o := .rws, kept := .g, rng := .any, resv := 0, reg := fun u _ => Reg.includeSci u },
  { name := "TX_ENCODING_AN", loc := .at 0x7000 8 512 7 7, type := (.u 1), h := .none, f := .none, o := .rw, kept := .g, rng := (.rng 0 3), resv := 0, reg := fun u _ => Reg.txEncodingAn u },
  { name := "VALIDATE", loc := .at 0x7000 8 512 8 8, type := (.u 1), h := .none, f := .none, o := .rws, kept := .g, rng := (.rng 0 2), resv := 0, reg := fun u _ => Reg.validate u },
  { name := "REPLAY_PROTECT", loc := .at 0x7000 8 512 9 9, type := .bool, h := .none, f := .none, o := .rws, kept := .g, rng := .any, resv := 0, reg := fun u _ => Reg.replayProtect u },
  { name := "REPLAY_WINDOW", loc := .at 0x7000 8 512 10 10, type := (.u 4), h := .none, f := .none, o := .rws, kept := .g, rng := (.rng 0 (2^30-1)), resv := 0, reg := fun u _ => Reg.replayWindow u },
  { name := "BYPASS_ETYPE", loc := .at 0x7000 8 512 11 11, type := (.oct 4), h := .none, f := .none, o := .rws, kept := .g, rng := .any, resv := 0, reg := fun u _ => Reg.bypassEtype u },
  { name := "PN_WARN", loc := .at 0x7000 8 512 12 12, type := (.u 8), h := .none, f := .none, o := .rws, kept := .g, rng := .any, resv := 0, reg := fun u _ => Reg.pnWarn u },
  { name := "TX_SA_STATE", loc := .sa 1, type := (.u 1), h := .none, f := .none, o := .ro, kept := .g, rng := .any, resv := 0, reg := fun u k => Reg.saState u k },
  { name := "TX_KEY_BLOB", loc := .sa 2, type := (.oct 48), h := .none, f := .none, o := .wo, kept := .v, rng := .any, resv := 0, reg := fun u k => Reg.saKeyBlob u k },
  { name := "TX_KI", loc := .sa 3, type := (.oct 16), h := .none, f := .none, o := .rw, kept := .g, rng := .any, resv := 0, reg := fun u k => Reg.saKi u k },
  { name := "TX_SSCI", loc := .sa 4, type := (.u 4), h := .none, f := .none, o := .rw, kept := .g, rng := .any, resv := 0, reg := fun u k => Reg.saSsci u k },
  { name := "TX_SALT", loc := .sa 5, type := (.oct 12), h := .none, f := .none, o := .rw, kept := .g, rng := .any, resv := 0, reg := fun u k => Reg.saSalt u k },
  { name := "TX_NEXT_PN", loc := .sa 6, type := (.u 8), h := .none, f := .none, o := .rw, kept := .g, rng := (.rng 1 (2^64-2)), resv := 0, reg := fun u k => Reg.saNextPn u k },
  { name := "TX_RESERVED_END", loc := .sa 7, type := (.u 8), h := .none, f := .none, o := .ro, kept := .g, rng := .any, resv := 0, reg := fun u k => Reg.saReservedEnd u k },
  { name := "TX_DURABLE", loc := .sa 8, type := .bool, h := .none, f := .none, o := .rw, kept := .g, rng := .any, resv := 0, reg := fun u k => Reg.saDurable u k },
  { name := "TX_INSTALL", loc := .sa 9, type := .bool, h := .none, f := .none, o := .rw, kept := .g, rng := .any, resv := 0, reg := fun u k => Reg.saInstall u k },
  { name := "TX_PN_STALLS", loc := .at 0x7001 8 512 1 1, type := (.u 4), h := .none, f := .none, o := .ro, kept := .v, rng := .any, resv := 0, reg := fun u _ => Reg.txPnStalls u },
  { name := "RX_SCI", loc := .rxsc 1, type := (.oct 8), h := .none, f := .none, o := .rws, kept := .g, rng := .any, resv := 0, reg := fun u _ => Reg.rxSci u },
  { name := "RX_SC_ENABLE", loc := .rxsc 2, type := .bool, h := .none, f := .none, o := .rws, kept := .g, rng := .any, resv := 0, reg := fun u _ => Reg.rxScEnable u }]

/-- Objects of R510. -/
def objsR510 : List ObjRow := [
  { name := "BANK_STATE", loc := .at 0x1400 1 1 1 1, type := (.u 1), h := .ro, f := .ro, o := .ro, kept := .v, rng := .any, resv := 0, reg := fun _ _ => Reg.bankState },
  { name := "LIVE_SHEAVES", loc := .at 0x1400 1 1 2 2, type := (.u 4), h := .ro, f := .ro, o := .ro, kept := .v, rng := .any, resv := 0, reg := fun _ _ => Reg.liveSheaves },
  { name := "FREE_ROWS", loc := .at 0x1400 1 1 3 3, type := (.u 2), h := .ro, f := .ro, o := .ro, kept := .v, rng := .any, resv := 0, reg := fun _ _ => Reg.freeRows },
  { name := "RETIRED_ROWS", loc := .at 0x1400 1 1 4 4, type := (.u 2), h := .ro, f := .ro, o := .ro, kept := .g, rng := .any, resv := 0, reg := fun _ _ => Reg.retiredRows },
  { name := "GEN_NOW", loc := .at 0x1400 1 1 5 5, type := (.u 8), h := .ro, f := .ro, o := .ro, kept := .v, rng := .any, resv := 0, reg := fun _ _ => Reg.genNow },
  { name := "REPLAY_US", loc := .at 0x1400 1 1 6 6, type := (.u 4), h := .ro, f := .ro, o := .ro, kept := .v, rng := .any, resv := 0, reg := fun _ _ => Reg.replayUs },
  { name := "PN_BLOCK_LOG2", loc := .at 0x1401 1 1 1 1, type := (.u 1), h := .ro, f := .ro, o := .ro, kept := .g, rng := .any, resv := 0, reg := fun _ _ => Reg.pnBlockLog2 },
  { name := "WEAR_MAX_CYCLES", loc := .at 0x1401 1 1 2 2, type := (.u 4), h := .ro, f := .ro, o := .ro, kept := .g, rng := .any, resv := 0, reg := fun _ _ => Reg.wearMaxCycles },
  { name := "WEAR_PROJECTED", loc := .at 0x1401 1 1 3 3, type := (.u 2), h := .ro, f := .ro, o := .ro, kept := .v, rng := .any, resv := 0, reg := fun _ _ => Reg.wearProjected },
  { name := "BLOCK_DOUBLINGS", loc := .at 0x1401 1 1 4 4, type := (.u 1), h := .ro, f := .ro, o := .ro, kept := .g, rng := .any, resv := 0, reg := fun _ _ => Reg.blockDoublings },
  { name := "WEAR_SPREAD", loc := .at 0x1401 1 1 5 5, type := (.u 4), h := .rws, f := .rws, o := .ro, kept := .g, rng := (.rng 4096 1000000), resv := 0, reg := fun _ _ => Reg.wearSpread },
  { name := "STORE_ALLOWANCE", loc := .at 0x1401 1 1 6 6, type := (.u 4), h := .ro, f := .ro, o := .ro, kept := .v, rng := .any, resv := 0, reg := fun _ _ => Reg.storeAllowance },
  { name := "SCRUB_PERIOD_H", loc := .at 0x1402 1 1 1 1, type := (.u 2), h := .rws, f := .rws, o := .ro, kept := .g, rng := (.rng 24 720), resv := 0, reg := fun _ _ => Reg.scrubPeriodH },
  { name := "SCRUB_REPAIRS", loc := .at 0x1402 1 1 2 2, type := (.u 4), h := .ro, f := .ro, o := .ro, kept := .g, rng := .any, resv := 0, reg := fun _ _ => Reg.scrubRepairs },
  { name := "BENIGN_DIVERGENCE", loc := .at 0x1402 1 1 3 3, type := (.u 4), h := .ro, f := .ro, o := .ro, kept := .g, rng := .any, resv := 0, reg := fun _ _ => Reg.benignDivergence },
  { name := "SUSPECT_RECORDS", loc := .at 0x1402 1 1 4 4, type := (.u 4), h := .ro, f := .ro, o := .ro, kept := .v, rng := .any, resv := 0, reg := fun _ _ => Reg.suspectRecords },
  { name := "FORWARD_PADS", loc := .at 0x1402 1 1 5 5, type := (.u 4), h := .ro, f := .ro, o := .ro, kept := .g, rng := .any, resv := 0, reg := fun _ _ => Reg.forwardPads },
  { name := "IMAGE_REEVE", loc := .at 0x1440 1 1 1 1, type := .domain, h := .rw, f := .rw, o := .ro, kept := .g, rng := .any, resv := 0, reg := fun _ _ => Reg.imageReeve },
  { name := "IMAGE_STEWARD", loc := .at 0x1440 1 1 2 2, type := .domain, h := .rw, f := .rw, o := .ro, kept := .g, rng := .any, resv := 0, reg := fun _ _ => Reg.imageSteward },
  { name := "IMAGE_CUSTOMER", loc := .at 0x1440 1 1 3 3, type := .domain, h := .rw, f := .rw, o := .ro, kept := .g, rng := .any, resv := 0, reg := fun _ _ => Reg.imageCustomer },
  { name := "SHELF_VALID", loc := .at 0x1440 1 1 4 4, type := (.u 1), h := .ro, f := .ro, o := .ro, kept := .g, rng := .any, resv := 0, reg := fun _ _ => Reg.shelfValid },
  { name := "SHELF_ROLLBACK", loc := .at 0x1440 1 1 5 5, type := (.u 1), h := .wo, f := .wo, o := .none, kept := .v, rng := (.rng 0 2), resv := 0, reg := fun _ _ => Reg.shelfRollback },
  { name := "FAULT_DIGEST", loc := .at 0x1450 1 1 1 1, type := .domain, h := .ro, f := .ro, o := .ro, kept := .g, rng := .any, resv := 0, reg := fun _ _ => Reg.faultDigest },
  { name := "DIGEST_ENTRIES", loc := .at 0x1450 1 1 2 2, type := (.u 2), h := .ro, f := .ro, o := .ro, kept := .g, rng := .any, resv := 0, reg := fun _ _ => Reg.digestEntries }]

/-- Objects of R510. -/
def objsR510_1 : List ObjRow := [
  { name := "DIGEST_SUPPRESSED", loc := .at 0x1450 1 1 3 3, type := (.u 4), h := .ro, f := .ro, o := .ro, kept := .g, rng := .any, resv := 0, reg := fun _ _ => Reg.digestSuppressed }]

/-- Objects of R554. -/
def objsR554 : List ObjRow := [
  { name := "HOST_SP", loc := .at 0x5005 8 512 1 1, type := .bool, h := .rws, f := .rws, o := .ro, kept := .g, rng := .any, resv := 0, reg := fun u _ => Reg.hostSp u },
  { name := "TX_RINGS", loc := .at 0x5005 8 512 2 2, type := (.oct 32), h := .rws, f := .rws, o := .ro, kept := .g, rng := .any, resv := 0, reg := fun u _ => Reg.txRings u },
  { name := "TX_QUEUE", loc := .at 0x5005 8 512 3 3, type := (.u 1), h := .rws, f := .rws, o := .ro, kept := .g, rng := (.rng 0 63), resv := 0, reg := fun u _ => Reg.txQueue u },
  { name := "MILL_ENABLE", loc := .at 0x5005 8 512 4 4, type := .bool, h := .rws, f := .rws, o := .ro, kept := .g, rng := .any, resv := 0, reg := fun u _ => Reg.millEnable u },
  { name := "MILL_TX_RING", loc := .at 0x5005 8 512 5 5, type := (.u 1), h := .rws, f := .rws, o := .ro, kept := .g, rng := .any, resv := 0, reg := fun u _ => Reg.millTxRing u },
  { name := "MILL_RX_RING", loc := .at 0x5005 8 512 6 6, type := (.u 1), h := .rws, f := .rws, o := .ro, kept := .g, rng := .any, resv := 0, reg := fun u _ => Reg.millRxRing u },
  { name := "MILL_STATE", loc := .at 0x5005 8 512 7 7, type := (.u 1), h := .ro, f := .ro, o := .ro, kept := .v, rng := .any, resv := 0, reg := fun u _ => Reg.millState u }]

/-- Objects of R555. -/
def objsR555 : List ObjRow := [
  { name := "CV_POLY", loc := .at 0x2080 1 16 1 1, type := (.u 1), h := .rws, f := .rws, o := .ro, kept := .g, rng := (.rng 0 3), resv := 0, reg := fun u _ => Reg.cvPoly u },
  { name := "CV_CHAIN", loc := .at 0x2080 1 16 2 2, type := .bool, h := .rws, f := .rws, o := .ro, kept := .g, rng := .any, resv := 0, reg := fun u _ => Reg.cvChain u },
  { name := "CV_FOLD", loc := .at 0x2080 1 16 3 3, type := (.u 1), h := .rws, f := .rws, o := .ro, kept := .g, rng := (.rng 0 2), resv := 0, reg := fun u _ => Reg.cvFold u },
  { name := "CV_FOLD_SEQ", loc := .at 0x2080 1 16 4 4, type := (.u 4), h := .rw, f := .rw, o := .ro, kept := .v, rng := .any, resv := 0, reg := fun u _ => Reg.cvFoldSeq u },
  { name := "CV_RUNNING", loc := .at 0x2080 1 16 5 5, type := (.u 8), h := .rw, f := .rw, o := .ro, kept := .v, rng := .any, resv := 0, reg := fun u _ => Reg.cvRunning u },
  { name := "CV_FRAMES", loc := .at 0x2080 1 16 6 6, type := (.u 8), h := .ro, f := .ro, o := .ro, kept := .v, rng := .any, resv := 0, reg := fun u _ => Reg.cvFrames u },
  { name := "CV_BAD_COUNT", loc := .at 0x2080 1 16 7 7, type := (.u 8), h := .ro, f := .ro, o := .ro, kept := .v, rng := .any, resv := 0, reg := fun u _ => Reg.cvBadCount u },
  { name := "MILL_BYTES", loc := .at 0x2080 1 16 8 8, type := (.u 8), h := .ro, f := .ro, o := .ro, kept := .v, rng := .any, resv := 0, reg := fun u _ => Reg.millBytes u }]

/-- Objects of R556. -/
def objsR556 : List ObjRow := [
  { name := "VECTOR", loc := .at 0x20C0 1 2 1 128, type := (.oct 16), h := .rw, f := .ro, o := .ro, kept := .v, rng := .any, resv := 0, reg := fun u k => Reg.vector u k },
  { name := "MOD_GROUP", loc := .at 0x20C2 1 1 1 16, type := (.oct 8), h := .rw, f := .ro, o := .ro, kept := .v, rng := .any, resv := 0, reg := fun _ k => Reg.modGroup k },
  { name := "SOURCE_VECTOR", loc := .at 0x20C3 1 1 1 64, type := (.u 2), h := .rw, f := .ro, o := .ro, kept := .v, rng := .any, resv := 0, reg := fun _ k => Reg.sourceVector k },
  { name := "VECTORS_SENT", loc := .at 0x20C4 1 1 1 1, type := (.u 8), h := .ro, f := .ro, o := .ro, kept := .v, rng := .any, resv := 0, reg := fun _ _ => Reg.vectorsSent }]

/-- Objects of R590. -/
def objsR590 : List ObjRow := [
  { name := "REEVE_BUILD", loc := .at 0x1600 1 1 1 1, type := (.oct 16), h := .ro, f := .ro, o := .ro, kept := .v, rng := .any, resv := 0, reg := fun _ _ => Reg.reeveBuild },
  { name := "STEWARD_BUILD", loc := .at 0x1600 1 1 2 2, type := (.oct 16), h := .ro, f := .ro, o := .ro, kept := .v, rng := .any, resv := 0, reg := fun _ _ => Reg.stewardBuild },
  { name := "CUSTOMER_BUILD", loc := .at 0x1600 1 1 3 3, type := (.oct 16), h := .ro, f := .ro, o := .ro, kept := .v, rng := .any, resv := 0, reg := fun _ _ => Reg.customerBuild },
  { name := "CUSTOMER_ABI", loc := .at 0x1600 1 1 4 4, type := (.u 2), h := .ro, f := .ro, o := .ro, kept := .v, rng := .any, resv := 0, reg := fun _ _ => Reg.customerAbi },
  { name := "CUSTOMER_STATE", loc := .at 0x1600 1 1 5 5, type := (.u 1), h := .ro, f := .ro, o := .ro, kept := .v, rng := .any, resv := 0, reg := fun _ _ => Reg.customerState },
  { name := "CUSTOMER_FAULT_LIMIT", loc := .at 0x1600 1 1 6 6, type := (.u 1), h := .rws, f := .rws, o := .ro, kept := .g, rng := .any, resv := 0, reg := fun _ _ => Reg.customerFaultLimit },
  { name := "WD_TIMEOUT_US", loc := .at 0x1600 1 1 7 7, type := (.u 4), h := .rws, f := .rws, o := .ro, kept := .g, rng := (.rng 100 1000000), resv := 0, reg := fun _ _ => Reg.wdTimeoutUs },
  { name := "REEVE_WD_COUNT", loc := .at 0x1600 1 1 8 8, type := (.u 4), h := .ro, f := .ro, o := .ro, kept := .g, rng := .any, resv := 0, reg := fun _ _ => Reg.reeveWdCount },
  { name := "STEWARD_RESTART", loc := .at 0x1600 1 1 9 9, type := (.u 2), h := .wo, f := .wo, o := .none, kept := .v, rng := .any, resv := 0, reg := fun _ _ => Reg.stewardRestart },
  { name := "ST_STATE", loc := .at 0x1610 1 17 1 1, type := (.u 1), h := .ro, f := .ro, o := .ro, kept := .v, rng := .any, resv := 0, reg := fun u _ => Reg.stState u },
  { name := "ST_RESTARTS", loc := .at 0x1610 1 17 2 2, type := (.u 4), h := .ro, f := .ro, o := .ro, kept := .v, rng := .any, resv := 0, reg := fun u _ => Reg.stRestarts u },
  { name := "ST_LAST_CAUSE", loc := .at 0x1610 1 17 3 3, type := (.u 1), h := .ro, f := .ro, o := .ro, kept := .v, rng := .any, resv := 0, reg := fun u _ => Reg.stLastCause u },
  { name := "ILLEGAL_OPS", loc := .at 0x1610 1 17 4 4, type := (.u 4), h := .ro, f := .ro, o := .ro, kept := .v, rng := .any, resv := 0, reg := fun u _ => Reg.illegalOps u },
  { name := "LAST_ILLEGAL", loc := .at 0x1610 1 17 5 5, type := (.u 4), h := .ro, f := .ro, o := .ro, kept := .v, rng := .any, resv := 0, reg := fun u _ => Reg.lastIllegal u },
  { name := "CUSTOMER_FAULTS", loc := .at 0x1610 1 16 6 6, type := (.u 4), h := .ro, f := .ro, o := .ro, kept := .v, rng := .any, resv := 0, reg := fun u _ => Reg.customerFaults u },
  { name := "LAST_CUSTOMER_FAULT", loc := .at 0x1610 1 16 7 7, type := (.u 4), h := .ro, f := .ro, o := .ro, kept := .v, rng := .any, resv := 0, reg := fun u _ => Reg.lastCustomerFault u },
  { name := "CUSTOMER_ACTIVE", loc := .at 0x1610 1 16 8 8, type := .bool, h := .ro, f := .ro, o := .ro, kept := .v, rng := .any, resv := 0, reg := fun u _ => Reg.customerActive u },
  { name := "HOOK_RUNS", loc := .at 0x1610 1 16 9 9, type := (.u 8), h := .ro, f := .ro, o := .ro, kept := .v, rng := .any, resv := 0, reg := fun u _ => Reg.hookRuns u },
  { name := "ST_ECC_CORRECTED", loc := .at 0x1610 1 17 10 10, type := (.u 4), h := .ro, f := .ro, o := .ro, kept := .v, rng := .any, resv := 0, reg := fun u _ => Reg.stEccCorrected u }]

/-- Objects of R591. -/
def objsR591 : List ObjRow := [
  { name := "BH_PENDING", loc := .at 0x1700 1 18 1 1, type := (.oct 16), h := .ro, f := .ro, o := .ro, kept := .e, rng := .any, resv := 0, reg := fun u _ => Reg.bhPending u },
  { name := "BH_ENABLE", loc := .at 0x1700 1 18 2 2, type := (.oct 16), h := .ro, f := .ro, o := .ro, kept := .e, rng := .any, resv := 0, reg := fun u _ => Reg.bhEnable u },
  { name := "BH_GROUP", loc := .at 0x1700 1 17 3 3, type := (.oct 128), h := .rws, f := .rws, o := .ro, kept := .g, rng := .any, resv := 0, reg := fun u _ => Reg.bhGroup u },
  { name := "BH_HOLDOFF", loc := .at 0x1700 1 17 4 11, type := (.u 2), h := .rws, f := .rws, o := .ro, kept := .g, rng := .any, resv := 0, reg := fun u k => Reg.bhHoldoff u k },
  { name := "BH_TAKEN", loc := .at 0x1700 1 18 12 12, type := (.u 8), h := .ro, f := .ro, o := .ro, kept := .v, rng := .any, resv := 0, reg := fun u _ => Reg.bhTaken u },
  { name := "BH_COALESCED", loc := .at 0x1700 1 18 13 13, type := (.u 4), h := .ro, f := .ro, o := .ro, kept := .v, rng := .any, resv := 0, reg := fun u _ => Reg.bhCoalesced u }]

/-- Objects of R623. -/
def objsR623 : List ObjRow := [
  { name := "DB_WRITTEN", loc := .at 0x1500 1 1 1 1, type := (.u 8), h := .ro, f := .ro, o := .ro, kept := .v, rng := .any, resv := 0, reg := fun _ _ => Reg.dbWritten },
  { name := "DB_CURSOR", loc := .at 0x1500 1 1 2 2, type := (.u 8), h := .rw, f := .rw, o := .rw, kept := .v, rng := .any, resv := 0, reg := fun _ _ => Reg.dbCursor },
  { name := "DB_BATCH", loc := .at 0x1500 1 1 3 3, type := (.oct 1024), h := .ro, f := .ro, o := .ro, kept := .v, rng := .any, resv := 0, reg := fun _ _ => Reg.dbBatch },
  { name := "PC_RUN_ALL", loc := .at 0x1510 1 1 1 1, type := .bool, h := .rw, f := .rw, o := .ro, kept := .v, rng := .any, resv := 0, reg := fun _ _ => Reg.pcRunAll },
  { name := "PC_CLEAR_ALL", loc := .at 0x1510 1 1 2 2, type := .bool, h := .wo, f := .wo, o := .none, kept := .v, rng := .any, resv := 0, reg := fun _ _ => Reg.pcClearAll },
  { name := "LIT_STEWARD", loc := .at 0x1510 1 1 3 3, type := (.u 1), h := .rws, f := .rws, o := .ro, kept := .g, rng := (.rngOr 0 15 255), resv := 0, reg := fun _ _ => Reg.litSteward },
  { name := "SAMPLE_ENABLE", loc := .at 0x1520 1 1 1 1, type := .bool, h := .rw, f := .rw, o := .ro, kept := .v, rng := .any, resv := 0, reg := fun _ _ => Reg.sampleEnable },
  { name := "REEVE_SAMPLE_PERIOD", loc := .at 0x1520 1 1 2 2, type := (.u 4), h := .rw, f := .rw, o := .ro, kept := .v, rng := (.rngOr 64 0xFFFFFFFF 0), resv := 0, reg := fun _ _ => Reg.reeveSamplePeriod },
  { name := "SAMPLE_NEXT", loc := .at 0x1520 1 1 3 3, type := (.oct 32), h := .ro, f := .ro, o := .ro, kept := .v, rng := .any, resv := 0, reg := fun _ _ => Reg.sampleNext },
  { name := "SAMPLES_HELD", loc := .at 0x1520 1 1 4 4, type := (.u 2), h := .ro, f := .ro, o := .ro, kept := .v, rng := .any, resv := 0, reg := fun _ _ => Reg.samplesHeld },
  { name := "SAMPLES_LOST", loc := .at 0x1520 1 1 5 5, type := (.u 4), h := .ro, f := .ro, o := .ro, kept := .v, rng := .any, resv := 0, reg := fun _ _ => Reg.samplesLost },
  { name := "BOOKS_RUN", loc := .at 0x1530 1 1 1 1, type := (.u 2), h := .wo, f := .wo, o := .none, kept := .v, rng := .any, resv := 0xFC00, reg := fun _ _ => Reg.booksRun },
  { name := "BOOKS_PERIOD_S", loc := .at 0x1530 1 1 2 2, type := (.u 4), h := .rws, f := .rws, o := .ro, kept := .g, rng := (.rngOr 60 604800 0), resv := 0, reg := fun _ _ => Reg.booksPeriodS },
  { name := "BOOKS_WAIT_MS", loc := .at 0x1530 1 1 3 3, type := (.u 2), h := .rws, f := .rws, o := .ro, kept := .g, rng := (.rng 1 10000), resv := 0, reg := fun _ _ => Reg.booksWaitMs },
  { name := "BOOKS_STATE", loc := .at 0x1530 1 1 4 4, type := (.u 1), h := .ro, f := .ro, o := .ro, kept := .v, rng := .any, resv := 0, reg := fun _ _ => Reg.booksState },
  { name := "BOOKS_RESULT", loc := .at 0x1530 1 1 5 5, type := (.oct 16), h := .ro, f := .ro, o := .ro, kept := .v, rng := .any, resv := 0, reg := fun _ _ => Reg.booksResult },
  { name := "BOOKS_DETAIL", loc := .at 0x1530 1 1 6 6, type := (.oct 16), h := .ro, f := .ro, o := .ro, kept := .v, rng := .any, resv := 0, reg := fun _ _ => Reg.booksDetail },
  { name := "BOOKS_IMBALANCES", loc := .at 0x1530 1 1 7 7, type := (.u 4), h := .ro, f := .ro, o := .ro, kept := .g, rng := .any, resv := 0, reg := fun _ _ => Reg.booksImbalances }]

/-- Objects of R624. -/
def objsR624 : List ObjRow := [
  { name := "PC_CONFIG", loc := .at 0x210C 16 16 1 32, type := (.u 4), h := .rw, f := .rw, o := .ro, kept := .v, rng := .any, resv := 0, reg := fun u k => Reg.pcConfig u k },
  { name := "PC_VALUE", loc := .at 0x210D 16 16 1 32, type := (.u 8), h := .rw, f := .rw, o := .ro, kept := .v, rng := (.rng 0 (2^48-1)), resv := 0, reg := fun u k => Reg.pcValue u k },
  { name := "PC_PAIR", loc := .at 0x210E 16 16 1 16, type := (.oct 12), h := .ro, f := .ro, o := .ro, kept := .v, rng := .any, resv := 0, reg := fun u k => Reg.pcPair u k },
  { name := "PC_OVF", loc := .at 0x210F 16 16 1 1, type := (.u 4), h := .rw, f := .rw, o := .ro, kept := .v, rng := .any, resv := 0, reg := fun u _ => Reg.pcOvf u }]

/-- Objects of R625. -/
def objsR625 : List ObjRow := [
  { name := "ROLE_CORRECTED", loc := .at 0x4038 64 64 1 16, type := (.u 8), h := .ro, f := .ro, o := .ro, kept := .v, rng := .any, resv := 0, reg := fun u k => Reg.roleCorrected u k },
  { name := "TALLY_US", loc := .at 0x4039 64 64 0 0, type := (.u 4), h := .rws, f := .rws, o := .ro, kept := .g, rng := (.rng 1 1000000), resv := 0, reg := fun u _ => Reg.tallyUs u },
  { name := "STATISTIC", loc := .at 0x5006 8 512 1 128, type := (.u 8), h := .ro, f := .ro, o := .ro, kept := .v, rng := .any, resv := 0, reg := fun u k => Reg.statistic u k },
  { name := "TALLY_SEQ", loc := .at 0x5007 8 512 1 1, type := (.u 4), h := .ro, f := .ro, o := .ro, kept := .v, rng := .any, resv := 0, reg := fun u _ => Reg.tallySeq u },
  { name := "TALLY_HISTORY", loc := .at 0x5007 8 512 2 2, type := (.oct 512), h := .ro, f := .ro, o := .ro, kept := .v, rng := .any, resv := 0, reg := fun u _ => Reg.tallyHistory u }]

/-- Every object of the Ledger (R87). -/
def objTable : List ObjRow :=
  objsR74 ++ objsR123 ++ objsR123_1 ++ objsR154 ++ objsR154_1 ++ objsR209 ++ objsR210 ++ objsR210_1 ++ objsR212 ++ objsR250 ++ objsR251 ++ objsR252 ++ objsR305 ++ objsR306 ++ objsR360 ++ objsR361 ++ objsR361_1 ++ objsR362 ++ objsR402 ++ objsR403 ++ objsR431 ++ objsR432 ++ objsR433 ++ objsR474 ++ objsR475 ++ objsR510 ++ objsR510_1 ++ objsR554 ++ objsR555 ++ objsR556 ++ objsR590 ++ objsR591 ++ objsR623 ++ objsR624 ++ objsR625

/-- Unit and place of an index and subindex in a row, if the row covers them. -/
def locOf (l : Loc) (index sub : Nat) : Option (Nat × Nat) :=
  match l with
  | .at base stride count s0 sN =>
    if base ≤ index ∧ (index - base) % stride = 0 ∧ (index - base) / stride < count ∧ s0 ≤ sub ∧ sub ≤ sN
    then some ((index - base) / stride, sub - s0) else none
  | .sa f =>
    if 0x7000 ≤ index ∧ index < 0x8000 ∧ 1 ≤ index % 8 ∧ index % 8 ≤ 5 ∧ sub % 16 = f ∧ 1 ≤ sub / 16 ∧ sub / 16 ≤ 4
    then some ((index - 0x7000) / 8, (index % 8 - 1) * 4 + (sub / 16 - 1)) else none
  | .rxsc s =>
    if 0x7000 ≤ index ∧ index < 0x8000 ∧ 2 ≤ index % 8 ∧ index % 8 ≤ 5 ∧ sub = s
    then some ((index - 0x7000) / 8 * 4 + (index % 8 - 2), 0) else none

/-- The row of an object with its unit and place. -/
def findRow (index sub : Nat) : List ObjRow → Option (ObjRow × Nat × Nat)
  | [] => none
  | r :: rs =>
    match locOf r.loc index sub with
    | some (u, k) => some (r, u, k)
    | none => findRow index sub rs

end Sys2Proof.Machine
end

