-- ==== Sys2Proof/Machine/Tbl.lean ====
section
/-! DEFINITION. The operations over a table by number: lookup, write in rising key order, removal, and the
canonical form (keys strictly rising) that every table of the state has. -/

namespace Sys2Proof.Machine

variable {α : Type}

/-- The entry of a key. -/
def tget : Tbl α → Nat → Option α
  | [], _ => none
  | (j, a) :: t, k => if j = k then some a else tget t k

/-- The entry of a key, or `d` when unlisted. -/
def tgetD (t : Tbl α) (k : Nat) (d : α) : α := (tget t k).getD d

/-- Write the entry of a key, keeping rising order. -/
def tput : Tbl α → Nat → α → Tbl α
  | [], k, v => [(k, v)]
  | (j, a) :: t, k, v =>
    if k < j then (k, v) :: (j, a) :: t
    else if k = j then (k, v) :: t
    else (j, a) :: tput t k v

/-- Remove the entry of a key. -/
def tdel : Tbl α → Nat → Tbl α
  | [], _ => []
  | (j, a) :: t, k => if j = k then tdel t k else (j, a) :: tdel t k

/-- Write an entry of a table of numbers whose unlisted keys read as `d`: the value `d` removes the entry. -/
def tputD (t : Tbl Nat) (k d v : Nat) : Tbl Nat := if v = d then tdel t k else tput t k v

/-- Change the entry of a key, starting from `d` when it is unlisted. -/
def tmod (t : Tbl α) (k : Nat) (d : α) (f : α → α) : Tbl α := tput t k (f (tgetD t k d))

/-- Change the entry of a key when it is listed. -/
def tupd (t : Tbl α) (k : Nat) (f : α → α) : Tbl α :=
  match tget t k with
  | some a => tput t k (f a)
  | none => t

/-- Change every entry. -/
def tmap (t : Tbl α) (f : Nat → α → α) : Tbl α := t.map fun e => (e.1, f e.1 e.2)

/-- Keep the entries that satisfy a test. -/
def tfilter (t : Tbl α) (p : Nat → α → Bool) : Tbl α := t.filter fun e => p e.1 e.2

/-- The canonical form: keys strictly rising. -/
def twf : Tbl α → Bool
  | [] => true
  | [_] => true
  | (j, _) :: (k, b) :: t => decide (j < k) && twf ((k, b) :: t)

/-- The canonical form of a table of numbers with default `d`: no entry equals what an unlisted key reads as. -/
def twfD (t : Tbl Nat) (d : Nat → Nat) : Bool := twf t && t.all fun e => decide (e.2 ≠ d e.1)

/-- Fold over the numbers below `n`, in rising order. -/
def upTo (n : Nat) (f : Nat → α → α) (a : α) : α := (List.range n).foldl (fun x i => f i x) a

/-- Do `f` when the test holds. -/
def when (c : Bool) (f : α → α) (a : α) : α := if c then f a else a

/-- The first number below `n` that passes the test. -/
def firstBelow (n : Nat) (p : Nat → Bool) : Option Nat := (List.range n).find? p

/-- The numbers below `n` whose bit is set. -/
def bitList (v n : Nat) : List Nat := (List.range n).filter fun i => v.testBit i

/-- Little-endian bytes of a number (R20). -/
def toLe : Nat → Nat → List Byte
  | 0, _ => []
  | n + 1, v => BitVec.ofNat 8 v :: toLe n (v / 256)

/-- The number that little-endian bytes spell (R20). -/
def ofLe : List Byte → Nat
  | [] => 0
  | b :: bs => b.toNat + 256 * ofLe bs

/-- The number that bytes in network order spell. -/
def ofBe (l : List Byte) : Nat := l.foldl (fun a b => a * 256 + b.toNat) 0

/-- Bytes of a number in network order. -/
def toBe (n v : Nat) : List Byte := (toLe n v).reverse

/-- `n` bytes of a frame from an offset, in network order; zero where the frame has ended. -/
def frameBe (l : List Byte) (off n : Nat) : Nat :=
  (List.range n).foldl (fun a i => a * 256 + ((l.getD (off + i) 0).toNat)) 0

/-- A list with the entries from an offset replaced. -/
def splice (l : List Byte) (off : Nat) (x : List Byte) : List Byte := l.take off ++ x ++ l.drop (off + x.length)

end Sys2Proof.Machine
end

