-- ==== Sys2Proof/Machine/Ops.lean ====
section
/-! DEFINITION. The named operations every family uses: reading and writing an object, counters, free values,
the clock, Bellhouse latches and vector events, the Daybook, and event delivery to sessions. -/

namespace Sys2Proof.Machine

/-! ### Objects (R17, R76, R593) -/

/-- The value an object holds: its default when nothing is listed (R17). -/
def Wall.get (w : Wall) (r : Reg) : Nat := tgetD w.regs r.key r.dflt

/-- Write an object; the value is cut to its width, so a counter wraps (R593). -/
def Wall.set (w : Wall) (r : Reg) (v : Nat) : Wall :=
  { w with regs := tputD w.regs r.key r.dflt (v % 2 ^ r.bits) }

def Wall.flag (w : Wall) (r : Reg) : Bool := w.get r != 0
def Wall.setB (w : Wall) (r : Reg) (b : Bool) : Wall := w.set r (b2n b)
def Wall.bump (w : Wall) (r : Reg) (n : Nat) : Wall := w.set r (w.get r + n)
/-- A counter whose meaning states that it saturates. -/
def Wall.bumpSat (w : Wall) (r : Reg) (n : Nat) : Wall := w.set r (min (w.get r + n) (2 ^ r.bits - 1))
def Wall.getI (w : Wall) (r : Reg) : Int := toInt r.bits (w.get r)
def Wall.setI (w : Wall) (r : Reg) (i : Int) : Wall := w.set r (ofInt r.bits i)
def Wall.setBitR (w : Wall) (r : Reg) (i : Nat) : Wall := w.set r (setBit (w.get r) i)
def Wall.clrBitR (w : Wall) (r : Reg) (i : Nat) : Wall := w.set r (clrBit (w.get r) i)

/-- A 32-bit word of the host window that is no Ledger object; `d` is its reset value (R18). -/
def Wall.win32 (w : Wall) (off d : Nat) : Nat := tgetD w.win off d
def Wall.setWin (w : Wall) (off d v : Nat) : Wall := { w with win := tputD w.win off d (v % 2 ^ 32) }
def Wall.win64 (w : Wall) (off : Nat) : Nat := w.win32 off 0 + w.win32 (off + 4) 0 * 2 ^ 32
def Wall.setWin64 (w : Wall) (off v : Nat) : Wall := (w.setWin off 0 v).setWin (off + 4) 0 (v / 2 ^ 32)

/-- Record what leaves the wall (log entry 6). -/
def Wall.emit (w : Wall) (o : Out) : Wall := { w with out := o :: w.out }

/-- Take a fresh free value (log entry 4). -/
def Wall.free (w : Wall) : Nat := Config.freeNat w.freeN
def Wall.freeB (w : Wall) : Bool := Config.freeBool w.freeN
def Wall.took (w : Wall) : Wall := { w with freeN := w.freeN + 1 }
def Wall.tookN (w : Wall) (n : Nat) : Wall := { w with freeN := w.freeN + n }

/-! ### DOMAIN objects (R109) -/

/-- A DOMAIN object has taken a new value: its generation increments. -/
def newDom (key : Nat) (w : Wall) : Wall :=
  { w with led := { w.led with domGen := tput w.led.domGen key ((tgetD w.led.domGen key 0 + 1) % 2 ^ 32) } }

/-- Give a DOMAIN object its bytes. -/
def putDom (key : Nat) (l : List Byte) (w : Wall) : Wall :=
  newDom key { w with led := { w.led with doms := tput w.led.doms key l } }

/-! ### The clock (R405, R407, R408) -/

/-- The stamp count, 1/16 ns. -/
def Wall.stamp (w : Wall) : Nat := w.time.acc / 2 ^ 32 % 2 ^ 64

/-- Wall time in 1/16 ns: the stamp count plus the step offset (R407). -/
def Wall.wallT (w : Wall) : Int := (w.stamp : Int) + w.time.offset

/-- A time in 1/16 ns as a TIME96 value; before zero it is reported as zero (R77, R408). -/
def t96 (t : Int) : Nat :=
  let n := t.toNat
  n / 16000000000 * 2 ^ 48 + n % 16000000000 / 16 * 2 ^ 16 + n % 16 * 4096

/-- A TIME96 value as a time in 1/16 ns. -/
def ofT96 (v : Nat) : Nat := v / 2 ^ 48 * 16000000000 + bits v 47 16 * 16 + bits v 15 12

/-- Microseconds of elapsed time as tclk edges. -/
def usTclk (us : Nat) : Nat := us * 800
/-- Whole seconds and milliseconds since reset, by tclk. -/
def Wall.second (w : Wall) : Nat := w.time.tclk / 800000000
def Wall.ms (w : Wall) : Nat := w.time.tclk / 800000

/-! ### Numbering (R1, R2, R6) -/

def portOfSp (sp : Nat) : Nat := sp / 8
def subOfSp (sp : Nat) : Nat := sp % 8
def brickOfPort (p : Nat) : Nat := p / 4
def brickOfSp (sp : Nat) : Nat := sp / 32
def courseOfBrick (b : Nat) : Nat := b / 4
def brickOfLane (l : Nat) : Nat := l / 68
/-- SOURCE of a steward's events (R113). -/
def stewardSrc (b : Nat) : Nat := 0x0100 + b

/-! ### Vectors (R538 to R540) -/

/-- One event for a vector: discarded unless the vector's ENABLE is 1. -/
def vecEvent (v : Nat) (w : Wall) : Wall :=
  if v < 256 ∧ bit (w.get (Reg.vector (v / 128) (v % 128))) 104 then
    let r := tgetD w.hst.vecs v { pending := 0, first := 0, last := 0 }
    let r' := { r with pending := r.pending + 1, first := if r.pending = 0 then w.time.tclk else r.first }
    { w with hst := { w.hst with vecs := tput w.hst.vecs v r' } }
  else w

/-! ### Bellhouse latches (R580, R585 to R588) -/

/-- Which sources are level sources: of a steward, of the Reeve (16), of the host side (17). -/
def isLevel (u s : Nat) : Bool :=
  if u < 16 then s < 2
  else if u = 16 then (4 ≤ s ∧ s < 8) ∨ s = 10 ∨ s = 11 ∨ (49 ≤ s ∧ s < 53)
  else s = 2 ∨ s = 28

/-- Number of sources of a Bellhouse that can latch. -/
def srcCount (u : Nat) : Nat := if u < 16 then 58 else if u = 16 then 66 else 29

/-- A latch of the host side that sets while enabled is one event for its source's vector (R588, R539). -/
def hostEvent (s : Nat) (w : Wall) : Wall :=
  vecEvent (w.get (Reg.sourceVector s)) (w.bump (Reg.bhTaken 17) 1)

/-- Set a latch that is clear. -/
def setLatch (u s : Nat) (w : Wall) : Wall :=
  let w := w.setBitR (Reg.bhPending u) s
  when (u == 17 && bit (w.get (Reg.bhEnable 17)) s) (hostEvent s) w

/-- A rising edge of an edge source: sets its latch, or is coalesced when the latch is set (R580). -/
def latch (u s : Nat) (w : Wall) : Wall :=
  if bit (w.get (Reg.bhPending u)) s then w.bump (Reg.bhCoalesced u) 1 else setLatch u s w

/-- The cause of a level source goes high or low; while high its latch is set (R580). -/
def level (u s : Nat) (high : Bool) (w : Wall) : Wall :=
  let l := tgetD w.stw.levels u 0
  let w := { w with stw := { w.stw with levels := tputD w.stw.levels u 0 (if high then setBit l s else clrBit l s) } }
  when (high && !bit (w.get (Reg.bhPending u)) s) (setLatch u s) w

/-- Is the cause of a level source high now? -/
def levelHigh (u s : Nat) (w : Wall) : Bool := bit (tgetD w.stw.levels u 0) s

/-- A cause that rises and is served within the same step: the latch is set, no edge is coalesced. -/
def pulse (u s : Nat) (w : Wall) : Wall := level u s false (level u s true w)

/-! ### The Daybook (R613 to R617) -/

/-- Daybook slot of entry `e` (R613). -/
def daySlot (e : Nat) : Nat := if e < 64 then e else 64 + (e - 64) % 8128

/-- Host-side source 7 latches when DB_WRITTEN − DB_ACK rises to DB_HIGH_WATER (R617). -/
def dayHighWater (before : Nat) (w : Wall) : Wall :=
  let d := w.get Reg.dbWritten - w.win64 0x8008
  when (decide (before < w.win32 0x8010 4096) && decide (w.win32 0x8010 4096 ≤ d)) (latch 17 7) w

/-- The SRC_SEQ that a source's next Daybook entry takes (R615). -/
def nextSrcSeq (src : Nat) (w : Wall) : Nat := (tgetD w.obs.srcSeq src 0 + 1) % 2 ^ 32

/-- Write a Daybook entry (R614, R615). -/
def daybook (src code detail : Nat) (w : Wall) : Wall :=
  let q := nextSrcSeq src w
  let e := w.get Reg.dbWritten
  let before := e - w.win64 0x8008
  let ent : DbEntry := { src := src, code := code, seq := q, stamp := w.stamp, detail := detail % 2 ^ 128 }
  let w := { w with obs := { w.obs with srcSeq := tput w.obs.srcSeq src q, day := tput w.obs.day (daySlot e) ent } }
  dayHighWater before (w.bump Reg.dbWritten 1)

/-! ### Sessions: messages, closing, events (R101, R103, R108, R113 to R115) -/

/-- RENEW_SOON: either direction's SEQ has reached 0x7FF0_0000 (R108). -/
def renewSoon (s : Session) (seq : Nat) : Bool := decide (0x7FF00000 ≤ seq) || decide (0x7FF00000 ≤ s.high)

/-- Is this requester the session in a slot? -/
def whoIs (slot id : Nat) : Who → Bool
  | .session sl i _ _ => sl == slot && i == id
  | .mailbox => false

/-- Close a session: its cache, events and open transfers go with it (R101); CLOSE is sent with the reason when
the wall still can. -/
def closeSession (slot reason : Nat) (send : Bool) (w : Wall) : Wall :=
  match tget w.led.sessions slot with
  | none => w
  | some s =>
    let w := when send (fun w => w.emit (.closeMsg s.id reason (s.wallSeq + 1) s.peer)) w
    { w with led := { w.led with
        sessions := tdel w.led.sessions slot
        transfers := tfilter w.led.transfers fun _ t => !whoIs slot s.id t.who } }

def putSession (slot : Nat) (s : Session) (w : Wall) : Wall :=
  { w with led := { w.led with sessions := tput w.led.sessions slot s } }

/-- Give a session one event (R113 to R115). -/
def sendEvent (src code srcSeq detail cls slot : Nat) (w : Wall) : Wall :=
  match tget w.led.sessions slot with
  | none => w
  | some s =>
    if !bit s.mask cls then w
    else if 32 ≤ s.unacked.length then
      putSession slot { s with lost := min (s.lost + 1) 0xFFFF } (w.bump Reg.eventsDropped 1)
    else if s.wallSeq + 1 = 0x7FFFFFFF then closeSession slot 1 true w
    else
      let q := s.wallSeq + 1
      let st := t96 w.wallT
      let u : UnackedEvent := { no := s.eventNo + 1, src := src, code := code, srcSeq := srcSeq, detail := detail,
                                stamp := st, lost := s.lost, cls := cls, wallSeq := q, renew := renewSoon s q, interval := 10 }
      let w := putSession slot { s with wallSeq := q, eventNo := s.eventNo + 1, lost := 0, unacked := s.unacked ++ [u] } w
      w.emit (.event slot u.no q src code srcSeq detail st s.lost cls (renewSoon s q) s.peer)

/-- Deliver an event to every session whose mask has its class (R114). -/
def deliver (src code srcSeq detail cls : Nat) (w : Wall) : Wall :=
  upTo 8 (fun slot w => sendEvent src code srcSeq detail cls slot w) w

/-- Host-side sources that an event latches: 3 for Granary events 0x0B02, 0x0B04 and 0x0B05, and 8 + b when
brick b raises an event of class 12, 13 or 14 (R587). -/
def eventLatches (src code cls : Nat) (w : Wall) : Wall :=
  let w := when (code == 0x0B02 || code == 0x0B04 || code == 0x0B05) (latch 17 3) w
  when ((cls == 12 || cls == 13 || cls == 14) && decide (0x100 ≤ src) && decide (src < 0x110)) (latch 17 (8 + (src - 0x100))) w

/-- Raise an event: its Daybook entry, its host-side latches, and its delivery with the same SRC_SEQ (R615). -/
def raise (src code detail cls : Nat) (w : Wall) : Wall :=
  let q := nextSrcSeq src w
  eventLatches src code cls (deliver src code q detail cls (daybook src code detail w))

/-! ### Statistics (R596) -/

/-- Add to statistic slot `k` of a sub-port. -/
def stat (sp k n : Nat) (w : Wall) : Wall := w.bump (Reg.statistic sp k) n

/-! ### Tally windows (R606) -/

/-- A sub-port's window when nothing is listed: it has not been active throughout. -/
def Tally.init : Tally := { rxBytes := 0, txBytes := 0, rxFrames := 0, txFrames := 0, notActive := true }
def modTally (sp : Nat) (f : Tally → Tally) (w : Wall) : Wall :=
  { w with obs := { w.obs with tally := tmod w.obs.tally sp Tally.init f } }

end Sys2Proof.Machine
end

