-- ==== Sys2Proof/Machine/Flags.lean ====
section
/-! DEFINITION. Arithmetic and flag computations of the sequencers (R560, R564): 32-bit results with Z, N, C
and V. -/

namespace Sys2Proof.Machine

/-- What an arithmetic or logic operation gives: the 32-bit result and the four flags. -/
structure Alu where
  val : Nat
  z : Bool
  n : Bool
  c : Bool
  v : Bool
  deriving DecidableEq, Repr

/-- Z and N of a 32-bit result. -/
def isZ (v : Nat) : Bool := v % 2 ^ 32 == 0
def isN (v : Nat) : Bool := bit v 31

/-- a + b + carry, with all four flags (R560). -/
def aluAdd (a b carry : Nat) : Alu :=
  let s := a + b + carry
  let r := s % 2 ^ 32
  { val := r, z := isZ r, n := isN r, c := decide (2 ^ 32 ≤ s),
    v := decide (toInt 32 r ≠ toInt 32 a + toInt 32 b + (carry : Int)) }

/-- a − b, with all four flags; which sense C has is open (log entry 11). -/
def aluSub (a b : Nat) : Alu :=
  let r := (a + 2 ^ 32 - b % 2 ^ 32) % 2 ^ 32
  let borrow := decide (a % 2 ^ 32 < b % 2 ^ 32)
  { val := r, z := isZ r, n := isN r, c := borrow == Config.carryIsBorrow 0,
    v := decide (toInt 32 r ≠ toInt 32 a - toInt 32 b) }

/-- Shifts: left, logical right, arithmetic right, by `s mod 32`. -/
def shl32 (a s : Nat) : Nat := a * 2 ^ (s % 32) % 2 ^ 32
def shr32 (a s : Nat) : Nat := a % 2 ^ 32 / 2 ^ (s % 32)
def sar32 (a s : Nat) : Nat := ofInt 32 (toInt 32 a / 2 ^ (s % 32))

def SeqRt.setZN (r : SeqRt) (v : Nat) : SeqRt := { r with z := isZ v, n := isN v }
def SeqRt.setFlags (r : SeqRt) (a : Alu) : SeqRt := { r with z := a.z, n := a.n, c := a.c, v := a.v }

/-- FLAGS as a word of the register space, at the positions of `Config.flagPos`. -/
def SeqRt.flagsWord (r : SeqRt) : Nat :=
  b2n r.z * 2 ^ Config.flagPos 0 ||| b2n r.n * 2 ^ Config.flagPos 1 |||
    b2n r.c * 2 ^ Config.flagPos 2 ||| b2n r.v * 2 ^ Config.flagPos 3

def SeqRt.ofFlagsWord (r : SeqRt) (x : Nat) : SeqRt :=
  { r with z := bit x (Config.flagPos 0), n := bit x (Config.flagPos 1), c := bit x (Config.flagPos 2),
           v := bit x (Config.flagPos 3) }

/-- Z, N, C and V as RET_FLAGS keeps them. -/
def SeqRt.flags4 (r : SeqRt) : Nat := b2n r.z + 2 * b2n r.n + 4 * b2n r.c + 8 * b2n r.v

def SeqRt.ofFlags4 (r : SeqRt) (x : Nat) : SeqRt :=
  { r with z := bit x 0, n := bit x 1, c := bit x 2, v := bit x 3 }

end Sys2Proof.Machine
end

