-- ==== Sys2Proof/Machine/Operands.lean ====
section
/-! DEFINITION. Operand forms of the sequencers (R559, R562, R563): general registers, data words, the macro
stack, and the register space of microwords. -/

namespace Sys2Proof.Machine

/-- A sequencer right after KINDLE: every register, memory word and latch zero (log entry 10). -/
def SeqRt.init : SeqRt :=
  { g := [], t := [], mpc := 0, stack := [], z := false, n := false, c := false, v := false, ie := false,
    inHandler := false, retMpc := 0, retFlags := 0, source := none, waiting := false, data := [], io := [],
    dispatch := [], micro := [], handlers := [], macroMem := [], kicked := 0, holdoff := [], trap := none,
    macroCount := 0, lastIllegal := none, lastCustomer := none, nowMpc := 0, nowOp := 0, nowOpr := 0, nowAddr := 0,
    nowKind := 0, nowLat := 0, nowCust := false }

def Wall.seq (w : Wall) (u : Nat) : SeqRt := tgetD w.stw.seqs u SeqRt.init
def Wall.setSeq (w : Wall) (u : Nat) (r : SeqRt) : Wall := { w with stw := { w.stw with seqs := tput w.stw.seqs u r } }

def SeqRt.reg (r : SeqRt) (i : Nat) : Nat := tgetD r.g i 0
def SeqRt.setReg (r : SeqRt) (i v : Nat) : SeqRt := { r with g := tputD r.g i 0 (v % 2 ^ 32) }
def SeqRt.tmp (r : SeqRt) (i : Nat) : Nat := tgetD r.t i 0
def SeqRt.setTmp (r : SeqRt) (i v : Nat) : SeqRt := { r with t := tputD r.t i 0 (v % 2 ^ 32) }
def SeqRt.word (r : SeqRt) (a : Nat) : Nat := tgetD r.data a 0
def SeqRt.setWord (r : SeqRt) (a v : Nat) : SeqRt := { r with data := tputD r.data a 0 (v % 2 ^ 32) }

/-- Size of the data memory in words (R557). -/
def dataSize (u : Nat) : Nat := if u = 16 then 0x10000 else 0x2000

/-- A branch offset of format B from the following instruction (R559); MPC has 12 bits. -/
def branchTo (mpc : Nat) (off : Byte) : Nat := ((mpc : Int) + off.toInt).toNat % 4096 +
  (if (mpc : Int) + off.toInt < 0 then (4096 - (-((mpc : Int) + off.toInt)).toNat % 4096) % 4096 else 0)

/-- A register of the register space (R563); `none` for a reserved number. -/
def spaceGet (r : SeqRt) (opr i : Nat) : Option Nat :=
  if i < 16 then some (r.reg i)
  else if i < 24 then some (r.tmp (i - 16))
  else if i = 24 then some opr
  else if i = 25 then some r.flagsWord
  else if i = 26 then some r.mpc
  else if i = 27 then some r.stack.length
  else none

/-- Write a register of the register space; OPR is read only, and a stack pointer above the depth held makes
entries of unknown content (free values, log entry 4). -/
def spaceSet (r : SeqRt) (fresh i v : Nat) : Option SeqRt :=
  if i < 16 then some (r.setReg i v)
  else if i < 24 then some (r.setTmp (i - 16) v)
  else if i = 24 then some r
  else if i = 25 then some (r.ofFlagsWord v)
  else if i = 26 then some { r with mpc := v % 4096 }
  else if i = 27 then
    some { r with stack := if v ≤ r.stack.length then r.stack.drop (r.stack.length - v)
                           else (List.range (min v 16 - r.stack.length)).map (fun j => Config.freeNat (fresh + j) % 4096) ++ r.stack }
  else none

end Sys2Proof.Machine
end

