-- ==== Sys2Proof/Machine/Counters.lean ====
section
/-! DEFINITION. Programmable counters (R600 to R604) and precise samples (R610 to R612). -/

namespace Sys2Proof.Machine

/-- Append a precise sample of what sequencer `u` executes now (R611, R612). -/
def takeSample (u trigger : Nat) (w : Wall) : Wall :=
  if !w.flag Reg.sampleEnable then w
  else if 256 ≤ w.obs.samples.length then w.bump Reg.samplesLost 1
  else
    let r := w.seq u
    let q := tgetD w.obs.sampleSeq u 0
    let e := u + trigger * 2 ^ 8 + r.nowMpc * 2 ^ 16 + r.nowOp * 2 ^ 32 + r.nowOpr * 2 ^ 40 + min r.nowLat 0xFFFF * 2 ^ 48 +
      r.nowAddr % 2 ^ 16 * 2 ^ 64 + r.nowKind * 2 ^ 80 + b2n r.inHandler * 2 ^ 82 + b2n r.nowCust * 2 ^ 83 +
      t96 w.wallT * 2 ^ 96 + q * 2 ^ 192
    let w := { w with obs := { w.obs with
        samples := w.obs.samples ++ [e], sampleSeq := tput w.obs.sampleSeq u ((q + 1) % 2 ^ 32) } }
    when (w.obs.samples.length == 128) (latch 16 57) (w.bump Reg.samplesHeld 1)

/-- What a counter does when it wraps (R604): OVF, its steward source, and a sample in the lit steward's brick. -/
def counterWrapped (b k : Nat) (w : Wall) : Wall :=
  let cfg := w.get (Reg.pcConfig b k)
  let w := w.setBitR (Reg.pcOvf b) k
  let w := when (bit cfg 20) (latch b (16 + k)) w
  when (bit cfg 21 && w.get Reg.litSteward == b) (takeSample b k) w

/-- Add to one 48-bit counter, with its wrap, but not the carry into its pair. -/
def pcBump (b k n : Nat) (w : Wall) : Wall :=
  let v := w.get (Reg.pcValue b k) + n
  let w := w.set (Reg.pcValue b k) (v % 2 ^ 48)
  when (decide (2 ^ 48 ≤ v)) (counterWrapped b k) w

/-- Is counter `k` the high half of a chained pair? -/
def pcChained (b k : Nat) (w : Wall) : Bool := k % 2 == 1 && bit (w.get (Reg.pcConfig b k)) 19

/-- Add to a counter; with CHAIN on its odd partner, that counter adds one when this one wraps (R603). -/
def pcAdd (b k n : Nat) (w : Wall) : Wall :=
  let wraps := decide (2 ^ 48 ≤ w.get (Reg.pcValue b k) + n)
  let w := pcBump b k n w
  when (wraps && k % 2 == 0 && pcChained b (k + 1) w) (pcBump b (k + 1) 1) w

/-- Does counter `k` count now (R601)? A chained odd counter ignores EVENT and ENABLE (R603). -/
def pcCounting (b k : Nat) (w : Wall) : Bool :=
  bit (w.get (Reg.pcConfig b k)) 18 && w.flag Reg.pcRunAll && !pcChained b k w

/-- Does a counter's CONFIG select an event of a sub-port (local number) and class? Selectors that an event does
not name are ignored: `none` (R600). -/
def pcSelects (cfg ev : Nat) (sp tc : Option Nat) : Bool :=
  bits cfg 7 0 == ev &&
  (match sp with | some s => bit cfg 13 || bits cfg 12 8 == s | none => true) &&
  (match tc with | some t => bit cfg 17 || bits cfg 16 14 == t | none => true)

/-- Count `n` events of kind `ev` in a brick (R602). -/
def pcCount (b ev n : Nat) (sp tc : Option Nat) (w : Wall) : Wall :=
  upTo 32 (fun k w =>
    when (pcCounting b k w && pcSelects (w.get (Reg.pcConfig b k)) ev sp tc) (pcAdd b k n) w) w

/-- The same for an event of a global sub-port. -/
def pcSp (sp ev n : Nat) (tc : Option Nat) (w : Wall) : Wall := pcCount (brickOfSp sp) ev n (some (sp % 32)) tc w

/-- Events of R602 that the table names. -/
def pcEventOk (ev : Nat) : Bool := decide (ev ≤ 0x20)

end Sys2Proof.Machine
end

