-- ==== Sys2Proof/Machine/Micro.lean ====
section
/-! DEFINITION. Microcode (R563 to R566), the customer region and its limits (R569, R570), and the Bellhouse as
a sequencer sees it (R581, R582). -/

namespace Sys2Proof.Machine

/-! ### The Bellhouse of a sequencer -/

/-- Group of a source: `none` for 0xFF (R582). -/
def srcGroup (w : Wall) (u s : Nat) : Option Nat :=
  let g := w.get (Reg.bhGroup u) / 256 ^ s % 256
  if g < 8 then some g else none

/-- Is a source latched, enabled and not held off? -/
def eligible (w : Wall) (u s : Nat) : Bool :=
  bit (w.get (Reg.bhPending u)) s && bit (w.get (Reg.bhEnable u)) s &&
  (match srcGroup w u s with
   | some g => (tget (w.seq u).holdoff g).isNone
   | none => true)

/-- The winner: the lowest-numbered eligible source (R581). -/
def winner (w : Wall) (u : Nat) : Option Nat := firstBelow (srcCount u) (eligible w u)

/-- RETI (R581): MPC and FLAGS come back, the handled level source is re-sampled, its group's hold-off starts. -/
def doReti (u : Nat) (r : SeqRt) (w : Wall) : Wall :=
  let from? := r.source
  let r := { r.ofFlags4 r.retFlags with mpc := r.retMpc, inHandler := false, source := none }
  match from? with
  | none => w.setSeq u r
  | some s =>
    let w := if isLevel u s then
               if levelHigh u s w then w.setBitR (Reg.bhPending u) s else w.clrBitR (Reg.bhPending u) s
             else w
    match srcGroup w u s with
    | none => w.setSeq u r
    | some g =>
      let h := w.get (Reg.bhHoldoff u g)
      w.setSeq u (if h = 0 then r else { r with holdoff := tput r.holdoff g (w.time.tclk + h * 80) })

/-! ### I/O words -/

/-- Is this the customer I/O page or scratch of a steward (R569)? -/
def isScratch (u a : Nat) : Bool := u < 16 && decide (0xF010 ≤ a) && decide (a ≤ 0xF0FF)

/-- g0 to g3 as DETAIL. -/
def gDetail (r : SeqRt) : Nat := r.reg 0 + r.reg 1 * 2 ^ 32 + r.reg 2 * 2 ^ 64 + r.reg 3 * 2 ^ 96

/-- An I/O read: scratch words are kept; every other I/O word's value is not given (free value, log entry 4). -/
def ioRead (u a : Nat) (r : SeqRt) (w : Wall) : Nat × Wall :=
  if isScratch u a then (tgetD r.io a 0, w) else (w.free % 2 ^ 32, w.took)

/-- Set word `k` (bits 32k to 32k + 31) of a sequencer's ENABLE bits (R583). -/
def setEnableWord (u k v : Nat) (w : Wall) : Wall :=
  w.set (Reg.bhEnable u) (putBits (w.get (Reg.bhEnable u)) (32 * k + 31) (32 * k) v % 2 ^ srcCount u)

/-- An I/O write: the customer page of R569, the ENABLE bits of R583; the rest has no stated effect. -/
def ioWrite (u a v : Nat) (r : SeqRt) (w : Wall) : SeqRt × Wall :=
  if isScratch u a then ({ r with io := tputD r.io a 0 (v % 2 ^ 32) }, w)
  else if u < 16 ∧ a = 0xF000 then
    match r.lastCustomer with
    | some t => if w.time.tclk < t + 800000 then (r, w)
                else ({ r with lastCustomer := some w.time.tclk }, raise (stewardSrc u) (0x0D80 + v % 128) (gDetail r) 18 w)
    | none => ({ r with lastCustomer := some w.time.tclk }, raise (stewardSrc u) (0x0D80 + v % 128) (gDetail r) 18 w)
  else if u < 16 ∧ a = 0xF001 then (r, daybook (stewardSrc u) 0x0E09 (gDetail r) w)
  else match Config.ioEnableWord u a with
    | some k => (r, setEnableWord u k v w)
    | none => (r, w)

/-! ### Microwords -/

/-- Where a routine stands after a microword. -/
inductive MOut where
  | next (pc : Nat) (cs : List Nat) (r : SeqRt) (w : Wall) (cost : Nat)
  | done (r : SeqRt) (w : Wall) (cost : Nat)
  /-- R569 broken or a reserved microword, with the kind of event 0x0D03. -/
  | customer (kind : Nat) (pc : Nat) (r : SeqRt) (w : Wall)
  /-- A fault outside the customer region, with its restart cause (R576). -/
  | fault (cause : Nat) (r : SeqRt) (w : Wall)

/-- Is a micro-address in the customer region of a steward? -/
def inCustomer (u a : Nat) : Bool := u < 16 && decide (0x4800 ≤ a) && decide (a ≤ 0x57FF)

/-- The microword at an address: ROM words are not given; beyond the store it reads as a reserved KIND (R557). -/
def microWord (u a : Nat) (r : SeqRt) : Nat :=
  let rom := if u = 16 then 0x1000 else 0x800
  let top := if u = 16 then 0x9000 else 0x5800
  if a < rom then Config.romMicro u a % 2 ^ 32 else if a < top then tgetD r.micro a 0 else 0xF0000000

/-- May customer microcode write this register (R569)? -/
def custDest (d : Nat) : Bool := decide (d < 4) || (decide (16 ≤ d) && decide (d < 24)) || d == 25

/-- Illegal microword: a customer fault of kind 6 in the customer region, else restart cause 2. -/
def badWord (cust : Bool) (pc : Nat) (r : SeqRt) (w : Wall) : MOut :=
  if cust then .customer 6 pc r w else .fault 2 r w

/-- Write the destination and go on. -/
def microWrite (cust fin : Bool) (pc : Nat) (cs : List Nat) (d v : Nat) (r : SeqRt) (w : Wall) : MOut :=
  if cust && !custDest d then .customer 1 pc r w
  else match spaceSet r w.freeN d v with
    | none => badWord cust pc r w
    | some r' =>
      let w := if d = 27 then w.tookN 16 else w
      if fin then .done r' w 1 else .next (pc + 1) cs r' w 1

/-- KIND 0, ALU (R564). Add, subtract, compare and add with carry set all flags, the others Z and N (log entry 12). -/
def microAlu (opr : Nat) (cust fin : Bool) (pc : Nat) (cs : List Nat) (x : Nat) (r : SeqRt) (w : Wall) : MOut :=
  let d := bits x 27 23
  let bSrc := if bit x 11 then some (bits x 10 0) else spaceGet r opr (bits x 4 0)
  match spaceGet r opr (bits x 22 18), bSrc with
  | some a, some b =>
    let lg (v : Nat) := microWrite cust fin pc cs d v (r.setZN v) w
    match bits x 15 12 with
    | 0 => let q := aluAdd a b 0; microWrite cust fin pc cs d q.val (r.setFlags q) w
    | 1 => let q := aluSub a b; microWrite cust fin pc cs d q.val (r.setFlags q) w
    | 2 => lg (a &&& b)
    | 3 => lg (a ||| b)
    | 4 => lg (a ^^^ b)
    | 5 => lg (shl32 a b)
    | 6 => lg (shr32 a b)
    | 7 => lg (sar32 a b)
    | 8 => lg b
    | 9 => let r' := r.setFlags (aluSub a b); if fin then .done r' w 1 else .next (pc + 1) cs r' w 1
    | 10 => let q := aluAdd a b (b2n r.c); microWrite cust fin pc cs d q.val (r.setFlags q) w
    | _ => badWord cust pc r w
  | _, _ => badWord cust pc r w

/-- Address of a load or store: A plus the signed word offset F. -/
def microAddr (a f : Nat) : Nat := ofInt 32 ((a : Int) + toInt 16 f)

/-- May this data address be reached, and if not with which outcome (R562, R569)? -/
def dataBad (u : Nat) (cust : Bool) (a : Nat) : Option Bool :=
  if cust then (if 0x1C00 ≤ a ∧ a ≤ 0x1FFF then none else some true)
  else if a < dataSize u then none else some false

/-- Go to a micro-address; customer code stays in its region (R569). -/
def microGo (u : Nat) (cust fin : Bool) (pc target : Nat) (cs : List Nat) (r : SeqRt) (w : Wall) (cost : Nat) : MOut :=
  if cust && !inCustomer u target then .customer 2 pc r w
  else if fin then .done r w cost else .next target cs r w cost

/-- The condition of a micro branch (R564); `none` when reserved. -/
def microCond (r : SeqRt) : Nat → Option Bool
  | 0 => some true
  | 1 => some r.z
  | 2 => some !r.z
  | 3 => some r.n
  | 4 => some !r.n
  | 5 => some r.c
  | 6 => some !r.c
  | 7 => some r.v
  | _ => none

/-- KIND 0xA, sequencer (R564). -/
def microSeq (u opr : Nat) (fin : Bool) (pc : Nat) (cs : List Nat) (x : Nat) (r : SeqRt) (w : Wall) : MOut :=
  let go (r : SeqRt) (w : Wall) : MOut := if fin then .done r w 1 else .next (pc + 1) cs r w 1
  match bits x 3 0 with
  | 0 => match spaceGet r opr (bits x 22 18) with
         | some a => go { r with mpc := a % 4096 } w
         | none => .fault 2 r w
  | 1 => if 16 ≤ r.stack.length then .fault 3 r w else go { r with stack := r.mpc :: r.stack } w
  | 2 => match r.stack with
         | [] => .fault 3 r w
         | a :: st => go { r with mpc := a, stack := st } w
  | 3 => if r.inHandler then
           let w' := doReti u r w
           go (w'.seq u) w'
         else .fault 3 r w
  | 4 => go { r with ie := true } w
  | 5 => go { r with ie := false } w
  | 6 => go { r with trap := some (bits x 11 4) } w
  | _ => .fault 2 r w

/-- One microword (R563, R564, R569). -/
def microStep (u opr pc : Nat) (cs : List Nat) (r : SeqRt) (w : Wall) : MOut :=
  let cust := inCustomer u pc
  let x := microWord u pc r
  let fin := bit x 17
  let d := bits x 27 23
  let f := bits x 15 0
  match bits x 31 28 with
  | 0 => microAlu opr cust fin pc cs x r w
  | 1 => match spaceGet r opr (bits x 22 18) with
    | none => badWord cust pc r w
    | some a =>
      let addr := microAddr a f
      match dataBad u cust addr with
      | some true => .customer 3 pc r w
      | some false => .fault 4 r w
      | none => microWrite cust fin pc cs d (r.word addr) { r with nowAddr := addr, nowKind := 1 } w
  | 2 => match spaceGet r opr (bits x 22 18), spaceGet r opr d with
    | some a, some v =>
      let addr := microAddr a f
      match dataBad u cust addr with
      | some true => .customer 3 pc r w
      | some false => .fault 4 r w
      | none =>
        let r := { r.setWord addr v with nowAddr := addr, nowKind := 1 }
        if fin then .done r w 1 else .next (pc + 1) cs r w 1
    | _, _ => badWord cust pc r w
  | 3 =>
    if cust && !((decide (0x8000 ≤ f) && decide (f ≤ 0xBFFF)) || (decide (0xF000 ≤ f) && decide (f ≤ 0xF0FF))) then .customer 4 pc r w
    else
      let vw := ioRead u f r w
      microWrite cust fin pc cs d vw.1 { r with nowAddr := f, nowKind := 2 } vw.2
  | 4 =>
    if cust && !(decide (0xF000 ≤ f) && decide (f ≤ 0xF0FF)) then .customer 4 pc r w
    else match spaceGet r opr d with
      | none => badWord cust pc r w
      | some v =>
        let rw := ioWrite u f v { r with nowAddr := f, nowKind := 2 } w
        if fin then .done rw.1 rw.2 1 else .next (pc + 1) cs rw.1 rw.2 1
  | 5 => match microCond r (bits x 15 12) with
    | none => badWord cust pc r w
    | some true => microGo u cust fin pc (((pc : Int) + 1 + toInt 12 f).toNat % 2 ^ 16) cs r w 1
    | some false => if fin then .done r w 1 else .next (pc + 1) cs r w 1
  | 6 => microGo u cust fin pc f cs r w 1
  | 7 => if 4 ≤ cs.length then badWord cust pc r w else microGo u cust fin pc f ((pc + 1) :: cs) r w 1
  | 8 => match cs with
    | [] => badWord cust pc r w
    | a :: cs' => microGo u cust fin pc a cs' r w 1
  | 9 => if fin then .done r w (max f 1) else .next (pc + 1) cs r w (max f 1)
  | 10 => if cust then .customer 6 pc r w else microSeq u opr fin pc cs x r w
  | _ => badWord cust pc r w

/-- How a routine ended. -/
inductive MEnd where
  | done (r : SeqRt) (w : Wall) (used : Nat)
  | customer (kind pc : Nat) (r : SeqRt) (w : Wall)
  | fault (cause : Nat) (r : SeqRt) (w : Wall)

/-- Run a routine until END, a fault, or its limit in sclk (R566, R569): 4096, or 1024 for a customer routine. -/
def microRun (u opr limit : Nat) : Nat → Nat → Nat → List Nat → SeqRt → Wall → MEnd
  | 0, _, pc, _, r, w => if inCustomer u pc then .customer 5 pc r w else .fault 6 r w
  | fuel + 1, used, pc, cs, r, w =>
    match microStep u opr pc cs r w with
    | .done r w c => if limit < used + c then (if inCustomer u pc then .customer 5 pc r w else .fault 6 r w) else .done r w (used + c)
    | .customer k pc r w => .customer k pc r w
    | .fault c r w => .fault c r w
    | .next pc' cs' r' w' c =>
      if limit < used + c then (if inCustomer u pc then .customer 5 pc r w else .fault 6 r w)
      else microRun u opr limit fuel (used + c) pc' cs' r' w'

end Sys2Proof.Machine
end

