-- ==== Sys2Proof/Machine/Stewards.lean ====
section
/-! DEFINITION. Macro-instructions, hooks, faults, watchdogs and restart of the sequencers (R557 to R583). -/

namespace Sys2Proof.Machine

/-! ### Running, boundaries and faults -/

/-- May sequencer `u` run (R558)? Stewards in KINDLE and SERVICE while not stopped or restarting; the Reeve in
every powered mode once its first ROM fetch has come. -/
def seqRuns (m : Mode) (u : Nat) (w : Wall) : Bool :=
  if u < 16 then (m == .kindle || m == .service) && (w.get (Reg.stState u) == 1 || w.get (Reg.stState u) == 2)
  else m != .off && m != .ember && !w.bnd.fetchDue && w.get Reg.kindleStep != 0xFF

/-- WAIT idles until an enabled source is pending and not held off (R560). -/
def seqIdle (u : Nat) (w : Wall) : Bool := (w.seq u).waiting && (winner w u).isNone

/-- Fetch at MPC (R575), noting what a precise sample would record (R611). -/
def fetched (op opr : Nat) (r : SeqRt) : SeqRt :=
  { r with mpc := (r.mpc + 1) % 4096, waiting := false, nowMpc := r.mpc, nowOp := op, nowOpr := opr, nowAddr := 0,
           nowKind := 0, nowLat := 2, nowCust := false }

/-- Count a completed macro-instruction (R602 event 0x1C), and take the Reeve's periodic sample (R610). -/
def completed (u : Nat) (w : Wall) : Wall :=
  if u < 16 then pcCount u 0x1C 1 none none w
  else
    let r := w.seq u
    let n := r.macroCount + 1
    let p := w.get Reg.reeveSamplePeriod
    if p ≠ 0 ∧ p ≤ n then takeSample 16 0xFF (w.setSeq u { r with macroCount := 0 })
    else w.setSeq u { r with macroCount := n }

/-- Stop a steward for a restart (R577, second row): IN_HANDLER, IE and the macro stack cleared, ENABLE bits
cleared with latches kept, Reeve source 32 + n raised. -/
def stewardStop (n cause : Nat) (w : Wall) : Wall :=
  let r := w.seq n
  let w := w.setSeq n { r with inHandler := false, ie := false, stack := [], source := none, waiting := false }
  let w := (w.set (Reg.bhEnable n) 0).set (Reg.stState n) 3
  latch 16 (32 + n) { w with stw := { w.stw with restarting := tput w.stw.restarting n cause } }

/-- Handle a restart fault: a steward restarts, the Reeve moves to KINDLE (R576). -/
def seqFault (u cause : Nat) (w : Wall) : Wall :=
  if u < 16 then stewardStop u cause w else { w with stw := { w.stw with reeveFault := true } }

/-- One base macro-instruction that only changes the sequencer. -/
def runOp (u op opr : Nat) (f : SeqRt → SeqRt) (m : Mode) (w : Wall) : Wall :=
  if seqRuns m u w && !seqIdle u w then completed u (w.setSeq u (f (fetched op opr (w.seq u)))) else w

/-- One that may end in a restart fault instead (`none`: the cause). -/
def runOpF (u op opr cause : Nat) (f : SeqRt → Option SeqRt) (m : Mode) (w : Wall) : Wall :=
  if seqRuns m u w && !seqIdle u w then
    match f (fetched op opr (w.seq u)) with
    | some r => completed u (w.setSeq u r)
    | none => seqFault u cause (w.setSeq u (fetched op opr (w.seq u)))
  else w

/-- Operand byte of formats R and Q (R559). -/
def oprR (d s : Nat) : Nat := d * 16 + s

/-! ### Base instructions (R560) -/

def mNop (u : Nat) : Mode → Wall → Wall := runOp u 0x00 0 id
def mMov (u d s : Nat) : Mode → Wall → Wall := runOp u 0x01 (oprR d s) fun r => r.setReg d (r.reg s)
def mLdi (u : Nat) (i : Byte) : Mode → Wall → Wall := runOp u 0x02 i.toNat fun r => r.setReg 0 i.toNat
def mLdh (u : Nat) (i : Byte) : Mode → Wall → Wall :=
  runOp u 0x03 i.toNat fun r => r.setReg 0 (r.reg 0 * 256 % 2 ^ 32 ||| i.toNat)
def mAdd (u d s : Nat) : Mode → Wall → Wall :=
  runOp u 0x04 (oprR d s) fun r => let a := aluAdd (r.reg d) (r.reg s) 0; (r.setReg d a.val).setFlags a
def mSub (u d s : Nat) : Mode → Wall → Wall :=
  runOp u 0x05 (oprR d s) fun r => let a := aluSub (r.reg d) (r.reg s); (r.setReg d a.val).setFlags a
def mAnd (u d s : Nat) : Mode → Wall → Wall :=
  runOp u 0x06 (oprR d s) fun r => let v := r.reg d &&& r.reg s; (r.setReg d v).setZN v
def mOr (u d s : Nat) : Mode → Wall → Wall :=
  runOp u 0x07 (oprR d s) fun r => let v := r.reg d ||| r.reg s; (r.setReg d v).setZN v
def mXor (u d s : Nat) : Mode → Wall → Wall :=
  runOp u 0x08 (oprR d s) fun r => let v := r.reg d ^^^ r.reg s; (r.setReg d v).setZN v
def mShl (u d s : Nat) : Mode → Wall → Wall :=
  runOp u 0x09 (oprR d s) fun r => r.setReg d (shl32 (r.reg d) (r.reg s))
def mShr (u d s : Nat) : Mode → Wall → Wall :=
  runOp u 0x0A (oprR d s) fun r => r.setReg d (shr32 (r.reg d) (r.reg s))
def mCmp (u d s : Nat) : Mode → Wall → Wall :=
  runOp u 0x0B (oprR d s) fun r => r.setFlags (aluSub (r.reg d) (r.reg s))
def mAddq (u d i : Nat) : Mode → Wall → Wall :=
  runOp u 0x0C (oprR d i) fun r => let a := aluAdd (r.reg d) i 0; (r.setReg d a.val).setFlags a
def mSubq (u d i : Nat) : Mode → Wall → Wall :=
  runOp u 0x0D (oprR d i) fun r => let a := aluSub (r.reg d) i; (r.setReg d a.val).setFlags a
def mLd (u d s : Nat) : Mode → Wall → Wall :=
  runOpF u 0x10 (oprR d s) 4 fun r =>
    if r.reg s < dataSize u then some { r.setReg d (r.word (r.reg s)) with nowAddr := r.reg s, nowKind := 1 } else none
def mSt (u d s : Nat) : Mode → Wall → Wall :=
  runOpF u 0x11 (oprR d s) 4 fun r =>
    if r.reg d < dataSize u then some { r.setWord (r.reg d) (r.reg s) with nowAddr := r.reg d, nowKind := 1 } else none
/-- gD := I/O word at gS: the words of R569's scratch are kept, others are not given (free value). -/
def mIn (u d s : Nat) (m : Mode) (w : Wall) : Wall :=
  if seqRuns m u w && !seqIdle u w then
    let r := fetched 0x12 (oprR d s) (w.seq u)
    let a := r.reg s % 2 ^ 16
    let vw := ioRead u a r w
    completed u (vw.2.setSeq u { r.setReg d vw.1 with nowAddr := a, nowKind := 2 })
  else w
def mOut (u d s : Nat) (m : Mode) (w : Wall) : Wall :=
  if seqRuns m u w && !seqIdle u w then
    let r := fetched 0x13 (oprR d s) (w.seq u)
    let a := r.reg d % 2 ^ 16
    let rw := ioWrite u a (r.reg s) { r with nowAddr := a, nowKind := 2 } w
    completed u (rw.2.setSeq u rw.1)
  else w

/-- Branch when the condition holds (format B: from the following instruction). -/
def branch (u op : Nat) (off : Byte) (cond : SeqRt → Bool) : Mode → Wall → Wall :=
  runOp u op off.toNat fun r => if cond r then { r with mpc := branchTo r.mpc off } else r

def mBr (u : Nat) (off : Byte) : Mode → Wall → Wall := branch u 0x18 off fun _ => true
def mBz (u : Nat) (off : Byte) : Mode → Wall → Wall := branch u 0x19 off (·.z)
def mBnz (u : Nat) (off : Byte) : Mode → Wall → Wall := branch u 0x1A off (!·.z)
def mBn (u : Nat) (off : Byte) : Mode → Wall → Wall := branch u 0x1B off (·.n)
def mBc (u : Nat) (off : Byte) : Mode → Wall → Wall := branch u 0x1C off (·.c)
def mCall (u : Nat) (off : Byte) : Mode → Wall → Wall :=
  runOpF u 0x1D off.toNat 3 fun r =>
    if r.stack.length < 16 then some { r with stack := r.mpc :: r.stack, mpc := branchTo r.mpc off } else none
def mRet (u : Nat) : Mode → Wall → Wall :=
  runOpF u 0x1E 0 3 fun r => match r.stack with
    | [] => none
    | a :: st => some { r with mpc := a, stack := st }
def mJr (u d s : Nat) : Mode → Wall → Wall := runOp u 0x1F (oprR d s) fun r => { r with mpc := r.reg s % 4096 }
def mWait (u : Nat) : Mode → Wall → Wall := runOp u 0x20 0 fun r => { r with waiting := true }
/-- RETI (R581); outside a handler it has nothing to return to: a macro-stack fault (R562, log entry 13). -/
def mReti (u : Nat) (m : Mode) (w : Wall) : Wall :=
  if seqRuns m u w && !seqIdle u w then
    let r := fetched 0x21 0 (w.seq u)
    if r.inHandler then completed u (doReti u r w) else seqFault u 3 (w.setSeq u r)
  else w
def mDi (u : Nat) : Mode → Wall → Wall := runOp u 0x22 0 fun r => { r with ie := false }
def mEi (u : Nat) : Mode → Wall → Wall := runOp u 0x23 0 fun r => { r with ie := true }
def mKick (u : Nat) (m : Mode) (w : Wall) : Wall := runOp u 0x25 0 (fun r => { r with kicked := w.time.tclk }) m w
/-- TRAP: the vendor trap routine gets the code in OPR (R576); what it does is the image's own. -/
def mTrap (u : Nat) (code : Byte) : Mode → Wall → Wall := runOp u 0x26 code.toNat fun r => { r with trap := some code.toNat }

/-! ### Illegal opcodes, vendor opcodes, hooks -/

/-- The illegal-opcode handling of R576: no effect but the count, LAST_ILLEGAL and, at most once a second, event
0x0D02. -/
def illegal (u op opr : Nat) (w : Wall) : Wall :=
  let r := w.seq u
  let w := (w.bump (Reg.illegalOps u) 1).set (Reg.lastIllegal u) (op + r.mpc * 256)
  let w := w.setSeq u (fetched op opr r)
  let src := if u < 16 then stewardSrc u else 0
  match r.lastIllegal with
  | some t => if w.time.tclk < t + 800000000 then w
              else raise src 0x0D02 (op + r.mpc * 256) 17 (w.setSeq u { w.seq u with lastIllegal := some w.time.tclk })
  | none => raise src 0x0D02 (op + r.mpc * 256) 17 (w.setSeq u { w.seq u with lastIllegal := some w.time.tclk })

/-- Base opcodes of R560's table. -/
def isBase (op : Nat) : Bool :=
  decide (op ≤ 0x0D) || (decide (0x10 ≤ op) && decide (op ≤ 0x13)) || (decide (0x18 ≤ op) && decide (op ≤ 0x26))

/-- Does the dispatch table send this opcode to the illegal-op handler (R561, R567)? -/
def dispatchesIllegal (u op : Nat) (w : Wall) : Bool :=
  if op < 0x40 then !isBase op else if op < 0xC0 then (tget (w.seq u).dispatch op).isNone else true

def illegalOpcode (u : Nat) (op opr : Byte) (m : Mode) (w : Wall) : Wall :=
  if seqRuns m u w && !seqIdle u w && dispatchesIllegal u op.toNat w then completed u (illegal u op.toNat opr.toNat w) else w

/-- A vendor opcode runs its routine from the dispatch table (R561, R565, R566). -/
def vendorOpcode (u : Nat) (op opr : Byte) (m : Mode) (w : Wall) : Wall :=
  if seqRuns m u w && !seqIdle u w && decide (0x40 ≤ op.toNat) && decide (op.toNat < 0xC0) then
    match tget (w.seq u).dispatch op.toNat with
    | none => completed u (illegal u op.toNat opr.toNat w)
    | some a =>
      match microRun u opr.toNat 4096 4096 0 a [] (fetched op.toNat opr.toNat (w.seq u)) w with
      | .done r w n => completed u (w.setSeq u { r with nowLat := n + 1 })
      | .customer _ _ r w => seqFault u 2 (w.setSeq u r)
      | .fault c r w => seqFault u c (w.setSeq u r)
  else w

/-- A customer fault (R570): g0 to g3 and FLAGS come back from the copy, the HOOK completes with V = 1. -/
def customerFault (u op kind pc : Nat) (before r : SeqRt) (w : Wall) : Wall :=
  let r := (((r.setReg 0 (before.reg 0)).setReg 1 (before.reg 1)).setReg 2 (before.reg 2)).setReg 3 (before.reg 3)
  let r := { r with z := before.z, n := before.n, c := before.c, v := true }
  let w := (w.setSeq u r).bump (Reg.customerFaults u) 1
  let w := w.set (Reg.lastCustomerFault u) (op + kind * 2 ^ 8 + pc * 2 ^ 16)
  let w := raise (stewardSrc u) 0x0D03 (op + kind * 2 ^ 8) 17 w
  let lim := w.get Reg.customerFaultLimit
  when (lim != 0 && w.get (Reg.customerFaults u) == lim && w.flag (Reg.customerActive u))
    (fun w => raise (stewardSrc u) 0x0D04 (w.get (Reg.customerFaults u)) 17 (w.setB (Reg.customerActive u) false)) w

/-- What HOOK n does once fetched (R568): the bound routine, or V := 1. -/
def hookBody (u n : Nat) (r : SeqRt) (w : Wall) : Wall :=
  let miss := w.setSeq u { r with v := true }
  if u = 16 ∨ !w.flag (Reg.customerActive u) then miss
  else match tget w.stw.hooks n with
    | none => miss
    | some h =>
      let op := h % 256
      match tget r.dispatch op with
      | none => miss.bump (Reg.illegalOps u) 1
      | some a =>
        if !inCustomer u a then miss.bump (Reg.illegalOps u) 1
        else match microRun u (h / 256) 1024 1024 0 a [] { r with nowCust := true } w with
          | .done r' w n =>
            let w := (w.setSeq u { r' with v := false, nowLat := n + 1 }).bump (Reg.hookRuns u) 1
            pcCount u 0x20 n none none (pcCount u 0x1F 1 none none w)
          | .customer k pc r' w => customerFault u op k pc r r' w
          | .fault _ r' w => customerFault u op 6 a r r' w

def mHook (u : Nat) (n : Byte) (m : Mode) (w : Wall) : Wall :=
  if seqRuns m u w && !seqIdle u w then completed u (hookBody u n.toNat (fetched 0x24 n.toNat (w.seq u)) w) else w

/-! ### The Bellhouse at a boundary, hold-offs, overruns, watchdogs, restart -/

/-- The Bellhouse has a winner at a boundary and it is taken (R575, R581): RET_MPC, RET_FLAGS and IN_HANDLER are
set, an edge latch is cleared, and the handler the image supplied is run; the ROM's handlers are not given. -/
def bellhouseTake (u : Nat) (m : Mode) (w : Wall) : Wall :=
  let r := w.seq u
  if seqRuns m u w && r.ie && !r.inHandler then
    match winner w u with
    | none => w
    | some s =>
      let r := { r with retMpc := r.mpc, retFlags := r.flags4, inHandler := true, source := some s, waiting := false }
      let w := if isLevel u s then w else w.clrBitR (Reg.bhPending u) s
      let w := w.bump (Reg.bhTaken u) 1
      let w := when (decide (u < 16)) (pcCount u 0x1E 1 none none) w
      match tget r.handlers s with
      | none => w.setSeq u r
      | some a =>
        match microRun u 0 4096 4096 0 a [] r w with
        | .done r w _ => w.setSeq u r
        | .customer _ _ r w => seqFault u 2 (w.setSeq u r)
        | .fault c r w => seqFault u c (w.setSeq u r)
  else w

/-- The hold-off of a group ends (R582). -/
def holdoffExpiry (u g : Nat) (w : Wall) : Wall :=
  let r := w.seq u
  if (tget r.holdoff g).isSome then w.setSeq u { r with holdoff := tdel r.holdoff g } else w

/-- A vendor or ROM routine ran 4096 sclk without END (R566, R576 cause 6). -/
def routineOverrun (u : Nat) (m : Mode) (w : Wall) : Wall := if seqRuns m u w then seqFault u 6 w else w

/-- A steward's watchdog expires (R576 cause 1, R577). -/
def stewardWatchdog (n : Nat) (m : Mode) (w : Wall) : Wall := if seqRuns m n w then stewardStop n 1 w else w

/-- A sequencer timer reaches its end: Reeve source 58 + t or steward source 48 + t latches (R585, R586). -/
def sequencerTimer (u t : Nat) (m : Mode) (w : Wall) : Wall :=
  if seqRuns m u w then latch u (if u = 16 then 58 + t else 48 + t) w else w

end Sys2Proof.Machine
end

