-- ==== Sys2Proof/Machine/Granary.lean ====
section
/-! DEFINITION. The Granary: commit groups and the commit queue (R483, R490, R491), rows (R485 to R489), the
judgement of two copies (R494), values of records (R484), stores (R82 to R86), the wall's own values (R626), wear,
scrub, bank failure and the fault digest. -/

namespace Sys2Proof.Machine

/-! ### Banks -/

def bankWorks (k : Nat) (w : Wall) : Bool := bit (w.get Reg.bankState) k
/-- Both banks have failed (R501). -/
def granaryFailed (w : Wall) : Bool := !bankWorks 0 w && !bankWorks 1 w
/-- No sheaf may be asked for: read-only (R138) or failed (R501). -/
def granaryShut (w : Wall) : Bool := w.flag Reg.granaryRo || granaryFailed w

def bankOf (k : Nat) (w : Wall) : Tbl SlotCopy := if k = 0 then w.gra.bank0 else w.gra.bank1
def setBank (k : Nat) (t : Tbl SlotCopy) (w : Wall) : Wall :=
  if k = 0 then { w with gra := { w.gra with bank0 := t } } else { w with gra := { w.gra with bank1 := t } }

/-- The copy a working bank holds at a slot; `none` is blank, and a failed bank is not read. -/
def copyAt (k s : Nat) (w : Wall) : Option SlotCopy := if bankWorks k w then tget (bankOf k w) s else none

/-- Write a slot of every working bank. -/
def writeBoth (s : Nat) (c : SlotCopy) (w : Wall) : Wall :=
  let w := when (bankWorks 0 w) (fun w => setBank 0 (tput (bankOf 0 w) s c) w) w
  when (bankWorks 1 w) (fun w => setBank 1 (tput (bankOf 1 w) s c) w) w

/-- Erase a row to blank in every working bank (R486). -/
def eraseRow (r : Nat) (w : Wall) : Wall :=
  let keep (t : Tbl SlotCopy) := tfilter t fun s _ => s / 64 != r
  let w := when (bankWorks 0 w) (fun w => setBank 0 (keep (bankOf 0 w)) w) w
  when (bankWorks 1 w) (fun w => setBank 1 (keep (bankOf 1 w)) w) w

/-- The header in force: the valid one of A and B with the higher generation (R479). -/
def headerOf (l : List Header) : Option Header :=
  l.foldl (fun b h => match b with
    | none => some h
    | some x => if x.gen < h.gen then some h else b) none

/-- Write a bank's header over the older of A and B (R479). -/
def writeHeader (f : Header → Header) (l : List Header) : List Header :=
  match headerOf l with
  | none => l
  | some h => [h, { f h with gen := h.gen + 1 }]

def writeHeaders (f : Header → Header) (w : Wall) : Wall :=
  { w with gra := { w.gra with
      hdr0 := if bankWorks 0 w then writeHeader f w.gra.hdr0 else w.gra.hdr0
      hdr1 := if bankWorks 1 w then writeHeader f w.gra.hdr1 else w.gra.hdr1 } }

/-! ### Rows (R485, R486) -/

def Row.blank : Row := { state := .free, key := false, cycles := 0, used := 0 }
def rowAt (r : Nat) (w : Wall) : Row := tgetD w.gra.rows r Row.blank
def setRow (r : Nat) (x : Row) (w : Wall) : Wall := { w with gra := { w.gra with rows := tput w.gra.rows r x } }

/-- Number of rows in a state: unlisted rows are free (R508). -/
def rowsIn (st : RowState) (w : Wall) : Nat :=
  if st = .free then 1920 - (w.gra.rows.filter fun e => decide (e.2.state ≠ .free)).length
  else (w.gra.rows.filter fun e => decide (e.2.state = st)).length

def openRow (key : Bool) (w : Wall) : Option Nat :=
  (w.gra.rows.find? fun e => decide (e.2.state = .opened) && e.2.key == key).map (·.1)

/-- The free row with the fewest cycles, the lower number on a tie (R486). -/
def bestFree (w : Wall) : Option Nat :=
  (List.range 1920).foldl (fun b r =>
    if (rowAt r w).state = .free then
      match b with
      | none => some r
      | some x => if (rowAt r w).cycles < (rowAt x w).cycles then some r else b
    else b) none

/-! ### Values of records (R484) -/

/-- Is a type of class key (R481)? -/
def isKeyType (t : Nat) : Bool := decide (0x40 ≤ t)

/-- Types with a part number in RKEY [31:24] (R481). -/
def isMulti (t : Nat) : Bool := t == 0x01 || t == 0x44 || t == 0x41 || t == 0x45
/-- RKEY without its part number. -/
def recKey (t rkey : Nat) : Nat := if isMulti t then rkey % 2 ^ 24 else rkey
def partOf (t rkey : Nat) : Nat := if isMulti t then rkey / 2 ^ 24 else 0

/-- Body bytes that a sheaf's type and value length use (R494): one number, unused and reserved bytes cleared. -/
def usedBody (s : Sheaf) : Nat :=
  if s.type = 0x01 ∨ s.type = 0x44 then
    s.body % 2 ^ 16 + s.body / 2 ^ 16 % 2 ^ 16 * (if s.type = 0x01 ∧ recKey s.type s.rkey = 0x1483 + 1 * 2 ^ 16 then 2 ^ 16 else 0) +
      s.body / 2 ^ 32 % 2 ^ (8 * min 40 (s.body % 2 ^ 16 - 40 * partOf s.type s.rkey)) * 2 ^ 32
  else if s.type = 0x02 ∨ s.type = 0x03 then s.body % 2 ^ 320
  else if s.type = 0x40 then s.body % 2 ^ 16 + s.body / 2 ^ 64 % 2 ^ 64 * 2 ^ 64
  else if s.type = 0x42 then s.body % 2 ^ 64
  else if s.type = 0x43 then s.body % 2 ^ 288
  else s.body % 2 ^ 352

/-- What two copies of one slot give (R494). -/
inductive Verdict where
  | free
  /-- A sheaf, and the bank whose copy is rewritten from it. -/
  | use (s : Sheaf) (fix : Option Nat)
  | benign (s : Sheaf)
  | suspect (rkey type : Nat)
  | unreadable
  deriving DecidableEq, Repr

/-- RESERVED_END or mark of a packet-number record. -/
def pnOf (s : Sheaf) : Nat := if s.type = 0x40 then s.body / 2 ^ 64 % 2 ^ 64 else s.body % 2 ^ 64

def sameDefined (a b : Sheaf) : Bool :=
  a.type == b.type && a.tomb == b.tomb && a.last == b.last && a.rkey == b.rkey && a.layout == b.layout && usedBody a == usedBody b

/-- The divergence table (R494), for two working banks. -/
def judge2 (c0 c1 : Option SlotCopy) : Verdict :=
  match c0, c1 with
  | none, none => .free
  | some (.sheaf a), some (.sheaf b) =>
    if a = b then .use a none
    else if a.gen = b.gen then
      if sameDefined a b then .benign a
      else if (a.type = 0x40 ∨ a.type = 0x42) ∧ b.type = a.type then
        if pnOf b ≤ pnOf a then .use a (some 1) else .use b (some 0)
      else .suspect a.rkey a.type
    else if b.gen < a.gen then .use a (some 1) else .use b (some 0)
  | some (.sheaf a), _ => .use a (some 1)
  | _, some (.sheaf b) => .use b (some 0)
  | _, _ => .unreadable

/-- The judgement of a slot; with one bank failed, a valid copy stands (R501). -/
def judge (s : Nat) (w : Wall) : Verdict :=
  if bankWorks 0 w && bankWorks 1 w then judge2 (copyAt 0 s w) (copyAt 1 s w)
  else match (if bankWorks 0 w then copyAt 0 s w else copyAt 1 s w) with
    | none => .free
    | some (.sheaf a) => .use a none
    | some .invalid => .unreadable

/-- Slot positions written in either bank, rising. -/
def usedSlots (w : Wall) : List Nat :=
  (w.gra.bank1.foldl (fun t e => tput t e.1 ()) (w.gra.bank0.foldl (fun t e => tput t e.1 ()) ([] : Tbl Unit))).map (·.1)

/-- Every readable sheaf with its slot. -/
def sheaves (w : Wall) : List (Nat × Sheaf) :=
  (usedSlots w).filterMap fun s => match judge s w with
    | .use a _ => some (s, a)
    | .benign a => some (s, a)
    | _ => none

/-- Number of parts a group of this type has, by its part 0 (R481). -/
def partsOf (s : Sheaf) : Nat :=
  if s.type = 0x01 ∨ s.type = 0x44 then max 1 (ceilDiv (s.body % 2 ^ 16) 40)
  else if s.type = 0x41 ∨ s.type = 0x45 then 2 else 1

/-- Is the group of a record at one GEN whole: END valid, parts 0 to n − 1 valid (R484)? -/
def groupWhole (all : List (Nat × Sheaf)) (t key gen : Nat) : Bool :=
  let g := all.filter fun e => e.2.gen == gen
  let mine := g.filter fun e => e.2.type == t && recKey t e.2.rkey == key
  (g.any fun e => e.2.last) &&
  (match mine.find? fun e => partOf t e.2.rkey == 0 with
   | none => false
   | some (_, p0) => p0.tomb || (List.range (partsOf p0)).all fun i => mine.any fun e => partOf t e.2.rkey == i)

/-- The chosen group of a record: its sheaves by part, with the highest GEN that makes a whole group (R484). -/
def chosen (all : List (Nat × Sheaf)) (t key : Nat) : Option (List Sheaf) :=
  let gens := (all.filter fun e => e.2.type == t && recKey t e.2.rkey == key && groupWhole all t key e.2.gen).map (·.2.gen)
  match gens.foldl (fun b g => match b with | none => some g | some x => if x < g then some g else b) (none : Option Nat) with
  | none => none
  | some g => some ((all.filter fun e => e.2.type == t && recKey t e.2.rkey == key && e.2.gen == g).map (·.2))

/-- Value bytes of a group of a Ledger record (R481): up to 40 a part. -/
def groupBytes (g : List Sheaf) : List Byte :=
  let n := match g.find? fun s => partOf s.type s.rkey == 0 with
    | some s => s.body % 2 ^ 16
    | none => 0
  ((List.range (max 1 (ceilDiv n 40))).flatMap fun i =>
    match g.find? fun s => partOf s.type s.rkey == i with
    | some s => toLe 40 (s.body / 2 ^ 32)
    | none => []).take n

/-- Sheaves asked for and not yet committed, oldest first. -/
def queuedSheaves (w : Wall) : List (Nat × Sheaf) := (w.gra.queue ++ w.gra.waiting).map fun c => (0, c.sheaf)

/-- The Granary value of a Ledger record, with what is queued counted as held when `q`. -/
def storedBytes (q : Bool) (index sub : Nat) (w : Wall) : Option (List Byte) :=
  let t := if index / 256 = 0x12 ∨ index / 4096 = 7 then 0x44 else 0x01
  match chosen (sheaves w ++ (if q then queuedSheaves w else [])) t (index + sub * 2 ^ 16) with
  | none => none
  | some g => if g.any (·.tomb) then none else some (groupBytes g)

/-! ### Asking for sheaves (R490) -/

/-- Let waiting sheaves into the queue in order: other than reservations they enter while more than four places
are free (R490). -/
def admitItems : List CommitItem → List CommitItem → List CommitItem × List CommitItem
  | q, [] => (q, [])
  | q, c :: cs => if q.length < 8 then admitItems (q ++ [c]) cs else (q, c :: cs)

def pumpQueue (w : Wall) : Wall :=
  if w.bnd.queueShut then w
  else
    let r := admitItems w.gra.queue w.gra.waiting
    { w with gra := { w.gra with queue := r.1, waiting := r.2 } }

/-- Ask for sheaves of one group, in order. -/
def askSheaves (l : List CommitItem) (w : Wall) : Wall :=
  if granaryShut w then w else pumpQueue { w with gra := { w.gra with waiting := w.gra.waiting ++ l } }

/-- A group of one record: `bodies` by part, one fresh GEN, END on the last (R483). -/
def groupOf (type key : Nat) (tomb : Bool) (bodies : List Nat) (rank : Nat) (after : After) (gen layout : Nat) : List CommitItem :=
  bodies.zipIdx.map fun (b, i) =>
    { sheaf := { type := type, tomb := tomb, last := i + 1 == bodies.length, rkey := key + (if isMulti type then i * 2 ^ 24 else 0),
                 gen := gen, layout := layout, body := b },
      rank := rank, after := if i + 1 = bodies.length then after else .none, repair := none }

/-- Ask for one record's group; GEN advances by one (R483). -/
def askRecord (type key : Nat) (tomb : Bool) (bodies : List Nat) (rank : Nat) (after : After) (w : Wall) : Wall :=
  if granaryShut w then w
  else
    let g := w.gra.genNext
    askSheaves (groupOf type key tomb bodies rank after g (w.get Reg.granaryLayout))
      { w with gra := { w.gra with genNext := g + 1 } }

/-- Bodies of a Ledger value: total length, mark, up to 40 bytes a part (R481). -/
def ledgerBodies (l : List Byte) (mark : Nat) : List Nat :=
  (List.range (max 1 (ceilDiv l.length 40))).map fun i =>
    l.length + mark * 2 ^ 16 + ofLe ((l.drop (40 * i)).take 40) * 2 ^ 32

def ledgerType (index : Nat) : Nat := if index / 256 = 0x12 ∨ index / 4096 = 7 then 0x44 else 0x01

/-- Commit a Ledger object's bytes. -/
def askLedger (index sub : Nat) (l : List Byte) (after : After) (w : Wall) : Wall :=
  askRecord (ledgerType index) (index + sub * 2 ^ 16) false (ledgerBodies l 0) 3 after w

/-- A TEXT value's bytes: the number holds them below a final mark. -/
def textBytes (v : Nat) : List Byte := if v = 0 then [] else toLe ((bitLen v - 1) / 8) v
def textVal (l : List Byte) : Nat := if l = [] then 0 else ofLe l + 256 ^ l.length

/-- Size of a type in bytes (R77). -/
def tySize : OTy → Nat
  | .bool => 1
  | .u n => n
  | .i n => n
  | .time96 => 12
  | .oct n => n
  | .text => 256
  | .domain => 0

/-- The bytes of a non-DOMAIN value as a read returns them. -/
def encodeVal (t : OTy) (v : Nat) : List Byte := if t = .text then textBytes v else toLe (tySize t) v
def decodeVal (t : OTy) (l : List Byte) : Nat := if t = .text then textVal l else ofLe l

/-- Commit a named object's live value (R626). -/
def commitReg (r : Reg) (bytes : Nat) (w : Wall) : Wall :=
  askLedger (r.key / 256) (r.key % 256) (toLe bytes (w.get r)) .none w

/-! ### The fault digest (R507) -/

/-- Body of a digest entry. -/
def digestBody (src code detail suppressed : Nat) (w : Wall) : Nat :=
  w.get Reg.serviceS + w.get Reg.kindleCount * 2 ^ 64 + src * 2 ^ 96 + code * 2 ^ 112 + detail % 2 ^ 128 * 2 ^ 128 +
    min suppressed 0xFFFF * 2 ^ 256 + (if w.flag Reg.timeValid then t96 w.wallT / 2 ^ 48 * 2 ^ 272 else 0)

/-- Write a fault-digest entry: from the bucket, or counted as suppressed. -/
def digestEntry (src code detail : Nat) (w : Wall) : Wall :=
  if w.gra.bucket = 0 then
    let w := w.bump Reg.digestSuppressed 1
    { w with gra := { w.gra with suppressed := w.gra.suppressed + 1 } }
  else
    let b := digestBody src code detail w.gra.suppressed w
    let q := w.gra.digestSeq
    let w := { w with gra := { w.gra with bucket := w.gra.bucket - 1, suppressed := 0, digestSeq := q + 1 } }
    askRecord 0x06 q false [b] 3 .none w

/-- A commit of a digest sheaf: the ring of 512 takes its body (R478, R507). -/
def digestCommit (b : Nat) (w : Wall) : Wall :=
  let d := w.gra.digest ++ [b]
  let d := d.drop (d.length - 512)
  let w := w.set Reg.digestEntries d.length
  newDom (0x1450 * 256 + 1) { w with gra := { w.gra with digest := d } }

/-! ### Bank failure (R501) -/

/-- A command or install whose commit waited when the second bank failed ends with 0x0400_0001: `done` is told. -/
def bankFail (k : Nat) (w : Wall) : Wall :=
  if !bankWorks k w then w
  else
    let w := w.clrBitR Reg.bankState k
    let w := raise 0 0x0B04 k 16 w
    if granaryFailed w then { w with gra := { w.gra with queue := [], waiting := [], done := [] } }
    else digestEntry 0 0x0B04 k w

/-! ### Opening, reclaiming, retiring rows (R485 to R489, R497) -/

/-- Commit the wear record that covers a row (R489). -/
def askWear (r : Nat) (w : Wall) : Wall :=
  let base := r / 10 * 10
  askRecord 0x04 base false [(List.range 10).foldr (fun i a => (rowAt (base + i) w).cycles + a * 2 ^ 32) 0] 3 .none w

def noteWear (r : Nat) (w : Wall) : Wall := w.set Reg.wearMaxCycles (max (w.get Reg.wearMaxCycles) (rowAt r w).cycles)

/-- Is a sheaf live: of its record's chosen group, and not the last trace of a dropped record (R487)? -/
def isLive (all : List (Nat × Sheaf)) (s : Sheaf) : Bool :=
  match chosen all s.type (recKey s.type s.rkey) with
  | none => false
  | some g => g.contains s &&
      (!s.tomb || all.any fun e => e.2.type == s.type && recKey s.type e.2.rkey == recKey s.type s.rkey && e.2 != s)

def liveIn (r : Nat) (w : Wall) : List Sheaf :=
  let all := sheaves w
  ((all.filter fun e => e.1 / 64 == r).map (·.2)).filter (isLive all)

def liveCount (w : Wall) : Nat := let all := sheaves w; (all.filter fun e => isLive all e.2).length

/-- Move a row's live sheaves, GEN unchanged, at rank 4; what follows the last of them (R487, R488, R497). -/
def moveRow (r : Nat) (after : After) (w : Wall) : Wall :=
  let l := liveIn r w
  let items := l.zipIdx.map fun (s, i) =>
    ({ sheaf := s, rank := 4, after := if i + 1 = l.length then after else .none, repair := none } : CommitItem)
  askSheaves items w

def freeRow (r : Nat) (w : Wall) : Wall := setRow r { rowAt r w with state := .free, used := 0 } w

/-- Rows already being emptied. -/
def movingRow (r : Nat) (w : Wall) : Bool :=
  (w.gra.queue ++ w.gra.waiting).any fun c => decide (c.after = .freeRow r) || decide (c.after = .retireRow r 0) || decide (c.after = .retireRow r 1)

/-- The full row to reclaim by a measure, the fewer cycles on a tie (R487, R497). -/
def bestFull (m : Nat → Nat) (w : Wall) : Option Nat :=
  (w.gra.rows.filter fun e => decide (e.2.state = .full) && !movingRow e.1 w).foldl (fun b e =>
    match b with
    | none => some e.1
    | some x => if m e.1 < m x ∨ (m e.1 = m x ∧ e.2.cycles < (rowAt x w).cycles) then some e.1 else b) none

/-- Reclaim a full row: at once free when nothing in it lives. -/
def reclaim (r : Nat) (w : Wall) : Wall := if liveIn r w = [] then freeRow r w else moveRow r (.freeRow r) w

/-- Fewer than 32 rows free: reclaim the full row with the fewest live sheaves (R487). -/
def reclaimIfFew (w : Wall) : Wall :=
  if rowsIn .free w < 32 then
    match bestFull (fun r => (liveIn r w).length) w with
    | some r => reclaim r w
    | none => w
  else w

/-- Cycle counts apart by more than WEAR_SPREAD: reclaim the least-worn full row (R497). -/
def levelWear (w : Wall) : Wall :=
  let live := w.gra.rows.filter fun e => decide (e.2.state ≠ .retired)
  let hi := live.foldl (fun a e => max a e.2.cycles) 0
  let lo := if live.length < 1920 then 0 else live.foldl (fun a e => min a e.2.cycles) hi
  if w.get Reg.wearSpread < hi - lo then
    match bestFull (fun r => (rowAt r w).cycles) w with
    | some r => reclaim r w
    | none => w
  else w

/-- Open a row of a class: the best free row, erased first when it was of class key and is opened for general
sheaves (R486); its wear record follows (R489). -/
def openNew (key : Bool) (w : Wall) : Wall :=
  match bestFree w with
  | none => w
  | some r =>
    let x := rowAt r w
    let erase := x.key && !key
    let w := when erase (eraseRow r) w
    let w := setRow r { state := .opened, key := key, cycles := x.cycles + (if erase then 2 else 1), used := 0 } w
    levelWear (reclaimIfFew (askWear r (noteWear r w)))

/-- Retire a row in both maps (R488), with bank failure after 64 in a day (R501). -/
def retireRow (r bank : Nat) (w : Wall) : Wall :=
  let w := setRow r { rowAt r w with state := .retired } w
  let w := writeHeaders (fun h => { h with retired := h.retired ++ [r] }) w
  let w := raise 0 0x0B03 (r + bank * 2 ^ 16) 16 (w.bump Reg.retiredRows 1)
  let day := w.time.tclk / (86400 * 800000000)
  let t := if w.gra.retireDay = day then w.gra.retiredToday else []
  let n := tgetD t bank 0 + 1
  let w := { w with gra := { w.gra with retireDay := day, retiredToday := tput t bank n } }
  when (n == 64) (bankFail bank) w

/-! ### The commit of one sheaf (R488, R490, R491) -/

/-- Put a sheaf in the open row of its class; the slot, and the row filled when it was its last slot. -/
def appendSheaf (s : Sheaf) (w : Wall) : Wall :=
  let key := isKeyType s.type
  let w := if (openRow key w).isNone then openNew key w else w
  match openRow key w with
  | none => w
  | some r =>
    let x := rowAt r w
    let w := writeBoth (r * 64 + x.used) (.sheaf s) w
    if x.used + 1 = 64 then openNew key (setRow r { x with state := .full, used := 64 } w)
    else setRow r { x with used := x.used + 1 } w

/-- A row to append to: the open one, or a new one (R485). -/
def readyRow (key : Bool) (w : Wall) : Wall := if (openRow key w).isNone then openNew key w else w

/-- A sheaf whose read-back failed in one bank: written again in the next slot of the row, which is then full (R488). -/
def writeBad (s : Sheaf) (bank r : Nat) (w : Wall) : Wall :=
  let x := rowAt r w
  let slot := r * 64 + x.used
  let w := writeBoth slot (.sheaf s) w
  let w := setBank bank (tput (bankOf bank w) slot .invalid) w
  let w := when (decide (x.used + 1 < 64)) (writeBoth (slot + 1) (.sheaf s)) w
  setRow r { x with state := .full, used := 64 } w

/-- A read-back failed in one bank: that copy is bad, the sheaf goes to the next slot, the row is emptied and
then retired (R488). -/
def badAppend (s : Sheaf) (bank : Nat) (w : Wall) : Wall :=
  let key := isKeyType s.type
  let w := readyRow key w
  match openRow key w with
  | none => w
  | some r =>
    let held := decide ((rowAt r w).used + 1 < 64)
    let w := openNew key (writeBad s bank r w)
    let w := latch 16 9 (when (!held) (appendSheaf s) w)
    if liveIn r w = [] then retireRow r bank w else moveRow r (.retireRow r bank) w

/-- What follows the commit of a group's last sheaf (R491). -/
def afterCommit (a : After) (w : Wall) : Wall :=
  match a with
  | .none => w
  | .freeRow r => freeRow r w
  | .retireRow r b => retireRow r b w
  | a => { w with gra := { w.gra with done := w.gra.done ++ [a] } }

/-- The next sheaf by rank, then by arrival (R490). -/
def nextCommit (q : List CommitItem) : Option CommitItem :=
  q.foldl (fun b c => match b with
    | none => some c
    | some x => if c.rank < x.rank then some c else b) none

/-- Commit one sheaf: written to both banks and read back (R490, R491). -/
def commitOne (bad : Option (Fin 2)) (w : Wall) : Wall :=
  match nextCommit w.gra.queue with
  | none => w
  | some c =>
    let w := { w with gra := { w.gra with queue := w.gra.queue.erase c } }
    let w := match c.repair with
      | some (bank, slot) => (setBank bank (tput (bankOf bank w) slot (.sheaf c.sheaf)) w).bump Reg.scrubRepairs (if c.rank = 5 then 1 else 0)
      | none =>
        if c.sheaf.type = 0x06 then digestCommit c.sheaf.body w
        else match bad with
          | some b => if bankWorks b w then badAppend c.sheaf b w else appendSheaf c.sheaf w
          | none => appendSheaf c.sheaf w
    pumpQueue (afterCommit c.after (latch 16 8 w))

/-- The commit engine runs: not inhibited, a bank works, and power is there (R35, R37, R491). -/
def commitRuns (m : Mode) (w : Wall) : Bool := m != .off && m != .ember && !w.bnd.inhibit && !granaryShut w

def sheafCommit (bad : Option (Fin 2)) (m : Mode) (w : Wall) : Wall := if commitRuns m w then commitOne bad w else w

/-- The engine drains the queue (R37, R627, R143): the queue is closed, so at most its 13 places. -/
def drainQueue (w : Wall) : Wall := upTo 13 (fun _ w => if w.gra.queue = [] then w else commitOne none w) w

/-! ### Closing and reopening the queue (R37, R492) -/

def setShut (b : Bool) (w : Wall) : Wall := { w with bnd := { w.bnd with queueShut := b } }
def setInhibit (b : Bool) (w : Wall) : Wall := { w with bnd := { w.bnd with inhibit := b } }

/-- A SERVICE_S sheaf with its PFAIL mark (R626). -/
def serviceGroup (mark : Nat) (w : Wall) : Wall :=
  askRecord 0x01 (0x1483 + 1 * 2 ^ 16) false (ledgerBodies (toLe 8 (w.get Reg.serviceS)) mark) 3 .none w

/-- The thirteenth place, while it is free: the marked SERVICE_S sheaf enters a queue that is closing (R37, R490). -/
def pfailSheaf (w : Wall) : Wall :=
  if granaryShut w ∨ 12 < w.gra.queue.length then w
  else
    let g := w.gra.genNext
    let items := groupOf 0x01 (0x1483 + 1 * 2 ^ 16) false (ledgerBodies (toLe 8 (w.get Reg.serviceS)) 1) 3 .none g (w.get Reg.granaryLayout)
    { w with gra := { w.gra with genNext := g + 1, queue := w.gra.queue ++ items } }

/-- VGRAN is not good (R492): the queue closes and the inhibit is set at once. -/
def vgranLoss (m : Mode) (w : Wall) : Wall :=
  if m = .kindle ∨ m = .service ∨ m = .doze then
    if w.bnd.vgranOk then
      level 16 10 true (setInhibit true (setShut true { w with bnd := { w.bnd with vgranOk := false } }))
    else w
  else w

/-- VGRAN has been good for 1 ms: the queue reopens unless a PFAIL_N is accepted (R492). -/
def vgranRestored (m : Mode) (w : Wall) : Wall :=
  if m = .off ∨ m = .ember ∨ w.bnd.vgranOk then w
  else
    let w := level 16 10 false { w with bnd := { w.bnd with vgranOk := true } }
    if w.bnd.pfail then w else pumpQueue (setShut false (setInhibit false w))

/-- VGRAN stays not good for 1 s: both banks fail and what is queued or waiting is dropped (R492). -/
def vgranFailTimeout (m : Mode) (w : Wall) : Wall :=
  if m = .off ∨ m = .ember ∨ w.bnd.vgranOk then w
  else bankFail 1 (bankFail 0 { w with gra := { w.gra with queue := [], waiting := [] } })

/-! ### Wear, refills, scrub -/

/-- Once per day of SERVICE_S (R498): the projection, and a doubling of the reservation block when it is required. -/
def wearProjection (w : Wall) : Wall :=
  let rows := w.gra.rows
  let n := 1920 - (rows.filter fun e => decide (e.2.state = .retired)).length
  let sum : Nat := rows.foldl (fun a e => a + e.2.cycles) 0
  let now := w.get Reg.serviceS
  let old := (w.gra.wearDays.filter fun e => decide (now ≤ e.1 + 30 * 86400)).head?
  let hi : Nat := rows.foldl (fun a e => max a e.2.cycles) 0
  let left := 631152000 - now
  let proj : Nat := match old with
    | some (t, s) => if t < now ∧ 0 < n then hi + (sum - s) * left / (n * (now - t)) else hi
    | none => hi
  let w := w.set Reg.wearProjected (min (proj / 10000) 0xFFFF)
  let days := (w.gra.wearDays ++ [(now, sum)]).filter fun e => decide (now ≤ e.1 + 30 * 86400)
  let w : Wall := { w with gra := { w.gra with wearDays := days } }
  if decide (80000000 < proj) && decide (w.get Reg.pnBlockLog2 < 34) then
    let w := commitReg Reg.pnBlockLog2 1 (w.bump Reg.pnBlockLog2 1)
    let w := w.bump Reg.blockDoublings 1
    let d := w.get Reg.pnBlockLog2 + w.get Reg.wearProjected * 2 ^ 8
    raise 0 0x0B05 d 16 (digestEntry 0 0x0B05 d w)
  else w

/-- One second's refill of the store allowance (R499, log entry 20). -/
def allowanceRefill (w : Wall) : Wall := w.set Reg.storeAllowance (min 262144 (w.get Reg.storeAllowance + 4))

/-- Every 60 s the digest bucket regains one entry (R507). -/
def digestRefill (w : Wall) : Wall := { w with gra := { w.gra with bucket := min 16 (w.gra.bucket + 1) } }

/-- What is found changed in a bank when it is read. -/
def applyDamage (l : List Damage) (w : Wall) : Wall :=
  l.foldl (fun w d => match d.copy with
    | some c => setBank d.bank (tput (bankOf d.bank w) d.slot c) w
    | none => setBank d.bank (tdel (bankOf d.bank w) d.slot) w) w

/-- Event 0x0B01 at most once per second (R509). -/
def benignEvent (s : Sheaf) (w : Wall) : Wall :=
  let d := s.rkey + s.type * 2 ^ 32
  let fire := match w.gra.benignAt with
    | some t => decide (t + 800000000 ≤ w.time.tclk)
    | none => true
  if fire then raise 0 0x0B01 d 16 { w with gra := { w.gra with benignAt := some w.time.tclk } } else daybook 0 0x0B01 d w

/-- A rewrite in place of one bank's copy (R494, R500). -/
def askRepair (rank bank slot : Nat) (s : Sheaf) (w : Wall) : Wall :=
  askSheaves [{ sheaf := s, rank := rank, after := .none, repair := some (bank, slot) }] w

/-- The judgement of a slot acted on: benign divergence, suspect records, repairs (R494, R500). -/
def actJudge (slot : Nat) (w : Wall) : Wall :=
  match judge slot w with
  | .use s (some b) => if bankWorks b w then askRepair 5 b slot s w else w
  | .benign s => askRepair 3 1 slot s (benignEvent s (w.bump Reg.benignDivergence 1))
  | .suspect k t => raise 0 0x0B02 (k + t * 2 ^ 32) 16 (w.bump Reg.suspectRecords 1)
  | _ => w

/-- The scrub reads both copies of a slot (R500). -/
def scrubRead (slot : Nat) (damage : List Damage) (m : Mode) (w : Wall) : Wall :=
  if commitRuns m w ∧ slot < 122880 then actJudge slot (applyDamage (damage.filter fun d => d.slot == slot) w) else w

end Sys2Proof.Machine
end

