-- ==== Sys2Proof/Machine/Respond.lean ====
section
/-! DEFINITION. Responses: completing a mailbox request (R88 to R90), answering a session (R103 to R108), and
requests whose response waits for something after they left the Ledger queue (R84, R337, R347, R411, R442). -/

namespace Sys2Proof.Machine

/-! ### Abort codes (R117) -/

def aNoObject : Nat := 0x01000001
def aNoRead : Nat := 0x01000002
def aNoWrite : Nat := 0x01000003
def aPath : Nat := 0x01000004
def aLength : Nat := 0x02000001
def aDomain : Nat := 0x02000002
def aRange : Nat := 0x03000001
def aReserved : Nat := 0x03000002
def aReversed : Nat := 0x03000003
def aState : Nat := 0x04000001
def aMode : Nat := 0x04000002
def aRenew : Nat := 0x04000003
def aGen : Nat := 0x04000004
def aOffset : Nat := 0x04000005
def aWhole : Nat := 0x04000006
def aOfficer : Nat := 0x05000001
def aApproved : Nat := 0x05000002
def aSealed : Nat := 0x05000003
def aFull : Nat := 0x06000001
def aStoreBusy : Nat := 0x06000002
def aSessions : Nat := 0x06000003
def aHandshakes : Nat := 0x06000004
def aTransfer : Nat := 0x06000005
def aAllowance : Nat := 0x07000001
def aEpoch : Nat := 0x08000001
def aImageEpoch : Nat := 0x08000002

/-- Is this abort of the busy family (R105)? -/
def isBusy (c : Nat) : Bool := c / 2 ^ 24 == 6

/-- A byte of the mailbox data buffer. -/
def mbxByte (w : Wall) (i : Nat) : Byte := BitVec.ofNat 8 (w.win32 (0x1800 + i / 4 * 4) 0 / 256 ^ (i % 4))
def setMbxByte (i : Nat) (b : Byte) (w : Wall) : Wall :=
  let o := 0x1800 + i / 4 * 4
  w.setWin o 0 (putBits (w.win32 o 0) (i % 4 * 8 + 7) (i % 4 * 8) b.toNat)
def setMbxBytes : Nat → List Byte → Wall → Wall
  | _, [], w => w
  | i, b :: bs, w => setMbxBytes (i + 1) bs (setMbxByte i b w)
/-- The first `n` bytes of the mailbox data buffer. -/
def mbxData (w : Wall) (n : Nat) : List Byte := (List.range n).map (mbxByte w)

/-- Completion of the mailbox request (R90): BUSY cleared, DONE or ABORTED set, TICKET + 1, source 0 raised. -/
def mbxComplete (status gen : Nat) (data : Option (List Byte)) (w : Wall) : Wall :=
  let st := w.win32 0x1010 0
  let t := (bits st 31 16 + 1) % 2 ^ 16
  let flags := if status = 0 then 2 else 4
  let w := w.setWin 0x1010 0 (bits st 3 3 * 8 + flags + t * 2 ^ 16)
  let w := if status = 0 then w else w.setWin 0x1014 0 status
  let w := match data with
    | some d => setMbxBytes 0 (d.take 2048) (w.setWin 0x1008 0 (min d.length 2048))
    | none => w
  latch 17 0 (w.setWin 0x1018 0 gen)

/-- Answer a session (R103 to R106, R108): the response takes the next wall SEQ and enters the cache, unless it
is of the busy family. -/
def sessionRespond (slot id seq : Nat) (peer : Peer) (status gen : Nat) (data : List Byte) (w : Wall) : Wall :=
  match tget w.led.sessions slot with
  | none => w
  | some s =>
    if s.id ≠ id then w
    else if s.wallSeq + 1 = 0x7FFFFFFF then closeSession slot 1 true w
    else
      let q := s.wallSeq + 1
      let r : Response := { seq := seq, wallSeq := q, renew := renewSoon s q, status := status, gen := gen, data := data }
      let cache := if isBusy status then s.cache else (r :: s.cache).take 64
      let s' := { s with wallSeq := q, cache := cache, waiting := s.waiting.erase seq }
      (putSession slot s' w).emit (.response (.session slot id seq peer) q r.renew status gen data)

/-- Send a response with a generation (0 where the object is no DOMAIN). -/
def respondG (who : Who) (status gen : Nat) (data : Option (List Byte)) (w : Wall) : Wall :=
  let w := when (isBusy status) (fun w => w.bump Reg.busyRefused 1) w
  match who with
  | .mailbox => mbxComplete status gen data w
  | .session slot id seq peer => sessionRespond slot id seq peer status gen (data.getD []) w

/-- Send a response. -/
def respond (who : Who) (status : Nat) (data : Option (List Byte)) (w : Wall) : Wall :=
  respondG who status (match who with | .mailbox => w.win32 0x1018 0 | _ => 0) data w

/-- Let a response wait. -/
def deferResponse (who : Who) (role : Role) (on : WaitFor) (w : Wall) : Wall :=
  { w with led := { w.led with deferred := w.led.deferred ++ [{ who := who, role := role, on := on }] } }

/-- Send the responses that waited for something. -/
def releaseDeferred (on : WaitFor) (status : Nat) (data : Option (List Byte)) (w : Wall) : Wall :=
  let go := w.led.deferred.filter fun d => decide (d.on = on)
  let w := { w with led := { w.led with deferred := w.led.deferred.filter fun d => decide (d.on ≠ on) } }
  go.foldl (fun w d => respond d.who status data w) w

/-- SERVICE_INDICATOR of a requester after a security service (R459). -/
def setIndicator (who : Who) (b : Bool) (w : Wall) : Wall :=
  match who with
  | .mailbox => { w with led := { w.led with indicator := b } }
  | .session slot id _ _ =>
    match tget w.led.sessions slot with
    | none => w
    | some s => if s.id = id then putSession slot { s with indicator := b } w else w

/-- What a write does once every check has passed: refused after all, done, answered later, or answered by an
operation that has taken note of the requester itself (R130, R411). -/
inductive WRes where
  | abort (code : Nat)
  | ok (w : Wall)
  | later (on : WaitFor) (w : Wall)
  | held (w : Wall)

end Sys2Proof.Machine
end

