-- ==== Sys2Proof/Machine/Security.lean ====
section
/-! DEFINITION. MACsec and the security functions: SAs (R441 to R445), reservations (R447 to R451), the
key-identifier register (R453, R454), the transmit and receive data path (R435 to R439), KEKs, and zeroisation
(R471, R502). -/

namespace Sys2Proof.Machine

/-! ### SAs -/

/-- Number of an SA: sub-port `u`, `k` = channel × 4 + AN; channel 0 transmits, 1 + c receives on SC c. -/
def saId (u k : Nat) : Nat := u * 20 + k

def getSa (u k : Nat) (w : Wall) : Option Sa := tget w.sec.sas (saId u k)
def putSa (u k : Nat) (s : Sa) (w : Wall) : Wall := { w with sec := { w.sec with sas := tput w.sec.sas (saId u k) s } }
def delSa (u k : Nat) (w : Wall) : Wall := { w with sec := { w.sec with sas := tdel w.sec.sas (saId u k) } }

/-- Is an SA installed (and not waiting for its first reservation)? -/
def saInstalled (u k : Nat) (w : Wall) : Bool :=
  match getSa u k w with
  | some s => !s.pendingInstall
  | none => false

/-- SAs of one channel, those being installed counted. -/
def saCount (u ch : Nat) (w : Wall) : Nat := ((List.range 4).filter fun a => (getSa u (ch * 4 + a) w).isSome).length

def anySa (u : Nat) (w : Wall) : Bool := (List.range 20).any fun k => (getSa u k w).isSome

/-- RKEY of an SA's records (R481). -/
def saRkey (u k : Nat) : Nat := u + k / 4 * 2 ^ 9 + k % 4 * 2 ^ 12
/-- RKEY of a transmit reservation (R481). -/
def resRkey (u an : Nat) : Nat := u + an * 2 ^ 12

/-- The reservation block B (R447, R498). -/
def blockB (w : Wall) : Nat := 2 ^ w.get Reg.pnBlockLog2

/-- Are MACsec functions present: not in bare service (R140)? -/
def macsecOn (w : Wall) : Bool := !w.flag Reg.bare

/-- Body of a key-identifier record: KI 16 bytes, fingerprint 8, SSCI 4, RESERVED_END 8 (R481). -/
def kiBody (e : KiEntry) : Nat := e.ki + e.fp * 2 ^ 128 + e.ssci * 2 ^ 192 + e.reservedEnd * 2 ^ 224

/-- Commit a key-identifier entry, whose RESERVED_END a later reservation record of the same AN would hide (log entry 40). -/
def keepKi (i : Nat) (w : Wall) : Wall :=
  match tget w.sec.kis i with
  | some e => askRecord 0x43 i false [kiBody e] 3 .none w
  | none => w

/-- Remove an SA (R444): key gone, staged INSTALL clear, a durable record marked invalid. -/
def removeSa (u k : Nat) (w : Wall) : Wall :=
  match getSa u k w with
  | none => w
  | some s =>
    let w := ((delSa u k w).set (Reg.saState u k) 0).set (Reg.saInstall u k) 0
    let w := match s.ki with | some i => keepKi i w | none => w
    when s.durable (askRecord 0x41 (saRkey u k) true [0] 3 .none) w

/-- Every SA of a sub-port goes, as if each had been removed (R445). -/
def removeAllSas (u : Nat) (w : Wall) : Wall := upTo 20 (removeSa u) w

/-! ### Reservations (R448 to R451) -/

/-- Ask for a reservation sheaf: refused while the queue is closed or has no place (R490). -/
def askReservation (u an entry resEnd : Nat) (w : Wall) : Option Wall :=
  if w.bnd.queueShut ∨ 12 ≤ w.gra.queue.length ∨ w.sec.zeroising.isSome then none
  else
    let g := w.gra.genNext
    let items := groupOf 0x40 (resRkey u an) false [entry + resEnd * 2 ^ 64] 2 (.reservation (saId u an) resEnd) g (w.get Reg.granaryLayout)
    some { w with gra := { w.gra with genNext := g + 1, queue := w.gra.queue ++ items } }

/-- Event 0x0A02, once per SA per second (R450). -/
def stallEvent (u an : Nat) (w : Wall) : Wall :=
  let fire := match tget w.sec.stallS (saId u an) with
    | some t => decide (t + 800000000 ≤ w.time.tclk)
    | none => true
  if fire then
    raise 0 0x0A02 (u + an * 2 ^ 16) 15 { w with sec := { w.sec with stallS := tput w.sec.stallS (saId u an) w.time.tclk } }
  else w

/-- A transmit SA asks for its next block when less than half of one is left and no request is pending (R448);
without a working Granary the reservation advances by itself (R451). -/
def requestIfLow (u an : Nat) (w : Wall) : Wall :=
  match getSa u an w with
  | none => w
  | some s =>
    if s.want.isSome ∨ s.retry then w
    else if (s.reservedEnd : Int) - s.nextPn < (blockB w / 2 : Nat) then
      let e := min (s.reservedEnd + blockB w) (2 ^ 64 - 2)
      if granaryShut w then putSa u an { s with reservedEnd := e, stalled := false } w
      else
        let w := pulse 16 (4 + portOfSp u / 16) w
        match askReservation u an (s.ki.getD 0) e w with
        | some w => putSa u an { s with want := some e } w
        | none => putSa u an { s with retry := true } w
    else w

/-- Retry of a refused reservation request, every 100 µs while the SA is in use (R448). -/
def reservationRetry (u an : Nat) (w : Wall) : Wall :=
  match getSa u an w with
  | none => w
  | some s => if s.retry then requestIfLow u an (putSa u an { s with retry := false } w) else w

/-- State code of an installed transmit SA (R441). -/
def txState (u an : Nat) (s : Sa) (w : Wall) : Nat :=
  if s.pendingInstall then 0
  else if w.get (Reg.txEncodingAn u) ≠ an then 1
  else if 2 ^ 64 - 1 ≤ s.nextPn then 4
  else if s.stalled then 3
  else 2

def showSa (u k : Nat) (w : Wall) : Wall :=
  match getSa u k w with
  | none => w.set (Reg.saState u k) 0
  | some s => w.set (Reg.saState u k) (if k < 4 then txState u k s w else if s.pendingInstall then 0 else 1)

/-- The key-identifier entry's RESERVED_END and age after a reservation (R453, R454). -/
def noteKi (i resEnd : Nat) (w : Wall) : Wall :=
  let c := w.sec.kiClock + 1
  { w with sec := { w.sec with kiClock := c, kis := tupd w.sec.kis i fun e => { e with reservedEnd := resEnd, age := c } } }

/-- Send the response of an installation once nothing is outstanding (R442). -/
def finishInstall (u k : Nat) (w : Wall) : Wall :=
  match getSa u k w with
  | none => w
  | some s => if s.pendingInstall ∨ s.recordDue then w else releaseDeferred (.sa (saId u k)) 0 none w

/-- A reservation sheaf of an SA is committed in both banks (R448, R449, R450). -/
def reservationCommit (u an : Nat) (w : Wall) : Wall :=
  match w.gra.done.find? (fun a => match a with | .reservation i _ => i == saId u an | _ => false) with
  | some (.reservation i e) =>
    let w := { w with gra := { w.gra with done := w.gra.done.erase (.reservation i e) } }
    match getSa u an w with
    | none => w
    | some s =>
      let w := noteKi (s.ki.getD 4096) e w
      let w := putSa u an { s with reservedEnd := max s.reservedEnd e, want := none, stalled := false, pendingInstall := false } w
      finishInstall u an (showSa u an (requestIfLow u an w))
  | _ => w

/-! ### Key blobs and the register (R453, R454, R461) -/

structure Blob where
  form : Nat
  len : Nat
  bytes : List Byte

/-- A KEY_BLOB's form, key length and key bytes (R461). -/
def blobOf (l : List Byte) : Blob :=
  { form := (l.getD 0 0).toNat, len := (l.getD 1 0).toNat, bytes := l.drop 8 }

/-- The plain key of a blob, `none` when the unwrap fails. -/
def blobKey (b : Blob) (w : Wall) : Option (List Byte) :=
  if b.form = 0 then some (b.bytes.take b.len)
  else match tget w.sec.keks (b.form - 1) with
    | none => none
    | some kek => match Config.aesKwUnwrap (ofLe kek) (b.bytes.take (b.len + 8)) with
      | some k => if k.length = b.len then some k else none
      | none => none

/-- Is an entry used by an installed transmit SA? -/
def kiInUse (i : Nat) (w : Wall) : Bool := w.sec.sas.any fun e => e.2.ki == some i

inductive KiRes where
  | abort (code : Nat)
  | entry (i : Nat) (evict : Bool) (next : Nat)

/-- The lowest free entry. -/
def kiFree (w : Wall) : Option Nat := firstBelow 4096 fun i => (tget w.sec.kis i).isNone

/-- The entry, not in use, whose last reservation is oldest (R454). -/
def kiOldest (w : Wall) : Option Nat :=
  ((w.sec.kis.filter fun e => !kiInUse e.1 w).foldl (fun b e =>
    match b with
    | none => some (e.1, e.2.age)
    | some (i, a) => if e.2.age < a then some (e.1, e.2.age) else some (i, a)) (none : Option (Nat × Nat))).map (·.1)

/-- The key-identifier rules of R453. -/
def kiRules (ki fp ssci next : Nat) (w : Wall) : KiRes :=
  if w.sec.kis.any fun e => e.2.ki == ki && e.2.fp != fp then .abort aRange
  else
    match w.sec.kis.find? fun e => e.2.fp == fp && e.2.ssci == ssci with
    | some (i, e) => if kiInUse i w then .abort aState else .entry i false (max next (e.reservedEnd + 1))
    | none =>
      match kiFree w with
      | some i => .entry i false next
      | none =>
        if w.flag Reg.kiEvictAuto then
          match kiOldest w with
          | some i => .entry i true next
          | none => .abort aState
        else .abort aState

def putKi (i : Nat) (e : KiEntry) (w : Wall) : Wall :=
  let w := { w with sec := { w.sec with kis := tput w.sec.kis i e } }
  askRecord 0x43 i false [kiBody e] 3 .none (w.set Reg.kiUsed w.sec.kis.length)

/-- Bodies of a durable SA's two parts (R481). -/
def saBodies (u : Nat) (key : List Byte) (ki ssci salt : Nat) (w : Wall) : List Nat :=
  [ofLe ((Config.aesKwWrap (Config.storageKey 0) key).take 40) + w.get (Reg.cipher u) * 2 ^ 320 + 1 * 2 ^ 328,
   ki + ssci * 2 ^ 128 + salt * 2 ^ 160]

/-! ### Installation and removal (R442, R444) -/

/-- INSTALL := 1 on SA `k` of sub-port `u`, once the checks of R79 have passed. `plainOk`: this path may give a
plain key. -/
def installSa (u k : Nat) (plainOk : Bool) (w : Wall) : WRes :=
  if (getSa u k w).isSome ∨ 2 ≤ saCount u (k / 4) w then .abort aState
  else match tget w.sec.blobs (saId u k) with
    | none => .abort aRange
    | some (l, _) =>
      let b := blobOf l
      if b.form = 0 ∧ !plainOk then .abort aPath
      else match blobKey b w with
        | none => .abort aRange
        | some key =>
          let durable := w.flag (Reg.saDurable u k)
          let need := if w.get (Reg.cipher u) = 0 then 16 else 32
          if b.len ≠ need then .abort aRange
          else if durable ∧ granaryShut w then .abort aState
          else
            let ssci := w.get (Reg.saSsci u k)
            let salt := w.get (Reg.saSalt u k)
            let ki := w.get (Reg.saKi u k)
            let next := w.get (Reg.saNextPn u k)
            let base : Sa := { key := key, durable := durable, ki := none, salt := salt, ssci := ssci, nextPn := next,
                               reservedEnd := next - 1, want := none, retry := false, stalled := false, warned := false,
                               highest := next - 1, floor := next, pendingInstall := false, recordDue := durable }
            let record := fun (w : Wall) => when durable (askRecord 0x41 (saRkey u k) false (saBodies u key ki ssci salt w) 3 (.saRecord (saId u k))) w
            let w0 := w.set (Reg.saInstall u k) 1
            if 4 ≤ k then
              let w1 := record (showSa u k (putSa u k base w0))
              if durable then .later (.sa (saId u k)) w1 else .ok w1
            else match kiRules ki (Config.kiFingerprint salt key) ssci next w with
              | .abort c => .abort c
              | .entry i evict next =>
                let e := next + blockB w - 1
                let fresh (w : Wall) : Wall :=
                  let w := when evict (fun w => raise 0 0x0A04 i 15 (w.bump Reg.kiEvicted 1)) w
                  putKi i { ki := ki, fp := Config.kiFingerprint salt key, ssci := ssci, reservedEnd := e, age := w.sec.kiClock } w
                let sa := { base with ki := some i, nextPn := next, reservedEnd := next - 1 }
                if granaryShut w then
                  .ok (showSa u k (putSa u k { sa with reservedEnd := e } (fresh w0)))
                else match askReservation u k i e w0 with
                  | none => .abort aState
                  | some w1 => .later (.sa (saId u k)) (record (showSa u k (putSa u k { sa with want := some e, pendingInstall := true } (fresh w1))))

/-- INSTALL := 0 (R444). -/
def uninstallSa (u k : Nat) (w : Wall) : WRes :=
  if k < 4 ∧ (getSa u k w).isSome ∧ w.get (Reg.txEncodingAn u) = k then .abort aState else .ok (removeSa u k w)

/-- TX_ENCODING_AN (R443). -/
def setEncoding (u an : Nat) (w : Wall) : WRes :=
  if saInstalled u an w then
    let w := w.set (Reg.txEncodingAn u) an
    .ok (upTo 4 (fun a w => if (getSa u a w).isSome then showSa u a w else w) w)
  else .abort aState

/-- KEK_VALUE: form 0 and length 32 only; not in clear through the mailbox while APPROVED_ONLY is 1 (R460, R461). -/
def installKek (k : Nat) (mailbox : Bool) (l : List Byte) (w : Wall) : WRes :=
  let b := blobOf l
  if b.form ≠ 0 ∨ b.len ≠ 32 then .abort aRange
  else if mailbox ∧ w.flag Reg.approvedOnly then .abort aApproved
  else
    let key := b.bytes.take 32
    let w := { w with sec := { w.sec with keks := tput w.sec.keks k key } }
    let w := w.set (Reg.kekState k) 1
    .ok (askRecord 0x44 (0x1220 + k + 1 * 2 ^ 16) false (ledgerBodies (Config.aesKwWrap (Config.storageKey 0) key) 0) 3 (.kekRecord k) w)

def clearKek (k : Nat) (w : Wall) : Wall :=
  let w := { w with sec := { w.sec with keks := tdel w.sec.keks k } }
  askRecord 0x44 (0x1220 + k + 1 * 2 ^ 16) true [0] 3 (.kekRecord k) (w.set (Reg.kekState k) 0)

/-- KI_FORGET frees the entry with the written KI, unless an installed SA uses it (R454). -/
def forgetKi (ki : Nat) (w : Wall) : WRes :=
  match w.sec.kis.find? fun e => e.2.ki == ki with
  | none => .ok w
  | some (i, _) =>
    if kiInUse i w then .abort aState
    else
      let w := { w with sec := { w.sec with kis := tdel w.sec.kis i } }
      .ok (askRecord 0x43 i true [0] 3 .none (w.set Reg.kiUsed w.sec.kis.length))

/-! ### Transmit (R437, R438, R446, R448) -/

/-- EtherType of a frame. -/
def etherType (f : List Byte) : Nat := frameBe f 12 2

/-- EAPOL, or one of the two BYPASS_ETYPE entries in network order (R437). -/
def macsecBypass (u : Nat) (f : List Byte) (w : Wall) : Bool :=
  let t := etherType f
  let b := w.get (Reg.bypassEtype u)
  let e0 := b % 256 * 256 + b / 256 % 256
  let e1 := b / 65536 % 256 * 256 + b / 16777216 % 256
  t == 0x888E || (e0 != 0 && t == e0) || (e1 != 0 && t == e1)

inductive TxPlan where
  | clear
  | discard
  | stall
  | sa (an pn : Nat)

/-- What MACsec does with the next frame of a sub-port (R438, R441, R448). -/
def txPlan (u : Nat) (f : List Byte) (w : Wall) : TxPlan :=
  let pol := w.get (Reg.macsecPolicy u)
  if !macsecOn w ∨ pol = 0 ∨ macsecBypass u f w then .clear
  else
    let an := w.get (Reg.txEncodingAn u)
    match getSa u an w with
    | none => if pol = 2 then .discard else .clear
    | some s =>
      if s.pendingInstall then (if pol = 2 then .discard else .clear)
      else if 2 ^ 64 - 1 ≤ s.nextPn then .discard
      else if s.reservedEnd < s.nextPn then .stall
      else .sa an s.nextPn

/-- Take a PN for a frame (R448), with PN_WARN (R446) and exhaustion (R441). -/
def takePn (u an : Nat) (w : Wall) : Wall :=
  match getSa u an w with
  | none => w
  | some s =>
    let n := s.nextPn + 1
    let warn := !s.warned && decide (w.get (Reg.pnWarn u) ≤ n)
    let w := putSa u an { s with nextPn := n, warned := s.warned || warn } w
    let w := when warn (raise 0 0x0A01 (u + an * 2 ^ 16) 15) w
    showSa u an (requestIfLow u an w)

/-- A transmit SA stalls (R450): counted once per stall. -/
def enterStall (u an : Nat) (w : Wall) : Wall :=
  match getSa u an w with
  | none => w
  | some s =>
    if s.stalled then w
    else
      let w := (putSa u an { s with stalled := true } w).bump (Reg.txPnStalls u) 1
      stallEvent u an (showSa u an (requestIfLow u an w))

/-- `l` cut or zero-filled to `n` bytes. -/
def fit (n : Nat) (l : List Byte) : List Byte := (l ++ List.replicate n 0).take n

/-- The protected form of a frame without FCS: SecTAG after the addresses, secure data, ICV (R435). -/
def protectFrame (u an pn : Nat) (f : List Byte) (w : Wall) : List Byte :=
  match getSa u an w with
  | none => f
  | some s =>
    let sci := w.flag (Reg.includeSci u)
    let enc := w.flag (Reg.encrypt u)
    let data := f.drop 12
    let tci := (if sci then 0x20 else 0) + (if enc then 0x0C else 0) + an
    let sl := if data.length < 48 then data.length else 0
    let tag := toBe 2 0x88E5 ++ [BitVec.ofNat 8 tci, BitVec.ofNat 8 sl] ++ toBe 4 (pn % 2 ^ 32) ++
      (if sci then toLe 8 (w.get (Reg.txSci u)) else [])
    let conf := if enc then w.get (Reg.confOffset u) else 0xFF
    f.take 12 ++ tag ++ fit (data.length + 16) (Config.gcmProtect s.key s.salt s.ssci pn conf (f.take 12 ++ tag ++ data))

/-! ### Receive (R439) -/

inductive RxPlan where
  | pass (f : List Byte) (secured : Bool)
  | drop

/-- The SCI as a number with the layout of RX_SCI: first byte least significant. -/
def sciFrom (l : List Byte) : Nat := ofLe (l.take 8)

/-- Receive SC of a frame: by SCI, by the implied SCI of ES or SCB, otherwise SC 0 (R439). -/
def rxChannel (u : Nat) (f : List Byte) (tci : Nat) (w : Wall) : Option Nat :=
  let bySci (sci : Nat) := firstBelow 4 fun c => w.flag (Reg.rxScEnable (u * 4 + c)) && w.get (Reg.rxSci (u * 4 + c)) == sci
  if bit tci 5 then bySci (sciFrom (f.drop 20))
  else if bit tci 6 || bit tci 4 then bySci (sciFrom ((f.drop 6).take 6 ++ toBe 2 (if bit tci 4 then 0 else 1)))
  else if w.flag (Reg.rxScEnable (u * 4)) then some 0 else none

/-- Full PN from the 32 bits sent and the highest accepted PN (XPN). -/
def recoverPn (highest pn32 : Nat) : Nat :=
  let up := highest / 2 ^ 32
  (if pn32 < 2 ^ 31 ∧ 2 ^ 31 ≤ highest % 2 ^ 32 then up + 1 else up) * 2 ^ 32 + pn32

/-- A receive SA accepts a PN: the highest moves, and a durable mark is committed past a multiple of 2^32 (R452). -/
def acceptPn (u k pn : Nat) (w : Wall) : Wall :=
  match getSa u k w with
  | none => w
  | some s =>
    if pn ≤ s.highest then w
    else
      let w := putSa u k { s with highest := pn } w
      if s.durable ∧ s.highest / 2 ^ 32 < pn / 2 ^ 32 then
        askRecord 0x42 (saRkey u k) false [pn + 1] 3 .none (w.set (Reg.saReservedEnd u k) (pn + 1))
      else w

/-- MACsec receive processing of a frame without FCS (R437, R439): the frame that goes on, and the counts. -/
def macsecRx (u : Nat) (f : List Byte) (w : Wall) : RxPlan × Wall :=
  if !macsecOn w ∨ w.get (Reg.macsecPolicy u) = 0 then (.pass f false, w)
  else if macsecBypass u f w then (.pass f false, stat u 41 1 w)
  else
    let v := w.get (Reg.validate u)
    let tagged := etherType f == 0x88E5
    if v = 0 then
      -- Disabled: a tag is taken off where it can be, nothing is counted
      if tagged then
        let tci := (f.getD 14 0).toNat
        let n := if bit tci 5 then 28 else 20
        if bit tci 2 then (.drop, w) else (.pass (f.take 12 ++ ((f.drop n).take (f.length - n - 16))) false, w)
      else (.pass f false, w)
    else if !tagged then (if v = 2 then (.drop, stat u 37 1 w) else (.pass f false, stat u 37 1 w))
    else
      let tci := (f.getD 14 0).toNat
      let n := if bit tci 5 then 28 else 20
      let c := bit tci 2
      let plain := f.take 12 ++ ((f.drop n).take (f.length - n - 16))
      let sl := (f.getD 15 0).toNat
      let bad := bit tci 7 || (bit tci 5 && (bit tci 6 || bit tci 4)) || (bit tci 3 && !c) || decide (48 ≤ sl) ||
        decide (f.length < n + 16) || frameBe f 16 4 == 0
      if bad then (.drop, stat u 39 1 w)
      else
        let unsure : RxPlan := if v = 2 ∨ c then .drop else .pass plain false
        match rxChannel u f tci w with
        | none => (unsure, stat u 38 1 w)
        | some ch =>
          let k := (1 + ch) * 4 + tci % 4
          match getSa u k w with
          | none => (unsure, stat u 38 1 w)
          | some s =>
            if s.pendingInstall then (unsure, stat u 38 1 w)
            else
              let pn := recoverPn s.highest (frameBe f 16 4)
              let low := max s.floor (s.highest + 1 - w.get (Reg.replayWindow u))
              if w.flag (Reg.replayProtect u) ∧ pn < low then (.drop, stat u 40 1 w)
              else
                let conf := if c then w.get (Reg.confOffset u) else 0xFF
                match Config.gcmValidate s.key s.salt s.ssci pn conf f with
                | none => (unsure, stat u 39 1 w)
                | some d => (.pass (f.take 12 ++ fit (f.length - n - 16) d) true, stat u 36 1 (acceptPn u k pn w))

/-! ### Zeroisation (R471, R502) -/

/-- Every key held outside the Granary goes; zeroisation is under way with its cause. -/
def dropKeys (cause : Nat) (w : Wall) : Wall :=
  { w with sec := { w.sec with sas := [], blobs := [], keks := [], deviceKey := none, zeroising := some cause } }

/-- Queued key-class sheaves are discarded. -/
def dropKeySheaves (w : Wall) : Wall :=
  { w with gra := { w.gra with
      queue := w.gra.queue.filter fun c => !isKeyType c.sheaf.type
      waiting := w.gra.waiting.filter fun c => !isKeyType c.sheaf.type
      done := w.gra.done.filter fun a => match a with | .store _ => true | _ => false } }

/-- The objects of every security association read their defaults. -/
def dropSaObjects (w : Wall) : Wall :=
  { w with regs := tfilter w.regs fun key _ => !(decide (0x7000 * 256 ≤ key) && decide (key < 0x8000 * 256) && decide (16 ≤ key % 256)) }

/-- Zeroise the engines and the Reeve's keys at once (R471, first row): engine keys, KEKs, DRBG state and the
device key; queued key-class sheaves are discarded, and the marker goes to both headers unless an inhibit holds. -/
def zeroiseEngines (cause : Nat) (w : Wall) : Wall :=
  let w := dropKeySheaves (dropKeys cause w)
  let w := dropSaObjects (upTo 4 (fun k w => w.set (Reg.kekState k) 0) w)
  if w.bnd.inhibit then w else writeHeaders (fun h => { h with marker := some cause }) w

/-- Rows of the key partition: of class key, or free with last class key (R502). -/
def keyRows (w : Wall) : List Nat := (w.gra.rows.filter fun e => e.2.key).map (·.1)

/-- No key identifier is held, and no zeroisation is under way. -/
def dropKis (w : Wall) : Wall := { w with sec := { w.sec with kis := [], zeroising := none } }

/-- The ember latch of ZEROISE is cleared (R42). -/
def clearZeroLatch (w : Wall) : Wall := { w with bnd := { w.bnd with zeroLatch := false } }

/-- The Granary steps of zeroisation end (R471, R502): the key partition overwritten twice and read back, its rows
free with last class general, the marker and the ember latch cleared, ZEROISE_COUNT and SEALED_CAUSE. -/
def zeroiseGranary (cause : Nat) (w : Wall) : Wall :=
  let w := (keyRows w).foldl (fun w r =>
    setRow r { rowAt r (eraseRow r w) with state := .free, key := false, used := 0, cycles := (rowAt r w).cycles + 2 } (eraseRow r w)) w
  let w := writeHeaders (fun h => { h with marker := none, zeroiseCount := h.zeroiseCount + 1 }) w
  let w := w.bump Reg.zeroiseCount 1
  let w := clearZeroLatch (dropKis w)
  commitReg Reg.sealedCause 1 ((w.set Reg.kiUsed 0).set Reg.sealedCause cause)

/-- SERVICE is approved (R459). -/
def approvedMode (w : Wall) : Bool :=
  w.sec.testsPassed && ((List.range 8).any fun k => w.get (Reg.credRole k) == 2 && w.flag (Reg.credPubkey k)) &&
  w.flag Reg.approvedOnly && !granaryShut w

end Sys2Proof.Machine
end

