-- ==== Sys2Proof/Machine/Lanes.lean ====
section
/-! DEFINITION. Lanes: their states, categories and maps (R167, R213), groups (R253, R254), the receive
equaliser (R162), PRBS tests and eye scans (R199 to R205), and the field lanes (R206 to R208). -/

namespace Sys2Proof.Machine

/-! ### Lanes, groups and their accessors -/

def bareSvc (w : Wall) : Bool := w.flag Reg.bare

def LaneRt.init : LaneRt :=
  { seed := 0, peerSeed := 0, heard := false, peerHeard := false, peerRates := 0, lastMsg := [], sameMsgs := 0,
    goodRun := 0, badRun := 0, readySent := false, txPam4 := false, rxPam4 := false, rxReady := false,
    peerRxReady := 0, txData := false, lockedOnce := false, testFrom := none, eyeCtrl := 0, eyeStartS := 0,
    retestFails := 0, retesting := false, pair := none, freeSeen := false, trained := none }

def Wall.lane (w : Wall) (l : Nat) : LaneRt := tgetD w.lan.lanes l LaneRt.init
def Wall.setLane (w : Wall) (l : Nat) (r : LaneRt) : Wall := { w with lan := { w.lan with lanes := tput w.lan.lanes l r } }
def Wall.modLane (w : Wall) (l : Nat) (f : LaneRt → LaneRt) : Wall := w.setLane l (f (w.lane l))

def GroupRt.init : GroupRt :=
  { exch := 0, led := 0, leader := false, accepted := none, rate := 0, fails := 0, held10s := false, activeAt := 0 }

/-- Key of a group's run-time record: sub-ports 0 to 511, then lanes training alone. -/
def grpKey : Group → Nat
  | .sub sp => sp.val
  | .alone l => 512 + l.val

def Wall.grp (w : Wall) (g : Group) : GroupRt := tgetD w.lan.groups (grpKey g) GroupRt.init
def Wall.setGrp (w : Wall) (g : Group) (r : GroupRt) : Wall := { w with lan := { w.lan with groups := tput w.lan.groups (grpKey g) r } }

/-- Width in force of a sub-port, its state, and the lanes' state of its group. -/
def spWidthOf (sp : Nat) (w : Wall) : Nat := w.get (Reg.widthInUse (sp / 8) (sp % 8))
def spSt (sp : Nat) (w : Wall) : Nat := w.get (Reg.spState (sp / 8) (sp % 8))
/-- Set SP_STATE; out of active and survey, the tally window shows NOT_ACTIVE (R607). -/
def setSpSt (sp v : Nat) (w : Wall) : Wall :=
  when (v != 2 && v != 4) (modTally sp fun t => { t with notActive := true }) (w.set (Reg.spState (sp / 8) (sp % 8)) v)
def spGrpSt (sp : Nat) (w : Wall) : Nat := w.get (Reg.bringupState (sp / 8) (sp % 8))

/-- Lane roles of a sub-port (R254). -/
def spRoles (sp : Nat) (w : Wall) : List Nat := (List.range (spWidthOf sp w)).map (2 * (sp % 8) + ·)

/-- Does a sub-port's composition include a role? -/
def hasRole (sp r : Nat) (w : Wall) : Bool :=
  decide (2 * (sp % 8) ≤ r) && decide (r < 2 * (sp % 8) + spWidthOf sp w)

/-- The sub-port of a port that a role belongs to. -/
def spOfRole (p r : Nat) (w : Wall) : Option Nat := (firstBelow 8 fun s => hasRole (p * 8 + s) r w).map (p * 8 + ·)

/-- The lane assigned to a role. -/
def laneOf (p r : Nat) (w : Wall) : Nat := w.get (Reg.roleLane p r)

/-- Lanes of a group. -/
def groupLanes : Group → Wall → List Nat
  | .sub sp, w => (spRoles sp.val w).map fun r => laneOf (sp.val / 8) r w
  | .alone l, _ => [l.val]

/-- State of a group (R167). -/
def groupSt : Group → Wall → Nat
  | .sub sp, w => spGrpSt sp.val w
  | .alone l, w => w.get (Reg.laneState l.val)

def laneUseOf (l : Nat) (w : Wall) : Nat := w.get (Reg.laneUse l)
def laneSt (l : Nat) (w : Wall) : Nat := w.get (Reg.laneState l)

/-- The sub-port whose group a lane is in, when it serves one of its roles. -/
def spOfLane (l : Nat) (w : Wall) : Option Nat :=
  let v := w.get (Reg.serves l)
  if laneUseOf l w = 0 ∧ v ≠ 0xFFFF then spOfRole (v / 16) (v % 16) w else none

/-- The group a lane is in: its sub-port's, or itself alone. -/
def laneGroup (l : Lane) (w : Wall) : Group :=
  match spOfLane l.val w with
  | some sp => if h : sp < 512 then .sub ⟨sp, h⟩ else .alone l
  | none => .alone l

/-- Role under which a lane trains: its role, or 0 alone (R216). -/
def laneRole (l : Nat) (w : Wall) : Nat := match spOfLane l w with | some _ => w.get (Reg.serves l) % 16 | none => 0

/-! ### Categories (R213, R214) -/

/-- Give a lane a category; the three maps of its brick follow. -/
def setUse (l c : Nat) (w : Wall) : Wall :=
  let b := brickOfLane l
  let n := l % 68
  let upd (v : Nat) (on : Bool) : Nat := if on then setBit v n else clrBit v n
  let w := w.set (Reg.laneUse l) c
  let w := w.set (Reg.poolMap b) (upd (w.get (Reg.poolMap b)) (c == 1))
  let w := w.set (Reg.heldMap b) (upd (w.get (Reg.heldMap b)) (c == 2))
  w.set (Reg.retiredMap b) (upd (w.get (Reg.retiredMap b)) (c == 3 || c == 5))

/-- An eye scan ends in the aborted state, and steward source 57 latches (R202, R586). -/
def eyeEnd (l st : Nat) (w : Wall) : Wall := latch (brickOfLane l) 57 (w.set (Reg.eyeState l) st)

/-- A scan runs or is suspended. -/
def eyeOn (l : Nat) (w : Wall) : Bool := w.get (Reg.eyeState l) == 1 || w.get (Reg.eyeState l) == 3

/-- Move a lane to a state of R167: a receiver that is powered down shows no signal and no lock, and a scan on a
lane that leaves ACTIVE, QUIET and TEST is aborted (R202). -/
def setLaneSt (l st : Nat) (w : Wall) : Wall :=
  let w := w.set (Reg.laneState l) st
  let w := when (st == 0 || st == 7 || st == 12) (fun w => (w.set (Reg.signalDetect l) 0).set (Reg.cdrLocked l) 0) w
  let w := w.modLane l fun r => { r with lockedOnce := false }
  when (eyeOn l w && !(st == 6 || st == 9 || st == 13)) (eyeEnd l 4) w

/-- Put every lane of a group, and the group, in a state. -/
def setGroupSt (g : Group) (st : Nat) (w : Wall) : Wall :=
  let w := (groupLanes g w).foldl (fun w l => setLaneSt l st w) w
  match g with
  | .sub sp => w.set (Reg.bringupState (sp.val / 8) (sp.val % 8)) st
  | .alone _ => w

/-! ### Pool lanes (R215 to R217) -/

/-- Does a lane's reach include a port (R215)? -/
def reaches (l p : Nat) (w : Wall) : Bool :=
  let n := l % 68
  brickOfLane l == brickOfPort p &&
  (if n < 64 then n / 16 == p % 4 else bit (w.get (Reg.spareReach (brickOfLane l) (n - 64))) (p % 4))

/-- Does an exchange use this lane as its spare? -/
def exchHolds (l : Nat) (w : Wall) : Bool := w.lan.exchs.any fun e => e.2.spare == l

/-- Does a survey hold this lane, as the lane surveyed or as the spare in its place? -/
def surveying (l : Nat) (w : Wall) : Bool := w.lan.surveys.any fun e => e.1 == l || (e.2.spare == l && e.2.role.isSome)

/-- A pool lane in SPARE that has heard FREE and that no exchange holds (R217), whatever its rate. -/
def poolIdle (l : Nat) (w : Wall) : Bool :=
  laneUseOf l w == 1 && laneSt l w == 10 && (w.lane l).freeSeen && !exchHolds l w

/-- A pool lane is free for a port at a rate (R217). -/
def freeFor (l p rate : Nat) (w : Wall) : Bool := poolIdle l w && reaches l p w && (w.lane l).trained == some rate

/-- Lanes of a brick by local number. -/
def brickLanes (b : Nat) : List Nat := (List.range 68).map (b * 68 + ·)

/-- Free pool lanes of a port at a rate, lowest local number first. -/
def freeList (p rate : Nat) (w : Wall) : List Nat := (brickLanes (brickOfPort p)).filter fun l => freeFor l p rate w

/-- POOL_FREE: pool lanes in SPARE and not held by an exchange (R250). -/
def poolFreeCount (b : Nat) (w : Wall) : Nat :=
  ((brickLanes b).filter fun l => laneUseOf l w == 1 && laneSt l w == 10 && !exchHolds l w).length

/-! ### Equaliser, swing and entry to DETECT (R162, R163, R176, R211, R246) -/

/-- Index of the greatest number of a list, the lowest index on a tie. -/
def argMax (l : List Nat) : Nat :=
  (l.zipIdx.foldl (fun (best : Nat × Nat) e => if best.1 < e.1 then (e.1, e.2) else best) (l.headD 0, 0)).2

/-- The code the two sweeps of R162 choose from the eye heights measured. -/
def sweepCode (coarse fine : List Nat) : Nat :=
  let best := 4 * argMax (coarse.take 10)
  let lo := best - 3
  lo + argMax (fine.take (min 36 (best + 3) + 1 - lo))

/-- CTLE code of a training lane (R162, R176, R246). -/
def trainCode (l : Nat) (coarse fine : List Nat) (w : Wall) : Nat :=
  if bareSvc w then 16
  else if w.get (Reg.ctleOverride l) ≠ 255 then w.get (Reg.ctleOverride l)
  else (max 0 (min 36 ((sweepCode coarse fine : Nat) + w.getI (Reg.ctleBias l)))).toNat

/-- TX_SWING of a lane at DETECT (R176, R211, R246). -/
def trainSwing (l : Nat) (w : Wall) : Nat :=
  if bareSvc w then 10
  else if w.get (Reg.txSwingOverride l) ≠ 255 then w.get (Reg.txSwingOverride l) else w.get (Reg.swingPlan l)

/-- A lane takes the settings written since its last DETECT or TEST entry (R211). -/
def takeSettings (l : Nat) (w : Wall) : Wall :=
  let w := w.set (Reg.txSwing l) (trainSwing l w)
  w.set (Reg.rxInverted l) (if w.get (Reg.rxPolarity l) = 2 then 1 else 0)

/-- Rates a group offers in HELLO (R176, R182), or the one rate of a lane alone (R216). -/
def offered (g : Group) (w : Wall) : Nat :=
  if bareSvc w then 2
  else match g with
    | .sub sp => 7 / 2 ^ w.get (Reg.laneRate (sp.val / 8)) * 2 ^ w.get (Reg.laneRate (sp.val / 8))
    | .alone l => 2 ^ w.get (Reg.spareRate (brickOfLane l.val))

/-- A lane enters DETECT (R168, R180, R181, R211) with its group's SEED. -/
def laneDetect (g : Group) (seed l : Nat) (w : Wall) : Wall :=
  let w := takeSettings l (setLaneSt l 1 w)
  let w := match g with
    | .sub sp => w.set (Reg.cdrBw l) (w.get (Reg.cdrBwDefault (sp.val / 8)))
    | .alone _ => w
  let old := w.lane l
  let w := w.setLane l { LaneRt.init with
    seed := seed, testFrom := old.testFrom, eyeCtrl := old.eyeCtrl, eyeStartS := old.eyeStartS,
    retestFails := old.retestFails, retesting := old.retesting }
  match g with
  | .sub _ => if h : l < 1088 then w.emit (.hello ⟨l, h⟩ (offered g w) (laneRole l w) seed) else w
  | .alone l => w.emit (.hello l (offered g w) 0 seed)

/-- A random non-zero SEED (R181). -/
def drawSeed (w : Wall) : Nat × Wall := (1 + w.free % (2 ^ 32 - 1), w.took)

/-- A pool or held lane trains alone from DETECT (R216). -/
def detectAlone (l : Nat) (w : Wall) : Wall :=
  if h : l < 1088 then let sw := drawSeed w; laneDetect (.alone ⟨l, h⟩) sw.1 l sw.2 else w

/-! ### PRBS and TEST (R199 to R201) -/

/-- TEST_ENABLE := 1 on a DISABLED or RETIRED lane (R199, R211, R213). -/
def testStart (l : Nat) (w : Wall) : WRes :=
  let st := laneSt l w
  if st = 0 ∨ st = 12 then
    let use := laneUseOf l w
    let w := w.modLane l fun r => { r with testFrom := some (st, use) }
    let w := setUse l (if use = 3 then 5 else if use = 0 then 4 else use) w
    let w := takeSettings l (setLaneSt l 13 w)
    let w := w.set (Reg.ctleCode l) (if w.get (Reg.ctleOverride l) = 255 then 16 else w.get (Reg.ctleOverride l))
    .ok (w.set (Reg.testEnable l) 1)
  else if st = 13 then .ok w
  else .abort aState

/-- TEST_ENABLE := 0 returns the lane to the state it left (R199). -/
def testStop (l : Nat) (w : Wall) : Wall :=
  let w := w.set (Reg.testEnable l) 0
  match (w.lane l).testFrom with
  | some (st, use) =>
    let w := w.modLane l fun r => { r with testFrom := none }
    (setUse l use (setLaneSt l st w)).set (Reg.prbsLock l) 0
  | none => w

def prbsClear (l : Nat) (w : Wall) : Wall := (w.set (Reg.prbsBits l) 0).set (Reg.prbsErrors l) 0

/-- The checker gains lock, or loses it having checked some bits and found some errors while locked (R201). -/
def prbsCheck (l : Nat) (gained : Bool) (bits errors : Nat) (w : Wall) : Wall :=
  if laneSt l w = 13 ∧ w.get (Reg.prbsRx l) % 4 ≠ 0 then
    let w := when (w.flag (Reg.prbsLock l)) (fun w => (w.bump (Reg.prbsBits l) bits).bump (Reg.prbsErrors l) errors) w
    w.setB (Reg.prbsLock l) gained
  else w

/-! ### Eye scans (R202 to R205) -/

/-- Lane rate code in use: of its group, of TEST, or the rate a pool lane trained at. -/
def laneRateOf (l : Nat) (w : Wall) : Nat :=
  if laneSt l w = 13 then w.get (Reg.testRate l)
  else match spOfLane l w with
    | some sp => if h : sp < 512 then (w.grp (.sub ⟨sp, h⟩)).rate else 0
    | none => (w.lane l).trained.getD 0

/-- A write to EYE_CTRL starts a scan on a lane in ACTIVE, QUIET or TEST (R202, R203). -/
def eyeStart (l v : Nat) (w : Wall) : WRes :=
  let eye := bits v 1 0
  let dw := bits v 7 2
  if 2 ^ 11 ≤ v then .abort aReserved
  else if eye = 3 then .abort aReserved
  else if dw < 20 ∨ 40 < dw ∨ (laneRateOf l w = 2 ∧ eye ≠ 0) then .abort aRange
  else if laneSt l w = 6 ∨ laneSt l w = 9 ∨ laneSt l w = 13 then
    let t := if w.flag Reg.timeValid then w.wallT.toNat / 16000000000 else 0
    .ok ((w.modLane l fun r => { r with eyeCtrl := v, eyeStartS := t }).set (Reg.eyeState l) 1)
  else .abort aState

/-- Grid sizes of a scan (R203, R204). -/
def eyeH (ctrl : Nat) : Nat := 64 / 2 ^ bits ctrl 9 8
def eyeV : Nat := 61

/-- Length of the run of passing points around the middle one: points at or below, then above. -/
def runLen : List Bool → Nat
  | true :: l => 1 + runLen l
  | _ => 0
def runAround (ok : Nat → Bool) (mid n : Nat) : Nat :=
  let down := runLen ((List.range (mid + 1)).map fun i => ok (mid - i))
  let up := runLen ((List.range (n - 1 - mid)).map fun i => ok (mid + 1 + i))
  if down = 0 then 0 else down + up

/-- Header of EYE_MAP (R205). -/
def eyeHeader (l : Nat) (r : LaneRt) (w : Wall) : List Byte :=
  toLe 2 (eyeH r.eyeCtrl) ++ toLe 2 eyeV ++ [BitVec.ofNat 8 (bits r.eyeCtrl 1 0), BitVec.ofNat 8 (bits r.eyeCtrl 7 2),
    BitVec.ofNat 8 (bits r.eyeCtrl 9 8), BitVec.ofNat 8 (laneRateOf l w)] ++ toLe 8 r.eyeStartS

/-- A scan finishes its grid (R204, R205): the counts come in order of rising v and, within each v, of rising h;
the margins are the widths of the passing runs on the row v = 0 and the column h = 0. -/
def eyeDone (l : Nat) (counts : List Nat) (w : Wall) : Wall :=
  if w.get (Reg.eyeState l) ≠ 1 then w
  else
    let r := w.lane l
    let nh := eyeH r.eyeCtrl
    let step := 2 ^ bits r.eyeCtrl 9 8
    let cnt (h v : Nat) : Nat := min (counts.getD (v * nh + h) 0) 0xFFFFFFFF
    let ok (h v : Nat) : Bool := decide (cnt h v * 10 ^ w.get (Reg.eyeBerExp l) ≤ 2 ^ bits r.eyeCtrl 7 2)
    let hm := runAround (fun h => ok h 30) (32 / step) nh * step
    let vm := runAround (fun v => ok (32 / step) v) 30 eyeV * 4
    let pts := if bit r.eyeCtrl 10
      then ((List.range nh).map fun h => cnt h 30) ++ (((List.range eyeV).filter (· ≠ 30)).map fun v => cnt (32 / step) v)
      else (List.range (nh * eyeV)).map fun i => cnt (i % nh) (i / nh)
    let w := (w.set (Reg.eyeHMargin l) hm).set (Reg.eyeVMargin l) vm
    let w := putDom ((0x6000 + l) * 256 + 0x1E) (eyeHeader l r w ++ (pts.map (toLe 4)).flatten) w
    eyeEnd l 2 w

/-- A suspended scan resumes at the same point (R198). -/
def eyeResume (l : Nat) (w : Wall) : Wall := if w.get (Reg.eyeState l) = 3 then w.set (Reg.eyeState l) 1 else w
/-- A scan suspended for 1 s is aborted (R198). -/
def eyeAbort (l : Nat) (w : Wall) : Wall := if w.get (Reg.eyeState l) = 3 then eyeEnd l 4 w else w
/-- Acquisition starts: a running scan is suspended (R198). -/
def eyeSuspend (l : Nat) (w : Wall) : Wall := if w.get (Reg.eyeState l) = 1 then w.set (Reg.eyeState l) 3 else w

/-! ### Field lanes (R206 to R208) -/

def fieldUpReg (f : Nat) : Reg := if f = 0 then Reg.f0Up else Reg.f1Up
def fieldDownsReg (f : Nat) : Reg := if f = 0 then Reg.f0Downs else Reg.f1Downs

/-- An up or down move: one Daybook entry and the field-link source of the Reeve (R207, R616). -/
def fieldMove (f : Nat) (up : Bool) (w : Wall) : Wall :=
  latch 16 (53 + f) (daybook 0 0x0E04 (f + b2n up * 2 ^ 8) (w.setB (fieldUpReg f) up))

/-- Modes in which an enabled field lane runs (R207). -/
def fieldRuns (m : Mode) : Bool := m == .service || m == .doze || m == .sealedMode || m == .kindle

def fieldUp (f : Nat) (m : Mode) (w : Wall) : Wall :=
  if fieldRuns m && bit (w.get Reg.fEnable) f && !w.flag (fieldUpReg f) && !w.bnd.clocksStopped && !w.bnd.fetchDue
  then fieldMove f true w else w

/-- Block lock is lost. -/
def fieldDown (f : Nat) (w : Wall) : Wall :=
  if w.flag (fieldUpReg f) then fieldMove f false (w.bump (fieldDownsReg f) 1) else w

/-- Both field lanes restart after a write of F_RATE, F_FEC or F_POLARITY, or of F_ENABLE (R208, R212). -/
def fieldRestart (w : Wall) : Wall := fieldDown 1 (fieldDown 0 w)

end Sys2Proof.Machine
end

