-- ==== Sys2Proof/Machine/Rings.lean ====
section
/-! DEFINITION. Host rings: the ring blocks, read tags, descriptor fetch, write-backs and completions (R512 to
R541). A transmit ring has key `i`, a receive ring key 256 + `i`. -/

namespace Sys2Proof.Machine

/-! ### Ring blocks (R15, R514) -/

def ringKey : RingDir → Nat → Nat
  | .tx, i => i
  | .rx, i => 256 + i

/-- Offset of a ring's block in the host window (R15). -/
def ringBlk (k : Nat) : Nat := if k < 256 then 0x100000 + k * 0x1000 else 0x200000 + (k - 256) * 0x1000

def ringCtrl (k : Nat) (w : Wall) : Nat := w.win32 (ringBlk k + 0x0C) 0
def ringOn (k : Nat) (w : Wall) : Bool := bit (ringCtrl k w) 0
def ringBase (k : Nat) (w : Wall) : Nat := w.win64 (ringBlk k)
def ringSize (k : Nat) (w : Wall) : Nat := 2 ^ (w.win32 (ringBlk k + 0x08) 3 % 32)
def ringTail (k : Nat) (w : Wall) : Nat := w.win32 (ringBlk k + 0x40) 0
def ringHead (k : Nat) (w : Wall) : Nat := w.win32 (ringBlk k + 0x44) 0
/-- RUNNING, STOPPED, ERROR, CFG_REFUSED and ERR_CAUSE; STOPPED is 1 at reset. -/
def ringStatus (k : Nat) (w : Wall) : Nat := w.win32 (ringBlk k + 0x20) 2
def setRingStatus (k v : Nat) (w : Wall) : Wall := w.setWin (ringBlk k + 0x20) 2 v
def ringRuns (k : Nat) (w : Wall) : Bool := bit (ringStatus k w) 0
def bump64 (off n : Nat) (w : Wall) : Wall := w.setWin64 off ((w.win64 off + n) % 2 ^ 64)

def RingRt.init : RingRt :=
  { fetchAt := 0, held := [], reading := false, dataFor := [], feeds := 0, tooLong := none, done := [], dozeTail := none, due := [] }
def Wall.ring (w : Wall) (k : Nat) : RingRt := tgetD w.hst.rings k RingRt.init
def Wall.setRing (w : Wall) (k : Nat) (r : RingRt) : Wall := { w with hst := { w.hst with rings := tput w.hst.rings k r } }

/-- The descriptors the wall owns and has not fetched (R513). -/
def unfetched (k : Nat) (w : Wall) : Nat := (ringTail k w + ringSize k w - (w.ring k).fetchAt) % ringSize k w

/-- The ring stops with ERROR set (R514, R535, R536, R549): host-side source 24 or 25. -/
def ringError (k cause : Nat) (w : Wall) : Wall :=
  let st := ringStatus k w
  latch 17 (if k < 256 then 24 else 25) (setRingStatus k (st % 16 / 8 * 8 + 4 + st % 4 / 2 * 2 + cause * 16) w)

/-! ### Mortar writes and reads (R51, R52) -/

/-- Write bytes to host memory in posted writes of at most 256 bytes. -/
def hostWrite : Nat → Nat → List Byte → Wall → Wall
  | 0, _, _, w => w
  | _ + 1, _, [], w => w
  | n + 1, a, l, w => hostWrite n (a + 256) (l.drop 256) (w.emit (.mortarWrite a (l.take 256)))

def writeHost (a : Nat) (l : List Byte) (w : Wall) : Wall := hostWrite (l.length + 1) a l w

/-- A buffer as reads of at most 512 bytes that cross no 4 KiB boundary (R51, R520). -/
def readPieces : Nat → Nat → Nat → List (Nat × Nat)
  | 0, _, _ => []
  | _ + 1, _, 0 => []
  | n + 1, a, len =>
    let m := min len (min 512 (4096 - a % 4096))
    (a, m) :: readPieces n (a + m) (len - m)

def freeTags (w : Wall) : Nat := 512 - w.bnd.tags.length

/-- Issue one read under the lowest free tag. -/
def issueRead (u : ReadUse) (a len : Nat) (w : Wall) : Wall :=
  match firstBelow 512 fun t => (tget w.bnd.tags t).isNone with
  | none => w
  | some t =>
    let w := { w with bnd := { w.bnd with tags := tput w.bnd.tags t (.out u) } }
    (w.bump Reg.tagsOut 1).emit (.mortarRead t a len)

def issueReads (u : ReadUse) (l : List (Nat × Nat)) (w : Wall) : Wall := l.foldl (fun w p => issueRead u p.1 p.2 w) w

/-- Free the tags of a use whose last beat has come. -/
def freeUse (u : ReadUse) (w : Wall) : Wall :=
  let n := (w.bnd.tags.filter fun e => e.2 == TagState.out u).length
  { w with bnd := { w.bnd with tags := tfilter w.bnd.tags fun _ t => t != TagState.out u } }.set Reg.tagsOut (w.get Reg.tagsOut - n)

/-! ### Descriptors (R521, R531) -/

def dAddr (d : Nat) : Nat := d % 2 ^ 64
def dLen (d : Nat) : Nat := bits d 79 64
def dEop (d : Nat) : Bool := bit d 80
def rxDescOk (d : Nat) : Bool := dAddr d % 64 == 0 && decide (64 ≤ dLen d) && decide (dLen d ≤ 16384) && dLen d % 64 == 0

/-- Buffer space in a list of receive descriptors (R531). -/
def rxRoom (l : List (Nat × Nat)) : Nat := (l.map fun e => if rxDescOk e.2 then dLen e.2 else 0).sum

/-! ### Completion (R513, R518, R528, R539) -/

/-- Advance RING_HEAD over the contiguous completed descriptors. -/
def advance (size : Nat) : Nat → Nat → List Nat → Nat × List Nat
  | 0, h, l => (h, l)
  | n + 1, h, l => if h ∈ l then advance size n ((h + 1) % size) (l.erase h) else (h, l)

/-- Descriptors of a ring are completed: RING_HEAD, its host copy, and the counters (R514, R518). -/
def ringAdvance (k : Nat) (idx : List Nat) (w : Wall) : Wall :=
  let r := w.ring k
  let all := r.done ++ idx
  let hd := advance (ringSize k w) all.length (ringHead k w) all
  let w := (w.setRing k { r with done := hd.2 }).setWin (ringBlk k + 0x44) 0 hd.1
  when (bit (ringCtrl k w) 2) (writeHost (w.win64 (ringBlk k + 0x10)) (toLe 4 hd.1)) w

/-- One completion: its frame and bytes counted, and one event for the ring's vector (R539). -/
def ringCount (k len : Nat) (drop : Bool) (w : Wall) : Wall :=
  let w := bump64 (ringBlk k + 0x58) len (bump64 (ringBlk k + 0x50) 1 w)
  let w := when drop (bump64 (ringBlk k + 0x60) 1) w
  when (bit (ringCtrl k w) 1) (vecEvent (bits (ringCtrl k w) 11 4)) w

/-- Descriptor indices of a frame. -/
def idxs (size first count : Nat) : List Nat := (List.range count).map fun j => (first + j) % size

/-- Transmit write-back over a frame's EOP descriptor (R527). -/
def txWriteBack (k first count desc status len stamp value : Nat) (w : Wall) : Wall :=
  let v := stamp % 2 ^ 96 + value % 2 ^ 64 * 2 ^ 96 + len % 2 ^ 16 * 2 ^ 160 + status * 2 ^ 176 +
    bits desc 215 192 * 2 ^ 192 + 2 ^ 255
  writeHost (ringBase k w + 32 * ((first + count - 1) % ringSize k w)) (toLe 32 v) w

/-- A transmit frame is written back and its descriptors completed (R528). -/
def txComplete (k first count desc status len stamp value : Nat) (w : Wall) : Wall :=
  let w := txWriteBack k first count desc status len stamp value w
  ringCount k len (status != 0) (ringAdvance k (idxs (ringSize k w) first count) w)

/-! ### Binding (R519, R546) -/

/-- The sub-port a transmit ring feeds. -/
def boundSp (i : Nat) (w : Wall) : Option Nat := firstBelow 512 fun sp => bit (w.get (Reg.txRings sp)) i
/-- The sub-port in mill whose transmit or receive Mill ring this is. -/
def millTxOf (i : Nat) (w : Wall) : Option Nat :=
  firstBelow 512 fun sp => w.get (Reg.millState sp) != 0 && w.get (Reg.millTxRing sp) == i
def millRxOf (i : Nat) (w : Wall) : Option Nat :=
  firstBelow 512 fun sp => w.get (Reg.millState sp) != 0 && w.get (Reg.millRxRing sp) == i
/-- The Mill of a brick is fed while it runs or is held by the receive side (R546, R548, R552). -/
def millFed (sp : Nat) (w : Wall) : Bool := w.get (Reg.millState sp) == 1 || w.get (Reg.millState sp) == 3

/-! ### The host partition (R364, R520) -/

def hostSize (p : Nat) (w : Wall) : Nat := tgetD w.egr.hostChunks p 4096
def hostOcc (p : Nat) (w : Wall) : Nat := tgetD w.egr.hostOcc p 0
def addHostOcc (p n : Nat) (w : Wall) : Wall := { w with egr := { w.egr with hostOcc := tputD w.egr.hostOcc p 0 (hostOcc p w + n) } }
def subHostOcc (p n : Nat) (w : Wall) : Wall := { w with egr := { w.egr with hostOcc := tputD w.egr.hostOcc p 0 (hostOcc p w - n) } }
def chunksOf (len : Nat) : Nat := ceilDiv len 16

def MillRt.init : MillRt := { waiting := [], loop := [], taken := 0, delivered := 0, lost := 0 }
def Wall.mill (w : Wall) (b : Nat) : MillRt := tgetD w.hst.mills b MillRt.init
def Wall.setMill (w : Wall) (b : Nat) (r : MillRt) : Wall := { w with hst := { w.hst with mills := tput w.hst.mills b r } }

/-- MILL_STATE of a sub-port; a change latches host-side source 26 (R587). -/
def setMillState (sp v : Nat) (w : Wall) : Wall :=
  if w.get (Reg.millState sp) = v then w else latch 17 26 (w.set (Reg.millState sp) v)

/-- Chunks of the host partition that the Mill of a brick holds (R547): frames waiting, and the one being read. -/
def millChunks (sp : Nat) (w : Wall) : Nat :=
  ((w.mill (brickOfSp sp)).waiting.map fun f => chunksOf f.bytes.length).sum +
  chunksOf (((w.ring (w.get (Reg.millTxRing sp))).dataFor.map fun e => dLen e.2).sum)

/-! ### Fetch (R520, R522, R529) -/

/-- Issue the next descriptor read of a ring, when it runs, may fetch, and no read of its descriptors is out. -/
def fetchDescs (k want : Nat) (w : Wall) : Wall :=
  let r := w.ring k
  let n := min (unfetched k w) (min (16 - r.fetchAt % 16) (ringSize k w - r.fetchAt))
  if ringRuns k w && !r.reading && decide (0 < n) && decide (r.held.length + n ≤ want) && decide (0 < freeTags w) && !w.bnd.dozing then
    let w := w.setRing k { r with reading := true }
    issueRead (if k < 256 then .desc .tx k else .desc .rx (k - 256)) (ringBase k w + 32 * r.fetchAt) (32 * n) w
  else w

/-- Split descriptors after the first EOP. -/
def splitEop : List (Nat × Nat) → Option (List (Nat × Nat) × List (Nat × Nat))
  | [] => none
  | e :: l => if dEop e.2 then some ([e], l) else (splitEop l).map fun p => (e :: p.1, p.2)

def frameLen (ds : List (Nat × Nat)) : Nat := (ds.map fun e => dLen e.2).sum

/-- Is a transmit frame malformed (R522)? -/
def txBad (mill : Bool) (ds : List (Nat × Nat)) : Bool :=
  ds.any (fun e => dLen e.2 == 0 || decide (16384 < dLen e.2)) || decide (32 < ds.length) ||
  (if mill then decide (16384 < frameLen ds) else decide (frameLen ds < 14) || decide (16380 < frameLen ds))

/-- A transmit frame whose descriptors are held starts its data read when the partition holds it (R520, R547). -/
def startFrame (i sp : Nat) (mill : Bool) (ds rest : List (Nat × Nat)) (w : Wall) : Wall :=
  let len := frameLen ds
  let p := sp / 8
  let reads := (ds.map fun e => readPieces 64 (dAddr e.2) (dLen e.2)).flatten
  let fits := decide (hostOcc p w + chunksOf len ≤ hostSize p w) &&
    (!mill || decide (millChunks sp w + chunksOf len ≤ hostSize p w / 2))
  if fits && decide (reads.length ≤ freeTags w) then
    let r := w.ring i
    issueReads (.data i) reads (addHostOcc p (chunksOf len) (w.setRing i { r with dataFor := ds, feeds := sp, held := rest }))
  else w

/-- One step of a transmit ring that feeds sub-port `sp`: take the next frame from the held descriptors. -/
def txTake (i sp : Nat) (mill : Bool) (w : Wall) : Wall :=
  let r := w.ring i
  if !ringRuns i w || r.dataFor ≠ [] || w.bnd.dozing then w
  else match r.tooLong, splitEop r.held with
    | some (f, n, d), some (ds, rest) =>
      txComplete i f (n + ds.length) d 4 0 0 0 (w.setRing i { r with held := rest, tooLong := none })
    | some (f, n, d), none => w.setRing i { r with held := [], tooLong := some (f, n + r.held.length, d) }
    | none, some (ds, rest) =>
      if txBad mill ds then
        let e := ds.headD (0, 0)
        txComplete i e.1 ds.length e.2 4 (frameLen ds) 0 0 (w.setRing i { r with held := rest })
      else startFrame i sp mill ds rest w
    | none, none =>
      if 32 ≤ r.held.length then
        let e := r.held.headD (0, 0)
        w.setRing i { r with held := [], tooLong := some (e.1, r.held.length, e.2) }
      else w

/-- A transmit ring fetches and takes frames as far as it can. -/
def pumpTx (i sp : Nat) (mill : Bool) (w : Wall) : Wall :=
  upTo 34 (fun _ w => txTake i sp mill (fetchDescs i 32 w)) w

/-- Rings bound to a sub-port take turns, starting after the one served last (R529). -/
def pumpSp (sp : Nat) (w : Wall) : Wall :=
  let last := tgetD w.hst.turn sp 255
  let order := ((List.range 256).map fun j => (last + 1 + j) % 256).filter fun i => bit (w.get (Reg.txRings sp)) i
  order.foldl (fun w i =>
    let w' := pumpTx i sp false w
    if (w.ring i).dataFor = [] ∧ (w'.ring i).dataFor ≠ [] then { w' with hst := { w'.hst with turn := tput w'.hst.turn sp i } } else w') w

/-- A receive ring holds what the frame at its head needs, and at least one group (R532). -/
def pumpRx (k : Nat) (w : Wall) : Wall :=
  fetchDescs k (if rxRoom (w.ring k).held < 16392 then 70000 else 32) w

/-- Let every ring that may act do so. -/
def pumpRings (w : Wall) : Wall :=
  w.hst.rings.foldl (fun w e =>
    if e.1 < 256 then
      match millTxOf e.1 w with
      | some sp => if millFed sp w then pumpTx e.1 sp true w else w
      | none => match boundSp e.1 w with
        | some sp => pumpSp sp w
        | none => w
    else pumpRx e.1 w) w

/-! ### Ring configuration and doorbell (R515 to R517) -/

/-- RING_TAIL write (R517). -/
def ringDoorbell (k v : Nat) (w : Wall) : Wall :=
  let v := v % 2 ^ 16
  if !ringOn k w || decide (ringSize k w ≤ v) then w.setWin (ringBlk k + 0x48) 0 (w.win32 (ringBlk k + 0x48) 0 + 1)
  else if w.bnd.dozing then w.setRing k { w.ring k with dozeTail := some v }
  else pumpRings (w.setWin (ringBlk k + 0x40) 0 v)

/-- CTRL bits that a write changes: ENABLE, INT_ENABLE, HEAD_WB and VECTOR; HEAD_WB is refused while ENABLE is 1. -/
def ctrlBits (k v : Nat) (w : Wall) : Nat × Bool :=
  let v := v % 2 ^ 12 - v % 16 / 8 * 8
  let old := ringCtrl k w
  if bit old 0 && (bit v 2 != bit old 2) then ((if bit old 2 then setBit v 2 else clrBit v 2), true) else (v, false)

def setCfgRefused (k : Nat) (b : Bool) (w : Wall) : Wall :=
  let st := ringStatus k w
  setRingStatus k (if b then setBit st 3 else clrBit st 3) w

/-- A write of CTRL that sets ENABLE from 0 to 1 (R516). -/
def ringEnable (k v : Nat) (w : Wall) : Wall :=
  let c := ctrlBits k v w
  if ringOn k w || !bit c.1 0 then w
  else
    let w := ((w.setWin (ringBlk k + 0x0C) 0 c.1).setWin (ringBlk k + 0x40) 0 0).setWin (ringBlk k + 0x44) 0 0
    let w := w.setRing k { RingRt.init with due := (w.ring k).due }
    if ringBase k w % 4096 ≠ 0 ∨ (bit c.1 2 ∧ w.win64 (ringBlk k + 0x10) % 8 ≠ 0) then
      ringError k 3 (setRingStatus k 0 w)
    else setRingStatus k 1 w

/-- A write of CTRL that sets ENABLE from 1 to 0 (R516): nothing more is fetched, descriptors fetched for frames
not yet linked are left unprocessed, ERROR and its cause clear. -/
def ringDisable (k v : Nat) (w : Wall) : Wall :=
  let c := ctrlBits k v w
  if !ringOn k w || bit c.1 0 then w
  else
    let r := w.ring k
    let w := setCfgRefused k c.2 (setRingStatus k 0 (w.setWin (ringBlk k + 0x0C) 0 c.1))
    w.setRing k { r with held := [], tooLong := none, dozeTail := none }

/-- A write of CTRL that leaves ENABLE as it is (R515). -/
def ringCtrlWrite (k v : Nat) (w : Wall) : Wall :=
  let c := ctrlBits k v w
  setCfgRefused k c.2 (w.setWin (ringBlk k + 0x0C) 0 c.1)

/-- Does a read tag of a ring remain outstanding? -/
def ringReads (k : Nat) (w : Wall) : Bool :=
  w.bnd.tags.any fun e => e.2 == TagState.out (if k < 256 then .desc .tx k else .desc .rx (k - 256)) || (decide (k < 256) && e.2 == TagState.out (.data k))

/-- A host frame that has lost its ring (R537). -/
def orphan (f : EFrame) : EFrame := match f.src with | .host _ _ _ => { f with src := .inband } | _ => f

/-- No egress frame names a ring (R537). -/
def orphanFrames (w : Wall) : Wall :=
  { w with egr := { w.egr with
      queues := tmap w.egr.queues fun _ q => { q with frames := q.frames.map orphan },
      txNow := tmap w.egr.txNow fun _ t => { t with frame := orphan t.frame } } }

/-- No ingress frame waits for a ring (R537). -/
def forgetRingFrames (w : Wall) : Wall :=
  { w with ing := { w.ing with frames := tmap w.ing.frames fun _ f => { f with hostPending := false } } }

/-- No ring and no Mill holds anything (R537). -/
def clearRings (w : Wall) : Wall := { w with hst := { w.hst with rings := [], mills := [] } }

/-- Every ring loses what it holds. -/
def loseRings (w : Wall) : Wall := forgetRingFrames (orphanFrames (clearRings w))

/-- Every ring is disabled without write-back at entry to KINDLE, EMBER or SEALED (R537): host frames in the
egress FIFOs lose their ring, and frames waiting for a receive ring are dropped with their buffers. -/
def dropRings (w : Wall) : Wall :=
  let off (k : Nat) (w : Wall) : Wall :=
    if ringOn k w then setRingStatus k 2 (w.setWin (ringBlk k + 0x0C) 0 (clrBit (ringCtrl k w) 0)) else w
  let w := w.hst.rings.foldl (fun w e => off e.1 w) w
  loseRings w

end Sys2Proof.Machine
end

