-- ==== Sys2Proof/Machine/Pipe.lean ====
section
/-! DEFINITION. The buffers between the MAC and the Pipe: check values (R348, R542), the brick buffer and its
cells (R309, R312, R349), flow-control thresholds and headroom (R289, R291), lookup commands (R64), the egress
FIFO with its credits and PANIC lines (R363 to R367), and the queues (R368, R371). -/

namespace Sys2Proof.Machine

/-! ### Check values -/

/-- One bit of a reflected CRC register. -/
def crcBit (poly r : Nat) : Nat := if r % 2 = 1 then r / 2 ^^^ poly else r / 2
def crcByte (poly r : Nat) (b : Byte) : Nat := (List.range 8).foldl (fun r _ => crcBit poly r) (r ^^^ b.toNat)
/-- The CRC register after some bytes, reflected input and output, before the final inversion. -/
def crcReg (poly init : Nat) (l : List Byte) : Nat := l.foldl (crcByte poly) init

/-- Reflected polynomials of CV_POLY 0 to 3 (R542). -/
def cvPolyRef : Nat → Nat
  | 0 => 0x82F63B78
  | 1 => 0xEDB88320
  | 2 => 0xC96C5795D7870F42
  | _ => 0x9A6C9329AC4BC9B5
def cvWidth (p : Nat) : Nat := if p < 2 then 4 else 8
def cvInit (p : Nat) : Nat := 256 ^ cvWidth p - 1
/-- The finalised value: the register XOR XOROUT (R542). -/
def cvFinal (p r : Nat) : Nat := r ^^^ cvInit p

def crc32c (l : List Byte) : Nat := cvFinal 0 (crcReg (cvPolyRef 0) 0xFFFFFFFF l)
/-- CRC-32 of IEEE 802.3 (R276, R284). -/
def crc32 (l : List Byte) : Nat := cvFinal 1 (crcReg (cvPolyRef 1) 0xFFFFFFFF l)

/-- The grout check of a cell (R348): header of R56 with bits [95:64] replaced, then the payload. -/
def grout (dir : Nat) (c : PipeCell) (b seq : Nat) : Nat :=
  let h := seq + c.sp * 2 ^ 16 + c.kind * 2 ^ 25 + c.start * 2 ^ 32 + c.ends * 2 ^ 48 + b * 2 ^ 64 + dir * 2 ^ 72 + c.stamp * 2 ^ 96
  crc32c (toLe 16 h ++ c.payload)

/-! ### Cells of the brick buffer -/

def cellsOf (sp : Nat) (w : Wall) : List ICell := tgetD w.ing.cells sp []
def setCells (sp : Nat) (l : List ICell) (w : Wall) : Wall := { w with ing := { w.ing with cells := tput w.ing.cells sp l } }
def frameOf (n : Nat) (w : Wall) : Option IFrame := tget w.ing.frames n
def modFrame (n : Nat) (f : IFrame → IFrame) (w : Wall) : Wall := { w with ing := { w.ing with frames := tupd w.ing.frames n f } }

/-- Cells a class of a sub-port holds outside headroom (R289). -/
def classCells (sp tc : Nat) (w : Wall) : Nat := ((cellsOf sp w).filter fun c => !c.charged && c.cls == tc).length
/-- Buffer cells a port holds (R310). -/
def portCells (p : Nat) (w : Wall) : Nat :=
  ((List.range 8).map fun s => ((cellsOf (p * 8 + s) w).filter fun c => !c.charged).length).sum

/-- Rate of a sub-port in Gb/s (R253), and a pause quantum of 512 bit times in ps (R287). -/
def spGrp (sp : Nat) (w : Wall) : GroupRt := tgetD w.lan.groups sp GroupRt.init
def spRate (sp : Nat) (w : Wall) : Nat := spWidthOf sp w * 200 / 2 ^ (spGrp sp w).rate
def quantumPs (sp : Nat) (w : Wall) : Nat := 512000 / spRate sp w
def nowPs (w : Wall) : Nat := w.time.tclk * 1250

/-- Frames flow in active and survey (R258). -/
def spFlows (sp : Nat) (w : Wall) : Bool := spSt sp w == 2 || spSt sp w == 4
/-- Active, quiet or survey. -/
def spUp (sp : Nat) (w : Wall) : Bool := spFlows sp w || spSt sp w == 3

/-- Class of a priority (R286), and the priorities of a class. -/
def tcOfPrio (sp n : Nat) (w : Wall) : Nat := w.get (Reg.pcpToTc sp) / 8 ^ n % 8
def priosOf (sp tc : Nat) (w : Wall) : Nat :=
  (List.range 8).foldl (fun a n => if tcOfPrio sp n w = tc then setBit a n else a) 0

/-- A class under PAUSE or PFC (R289). -/
def fcClass (sp tc : Nat) (w : Wall) : Bool :=
  match w.get (Reg.fcMode sp) with
  | 1 => tc == w.get (Reg.defaultTc sp)
  | 2 => bit (w.get (Reg.pfcEnable sp)) tc
  | _ => false

/-- A PAUSE or PFC frame is ready to go at the next frame boundary (R289). -/
def queuePause (sp tc quanta : Nat) (w : Wall) : Wall :=
  { w with prt := { w.prt with pauseOut := tmod w.prt.pauseOut sp [] fun l =>
      l ++ [{ tc := tc, prios := priosOf sp tc w, quanta := quanta }] } }

/-- XOFF and XON of a class against its thresholds (R289); a class that leaves flow control drops its XOFF. -/
def fcCheck (sp tc : Nat) (w : Wall) : Wall :=
  let held := bit (w.get (Reg.txXoff sp)) tc
  let n := classCells sp tc w
  if !fcClass sp tc w then w.clrBitR (Reg.txXoff sp) tc
  else if !held && decide (w.get (Reg.xoffCells sp) ≤ n) && spUp sp w then
    queuePause sp tc (w.get (Reg.pauseQuanta sp)) (w.setBitR (Reg.txXoff sp) tc)
  else if held && decide (n ≤ w.get (Reg.xonCells sp)) then queuePause sp tc 0 (w.clrBitR (Reg.txXoff sp) tc)
  else w

def fcCheckAll (sp : Nat) (w : Wall) : Wall := upTo 8 (fcCheck sp) w

/-- Is a class above XOFF_CELLS, so that its cells are charged to headroom (R291, R310)? -/
def aboveXoff (sp tc : Nat) (w : Wall) : Bool := fcClass sp tc w && decide (w.get (Reg.xoffCells sp) < classCells sp tc w)

/-- A cell's place is given back (R312). -/
def freeCell (sp : Nat) (c : ICell) (w : Wall) : Wall :=
  if c.charged then w.set (Reg.headroomUsed (sp / 8) c.cls) (w.get (Reg.headroomUsed (sp / 8) c.cls) - 1)
  else w.bump (Reg.bufFree (brickOfSp sp)) 1

/-- Has every host copy of the frames of a cell been read (R312)? -/
def copiesDone (c : ICell) (w : Wall) : Bool :=
  c.segs.all fun s => match frameOf s.frame w with | some f => !f.hostPending | none => true

/-- Free the sent cells of a sub-port that no host copy needs, and forget frames without cell or copy. -/
def sweep (sp : Nat) (w : Wall) : Wall :=
  let all := cellsOf sp w
  let gone := all.filter fun c => c.sent && copiesDone c w
  let keep := all.filter fun c => !(c.sent && copiesDone c w)
  let w := gone.foldl (fun w c => freeCell sp c w) (setCells sp keep w)
  let used (n : Nat) : Bool := keep.any fun c => c.segs.any fun s => s.frame == n
  let w := { w with ing := { w.ing with frames := tfilter w.ing.frames fun n f => f.sp != sp || f.hostPending || used n } }
  fcCheckAll sp w

/-- A frame is disposed of without the Pipe: its chunks go out empty (R349). -/
def dropIn (n : Nat) (w : Wall) : Wall := modFrame n (fun f => { f with disp := .dropped, hostPending := false }) w

/-- Take a frame out of every ring's list of due deliveries. -/
def forgetDue (n : Nat) (w : Wall) : Wall :=
  { w with hst := { w.hst with rings := tmap w.hst.rings fun _ r => { r with due := r.due.filter (· ≠ n) } } }

/-- Down actions in the brick buffer (R301, R302): frames without a key are discarded at once, frames with a key
outstanding when their decision or timeout comes. -/
def downIngress (sp : Nat) (w : Wall) : Wall :=
  let mine := w.ing.frames.filter fun e => e.2.sp == sp
  let w := mine.foldl (fun w e =>
    if e.2.keyOut then modFrame e.1 (fun f => { f with down := true }) w
    else if !e.2.keyed && e.2.disp != .dropped then forgetDue e.1 (stat sp 18 1 (dropIn e.1 w)) else w) w
  sweep sp w

/-! ### Lookup commands (R64, R65, R347) -/

/-- Commands a brick has outstanding. -/
def lookupsOut (b : Nat) (w : Wall) : Nat := (w.ing.lookups.filter fun e => e.1 / 256 == b).length

/-- Issue a lookup command under the lowest unused tag. -/
def issueLookup (b op operand : Nat) (use : LookupUse) (w : Wall) : Wall × Nat :=
  match firstBelow 256 fun t => (tget w.ing.lookups (b * 256 + t)).isNone with
  | none => (w, 256)
  | some t =>
    let w := { w with ing := { w.ing with lookups := tput w.ing.lookups (b * 256 + t) use } }
    ((if h : b < 16 then w.emit (.lookup ⟨b, h⟩ t op operand) else w), t)

/-- Issue the oldest waiting FLUSH_SP of a brick when a command is free; learning is held from the issue (R65). -/
def flushIssue (b : Nat) (w : Wall) : Wall :=
  match w.ing.flushWait.find? fun sp => brickOfSp sp == b with
  | none => w
  | some sp =>
    if 16 ≤ lookupsOut b w then w
    else
      let w := { w with ing := { w.ing with flushWait := w.ing.flushWait.erase sp, learnHeld := sp :: w.ing.learnHeld.filter (· ≠ sp) } }
      (issueLookup b 1 sp (.flush sp) w).1

/-- FLUSH_SP of a sub-port is asked for, and issued when a command is free. -/
def flushSp (sp : Nat) (w : Wall) : Wall :=
  flushIssue (brickOfSp sp) { w with ing := { w.ing with flushWait := w.ing.flushWait ++ [sp] } }

/-! ### Egress FIFO, credits, PANIC -/

def pipeSize (p : Nat) (w : Wall) : Nat := 65536 - hostSize p w
def pipeOcc (p : Nat) (w : Wall) : Nat := tgetD w.egr.pipeOcc p 0
def setPipeOcc (p n : Nat) (w : Wall) : Wall := { w with egr := { w.egr with pipeOcc := tputD w.egr.pipeOcc p 0 n } }
def coreCredits (p : Nat) (w : Wall) : Nat := tgetD w.egr.coreCredits p 0
def setCoreCredits (p n : Nat) (w : Wall) : Wall := { w with egr := { w.egr with coreCredits := tputD w.egr.coreCredits p 0 n } }
/-- Free and unreserved chunks of the Pipe partition (R365). -/
def pipeFree (p : Nat) (w : Wall) : Nat := pipeSize p w - (pipeOcc p w + 16 * coreCredits p w)

/-- Grant one credit for each 16 free and unreserved chunks (R365), unless the wall is in DOZE (R147). -/
def grant (p : Nat) (w : Wall) : Wall :=
  let n := pipeFree p w / 16
  if n = 0 ∨ w.bnd.dozing then w
  else if h : p < 64 then (setCoreCredits p (coreCredits p w + n) w).emit (.creditGrant ⟨p, h⟩ n) else w

/-- The PANIC line of a port against its thresholds (R66, R367). -/
def panicEval (p : Nat) (w : Wall) : Wall :=
  let fill := pipeOcc p w / 16
  let now := w.flag (Reg.panicNow p)
  let wait := bit w.bnd.waiting p
  if w.bnd.dozing then w.set (Reg.panicNow p) 0
  else if !now && wait && decide (fill < w.get (Reg.panicLevel p)) then (w.set (Reg.panicNow p) 1).bump (Reg.panicAsserts p) 1
  else if now && (!wait || decide (w.get (Reg.panicLevel p) + w.get (Reg.panicHyst p) ≤ fill)) then w.set (Reg.panicNow p) 0
  else w

/-- Chunks of a frame leave the FIFO: of the partition its source names. -/
def freeChunks (f : EFrame) (w : Wall) : Wall :=
  let p := f.sp / 8
  match f.src with
  | .pipe => panicEval p (grant p (setPipeOcc p (pipeOcc p w - f.chunks) w))
  | _ => subHostOcc p f.chunks w

/-! ### Queues (R368 to R371) -/

def EQueue.init : EQueue := { frames := [], deficit := 0, turn := false, drops := 0, sent := 0 }
def Wall.queue (w : Wall) (p q : Nat) : EQueue := tgetD w.egr.queues (p * 64 + q) EQueue.init
def Wall.setQueue (w : Wall) (p q : Nat) (r : EQueue) : Wall := { w with egr := { w.egr with queues := tput w.egr.queues (p * 64 + q) r } }
def EQueue.depth (r : EQueue) : Nat := (r.frames.map fun f => f.chunks).sum

def activeList (sp tc : Nat) (w : Wall) : List Nat := tgetD w.egr.active (sp * 8 + tc) []
def setActive (sp tc : Nat) (l : List Nat) (w : Wall) : Wall := { w with egr := { w.egr with active := tput w.egr.active (sp * 8 + tc) l } }

/-- Queues of a port owned by a sub-port. -/
def queuesOf (sp : Nat) (w : Wall) : List Nat := (List.range 64).filter fun q => w.get (Reg.queueSp (sp / 8) q) == sp % 8

/-- A queue leaves the active list of its class with DEFICIT 0 (R378). -/
def leaveActive (sp q : Nat) (w : Wall) : Wall :=
  let tc := w.get (Reg.queueTc (sp / 8) q)
  let r := w.queue (sp / 8) q
  (setActive sp tc ((activeList sp tc w).filter (· ≠ q)) w).setQueue (sp / 8) q { r with deficit := 0, turn := false }

/-- The remaining bytes of a sub-port's frame from the Pipe are thrown away as they arrive (R279, R352, R371). -/
def skipRest (f : EFrame) (w : Wall) : Wall :=
  if f.whole then w else { w with egr := { w.egr with skipping := f.sp :: w.egr.skipping.filter (· ≠ f.sp) } }

/-- A frame is discarded before or during its transmission: its chunks are freed and a host frame is written back. -/
def discardOut (f : EFrame) (status : Nat) (w : Wall) : Wall :=
  let w := skipRest f (freeChunks f w)
  match f.src with
  | .host i first n => txComplete i first n f.desc status f.bytes.length 0 0 w
  | _ => w

/-- Down actions in the egress FIFO (R301, R396): every queue the sub-port owns is emptied, a frame in
transmission ends with a stomped FCS, and pause frames not yet sent are dropped. -/
def downEgress (sp : Nat) (w : Wall) : Wall :=
  let w := match tget w.egr.txNow sp with
    | some t =>
      let w := { w with egr := { w.egr with txNow := tdel w.egr.txNow sp } }
      let w := if h : sp < 512 then w.emit (.lineFrame ⟨sp, h⟩ t.frame.bytes true) else w
      stat sp 46 1 (discardOut t.frame 2 w)
    | none => w
  let w := (queuesOf sp w).foldl (fun w q =>
    let r := w.queue (sp / 8) q
    if r.frames = [] then w
    else leaveActive sp q (r.frames.foldl (fun w f => stat sp 46 1 (discardOut f 2 w)) (w.setQueue (sp / 8) q { r with frames := [] }))) w
  let w := match tget w.egr.building sp with
    | some f => stat sp 46 1 (discardOut f 2 { w with egr := { w.egr with building := tdel w.egr.building sp } })
    | none => w
  { w with prt := { w.prt with pauseOut := tdel w.prt.pauseOut sp } }

end Sys2Proof.Machine
end

