-- ==== Sys2Proof/Machine/Ports.lean ====
section
/-! DEFINITION. Sub-ports: the common down actions (R300 to R302), abandoning exchanges and surveys with them,
pauses (R287 to R289), the quiet handshake (R293 to R299) and the FEC and header-lock limits (R272 to R274). -/

namespace Sys2Proof.Machine

/-- Sub-ports of a port that have a width in force. -/
def portSps (p : Nat) (w : Wall) : List Nat := ((List.range 8).map (p * 8 + ·)).filter fun sp => spWidthOf sp w != 0

def subGroup (sp : Nat) : Option Group := if h : sp < 512 then some (.sub ⟨sp, h⟩) else none
def grpLanes (sp : Nat) (w : Wall) : List Nat := match subGroup sp with | some g => groupLanes g w | none => []
def setSpGroup (sp st : Nat) (w : Wall) : Wall := match subGroup sp with | some g => setGroupSt g st w | none => w
def setSpGrp (sp : Nat) (r : GroupRt) (w : Wall) : Wall := { w with lan := { w.lan with groups := tput w.lan.groups sp r } }

/-! ### Exchanges and surveys that end with their group (R223, R226, R238) -/

/-- A spare returns to SPARE in the pool. -/
def toSpare (l : Nat) (w : Wall) : Wall := setLaneSt l 10 ((setUse l 1 w).set (Reg.serves l) 0xFFFF)

/-- Give a role to a lane. -/
def assign (p r l : Nat) (w : Wall) : Wall :=
  ((setUse l 0 w).set (Reg.serves l) (p * 16 + r)).set (Reg.roleLane p r) l

def delExch (k : Nat) (w : Wall) : Wall := { w with lan := { w.lan with exchs := tdel w.lan.exchs k } }
def putExch (k : Nat) (e : Exch) (w : Wall) : Wall := { w with lan := { w.lan with exchs := tput w.lan.exchs k e } }

/-- An exchange is abandoned: the role stays on the old lane, the spare returns to SPARE, and the steward raises
event 0x0505 (R223, R226, R249). -/
def abandon (k reason : Nat) (w : Wall) : Wall :=
  match tget w.lan.exchs k with
  | none => w
  | some e =>
    let b := brickOfPort (k / 16)
    let w := delExch k w
    let w := when (e.bridged) (toSpare e.spare) w
    raise (stewardSrc b) 0x0505 (k + reason * 2 ^ 16) 12 (w.bump (Reg.abandonedCount b) 1)

def delSurvey (l : Nat) (w : Wall) : Wall := { w with lan := { w.lan with surveys := tdel w.lan.surveys l } }
def modRound (b : Nat) (f : RoundRt → RoundRt) (w : Wall) : Wall :=
  { w with lan := { w.lan with rounds := tupd w.lan.rounds b f } }

/-- This side's survey in a brick ends: ROUND_LANE shows none. -/
def clearCurrent (l : Nat) (w : Wall) : Wall :=
  let b := brickOfLane l
  let w := modRound b (fun r => if r.current = some l then { r with current := none } else r) w
  when (w.get (Reg.roundLane b) == l) (fun w => w.set (Reg.roundLane b) 0xFFFF) w

/-- A survey ends at once, its role back on the surveyed lane and its spare in the pool (R238). -/
def endSurvey (l : Nat) (w : Wall) : Wall :=
  match tget w.lan.surveys l with
  | none => w
  | some s =>
    let w := delSurvey l w
    let w := match s.role with
      | some k =>
        if laneUseOf l w = 2 then
          let st := laneSt s.spare w
          setLaneSt l st (assign (k / 16) (k % 16) l (toSpare s.spare w))
        else w
      | none => w
    when s.own (clearCurrent l) w

/-- Exchanges and surveys of a sub-port's roles end when it leaves ACTIVE (R223, R238). -/
def downExchanges (sp : Nat) (w : Wall) : Wall :=
  let p := sp / 8
  let w := (spRoles sp w).foldl (fun w r => abandon (p * 16 + r) 6 w) w
  let mine := w.lan.surveys.filter fun e => match e.2.role with | some k => k / 16 == p && hasRole sp (k % 16) w | none => false
  mine.foldl (fun w e => endSurvey e.1 w) w

/-! ### Going down (R300, R301) -/

def setReason (sp reason : Nat) (w : Wall) : Wall := w.set (Reg.downReason (sp / 8) (sp % 8)) reason

/-- Forget the pauses of a sub-port. -/
def clearPauses (sp : Nat) (w : Wall) : Wall :=
  { w with prt := { w.prt with pauseUntil := tfilter w.prt.pauseUntil fun k _ => k / 8 != sp } }

/-- The down actions of R301, but not what the lane group does next. A sub-port that is down already only records
the reason. -/
def downCore (sp reason : Nat) (w : Wall) : Wall :=
  if spSt sp w = 0 then setReason sp reason w
  else
    let p := sp / 8
    let w := downExchanges sp w
    let w := setReason sp reason (setSpSt sp 0 w)
    let w := ((clearPauses sp w).set (Reg.rxPaused sp) 0).set (Reg.txXoff sp) 0
    let w := w.set (Reg.agreedCaps p (sp % 8)) 0
    let w := { w with prt := { w.prt with lockLost := w.prt.lockLost.erase sp } }
    let w := flushSp sp (downEgress sp (downIngress sp w))
    let w := w.bump (Reg.spDowns p (sp % 8)) 1
    raise (stewardSrc (brickOfPort p)) 0x0602 (sp + reason * 2 ^ 16) 13 w

/-- A down whose lane group goes to DISABLED (causes 1, 2, 6, 7, 8, 11 to 16 of R300). -/
def downOff (sp reason : Nat) (w : Wall) : Wall := setSpGroup sp 0 (downCore sp reason w)

/-- May a sub-port enter DETECT: configured and not down by command, its brick served (R168, R141, R142, R31, R72)? -/
def mayDetect (sp : Nat) (w : Wall) : Bool :=
  spWidthOf sp w != 0 && w.flag (Reg.spAdmin (sp / 8) (sp % 8)) && spSt sp w != 5 &&
  !(bareSvc w && w.get (Reg.macsecPolicy sp) == 2) && !bit w.bnd.deadBricks (brickOfSp sp) &&
  bit w.bnd.refLanes (brickOfSp sp) && !bit w.bnd.thermal (sp / 8) && !w.bnd.dozing && !w.bnd.fetchDue &&
  !w.bnd.clocksStopped && w.sec.zeroising.isNone

/-! ### Pauses (R287) -/

def setPause (k : Nat) (until_ : Option Nat) (w : Wall) : Wall :=
  { w with prt := { w.prt with pauseUntil := match until_ with
      | some t => tput w.prt.pauseUntil k t
      | none => tdel w.prt.pauseUntil k } }

/-- A class stays paused until the longest pause of its priorities ends (R287). -/
def classPaused (sp tc : Nat) (w : Wall) : Bool :=
  (bitList (priosOf sp tc w) 8).any fun n => match tget w.prt.pauseUntil (sp * 8 + n) with
    | some t => decide (nowPs w < t)
    | none => false

/-- Priority `n` of a sub-port is paused for a time in quanta; 0 releases (R287). -/
def pausePrio (sp n quanta : Nat) (w : Wall) : Wall :=
  setPause (sp * 8 + n) (if quanta = 0 then none else some (nowPs w + quanta * quantumPs sp w)) w

/-- A PAUSE frame pauses every class of the sub-port (R287). -/
def pauseFrame (sp quanta : Nat) (w : Wall) : Wall :=
  if spUp sp w && w.get (Reg.fcMode sp) == 1 then
    let w := upTo 8 (fun n w => pausePrio sp n quanta w) w
    stat sp 72 1 (w.set (Reg.rxPaused sp) (if quanta = 0 then 0 else 0xFF))
  else w

/-- A PFC frame pauses each enabled class that holds a priority enabled in it (R287). -/
def pfcFrame (sp enable : Nat) (times : List Nat) (w : Wall) : Wall :=
  if spUp sp w && w.get (Reg.fcMode sp) == 2 then
    let on (n : Nat) (w : Wall) : Bool := bit enable n && bit (w.get (Reg.pfcEnable sp)) (tcOfPrio sp n w)
    let w := upTo 8 (fun n w => when (on n w) (pausePrio sp n (times.getD n 0)) w) w
    upTo 8 (fun tc w =>
      if bit (w.get (Reg.pfcEnable sp)) tc && decide (priosOf sp tc w &&& enable ≠ 0) then
        let w := stat sp (56 + tc) 1 w
        if classPaused sp tc w then w.setBitR (Reg.rxPaused sp) tc else w.clrBitR (Reg.rxPaused sp) tc
      else w) w
  else w

/-- A class's pause time has run out, and it is served again (R287, R386). -/
def pauseExpiry (sp tc : Nat) (w : Wall) : Wall :=
  let w := if w.get (Reg.fcMode sp) = 1 then setPause (sp * 8 + tc) none w
    else (bitList (priosOf sp tc w) 8).foldl (fun w n => setPause (sp * 8 + n) none w) w
  w.clrBitR (Reg.rxPaused sp) tc

/-- PAUSE_QUANTA/2 quanta have passed while a class stays above XON_CELLS (R289). -/
def pfcRefresh (sp tc : Nat) (w : Wall) : Wall :=
  if bit (w.get (Reg.txXoff sp)) tc && decide (w.get (Reg.xonCells sp) < classCells sp tc w) && spUp sp w then
    queuePause sp tc (w.get (Reg.pauseQuanta sp)) w
  else w

/-! ### Quiet (R293 to R299) -/

def QuietRt.init : QuietRt := { phase := .none, idleDue := false, awaiting := false }
def Wall.quiet (w : Wall) (p : Nat) : QuietRt := tgetD w.prt.quiet p QuietRt.init
def Wall.setQuiet (w : Wall) (p : Nat) (r : QuietRt) : Wall := { w with prt := { w.prt with quiet := tput w.prt.quiet p r } }

/-- Active sub-ports of a port. -/
def activeSps (p : Nat) (w : Wall) : List Nat := (portSps p w).filter fun sp => spSt sp w == 2

/-- The conditions of R293 on sub-ports and exchanges. -/
def quietReady (p : Nat) (w : Wall) : Bool :=
  ((portSps p w).all fun sp => (spSt sp w == 2 && bit (w.get (Reg.agreedCaps p (sp % 8))) 3) || spSt sp w == 0 || spSt sp w == 5) &&
  (activeSps p w != []) && !(w.lan.exchs.any fun e => e.1 / 16 == p)

/-- No frame waits to be sent on a port. -/
def portIdle (p : Nat) (w : Wall) : Bool :=
  ((List.range 64).all fun q => (w.queue p q).frames == []) &&
  ((List.range 8).all fun s => (tget w.egr.txNow (p * 8 + s)).isNone && (tgetD w.prt.pauseOut (p * 8 + s) [] == []) )

/-- Low-power idle, or idle again, on every active sub-port (R294, R295). -/
def sendLpi (p : Nat) (on : Bool) (w : Wall) : Wall := if h : p < 64 then w.emit (.lpi ⟨p, h⟩ on) else w

/-- A port requests quiet, in SERVICE with QUIET_ENABLE or at DOZE entry (R293). -/
def quietRequest (p : Nat) (w : Wall) : Wall :=
  if (w.quiet p).phase = .none && quietReady p w && portIdle p w && (w.bnd.dozing || w.flag (Reg.quietEnable p)) then
    sendLpi p true (w.setQuiet p { w.quiet p with phase := .requesting, idleDue := false })
  else w

/-- QUIET_IDLE_US have passed with no frame on the port; the request follows when every other condition holds. -/
def quietIdle (p : Nat) (w : Wall) : Wall :=
  if w.bnd.dozing then w else quietRequest p (w.setQuiet p { w.quiet p with idleDue := true })

/-- A condition of R293 may have cleared: a request that is due is made. -/
def quietRetry (p : Nat) (w : Wall) : Wall := if (w.quiet p).idleDue then quietRequest p w else w

/-- Every active sub-port and its lanes enter QUIET (R294, R195). -/
def enterQuiet (p : Nat) (w : Wall) : Wall :=
  let w := (activeSps p w).foldl (fun w sp => setSpSt sp 3 (setSpGroup sp 9 w)) w
  (w.setQuiet p { phase := .none, idleDue := false, awaiting := false }).bump (Reg.quietEntries p) 1

/-- Low-power idle is received on every active sub-port: the port answers, or has sent it too and enters QUIET (R294). -/
def lpiReceived (p : Nat) (w : Wall) : Wall :=
  match (w.quiet p).phase with
  | .none =>
    if quietReady p w && portIdle p w && w.flag (Reg.quietEnable p) && !w.bnd.dozing then
      sendLpi p true (w.setQuiet p { w.quiet p with phase := .answering })
    else w
  | .requesting | .answering => if quietReady p w then enterQuiet p w else w
  | .waking => w

/-- The handshake is abandoned, and idle is sent (R295). -/
def abandonQuiet (p : Nat) (w : Wall) : Wall :=
  match (w.quiet p).phase with
  | .requesting | .answering => sendLpi p false (w.setQuiet p { w.quiet p with phase := .none })
  | _ => w

/-- Ports that DOZE entry cannot bring to quiet go down with reason 8 (R147, R295). -/
def dozeDown (p : Nat) (w : Wall) : Wall :=
  (portSps p w).foldl (fun w sp => if spSt sp w = 0 ∨ spSt sp w = 5 then w else downOff sp 8 w) w

/-- A side receives idle after low-power idle (R295); at DOZE entry that is the partner's refusal. -/
def idleAfterLpi (p : Nat) (w : Wall) : Wall :=
  match (w.quiet p).phase with
  | .requesting | .answering => when w.bnd.dozing (dozeDown p) (abandonQuiet p w)
  | _ => w

/-- No answer within 100 µs: the request is refused (R295). -/
def quietTimeout (p : Nat) (w : Wall) : Wall :=
  if (w.quiet p).phase = .requesting then
    when w.bnd.dozing (dozeDown p) ((abandonQuiet p w).bump (Reg.quietRefused p) 1)
  else w

def quietSps (p : Nat) (w : Wall) : List Nat := (portSps p w).filter fun sp => spSt sp w == 3

/-- A quiet port sends its wake burst (R297, R298). -/
def wakePort (p : Nat) (w : Wall) : Wall :=
  if quietSps p w = [] ∨ (w.quiet p).phase = .waking ∨ w.bnd.dozing then w
  else
    let w := w.setQuiet p { phase := .waking, idleDue := false, awaiting := true }
    if h : p < 64 then w.emit (.wakeBurst ⟨p, h⟩) else w

/-- The partner's wake burst: the receiver relocks, and the wall answers with its own burst (R298). -/
def partnerBurst (p : Nat) (w : Wall) : Wall :=
  if w.bnd.dozing then w
  else
    let w := wakePort p w
    w.setQuiet p { w.quiet p with awaiting := false }

/-- 250 ns after the burst the wake is complete (R298). -/
def wakeComplete (p : Nat) (w : Wall) : Wall :=
  if (w.quiet p).phase = .waking then
    let w := (quietSps p w).foldl (fun w sp => setSpSt sp 2 (setSpGroup sp 6 w)) w
    w.setQuiet p { w.quiet p with phase := .none }
  else w

/-- Traffic on a port: a quiet port wakes, a handshake is abandoned, the idle time starts again (R293, R295, R297). -/
def portBusy (p : Nat) (w : Wall) : Wall :=
  let w := abandonQuiet p w
  let w := when ((w.quiet p).idleDue && !w.bnd.dozing) (fun w => w.setQuiet p { w.quiet p with idleDue := false }) w
  wakePort p w

/-! ### Header lock and FEC statistics (R270 to R274) -/

/-- An unplanned exchange of one of a sub-port's roles is in progress. -/
def unplannedRuns (sp : Nat) (w : Wall) : Bool :=
  w.lan.exchs.any fun e => e.1 / 16 == sp / 8 && hasRole sp (e.1 % 16) w && e.2.unplanned

def headerLockLoss (sp : Nat) (w : Wall) : Wall :=
  if spFlows sp w ∧ sp ∉ w.prt.lockLost then
    let w := { w with prt := { w.prt with lockLost := sp :: w.prt.lockLost } }
    latch (brickOfSp sp) 6 (stat sp 100 1 w)
  else w

def headerLockBack (sp : Nat) (w : Wall) : Wall := { w with prt := { w.prt with lockLost := w.prt.lockLost.erase sp } }

/-- Counts of one FEC window (R273, R597): corrected symbols by role, in role order. -/
def fecCount (sp : Nat) (roleCorrected : List Nat) (codewords corrected uncorrectable : Nat) (w : Wall) : Wall :=
  let w := ((spRoles sp w).zip roleCorrected).foldl (fun w e => w.bump (Reg.roleCorrected (sp / 8) e.1) e.2) w
  let w := stat sp 99 roleCorrected.sum (stat sp 98 uncorrectable (stat sp 97 corrected (stat sp 96 codewords w)))
  pcSp sp 0x19 uncorrectable none (pcSp sp 0x18 roleCorrected.sum none w)

end Sys2Proof.Machine
end

