-- ==== Sys2Proof/Machine/Bringup.lean ====
section
/-! DEFINITION. Bring-up of lane groups: role assignment at DETECT (R218), the states and failures of R168 to
R176, the training channel (R179 to R185), and the capability exchange (R190 to R192). -/

namespace Sys2Proof.Machine

/-! ### Role assignment at DETECT (R218) -/

/-- May a role's home lane be taken: neither retired nor held nor in TEST, serving no other role, and no exchange
holding it? -/
def homeOk (p r : Nat) (w : Wall) : Bool :=
  let l := homeLane p r
  !exchHolds l w && !surveying l w &&
  (laneUseOf l w == 1 || (laneUseOf l w == 0 && (w.get (Reg.serves l) == p * 16 + r || w.get (Reg.serves l) == 0xFFFF)))

/-- A lane leaves a role and returns to the pool, to train there alone (R216, R218). -/
def releaseLane (l : Nat) (w : Wall) : Wall := (setUse l 1 w).set (Reg.serves l) 0xFFFF

/-- Pool lanes that a group entering DETECT may take for a role, lowest local number first: the free ones, and
those its own roles have just given back. -/
def poolFor (p : Nat) (given : List Nat) (w : Wall) : List Nat :=
  (brickLanes (brickOfPort p)).filter fun l =>
    laneUseOf l w == 1 && reaches l p w && (poolIdle l w || given.contains l)

/-- Choose a lane for each role, or `none` when a role finds no lane. -/
def chooseLanes (p : Nat) (given : List Nat) (spares : Bool) (w : Wall) : List Nat → List Nat → Option (List (Nat × Nat))
  | [], _ => some []
  | r :: rs, taken =>
    if homeOk p r w then (chooseLanes p given spares w rs taken).map ((r, homeLane p r) :: ·)
    else if !spares then none
    else match (poolFor p given w).find? fun l => !taken.contains l with
      | some l => (chooseLanes p given spares w rs (l :: taken)).map ((r, l) :: ·)
      | none => none

/-- Assign the roles of a sub-port for DETECT; `none` when a role finds no lane. Lanes that moved roles give back
train alone in the pool. -/
def assignRoles (sp : Nat) (w : Wall) : Option Wall :=
  let p := sp / 8
  let roles := spRoles sp w
  let moved := roles.filter fun r => laneOf p r w != homeLane p r && laneUseOf (laneOf p r w) w == 0
  let given := moved.map fun r => laneOf p r w
  let w := given.foldl (fun w l => releaseLane l w) w
  match chooseLanes p given (w.get (Reg.trainMode p) == 0) w roles (roles.filterMap fun r => if homeOk p r w then some (homeLane p r) else none) with
  | none => none
  | some l =>
    let w := l.foldl (fun w e => assign p e.1 e.2 w) w
    some ((given.filter fun x => laneUseOf x w == 1).foldl (fun w x => detectAlone x w) w)

/-! ### Entering DETECT (R168) -/

/-- Clear what a group's earlier life left: its exchange is never used again (R192). -/
def freshGrp (r : GroupRt) : GroupRt := { r with exch := 0, leader := false, accepted := none, held10s := false, rate := 0 }

/-- A sub-port's group enters DETECT with a failure count (R168, R218): SP_STATE becomes 1 (R258); without a lane
for a role it stays down with reason 16. -/
def enterDetect (sp fails : Nat) (w : Wall) : Wall :=
  if !mayDetect sp w then w
  else
    let p := sp / 8
    let s := sp % 8
    match subGroup sp, assignRoles sp w with
    | some g, some w =>
      let w := setSpGrp sp (freshGrp (spGrp sp w)) w
      let sw := drawSeed w
      let w := (groupLanes g sw.2).foldl (fun w l => laneDetect g sw.1 l w) sw.2
      let w := (w.set (Reg.bringupState p s) 1).set (Reg.bringupFails p s) fails
      let w := (w.set (Reg.rxRefLane p s) (laneOf p (2 * s) w)).set (Reg.rxRefShift p s) 0
      setSpSt sp 1 (w.set (Reg.agreedCaps p s) 0)
    | _, _ => setSpGroup sp 0 (setReason sp 16 w)

/-- A pool lane has become free: groups that stayed out of DETECT for want of a lane try again (R218). -/
def retryNoLane (b : Nat) (w : Wall) : Wall :=
  upTo 32 (fun k w =>
    let sp := b * 32 + k
    if w.get (Reg.downReason (sp / 8) (sp % 8)) = 16 ∧ spSt sp w = 0 ∧ spGrpSt sp w = 0
    then enterDetect sp (w.get (Reg.bringupFails (sp / 8) (sp % 8))) w else w) w

/-! ### Failures (R170, R171, R173) -/

/-- The failure count of a group. -/
def failsOf (g : Group) (w : Wall) : Nat :=
  match g with
  | .sub sp => w.get (Reg.bringupFails (sp.val / 8) (sp.val % 8))
  | .alone _ => (w.grp g).fails
def setFails (g : Group) (n : Nat) (w : Wall) : Wall :=
  match g with
  | .sub sp => w.set (Reg.bringupFails (sp.val / 8) (sp.val % 8)) n
  | .alone _ => w.setGrp g { w.grp g with fails := n }

/-- What a failure records, and BACKOFF or LISTENING (R171). -/
def failRecord (g : Group) (n : Nat) (w : Wall) : Wall :=
  let w := (groupLanes g w).foldl (fun w l => w.bump (Reg.trainFails l) 1) w
  let w := match g with
    | .sub sp => w.set (Reg.lastFail (sp.val / 8) (sp.val % 8)) n
    | .alone _ => w
  let f := min (failsOf g w + 1) 8
  setGroupSt g (if f = 8 then 8 else 7) (setFails g f w)

/-- A lane is withdrawn for life (R232, R249): event 0x0502. -/
def retire (l cause : Nat) (w : Wall) : Wall :=
  let w := (setLaneSt l 12 ((setUse l 3 w).set (Reg.serves l) 0xFFFF)).set (Reg.retireCause l) cause
  let w := raise (stewardSrc (brickOfLane l)) 0x0502 (l + cause * 2 ^ 16) 12 w
  if h : l < 1088 then w.emit (.gossip ⟨l, h⟩ 11 0 0 (l % 68 * 16)) else w

/-- A lane is held for retest (R231): it waits in SURVEY state 11. -/
def holdForRetest (l fails : Nat) (w : Wall) : Wall :=
  (setLaneSt l 11 ((setUse l 2 w).set (Reg.serves l) 0xFFFF)).modLane l fun r => { r with retestFails := fails, retesting := false, trained := none }

/-- A retest has failed (R231): after three the lane is retired with cause 1. -/
def retestFailed (l : Nat) (w : Wall) : Wall :=
  let n := (w.lane l).retestFails + 1
  if 3 ≤ n then retire l 1 w else holdForRetest l n w

/-- A group fails with a reason (R171); its sub-port goes down with reason 3; a lane under retest fails it. -/
def fail (g : Group) (n : Nat) (w : Wall) : Wall :=
  match g with
  | .sub sp =>
    let st := spGrpSt sp.val w
    if 1 ≤ st ∧ st ≤ 5 then failRecord g n (downCore sp.val 3 w) else w
  | .alone l =>
    let st := laneSt l.val w
    if 1 ≤ st ∧ st ≤ 3 then
      if laneUseOf l.val w = 2 then retestFailed l.val (w.bump (Reg.trainFails l.val) 1) else failRecord g n w
    else w

/-- A down of causes 4, 5 and 10 (R173, R301): failure 8 within the first 10 s of ACTIVE, DETECT at once after. -/
def downRetrain (sp reason : Nat) (w : Wall) : Wall :=
  let young := !(spGrp sp w).held10s
  let w := downCore sp reason w
  match subGroup sp with
  | none => w
  | some g =>
    if young then failRecord g 8 w
    else enterDetect sp 0 (setSpGroup sp 0 w)

/-! ### Timers of R169 and R171 -/

/-- TRAIN_MODE of a group: lanes alone always speak Gossip (R216). -/
def noGossip (g : Group) (w : Wall) : Bool := match g with | .sub sp => w.get (Reg.trainMode (sp.val / 8)) == 1 | .alone _ => false

def detectTimeout (g : Group) (w : Wall) : Wall := if groupSt g w = 1 then fail g 1 w else w
def pam2Timeout (g : Group) (w : Wall) : Wall := if groupSt g w = 2 ∧ !noGossip g w then fail g 2 w else w
def trainingTimeout (g : Group) (w : Wall) : Wall := if 2 ≤ groupSt g w ∧ groupSt g w ≤ 4 then fail g 3 w else w
def exchangeTimeout (g : Group) (w : Wall) : Wall := if groupSt g w = 5 then fail g 4 w else w

/-- A back-off ends: the group enters DETECT again (R171). -/
def backoffExpiry (g : Group) (w : Wall) : Wall :=
  if groupSt g w = 7 then
    match g with
    | .sub sp => enterDetect sp.val (failsOf g w) w
    | .alone l => detectAlone l.val w
  else w

/-- A listening group sends its burst of HELLO frames (R172). -/
def listeningBurst (g : Group) (w : Wall) : Wall :=
  if groupSt g w = 8 then
    (groupLanes g w).foldl (fun w l => if h : l < 1088 then w.emit (.hello ⟨l, h⟩ (offered g w) (laneRole l w) (w.lane l).seed) else w) w
  else w

/-- The group has been ACTIVE for 10 s (R173). -/
def activeHold (sp : Nat) (w : Wall) : Wall :=
  if spGrpSt sp w = 6 ∨ spGrpSt sp w = 9 then
    setSpGrp sp { spGrp sp w with held10s := true } (w.set (Reg.bringupFails (sp / 8) (sp % 8)) 0)
  else w

/-- TRAIN_RESTART: groups named that are in BACKOFF or LISTENING enter DETECT with failure count 0 (R174). -/
def trainRestart (p v : Nat) (w : Wall) : Wall :=
  (bitList v 8).foldl (fun w s =>
    let sp := p * 8 + s
    if spGrpSt sp w = 7 ∨ spGrpSt sp w = 8 then enterDetect sp 0 w else w) w

/-! ### Training (R169, R179 to R185) -/

/-- Fastest rate that both sides offer: the lowest common code. -/
def commonRate (a b : Nat) : Option Nat := firstBelow 3 fun c => bit a c && bit b c

/-- READY frames go out once HEARD has been sent and seen (R182 step 3). -/
def tryReady (g : Group) (l : Nat) (w : Wall) : Wall :=
  let r := w.lane l
  if laneSt l w = 2 ∧ r.heard ∧ r.peerHeard ∧ !r.readySent then
    let w := w.setLane l { r with readySent := true }
    let w := match commonRate (offered g w) r.peerRates with
      | some c => w.setGrp g { w.grp g with rate := c }
      | none => w
    if h : l < 1088 then w.emit (.ready ⟨l, h⟩ 255) else w
  else w

/-- Every lane of a group senses its partner: PAM2, or PAM4 without Gossip (R169, R175). -/
def detectDone (g : Group) (w : Wall) : Wall :=
  if groupSt g w ≠ 1 then w
  else
    let w := (groupLanes g w).foldl (fun w l => w.set (Reg.signalDetect l) 1) w
    match g with
    | .sub sp =>
      if noGossip g w then
        let p := sp.val / 8
        setGroupSt g 3 (setSpGrp sp.val { spGrp sp.val w with rate := if bareSvc w then 1 else w.get (Reg.laneRate p) } w)
      else
        let w := setGroupSt g 2 w
        (groupLanes g w).foldl (fun w l => tryReady g l w) w
    | .alone l => tryReady g l.val (setGroupSt g 2 w)

/-- A pool lane that hears a HELLO for a role of a group in DETECT joins it, when a pool lane serves that role
here: of two, the one chosen by the side with the higher SEED keeps the role (R218). -/
def joinRole (l : Nat) (role seed : Nat) (w : Wall) : Option Wall :=
  if laneUseOf l w ≠ 1 ∨ exchHolds l w then none
  else
    let cand := (List.range 4).filterMap fun k =>
      let p := brickOfLane l * 4 + k
      match spOfRole p role w with
      | some sp => if reaches l p w && spGrpSt sp w == 1 && laneOf p role w != homeLane p role && laneOf p role w != l then some (p, sp) else none
      | none => none
    match cand with
    | [] => none
    | (p, sp) :: _ =>
      let old := laneOf p role w
      match subGroup sp with
      | none => none
      | some g =>
        let mine := (w.lane old).seed
        if mine < seed then
          let w := detectAlone old (releaseLane old w)
          some (laneDetect g mine l (assign p role l w))
        else some w

/-- A HELLO message is accepted on a lane (R182). -/
def helloHeard (l : Lane) (rates role seed : Nat) (w : Wall) : Wall :=
  match (if role < 16 then joinRole l.val role seed w else none) with
  | some w => w
  | none =>
    let g := laneGroup l w
    let st := groupSt g w
    if (st ≠ 1 ∧ st ≠ 2) ∨ noGossip g w then w
    else
      let own := laneRole l.val w
      let wrong := match g with | .sub _ => role != own | .alone _ => false
      if wrong then (if st = 2 then fail g 7 w else w)
      else
        let r := w.lane l.val
        if seed = r.seed then
          let sw := drawSeed w
          (groupLanes g w).foldl (fun w l => w.modLane l fun r => { r with seed := sw.1 }) sw.2
        else
          let w := w.setLane l.val { r with heard := true, peerHeard := r.peerHeard || bit rates 3, peerRates := rates % 8, peerSeed := seed }
          match commonRate (offered g w) (rates % 8) with
          | none => if st = 2 then fail g 6 w else w
          | some _ => tryReady g l.val w

/-- Count of a run, started again when the test fails. -/
def runOf (ok : Bool) (n : Nat) : Nat := if ok then n + 1 else 0

/-- An 8b/10b training frame (R172, R179, R180, R181): bad ones are counted; good ones count towards message
acceptance, the LISTENING exit and the polarity test. -/
def trainingFrame (l : Lane) (good : Bool) (msg : List Byte) (inv : Bool) (w : Wall) : Wall :=
  let st := laneSt l.val w
  if st ≠ 1 ∧ st ≠ 2 ∧ st ≠ 8 then w
  else
    let r := w.lane l.val
    let g := laneGroup l w
    let known := (msg.headD 0).toNat == 1 || (msg.headD 0).toNat == 2
    let ok := good && known
    let same := decide (msg.take 10 = r.lastMsg)
    let r := { r with
      goodRun := runOf ok r.goodRun
      badRun := runOf inv r.badRun
      lastMsg := if ok then msg.take 10 else []
      sameMsgs := if ok then (if same then r.sameMsgs + 1 else 1) else 0 }
    let w := when (!good) (fun w => w.bump (Reg.trainBadFrames l.val) 1) (w.setLane l.val r)
    let w := if 64 ≤ r.badRun ∧ w.get (Reg.rxPolarity l.val) = 0 then
        (w.set (Reg.rxInverted l.val) (1 - w.get (Reg.rxInverted l.val))).modLane l.val fun r => { r with badRun := 0 }
      else w
    if st = 8 ∧ 16 ≤ r.goodRun then
      match g with
      | .sub sp => enterDetect sp.val 7 w
      | .alone l => detectAlone l.val (setFails g 7 w)
    else w

/-- A READY frame is received; after COUNT 0 the receiver switches to the agreed rate (R182). -/
def readyHeard (l : Lane) (count : Nat) (w : Wall) : Wall :=
  if laneSt l.val w = 2 ∧ count = 0 then w.modLane l.val fun r => { r with rxPam4 := true } else w

/-- The transmitter has sent READY with COUNT 0; with every lane of the group there, PAM4 (R169, R182). -/
def readyEnd (l : Lane) (w : Wall) : Wall :=
  let g := laneGroup l w
  if laneSt l.val w = 2 ∧ (w.lane l.val).readySent then
    let w := w.modLane l.val fun r => { r with txPam4 := true }
    if (groupLanes g w).all fun x => (w.lane x).txPam4 then setGroupSt g 3 w else w
  else w

/-- The receiver sets RX_READY, its sweeps done (R162, R184, R246). -/
def rxReadySet (l : Lane) (coarse fine : List Nat) (w : Wall) : Wall :=
  let g := laneGroup l w
  if laneSt l.val w = 3 ∧ ((w.lane l.val).rxPam4 ∨ noGossip g w) then
    let w := w.set (Reg.ctleCode l.val) (trainCode l.val coarse fine w)
    let w := w.modLane l.val fun r => { r with rxReady := true }
    if noGossip g w && (groupLanes g w).all fun x => (w.lane x).rxReady then setGroupSt g 4 w else w
  else w

/-- A pool lane has trained (R216): it stays in SPARE; a lane under retest waits for its measurement (R231). -/
def aloneTrained (l : Nat) (w : Wall) : Wall :=
  let rate := if bareSvc w then 1 else w.get (Reg.spareRate (brickOfLane l))
  let w := w.modLane l fun r => { r with trained := some rate, freeSeen := false, pair := none }
  if laneUseOf l w = 2 then w else setLaneSt l 10 (if h : l < 1088 then setFails (.alone ⟨l, h⟩) 0 w else w)

/-- After the COUNT 0 training frame the transmitter starts the data stream (R185); with every lane there, LOCKED. -/
def trainingEnd (l : Lane) (w : Wall) : Wall :=
  let g := laneGroup l w
  let r := w.lane l.val
  if laneSt l.val w = 3 ∧ r.rxReady ∧ 3 ≤ r.peerRxReady then
    match g with
    | .alone _ => aloneTrained l.val w
    | .sub _ =>
      let w := w.modLane l.val fun r => { r with txData := true }
      if (groupLanes g w).all fun x => (w.lane x).txData then setGroupSt g 4 w else w
  else w

/-! ### Capability exchange (R190 to R192) -/

/-- Capabilities this side implements (R191): all four, or bits 0 and 3 in bare service; and offers. -/
def ownCaps (sp : Nat) (w : Wall) : Nat := w.get (Reg.offerCaps (sp / 8)) % 16 &&& (if bareSvc w then 9 else 15)

/-- Send a Gossip word on every lane of a sub-port's group (R190). -/
def sendGroup (sp kind exch payload : Nat) (w : Wall) : Wall :=
  (spRoles sp w).foldl (fun w r =>
    let l := laneOf (sp / 8) r w
    if h : l < 1088 then w.emit (.gossip ⟨l, h⟩ kind exch r payload) else w) w

/-- The group enters ACTIVE with its capability set (R169, R191): SP_STATE 2 and event 0x0601. -/
def enterActive (sp caps : Nat) (w : Wall) : Wall :=
  let p := sp / 8
  let w := setSpGroup sp 6 w
  let w := setSpGrp sp { spGrp sp w with held10s := false, activeAt := w.time.tclk } w
  let w := setSpSt sp 2 (w.set (Reg.agreedCaps p (sp % 8)) caps)
  let w := { w with ing := { w.ing with seqEg := tputD w.ing.seqEg sp 0 0 } }
  let w := fcCheckAll sp w
  raise (stewardSrc (brickOfPort p)) 0x0601 (sp + (spGrp sp w).rate * 2 ^ 16 + spWidthOf sp w * 2 ^ 24) 13 w

/-- Does this side lead: is its SEED higher (R182)? -/
def leads (sp : Nat) (w : Wall) : Bool :=
  let r := w.lane ((grpLanes sp w).headD 0)
  decide (r.peerSeed < r.seed)

/-- The next EXCH number of a leader: one more modulo 256, skipping 0 (R191). -/
def nextExch (n : Nat) : Nat := n % 255 + 1

/-- Block lock on every lane of the group: EXCHANGE, or ACTIVE without Gossip (R169, R175). -/
def blockLock (g : Group) (w : Wall) : Wall :=
  match g with
  | .alone _ => w
  | .sub sp =>
    if spGrpSt sp.val w ≠ 4 then w
    else if noGossip g w then enterActive sp.val 0 w
    else
      let w := setGroupSt g 5 w
      let r := spGrp sp.val w
      if leads sp.val w then
        let e := nextExch r.led
        let w := setSpGrp sp.val { r with leader := true, exch := e, led := e, accepted := none } w
        sendGroup sp.val 1 e (ownCaps sp.val w + 16) w
      else setSpGrp sp.val { r with leader := false, exch := 0, accepted := none } w

/-- The lower of two Gossip versions, of which this side's is 1. -/
def capSet (offer own : Nat) : Nat := (offer % 16 &&& own) + min 1 (offer / 16 % 16) * 16

/-- An OFFER: the follower answers with ACCEPT (R191 step 3); a repeat is answered again (R192). -/
def offerHeard (sp exch payload : Nat) (w : Wall) : Wall :=
  let r := spGrp sp w
  if r.leader then w
  else if spGrpSt sp w = 5 ∧ r.accepted.isNone then
    let s := capSet payload (ownCaps sp w)
    sendGroup sp 2 exch s (setSpGrp sp { r with exch := exch, accepted := some s } w)
  else if (spGrpSt sp w = 5 ∨ spGrpSt sp w = 6) ∧ r.exch = exch then
    match r.accepted with
    | some s => sendGroup sp 2 exch s w
    | none => w
  else w

/-- An ACCEPT: the leader sends CONFIRM (R191 step 4). -/
def acceptHeard (sp exch payload : Nat) (w : Wall) : Wall :=
  let r := spGrp sp w
  if r.leader ∧ spGrpSt sp w = 5 ∧ r.exch = exch ∧ r.accepted.isNone then
    sendGroup sp 3 exch (payload % 256) (setSpGrp sp { r with accepted := some (payload % 256) } w)
  else w

/-- A CONFIRM: the follower takes the set as agreed and enters ACTIVE (R191 step 5); a repeat is answered again. -/
def confirmHeard (sp exch : Nat) (w : Wall) : Wall :=
  let r := spGrp sp w
  if r.leader ∨ r.exch ≠ exch then w
  else match r.accepted with
    | none => w
    | some s =>
      if spGrpSt sp w = 5 then sendGroup sp 0 exch 2 (enterActive sp (s + exch * 256) w)
      else if spGrpSt sp w = 6 then sendGroup sp 0 exch 2 w else w

/-- A STATUS word (R184, R185, R188, R191 step 6). -/
def statusHeard (l : Lane) (exch payload : Nat) (w : Wall) : Wall :=
  let g := laneGroup l w
  if laneSt l.val w = 3 ∧ bit payload 2 then
    w.modLane l.val fun r => { r with peerRxReady := if bit payload 0 then r.peerRxReady + 1 else 0 }
  else match g with
    | .sub sp =>
      let r := spGrp sp.val w
      if spGrpSt sp.val w = 5 ∧ bit payload 1 ∧ r.leader ∧ r.exch = exch then
        match r.accepted with
        | some s => enterActive sp.val (s + exch * 256) w
        | none => w
      else w
    | .alone _ => w

/-! ### Block lock, CDR lock and the causes of R170 (R165, R193) -/

/-- A group past DETECT and not yet ACTIVE. -/
def training (g : Group) (w : Wall) : Bool := decide (2 ≤ groupSt g w) && decide (groupSt g w ≤ 5)

end Sys2Proof.Machine
end

