-- ==== Sys2Proof/Machine/Repoint.lean ====
section
/-! DEFINITION. Repointing exchanges (R219 to R233), lane faults (R193, R194), spares and retests (R216, R217,
R231), the round and its surveys (R234 to R239), the Almanac (R241, R242) and the re-plan (R244 to R248). -/

namespace Sys2Proof.Machine

/-! ### Words of an exchange (R220, R221) -/

/-- Send an exchange word on every live lane of the group and on the spare. -/
def sendExch (k : Nat) (e : Exch) (kind payload : Nat) (w : Wall) : Wall :=
  let p := k / 16
  let w := match spOfRole p (k % 16) w with
    | some sp => sendGroup sp kind e.exch payload w
    | none => w
  if h : e.spare < 1088 then w.emit (.gossip ⟨e.spare, h⟩ kind e.exch (k % 16) payload) else w

def prepareWord (k : Nat) (e : Exch) : Nat :=
  k % 16 + e.spare % 68 * 2 ^ 4 + e.peerSpare * 2 ^ 11 + b2n e.unplanned * 2 ^ 18 + b2n e.survey * 2 ^ 19 + b2n e.retire * 2 ^ 20

/-- Codewords of a sub-port in 1 µs (R267): 625 at 3.2T. -/
def codewordsPerUs (sp : Nat) (w : Wall) : Nat := spRate sp w * 625 / 3200

/-- ROLL with DELTA 32 µs after its sending (R225 step 5). -/
def rollWord (k : Nat) (w : Wall) : Nat :=
  k % 16 + (match spOfRole (k / 16) (k % 16) w with | some sp => 32 * codewordsPerUs sp w | none => 0) * 2 ^ 4

/-! ### Starting an exchange (R222, R225, R228) -/

/-- The spare joins the role beside its old lane: the bridge (R214, R225). -/
def bridge (k l : Nat) (w : Wall) : Wall := setLaneSt l 6 ((setUse l 0 w).set (Reg.serves l) k)

/-- Start an exchange of a role onto a spare as the initiator: PREPARE (R222: numbers 1 to 255). -/
def startExch (k spare : Nat) (unplanned survey retire_ : Bool) (w : Wall) : Wall :=
  let p := k / 16
  match spOfRole p (k % 16) w with
  | none => w
  | some sp =>
    let n := nextExch (tgetD w.lan.exchNo sp 0)
    let wasPool := match tget w.lan.surveys spare with | some _ => true | none => false
    let e : Exch :=
      { initiator := true, exch := n, spare := spare, peerSpare := ((w.lane spare).pair).getD 127,
        old := laneOf p (k % 16) w, unplanned := unplanned, survey := survey, retire := retire_, bridged := unplanned,
        selfBridged := false, peerBridged := false, rollCopies := [], rollSent := false, taken := false,
        peerRolled := false, tries := 0, oldFaulty := unplanned, oldWasPool := wasPool }
    let w := { w with lan := { w.lan with exchNo := tput w.lan.exchNo sp n } }
    let w := when unplanned (bridge k spare) w
    sendExch k e 5 (prepareWord k e) (putExch k e w)

def groupRate (sp : Nat) (w : Wall) : Nat := (spGrp sp w).rate
def capOf (sp i : Nat) (w : Wall) : Bool := bit (w.get (Reg.agreedCaps (sp / 8) (sp % 8))) i

/-! ### Faults (R193, R194, R216, R227, R230, R238) -/

/-- The survey of this side, in a brick, whose spare a fault may claim (R238). -/
def claimable (p rate : Nat) (w : Wall) : Option Nat :=
  (w.lan.surveys.find? fun e => e.2.own && e.2.role.isSome && e.2.phase == .measuring && e.2.faultFor.isNone &&
    reaches e.2.spare p w && (w.lane e.2.spare).trained == some rate).map (·.1)

/-- The survey ends and its role returns hitlessly; its spare then goes to the fault of role `k` (R238). -/
def claimSpare (lane k : Nat) (w : Wall) : Wall :=
  match tget w.lan.surveys lane with
  | none => w
  | some s =>
    let w := { w with lan := { w.lan with surveys := tput w.lan.surveys lane { s with phase := .returning, faultFor := some k } } }
    match s.role with
    | some r => startExch r lane false false false w
    | none => w

/-- A fault on a role with no exchange in progress: an unplanned exchange when capability bit 0 is agreed and a
spare is free, the round's spare if no other is, else the sub-port goes down with reason 4 (R228, R230, R238). -/
def faultRole (k sp : Nat) (w : Wall) : Wall :=
  let p := k / 16
  let rate := groupRate sp w
  if !capOf sp 0 w || w.get (Reg.trainMode p) == 1 then downRetrain sp 4 w
  else match freeList p rate w with
    | l :: _ => startExch k l true false false w
    | [] =>
      match claimable p rate w with
      | some lane => if (brickOfLane lane == brickOfPort p && !bareSvc w) then claimSpare lane k w else downRetrain sp 4 w
      | none => downRetrain sp 4 w

/-- A pool lane becomes faulty with no exchange using it: it leaves the pool, held for retest (R216). -/
def spareFault (l : Nat) (w : Wall) : Wall :=
  if laneUseOf l w = 1 ∧ laneSt l w = 10 then
    match w.lan.exchs.find? fun e => e.2.spare == l with
    | some e => holdForRetest l 0 (abandon e.1 4 w)
    | none => holdForRetest l 0 (clearCurrent l (delSurvey l w))
  else w

/-- A lane is faulty under R193: what the steward does depends on what the lane serves. -/
def laneFault (l : Lane) (w : Wall) : Wall :=
  let b := brickOfLane l.val
  match w.lan.exchs.find? fun e => e.2.spare == l.val with
  | some (k, e) =>
    -- the spare of an exchange (R227)
    let w := holdForRetest l.val 0 (abandon k 4 (pulse b 0 w))
    if e.oldFaulty then
      match spOfRole (k / 16) (k % 16) w with | some sp => faultRole k sp w | none => w
    else w
  | none =>
    match spOfLane l.val w with
    | none => if laneUseOf l.val w = 1 then spareFault l.val (pulse b 0 w) else w
    | some sp =>
      let k := w.get (Reg.serves l.val)
      if spGrpSt sp w ≠ 6 then w
      else
        let w := pulse b 0 w
        match tget w.lan.exchs k with
        | some e =>
          -- the old lane of an exchange in progress (R227, R230)
          if e.unplanned || e.old ≠ l.val then w
          else
            let e' := { e with oldFaulty := true, taken := e.taken || e.selfBridged }
            let w := putExch k e' w
            when (e.selfBridged && !e.taken) (sendExch k e' 8 (k % 16)) w
        | none => faultRole k sp w

/-! ### The Almanac (R241, R242) -/

def almKey (kind unit : Nat) : Nat := kind * 2048 + unit
def almRecs (kind unit : Nat) (w : Wall) : List AlmRec := tgetD w.lan.almanac (almKey kind unit) []

/-- A list of up to three eye values, as a 24-bit field. -/
def eyes (l : List Nat) : Nat := (l.take 3).foldr (fun b a => min b 255 + 256 * a) 0

/-- The 40 bytes of a record (R241). -/
def almBody (r : AlmRec) : Nat :=
  r.kind + r.rate * 2 ^ 8 + r.unit * 2 ^ 16 + r.age % 2 ^ 32 * 2 ^ 32 + r.epoch * 2 ^ 64 + r.ctle * 2 ^ 72 +
  r.swing * 2 ^ 80 + r.temp % 256 * 2 ^ 88 + r.vcore * 2 ^ 96 + r.v * 2 ^ 112 + r.h * 2 ^ 136 + r.pv * 2 ^ 160 +
  r.ph * 2 ^ 168 + r.bitsLog2 * 2 ^ 176 + r.pErrLog2 * 2 ^ 184 + r.errors * 2 ^ 192 + r.action * 2 ^ 224 +
  r.old * 2 ^ 232 + r.new * 2 ^ 240 + r.deficit % 2 ^ 32 * 2 ^ 256 + r.seq % 2 ^ 32 * 2 ^ 288

/-- The age that log-time is taken of (R242). -/
def logAge (r : AlmRec) : Nat := max r.age 3600

/-- Of the records but the first and the newest, the index of the one with the smallest gap in log-time to the one
before it, the older on a tie (R242); gaps are compared as ratios of ages. -/
def almDrop : Nat → Option (Nat × Nat × Nat) → List AlmRec → Option Nat
  | i, best, a :: b :: c :: l =>
    let x := logAge b
    let y := logAge a
    let best' := match best with
      | some (_, bx, by_) => if x * by_ < bx * y then some (i + 1, x, y) else best
      | none => some (i + 1, x, y)
    almDrop (i + 1) best' (b :: c :: l)
  | _, best, _ => best.map (·.1)

/-- Commit a record, with the tombstone of the record it displaces in one commit group (R242, R483). -/
def almCommit (r : AlmRec) (w : Wall) : Wall :=
  let l := almRecs r.kind r.unit w
  let seq := (l.getLast?.map (·.seq)).getD 0
  let r : AlmRec := { r with seq := if l = [] then 0 else (seq + 1) % 2 ^ 32 }
  let all := l ++ [r]
  let limit := if r.kind = 1 then 16 else 64
  let drop := if limit < all.length then almDrop 0 none all else none
  let keep := match drop with | some i => all.eraseIdx i | none => all
  let rkey (s : Nat) : Nat := s % 2 ^ 16 + r.unit * 2 ^ 16
  let type := if r.kind = 1 then 0x02 else 0x03
  let w := { w with lan := { w.lan with almanac := tput w.lan.almanac (almKey r.kind r.unit) keep } }
  let w := newDom (if r.kind = 1 then (0x6000 + r.unit) * 256 + 0x2F else 0x1483 * 256 + 3 + r.unit) w
  let w := when drop.isNone (fun w => w.bump Reg.almanacRecords 1) w
  if granaryShut w then w
  else
    let g := w.gra.genNext
    let lay := w.get Reg.granaryLayout
    let new := groupOf type (rkey r.seq) false [almBody r] 3 .none g lay
    let items := match drop.bind fun i => all[i]? with
      | some d => new.map (fun c => { c with sheaf := { c.sheaf with last := false } }) ++ groupOf type (rkey d.seq) true [0] 3 .none g lay
      | none => new
    askSheaves items { w with gra := { w.gra with genNext := g + 1 } }

/-! ### Trend fit (R244) -/

/-- Slope and value of the least-squares line at `X`, as fractions with a common positive denominator: slope per
unit of `x`, value; `none` for too few points or too narrow a span. -/
def lineFit (pts : List (Int × Int)) (X : Int) : Option (Int × Int × Int) :=
  let n : Int := pts.length
  let sx := (pts.map (·.1)).sum
  let sy := (pts.map (·.2)).sum
  let sxx := (pts.map fun p => p.1 * p.1).sum
  let sxy := (pts.map fun p => p.1 * p.2).sum
  let d := n * sxx - sx * sx
  if d ≤ 0 then none else some (n * sxy - sx * sy, sy * d + (n * X - sx) * (n * sxy - sx * sy), d)

/-- Margin metrics of a record: V, H, and P scaled by H_FLOOR (R244). -/
def least3 (v rate : Nat) : Nat := if rate = 2 then v % 256 else min (v % 256) (min (v / 256 % 256) (v / 65536 % 256))
def metricV (r : AlmRec) : Nat := least3 r.v r.rate
def metricH (r : AlmRec) : Nat := least3 r.h r.rate
def metricP (hf : Nat) (r : AlmRec) : Nat := min (r.pv * hf) (6 * r.ph)

/-- One metric's fit over log-time: `none` when MIN_POINTS or the span of ages forbids it. -/
def fitOf (m : AlmRec → Nat) (pts : List AlmRec) (w : Wall) : Option (Int × Int × Int) :=
  let ages := pts.map logAge
  if pts.length < w.get Reg.minPoints ∨ ages.foldl max 0 < 4 * ages.foldl min (2 ^ 64) then none
  else lineFit (pts.map fun r => (Config.log10 (logAge r), (m r : Int)))
    (Config.log10 (max 3600 (w.get Reg.serviceS + w.get Reg.horizonDays * 86400)))

/-- Is a metric low (R244)? Its floor is scaled as the metric is. -/
def lowM (m : AlmRec → Nat) (floor : Nat) (pts : List AlmRec) (new : AlmRec) (w : Wall) : Bool :=
  decide (m new < floor) ||
  (match fitOf m pts w with
   | some (_, num, d) => decide (num < (floor : Int) * (d * pts.length))
   | none => false)

/-- A fraction in Q16.16, rounded down or up: the spec gives no rounding (log entry 4). -/
def q16 (num den : Int) (w : Wall) : Int × Wall :=
  let q := (num * 65536).fdiv den
  if q * den = num * 65536 then (q, w) else (if w.freeB then q + 1 else q, w.took)

/-- TREND_SLOPE and TREND_PROJECTED show the V fit (R244); Config.log10 is in units of 2^-32. -/
def showTrend (l : Nat) (pts : List AlmRec) (w : Wall) : Wall :=
  match fitOf metricV pts w with
  | some (s, num, d) =>
    let a := q16 (s * 2 ^ 32) d w
    let b := q16 num (d * pts.length) a.2
    (b.2.setI (Reg.trendSlope l) a.1).setI (Reg.trendProjected l) b.1
  | none => w

/-! ### Re-plan (R245 to R247) -/

def logTwo (n : Nat) : Nat := bitLen n - 1

/-- The record of a measurement on a lane (R241). -/
def laneRecord (l : Nat) (m : SurveyMeas) (pv ph perr : Nat) (w : Wall) : AlmRec :=
  { kind := 1, rate := laneRateOf l w, unit := l, age := w.get Reg.serviceS, epoch := w.get (Reg.settingsEpoch l),
    ctle := w.get (Reg.ctleCode l), swing := w.get (Reg.txSwing l), temp := w.get (Reg.tj (courseOfBrick (brickOfLane l))),
    vcore := w.get Reg.vcoreMv, v := eyes m.v, h := eyes m.h, pv := min pv 255, ph := min ph 255,
    bitsLog2 := logTwo m.bits, pErrLog2 := perr % 256, errors := min m.errors 0xFFFFFFFF, action := 0, old := 0, new := 0,
    deficit := 0, seq := 0 }

/-- Show a survey's results in the lane's objects (R251). -/
def showSurvey (r : AlmRec) (w : Wall) : Wall :=
  let l := r.unit
  ((((w.set (Reg.surveyAgeS l) r.age).set (Reg.surveyV l) r.v).set (Reg.surveyH l) r.h).set (Reg.surveyPartner l) (r.pv + r.ph * 256)).set (Reg.surveyErrors l) r.errors

/-- What the re-plan decides: action, old and new value, and what the lane keeps. -/
structure Replan where
  action : Nat
  old : Nat
  new : Nat
  kept : Bool
  retire : Bool

def noPlan : Replan := { action := 0, old := 0, new := 0, kept := false, retire := false }

/-- The least V and H of a measurement. -/
def minOf (l : List Nat) : Nat := l.foldl min 255

/-- One CTLE step re-measured: kept when a low metric gained (R245). -/
def ctleKept (lowV lowH : Bool) (base m : SurveyMeas) : Bool :=
  (lowV && decide (minOf base.v + 1 ≤ minOf m.v)) || (lowH && decide (minOf base.h + 1 ≤ minOf m.h))

/-- At most one change per lane per survey, in the order of R245. `re` and `again` are the re-measurements that
follow a change; for a swing change they are what the partner reports. -/
def replan (l : Nat) (lowV lowH lowP : Bool) (pv ph : Nat) (base : SurveyMeas) (re again : Option SurveyMeas) (w : Wall) : Replan :=
  let c := w.get (Reg.ctleCode l)
  let s := w.get (Reg.txSwing l)
  let hf := w.get Reg.hFloor
  let toRetire : Replan := { noPlan with retire := true }
  if lowV || lowH then
    if w.get (Reg.ctleOverride l) ≠ 255 then toRetire
    else
      let up := match re with | some m => decide (c < 36) && ctleKept lowV lowH base m | none => false
      let dn := match again with | some m => decide (0 < c) && ctleKept lowV lowH base m | none => false
      if up then { noPlan with action := 1, old := c, new := c + 1, kept := true }
      else if dn then { noPlan with action := 2, old := c, new := c - 1, kept := true }
      else toRetire
  else if lowP then
    if w.get (Reg.txSwingOverride l) ≠ 255 ∨ w.get Reg.swingMax ≤ s then toRetire
    else match re with
      | some m =>
        if min (pv * hf) (6 * ph) + hf ≤ min (minOf m.v * hf) (6 * minOf m.h)
        then { noPlan with action := 3, old := s, new := s + 1, kept := true } else toRetire
      | none => toRetire
  else noPlan

/-- A kept change and its new SETTINGS_EPOCH (R245, R246). -/
def applyPlan (l : Nat) (p : Replan) (w : Wall) : Wall :=
  if !p.kept then w
  else
    let w := (w.set (Reg.settingsEpoch l) ((w.get (Reg.settingsEpoch l) + 1) % 256)).bump Reg.replanActions 1
    match p.action with
    | 1 => (w.set (Reg.ctleCode l) p.new).setI (Reg.ctleBias l) (w.getI (Reg.ctleBias l) + 1)
    | 2 => (w.set (Reg.ctleCode l) p.new).setI (Reg.ctleBias l) (w.getI (Reg.ctleBias l) - 1)
    | _ => (w.set (Reg.txSwing l) p.new).set (Reg.swingPlan l) p.new

/-- Free pool lanes of a port, whatever their rate. -/
def freeCount (p : Nat) (w : Wall) : Nat := ((brickLanes (brickOfPort p)).filter fun l => poolIdle l w && reaches l p w).length

/-- The re-plan of one survey that this side started: the record to commit and whether the lane is retired
(R244 to R247, R233). -/
def surveyPlan (l : Nat) (role : Option Nat) (m : SurveyMeas) (re again : Option SurveyMeas) (s : SurveyRt) (w : Wall) : AlmRec × Bool × Wall :=
  let r0 := laneRecord l m s.peerV s.peerH s.peerErr w
  let pts := ((almRecs 1 l w).filter fun x => x.epoch == r0.epoch) ++ [r0]
  let mode := w.get Reg.replanMode
  let b := stewardSrc (brickOfLane l)
  if mode = 0 ∨ role.isNone then (r0, false, w)
  else
    let w := showTrend l pts w
    let lowV := lowM metricV (w.get Reg.vFloorMv) pts r0 w
    let lowH := lowM metricH (w.get Reg.hFloor) pts r0 w
    let lowP := lowM (metricP (w.get Reg.hFloor)) (w.get Reg.vFloorMv * w.get Reg.hFloor) pts r0 w
    if !(lowV || lowH || lowP) then (r0, false, w)
    else if mode = 1 then
      ({ r0 with action := 7 }, false, raise b 0x0504 (7 + l * 2 ^ 8) 12 w)
    else
      let p := replan l lowV lowH lowP s.peerV s.peerH m re again w
      if p.retire then
        match role with
        | none => (r0, false, w)
        | some k =>
          if !w.flag Reg.retireEnable then (r0, false, w)
          else if !(match spOfRole (k / 16) (k % 16) w with | some sp => capOf sp 1 w | none => false) then (r0, false, raise b 0x0503 l 12 w)
          else if w.get Reg.retireMinSpares ≤ freeCount (k / 16) w then ({ r0 with action := 5 }, true, w)
          else ({ r0 with action := 6 }, false, raise b 0x0502 (l + 2 * 2 ^ 16) 12 w)
      else
        let w := applyPlan l p w
        ({ r0 with action := p.action, old := p.old, new := p.new }, false, w)

/-! ### Completing an exchange (R225 step 8, R228, R231, R249) -/

/-- The lane an exchange has left. -/
def leaveLane (e : Exch) (w : Wall) : Wall :=
  if e.unplanned || e.oldFaulty then holdForRetest e.old 0 w
  else if e.survey then setLaneSt e.old 11 ((setUse e.old 2 w).set (Reg.serves e.old) 0xFFFF)
  else if e.retire then retire e.old (if e.initiator then 2 else 4) w
  else if e.oldWasPool then toSpare e.old w
  else holdForRetest e.old 0 w

/-- What follows for the surveys: measuring starts, or the role is back (R236, R238, R239). -/
def surveyAfter (k : Nat) (e : Exch) (w : Wall) : Wall :=
  let sp := spOfRole (k / 16) (k % 16) w
  let setSp (v : Nat) (w : Wall) : Wall := match sp with | some x => setSpSt x v w | none => w
  if e.survey then
    let old := tgetD w.lan.surveys e.old { role := some k, spare := e.spare, phase := .measuring, own := false, peerV := 0, peerH := 0, peerErr := 0, faultFor := none }
    setSp 4 { w with lan := { w.lan with surveys := tput w.lan.surveys e.old { old with phase := .measuring } } }
  else match tget w.lan.surveys e.spare with
    | some s =>
      let w := setSp 2 (when s.own (clearCurrent e.spare) (delSurvey e.spare w))
      match s.faultFor with
      | some f => match spOfRole (f / 16) (f % 16) w with
        | some _ => startExch f e.old true false false w
        | none => w
      | none => w
    | none => w

/-- The exchange ends: both receivers have taken the role from the spare. -/
def completeExch (k : Nat) (w : Wall) : Wall :=
  match tget w.lan.exchs k with
  | none => w
  | some e =>
    if !e.taken || !e.peerRolled then w
    else
      let p := k / 16
      let r := k % 16
      let b := brickOfPort p
      let w := leaveLane e (delExch k w)
      let w := setLaneSt e.spare 6 (assign p r e.spare w)
      let w := match spOfRole p r w with
        | some sp => if r = 2 * (sp % 8) then w.set (Reg.rxRefLane p (sp % 8)) e.spare else w
        | none => w
      let w := if e.unplanned then
          raise (stewardSrc b) 0x0501 (e.old + e.spare * 2 ^ 16 + min (w.get (Reg.lastInterruptNs b) / 100) 0xFFFF * 2 ^ 32) 12
            (w.bump (Reg.unplannedCount b) 1)
        else w.bump (Reg.plannedCount b) 1
      quietRetry p (surveyAfter k e w)

/-- A receiver takes the role from the spare: the reference-lane shift of R415, and ROLLED. -/
def takeRole (k : Nat) (e : Exch) (shift : Int) (w : Wall) : Wall :=
  let p := k / 16
  let e := { e with taken := true }
  let w := putExch k e w
  let w := match spOfRole p (k % 16) w with
    | some sp => if k % 16 = 2 * (sp % 8) then w.setI (Reg.rxRefShift p (sp % 8)) (w.getI (Reg.rxRefShift p (sp % 8)) + shift) else w
    | none => w
  completeExch k (sendExch k e 8 (k % 16) w)

/-! ### Exchange words received (R221 to R228) -/

/-- Sub-port and role key a word names: the sub-port of the lane it came on, or the exchange that uses the lane. -/
def wordKey (l : Lane) (role : Nat) (w : Wall) : Option (Nat × Nat) :=
  match spOfLane l.val w with
  | some sp => if hasRole sp role w then some (sp, sp / 8 * 16 + role) else none
  | none => (w.lan.exchs.find? fun e => e.2.spare == l.val && e.1 % 16 == role).bind fun e =>
      (spOfRole (e.1 / 16) role w).map fun sp => (sp, e.1)

/-- Send REFUSE (R223) for an exchange number of the partner. -/
def refuse (sp exch role reason : Nat) (w : Wall) : Wall := sendGroup sp 9 exch (role + reason * 16) w

/-- Own SEED of a group is the higher (R224). -/
def seedWins (sp : Nat) (w : Wall) : Bool := leads sp w

/-- Why a responder refuses a PREPARE (R223), if it does. -/
def prepareRefusal (sp mine theirs : Nat) (unplanned survey : Bool) (w : Wall) : Option Nat :=
  let b := brickOfSp sp
  let rate := groupRate sp w
  let caps := if unplanned then capOf sp 0 w else capOf sp 1 w && (!survey || capOf sp 2 w)
  if !caps then some 2
  else if sp ∈ w.prt.lockLost ∧ !unplanned then some 4
  else if (w.lane mine).trained ≠ some rate ∧ laneUseOf mine w = 1 ∧ laneSt mine w = 10 then some 5
  else
    let back := tget w.lan.surveys mine
    let free := freeFor mine (sp / 8) rate w && (w.lane mine).pair == some theirs
    if free || back.isSome && brickOfLane mine == b then none else some 1

/-- Accept a PREPARE as the responder: bridge, and READY (R225 step 2, R228). -/
def acceptPrepare (k exch mine theirs : Nat) (unplanned survey retire_ : Bool) (w : Wall) : Wall :=
  let wasPool := (tget w.lan.surveys mine).isSome
  let e : Exch :=
   { initiator := false, exch := exch, spare := mine, peerSpare := theirs, old := laneOf (k / 16) (k % 16) w,
     unplanned := unplanned, survey := survey, retire := retire_, bridged := true, selfBridged := false, peerBridged := false,
     rollCopies := [], rollSent := false, taken := false, peerRolled := false, tries := 0, oldFaulty := unplanned, oldWasPool := wasPool }
  let w := putExch k e (bridge k mine w)
  sendExch k e 6 (k % 16) w

/-- A PREPARE (R222 to R225, R228, R239). -/
def prepareHeard (l : Lane) (exch payload : Nat) (w : Wall) : Wall :=
  match wordKey l (payload % 16) w with
  | none => w
  | some (sp, k) =>
    if spGrpSt sp w ≠ 6 then w
    else
      let mine := brickOfSp sp * 68 + bits payload 17 11
      let theirs := bits payload 10 4
      let un := bit payload 18
      let sv := bit payload 19
      let rt := bit payload 20
      let go (w : Wall) : Wall :=
        match prepareRefusal sp mine theirs un sv w with
        | some reason => refuse sp exch (k % 16) reason w
        | none => acceptPrepare k exch mine theirs un sv rt w
      let lose (k' : Nat) (w : Wall) : Wall :=
        match tget w.lan.exchs k' with
        | some e => go (abandon k' 3 (sendExch k' e 9 (k' % 16 + 3 * 16) w))
        | none => go w
      match tget w.lan.exchs k with
      | some e =>
        if !e.initiator && e.exch == exch then sendExch k e 6 (k % 16) w
        else if e.initiator && (!e.bridged || e.unplanned) && !e.taken then
          if seedWins sp w then w else lose k w
        else refuse sp exch (k % 16) 3 w
      | none =>
        match w.lan.exchs.find? fun e => e.2.spare == mine with
        | some (k', e) => if e.initiator && !e.bridged then (if seedWins sp w then w else lose k' w) else go w
        | none => go w

/-- An exchange READY (R225 steps 3 to 5). -/
def exchReady (l : Lane) (exch payload : Nat) (w : Wall) : Wall :=
  match wordKey l (payload % 16) w with
  | none => w
  | some (_, k) =>
    match tget w.lan.exchs k with
    | none => w
    | some e =>
      if e.exch ≠ exch then w
      else
        let w := when (e.initiator && !e.bridged) (bridge k e.spare) w
        let e := { e with bridged := true }
        if bit payload 4 && !e.unplanned && !e.rollSent then
          let e := { e with peerBridged := true, rollSent := true }
          sendExch k e 7 (rollWord k w) (putExch k e w)
        else putExch k e w

/-- 100 µs of comparison without mismatch: READY with BRIDGED (R225 step 4). -/
def bridgeDone (p role : Nat) (w : Wall) : Wall :=
  let k := p * 16 + role
  match tget w.lan.exchs k with
  | some e =>
    if e.bridged && !e.unplanned && !e.selfBridged && !e.oldFaulty then
      let e := { e with selfBridged := true }
      sendExch k e 6 (role + 16) (putExch k e w)
    else w
  | none => w

/-- A copy of a ROLL (R221). -/
def rollHeard (l : Lane) (exch payload codeword : Nat) (w : Wall) : Wall :=
  match wordKey l (payload % 16) w with
  | none => w
  | some (_, k) =>
    match tget w.lan.exchs k with
    | some e =>
      if e.exch = exch ∧ !e.taken then
        putExch k { e with rollCopies := (l.val, codeword) :: e.rollCopies.filter fun c => c.1 != l.val } w
      else w
    | none => w

/-- Do two lanes name the same roll codeword (R221)? -/
def rollHeld (c : List (Nat × Nat)) : Bool := c.any fun a => c.any fun b => a.1 != b.1 && a.2 == b.2

/-- The roll codeword arrives (R225 step 6). -/
def rollCodeword (p role : Nat) (shift : Int) (w : Wall) : Wall :=
  let k := p * 16 + role
  match tget w.lan.exchs k with
  | some e => if !e.unplanned && !e.taken && rollHeld e.rollCopies then takeRole k e shift w else w
  | none => w

/-- A ROLLED: the transmitter stops the old lane (R225 step 7). -/
def rolledHeard (l : Lane) (exch payload : Nat) (w : Wall) : Wall :=
  match wordKey l (payload % 16) w with
  | none => w
  | some (_, k) =>
    match tget w.lan.exchs k with
    | some e => if e.exch = exch then completeExch k (putExch k { e with peerRolled := true } w) else w
    | none => w

/-- No ROLLED 16 µs after the roll codeword: ROLL again, up to 8 times, then REFUSE 4 and abandon (R226). -/
def rollTimeout (p role : Nat) (w : Wall) : Wall :=
  let k := p * 16 + role
  match tget w.lan.exchs k with
  | some e =>
    if !e.rollSent || e.peerRolled then w
    else if e.tries < 8 then
      let e := { e with tries := e.tries + 1 }
      sendExch k e 7 (rollWord k w) (putExch k e w)
    else abandon k 4 (sendExch k e 9 (role + 4 * 16) w)
  | none => w

/-- The receiver has deskewed the spare: an unplanned exchange, or a planned one whose old lane failed (R227, R228). -/
def spareDeskewed (p role : Nat) (shift : Int) (ns : Nat) (w : Wall) : Wall :=
  let k := p * 16 + role
  match tget w.lan.exchs k with
  | some e =>
    if e.bridged && e.oldFaulty && !e.taken then
      takeRole k e shift (when e.unplanned (fun w => w.set (Reg.lastInterruptNs (brickOfPort p)) ns) w)
    else w
  | none => w

/-- A REFUSE: the exchange is abandoned with the partner's reason (R223). A role whose lane has failed is a fault
again (R230). -/
def refuseHeard (l : Lane) (exch payload : Nat) (w : Wall) : Wall :=
  match wordKey l (payload % 16) w with
  | none => w
  | some (sp, k) =>
    match tget w.lan.exchs k with
    | some e =>
      if e.exch ≠ exch then w
      else
        let w := abandon k (bits payload 7 4) w
        if e.unplanned && e.initiator && bits payload 7 4 != 3 then downRetrain sp 4 w
        else match tget w.lan.surveys e.old with
          | some s => if e.survey && s.own then clearCurrent e.old (delSurvey e.old w) else w
          | none => w
    | none => w

/-- A SPARE word (R217): freedom and pairing. -/
def spareHeard (l : Lane) (payload : Nat) (w : Wall) : Wall :=
  if laneUseOf l.val w = 1 ∧ laneSt l.val w = 10 then
    let was := (w.lane l.val).freeSeen
    let w := w.modLane l.val fun r => { r with freeSeen := bit payload 7, pair := some (payload % 128) }
    when (!was && bit payload 7) (retryNoLane (brickOfLane l.val)) w
  else w

/-- A RETIRE word: the paired lane is retired with cause 4 (R232). -/
def retireHeard (l : Lane) (payload : Nat) (w : Wall) : Wall :=
  let b := brickOfLane l.val
  let n := bits payload 10 4
  let lanes := brickLanes b
  match lanes.find? fun x => (w.lane x).pair == some n && laneUseOf x w == 1 with
  | some x => retire x 4 w
  | none =>
    let x := b * 68 + n
    if n < 68 ∧ laneUseOf x w = 2 then retire x 4 (endSurvey x w) else w

/-! ### Spares and retests (R216, R231, R232, R629) -/

/-- The burst of a trained pool lane: SPARE words (R216, R220). -/
def spareBurst (l : Lane) (w : Wall) : Wall :=
  if laneUseOf l.val w = 1 ∧ laneSt l.val w = 10 then
    w.emit (.gossip l 4 0 0 (l.val % 68 + b2n (!exchHolds l.val w) * 128))
  else w

/-- The retest wait of a held lane ends: it trains alone (R231). -/
def retestStart (l : Lane) (w : Wall) : Wall :=
  if laneUseOf l.val w = 2 ∧ laneSt l.val w = 11 ∧ !surveying l.val w then
    detectAlone l.val (w.modLane l.val fun r => { r with retesting := true })
  else w

/-- A retest's measurement completes (R231). -/
def retestMeasured (l : Lane) (m : SurveyMeas) (w : Wall) : Wall :=
  let r := w.lane l.val
  if laneUseOf l.val w = 2 ∧ r.retesting ∧ r.trained.isSome then
    if m.errors * 1000000 ≤ m.bits ∧ w.get Reg.vFloorMv ≤ minOf m.v ∧ w.get Reg.hFloor ≤ minOf m.h then
      let w := w.modLane l.val fun r => { r with retesting := false, retestFails := 0, freeSeen := false, pair := none }
      let w := setLaneSt l.val 10 (setUse l.val 1 w)
      -- R629: it retrains when the brick's SPARE_RATE has changed since
      if r.trained = some (if bareSvc w then 1 else w.get (Reg.spareRate (brickOfLane l.val))) then w else detectAlone l.val w
    else retestFailed l.val w
  else w

/-- RETIRE_CLEAR := 1 (R232). -/
def retireClear (l : Nat) (w : Wall) : WRes :=
  if laneUseOf l w = 3 then .ok ((holdForRetest l 0 w).set (Reg.retireCause l) 0) else .abort aState

/-- SPARE_RATE: every pool lane that nothing holds retrains alone (R629). -/
def spareRate (b : Nat) (w : Wall) : Wall :=
  (brickLanes b).foldl (fun w l =>
    if laneUseOf l w == 1 && !exchHolds l w && !surveying l w then detectAlone l (w.modLane l fun r => { r with trained := none }) else w) w

/-! ### The round (R234 to R239) -/

def RoundRt.init : RoundRt := { todo := [], again := [], second := false, current := none, asked := [] }
def Wall.round (w : Wall) (b : Nat) : RoundRt := tgetD w.lan.rounds b RoundRt.init
def Wall.setRound (w : Wall) (b : Nat) (r : RoundRt) : Wall := { w with lan := { w.lan with rounds := tput w.lan.rounds b r } }

/-- A round starts: assigned lanes by local number, then pool lanes (R234). -/
def startRound (w : Wall) : Wall :=
  let w := w.set Reg.roundActive 1
  let w := { w with lan := { w.lan with roundStartS := w.get Reg.serviceS } }
  upTo 16 (fun b w =>
    let l := brickLanes b
    let todo := (l.filter fun x => laneUseOf x w == 0) ++ (l.filter fun x => laneUseOf x w == 1)
    let w := w.setRound b { w.round b with todo := todo, again := [], second := false }
    (w.set (Reg.roundDone b) 0).set (Reg.roundSkipped b) 0) w

/-- May a round start (R234)? -/
def roundMay (w : Wall) : Bool := w.flag Reg.roundEnable && !bareSvc w && !w.bnd.dozing && !w.flag Reg.roundActive

/-- An assigned lane is eligible (R235). -/
def eligibleLane (l : Nat) (w : Wall) : Bool :=
  match spOfLane l w with
  | none => false
  | some sp =>
    let p := sp / 8
    let b := brickOfSp sp
    spSt sp w == 2 && capOf sp 1 w && capOf sp 2 w &&
    !(w.lan.exchs.any fun e => e.1 / 16 == p && hasRole sp (e.1 % 16) w) &&
    ((List.range 32).all fun k => !(decide (1 ≤ spGrpSt (b * 32 + k) w) && decide (spGrpSt (b * 32 + k) w ≤ 5))) &&
    decide (2 ≤ (freeList p (groupRate sp w) w).length)

def putSurvey (l : Nat) (s : SurveyRt) (w : Wall) : Wall := { w with lan := { w.lan with surveys := tput w.lan.surveys l s } }
def newSurvey (role : Option Nat) (spare : Nat) (phase : SurveyPhase) : SurveyRt :=
  { role := role, spare := spare, phase := phase, own := true, peerV := 0, peerH := 0, peerErr := 0, faultFor := none }

/-- Survey a lane, if it is eligible now (R235, R237). -/
def surveyLane (b l : Nat) (w : Wall) : Option Wall :=
  let w' := (w.setRound b { w.round b with current := some l }).set (Reg.roundLane b) l
  if laneUseOf l w = 1 then
    if laneSt l w = 10 ∧ !exchHolds l w then some (putSurvey l (newSurvey none l .measuring) w') else none
  else if eligibleLane l w then
    let k := w.get (Reg.serves l)
    match spOfLane l w with
    | none => none
    | some sp =>
      match freeList (k / 16) (groupRate sp w) w with
      | s :: _ => some (startExch k s false true false (putSurvey l (newSurvey (some k) s .moving) w'))
      | [] => none
  else none

/-- Round end (R234, R240, R248): course records, the AVS target and its one request. -/
def courseRecord (c : Nat) (w : Wall) : Wall :=
  almCommit
   { kind := 2, rate := 0, unit := c, age := w.get Reg.serviceS, epoch := 0, ctle := 0, swing := 0,
     temp := w.get (Reg.tj c), vcore := w.get Reg.vcoreMv, v := 0, h := 0, pv := 0, ph := 0, bitsLog2 := 0, pErrLog2 := 0,
     errors := 0, action := 0, old := 0, new := 0, deficit := ofInt 32 (w.getI (Reg.ttDeficitC c)), seq := 0 } w

/-- Projection of a course's deficit, in whole ppm rounded down: fitted as in R244, or the deficit itself without a
fit. -/
def deficitProj (c : Nat) (w : Wall) : Int :=
  let pts := almRecs 2 c w
  let ages := pts.map logAge
  if pts.length < w.get Reg.minPoints ∨ ages.foldl max 0 < 4 * ages.foldl min (2 ^ 64) then w.getI (Reg.ttDeficitC c)
  else match lineFit (pts.map fun r => (Config.log10 (logAge r), toInt 32 r.deficit))
      (Config.log10 (max 3600 (w.get Reg.serviceS + w.get Reg.horizonDays * 86400))) with
    | some (_, num, d) => num.fdiv (d * pts.length)
    | none => w.getI (Reg.ttDeficitC c)

/-- AVS_TARGET_MV of R248; a target above AVS_MAX_MV raises event 0x0504. -/
def avsTarget (w : Wall) : Wall :=
  let d := (List.range 4).foldl (fun a c => max a (deficitProj c w)) 0
  let want := w.get Reg.avsBaseMv + 5 * (d.toNat / w.get Reg.ttStepPpm)
  let t := min (w.get Reg.avsMaxMv) (max (w.get Reg.avsMinMv) want)
  let w := w.set Reg.avsTargetMv t
  let w := when (decide (w.get Reg.avsMaxMv < want)) (raise 0 0x0504 4 12) w
  if w.get Reg.vcoreMv < t then { w with bnd := { w.bnd with avsRound := true } } else w

/-- The round ends once every brick has visited its lanes (R234). -/
def roundEnd (w : Wall) : Wall :=
  if w.flag Reg.roundActive ∧ (List.range 16).all fun b => (w.round b).todo == [] && (w.round b).second && (w.round b).current.isNone then
    let w := (w.set Reg.roundActive 0).bump Reg.roundCount 1
    avsTarget (upTo 4 courseRecord w)
  else w

/-- The next lane of a brick: one asked for by SURVEY_NOW, or the round's next (R234, R236, R251). -/
def surveyStart (b : Nat) (w : Wall) : Wall :=
  let r := w.round b
  let w := latch b 8 w
  if r.current.isSome || bareSvc w || w.bnd.dozing then w
  else match r.asked with
    | l :: rest =>
      let w := w.setRound b { r with asked := rest }
      match surveyLane b l w with | some w' => w' | none => w
    | [] =>
      if !w.flag Reg.roundActive then w
      else match r.todo with
        | l :: rest =>
          let w := w.setRound b { r with todo := rest }
          match surveyLane b l w with
          | some w' => w'
          | none =>
            let w := when (!r.second) (fun w => (w.bump (Reg.roundSkipped b) 1).setRound b { w.round b with again := r.again ++ [l] }) w
            roundEnd w
        | [] => if r.second then roundEnd w else roundEnd (w.setRound b { r with todo := r.again, again := [], second := true })

/-- SURVEY phases and the partner's results (R220, R236, R239). -/
def surveyHeard (l : Lane) (payload : Nat) (w : Wall) : Wall :=
  match w.lan.surveys.find? fun e => brickOfLane e.1 == brickOfLane l.val && (e.1 == l.val || (match e.2.role with
      | some k => k % 16 == payload % 16 && (spOfLane l.val w).map (· / 8) == some (k / 16)
      | none => false)) with
  | none => w
  | some (x, s) =>
    match bits payload 5 4 with
    | 1 => putSurvey x { s with peerV := bits payload 13 6, peerH := bits payload 19 14, peerErr := bits payload 27 20 } w
    | 2 => if s.own then w else delSurvey x w
    | _ => w

/-- Send SURVEY with PHASE 1, this end's results (R220, R236 step 4). -/
def sendResults (x : Nat) (s : SurveyRt) (m : SurveyMeas) (phase : Nat) (w : Wall) : Wall :=
  let pay := (match s.role with | some k => k % 16 | none => 0) + phase * 2 ^ 4 + min (minOf m.v) 255 * 2 ^ 6 +
    min (minOf m.h) 63 * 2 ^ 14 + bitLen m.errors * 2 ^ 20
  if h : x < 1088 then w.emit (.gossip ⟨x, h⟩ 10 0 0 pay) else w

/-- The survey period of a lane of this side's round ends (R236 steps 4 to 7, R237). -/
def ownSurveyEnd (l : Nat) (s : SurveyRt) (m : SurveyMeas) (re again : Option SurveyMeas) (w : Wall) : Wall :=
  let w := sendResults l s m 1 w
  let plan := surveyPlan l s.role m re again s w
  let w := almCommit plan.1 (showSurvey plan.1 plan.2.2)
  let w := w.bump (Reg.roundDone (brickOfLane l)) 1
  match s.role with
  | none => clearCurrent l (delSurvey l w)
  | some k =>
    if plan.2.1 then
      -- the role stays on the spare, and the lane is retired with cause 2 (R247)
      let w := clearCurrent l (delSurvey l w)
      let w := retire l 2 w
      match spOfRole (k / 16) (k % 16) w with | some sp => setSpSt sp 2 w | none => w
    else
      let w := sendResults l s m 2 (putSurvey l { s with phase := .returning } w)
      startExch k l false false false (w.modLane l fun r => { r with pair := some (l % 68) })

/-- The survey period in a brick ends: this side's survey first, else one the partner started (R239). -/
def surveyPrbsEnd (b : Nat) (m : SurveyMeas) (re again : Option SurveyMeas) (w : Wall) : Wall :=
  let here := w.lan.surveys.filter fun e => brickOfLane e.1 == b && e.2.phase == .measuring
  match here.find? fun e => e.2.own with
  | some (l, s) => ownSurveyEnd l s m re again w
  | none =>
    match here with
    | (l, s) :: _ =>
      let w := sendResults l s m 1 w
      let r := laneRecord l m s.peerV s.peerH s.peerErr w
      almCommit r (showSurvey r (putSurvey l { s with phase := .returning } w))
    | [] => w

/-- SURVEY_NOW := 1: the lane is surveyed next in its brick (R251). -/
def surveyNow (l : Nat) (w : Wall) : Wall :=
  let b := brickOfLane l
  w.setRound b { w.round b with asked := (w.round b).asked ++ [l] }

/-! ### Tell-tales and SERVICE_S (R240, R243) -/

/-- Deficit of one pair in ppm. -/
def deficitPpm (stressed ref : Nat) : Int := if ref = 0 then 0 else (((ref : Int) - stressed) * 1000000).fdiv ref

/-- Each course shows the largest deficit of its eight pairs (R240). -/
def telltale (stressed reference : List Nat) (w : Wall) : Wall :=
  let w := upTo 4 (fun c w =>
    let ds := (List.range 8).map fun i => deficitPpm (stressed.getD (c * 8 + i) 0) (reference.getD (c * 8 + i) 0)
    w.setI (Reg.ttDeficitC c) (ds.foldl max (ds.headD 0))) w
  latch 16 55 w

end Sys2Proof.Machine
end

