-- ==== Sys2Proof/Machine/Parse.lean ====
section
/-! DEFINITION. Reading frames at fixed offsets: extraction profiles (R314 to R319), checksums (R321, R395),
fragments (R325), the class of a frame (R286), and PTP event messages (R418). -/

namespace Sys2Proof.Machine

/-! ### Bytes of an OCTETS value and of a frame -/

/-- Byte `i` of an OCTETS value (R20). -/
def octet (v i : Nat) : Nat := v / 256 ^ i % 256

/-- A 16-bit field of a frame, most significant byte first. -/
def u16at (f : List Byte) (o : Nat) : Nat := frameBe f o 2
def byteAt (f : List Byte) (o : Nat) : Nat := (f.getD o 0).toNat

/-! ### Profiles (R315 to R318) -/

/-- One test of R315 as its 6-byte value `t`: enabled, and passed on the frame. -/
def testOn (t : Nat) : Bool := bit (octet t 1) 0
def testOff (t : Nat) : Nat := octet t 0
def testPasses (t : Nat) (f : List Byte) : Bool :=
  (u16at f (testOff t) ^^^ (t / 2 ^ 16 % 2 ^ 16)) &&& (t / 2 ^ 32 % 2 ^ 16) == 0

/-- Test `j` of profile `i`. -/
def shapeTest (i j : Nat) (w : Wall) : Nat := w.get (Reg.shape i) / 2 ^ (48 * j) % 2 ^ 48

/-- Offset and length of descriptor `j` of profile `i` (R318). -/
def fieldDesc (i j : Nat) (w : Wall) : Nat × Nat :=
  let d := w.get (Reg.fields i) / 2 ^ (16 * j) % 2 ^ 16
  (d % 256, d / 256 % 16)
def fieldDescs (i : Nat) (w : Wall) : List (Nat × Nat) := (List.range 16).map fun j => fieldDesc i j w

def l3Off (i : Nat) (w : Wall) : Nat := bits (w.get (Reg.l3 i)) 6 0
def l3Kind (i : Nat) (w : Wall) : Nat := bits (w.get (Reg.l3 i)) 8 7
def l3Verify (i : Nat) (w : Wall) : Bool := bit (w.get (Reg.l3 i)) 9
def l4Off (i : Nat) (w : Wall) : Nat := bits (w.get (Reg.l4 i)) 6 0
def l4Verify (i : Nat) (w : Wall) : Bool := bit (w.get (Reg.l4 i)) 7

/-- The greatest frame length that an enabled test, a field, L3 or L4 of a profile refers to (R316). -/
def profReach (i : Nat) (w : Wall) : Nat :=
  let t := (List.range 8).map fun j => if testOn (shapeTest i j w) then testOff (shapeTest i j w) + 2 else 0
  let f := (fieldDescs i w).map fun d => if d.2 = 0 then 0 else d.1 + d.2
  let a := match l3Kind i w with | 1 => l3Off i w + 20 | 2 => l3Off i w + 40 | _ => 0
  let b := if w.get (Reg.l4 i) = 0 then 0 else l4Off i w + 8
  (t ++ f ++ [a, b]).foldl max 0

/-- A profile matches a frame (R316). -/
def profMatches (i : Nat) (f : List Byte) (w : Wall) : Bool :=
  ((List.range 8).all fun j => !testOn (shapeTest i j w) || testPasses (shapeTest i j w) f) &&
  decide (profReach i w ≤ f.length)

/-- The chain of a sub-port: entries up to the first 0xFF (R317). -/
def profChain (sp : Nat) (w : Wall) : List Nat :=
  ((List.range 4).map fun j => octet (w.get (Reg.profileChain sp)) j).takeWhile (· ≠ 0xFF)

/-- The profile of a frame, and whether it is the fallback (R317). -/
def chooseProf (sp : Nat) (f : List Byte) (w : Wall) : Option (Nat × Bool) :=
  match (profChain sp w).find? fun i => profMatches i f w with
  | some i => some (i, false)
  | none => if w.get (Reg.fallbackProfile sp) = 0xFF then none else some (w.get (Reg.fallbackProfile sp), true)

/-- Bytes of one field; beyond the frame's end they read as zero. -/
def fieldBytes (d : Nat × Nat) (f : List Byte) : List Byte := (List.range d.2).map fun k => f.getD (d.1 + k) 0

/-- The data region of the key: 56 bytes (R318). -/
def extractData (i : Nat) (f : List Byte) (w : Wall) : List Byte :=
  fit 56 ((fieldDescs i w).map fun d => fieldBytes d f).flatten

/-- Run of data bytes that descriptor `j` fills: first and length (R318). -/
def fieldRun (i j : Nat) (w : Wall) : Nat × Nat :=
  ((((List.range j).map fun k => (fieldDesc i k w).2).sum), (fieldDesc i j w).2)

/-! ### Internet checksums (R321, R395) -/

/-- Sum of 16-bit words, most significant byte first; a last odd byte is padded with zero. -/
def sum16 : List Byte → Nat
  | [] => 0
  | [a] => a.toNat * 256
  | a :: b :: l => a.toNat * 256 + b.toNat + sum16 l

/-- One's complement sum folded to 16 bits. -/
def fold16 : Nat → Nat → Nat
  | 0, s => s
  | n + 1, s => if s < 2 ^ 16 then s else fold16 n (s % 2 ^ 16 + s / 2 ^ 16)

/-- Internet checksum of a sum of words. -/
def cksum (s : Nat) : Nat := 0xFFFF - fold16 8 s

/-- Protocol of R321, and end of the IP payload by the IP length field. -/
def ipProto (kind off : Nat) (f : List Byte) : Nat := if kind = 1 then byteAt f (off + 9) else byteAt f (off + 6)
def ipEnd (kind off : Nat) (f : List Byte) : Nat :=
  if kind = 1 then off + u16at f (off + 2) else off + 40 + u16at f (off + 4)

/-- Sum of the pseudo-header and of the bytes from the L4 header to the end of the IP payload. -/
def l4Sum (kind off l4 : Nat) (f : List Byte) : Nat :=
  let e := ipEnd kind off f
  let body := (f.take e).drop l4
  let addr := if kind = 1 then (f.drop (off + 12)).take 8 else (f.drop (off + 8)).take 32
  sum16 addr + ipProto kind off f + (e - l4) / 2 ^ 16 + (e - l4) % 2 ^ 16 + sum16 body

/-- Fragment kinds of R325: 0 none, 1 first, 2 later. -/
def fragKind (kind off : Nat) (f : List Byte) : Nat :=
  if kind = 1 then
    let x := u16at f (off + 6)
    if x % 2 ^ 13 ≠ 0 then 2 else if bit x 13 then 1 else 0
  else if kind = 2 ∧ byteAt f (off + 6) = 44 then
    let x := u16at f (off + 42)
    if x / 8 ≠ 0 then 2 else if bit x 0 then 1 else 0
  else 0

/-- Does a profile handle fragments (R324)? -/
def gleans (i : Nat) (w : Wall) : Bool := w.get (Reg.gleanFields i) != 0
/-- Gleaner kind of a frame under a profile; none under one that handles no fragments. -/
def gleanKind (i : Nat) (f : List Byte) (w : Wall) : Nat := if gleans i w then fragKind (l3Kind i w) (l3Off i w) f else 0

/-- L3CK (R321). -/
def l3ckOf (i : Nat) (f : List Byte) (w : Wall) : Nat :=
  if l3Verify i w ∧ l3Kind i w = 1 then
    if fold16 8 (sum16 ((f.drop (l3Off i w)).take 20)) = 0xFFFF then 1 else 2
  else 0

/-- L4CK (R321). -/
def l4ckOf (i : Nat) (f : List Byte) (w : Wall) : Nat :=
  let k := l3Kind i w
  let o := l3Off i w
  let l4 := l4Off i w
  let p := ipProto k o f
  if l4Verify i w ∧ (k = 1 ∨ k = 2) ∧ gleanKind i f w = 0 ∧ l3ckOf i f w ≠ 2 ∧ (p = 6 ∨ p = 17) then
    if f.length < ipEnd k o f then 2
    else if p = 17 ∧ u16at f (l4 + 6) = 0 then (if k = 1 then 0 else 2)
    else if fold16 8 (l4Sum k o l4 f) = 0xFFFF then 1 else 2
  else 0

/-- The identity of a fragment's datagram (R323): fields, and their bytes in the order listed. -/
structure FragId where
  kind : Nat
  src : Nat
  dst : Nat
  ident : Nat
  proto : Nat
  deriving DecidableEq

def fragId (kind off : Nat) (f : List Byte) : FragId :=
  if kind = 1 then { kind := 1, src := frameBe f (off + 12) 4, dst := frameBe f (off + 16) 4, ident := u16at f (off + 4), proto := byteAt f (off + 9) }
  else { kind := 2, src := frameBe f (off + 8) 16, dst := frameBe f (off + 24) 16, ident := frameBe f (off + 44) 4, proto := byteAt f (off + 40) }

def fragBytes (d : FragId) : List Byte :=
  let n := if d.kind = 1 then 4 else 16
  toBe 1 d.kind ++ toBe n d.src ++ toBe n d.dst ++ toBe (if d.kind = 1 then 2 else 4) d.ident ++ toBe 1 d.proto

/-- Set of an identity (R323). -/
def fragSet (d : FragId) : Nat := crc32c (fragBytes d) % 256

/-- Fragment offset in bytes, payload length, and more-fragments (R326). -/
def fragPart (kind off : Nat) (f : List Byte) : Nat × Nat × Bool :=
  if kind = 1 then
    let x := u16at f (off + 6)
    (x % 2 ^ 13 * 8, u16at f (off + 2) - 20, bit x 13)
  else
    let x := u16at f (off + 42)
    (x / 8 * 8, u16at f (off + 4) - 8, bit x 0)

/-! ### Class and PTP (R286, R418) -/

/-- Traffic class of a frame (R286). -/
def frameTc (sp : Nat) (f : List Byte) (w : Wall) : Nat :=
  if w.get (Reg.fcMode sp) = 1 then w.get (Reg.defaultTc sp)
  else if u16at f 12 = 0x8100 then tcOfPrio sp (byteAt f 14 / 32) w
  else w.get (Reg.defaultTc sp)

/-- Offset of the PTP header of an event message (R418). -/
def ptpAt (sp : Nat) (f : List Byte) (w : Wall) : Option Nat :=
  let at_ (o : Nat) : Option Nat := if byteAt f o % 16 < 4 ∧ o < f.length then some o else none
  match w.get (Reg.ptpEncap sp) with
  | 1 => if u16at f 12 = 0x88F7 then at_ 14 else none
  | 2 => if u16at f 12 = 0x8100 ∧ u16at f 16 = 0x88F7 then at_ 18 else none
  | 3 => if u16at f 12 = 0x0800 ∧ byteAt f 14 = 0x45 ∧ byteAt f 23 = 17 ∧ u16at f 36 = 319 then at_ 42 else none
  | 4 => if u16at f 12 = 0x86DD ∧ byteAt f 20 = 17 ∧ u16at f 56 = 319 then at_ 62 else none
  | _ => none

/-! ### Frame statistics (R597, R598, R606) -/

/-- Bucket of a frame length (R597). -/
def sizeBucket (n : Nat) : Nat :=
  if n ≤ 64 then 0 else if n ≤ 127 then 1 else if n ≤ 255 then 2 else if n ≤ 511 then 3
  else if n ≤ 1023 then 4 else if n ≤ 1518 then 5 else if n ≤ 9216 then 6 else 7

/-- 0 unicast, 1 multicast, 2 broadcast, by a destination address in network order. -/
def destKind (dst : Nat) : Nat := if dst = 2 ^ 48 - 1 then 2 else if bit dst 40 then 1 else 0

/-- A received frame without fault: slots 0 to 4, 80 to 87 and 104 to 111, its tally window, events 0x02 and 0x03. -/
def countRx (sp len dst tc : Nat) (w : Wall) : Wall :=
  let w := stat sp (2 + destKind dst) 1 (stat sp 1 len (stat sp 0 1 w))
  let w := stat sp (104 + tc) 1 (stat sp (80 + sizeBucket len) 1 w)
  let w := modTally sp (fun t => { t with rxBytes := t.rxBytes + len, rxFrames := t.rxFrames + 1 }) w
  pcSp sp 0x03 len (some tc) (pcSp sp 0x02 1 (some tc) w)

/-- A frame sent without a stomped FCS; `tc` is the class of its queue, none for a PAUSE or PFC frame. -/
def countTx (sp len dst : Nat) (tc : Option Nat) (w : Wall) : Wall :=
  let w := stat sp (7 + destKind dst) 1 (stat sp 6 len (stat sp 5 1 w))
  let w := stat sp (88 + sizeBucket len) 1 w
  let w := match tc with | some n => stat sp (112 + n) 1 w | none => w
  let w := modTally sp (fun t => { t with txBytes := t.txBytes + len, txFrames := t.txFrames + 1 }) w
  pcSp sp 0x05 len tc (pcSp sp 0x04 1 tc w)

end Sys2Proof.Machine
end

