-- ==== Sys2Proof/Machine/Sieve.lean ====
section
/-! DEFINITION. The Sieve with its banks, swap and scrub (R330 to R339), policers (R340), the hash and the
indirection table (R342, R343), and the Gleaner table (R323, R326, R328). -/

namespace Sys2Proof.Machine

/-! ### Once per millisecond (R63, R304, R354) -/

/-- Do `f` unless the same thing was done less than 1 ms ago. -/
def oncePerMs (key : Nat) (f : Wall → Wall) (w : Wall) : Wall :=
  let due := match tget w.ing.lastMs key with
    | some t => decide (t + 800000 ≤ w.time.tclk)
    | none => true
  if due then f { w with ing := { w.ing with lastMs := tput w.ing.lastMs key w.time.tclk } } else w

/-! ### The brick window (R355, R357) -/

def brickWin (b : Nat) : Nat := 0x01000000 + b * 0x100000
/-- A window access discarded and counted as in R50. -/
def badWindow (w : Wall) : Wall := w.bump Reg.unmappedAccess 1

def sieveStatus (b : Nat) (w : Wall) : Nat := w.win32 (brickWin b + 0x84) 0
/-- REFUSED and UNCORRECTABLE of SIEVE_STATUS; its other fields are copies of other state. -/
def setRefused (b : Nat) (r : Bool) (w : Wall) : Wall :=
  w.setWin (brickWin b + 0x84) 0 (sieveStatus b w / 4 * 4 + b2n r * 2)

/-- SIEVE_STAGE as one number of 1024 bits, and its writing. -/
def stageOf (b : Nat) (w : Wall) : Nat := (List.range 32).foldr (fun k a => w.win32 (brickWin b + 4 * k) 0 + 2 ^ 32 * a) 0
def setStage (b v : Nat) (w : Wall) : Wall := upTo 32 (fun k w => w.setWin (brickWin b + 4 * k) 0 (v / 2 ^ (32 * k))) w

/-! ### Entries (R330, R356) -/

def sieveKeyOf (b bank i : Nat) : Nat := b * 16384 + bank * 8192 + i
def emptyEntry : SieveEntry := { value := 0, mask := 0, action := 0 }
def entryAt (b bank i : Nat) (w : Wall) : SieveEntry := tgetD w.ing.sieve (sieveKeyOf b bank i) emptyEntry

/-- Write an entry and its master copy; VALUE bits outside the mask are stored as zero (R330). -/
def putEntry (b bank i : Nat) (e : SieveEntry) (w : Wall) : Wall :=
  let e : SieveEntry := { value := e.value &&& e.mask, mask := e.mask, action := e.action / 2 ^ 20 * 2 ^ 20 }
  let k := sieveKeyOf b bank i
  { w with ing := { w.ing with
      sieve := if e = emptyEntry then tdel w.ing.sieve k else tput w.ing.sieve k e
      master := if e = emptyEntry then tdel w.ing.master k else tput w.ing.master k e } }

def entryOf (v : Nat) : SieveEntry := { value := bits v 479 0, mask := bits v 959 480, action := bits v 1023 960 }
def entryBits (e : SieveEntry) : Nat := e.value + e.mask * 2 ^ 480 + e.action * 2 ^ 960

def activeBank (b : Nat) (w : Wall) : Nat := w.get (Reg.activeBank b) % 2
def shadowBank (b : Nat) (w : Wall) : Nat := 1 - activeBank b w
def swapping (b : Nat) (w : Wall) : Bool := w.get (Reg.swapState b) != 0

/-- SIEVE_SHADOW of a brick has taken a new value (R109, R361). -/
def newShadow (b : Nat) (w : Wall) : Wall := newDom ((0x2100 + b * 16) * 256 + 8) w

/-- Clear VALID of an entry. -/
def invalidate (b bank i : Nat) (w : Wall) : Wall :=
  let e := entryAt b bank i w
  putEntry b bank i { e with action := clrBit e.action 63 } w

/-- A SIEVE_CMD write: INDEX and OP are kept, and the operation runs or is refused (R357). -/
def sieveCmd (b i op : Nat) (shadowOp : Bool) (f : Wall → Wall) (w : Wall) : Wall :=
  if shadowOp && swapping b w then setRefused b true w
  else f (setRefused b false (w.setWin (brickWin b + 0x80) 0 (i + op * 2 ^ 16)))

def sieveWriteShadow (b i : Nat) (w : Wall) : Wall :=
  sieveCmd b i 1 true (fun w => newShadow b (putEntry b (shadowBank b w) i (entryOf (stageOf b w)) w)) w
def sieveWriteBoth (b i : Nat) (w : Wall) : Wall :=
  sieveCmd b i 2 false (fun w => let e := entryOf (stageOf b w); newShadow b (putEntry b 1 i e (putEntry b 0 i e w))) w
/-- A read places the entry in SIEVE_STAGE; its master copy is not uncorrectable. -/
def sieveRead (b bank i : Nat) (w : Wall) : Wall :=
  let w := setStage b (entryBits (entryAt b bank i w)) w
  w.setWin (brickWin b + 0x84) 0 (clrBit (sieveStatus b w) 2)
def sieveReadShadow (b i : Nat) (w : Wall) : Wall := sieveCmd b i 3 true (fun w => sieveRead b (shadowBank b w) i w) w
def sieveReadActive (b i : Nat) (w : Wall) : Wall := sieveCmd b i 4 false (fun w => sieveRead b (activeBank b w) i w) w
def sieveInvalidateShadow (b i : Nat) (w : Wall) : Wall := sieveCmd b i 5 true (fun w => newShadow b (invalidate b (shadowBank b w) i w)) w
def sieveInvalidateBoth (b i : Nat) (w : Wall) : Wall := sieveCmd b i 6 false (fun w => newShadow b (invalidate b 1 i (invalidate b 0 i w))) w

/-! ### Swap (R337) -/

/-- A swap starts, and its swap point passes: the other bank is active. -/
def swapStart (b : Nat) (w : Wall) : Wall :=
  let copy := w.flag (Reg.copyAfterSwap b)
  let w := newShadow b ((w.set (Reg.swapState b) (if copy then 2 else 1)).set (Reg.activeBank b) (shadowBank b w))
  { w with ing := { w.ing with swapCopy := tput w.ing.swapCopy b copy } }

def swapWindow (b : Nat) (w : Wall) : Wall :=
  if swapping b w then setRefused b true w else swapStart b (setRefused b false w)

/-- A table of entries with one bank of a brick copied over the other. -/
def copyBank (b src dst : Nat) (t : Tbl SieveEntry) : Tbl SieveEntry :=
  let lo := sieveKeyOf b src 0
  let hi := sieveKeyOf b dst 0
  let kept := tfilter t fun k _ => !(decide (hi ≤ k) && decide (k < hi + 8192))
  (t.filter fun e => decide (lo ≤ e.1) && decide (e.1 < lo + 8192)).foldl (fun a e => tput a (hi + (e.1 - lo)) e.2) kept

/-- The swap ends: with COPY_AFTER_SWAP the new active bank has been copied into the shadow; the Ledger response is sent. -/
def swapDone (b : Nat) (w : Wall) : Wall :=
  if !swapping b w then w
  else
    let w := if tgetD w.ing.swapCopy b true then
        newShadow b { w with ing := { w.ing with sieve := copyBank b (activeBank b w) (shadowBank b w) w.ing.sieve
                                                 master := copyBank b (activeBank b w) (shadowBank b w) w.ing.master } }
      else w
    releaseDeferred (.swap b) 0 none ((w.set (Reg.swapState b) 0).bump (Reg.swapCount b) 1)

/-! ### Scrub (R338, R339) -/

/-- A scrub compare finds agreement, a correct or correctable master copy, or an uncorrectable one. -/
def scrubCompare (b bank i : Nat) (m : Master) (forced : Bool) (w : Wall) : Wall :=
  let w := when (forced && bank == activeBank b w) (fun w => pcCount b 0x09 1 none none (w.bump (Reg.forcedSlots b) 1)) w
  let w := when (m != .agrees && bank == shadowBank b w) (newShadow b) w
  match m with
  | .agrees => w
  | .correct =>
    let k := sieveKeyOf b bank i
    let w : Wall := { w with ing := { w.ing with sieve := match tget w.ing.master k with
        | some e => tput w.ing.sieve k e
        | none => tdel w.ing.sieve k } }
    w.bump (Reg.sieveRepairs b) 1
  | .uncorrectable =>
    raise (stewardSrc b) 0x0701 (i + bank * 2 ^ 16) 14 ((invalidate b bank i w).bump (Reg.sieveDisabled b) 1)

/-! ### Search (R329 to R331) -/

/-- Indices of the matching entries of the active bank, rising, with their actions. -/
def sieveMatches (b key : Nat) (w : Wall) : List (Nat × Nat) :=
  let lo := sieveKeyOf b (activeBank b w) 0
  w.ing.sieve.filterMap fun e =>
    if lo ≤ e.1 ∧ e.1 < lo + 8192 ∧ bit e.2.action 63 ∧ (key ^^^ e.2.value) &&& e.2.mask = 0 then some (e.1 - lo, e.2.action) else none

/-- One search: the action that applies, with the hit counter, SHADOWED and SIEVE_MISSES. -/
def sieveSearch (b sp key : Nat) (w : Wall) : Nat × Wall :=
  let w := pcSp sp 0x06 1 none w
  match sieveMatches b key w with
  | [] => (w.get (Reg.noMatchAction sp), w.bump (Reg.sieveMisses b) 1)
  | (i, a) :: rest =>
    let w : Wall := { w with ing := { w.ing with hits := tmod w.ing.hits (b * 8192 + i) 0 fun n => (n + 1) % 2 ^ 64 } }
    let w := pcSp sp 0x07 1 none w
    (a, when (rest != []) (fun w => pcSp sp 0x08 1 none (w.bump (Reg.shadowed b) 1)) w)

def hitClear (b i : Nat) (w : Wall) : Wall := { w with ing := { w.ing with hits := tdel w.ing.hits (b * 8192 + i) } }

/-! ### Policers (R340, R341, R358) -/

def Policer.off : Policer := { cir := 0, cbs := 0, ebs := 0, flags := 0, tc := 0, te := 0, last := 0 }
def policerAt (b i : Nat) (w : Wall) : Policer := tgetD w.ing.policers (b * 1024 + i) Policer.off

/-- Units of a policer's buckets in one byte: CIR_KBPS kb/s is CIR_KBPS units per dclk. -/
def policerUnit : Nat := 12800000

/-- Write a record: both buckets are full (R340). -/
def putPolicer (b i v : Nat) (w : Wall) : Wall :=
  let p : Policer :=
    { cir := bits v 31 0, cbs := bits v 63 32, ebs := bits v 95 64, flags := bits v 97 96,
      tc := bits v 63 32 * policerUnit, te := bits v 95 64 * policerUnit, last := w.time.dclk }
  { w with ing := { w.ing with policers := tput w.ing.policers (b * 1024 + i) p } }

/-- A record keeps the ranges of R358. -/
def policerOk (v : Nat) : Bool := decide (bits v 63 32 ≤ 0x0FFFFFFF) && decide (bits v 95 64 ≤ 0x0FFFFFFF)

/-- A window write to the last word of a record applies the staged record. -/
def policerApply (b i value : Nat) (w : Wall) : Wall :=
  let o := brickWin b + 0x30000 + i * 16
  let v := w.win32 o 0 + w.win32 (o + 4) 0 * 2 ^ 32 + w.win32 (o + 8) 0 * 2 ^ 64 + value % 4 * 2 ^ 96
  if policerOk v then newDom ((0x2102 + b * 16) * 256 + 1) (putPolicer b i v (w.setWin (o + 12) 0 (value % 4))) else badWindow w

/-- Buckets refilled by elapsed dclk: the committed bucket first, its overflow to the excess bucket (RFC 2697). -/
def refill (p : Policer) (now : Nat) : Policer :=
  let t := p.tc + p.cir * (now - p.last)
  let tc := min t (p.cbs * policerUnit)
  { p with tc := tc, te := min (p.te + (t - tc)) (p.ebs * policerUnit), last := now }

/-- Meter `len` bytes with an input colour: 0 green, 1 yellow, 2 red. -/
def meter (b i len colour : Nat) (blind : Bool) (w : Wall) : Nat × Wall :=
  let p := refill (policerAt b i w) w.time.dclk
  let aware := bit p.flags 1 && !blind
  let need := len * policerUnit
  if !bit p.flags 0 then ((if aware then colour else 0), w)
  else
    let c := if aware then colour else 0
    let r : Nat × Policer :=
      if c = 0 ∧ need ≤ p.tc then (0, { p with tc := p.tc - need })
      else if c ≤ 1 ∧ need ≤ p.te then (1, { p with te := p.te - need })
      else (2, p)
    (r.1, { w with ing := { w.ing with policers := tput w.ing.policers (b * 1024 + i) r.2 } })

/-! ### Hash and indirection (R342, R343) -/

/-- Exchange two runs of the same length. -/
def swapRuns (l : List Byte) (a b n : Nat) : List Byte :=
  splice (splice l a ((l.drop b).take n)) b ((l.drop a).take n)

/-- The data bytes after the symmetric option of a profile. -/
def symData (i : Nat) (data : List Byte) (w : Wall) : List Byte :=
  (List.range 4).foldl (fun d j =>
    let a := octet (w.get (Reg.symPairs i)) (2 * j)
    let b := octet (w.get (Reg.symPairs i)) (2 * j + 1)
    if a < 16 ∧ b < 16 then
      let ra := fieldRun i a w
      let rb := fieldRun i b w
      if frameBe data rb.1 rb.2 < frameBe data ra.1 ra.2 then swapRuns d ra.1 rb.1 ra.2 else d
    else d) data

/-- The hash of a frame's data under a profile. -/
def hashOf (i : Nat) (data : List Byte) (w : Wall) : Nat :=
  let d := symData i data w
  let input := (bitList (w.get (Reg.hashBytes i)) 56).map fun n => d.getD n 0
  crcReg (cvPolyRef 0) (w.get Reg.hashSeed) input

/-- The indirection entry a frame reads. -/
def indEntry (b i : Nat) (w : Wall) : Nat := tgetD w.ing.indirection (b * 4096 + i) (i % 256)
def setIndEntry (b i v : Nat) (w : Wall) : Wall :=
  { w with ing := { w.ing with indirection := tputD w.ing.indirection (b * 4096 + i) (i % 256) (v % 2 ^ 16) } }
def indIndex (sp hash : Nat) (w : Wall) : Nat := w.get (Reg.indBase sp) + hash % 2 ^ w.get (Reg.indSizeLog2 sp)

/-! ### The Gleaner (R323, R326, R328) -/

/-- Key of a Gleaner entry: entry set × 4 + way (R355). -/
def gleanKey (b e : Nat) : Nat := b * 1024 + e

def sameId (g : Glean) (d : FragId) : Bool :=
  g.kind == d.kind && g.src == d.src && g.dst == d.dst && g.ident == d.ident && g.proto == d.proto

/-- The entry of an identity, and the first free way of its set. -/
def gleanFind (b : Nat) (d : FragId) (w : Wall) : Option Nat :=
  (firstBelow 4 fun k => match tget w.ing.glean (gleanKey b (fragSet d * 4 + k)) with
    | some g => sameId g d
    | none => false).map (fragSet d * 4 + ·)
def gleanFree (b : Nat) (d : FragId) (w : Wall) : Option Nat :=
  (firstBelow 4 fun k => (tget w.ing.glean (gleanKey b (fragSet d * 4 + k))).isNone).map (fragSet d * 4 + ·)

def putGlean (b e : Nat) (g : Glean) (w : Wall) : Wall := { w with ing := { w.ing with glean := tput w.ing.glean (gleanKey b e) g } }
def freeGlean (b e : Nat) (w : Wall) : Wall :=
  let w : Wall := { w with ing := { w.ing with glean := tdel w.ing.glean (gleanKey b e) } }
  w.set (Reg.gleanUsed b) (w.get (Reg.gleanUsed b) - 1)

/-- Data-byte runs of the descriptors that GLEAN_FIELDS selects, in key order. -/
def gleanRuns (i : Nat) (w : Wall) : List (Nat × Nat) := (bitList (w.get (Reg.gleanFields i)) 16).map fun j => fieldRun i j w
def gleanBytes (i : Nat) (data : List Byte) (w : Wall) : List Byte :=
  ((gleanRuns i w).map fun r => (data.drop r.1).take r.2).flatten
/-- Put stored bytes in the glean fields of a key. -/
def putGleaned (i : Nat) (stored data : List Byte) (w : Wall) : List Byte :=
  ((gleanRuns i w).foldl (fun (x : List Byte × List Byte) r => (splice x.1 r.1 (fit r.2 x.2), x.2.drop r.2)) (data, stored)).1

/-- What the Gleaner does with a frame of kind first or later: its data, GLEANED, and whether it is an orphan. -/
def gleanStep (b sp i kind : Nat) (f data : List Byte) (w : Wall) : List Byte × Bool × Bool × Wall :=
  let d := fragId (l3Kind i w) (l3Off i w) f
  let part := fragPart (l3Kind i w) (l3Off i w) f
  let w := pcSp sp 0x0F 1 none w
  let now := w.time.dclk
  match gleanFind b d w with
  | some e =>
    let g := tgetD w.ing.glean (gleanKey b e) { kind := 0, src := 0, dst := 0, ident := 0, proto := 0, bytes := [], seen := 0, total := none, refreshed := 0 }
    if kind = 1 then (data, false, false, (putGlean b e { g with refreshed := now } w).bump (Reg.gleanDuplicates b) 1)
    else
      let seen := g.seen + part.2.1
      let total := if part.2.2 then g.total else some (part.1 + part.2.1)
      let over_ := match total with | some t => decide (t ≤ seen) | none => false
      let w := if over_ then (freeGlean b e w).bump (Reg.gleanCompleted b) 1
        else putGlean b e { g with seen := seen, total := total, refreshed := now } w
      (putGleaned i g.bytes data w, true, false, w)
  | none =>
    if kind = 1 then
      match gleanFree b d w with
      | some e =>
        let g : Glean := { kind := d.kind, src := d.src, dst := d.dst, ident := d.ident, proto := d.proto,
                           bytes := gleanBytes i data w, seen := part.2.1, total := none, refreshed := now }
        (data, false, false, (putGlean b e g w).bump (Reg.gleanUsed b) 1)
      | none =>
        (data, false, false, oncePerMs (b * 4 + 1) (raise (stewardSrc b) 0x0704 (fragSet d) 14) (w.bump (Reg.gleanFull b) 1))
    else (putGleaned i [] data w, false, true, w.bump (Reg.gleanOrphans b) 1)

/-- An unrefreshed entry is freed and counted (R328). -/
def gleanExpire (b e : Nat) (w : Wall) : Wall :=
  match tget w.ing.glean (gleanKey b e) with
  | some _ => (freeGlean b e w).bump (Reg.gleanExpired b) 1
  | none => w

/-- GLEAN_FLUSH frees every entry of the brick (R328). -/
def gleanFlush (b : Nat) (w : Wall) : Wall :=
  let w : Wall := { w with ing := { w.ing with glean := tfilter w.ing.glean fun k _ => k / 1024 != b } }
  w.set (Reg.gleanUsed b) 0

end Sys2Proof.Machine
end

