-- ==== Sys2Proof/Machine/Ingress.lean ====
section
/-! DEFINITION. The ingress path of a brick: the MAC's receive checks (R275 to R284), the buffer writer (R309 to
R313), disposition (R321 to R346), decisions and their timeouts (R62, R345, R346), and cells to the Pipe (R348 to
R351). -/

namespace Sys2Proof.Machine

/-! ### The MAC (R276 to R285) -/

/-- Length of a frame without FCS, and the two checks of its FCS (R276, R277). -/
def noFcs (f : List Byte) : List Byte := f.take (f.length - 4)
def fcsGood (f : List Byte) : Bool := ofLe (f.drop (f.length - 4)) == crc32 (noFcs f)
def fcsStomped (f : List Byte) : Bool := ofLe (f.drop (f.length - 4)) == 2 ^ 32 - 1 - crc32 (noFcs f)

/-- Statistic slot of a frame that the MAC marks or the writer refuses (R278, R281, R282); runts come first. -/
def macFault (sp : Nat) (f : List Byte) (codeError : Bool) (w : Wall) : Option Nat :=
  if f.length < 5 then some 15
  else if f.length < 64 then (if fcsGood f ∧ !codeError then some 14 else some 15)
  else if codeError then some 13
  else if w.get (Reg.maxFrame sp) < f.length then some 12
  else if fcsGood f then none
  else if fcsStomped f then some 11
  else some 10

/-- The address filter of a host sub-port (R283, R284). -/
def filterOk (sp : Nat) (f : List Byte) (w : Wall) : Bool :=
  let mode := w.get (Reg.filterMode sp)
  let da := ofLe (f.take 6)
  bit mode 0 || (da == 2 ^ 48 - 1 && bit mode 1) ||
  da == w.get (Reg.spMac sp) || ((List.range 16).any fun k => w.get (Reg.filterAddr sp k) != 0 && w.get (Reg.filterAddr sp k) == da) ||
  (bit (byteAt f 0) 0 && (bit mode 2 || bit (w.get (Reg.mcastHash sp)) (crc32 (f.take 6) / 2 ^ 24)))

/-- A MAC control frame: consumed as PAUSE or PFC, or discarded and counted (R285). -/
def macControl (sp : Nat) (f : List Byte) (w : Wall) : Wall :=
  let op := u16at f 14
  let toUs := frameBe f 0 6 == 0x0180C2000001
  let ok (w : Wall) := countRx sp f.length (frameBe f 0 6) (w.get (Reg.defaultTc sp)) w
  if toUs ∧ op = 1 ∧ w.get (Reg.fcMode sp) = 1 then pauseFrame sp (u16at f 16) (ok w)
  else if toUs ∧ op = 0x0101 ∧ w.get (Reg.fcMode sp) = 2 then
    pfcFrame sp (u16at f 16 % 256) ((List.range 8).map fun n => u16at f (18 + 2 * n)) (ok w)
  else stat sp 17 1 w

/-! ### Timestamps (R413, R415, R417) -/

def adjOf (p dir : Nat) (w : Wall) : Int := toInt 32 (tgetD w.time.adj (p * 2 + dir) 0)

/-- The receive timestamp as a stamp count: RX_ADJ taken off, RX_REF_SHIFT added. -/
def rxStamp (sp stamp : Nat) (w : Wall) : Nat :=
  ofInt 64 ((stamp : Int) - adjOf (sp / 8) 1 w + w.getI (Reg.rxRefShift (sp / 8) (sp % 8)))

/-! ### Writing cells (R309 to R312, R291, R419) -/

/-- The open cell of a sub-port closes. -/
def closeCell (sp : Nat) (w : Wall) : Wall :=
  match (cellsOf sp w).getLast? with
  | some c => if c.closed then w else setCells sp ((cellsOf sp w).dropLast ++ [{ c with closed := true }]) w
  | none => w

/-- Chunks written to a cell. -/
def cellFill (c : ICell) : Nat := (c.segs.map fun s => s.n).sum

inductive Room where
  | ok (w : Wall)
  | noBuffer
  | noHeadroom

/-- Take a new cell for class `tc`: charged to headroom above XOFF_CELLS, else from the free cells (R291, R311). -/
def newCell (sp tc stamp : Nat) (w : Wall) : Room :=
  let p := sp / 8
  let b := brickOfSp sp
  let q := tgetD w.ing.seqIn sp 0
  let charged := aboveXoff sp tc w
  let cell : ICell := { seq := q, segs := [], stamp := stamp % 2 ^ 32, closed := false, sent := false, cls := tc, charged := charged }
  let add (w : Wall) : Wall :=
    let w : Wall := { w with ing := { w.ing with seqIn := tput w.ing.seqIn sp ((q + 1) % 65536) } }
    fcCheck sp tc (setCells sp (cellsOf sp w ++ [cell]) w)
  if charged then
    if w.get (Reg.headroomCells p tc) ≤ w.get (Reg.headroomUsed p tc) then .noHeadroom
    else .ok (add (pcSp sp 0x11 1 (some tc) (w.bump (Reg.headroomUsed p tc) 1)))
  else if w.get (Reg.bufFree b) = 0 then .noBuffer
  else .ok (add (w.set (Reg.bufFree b) (w.get (Reg.bufFree b) - 1)))

/-- Write `left` further chunks of frame `n`, of which `off` bytes are written (R309). -/
def writeChunks (sp n tc stamp : Nat) : Nat → Nat → Nat → Wall → Room
  | 0, _, _, w => .ok w
  | _ + 1, 0, _, w => .ok w
  | k + 1, left, off, w =>
    let go (w : Wall) : Room :=
      match (cellsOf sp w).getLast? with
      | none => .ok w
      | some c =>
        let u := cellFill c
        let m := min left (16 - u)
        let seg : Seg := { frame := n, lo := u, n := m, off := off, starts := off == 0, ends := m == left }
        let first := off == 0 && !(c.segs.any fun s => s.starts)
        let c := { c with segs := c.segs ++ [seg], closed := u + m == 16, stamp := if first then stamp % 2 ^ 32 else c.stamp }
        writeChunks sp n tc stamp k (left - m) (off + 16 * m) (setCells sp ((cellsOf sp w).dropLast ++ [c]) w)
    let isOpen := match (cellsOf sp w).getLast? with | some c => !c.closed | none => false
    if isOpen then go w
    else match newCell sp tc stamp w with
      | .ok w => go w
      | r => r

/-- A frame lost for want of headroom (R291, R304). -/
def headroomDrop (sp tc : Nat) (w : Wall) : Wall :=
  oncePerMs (64 + sp) (raise (stewardSrc (brickOfSp sp)) 0x0603 (sp + tc * 2 ^ 16) 13) (stat sp 31 1 w)

/-! ### To host rings (R333, R530) -/

/-- A frame, or its copy, is due on a receive ring. -/
def toRing (n ring : Nat) (w : Wall) : Wall :=
  let k := 256 + ring % 256
  modFrame n (fun f => { f with hostPending := true }) (w.setRing k { w.ring k with due := (w.ring k).due ++ [n] })

/-! ### Disposition (R322 to R346) -/

/-- A frame leaves the path with one of its discards counted. -/
def discardIn (n sp slot : Nat) (w : Wall) : Wall := stat sp slot 1 (dropIn n w)

/-- The whole frame goes to its host ring instead of the Pipe. -/
def hostOnly (n : Nat) (w : Wall) : Wall :=
  match frameOf n w with
  | some f => toRing n f.ring (modFrame n (fun f => { f with disp := .host }) w)
  | none => w

/-- Handle of a frame (R61): where it begins in its sub-port's cells. -/
def handleOf (sp n : Nat) (w : Wall) : Nat :=
  match (cellsOf sp w).findSome? fun c => (c.segs.find? fun s => s.frame == n && s.starts).map fun s => (c.seq, s.lo) with
  | some (q, lo) => sp % 32 + q * 2 ^ 5 + lo * 2 ^ 21
  | none => sp % 32

/-- What classification finds before the Sieve. -/
structure Class where
  prof : Nat
  fallback : Bool
  data : List Byte
  frag : Nat
  gleaned : Bool
  orphan : Bool
  l3ck : Nat
  l4ck : Nat

/-- The Sieve key (R329). -/
def sieveKey (sp tc len : Nat) (secured : Bool) (c : Class) : Nat :=
  sp % 32 + c.prof * 2 ^ 5 + tc * 2 ^ 11 + c.frag * 2 ^ 14 + b2n c.gleaned * 2 ^ 16 + c.l3ck * 2 ^ 17 + c.l4ck * 2 ^ 19 +
  b2n secured * 2 ^ 21 + b2n c.fallback * 2 ^ 22 + min (len / 64) 255 * 2 ^ 24 + ofLe c.data * 2 ^ 32

/-- The key to the core (R344). -/
def coreKey (handle tag spread colour tc len : Nat) (secured copy : Bool) (c : Class) : Nat :=
  handle + tag * 2 ^ 32 + spread * 2 ^ 48 + colour * 2 ^ 64 + tc * 2 ^ 66 + c.prof * 2 ^ 69 + c.frag * 2 ^ 75 +
  b2n c.gleaned * 2 ^ 77 + b2n secured * 2 ^ 78 + b2n c.fallback * 2 ^ 79 + c.l3ck * 2 ^ 80 + c.l4ck * 2 ^ 82 +
  len % 2 ^ 14 * 2 ^ 84 + b2n copy * 2 ^ 98 + ofLe c.data * 2 ^ 128

/-- A key goes to the core, and the frame waits for its decision (R62, R344). -/
def sendKey (n sp key handle : Nat) (w : Wall) : Wall :=
  let b := brickOfSp sp
  let w := modFrame n (fun f => { f with keyed := true, keyOut := true, handle := handle }) w
  let w : Wall := { w with ing := { w.ing with keysIssued := tmod w.ing.keysIssued b 0 (· + 1) } }
  let w := pcSp sp 0x0A 1 none (w.bump (Reg.pendingKeys b) 1)
  if h : b < 16 then w.emit (.key ⟨b, h⟩ key) else w

/-- Policing, the Sieve, spreading and the disposition of a frame (R331 to R344). -/
def disposeFrame (n sp tc lineLen : Nat) (c : Class) (w : Wall) : Wall :=
  match frameOf n w with
  | none => w
  | some f =>
    let b := brickOfSp sp
    let len := f.bytes.length
    let spm := w.get (Reg.spPolicer sp)
    let m1 := if spm < 1024 then meter b spm lineLen 0 true w else (0, w)
    let s := sieveSearch b sp (sieveKey sp tc len f.secured c) m1.2
    let act := s.1
    let m2 := if bit act 56 then meter b (bits act 55 46) lineLen m1.1 false s.2 else (m1.1, s.2)
    let colour := m2.1
    let w := when (colour == 2) (pcSp sp 0x10 1 none) m2.2
    let ie := indEntry b (indIndex sp (hashOf c.prof c.data w) w) w
    let ring := if bit act 44 then bits act 43 36 else ie % 256
    let dest := if c.orphan ∧ w.get (Reg.orphanDest sp) = 2 then 2 else bits act 62 61
    let tag := bits act 35 20
    let w := modFrame n (fun f => { f with
      ring := ring, tag := tag, colour := colour, frag := c.frag, gleaned := c.gleaned,
      l3ck := c.l3ck, l4ck := c.l4ck, copy := dest == 3 && !w.flag (Reg.hostSp sp) }) w
    if colour = 2 ∧ bit act 45 then discardIn n sp 28 w
    else if dest = 1 then discardIn n sp 27 w
    else if dest = 2 ∨ w.flag (Reg.hostSp sp) then hostOnly n w
    else
      let h := handleOf sp n w
      let ktc := if bit act 60 then bits act 59 57 else tc
      sendKey n sp (coreKey h tag ie colour ktc len f.secured (dest == 3) c) h w

/-- Extraction, checksums and the Gleaner (R317 to R328), then the rest. -/
def classify (n sp tc lineLen : Nat) (w : Wall) : Wall :=
  match frameOf n w with
  | none => w
  | some fr =>
    let f := fr.bytes
    match chooseProf sp f w with
    | none => discardIn n sp 23 w
    | some (i, fb) =>
      let w := when fb (stat sp 22 1) w
      let k3 := l3ckOf i f w
      let k4 := l4ckOf i f w
      if k3 = 2 ∧ bit (w.get (Reg.ckDiscard sp)) 0 then discardIn n sp 24 w
      else if k4 = 2 ∧ bit (w.get (Reg.ckDiscard sp)) 1 then discardIn n sp 25 w
      else
        let kind := gleanKind i f w
        let data := extractData i f w
        let g := if kind = 0 then (data, false, false, w) else gleanStep (brickOfSp sp) sp i kind f data w
        let c : Class := { prof := i, fallback := fb, data := g.1, frag := kind, gleaned := g.2.1, orphan := g.2.2.1, l3ck := k3, l4ck := k4 }
        if c.orphan ∧ g.2.2.2.get (Reg.orphanDest sp) = 1 then discardIn n sp 26 g.2.2.2
        else disposeFrame n sp tc lineLen c g.2.2.2

/-! ### The buffer writer -/

/-- Frame starts that a port's parser can still take at this dclk (R313): three a dclk, sixteen waiting. -/
def parseRoom (p : Nat) (w : Wall) : Option Wall :=
  let r := tgetD w.prt.parse p (w.time.dclk, 0)
  let backlog := r.2 - 3 * (w.time.dclk - r.1)
  if 19 ≤ backlog then none
  else some { w with prt := { w.prt with parse := tput w.prt.parse p (w.time.dclk, backlog + 1) } }

/-- Is a frame diverted to the Reeve (R119)? -/
def isInband (sp : Nat) (f : List Byte) (w : Wall) : Bool :=
  w.flag Reg.inbandEnable && w.get Reg.inbandSp == sp && u16at f 12 == 0x86DD && byteAt f 20 == 17 &&
  ofLe ((f.drop 38).take 16) == w.get Reg.fieldAddr && u16at f 56 == w.get Reg.dvorUdpPort

/-- The divert, within its rate of whole seconds (R119, R120). -/
def divert (sp : Nat) (w : Wall) : Wall :=
  let n := if w.led.inbandSecond = w.second then w.led.inbandCount else 0
  let w : Wall := { w with led := { w.led with inbandSecond := w.second, inbandCount := n + 1 } }
  if w.get Reg.inbandRate ≤ n then w.bump Reg.inbandDropped 1 else stat sp 34 1 w

/-- Admission at a frame's first byte (R310). -/
def admits (sp tc : Nat) (w : Wall) : Bool :=
  aboveXoff sp tc w ||
  (decide (w.get (Reg.reserveCells (brickOfSp sp)) < w.get (Reg.bufFree (brickOfSp sp))) &&
   decide (portCells (sp / 8) w < w.get (Reg.portCapCells (brickOfSp sp))))

/-- An admitted frame is written to cells, its key is formed and it is disposed of (R309, R311, R326). -/
def writeFrame (sp tc lineLen stamp : Nat) (secured ptp : Bool) (f : List Byte) (w : Wall) : Wall :=
  let w0 := when ptp (closeCell sp) w
  let n := w0.ing.nextFrame
  let fr : IFrame :=
    { sp := sp, bytes := f, handle := 0, stamp := t96 ((stamp : Int) + w.time.offset), keyed := false, keyOut := false, disp := .waiting,
      down := false, copy := false, ring := 0, tag := 0, colour := 0, frag := 0, gleaned := false, secured := secured,
      l3ck := 0, l4ck := 0, result := none, hostPending := false }
  let w1 : Wall := { w0 with ing := { w0.ing with nextFrame := n + 1, frames := tput w0.ing.frames n fr } }
  match writeChunks sp n tc stamp 1100 (ceilDiv f.length 16) 0 w1 with
  | .ok w => classify n sp tc lineLen w
  | .noBuffer => stat sp 20 1 w0
  | .noHeadroom => headroomDrop sp tc w0

/-- A frame that has passed the MAC and MACsec reaches the buffer writer. -/
def writerTakes (sp lineLen stamp : Nat) (secured : Bool) (f : List Byte) (w : Wall) : Wall :=
  let tc := frameTc sp f w
  let ptp := (ptpAt sp f w).isSome
  let w := when ptp (stat sp 101 1) w
  if !admits sp tc w then stat sp 20 1 w
  else match parseRoom (sp / 8) w with
    | none => stat sp 21 1 w
    | some w => if isInband sp f w then divert sp w else writeFrame sp tc lineLen (rxStamp sp stamp w) secured ptp f w

/-- A frame received on a sub-port (R308 to R346). -/
def rxFrame (r : RxFrame) (w : Wall) : Wall :=
  let sp := r.sp.val
  if r.cut then (if spWidthOf sp w = 0 ∨ spSt sp w = 5 then w else stat sp 18 1 w)
  else if !spFlows sp w then w
  else
    let f := r.bytes
    let w := portBusy (sp / 8) w
    match macFault sp f r.codeError w with
    | some k => stat sp k 1 w
    | none =>
      if u16at f 12 = 0x8808 then macControl sp f w
      else if w.flag (Reg.hostSp sp) && !filterOk sp f w then stat sp 16 1 w
      else
        let dst := frameBe f 0 6
        match macsecRx sp (noFcs f) w with
        | (.drop, w) => countRx sp f.length dst (frameTc sp f w) w
        | (.pass g secured, w) => writerTakes sp f.length r.stamp secured g (countRx sp f.length dst (frameTc sp g w) w)

/-- A PAUSE or PFC frame, which the MAC consumes: a frame of 64 bytes without fault (R285, R597). -/
def pauseRx (sp quanta : Nat) (w : Wall) : Wall :=
  if spUp sp w && w.get (Reg.fcMode sp) == 1 then
    pauseFrame sp quanta (countRx sp 64 0x0180C2000001 (w.get (Reg.defaultTc sp)) w)
  else w
def pfcRx (sp enable : Nat) (times : List Nat) (w : Wall) : Wall :=
  if spUp sp w && w.get (Reg.fcMode sp) == 2 then
    pfcFrame sp enable times (countRx sp 64 0x0180C2000001 (w.get (Reg.defaultTc sp)) w)
  else w

/-! ### Decisions (R62, R63, R302, R345, R346) -/

/-- The frame of a brick with this handle whose decision is outstanding. -/
def pendingOf (b handle : Nat) (w : Wall) : Option (Nat × IFrame) :=
  w.ing.frames.find? fun e => e.2.keyOut && brickOfSp e.2.sp == b && e.2.handle == handle

/-- A frame's key is no longer outstanding. -/
def keyDone (b n : Nat) (w : Wall) : Wall :=
  (modFrame n (fun f => { f with keyOut := false }) w).set (Reg.pendingKeys b) (w.get (Reg.pendingKeys b) - 1)

/-- The frame goes to the Pipe, with its host copy when one is asked for. -/
def forward (n : Nat) (copy : Bool) (w : Wall) : Wall :=
  let w := modFrame n (fun f => { f with disp := .pipe, copy := copy }) w
  match frameOf n w with
  | some f => when copy (toRing n f.ring) w
  | none => w

/-- The frame is discarded in the Pipe direction; a copy that its action asked for is still taken. -/
def discardKeyed (n sp slot : Nat) (w : Wall) : Wall :=
  match frameOf n w with
  | some f => when f.copy (toRing n f.ring) (discardIn n sp slot w)
  | none => w

/-- A decision for a pending handle (R345, R346), or a late one (R62). -/
def decisionArrive (b handle result status : Nat) (w : Wall) : Wall :=
  match pendingOf b handle w with
  | none => w.bump (Reg.lateDecisions b) 1
  | some (n, f) =>
    let sp := f.sp
    let w := keyDone b n w
    let w : Wall := { w with ing := { w.ing with keysMatched := tmod w.ing.keysMatched b 0 (· + 1) } }
    let w := when (status == 1 || status == 2) (pcSp sp 0x0B 1 none) w
    let w := if status = 2 then
        let w := w.bump (Reg.parityMisses b) 1
        oncePerMs (b * 4) (daybook (stewardSrc b) 0x0E06 (w.get (Reg.parityMisses b))) w
      else w
    let w := when (status == 3) (fun w => w.bump (Reg.lateDecisions b) 1) w
    if f.down then stat sp 18 1 (dropIn n w)
    else if status = 0 then
      let w := modFrame n (fun f => { f with result := some (result % 2 ^ 62) }) w
      match bits result 63 62 with
      | 0 => forward n f.copy w
      | 1 => discardKeyed n sp 29 w
      | 2 => hostOnly n w
      | _ => forward n true w
    else match w.get (Reg.missDest sp) with
      | 1 => discardKeyed n sp 29 w
      | 2 => hostOnly n w
      | _ => forward n f.copy w

/-- No decision 4 µs after a key (R62, R302). -/
def decisionTimeout (b handle : Nat) (w : Wall) : Wall :=
  match pendingOf b handle w with
  | none => w
  | some (n, f) =>
    let w := keyDone b n w
    let w : Wall := { w with ing := { w.ing with keysTimedOut := tmod w.ing.keysTimedOut b 0 (· + 1) } }
    if f.down then stat f.sp 18 1 (dropIn n w) else discardKeyed n f.sp 30 w

/-! ### Cells to the Pipe (R349 to R351) -/

/-- Has every frame of a cell a disposition (R349)? -/
def cellReady (c : ICell) (w : Wall) : Bool :=
  c.closed && c.segs.all fun s => match frameOf s.frame w with | some f => f.disp != .waiting | none => true

/-- The next cell of a sub-port to be sent. -/
def nextCell (sp : Nat) (w : Wall) : Option ICell := (cellsOf sp w).find? fun c => !c.sent
def spEligible (sp : Nat) (w : Wall) : Bool := match nextCell sp w with | some c => cellReady c w | none => false
def brickSps (b : Nat) : List Nat := (List.range 32).map (b * 32 + ·)
def anyEligible (b : Nat) (w : Wall) : Bool := (brickSps b).any fun sp => spEligible sp w

/-- Ingress credits of a course, none before its credit-init (R58). -/
def courseCredits (c : Nat) (w : Wall) : Nat := tgetD w.bnd.credits c 0
def setCredits (c n : Nat) (w : Wall) : Wall := { w with bnd := { w.bnd with credits := tputD w.bnd.credits c 0 n } }

/-- Does a frame's segment go to the Pipe? -/
def segGoes (s : Seg) (w : Wall) : Bool := match frameOf s.frame w with | some f => f.disp == .pipe | none => false

/-- The cell as it leaves (R56, R348, R349). -/
def cellOut (b sp : Nat) (c : ICell) (w : Wall) : PipeCell :=
  let goes := c.segs.filter fun s => segGoes s w
  let data := goes.foldl (fun d s => match frameOf s.frame w with
    | some f => splice d (s.lo * 16) (fit (s.n * 16) (f.bytes.drop s.off))
    | none => d) (List.replicate 256 (0 : Byte))
  let st := goes.foldl (fun a s => if s.starts then setBit a s.lo else a) 0
  let en := goes.foldl (fun a s => if s.ends then setBit a (s.lo + s.n - 1) else a) 0
  let cell : PipeCell := { seq := c.seq, sp := sp, kind := 0, start := st, ends := en, grout := 0, stamp := c.stamp, payload := data }
  { cell with grout := grout 0 cell b c.seq }

/-- Weighted round robin (R350): the sub-port served last and the cells it may still send; its width is its weight. -/
def wrrPick (b : Nat) (w : Wall) : Option (Nat × Nat) :=
  let cur := tgetD w.ing.wrr (b * 2) 0
  let left := tgetD w.ing.wrr (b * 2 + 1) 0
  if 0 < left ∧ spEligible (b * 32 + cur) w then some (cur, left - 1)
  else
    (((List.range 32).map fun j => (cur + 1 + j) % 32).find? fun s => spEligible (b * 32 + s) w).map fun s =>
      (s, spWidthOf (b * 32 + s) w - 1)

/-- One eligible cell with a credit goes to the Pipe (R350). -/
def cellSend (b : Nat) (w : Wall) : Wall :=
  let c := courseOfBrick b
  if courseCredits c w = 0 ∨ (tget w.bnd.pool c).isNone then w
  else match wrrPick b w with
    | none => w
    | some (s, left) =>
      let sp := b * 32 + s
      match nextCell sp w with
      | none => w
      | some cell =>
        let out := cellOut b sp cell w
        let w : Wall := { w with ing := { w.ing with
          wrr := tput (tput w.ing.wrr (b * 2) s) (b * 2 + 1) left
          stalled := clrBit w.ing.stalled b } }
        let w := setCells sp ((cellsOf sp w).map fun x => if x.seq = cell.seq ∧ !x.sent then { x with sent := true } else x) w
        let w := pcSp sp 0x0C 1 none (setCredits c (courseCredits c w - 1) w)
        let w := if h : c < 4 then w.emit (.pipeCell ⟨c, h⟩ out) else w
        sweep sp w

/-- Eligible cells have waited without credit for CREDIT_STALL_US: once for the stall (R351). -/
def creditStall (b us : Nat) (w : Wall) : Wall :=
  if anyEligible b w ∧ courseCredits (courseOfBrick b) w = 0 ∧ !bit w.ing.stalled b then
    let w : Wall := { w with ing := { w.ing with stalled := setBit w.ing.stalled b } }
    raise (stewardSrc b) 0x0702 (courseOfBrick b + us % 2 ^ 32 * 2 ^ 16) 14 (w.bump (Reg.creditStalls b) 1)
  else w

/-! ### Lookup commands (R65, R347) -/

def dropLookup (b tag : Nat) (w : Wall) : Wall := { w with ing := { w.ing with lookups := tdel w.ing.lookups (b * 256 + tag) } }

/-- A FLUSH_SP completes: learning is released, unless another FLUSH_SP of the sub-port is outstanding or waiting. -/
def flushComplete (b tag : Nat) (w : Wall) : Wall :=
  match tget w.ing.lookups (b * 256 + tag) with
  | some (.flush sp) =>
    let w := dropLookup b tag w
    let more := (w.ing.lookups.any fun e => e.2 == .flush sp)
    flushIssue b (if more then w else { w with ing := { w.ing with learnHeld := w.ing.learnHeld.erase sp } })
  | _ => w

/-- 100 ms after issue (R65). -/
def flushOverdue (b tag : Nat) (w : Wall) : Wall :=
  match tget w.ing.lookups (b * 256 + tag) with
  | some (.flush sp) => daybook (stewardSrc b) 0x0E07 sp w
  | _ => w

/-- A relayed command completes: LOOKUP_RESULT holds what the core returned, 64 bytes as it gave them. -/
def lookupComplete (b tag : Nat) (hit : Bool) (answer : Nat) (w : Wall) : Wall :=
  match tget w.ing.lookups (b * 256 + tag) with
  | some .relay =>
    let w := (dropLookup b tag w).set (Reg.lookupResult b) (b2n (!hit) + answer % 2 ^ 512 * 2 ^ 32)
    flushIssue b (latch 17 27 (releaseDeferred (.lookup b tag) 0 none w))
  | some .dead => flushIssue b (dropLookup b tag w)
  | _ => w

/-- 900 µs after issue without completion: the write is answered; the command stays outstanding. -/
def lookupTimeout (b tag : Nat) (w : Wall) : Wall :=
  match tget w.ing.lookups (b * 256 + tag) with
  | some .relay =>
    let w : Wall := { w with ing := { w.ing with lookups := tput w.ing.lookups (b * 256 + tag) .dead } }
    latch 17 27 (releaseDeferred (.lookup b tag) 0 none (w.set (Reg.lookupResult b) 2))
  | _ => w

end Sys2Proof.Machine
end

