-- ==== Sys2Proof/Machine/Egress.lean ====
section
/-! DEFINITION. Egress: shapers (R380 to R385), gate lists (R390 to R393), linking (R369 to R371), cells from the
Pipe (R352), the scheduler (R374 to R379), and a frame's way to the line: checksum insertion (R394, R395), one-step
stamps (R422 to R426), MACsec and the MAC. -/

namespace Sys2Proof.Machine

/-! ### The port window (R398) -/

def portWin (p : Nat) : Nat := 0x02000000 + p * 0x10000

/-! ### Shapers (R380 to R385, R400, R404) -/

/-- Units of a shaper in one byte: RATE Mb/s is RATE units per dclk. -/
def shaperUnit : Nat := 12800

/-- RATE, BURST and RESET_FULL of shaper `s` of a port: queue shapers 0 to 63, then class shapers sub-port × 8 + class. -/
def shaperRate (p s : Nat) (w : Wall) : Nat :=
  if s < 64 then w.get (Reg.qShapeRate p s) else w.get (Reg.cShapeRate (p * 8 + (s - 64) / 8) ((s - 64) % 8))
def shaperBurst (p s : Nat) (w : Wall) : Nat :=
  if s < 64 then w.get (Reg.qShapeBurst p s) else w.get (Reg.cShapeBurst (p * 8 + (s - 64) / 8) ((s - 64) % 8))
def shaperFull (p s : Nat) (w : Wall) : Bool :=
  if s < 64 then bit (w.get (Reg.qResetFull p)) s else bit (w.get (Reg.cResetFull (p * 8 + (s - 64) / 8))) ((s - 64) % 8)

/-- Offset of a shaper's record in the host window. -/
def shaperWin (p s : Nat) : Nat := portWin p + 0x9000 + s * 16

/-- Apply a shaper's record: TOKENS is BURST or 0, and it leaves the calendar (R383, R385). An unshaped one is not listed. -/
def applyShaper (p s : Nat) (w : Wall) : Wall :=
  let r := shaperRate p s w
  let b := shaperBurst p s w
  let w := ((w.setWin (shaperWin p s) 0 r).setWin (shaperWin p s + 4) 65536 b).setWin (shaperWin p s + 8) 0 (b2n (shaperFull p s w))
  let x : Shaper := { rate := r, burst := b, tokens := if shaperFull p s w then (b * shaperUnit : Nat) else 0, last := w.time.dclk, calendar := false }
  { w with egr := { w.egr with shapers := if r = 0 then tdel w.egr.shapers (p * 128 + s) else tput w.egr.shapers (p * 128 + s) x } }

/-- A shaper brought up to now (R381). -/
def accrue (x : Shaper) (now : Nat) : Shaper :=
  { x with tokens := min (x.tokens + (x.rate * (now - x.last) : Nat)) (x.burst * shaperUnit : Nat), last := now }

/-- Does a shaper allow a frame to start: TOKENS ≥ 0? -/
def shaperOk (p s : Nat) (w : Wall) : Bool :=
  match tget w.egr.shapers (p * 128 + s) with
  | some x => decide (0 ≤ (accrue x w.time.dclk).tokens)
  | none => true

/-- A frame's cost is subtracted; below zero the shaper enters the calendar (R381, R384). -/
def shaperDebit (p s cost : Nat) (w : Wall) : Wall :=
  match tget w.egr.shapers (p * 128 + s) with
  | some x =>
    let x := accrue x w.time.dclk
    let t : Int := x.tokens - (cost * shaperUnit : Nat)
    { w with egr := { w.egr with shapers := tput w.egr.shapers (p * 128 + s) { x with tokens := t, calendar := decide (t < 0) } } }
  | none => w

/-- The calendar releases a shaper: its eligible time has come, so its TOKENS is at or above 0 (R385). -/
def calendarRelease (p s : Nat) (w : Wall) : Wall :=
  match tget w.egr.shapers (p * 128 + s) with
  | some x =>
    if x.calendar then
      let x := accrue x w.time.dclk
      let w : Wall := { w with egr := { w.egr with shapers := tput w.egr.shapers (p * 128 + s) { x with tokens := max x.tokens 0, calendar := false } } }
      pcCount (brickOfPort p) 0x15 1 none none w
    else w
  | none => w

/-- Store RATE, BURST and RESET_FULL in the objects that are the same shaper (R400). -/
def setShaperRegs (p s rate burst : Nat) (full : Bool) (w : Wall) : Wall :=
  let upd (v i : Nat) : Nat := if full then setBit v i else clrBit v i
  if s < 64 then
    ((w.set (Reg.qShapeRate p s) rate).set (Reg.qShapeBurst p s) burst).set (Reg.qResetFull p) (upd (w.get (Reg.qResetFull p)) s)
  else
    let sp := p * 8 + (s - 64) / 8
    let n := (s - 64) % 8
    ((w.set (Reg.cShapeRate sp n) rate).set (Reg.cShapeBurst sp n) burst).set (Reg.cResetFull sp) (upd (w.get (Reg.cResetFull sp)) n)

/-- A window write to the last word of a shaper record (R383, R400). -/
def shaperApplyWin (p s : Nat) (w : Wall) : Wall :=
  let o := shaperWin p s
  let r := w.win32 o 0
  let b := w.win32 (o + 4) 65536
  if r ≤ 3200000 ∧ b ≤ 16777215 then applyShaper p s (setShaperRegs p s r b (bit (w.win32 (o + 8) 0) 0) w) else badWindow w

/-! ### Gate lists (R390 to R393, R427) -/

/-- Entries of a list: GATES and INTERVAL_NS. -/
def gclOf : Nat → List Byte → List (Nat × Nat)
  | 0, _ => []
  | n + 1, l => (ofLe (l.take 1), ofLe ((l.drop 4).take 4)) :: gclOf n (l.drop 8)

def pendingKey (sp : Nat) : Nat := (Reg.pendingGcl sp).key
/-- PENDING_GCL: one entry, all open for 1 ms, when nothing is written (R403). -/
def pendingBytes (sp : Nat) (w : Wall) : List Byte := (tget w.led.doms (pendingKey sp)).getD (toLe 4 0xFF ++ toLe 4 1000000)
def pendingList (sp : Nat) (w : Wall) : List (Nat × Nat) := gclOf ((pendingBytes sp w).length / 8) (pendingBytes sp w)

def gateOf (sp : Nat) (w : Wall) : Option Gate := tget w.egr.gates sp
def putGate (sp : Nat) (g : Gate) (w : Wall) : Wall := { w with egr := { w.egr with gates := tput w.egr.gates sp g } }

/-- Entries with the times they last within a cycle: cut at its end, the last one held to its end (R392). -/
def fitCycle : Nat → List (Nat × Nat) → List (Nat × Nat)
  | _, [] => []
  | c, [(g, _)] => [(g, c)]
  | c, (g, n) :: l => if c ≤ n then [(g, c)] else (g, n) :: fitCycle (c - n) l

/-- State and end of the entry that holds at an offset into a cycle. -/
def entryAtOff : List (Nat × Nat) → Nat → Nat → Nat × Nat
  | [], _, c => (0xFF, c)
  | [(g, _)], _, c => (g, c)
  | (g, n) :: l, start, off => if off < start + n then (g, start + n) else entryAtOff l (start + n) off

/-- A list of a cycle in 1/16 ns at a time: states, index by count of entries passed, and when they next change. -/
def listAt (l : List (Nat × Nat)) (cycle : Nat) (base t : Int) : Nat × Int :=
  let l := fitCycle cycle l
  let c16 : Int := (max cycle 1 * 16 : Nat)
  let off := ((t - base) % c16).toNat
  let e := entryAtOff (l.map fun x => (x.1, x.2 * 16)) 0 off
  (e.1, t - off + min e.2 (max cycle 1 * 16))

/-- Gate states of a sub-port at a wall time in 1/16 ns, and a time until which they hold (R390, R392, R393). -/
def gatesAt (sp : Nat) (t : Int) (w : Wall) : Nat × Int :=
  match gateOf sp w with
  | none => (0xFF, t + 16000000000)
  | some g =>
    let cap (e : Int) : Int := match g.changeAt with | some c => if t < c then min e c else e | none => e
    let changed := match g.changeAt with | some c => decide ((c : Int) ≤ t) | none => false
    if changed then listAt (pendingList sp w) (w.get (Reg.pendingCycleNs sp)) (ofT96 (w.get (Reg.pendingBase sp))) t
    else if g.oper = [] then (0xFF, cap (t + 16000000000))
    else match g.extendTo with
      | some c =>
        if (c : Int) ≤ t then (((fitCycle g.cycle g.oper).getLast?.map (·.1)).getD 0xFF, cap (t + 16000000000))
        else let e := listAt g.oper g.cycle g.base t; (e.1, cap (min e.2 c))
      | none => let e := listAt g.oper g.cycle g.base t; (e.1, cap e.2)

/-- Is the gate of a class open at every instant of [t, e)? -/
def openAll (sp n : Nat) (w : Wall) : Nat → Int → Int → Bool
  | 0, _, _ => true
  | k + 1, t, e =>
    if e ≤ t then true
    else
      let g := gatesAt sp t w
      bit g.1 n && openAll sp n w k (max g.2 (t + 1)) e

/-- Do the gates of a sub-port follow a list? -/
def gated (sp : Nat) (w : Wall) : Bool := w.flag (Reg.gateEnable sp) && (gateOf sp w).isSome

/-- T of R390 in 1/16 ns, rounded up, for a length on the line. -/
def gateT (sp len : Nat) (w : Wall) : Nat :=
  ceilDiv ((len + 20) * 8 * 16) (max (spRate sp w) 1) + w.get (Reg.gateGuardNs sp) * 16

/-- Does a frame of a class fit its gate window (R390)? A gate open beyond the end of the next cycle counts as open. -/
def gateFits (sp n len : Nat) (w : Wall) : Bool :=
  !gated sp w || openAll sp n w 1100 w.wallT (w.wallT + gateT sp len w)

/-- Longest run of entries in which a class is open, over a list laid twice end to end. -/
def longestRun (n : Nat) (l : List (Nat × Nat)) : Nat :=
  (l.foldl (fun (r : Nat × Nat) e => if bit e.1 n then (r.1 + e.2, max r.2 (r.1 + e.2)) else (0, r.2)) (0, 0)).2

/-- MAX_WINDOW_NS of a class (R391). -/
def maxWindow (n cycle : Nat) (l : List (Nat × Nat)) : Nat :=
  let f := fitCycle cycle l
  if f.all fun e => bit e.1 n then 0xFFFFFFFF else longestRun n (f ++ f)

/-- Index of the entry that holds at a wall time. -/
def entryIndex : List (Nat × Nat) → Nat → Nat → Nat
  | [], _, _ => 0
  | [_], _, _ => 0
  | (_, n) :: l, start, off => if off < start + n then 0 else 1 + entryIndex l (start + n) off
def gateIndex (g : Gate) (t : Int) : Nat :=
  entryIndex ((fitCycle g.cycle g.oper).map fun x => (x.1, x.2 * 16)) 0 ((t - g.base) % ((max g.cycle 1 * 16 : Nat) : Int)).toNat

/-- The interval of an operating entry ends: the gates stand at the entry that wall time gives (R392, R427). -/
def gateEntryChange (sp : Nat) (w : Wall) : Wall :=
  match gateOf sp w with
  | some g => if g.oper = [] then w else putGate sp { g with index := gateIndex g w.wallT } w
  | none => w

/-- The pending list, base and cycle become operating (R391, R393). -/
def gateConfigChange (sp : Nat) (w : Wall) : Wall :=
  match gateOf sp w with
  | some g =>
    if g.changeAt.isNone then w
    else
      let l := pendingList sp w
      let c := w.get (Reg.pendingCycleNs sp)
      let g' : Gate := { oper := l, cycle := c, base := ofT96 (w.get (Reg.pendingBase sp)), index := 0, changeAt := none, extendTo := none }
      let w := putGate sp { g' with index := gateIndex g' w.wallT } w
      let w := putDom (Reg.operGcl sp).key (pendingBytes sp w) ((w.set (Reg.operCycleNs sp) c).set (Reg.gateState sp) 1)
      upTo 8 (fun n w => w.set (Reg.maxWindowNs sp n) (maxWindow n c l)) w
  | none => w

/-- CONFIG_CHANGE := 1 (R393). -/
def gateSchedule (sp : Nat) (w : Wall) : WRes :=
  let l := pendingList sp w
  let cyc := w.get (Reg.pendingCycleNs sp)
  let bytes := pendingBytes sp w
  let resv := (List.range l.length).any fun k => ofLe (((bytes.drop (8 * k)).drop 1).take 3) != 0
  if l.length = 0 ∨ 256 < l.length ∨ resv ∨ (l.any fun e => decide (e.2 < 10) || decide (1000000000 < e.2)) ∨ cyc < 250 ∨ 1000000000 < cyc then .abort aRange
  else
    let base : Int := (ofT96 (w.get (Reg.pendingBase sp)) : Nat)
    let soon := w.wallT + 16000
    let c16 : Int := (cyc * 16 : Nat)
    let change : Int := if soon ≤ base then base else base + (soon - base + c16 - 1) / c16 * c16
    let g := (gateOf sp w).getD { oper := [], cycle := 1, base := 0, index := 0, changeAt := none, extendTo := none }
    let o16 : Int := (max g.cycle 1 * 16 : Nat)
    let last := (g.base : Int) + (change - 1 - g.base) / o16 * o16
    let ext : Option Nat := if g.oper ≠ [] ∧ change - last < (w.get (Reg.pendingExtNs sp) * 16 : Nat) ∧ w.wallT < last then some last.toNat else none
    let w := putGate sp { g with changeAt := some change.toNat, extendTo := ext } w
    .ok ((w.set (Reg.gateState sp) 2).set (Reg.changeTime sp) (t96 change))

/-- CONFIG_CHANGE := 2 cancels a scheduled change. -/
def gateCancel (sp : Nat) (w : Wall) : Wall :=
  match gateOf sp w with
  | some g =>
    if g.changeAt.isNone then w
    else if g.oper = [] then { w with egr := { w.egr with gates := tdel w.egr.gates sp } }.set (Reg.gateState sp) 0
    else (putGate sp { g with changeAt := none, extendTo := none } w).set (Reg.gateState sp) 1
  | none => w

/-! ### Linking (R368 to R371) -/

/-- A frame that no queue of its sub-port takes, or whose queue is full, is dropped (R371, log entry 21). -/
def queueDrop (f : EFrame) (q : Option Nat) (w : Wall) : Wall :=
  let w := match q with
    | some q => w.setQueue (f.sp / 8) q { w.queue (f.sp / 8) q with drops := ((w.queue (f.sp / 8) q).drops + 1) % 2 ^ 64 }
    | none => w
  discardOut f 1 (stat f.sp 48 1 w)

/-- Link a frame to queue `q` of its port (R371, R378, R397). -/
def linkFrame (q : Nat) (f : EFrame) (w : Wall) : Wall :=
  let sp := f.sp
  let p := sp / 8
  if !spUp sp w then discardOut f 2 (stat sp 46 1 w)
  else
    let r := w.queue p q
    if w.get (Reg.queueMaxChunks p q) ≤ r.depth then queueDrop f (some q) w
    else
      let tc := w.get (Reg.queueTc p q)
      let w := w.setQueue p q { r with frames := r.frames ++ [f] }
      let l := activeList sp tc w
      let w := if q ∈ l then w else setActive sp tc (l ++ [q]) (w.setQueue p q { w.queue p q with deficit := 0, turn := false })
      portBusy p w

/-- Link to `q` when the sub-port owns it; else to its DEFAULT_QUEUE, counted (R370). -/
def linkOwned (q : Nat) (f : EFrame) (w : Wall) : Wall :=
  let p := f.sp / 8
  let own (q : Nat) : Bool := w.get (Reg.queueSp p q) == f.sp % 8
  let d := w.get (Reg.defaultQueue f.sp)
  if own q then linkFrame q f w
  else if !spUp f.sp w then discardOut f 2 (stat f.sp 46 1 w)
  else
    let w := stat f.sp 49 1 w
    if own d then linkFrame d f w else queueDrop f none w

/-- Queue of a frame from the Pipe (R369). -/
def pipeQueue (sp : Nat) (f : List Byte) (w : Wall) : Nat :=
  let t := w.get (Reg.selTest sp)
  if testOn t && !testPasses t f then w.get (Reg.defaultQueue sp)
  else octet (w.get (Reg.queueMap sp)) (u16at f (w.get (Reg.selOffset sp)) / 2 ^ w.get (Reg.selShift sp) % 64)

/-! ### Cells from the Pipe (R352) -/

/-- Where the frame of a sub-port that is still arriving stands. -/
inductive Place where
  | build
  | line
  | queue (q : Nat)

def openPlace (sp : Nat) (w : Wall) : Option Place :=
  if (tget w.egr.building sp).isSome then some .build
  else match tget w.egr.txNow sp with
    | some t => if t.frame.whole then findQ else some .line
    | none => findQ
where
  findQ : Option Place :=
    ((queuesOf sp w).find? fun q => (w.queue (sp / 8) q).frames.any fun f => !f.whole).map Place.queue

/-- Change the frame that is still arriving. -/
def modOpen (sp : Nat) (pl : Place) (g : EFrame → EFrame) (w : Wall) : Wall :=
  match pl with
  | .build => { w with egr := { w.egr with building := tupd w.egr.building sp g } }
  | .line => { w with egr := { w.egr with txNow := tupd w.egr.txNow sp fun t => { t with frame := g t.frame } } }
  | .queue q =>
    let r := w.queue (sp / 8) q
    w.setQueue (sp / 8) q { r with frames := r.frames.map fun f => if f.whole then f else g f }

/-- A line frame is ended with a stomped FCS over the bytes sent (R279, R352). -/
def stompLine (f : EFrame) (w : Wall) : Wall := if h : f.sp < 512 then w.emit (.lineFrame ⟨f.sp, h⟩ f.bytes true) else w

/-- The arriving frame of a sub-port loses bytes: it is discarded and counted in TX_GROUT_DISCARDS (R352). -/
def cutFrame (sp : Nat) (w : Wall) : Wall :=
  match openPlace sp w with
  | none => w
  | some .build =>
    match tget w.egr.building sp with
    | some f => stat sp 47 1 (discardOut f 2 { w with egr := { w.egr with building := tdel w.egr.building sp } })
    | none => w
  | some .line =>
    match tget w.egr.txNow sp with
    | some t => stat sp 47 1 (discardOut t.frame 2 (stompLine t.frame { w with egr := { w.egr with txNow := tdel w.egr.txNow sp } }))
    | none => w
  | some (.queue q) =>
    let r := w.queue (sp / 8) q
    let gone := r.frames.filter fun f => !f.whole
    let w := w.setQueue (sp / 8) q { r with frames := r.frames.filter fun f => f.whole }
    let w := gone.foldl (fun w f => stat sp 47 1 (discardOut f 2 w)) w
    if (w.queue (sp / 8) q).frames = [] then leaveActive sp q w else w

def setSkip (sp : Nat) (b : Bool) (w : Wall) : Wall :=
  let l := w.egr.skipping.filter (· ≠ sp)
  { w with egr := { w.egr with skipping := if b then sp :: l else l } }

/-- A discarded cell: the arriving frame and every frame that begins in the cell are lost (R352). -/
def loseCell (sp : Nat) (c : PipeCell) (w : Wall) : Wall :=
  let w := stat sp 47 (popCount c.start 16) (cutFrame sp w)
  let top (v : Nat) : Nat := bitLen (v % 2 ^ 16)
  if top c.start = 0 ∧ top c.ends = 0 then w else setSkip sp (decide (top c.ends < top c.start)) w

/-- The frame being built is linked once its first 32 bytes or the whole of it is held (R369). -/
def tryLink (sp : Nat) (w : Wall) : Wall :=
  match tget w.egr.building sp with
  | some f =>
    if 32 ≤ f.bytes.length ∨ f.whole then
      linkOwned (pipeQueue sp f.bytes w) f { w with egr := { w.egr with building := tdel w.egr.building sp } }
    else w
  | none => w

/-- One chunk of an accepted cell. The last chunk of a frame holds 1 to 16 bytes of it; the header gives no number
(a free value, log entry 4). -/
def takeChunk (sp : Nat) (c : PipeCell) (w : Wall) (i : Nat) : Wall :=
  let w := if bit c.start i then
      let w := setSkip sp false (cutFrame sp w)
      let w := setSkip sp false w
      let f : EFrame := { src := .pipe, sp := sp, bytes := [], whole := false, chunks := 0, stamp := c.stamp, desc := 0 }
      { w with egr := { w.egr with building := tput w.egr.building sp f } }
    else w
  let ends := bit c.ends i
  if sp ∈ w.egr.skipping then (if ends then setSkip sp false w else w)
  else match openPlace sp w with
    | none => w
    | some pl =>
      let n := if ends then 1 + w.free % 16 else 16
      let w := if ends then w.took else w
      let data := (fit 16 (c.payload.drop (16 * i))).take n
      let w := modOpen sp pl (fun f => { f with bytes := f.bytes ++ data, chunks := f.chunks + 1, whole := ends }) w
      tryLink sp (setPipeOcc (sp / 8) (pipeOcc (sp / 8) w + 1) w)

/-- An egress cell under a credit of port `p` (R352, R365). -/
def egressCell (p : Nat) (c : PipeCell) (w : Wall) : Wall :=
  let b := brickOfPort p
  if coreCredits p w = 0 then w
  else
    let w := setCoreCredits p (coreCredits p w - 1) w
    let fin (w : Wall) : Wall := panicEval p (grant p w)
    let sp := c.sp
    let e := tgetD w.ing.seqEg sp 0
    let setE (n : Nat) (w : Wall) : Wall := { w with ing := { w.ing with seqEg := tputD w.ing.seqEg sp 0 (n % 65536) } }
    if c.kind ≠ 0 then fin ((if sp / 8 = p then loseCell sp c w else w).bump (Reg.kindBad b) 1)
    else if sp / 8 ≠ p then fin (w.bump (Reg.misdirected b) 1)
    else if c.grout = grout 1 c b e then fin ((List.range 16).foldl (takeChunk sp c) (setE (e + 1) w))
    else if c.grout = grout 1 c b c.seq then fin ((loseCell sp c (setE (c.seq + 1) w)).bump (Reg.groutSeqGaps b) 1)
    else
      let w := (loseCell sp c (setE (e + 1) w)).bump (Reg.groutFails b) 1
      fin (oncePerMs (b * 4 + 2) (raise (stewardSrc b) 0x0703 (sp + e * 2 ^ 16) 14) w)

/-! ### Lengths on the line (R276, R377, R435) -/

/-- Bytes that MACsec adds: SecTAG of 8 or 16 and an ICV of 16. -/
def macsecAdds (sp : Nat) (f : List Byte) (w : Wall) : Nat :=
  match txPlan sp f w with
  | .sa _ _ => if w.flag (Reg.includeSci sp) then 32 else 24
  | _ => 0

/-- Length of a frame as it leaves the MAC: padded to 60, FCS, cut at MAX_FRAME. -/
def lineLen (maxFrame n : Nat) : Nat := min (max n 60 + 4) maxFrame
def txLen (f : EFrame) (w : Wall) : Nat := lineLen (w.get (Reg.maxFrame f.sp)) (f.bytes.length + macsecAdds f.sp f.bytes w)

/-! ### The scheduler (R375 to R379, R388, R391) -/

/-- Does L4 insertion apply to a frame, by profile or by descriptor (R394, R526)? -/
def needsWhole (f : EFrame) (w : Wall) : Bool :=
  match f.src with
  | .pipe =>
    let i := w.get (Reg.ckInsertProfile f.sp)
    bit (w.get (Reg.ckInsert f.sp)) 1 && decide (i < 64) && profMatches i f.bytes w && (l3Kind i w == 1 || l3Kind i w == 2)
  | .host _ _ _ => bit f.desc 82
  | .inband => false

/-- Readiness of a head frame (R388). -/
def frameReady (f : EFrame) (w : Wall) : Bool :=
  let ct := w.get (Reg.cutThroughChunks (f.sp / 8) (f.sp % 8))
  f.whole || (ct != 0 && decide (ct ≤ f.chunks) && !w.flag (Reg.gateEnable f.sp) && !needsWhole f w)

/-- Eligibility of a queue (R376). -/
def queueOk (sp q : Nat) (w : Wall) : Bool :=
  match (w.queue (sp / 8) q).frames with
  | f :: _ => frameReady f w && shaperOk (sp / 8) q w && spFlows sp w
  | [] => false

/-- Does the head frame of a queue fit its class's gate window? -/
def headFits (sp n q : Nat) (w : Wall) : Bool :=
  match (w.queue (sp / 8) q).frames with
  | f :: _ => gateFits sp n (txLen f w) w
  | [] => false

/-- A frame is discarded before its transmission, for a cause to which R528 gives no STATUS: a free one (log entry 4). -/
def discardFree (f : EFrame) (w : Wall) : Wall := discardOut f (w.free % 256) w.took

/-- Discard the head of a queue. -/
def dropHead (sp q slot : Nat) (w : Wall) : Wall :=
  let r := w.queue (sp / 8) q
  match r.frames with
  | [] => w
  | f :: l =>
    let w := stat sp slot 1 (discardFree f (w.setQueue (sp / 8) q { r with frames := l }))
    if l = [] then leaveActive sp q w else w

/-- Head frames whose T exceeds their class's longest window are discarded (R391). -/
def dropOversize (sp n q : Nat) : Nat → Wall → Wall
  | 0, w => w
  | k + 1, w =>
    match (w.queue (sp / 8) q).frames with
    | f :: _ =>
      let m := w.get (Reg.maxWindowNs sp n)
      if f.whole && m != 0 && m != 0xFFFFFFFF && decide (m * 16 < gateT sp (txLen f w) w) then dropOversize sp n q k (dropHead sp q 50 w) else w
    | [] => w
def dropAllOversize (sp n : Nat) (w : Wall) : Wall :=
  if gated sp w && (w.get (Reg.gateState sp) != 0) then
    (activeList sp n w).foldl (fun w q => dropOversize sp n q (w.queue (sp / 8) q).frames.length w) w
  else w

/-- Deficit round robin over a class's list (R378, R379): queues passed over keep their places before `l`. -/
def drr (sp n : Nat) : Nat → List Nat → List Nat → Wall → Option (Nat × Wall)
  | 0, _, _, _ => none
  | _ + 1, _, [], _ => none
  | k + 1, pre, q :: l, w =>
    let p := sp / 8
    let r := w.queue p q
    let r := if r.turn then r else { r with deficit := r.deficit + (w.get (Reg.quantum p q) : Nat), turn := true }
    let w := w.setQueue p q r
    if !queueOk sp q w || decide (r.deficit ≤ 0) then drr sp n k pre (l ++ [q]) (w.setQueue p q { r with turn := false })
    else if !headFits sp n q w then drr sp n k (pre ++ [q]) l (pcSp sp 0x14 1 (some n) w)
    else some (q, setActive sp n (pre ++ q :: l) w)

/-- May a class be served: not paused, its shaper at or above zero, and a queue with a head that may go? -/
def classOk (sp n : Nat) (w : Wall) : Bool :=
  !classPaused sp n w && shaperOk (sp / 8) (64 + sp % 8 * 8 + n) w &&
  (activeList sp n w).any fun q => queueOk sp q w && headFits sp n q w

/-- The queue a selection takes: classes from tc7 down (R375). -/
def choose (sp : Nat) (w : Wall) : Option (Nat × Nat × Wall) :=
  match ([7, 6, 5, 4, 3, 2, 1, 0] : List Nat).find? fun n => classOk sp n w with
  | some n => (drr sp n 40000 [] (activeList sp n w) w).map fun r => (n, r.1, r.2)
  | none => none

/-- A PAUSE or PFC frame goes first (R289, R375, R387). -/
def sendPause (sp : Nat) (x : PauseOut) (rest : List PauseOut) (w : Wall) : Wall :=
  let w : Wall := { w with prt := { w.prt with pauseOut := tput w.prt.pauseOut sp rest } }
  let pfc := w.get (Reg.fcMode sp) == 2
  let w := if pfc then stat sp (64 + x.tc) 1 w else stat sp 73 1 w
  let w := countTx sp 64 0x0180C2000001 none w
  if h : sp < 512 then w.emit (.pauseFrame ⟨sp, h⟩ pfc x.prios x.quanta) else w

/-- A selected frame starts: MACsec's plan and packet number, MAX_FRAME as it is now (R438, R448, R307). -/
def startTx (sp n q : Nat) (f : EFrame) (l : List EFrame) (w : Wall) : Wall :=
  let go (pn : Option (Nat × Nat)) (w : Wall) : Wall :=
    let w := w.setQueue (sp / 8) q { w.queue (sp / 8) q with frames := l }
    let t : TxNow := { frame := f, queue := q, tc := n, pn := pn, maxFrame := w.get (Reg.maxFrame sp) }
    pcSp sp 0x12 1 (some n) { w with egr := { w.egr with txNow := tput w.egr.txNow sp t } }
  match txPlan sp f.bytes w with
  | .clear => go none w
  | .sa an pn => go (some (pn, an)) (takePn sp an w)
  | .discard => dropHead sp q 43 w
  | .stall => enterStall sp (w.get (Reg.txEncodingAn sp)) w

/-- A sub-port's selection (R375). -/
def schedulerSelect (sp : Nat) (w : Wall) : Wall :=
  if !spFlows sp w || (tget w.egr.txNow sp).isSome then w
  else match tgetD w.prt.pauseOut sp [] with
    | x :: rest => sendPause sp x rest w
    | [] =>
      let w := upTo 8 (fun n w => dropAllOversize sp n w) w
      match choose sp w with
      | none => pcSp sp 0x13 1 none w
      | some (n, q, w') =>
        match (w'.queue (sp / 8) q).frames with
        | f :: l => startTx sp n q f l w'
        | [] => w'

/-! ### Checksum insertion (R394, R395, R524) -/

/-- Write the IPv4 header checksum. -/
def insertL3 (off : Nat) (f : List Byte) : List Byte :=
  if f.length < off + 20 then f
  else
    let z := splice f (off + 10) [0, 0]
    splice z (off + 10) (toBe 2 (cksum (sum16 ((z.drop off).take 20))))

/-- Write the TCP or UDP checksum; `none` when R395 skips it. -/
def insertL4 (kind off l4 : Nat) (f : List Byte) : Option (List Byte) :=
  let p := ipProto kind off f
  let at_ := l4 + (if p = 17 then 6 else 16)
  if fragKind kind off f ≠ 0 ∨ f.length < ipEnd kind off f ∨ (p ≠ 6 ∧ p ≠ 17) ∨ f.length < at_ + 2 then none
  else
    let z := splice f at_ [0, 0]
    let c := cksum (l4Sum kind off l4 z)
    some (splice z at_ (toBe 2 (if p = 17 ∧ c = 0 then 0xFFFF else c)))

/-- Both insertions as asked. -/
def insertCk (sp kind off l4 : Nat) (do3 do4 : Bool) (f : List Byte) (w : Wall) : List Byte × Wall :=
  let f := if do3 ∧ kind = 1 then insertL3 off f else f
  if !do4 then (f, w)
  else match insertL4 kind off l4 f with
    | some g => (g, w)
    | none => (f, stat sp 51 1 w)

/-- Checksum insertion of a frame, by its source. -/
def ckStage (f : EFrame) (w : Wall) : List Byte × Wall :=
  match f.src with
  | .pipe =>
    let i := w.get (Reg.ckInsertProfile f.sp)
    let k := l3Kind i w
    if i < 64 ∧ profMatches i f.bytes w ∧ (k = 1 ∨ k = 2) then
      insertCk f.sp k (l3Off i w) (l4Off i w) (bit (w.get (Reg.ckInsert f.sp)) 0) (bit (w.get (Reg.ckInsert f.sp)) 1) f.bytes w
    else (f.bytes, w)
  | .host _ _ _ =>
    insertCk f.sp (if bit f.desc 103 then 2 else 1) (bits f.desc 102 96) (bits f.desc 110 104) (bit f.desc 81) (bit f.desc 82) f.bytes w
  | .inband => (f.bytes, w)

/-! ### One-step stamps (R422 to R426, R525) -/

/-- Add to correctionField, stopping at its greatest value (R424). -/
def addCorr (old add : Nat) : Nat := ofInt 64 (min (toInt 64 old + (add : Int)) (2 ^ 63 - 1))

/-- The UDP checksum follows bytes changed from an even offset (R425). -/
def fixUdp (encap : Nat) (f : List Byte) (off : Nat) (new : List Byte) : List Byte :=
  let g := splice f off new
  let at_ := if encap = 3 then 40 else 60
  let c := u16at f at_
  if encap < 3 ∨ (encap = 3 ∧ c = 0) then g
  else
    let neg := (new.length / 2) * 0xFFFF - sum16 ((f.drop off).take new.length)
    let r := cksum (0xFFFF - c + neg + sum16 new)
    splice g at_ (toBe 2 (if encap = 4 ∧ r = 0 then 0xFFFF else r))

/-- Transparent mode: the residence is added to correctionField. -/
def ptpTransparent (encap o dep stamp : Nat) (f : List Byte) : List Byte :=
  let res := (dep % 2 ^ 32 + 2 ^ 32 - stamp % 2 ^ 32) % 2 ^ 32
  fixUdp encap f (o + 8) (toBe 8 (addCorr (frameBe f (o + 8) 8) (res * 4096)))

/-- Origin mode: originTimestamp, and the sixteenths in correctionField. -/
def ptpOrigin (encap o t : Nat) (f : List Byte) : List Byte :=
  let g := fixUdp encap f (o + 34) (toBe 6 (t / 2 ^ 48) ++ toBe 4 (bits t 47 16))
  fixUdp encap g (o + 8) (toBe 8 (addCorr (frameBe g (o + 8) 8) (bits t 15 12 * 4096)))

/-- The one-step stage: `dep` is the departure stamp count, `t` the departure wall time (TIME96). -/
def ptpStage (e : EFrame) (f : List Byte) (dep t : Nat) (w : Wall) : List Byte × Wall :=
  let sp := e.sp
  let enc := w.get (Reg.ptpEncap sp)
  let origin (o : Nat) : List Byte × Wall :=
    if bit (byteAt f (o + 6)) 1 then (f, w)
    else if f.length < o + 44 then (f, stat sp 52 1 w)
    else (ptpOrigin enc o t f, w)
  match e.src, ptpAt sp f w with
  | .pipe, some o =>
    match w.get (Reg.txOneStep sp) with
    | 1 => if byteAt f o % 16 = 0 then origin o else (f, w)
    | 2 => if f.length < o + 16 then (f, stat sp 52 1 w) else (ptpTransparent enc o dep e.stamp f, w)
    | _ => (f, w)
  | .host _ _ _, x =>
    if bits e.desc 84 83 = 1 then
      match x with
      | some o => if byteAt f o % 16 = 0 then origin o else (f, stat sp 52 1 w)
      | none => (f, stat sp 52 1 w)
    else (f, w)
  | _, _ => (f, w)

/-- TX_CAPTURE: the departure of an event message from the Pipe (R426). -/
def capture (e : EFrame) (f : List Byte) (t : Nat) (w : Wall) : Wall :=
  match e.src, ptpAt e.sp f w with
  | .pipe, some o =>
    if w.flag (Reg.txCapture e.sp) then
      let l := tgetD w.time.captures e.sp []
      if 16 ≤ l.length then w.bump (Reg.txStampLost e.sp) 1
      else
        let r := t + frameBe f (o + 30) 2 * 2 ^ 96 + byteAt f o % 16 * 2 ^ 112 + byteAt f (o + 4) * 2 ^ 120
        level 17 28 true { w with time := { w.time with captures := tput w.time.captures e.sp (l ++ [r]) } }
    else w
  | _, _ => w

/-! ### The MAC and the end of a frame (R276, R279, R377, R381, R528) -/

/-- Costs of a frame: its queue's DEFICIT, both shapers; a queue that is empty leaves its list (R377, R378, R381). -/
def debit (t : TxNow) (len : Nat) (w : Wall) : Wall :=
  let sp := t.frame.sp
  let p := sp / 8
  let cost := len + w.get (Reg.shapeOverhead sp)
  let r := w.queue p t.queue
  let w := w.setQueue p t.queue { r with deficit := r.deficit - (cost : Nat), sent := (r.sent + 1) % 2 ^ 64 }
  let w := shaperDebit p (64 + sp % 8 * 8 + t.tc) cost (shaperDebit p t.queue cost w)
  if r.frames = [] then leaveActive sp t.queue w else w

/-- What the MAC sends: the frame with its FCS, and whether that is stomped (R276, R279). -/
def macFrame (maxFrame : Nat) (f : List Byte) : List Byte × Bool :=
  let f := fit (max f.length 60) f
  if maxFrame < f.length + 4 then
    let g := f.take (maxFrame - 4)
    (g ++ toLe 4 (2 ^ 32 - 1 - crc32 g), true)
  else (f ++ toLe 4 (crc32 f), false)

/-- The frame leaves for the MAC whole. -/
def sendWhole (t : TxNow) (departure : Nat) (w : Wall) : Wall :=
  let e := t.frame
  let sp := e.sp
  let dep := ofInt 64 ((departure : Int) + adjOf (sp / 8) 0 w)
  let tm := t96 ((dep : Int) + w.time.offset)
  let a := ckStage e w
  let w := when (ptpAt sp a.1 a.2).isSome (stat sp 102 1) (capture e a.1 tm a.2)
  let b := ptpStage e a.1 dep tm w
  let w := b.2
  let f := match t.pn with | some (pn, an) => protectFrame sp an pn b.1 w | none => b.1
  let w := when t.pn.isSome (fun w => pcSp sp 0x1B 1 none (stat sp 42 1 w)) w
  let m := macFrame t.maxFrame f
  let w := if h : sp < 512 then w.emit (.lineFrame ⟨sp, h⟩ m.1 m.2) else w
  let w := if m.2 then stat sp 44 1 w
    else
      let w := countTx sp m.1.length (frameBe f 0 6) (some t.tc) w
      match e.src with | .host _ _ _ => stat sp 53 1 w | _ => w
  let w := freeChunks e (debit t m.1.length w)
  match e.src with
  | .host i first n => txComplete i first n e.desc 0 e.bytes.length (if bits e.desc 84 83 = 2 then tm else 0) 0 w
  | _ => w

/-- The last byte of the frame in transmission leaves; a frame that ran out of chunks is stomped (R279, R389). -/
def txFrameDone (sp departure : Nat) (w : Wall) : Wall :=
  match tget w.egr.txNow sp with
  | none => w
  | some t =>
    let w : Wall := { w with egr := { w.egr with txNow := tdel w.egr.txNow sp } }
    let w := if t.frame.whole then sendWhole t departure w
      else
        let w := stat sp 45 1 (stompLine t.frame w)
        skipRest t.frame (freeChunks t.frame (debit t (t.frame.bytes.length + 4) w))
    quietRetry (sp / 8) (pumpRings w)

/-- DROPS of a queue is cleared (R399). -/
def queueDropsClear (p q : Nat) (w : Wall) : Wall := w.setQueue p q { w.queue p q with drops := 0 }

end Sys2Proof.Machine
end

