-- ==== Sys2Proof/Machine/Mill.lean ====
section
/-! DEFINITION. What ends a Mortar read (R52, R535, R536), receive delivery (R531 to R534), message vectors (R538 to
R541), the host side of the Bellhouse (R588), check-value units (R542 to R545) and the Mill loop (R546 to R552). -/

namespace Sys2Proof.Machine

/-! ### Reads (R52, R520, R535, R536, R551) -/

/-- A read of one of a Mill's rings has failed: the Mill stops (R551). -/
def millFail (ring : Nat) (w : Wall) : Wall :=
  match (if ring < 256 then millTxOf ring w else millRxOf (ring - 256) w) with
  | some sp => setMillState sp 4 w
  | none => w

/-- A descriptor read of a ring fails: the ring stops (R535). -/
def descFail (k : Nat) (w : Wall) : Wall :=
  let r := w.ring k
  if !r.reading then w
  else
    let w := w.setRing k { r with reading := false, held := if k < 256 then [] else r.held, tooLong := none }
    millFail k (if ringOn k w then ringError k 1 w else w)

/-- A frame of a Mill's transmit ring is lost before the check-value unit. -/
def millLost (i : Nat) (w : Wall) : Wall :=
  match millTxOf i w with
  | some sp => w.setMill (brickOfSp sp) { w.mill (brickOfSp sp) with lost := (w.mill (brickOfSp sp)).lost + 1 }
  | none => w

/-- A data read of a transmit frame fails: the frame is written back with STATUS 3 and the ring stops (R536). -/
def dataFail (i : Nat) (w : Wall) : Wall :=
  let r := w.ring i
  match r.dataFor with
  | [] => w
  | e :: l =>
    let ds := e :: l
    let w := subHostOcc (r.feeds / 8) (chunksOf (frameLen ds)) (w.setRing i { r with dataFor := [], held := [], tooLong := none })
    if !ringOn i w then w
    else
      let w := txComplete i e.1 ds.length e.2 3 (frameLen ds) 0 0 w
      millFail i (ringError i 2 (millLost i w))

/-- The read under a tag has been outstanding for 100 µs (R52). -/
def tagTimeout (tag : Nat) (w : Wall) : Wall :=
  match tget w.bnd.tags tag with
  | some (TagState.out u) =>
    let w : Wall := { w with bnd := { w.bnd with tags := tput w.bnd.tags tag .quarantined } }
    let w := (w.bump Reg.readTimeouts 1).set Reg.tagsOut (w.get Reg.tagsOut - 1)
    match u with
    | .desc d i => descFail (ringKey d i) w
    | .data i => dataFail i w
  | _ => w

def dropTag (tag : Nat) (w : Wall) : Wall := { w with bnd := { w.bnd with tags := tdel w.bnd.tags tag } }

/-- The last beat of a read frees its tag; a completion for a quarantined tag is discarded and counted (R52). -/
def readCompletion (tag : Nat) (w : Wall) : Wall :=
  match tget w.bnd.tags tag with
  | some (TagState.out _) => pumpRings ((dropTag tag w).set Reg.tagsOut (w.get Reg.tagsOut - 1))
  | some TagState.quarantined => w.bump Reg.lateCompletions 1
  | none => w

/-- A quarantine of 1 ms ends (R52). -/
def quarantineEnd (tag : Nat) (w : Wall) : Wall :=
  match tget w.bnd.tags tag with
  | some TagState.quarantined => pumpRings (dropTag tag w)
  | _ => w

/-- A descriptor group arrives (R520): at most what the read asked for. -/
def descDone (d : RingDir) (i : Nat) (descs : List Nat) (w : Wall) : Wall :=
  let k := ringKey d i
  let r := w.ring k
  if !r.reading then w
  else
    let w := freeUse (.desc d i) w
    if !ringRuns k w then pumpRings (w.setRing k { r with reading := false })
    else
      let size := ringSize k w
      let n := min descs.length (min (unfetched k w) (min (16 - r.fetchAt % 16) (size - r.fetchAt)))
      let got := ((List.range n).map fun j => (r.fetchAt + j) % size).zip (descs.take n)
      pumpRings (w.setRing k { r with reading := false, held := r.held ++ got, fetchAt := (r.fetchAt + n) % size })

/-- A transmit frame's data arrives: it is linked to its queue, or waits for the check-value unit (R520, R523, R547). -/
def txDataDone (i : Nat) (data : List Byte) (w : Wall) : Wall :=
  let r := w.ring i
  match r.dataFor with
  | [] => w
  | e :: l =>
    let ds := e :: l
    let sp := r.feeds
    let len := frameLen ds
    let bytes := fit len data
    let w := (freeUse (.data i) w).setRing i { r with dataFor := [] }
    if !ringRuns i w then pumpRings (subHostOcc (sp / 8) (chunksOf len) w)
    else
      let w := match millTxOf i w with
        | some msp =>
          let b := brickOfSp msp
          let m := w.mill b
          let f : MillFrame := { bytes := bytes, first := e.1, count := ds.length, desc := e.2, value := 0, bad := false }
          w.setMill b { m with waiting := m.waiting ++ [f], taken := m.taken + 1 }
        | none =>
          let f : EFrame := { src := .host i e.1 ds.length, sp := sp, bytes := bytes, whole := true, chunks := chunksOf len, stamp := 0, desc := e.2 }
          linkOwned (if bit e.2 85 then bits e.2 91 86 else w.get (Reg.txQueue sp)) f w
      pumpRings w

/-- Is a frame of a ring still in the egress FIFO or on the line? -/
def ringBusy (k : Nat) (w : Wall) : Bool :=
  let mine (f : EFrame) : Bool := match f.src with | .host i _ _ => i == k | _ => false
  decide (k < 256) && ((w.egr.queues.any fun e => e.2.frames.any mine) || (w.egr.txNow.any fun e => mine e.2.frame))

/-- A disabled ring has nothing outstanding (R516). -/
def ringStopped (k : Nat) (w : Wall) : Wall :=
  if ringOn k w ∨ ringReads k w ∨ ringBusy k w then w else setRingStatus k (setBit (ringStatus k w) 1) w

/-! ### Receive delivery (R531 to R534) -/

/-- Fill descriptors with a frame: host writes of data, write-backs, indices used, and descriptors left. -/
def fillRx (base : Nat) (eop : Nat) (sop : Bool) : Nat → List Byte → List (Nat × Nat) → List (Nat × List Byte) × List (Nat × List Byte) × List Nat × List (Nat × Nat)
  | 0, _, l => ([], [], [], l)
  | _ + 1, _, [] => ([], [], [], [])
  | n + 1, data, (i, d) :: l =>
    if !rxDescOk d then
      let r := fillRx base eop sop n data l
      (r.1, (base + 32 * i, toLe 32 (2 ^ 104 + 2 ^ 255)) :: r.2.1, i :: r.2.2.1, r.2.2.2)
    else
      let m := min (dLen d) data.length
      let last := m == data.length
      let wb := m * 2 ^ 64 + b2n sop * 2 ^ 89 + (if last then eop + 2 ^ 90 else 0) + 2 ^ 255
      if last then ([(dAddr d, data)], [(base + 32 * i, toLe 32 wb)], [i], l)
      else
        let r := fillRx base eop false n (data.drop m) l
        ((dAddr d, data.take m) :: r.1, (base + 32 * i, toLe 32 wb) :: r.2.1, i :: r.2.2.1, r.2.2.2)

/-- Deliver a frame to a receive ring whose held descriptors can take it (R518, R532, R533). -/
def deliverRx (k : Nat) (data : List Byte) (eop : Nat) (w : Wall) : Wall :=
  let r := w.ring k
  let x := fillRx (ringBase k w) eop true (r.held.length + 1) data r.held
  let w := w.setRing k { r with held := x.2.2.2 }
  let w := x.1.foldl (fun w e => writeHost e.1 e.2 w) w
  let w := x.2.1.foldl (fun w e => writeHost e.1 e.2 w) w
  ringCount k data.length false (ringAdvance k x.2.2.1 w)

/-- EOP fields of a frame from the brick buffer (R533). -/
def eopOf (f : IFrame) : Nat :=
  (f.result.getD 0) % 2 ^ 62 + f.sp * 2 ^ 80 + f.l3ck * 2 ^ 91 + f.l4ck * 2 ^ 93 + b2n f.secured * 2 ^ 95 + f.frag * 2 ^ 96 +
  b2n f.gleaned * 2 ^ 98 + f.colour * 2 ^ 99 + b2n (f.disp == .pipe) * 2 ^ 101 + b2n f.result.isSome * 2 ^ 102 +
  f.tag * 2 ^ 112 + f.stamp % 2 ^ 96 * 2 ^ 128 + f.bytes.length % 2 ^ 16 * 2 ^ 224

/-- A frame's delivery or copy has ended, taken or not. -/
def hostDone (n : Nat) (f : IFrame) (w : Wall) : Wall := sweep f.sp (modFrame n (fun f => { f with hostPending := false }) w)

/-- The due frame at the head of a ring is delivered, waits for descriptors being fetched, or is dropped (R534). -/
def deliverDue (k n : Nat) (rest : List Nat) (w : Wall) : Wall :=
  match frameOf n w with
  | none => w.setRing k { w.ring k with due := rest }
  | some f =>
    let drop (w : Wall) : Wall := hostDone n f (bump64 (ringBlk k + 0x60) 1 (w.setRing k { w.ring k with due := rest }))
    if !ringRuns k w || (millRxOf (k - 256) w).isSome then drop w
    else if f.bytes.length ≤ rxRoom (w.ring k).held then
      let w := w.setRing k { w.ring k with due := rest }
      let w := deliverRx k f.bytes (eopOf f) w
      pumpRings (hostDone n f (stat f.sp (if f.disp = .pipe then 33 else 32) 1 w))
    else if (w.ring k).reading || decide (0 < unfetched k w) then pumpRings w
    else drop w

/-- The head of the loop buffer goes to MILL_RX_RING, or is held for want of descriptors (R547, R548). -/
def deliverMill (k sp : Nat) (w : Wall) : Wall :=
  let b := brickOfSp sp
  let m := w.mill b
  match m.loop with
  | [] => w
  | f :: l =>
    if ringRuns k w && decide (f.bytes.length ≤ rxRoom (w.ring k).held) then
      let w := w.setMill b { m with loop := l, delivered := m.delivered + 1 }
      let eop := f.value % 2 ^ 64 + sp * 2 ^ 80 + b2n f.bad * 2 ^ 103 + f.bytes.length % 2 ^ 16 * 2 ^ 224
      let eop := if sp < 512 then eop else 0
      let w := deliverRx k f.bytes eop w
      let w := when f.bad (fun w => w.bump (Reg.cvBadCount b) 1) w
      pumpRings (if w.get (Reg.millState sp) = 3 then setMillState sp 1 w else w)
    else if ringRuns k w && ((w.ring k).reading || decide (0 < unfetched k w)) then pumpRings w
    else if w.get (Reg.millState sp) = 1 then setMillState sp 3 w else w

/-- RX_RING_DELIVER (R530 to R534, R548). -/
def rxDeliver (i : Nat) (w : Wall) : Wall :=
  let k := 256 + i
  match (w.ring k).due with
  | n :: rest => deliverDue k n rest w
  | [] => match millRxOf i w with
    | some sp => deliverMill k sp w
    | none => w

/-! ### Vectors (R538 to R541) -/

/-- A vector's moderation condition is met: its DATA is written to its ADDRESS (R540). -/
def vectorDeliver (v : Nat) (w : Wall) : Wall :=
  let r := tgetD w.hst.vecs v { pending := 0, first := 0, last := 0 }
  if r.pending = 0 then w
  else
    let x := w.get (Reg.vector (v / 128) (v % 128))
    let w : Wall := { w with hst := { w.hst with vecs := tput w.hst.vecs v { r with pending := 0, last := w.time.tclk } } }
    (w.bump Reg.vectorsSent 1).emit (.mortarWrite (bits x 63 0) (toLe 4 (bits x 95 64)))

/-! ### The host side of the Bellhouse (R588) -/

/-- Sources whose bits a half register covers: 29 and above are reserved. -/
def bhHalf (hi : Bool) : List Nat := if hi then [] else List.range 29

/-- A write of ENABLE_LO or ENABLE_HI: one event for each latch already set whose bit is written 1. -/
def hostEnable (hi : Bool) (v : Nat) (w : Wall) : Wall :=
  (bhHalf hi).foldl (fun w s =>
    let w := if bit v s then w.setBitR (Reg.bhEnable 17) s else w.clrBitR (Reg.bhEnable 17) s
    when (bit v s && bit (w.get (Reg.bhPending 17)) s) (hostEvent s) w) w

/-- A write of CLEAR_LO or CLEAR_HI: latches cleared, a level source re-sampled. -/
def hostClear (hi : Bool) (v : Nat) (w : Wall) : Wall :=
  (bhHalf hi).foldl (fun w s =>
    if bit v s && bit (w.get (Reg.bhPending 17)) s then
      let w := w.clrBitR (Reg.bhPending 17) s
      when (isLevel 17 s && levelHigh 17 s w) (setLatch 17 s) w
    else w) w

/-! ### Check-value units (R542 to R545) -/

/-- Bytes fed ahead of a frame's data, and CV_FOLD_SEQ moved on (R544). -/
def foldBytes (b desc : Nat) (w : Wall) : List Byte × Wall :=
  match w.get (Reg.cvFold b) with
  | 1 => (toLe 8 (dAddr desc), w)
  | 2 => (toLe 4 (w.get (Reg.cvFoldSeq b)), w.bump (Reg.cvFoldSeq b) 1)
  | _ => ([], w)

/-- A Mill frame through the unit: the frame to deliver with its finalised value and CV_BAD (R543). -/
def cvUnit (b : Nat) (f : MillFrame) (w : Wall) : MillFrame × Wall :=
  let p := w.get (Reg.cvPoly b) % 4
  let width := cvWidth p
  let op := bits f.desc 114 113
  let start := if bit f.desc 112 then bits f.desc 191 128 % 256 ^ width
    else if w.flag (Reg.cvChain b) then w.get (Reg.cvRunning b) % 256 ^ width else cvInit p
  let fb := foldBytes b f.desc w
  let strip := op == 2 && decide (width < f.bytes.length)
  let data := if strip then f.bytes.take (f.bytes.length - width) else f.bytes
  let reg := crcReg (cvPolyRef p) start (fb.1 ++ data)
  let value := cvFinal p reg
  let bad := op == 2 && (!strip || ofLe (f.bytes.drop (f.bytes.length - width)) != value)
  let out := if op = 1 then data ++ toLe width value else data
  let w := ((fb.2.set (Reg.cvRunning b) reg).bump (Reg.cvFrames b) 1).bump (Reg.millBytes b) f.bytes.length
  ({ f with bytes := out, value := value, bad := bad }, w)

/-- The brick's sub-port in mill. -/
def millSp (b : Nat) (w : Wall) : Option Nat := (brickSps b).find? fun sp => w.get (Reg.millState sp) != 0

/-- The next Mill frame passes the unit into the loop buffer of 64 KiB, and is written back (R528, R543, R547). -/
def millFrame (b : Nat) (w : Wall) : Wall :=
  match millSp b w with
  | none => w
  | some sp =>
    let m := w.mill b
    match m.waiting with
    | [] => w
    | f :: l =>
      let used := (m.loop.map fun f => f.bytes.length).sum
      if w.get (Reg.millState sp) = 4 ∨ 65536 < used + f.bytes.length + 8 then w
      else
        let c := cvUnit b f w
        let w := c.2.setMill b { m with waiting := l, loop := m.loop ++ [c.1] }
        let w := subHostOcc (sp / 8) (chunksOf f.bytes.length) w
        pumpRings (txComplete (w.get (Reg.millTxRing sp)) f.first f.count f.desc 0 f.bytes.length 0 c.1.value w)

/-- The head Mill frame cannot fit every descriptor the host can give (R549). -/
def millOversize (b : Nat) (w : Wall) : Wall :=
  match millSp b w with
  | none => w
  | some sp =>
    let m := w.mill b
    let k := 256 + w.get (Reg.millRxRing sp)
    match m.loop with
    | [] => w
    | f :: l =>
      if ringRuns k w && decide ((w.ring k).held.length = ringSize k w - 1) && decide (rxRoom (w.ring k).held < f.bytes.length) then
        let i := w.get (Reg.millTxRing sp)
        let w := txWriteBack i f.first f.count f.desc 5 f.bytes.length 0 f.value w
        let w := bump64 (ringBlk i + 0x60) 1 w
        let w := w.setMill b { m with loop := l, lost := m.lost + 1 }
        setMillState sp 4 (ringError k 4 w)
      else w

/-! ### Entering and leaving mill (R546, R552) -/

/-- Put a sub-port in mill: down with reason 12, its lanes DISABLED, SP_STATE 5 (R546). -/
def enterMill (sp : Nat) (w : Wall) : Wall :=
  let w := setSpSt sp 5 (downOff sp 12 w)
  setMillState sp 1 (w.setMill (brickOfSp sp) MillRt.init)

/-- An enabled Mill waits for its sub-port to leave service, or is entered at once (R546). -/
def millTurn (sp : Nat) (w : Wall) : Wall := if spSt sp w = 5 then setMillState sp 1 w else enterMill sp w

/-- MILL_ENABLE := 1 (R546). -/
def millOn (sp : Nat) (w : Wall) : WRes :=
  let b := brickOfSp sp
  let tx := w.get (Reg.millTxRing sp)
  let rx := 256 + w.get (Reg.millRxRing sp)
  if (boundSp tx w).isSome then .abort aRange
  else if ((brickSps b).any fun s => s != sp && w.flag (Reg.millEnable s)) ∨ spWidthOf sp w = 0 ∨ ringOn tx w ∨ ringOn rx w then .abort aState
  else if bareSvc w then .abort aEpoch
  else
    .ok (millTurn sp (w.set (Reg.millEnable sp) 1))

/-- MILL_ENABLE := 0: the Mill drains (R552). -/
def millOff (sp : Nat) (w : Wall) : Wall :=
  let w := w.set (Reg.millEnable sp) 0
  if w.get (Reg.millState sp) = 0 then w else setMillState sp 2 w

/-- Every frame taken in has been delivered: the sub-port leaves mill (R552). -/
def millDrained (sp : Nat) (w : Wall) : Wall :=
  let m := w.mill (brickOfSp sp)
  if w.get (Reg.millState sp) = 2 ∧ m.waiting = [] ∧ m.loop = [] ∧ (w.ring (w.get (Reg.millTxRing sp))).dataFor = [] then
    enterDetect sp 0 (setSpSt sp 0 (setMillState sp 0 w))
  else w

end Sys2Proof.Machine
end

