-- ==== Sys2Proof/Machine/Time.lean ====
section
/-! DEFINITION. Wall time (R405 to R412), the calibration in force (R417), and TX_STAMP_NEXT (R426). -/

namespace Sys2Proof.Machine

/-- The nominal increment: 1.25 ns per tclk in units of 2^-32 sixteenths (R405). -/
def nominalInc : Nat := 20 * 2 ^ 32

/-- The increment of a FREQ_ADJ_PPT: nominal × (1 + ppt × 10^-12), rounded to the nearest unit (R406). -/
def incOf (ppt : Int) : Nat := (((nominalInc : Int) * (1000000000000 + ppt) * 2 + 1000000000000) / 2000000000000).toNat

/-- tclk runs: every mode but OFF and EMBER, and not after a REFCORE loss (R26, R30). -/
def clocksRun (m : Mode) (w : Wall) : Bool := m != .off && m != .ember && !w.bnd.clocksStopped && !w.bnd.waitRef

/-- Every copy of the time takes the stamp count's next edge (R405). -/
def tickTime (w : Wall) : Wall :=
  { w with time := { w.time with
      tclk := w.time.tclk + 1
      acc := (w.time.acc + w.time.inc) % 2 ^ 96 } }

/-- Take note of a time write and of its requester (R411). -/
def waitTime (who : Who) (op : TimeOp) (w : Wall) : Wall :=
  { w with time := { w.time with waits := w.time.waits ++ [{ op := op, who := who, applied := w.time.tclk, seen := false }] } }

/-- Wall time as the time writes already waiting leave it. -/
def wallAfter (l : List TimeWait) (t : Int) : Int :=
  l.foldl (fun t x => match x.op with
    | .set v => (v : Int)
    | .step d => t + d
    | .freq _ => t) t

/-- A write of TIME_SET (R409, R412): its value in 1/16 ns. -/
def timeSet (who : Who) (v : Nat) (w : Wall) : WRes := .held (waitTime who (.set v) (w.set Reg.timeValid 1))

/-- A write of TIME_STEP: refused when it would make wall time negative (R412). -/
def timeStep (who : Who) (d : Int) (w : Wall) : WRes :=
  if wallAfter w.time.waits w.wallT + d < 0 then .abort aRange
  else .held (waitTime who (.step d) (w.set Reg.timeValid 1))

/-- A write of FREQ_ADJ_PPT: the object holds the value, the increment changes at the resync instant (R406). -/
def freqWrite (who : Who) (ppt : Int) (w : Wall) : WRes := .held (waitTime who (.freq ppt) (w.setI Reg.freqAdjPpt ppt))

/-- A step is applied: STEP_COUNT and STEP_AT (R431). -/
def stepped (w : Wall) : Wall := (w.bump Reg.stepCount 1).set Reg.stepAt (t96 w.wallT)

/-- A time write takes effect at the resync instant (R406, R412). -/
def applyTime (op : TimeOp) (w : Wall) : Wall :=
  match op with
  | .set t => stepped { w with time := { w.time with offset := (t : Int) - w.stamp } }
  | .step d => stepped { w with time := { w.time with offset := w.time.offset + d } }
  | .freq ppt => { w with time := { w.time with inc := incOf ppt } }

/-- Is a write due at a resync instant now: at least 1 µs after it was applied (R411)? -/
def timeDue (w : Wall) (x : TimeWait) : Bool := x.seen || decide (x.applied + 800 ≤ w.time.tclk)

/-- TX_ADJ and RX_ADJ written since apply from this instant on (R417). -/
def takeAdj (w : Wall) : Wall :=
  upTo 64 (fun p w =>
    { w with time := { w.time with
        adj := tputD (tputD w.time.adj (p * 2) 0 (w.get (Reg.txAdj p))) (p * 2 + 1) 0 (w.get (Reg.rxAdj p)) } }) w

/-- A resync instant (R410, R411): due writes take effect in order and are answered. -/
def resync (w : Wall) : Wall :=
  let due := w.time.waits.filter (timeDue w)
  let rest := (w.time.waits.filter fun x => !timeDue w x).map fun x => { x with seen := true }
  let w := takeAdj { w with time := { w.time with waits := rest } }
  let w := due.foldl (fun w x => applyTime x.op w) w
  due.foldl (fun w x => respond x.who 0 none w) w

/-- The entry that a read of an empty TX_STAMP_NEXT gives (R426). -/
def noStamp : Nat := 0xFF * 2 ^ 112

/-- A read of TX_STAMP_NEXT removes and returns the oldest entry (R426); host source 28 is high while any is held (R587). -/
def takeStamp (sp : Nat) (w : Wall) : Nat × Wall :=
  match tgetD w.time.captures sp [] with
  | [] => (noStamp, w)
  | x :: l =>
    let c := if l = [] then tdel w.time.captures sp else tput w.time.captures sp l
    let w := { w with time := { w.time with captures := c } }
    (x, if c = [] then level 17 28 false w else w)

end Sys2Proof.Machine
end

