-- ==== Sys2Proof/Machine/Boundary.lean ====
section
/-! DEFINITION. The wall at its boundary: clocks and references (R24 to R33), the power-fail warning (R36 to R39),
target accesses (R49, R50, R628), credits (R57 to R60), WAITING (R66), AVS (R67 to R70) and temperature (R71,
R72). -/

namespace Sys2Proof.Machine

/-- Rails are up and the related clocks run: the wall can act (R126, R30, R41). -/
def awake (m : Mode) (w : Wall) : Bool := clocksRun m w

/-- Data ports are served: SERVICE, and DOZE for what goes on there (R126). -/
def inService (m : Mode) : Bool := m == .service || m == .doze

/-! ### References (R31) -/

/-- REFLANEb is lost: every sub-port of brick b whose group is not DISABLED goes down with reason 6 (R31, R300). -/
def reflaneLoss (b : Nat) (w : Wall) : Wall :=
  if !bit w.bnd.refLanes b then w
  else
    let w := { w with bnd := { w.bnd with refLanes := clrBit w.bnd.refLanes b } }
    let w := w.set Reg.reflanePresent w.bnd.refLanes
    let w := (brickSps b).foldl (fun w sp =>
      if spSt sp w = 5 ∨ (spSt sp w = 0 ∧ spGrpSt sp w = 0) then w else downOff sp 6 w) w
    latch b 15 w

/-- REFLANEb is valid again: the sub-ports that its loss took down train from DETECT (R31). -/
def reflaneRestored (b : Nat) (w : Wall) : Wall :=
  if bit w.bnd.refLanes b then w
  else
    let w := { w with bnd := { w.bnd with refLanes := setBit w.bnd.refLanes b } }
    let w := w.set Reg.reflanePresent w.bnd.refLanes
    (brickSps b).foldl (fun w sp =>
      if spGrpSt sp w = 0 ∧ w.get (Reg.downReason (sp / 8) (sp % 8)) = 6 ∧ mayDetect sp w then enterDetect sp 0 w else w) w

/-! ### SYNCOUT (R32, R33, R75) -/

/-- SYNCOUTn_STATE: 0 off, 1 running, 2 squelched. -/
def syncoutView (n : Nat) (w : Wall) : Nat :=
  if !w.flag (Reg.syncoutEnable n) then 0
  else
    let sp := w.get (Reg.syncoutSp n)
    let r := w.get (Reg.syncoutRole n)
    let p := sp / 8
    if spSt sp w == 2 && hasRole sp r w && w.flag (Reg.cdrLocked (laneOf p r w)) && !(w.lan.exchs.any fun e => e.1 == p * 16 + r)
    then 1 else 2

/-! ### Power-fail warning (R36 to R39) -/

def modBnd (f : BoundarySt → BoundarySt) (w : Wall) : Wall := { w with bnd := f w.bnd }

/-- PFAIL_N is accepted (R37, R39): the SERVICE_S sheaf takes its place, the queue closes, an outstanding AVS request
is withdrawn. -/
def pfailAccept (w : Wall) : Wall :=
  if w.bnd.pfail then w
  else
    let w := setShut true (pfailSheaf w)
    let w := modBnd (fun b => { b with pfail := true, pfailHigh := false, avsOut := none }) w
    let w := w.bump Reg.pfailCount 1
    latch 17 4 (latch 16 0 (daybook 0 0x0E02 (w.get Reg.pfailCount) w))

/-- The queue has drained after an accepted PFAIL_N, and the write inhibit is set (R37). -/
def pfailDrained (m : Mode) (w : Wall) : Wall :=
  if w.bnd.pfail && !w.bnd.inhibit then setInhibit true (if commitRuns m w then drainQueue w else w) else w

/-- PFAIL_N returns high while VCORE stays in tolerance (R39). -/
def pfailRise (w : Wall) : Wall :=
  if w.bnd.pfail && w.bnd.vcoreIn then modBnd (fun b => { b with pfailHigh := true }) w else w

/-- PFAIL_COUNT and an unmarked SERVICE_S sheaf as one group, ahead of what waits (R626). -/
def pfailGroup (w : Wall) : Wall :=
  if granaryShut w then w
  else
    let g := w.gra.genNext
    let lay := w.get Reg.granaryLayout
    let a := groupOf 0x01 (0x1040 + 3 * 2 ^ 16) false (ledgerBodies (toLe 4 (w.get Reg.pfailCount)) 0) 3 .none g lay
    let b := groupOf 0x01 (0x1483 + 1 * 2 ^ 16) false (ledgerBodies (toLe 8 (w.get Reg.serviceS)) 0) 3 .none g lay
    let a := a.map fun c => { c with sheaf := { c.sheaf with last := false } }
    { w with gra := { w.gra with genNext := g + 1, waiting := a ++ b ++ w.gra.waiting } }

/-- PFAIL_N has been high for 1 ms: the inhibit clears and the queue reopens (R39). While VGRAN is not good the
queue stays closed for that (R492). -/
def pfailReopen (w : Wall) : Wall :=
  if w.bnd.pfail && w.bnd.pfailHigh && w.bnd.vcoreIn then
    let w := pfailGroup (modBnd (fun b => { b with pfail := false, pfailHigh := false }) w)
    if w.bnd.vgranOk then pumpQueue (setShut false (setInhibit false w)) else w
  else w

/-- VCORE leaves or returns to its tolerance band: the write inhibit follows (R35), unless an accepted PFAIL_N or
VGRAN holds it. -/
def vcoreTolerance (inBand : Bool) (w : Wall) : Wall :=
  let w := modBnd (fun b => { b with vcoreIn := inBand }) w
  if inBand then (if w.bnd.pfail || !w.bnd.vgranOk then w else setInhibit false w)
  else modBnd (fun b => { b with pfailHigh := false }) (setInhibit true w)

/-! ### Target accesses (R49, R50, R132, R628) -/

/-- Does the wall answer target accesses: not while the clocks are stopped or it waits for REFCORE (R628)? -/
def answers (m : Mode) (w : Wall) : Bool := clocksRun m w

/-- The Reeve has halted at KINDLE step 1 (R132). -/
def halted (w : Wall) : Bool := w.get Reg.kindleStep == 0xFF

/-- An access that is not 4 or 8 bytes and naturally aligned gets an error completion (R49). -/
def accessError (offset size : Nat) (m : Mode) (w : Wall) : Wall :=
  if answers m w && !((size == 4 || size == 8) && offset % size == 0) then w.emit (.completionError offset size) else w

/-! ### Credits (R57 to R60) -/

/-- Daybook entry 0x0E05. -/
def creditLog (c v : Nat) (w : Wall) : Wall := daybook 0 0x0E05 (c + v % 2 ^ 16 * 2 ^ 16) w

/-- A credit return (R57, R60): 0 to 16 credits; a larger VALUE sets bits the word keeps zero. -/
def creditReturn (c n : Nat) (w : Wall) : Wall :=
  if 16 < n then creditLog c n w
  else if (tget w.bnd.pool c).isNone then w
  else setCredits c (courseCredits c w + n) w

/-- A credit-init starts a stopped slice with its pool; a bad or late one is logged (R58, R60). -/
def creditInit (c v : Nat) (w : Wall) : Wall :=
  if (tget w.bnd.pool c).isSome ∨ v = 0 ∨ 4095 < v then creditLog c v w
  else setCredits c v (modBnd (fun b => { b with pool := tput b.pool c v }) w)

/-! ### WAITING (R66) -/

def waitingChange (p : Nat) (high : Bool) (w : Wall) : Wall :=
  panicEval p (modBnd (fun b => { b with waiting := if high then setBit b.waiting p else clrBit b.waiting p }) w)

/-! ### AVS (R67 to R70, R248) -/

/-- Next setpoint that a step asks for: the restore towards the stored setpoint clamped to the range (R69), then a
move into the range (R70), then the round's step (R248); bare service only restores (R140). -/
def avsNext (w : Wall) : Option Nat :=
  let v := w.get Reg.vcoreMv
  let lo := w.get Reg.avsMinMv
  let hi := w.get Reg.avsMaxMv
  let goal := min hi (max lo (w.get Reg.avsStoredMv))
  if w.bnd.avsRestoring ∧ v + 5 ≤ goal then some (v + 5)
  else if w.bnd.avsRestoring ∧ goal + 5 ≤ v then some (v - 5)
  else if bareSvc w then none
  else if hi < v then some (v - 5)
  else if v < lo then some (v + 5)
  else if w.bnd.avsRound ∧ v + 5 ≤ hi then some (v + 5) else none

/-- Has the restore of R69 steps left to make? -/
def avsRestore (w : Wall) : Bool :=
  let v := w.get Reg.vcoreMv
  let goal := min (w.get Reg.avsMaxMv) (max (w.get Reg.avsMinMv) (w.get Reg.avsStoredMv))
  w.bnd.avsRestoring && (decide (v + 5 ≤ goal) || decide (goal + 5 ≤ v))

/-- The Reeve may ask for a step (R67, R69). -/
def avsMay (m : Mode) (w : Wall) : Bool :=
  m == .service && w.flag Reg.avsEnable && w.bnd.avsOut.isNone && !w.bnd.pfail

/-- The 1 ms spacing has passed (R67, R69, R70). -/
def avsStep (m : Mode) (w : Wall) : Wall :=
  if avsMay m w then
    match avsNext w with
    | some mv => (modBnd (fun b => { b with avsOut := some mv }) w).emit (.avsRequest mv)
    | none => modBnd (fun b => { b with avsRestoring := false }) w
  else w

/-- A step was refused or not answered (R68): the setpoint stays; a restore or the round's step is not retried, a move
into the range is (R70). -/
def avsFailed (w : Wall) : Wall :=
  modBnd (fun b => { b with avsOut := none, avsRestoring := false, avsRound := false }) (w.bump Reg.avsRefused 1)

/-- The engine power controller answers (R68): an acknowledged step outside the restore is committed to
AVS_STORED_MV (R70, R248). -/
def avsAnswer (ack : Bool) (w : Wall) : Wall :=
  match w.bnd.avsOut with
  | none => w
  | some mv =>
    let w := latch 16 14 w
    if ack then
      let restore := avsRestore w
      let w := w.set Reg.vcoreMv mv
      let w := modBnd (fun b => { b with avsOut := none, avsRound := b.avsRound && restore }) w
      if restore then w else commitReg Reg.avsStoredMv 2 (w.set Reg.avsStoredMv mv)
    else avsFailed w

/-- No answer within 10 ms (R68). -/
def avsTimeout (w : Wall) : Wall :=
  match w.bnd.avsOut with
  | none => w
  | some mv => avsFailed (daybook 0 0x0E03 mv w)

/-! ### Temperature (R71, R72) -/

/-- A reading of a sensor: the alarm sources are high while any sensor reads at or above TJ_ALARM_C (R72, R585, R587). -/
def tempReading (k : Nat) (t : Int) (w : Wall) : Wall :=
  let w := w.setI (Reg.tj k) t
  let hot := (List.range 5).any fun k => decide (w.getI Reg.tjAlarmC ≤ w.getI (Reg.tj k))
  level 17 2 hot (level 16 11 hot w)

/-- A sensor reads 115 °C or more: every data port goes down until a PORT_RESTART (R72). -/
def thermalDown (k : Nat) (t : Int) (w : Wall) : Wall :=
  let w := tempReading k t w
  if t < 115 then w
  else
    let w := modBnd (fun b => { b with thermal := 2 ^ 64 - 1 }) w
    let w := upTo 512 (fun sp w =>
      if spSt sp w = 5 ∨ (spSt sp w = 0 ∧ spGrpSt sp w = 0) then w else downOff sp 7 w) w
    digestEntry 0 0x0E0B (ofInt 16 t + k * 2 ^ 16) w

end Sys2Proof.Machine
end

