-- ==== Sys2Proof/Machine/Observe.lean ====
section
/-! DEFINITION. Programmable counters through the window (R603 to R605), tally windows (R606 to R608), the sampling
buffer (R612), Daybook reads (R617, R618) and the Books audit (R620 to R622). -/

namespace Sys2Proof.Machine

/-! ### Programmable counters -/

/-- Window offset of counter `k`'s record in brick `b` (R605). -/
def pcWin (b k : Nat) : Nat := brickWin b + 0x80000 + k * 0x20

/-- A counter counts up to its wrap (R603, R604). -/
def counterWrap (b k : Nat) (w : Wall) : Wall :=
  if pcCounting b k w || pcChained b k w then pcAdd b k (2 ^ 48 - w.get (Reg.pcValue b k)) w else w

/-- A window read of VALUE of an even counter copies its odd partner into HIGH_LATCH (R603). -/
def pcValueRead (b k : Nat) (w : Wall) : Wall :=
  if k % 2 = 0 then w.setWin64 (pcWin b k + 0x10) (w.get (Reg.pcValue b (k + 1))) else w

/-- PC_CLEAR_ALL: every VALUE, OVF and HIGH_LATCH is zero (R623). -/
def pcClearAll (w : Wall) : Wall :=
  upTo 16 (fun b w =>
    upTo 32 (fun k w => (w.set (Reg.pcValue b k) 0).setWin64 (pcWin b k + 0x10) 0) (w.set (Reg.pcOvf b) 0)) w

/-- Is a CONFIG word acceptable: no reserved bit, CHAIN on odd counters only, an event of R602 (R600)? -/
def pcConfigOk (k v : Nat) : Bool := v < 2 ^ 22 && (!bit v 19 || k % 2 == 1) && pcEventOk (v % 256)

/-! ### Tally windows -/

/-- The record of a window (R607). -/
def tallyRecord (t : Tally) (seq : Nat) (partly : Bool) : Nat :=
  t.rxBytes % 2 ^ 64 + t.txBytes % 2 ^ 64 * 2 ^ 64 + t.rxFrames % 2 ^ 40 * 2 ^ 128 + t.txFrames % 2 ^ 40 * 2 ^ 168 +
    seq % 2 ^ 32 * 2 ^ 208 + b2n partly * 2 ^ 240 + b2n t.notActive * 2 ^ 241

/-- A window begins: NOT_ACTIVE is clear only for a sub-port that is active or in survey. -/
def tallyStart (sp : Nat) (w : Wall) : Wall :=
  modTally sp (fun _ => { Tally.init with notActive := !spFlows sp w }) w

/-- A window of a port ends: one record for each sub-port, and the next window begins (R607, R608). -/
def tallyEnd (p : Nat) (partly : Bool) (w : Wall) : Wall :=
  let seq := tgetD w.obs.tallySeq p 0
  let w := upTo 8 (fun s w =>
    let sp := p * 8 + s
    let r := tallyRecord (tgetD w.obs.tally sp Tally.init) seq partly
    tallyStart sp ({ w with obs := { w.obs with tallyRecs := tput w.obs.tallyRecs (sp * 16 + seq % 16) r } }.set (Reg.tallySeq sp) seq)) w
  { w with obs := { w.obs with tallySeq := tput w.obs.tallySeq p ((seq + 1) % 2 ^ 32) } }

/-- A write of TALLY_US closes the window with PARTIAL and starts the new length (R608). -/
def tallyWrite (p v : Nat) (w : Wall) : Wall := (tallyEnd p true w).set (Reg.tallyUs p) v

/-- A tally record of a sub-port by slot. -/
def tallyRec (sp slot : Nat) (w : Wall) : Nat := tgetD w.obs.tallyRecs (sp * 16 + slot) 0

/-- TALLY_HISTORY: the 16 records, oldest first (R625). -/
def tallyHistory (sp : Nat) (w : Wall) : List Byte :=
  let next := tgetD w.obs.tallySeq (sp / 8) 0
  (List.range 16).flatMap fun j => toLe 32 (tallyRec sp ((next + j) % 16) w)

/-! ### The sampling buffer (R612) -/

/-- A read of SAMPLE_NEXT removes and returns the oldest entry; an empty buffer reads UNIT 0xFF. -/
def takeSampleEntry (w : Wall) : Nat × Wall :=
  match w.obs.samples with
  | [] => (0xFF, w)
  | x :: l => (x, { w with obs := { w.obs with samples := l } }.set Reg.samplesHeld l.length)

/-! ### Daybook reads (R613, R614, R618) -/

/-- An entry as it lies in its slot. -/
def dayBits (e : DbEntry) : Nat := e.src + e.code * 2 ^ 16 + e.seq * 2 ^ 32 + e.stamp * 2 ^ 64 + e.detail * 2 ^ 128

/-- Entry `e` as DB_BATCH gives it: SOURCE 0xFFFF when it is not held or not yet written. -/
def dayEntry (e : Nat) (w : Wall) : Nat :=
  let n := w.get Reg.dbWritten
  if e < n ∧ (e < 64 ∨ n - e ≤ 8128) then
    match tget w.obs.day (daySlot e) with
    | some x => dayBits x
    | none => 0xFFFF
  else 0xFFFF

def dayBatch (cursor : Nat) (w : Wall) : List Byte := (List.range 32).flatMap fun j => toLe 32 (dayEntry (cursor + j) w)

/-! ### The Books audit (R620 to R622) -/

/-- One comparison of a book: its unit, whether it is of a quiescent value, and left side less right side where the
relation fails, else 0. -/
structure BookLine where
  unit : Nat
  quiet : Bool
  diff : Int

/-- An equality, and a bound, of a book. -/
def bookEq (unit : Nat) (quiet : Bool) (l r : Int) : BookLine := { unit := unit, quiet := quiet, diff := l - r }
def bookLe (unit : Nat) (quiet : Bool) (l r : Int) : BookLine := { unit := unit, quiet := quiet, diff := if l ≤ r then 0 else l - r }

/-- The lines of one unit: its equations, and its quiescent values when the unit is quiescent now. -/
structure BookUnit where
  eqs : List BookLine
  quiet : Bool
  vals : List BookLine

/-- Chunks of the frames of a port in queues, in transmission and being built. -/
def portFrames (p : Nat) (w : Wall) : List EFrame :=
  ((List.range 64).flatMap fun q => (w.queue p q).frames) ++
  ((List.range 8).flatMap fun s => match tget w.egr.txNow (p * 8 + s) with | some t => [t.frame] | none => []) ++
  ((List.range 8).flatMap fun s => match tget w.egr.building (p * 8 + s) with | some f => [f] | none => [])

def isPipe (f : EFrame) : Bool := match f.src with | .pipe => true | _ => false

/-- Book 0: Mortar tags (R53). -/
def bookTags (w : Wall) : List BookUnit :=
  [{ eqs := [bookEq 0 false (freeTags w + w.bnd.tags.length) 512], quiet := w.bnd.tags == [], vals := [bookEq 0 true w.bnd.tags.length 0] }]

/-- Book 1: ingress credits of a course (R59): what the core holds is the pool less the credits held here. -/
def bookCredits (w : Wall) : List BookUnit :=
  (List.range 4).map fun c =>
    let pool := tgetD w.bnd.pool c 0
    { eqs := [bookLe c false (courseCredits c w) pool], quiet := courseCredits c w == pool, vals := [bookEq c true (courseCredits c w) pool] }

/-- Book 2: lane categories of a brick (R214, R5). -/
def bookLanes (w : Wall) : List BookUnit :=
  (List.range 16).map fun b =>
    let n (u : Nat) : Nat := ((brickLanes b).filter fun l => laneUseOf l w == u).length
    { eqs := [bookEq b false (n 0 + n 1 + n 2 + n 3) 68]
      quiet := !(w.lan.exchs.any fun e => e.1 / 64 == b) && !(w.lan.surveys.any fun e => brickOfLane e.1 == b) && n 2 == 0
      vals := [bookEq b true (n 2) 0, bookEq b true (n 0) 64] }

/-- Book 3: headroom of a course and of its port-classes (R291). -/
def bookHeadroom (w : Wall) : List BookUnit :=
  ((List.range 4).map fun c =>
    let cells : Nat := ((List.range 128).map fun i => w.get (Reg.headroomCells (c * 16 + i / 8) (i % 8))).sum
    { eqs := [bookLe c false cells 65536], quiet := true, vals := [] }) ++
  ((List.range 512).map fun i =>
    let used := w.get (Reg.headroomUsed (i / 8) (i % 8))
    { eqs := [bookLe i false used (w.get (Reg.headroomCells (i / 8) (i % 8)))]
      quiet := (List.range 8).all fun s => cellsOf (i / 8 * 8 + s) w == []
      vals := [bookEq i true used 0] })

/-- Book 4: buffer cells, decisions, Gleaner and lookup commands of a brick (R353). -/
def bookIngress (w : Wall) : List BookUnit :=
  (List.range 16).map fun b =>
    let held : Nat := ((List.range 4).map fun k => portCells (b * 4 + k) w).sum
    let free := w.get (Reg.bufFree b)
    let pend := w.get (Reg.pendingKeys b)
    let gl := (w.ing.glean.filter fun e => e.1 / 1024 == b).length
    { eqs := [bookEq b false (free + held) 32768,
              bookEq b false (tgetD w.ing.keysIssued b 0 : Nat) ((tgetD w.ing.keysMatched b 0 + tgetD w.ing.keysTimedOut b 0 + pend : Nat) : Int),
              bookEq b false (w.get (Reg.gleanUsed b) + (1024 - gl : Nat)) 1024,
              bookLe b false (lookupsOut b w) 16]
      quiet := held == 0 && pend == 0 && lookupsOut b w == 0
      vals := [bookEq b true free 32768, bookEq b true pend 0, bookEq b true (lookupsOut b w) 0] }

/-- Book 5: egress partitions, queue depth and shaper tokens of a port (R366). -/
def bookEgress (w : Wall) : List BookUnit :=
  (List.range 64).map fun p =>
    let fs := portFrames p w
    let depth : Nat := (fs.map fun f => f.chunks).sum
    let read : Nat := ((w.hst.rings.filter fun e => e.1 < 256 && e.2.dataFor != [] && e.2.feeds / 8 == p).map fun e => chunksOf (frameLen e.2.dataFor)).sum
    let mill : Nat := match millSp (p / 4) w with
      | some sp => if sp / 8 = p then ((w.mill (p / 4)).waiting.map fun f => chunksOf f.bytes.length).sum else 0
      | none => 0
    let occ := pipeOcc p w + hostOcc p w
    let most := (List.range 8).foldl (fun a s => max a (w.get (Reg.maxFrame (p * 8 + s)) + 64 + w.get (Reg.shapeOverhead (p * 8 + s)))) 0
    let tok := (w.egr.shapers.filter fun e => e.1 / 128 == p).flatMap fun e =>
      [bookLe p false e.2.tokens (e.2.burst * shaperUnit), bookLe p false (-((most * shaperUnit : Nat) : Int)) e.2.tokens]
    { eqs := [bookLe p false (pipeOcc p w + 16 * coreCredits p w) (pipeSize p w), bookLe p false (hostOcc p w) (hostSize p w),
              bookEq p false (depth + read + mill : Nat) occ] ++ tok
      quiet := fs == [] && occ == 0
      vals := [bookEq p true occ 0] }

/-- Book 6: journal rows, commit queue and store allowance (R508). -/
def bookGranary (w : Wall) : List BookUnit :=
  [{ eqs := [bookEq 0 false (rowsIn .free w + rowsIn .opened w + rowsIn .full w + rowsIn .retired w) 1920,
             bookLe 0 false w.gra.queue.length (if w.bnd.pfail then 13 else 12),
             bookLe 0 false (w.get Reg.storeAllowance) 262144]
     quiet := w.gra.queue == [] && w.gra.waiting == []
     vals := [bookLe 0 true (rowsIn .opened w) 2, bookEq 0 true w.gra.queue.length 0] }]

/-- Book 7: NEXT_PN − 1 ≤ RESERVED_END for every transmit SA in use (R508). -/
def bookPn (w : Wall) : List BookUnit :=
  (w.sec.sas.filter fun e => e.1 % 20 < 4 && !e.2.pendingInstall && w.get (Reg.txEncodingAn (e.1 / 20)) == e.1 % 20).map fun e =>
    { eqs := [bookLe (e.1 / 20) false (e.2.nextPn - 1 : Nat) e.2.reservedEnd], quiet := true, vals := [] }

/-- Book 8: the wear budget (R508). -/
def bookWear (w : Wall) : List BookUnit :=
  [{ eqs := [bookLe 0 false (if w.get Reg.pnBlockLog2 = 34 then 0 else w.get Reg.wearProjected) 8000], quiet := true, vals := [] }]

/-- Descriptors of a transmit ring that await their write-back. -/
def awaiting (k : Nat) (w : Wall) : Nat :=
  let cnt (f : EFrame) : Nat := match f.src with | .host i _ n => if i = k then n else 0 | _ => 0
  let q : Nat := (w.egr.queues.map fun e => (e.2.frames.map cnt).sum).sum
  let t : Nat := (w.egr.txNow.map fun e => cnt e.2.frame).sum
  let m : Nat := match millTxOf k w with
    | some sp => ((w.mill (brickOfSp sp)).waiting.map fun f => f.count).sum
    | none => 0
  (w.ring k).dataFor.length + q + t + m

/-- Book 9: descriptor ownership of a running ring, and Mill frames of a brick (R553). -/
def bookRings (w : Wall) : List BookUnit :=
  ((w.hst.rings.filter fun e => ringRuns e.1 w).map fun e =>
    let k := e.1
    let r := e.2
    let size := ringSize k w
    let owned := (ringTail k w + size - ringHead k w) % size
    let late := match r.tooLong with | some (_, n, _) => n | none => 0
    { eqs := [bookEq k false owned (unfetched k w + r.held.length + late + (if k < 256 then awaiting k w else 0) + r.done.length)]
      quiet := decide (k < 256) && owned == 0
      vals := [] }) ++
  (w.hst.mills.map fun e =>
    let m := e.2
    { eqs := [bookEq e.1 false m.taken (m.delivered + m.waiting.length + m.loop.length + m.lost)]
      quiet := m.loop == [] && m.waiting == [], vals := [] })

/-- The books of R620 by number. -/
def bookOf (n : Nat) (w : Wall) : List BookUnit :=
  match n with
  | 0 => bookTags w
  | 1 => bookCredits w
  | 2 => bookLanes w
  | 3 => bookHeadroom w
  | 4 => bookIngress w
  | 5 => bookEgress w
  | 6 => bookGranary w
  | 7 => bookPn w
  | 8 => bookWear w
  | _ => bookRings w

/-- The first failing line of a book, quiescent values judged only where the unit is quiescent (R621). -/
def bookFault (us : List BookUnit) : Option BookLine :=
  (us.flatMap fun u => u.eqs ++ (if u.quiet then u.vals else [])).find? fun l => l.diff != 0

/-- Result of a book: 1 balanced with quiescent values checked, 2 without, 3 imbalance (R622). -/
def bookResult (us : List BookUnit) : Nat :=
  if (bookFault us).isSome then 3 else if us.all fun u => u.quiet then 1 else 2

/-- BOOKS_DETAIL (R622). -/
def bookDetail (n : Nat) (l : BookLine) : Nat :=
  n + l.unit % 2 ^ 16 * 2 ^ 8 + b2n l.quiet * 2 ^ 24 + ofInt 32 (max (-(2 ^ 31)) (min (2 ^ 31 - 1) l.diff)) * 2 ^ 32

/-- An audit of the selected books starts (R622). -/
def booksStart (sel : Nat) (w : Wall) : Wall := { w with obs := { w.obs with books := some sel } }.set Reg.booksState 1

/-- A write of BOOKS_RUN (R622). -/
def booksRun (sel : Nat) (w : Wall) : WRes := if w.obs.books.isSome then .abort aState else .ok (booksStart sel w)

/-- BOOKS_PERIOD_S has elapsed (R622). -/
def booksPeriod (w : Wall) : Wall :=
  if w.get Reg.booksPeriodS = 0 then w
  else if w.obs.books.isSome then { w with obs := { w.obs with booksDue := true } }
  else booksStart 0x3FF w

/-- The audit completes (R622); a periodic audit that waited for it starts. -/
def booksDone (w : Wall) : Wall :=
  match w.obs.books with
  | none => w
  | some sel =>
    let nums := bitList sel 10
    let res := nums.foldl (fun a n => a + bookResult (bookOf n w) * 2 ^ (8 * n)) 0
    let bad := nums.findSome? fun n => (bookFault (bookOf n w)).map fun l => bookDetail n l
    let w := ({ w with obs := { w.obs with books := none } }.set Reg.booksState 0).set Reg.booksResult res
    let w := latch 17 5 w
    let w := match bad with
      | none => w
      | some d =>
        raise 0 0x0E08 d 19 (latch 17 6 ((w.set Reg.booksDetail d).bump Reg.booksImbalances 1))
    if w.obs.booksDue then booksStart 0x3FF { w with obs := { w.obs with booksDue := false } } else w

end Sys2Proof.Machine
end

