-- ==== Sys2Proof/Machine/Checks.lean ====
section
/-! DEFINITION. The checks of a Ledger write that the object tables do not hold as numbers (R79): checks 1 to 3
from the row, the rules that compare several values (check 3), and the states that forbid a write (check 4). -/

namespace Sys2Proof.Machine

/-- A row's identity: base index × 256 + first subindex; the fields of an SA and of a receive SC have their own. -/
def rowId (r : ObjRow) : Nat :=
  match r.loc with
  | .at base _ _ s0 _ => base * 256 + s0
  | .sa f => 0x700100 + 0x10 + f
  | .rxsc s => 0x700200 + s

def accOf (role : Role) (r : ObjRow) : Acc := match role with | .h => r.h | .f => r.f | .o => r.o
def canRead (role : Role) (r : ObjRow) : Bool := accOf role r == .ro || accOf role r == .rw || accOf role r == .rws
def canWrite (role : Role) (r : ObjRow) : Bool := accOf role r == .wo || accOf role r == .rw || accOf role r == .rws
/-- RWS for some role: covered by store commands (R626). -/
def storable (r : ObjRow) : Bool := r.h == .rws || r.f == .rws || r.o == .rws

/-! ### Check 3: range and reserved bits -/

def rngOk (t : OTy) (g : Rng) (v : Nat) : Bool :=
  match g with
  | .any => true
  | .rng lo hi => decide (lo ≤ v) && decide (v ≤ hi)
  | .rngOr lo hi x => (decide (lo ≤ v) && decide (v ≤ hi)) || v == x
  | .sgn lo hi => decide (lo ≤ toInt (8 * tySize t) v) && decide (toInt (8 * tySize t) v ≤ hi)
  | .oneOf l => l.contains v

/-- The encodings of R77: BOOL 0 or 1, TIME96 with nanoseconds below 10^9 and bits [11:0] clear. -/
def encodingAbort (t : OTy) (v : Nat) : Option Nat :=
  match t with
  | .bool => if v ≤ 1 then none else some aRange
  | .time96 => if v % 4096 ≠ 0 then some aReserved else if 999999999 < bits v 47 16 then some aRange else none
  | _ => none

/-- Widths that R254 allows sub-port `s` of a port. -/
def widthOk (s v : Nat) : Bool :=
  v == 0 || v == 2 || (v == 4 && s % 2 == 0) || (v == 8 && s % 4 == 0) || (v == 16 && s == 0)

/-- Headroom reserved in a course (R291). -/
def headroomSum (c : Nat) (w : Wall) : Nat :=
  ((List.range 128).map fun i => w.get (Reg.headroomCells (c * 16 + i / 8) (i % 8))).sum

/-- The pair of fields of SYM_PAIRS entry `j`, none when unused (R342). -/
def symPair (i j : Nat) (w : Wall) : Nat × Nat := (octet (w.get (Reg.symPairs i)) (2 * j), octet (w.get (Reg.symPairs i)) (2 * j + 1))

/-- SYM_PAIRS keeps R342. -/
def symOk (i : Nat) (w : Wall) : Bool :=
  let ps := ((List.range 4).map fun j => symPair i j w).filter fun p => p != (0xFF, 0xFF)
  let wholly (d : Nat) := let r := fieldRun i d w
    (List.range r.2).all fun n => bit (w.get (Reg.hashBytes i)) (r.1 + n)
  let names := ps.flatMap fun p => [p.1, p.2]
  (ps.all fun p => decide (p.1 < 16) && decide (p.2 < 16) && (fieldDesc i p.1 w).2 != 0 &&
    (fieldDesc i p.1 w).2 == (fieldDesc i p.2 w).2 && wholly p.1 && wholly p.2) && names.eraseDups.length == names.length

/-- GLEAN_FIELDS keeps R324. -/
def gleanOk (i : Nat) (w : Wall) : Bool :=
  let g := w.get (Reg.gleanFields i)
  let ds := (bitList g 16).map fun j => fieldDesc i j w
  g == 0 || (decide ((ds.map (·.2)).sum ≤ 8) && (ds.all fun d => decide (l4Off i w ≤ d.1)) &&
    (l3Kind i w == 1 || (l3Kind i w == 2 && l4Off i w == l3Off i w + 48)))

/-- A profile keeps R315, R318, R319, R320, R324 and R342. -/
def profileOk (i : Nat) (w : Wall) : Bool :=
  ((List.range 8).all fun j => decide (testOff (shapeTest i j w) ≤ 126)) &&
  ((fieldDescs i w).all fun d => decide (d.2 ≤ 8) && decide (d.1 + d.2 ≤ 128)) &&
  decide (((fieldDescs i w).map (·.2)).sum ≤ 56) && l3Kind i w != 3 && gleanOk i w && symOk i w

/-- Reserved bits inside SHAPE and FIELDS (R315, R318), SEL_TEST, VECTOR and MOD_GROUP records, and KEY_BLOB. -/
def resvBad (id v : Nat) : Bool :=
  if id = 0x200001 then (List.range 8).any fun j => octet v (6 * j + 1) / 2 != 0
  else if id = 0x200002 then (List.range 16).any fun j => octet v (2 * j + 1) / 16 != 0
  else if id = 0x500303 then octet v 1 / 2 != 0
  else if id = 0x20C001 then octet v 13 / 2 != 0 || octet v 14 != 0 || octet v 15 != 0
  else if id = 0x20C201 then octet v 6 != 0 || octet v 7 != 0
  else if id = 0x700112 ∨ id = 0x122001 then bits v 63 16 != 0
  else if id = 0x210601 then octet v 2 != 0 || octet v 3 != 0
  else false

/-- The queue of a port is owned by a sub-port. -/
def ownsQueue (sp q : Nat) (w : Wall) : Bool := decide (q < 64) && w.get (Reg.queueSp (sp / 8) q) == sp % 8

/-- The rules of check 3 that compare several values, judged with every other object's current value. -/
def rangeRule (id u k v : Nat) (w : Wall) : Bool :=
  if id = 0x401001 then widthOk k v
  else if id = 0x401801 then
    decide (headroomSum (u / 16) w + v ≤ 65536 + w.get (Reg.headroomCells u k))
  else if id = 0x500005 then decide (w.get (Reg.xonCells u) < v)
  else if id = 0x500006 then decide (v < w.get (Reg.xoffCells u))
  else if 0x200001 ≤ id ∧ id ≤ 0x200007 then
    let r := if id = 0x200001 then Reg.shape u else if id = 0x200002 then Reg.fields u
      else if id = 0x200003 then Reg.hashBytes u else if id = 0x200004 then Reg.symPairs u
      else if id = 0x200005 then Reg.l3 u else if id = 0x200006 then Reg.l4 u else Reg.gleanFields u
    profileOk u (w.set r v)
  else if id = 0x500201 then (List.range 4).all fun j => decide (octet v j < 64) || octet v j == 0xFF
  else if id = 0x500205 then
    let s := 2 ^ w.get (Reg.indSizeLog2 u)
    v % s == 0 && decide (v + s ≤ 4096)
  else if id = 0x500206 then w.get (Reg.indBase u) % 2 ^ v == 0 && decide (w.get (Reg.indBase u) + 2 ^ v ≤ 4096)
  else if id = 0x402001 then
    let old := w.get (Reg.queueSp u k)
    v == old || (((List.range 64).all fun n => octet (w.get (Reg.queueMap (u * 8 + old))) n != k) &&
      w.get (Reg.defaultQueue (u * 8 + old)) != k)
  else if id = 0x500304 then (List.range 64).all fun n => ownsQueue u (octet v n) w
  else if id = 0x500305 then ownsQueue u v w
  else if id = 0x402702 then
    v % 16 == 0 && decide (w.get (Reg.panicLevel u) + w.get (Reg.panicHyst u) ≤ (65536 - v) / 16)
  else if id = 0x402704 then decide (v + w.get (Reg.panicHyst u) ≤ (65536 - w.get (Reg.hostChunks u)) / 16)
  else if id = 0x402705 then decide (w.get (Reg.panicLevel u) + v ≤ (65536 - w.get (Reg.hostChunks u)) / 16)
  else if id = 0x500303 then decide (testOff v ≤ 30)
  else if id = 0x118001 then !(v == 0 && w.get Reg.fFec == 2)
  else if id = 0x118002 then !(v == 2 && w.get Reg.fRate == 0)
  else if id = 0x104203 then decide (v ≤ w.get Reg.avsMaxMv)
  else if id = 0x104204 then decide (w.get Reg.avsMinMv ≤ v)
  else if id = 0x500502 then
    (bitList v 256).all fun i => (List.range 512).all fun sp =>
      w.get (Reg.millTxRing sp) != i && (sp == u || !bit (w.get (Reg.txRings sp)) i)
  else if id = 0x500505 then (boundSp v w).isNone
  else if id = 0x20C001 then v % 2 ^ 64 % 4 == 0 && decide (octet v 12 ≤ 15)
  else if id = 0x20C201 then v % 2 ^ 16 != 0
  else if id = 0x20C301 then decide (v < 256) || v == 0xFFFF
  else if id = 0x170003 then
    (List.range 128).all fun s => octet v s == 0xFF || (decide (octet v s ≤ 7) && decide (s < srcCount u))
  else if id = 0x120101 then v == 0x5A45524F
  else if id = 0x100202 then decide (1 ≤ v) && decide (v ≤ 4)
  else if id = 0x210601 then octet v 0 == 2 || octet v 0 == 3
  else true

/-- Check 3 (R79). -/
def check3 (row : ObjRow) (u k v : Nat) (w : Wall) : Option Nat :=
  let id := rowId row
  match encodingAbort row.type v with
  | some a => some a
  | none =>
    if id = 0x101001 ∨ id = 0x101101 ∨ id = 0x101102 then
      if v / 2 ^ 16 < v % 2 ^ 16 then some aReversed else none
    else if v &&& row.resv ≠ 0 ∨ resvBad id v then some aReserved
    else if id = 0x210C01 ∧ !pcConfigOk k v then some aReserved
    else if rngOk row.type row.rng v && rangeRule id u k v w then none
    else some aRange

/-! ### Check 4: the unit and mode allow the write -/

/-- Is a profile named by the chain or the fallback of a sub-port that is not down (R320)? -/
def profileUsed (i : Nat) (w : Wall) : Bool :=
  (List.range 512).any fun sp => spSt sp w != 0 &&
    (w.get (Reg.fallbackProfile sp) == i || (List.range 4).any fun j => octet (w.get (Reg.profileChain sp)) j == i)

/-- Officer credentials that would be left after CRED_PUBKEY or CRED_ROLE of slot `u` takes `v` (R474). -/
def officersLeft (u : Nat) (role : Bool) (v : Nat) (w : Wall) : Nat :=
  ((List.range 8).filter fun k =>
    (if k = u ∧ role then v else w.get (Reg.credRole k)) == 2 &&
    (if k = u ∧ !role then v else w.get (Reg.credPubkey k)) != 0).length

/-- Is a check-value unit free to be set: no Mill frame of the brick between fetch and write-back (R545)? -/
def cvFree (b : Nat) (w : Wall) : Bool :=
  match millSp b w with
  | none => true
  | some sp =>
    let r := w.ring (w.get (Reg.millTxRing sp))
    (w.mill b).waiting.isEmpty && r.held.isEmpty && r.dataFor.isEmpty

/-- The steward that a write needs (R578): those that act on lanes, ports, the pool and the Mill (log entry 34). -/
def needsSteward (index : Nat) : Option Nat :=
  if 0x6000 ≤ index ∧ index < 0x6000 + 1088 then some ((index - 0x6000) / 68)
  else if 0x4000 ≤ index ∧ index < 0x5000 ∧ (index - 0x4000) % 0x40 < 0x20 then some ((index - 0x4000) / 0x40 / 4)
  else if 0x2100 ≤ index ∧ index < 0x2200 ∧ 8 ≤ index % 16 ∧ index % 16 ≤ 0xB then some ((index - 0x2100) / 16)
  else if 0x5000 ≤ index ∧ index < 0x6000 ∧ index % 8 = 5 then some ((index - 0x5000) / 8 / 32)
  else none

/-- Is the steward that a write needs being restarted (R578)? -/
def stewardAway (index : Nat) (w : Wall) : Bool :=
  match needsSteward index with
  | some b => w.get (Reg.stState b) == 3
  | none => false

/-- States that forbid a write, by object (check 4). -/
def stateRule (id u k v : Nat) (m : Mode) (w : Wall) : Option Nat :=
  let st (ok : Bool) : Option Nat := if ok then none else some aState
  if 0x200001 ≤ id ∧ id ≤ 0x200007 then st (!profileUsed u w)
  else if id = 0x401801 then st (decide (w.get (Reg.headroomUsed u k) ≤ v))
  else if id = 0x402001 ∨ id = 0x402101 then st (w.queue u k).frames.isEmpty
  else if id = 0x700002 ∨ id = 0x700003 ∨ id = 0x700004 ∨ id = 0x700005 ∨ id = 0x700006 then st (!anySa u w)
  else if id = 0x500505 ∨ id = 0x500506 then st (!w.flag (Reg.millEnable u))
  else if 0x208001 ≤ id ∧ id ≤ 0x208005 then st (cvFree u w)
  else if id = 0x50031C ∨ id = 0x50031E ∨ id = 0x50031F ∨ id = 0x500320 then st (w.get (Reg.gateState u) != 2)
  else if id = 0x121001 then
    st (officersLeft u false (w.get (Reg.credPubkey u)) w == 0 || officersLeft u false v w != 0)
  else if id = 0x121002 then
    st (officersLeft u true (w.get (Reg.credRole u)) w == 0 || officersLeft u true v w != 0)
  else if id = 0x210601 then st (decide (lookupsOut u w < 16))
  else if id = 0x210008 then st (w.get (Reg.swapState u) == 0)
  else if id = 0x148004 then st (v == 0 || !w.flag Reg.roundActive)
  else if id = 0x144001 ∨ id = 0x144002 ∨ id = 0x144003 then if m = .doze then some aMode else none
  else if id = 0x100202 then
    let ok := match m with
      | .service => w.led.moveDue == 0
      | .doze => w.led.moveDue == 0 && v != 4
      | _ => false
    if ok then none else some aMode
  else none

/-! ### Check 6: functions absent in bare service (R140, R141) -/

/-- Objects of functions that bare service does not have: MACsec and its KEKs, the Mill, planned repointing and the
round (log entry 35). -/
def absentBare (index sub : Nat) : Bool :=
  (decide (0x7000 ≤ index) && decide (index < 0x8000)) || (decide (0x1220 ≤ index) && decide (index < 0x1224)) ||
  (decide (0x5000 ≤ index) && decide (index < 0x6000) && index % 8 == 5 && decide (4 ≤ sub) && decide (sub ≤ 7)) ||
  (decide (0x2080 ≤ index) && decide (index < 0x2090)) || (decide (0x1480 ≤ index) && decide (index ≤ 0x1482)) ||
  (decide (0x6000 ≤ index) && decide (index < 0x6000 + 1088) && sub == 0x2E)

end Sys2Proof.Machine
end

