-- ==== Sys2Proof/Machine/Reads.lean ====
section
/-! DEFINITION. What a read of an object returns: the live value (R81), with the objects that show other state, and
the bytes of DOMAIN objects (R109, R110). -/

namespace Sys2Proof.Machine

/-- MODE as R154 codes it. -/
def modeCode : Mode → Nat
  | .off => 0 | .ember => 1 | .kindle => 2 | .service => 3 | .doze => 4 | .sealedMode => 5

/-- The session of a requester. -/
def sessionOf (who : Who) (w : Wall) : Option Session :=
  match who with
  | .mailbox => none
  | .session slot id _ _ => (tget w.led.sessions slot).filter fun s => s.id == id

/-- DB_CURSOR of a requester (R618). -/
def cursorOf (who : Who) (w : Wall) : Nat :=
  match who with
  | .mailbox => w.led.cursor
  | _ => match sessionOf who w with | some s => s.cursor | none => 0

/-- SERVICE_INDICATOR of a requester (R459). -/
def indicatorOf (who : Who) (w : Wall) : Bool :=
  match who with
  | .mailbox => w.led.indicator
  | _ => match sessionOf who w with | some s => s.indicator | none => true

/-- The objects of session slot `k` (R123). -/
def sessionView (k sub : Nat) (w : Wall) : Nat :=
  match tget w.led.sessions k with
  | some s =>
    match sub with
    | 1 => 2
    | 2 => if s.role = .o then 2 else 1
    | 3 => s.id
    | 4 => s.high
    | 5 => s.wallSeq
    | 6 => (w.time.tclk - s.heardAt) / 800000
    | _ => s.unacked.length
  | none =>
    match w.led.handshakes.find? fun h => h.slot == some k with
    | some h =>
      match sub with
      | 1 => 1
      | 2 => if h.role = .o then 2 else 1
      | 3 => h.id
      | 5 => 1
      | _ => 0
    | none => 0

/-- Bounds of R268 by sub-port rate in Gb/s: transmit and, in mode 0, receive. -/
def wallNs (gbps : Nat) : Nat × Nat :=
  if 1600 ≤ gbps then (150, 250) else if 800 ≤ gbps then (160, 280) else if 400 ≤ gbps then (180, 320)
  else if 200 ≤ gbps then (220, 400) else (300, 560)

/-- The live PN of an SA: NEXT_PN, or LOWEST_PN; the staged value while no SA is there (R475). -/
def livePn (u k : Nat) (w : Wall) : Nat :=
  match getSa u k w with
  | none => w.get (Reg.saNextPn u k)
  | some s => if k < 4 then s.nextPn else max s.floor (s.highest + 1 - w.get (Reg.replayWindow u))

/-- The end of a transmit SA's reservation, or the receive mark (R475). -/
def liveEnd (u k : Nat) (w : Wall) : Nat :=
  match getSa u k w with
  | none => w.get (Reg.saReservedEnd u k)
  | some s => if k < 4 then s.reservedEnd else w.get (Reg.saReservedEnd u k)

/-- Bit 2k + j: slot j of image kind k is valid (R510). -/
def shelfValid (w : Wall) : Nat :=
  (List.range 6).foldl (fun a i => match tget w.gra.shelf i with | some s => if s.valid then setBit a i else a | none => a) 0

/-- The objects whose live value is other state, by row, unit and place; `none`: the object itself. -/
def viewReg (id u k sub : Nat) (who : Who) (m : Mode) (w : Wall) : Option Nat :=
  if id = 0x100201 then some (modeCode m)
  else if id = 0x130301 then some (t96 w.wallT)
  else if id = 0x130302 then some w.stamp
  else if id = 0x130303 then some (t96 w.wallT + w.stamp * 2 ^ 96)
  else if 0x112000 ≤ id ∧ id < 0x112100 then some (sessionView u sub w)
  else if id = 0x113001 then (sessionOf who w).map (·.mask)
  else if id = 0x150002 then some (cursorOf who w)
  else if id = 0x150003 then some (ofLe (dayBatch (cursorOf who w) w))
  else if id = 0x500702 then some (ofLe (tallyHistory u w))
  else if id = 0x210E01 then
    some (w.get (Reg.pcValue u (2 * k)) + w.get (Reg.pcValue u (2 * k + 1)) * 2 ^ 48)
  else if id = 0x140002 then some (liveCount w)
  else if id = 0x140003 then some (rowsIn .free w)
  else if id = 0x140005 then some w.gra.genNext
  else if id = 0x144004 then some (shelfValid w)
  else if id = 0x120001 then some (b2n (approvedMode w))
  else if id = 0x120002 then some (b2n (indicatorOf who w))
  else if id = 0x700116 then some (livePn u k w)
  else if id = 0x700117 then some (liveEnd u k w)
  else if id = 0x403101 then some (Config.txPathDelay (u * 8 + k) (spRate (u * 8 + k) w))
  else if id = 0x403201 then some (Config.rxPathDelay (u * 8 + k) (spRate (u * 8 + k) w) (tgetD w.prt.fecMode u 0))
  else if id = 0x403301 then some (laneOf u (2 * k) w)
  else if id = 0x50000C then some (wallNs (spRate u w)).1
  else if id = 0x50000D then some ((wallNs (spRate u w)).2 - 60 * tgetD w.prt.fecMode (u / 8) 0)
  else if id = 0x210807 then some (poolFreeCount u w)
  else if id = 0x402701 then some (65536 - pipeOcc u w - hostOcc u w)
  else if id = 0x402703 then some ((65536 - hostSize u w) / 16)
  else if id = 0x130105 then some (syncoutView u w)
  else if id = 0x700112 ∨ id = 0x122001 then some 0
  else none

/-- The live value of an object for a requester (R81). -/
def liveVal (row : ObjRow) (u k sub : Nat) (who : Who) (m : Mode) (w : Wall) : Nat :=
  (viewReg (rowId row) u k sub who m w).getD (w.get (row.reg u k))

/-! ### DOMAIN objects -/

/-- The valid slots of an image kind, and the current one: the valid slot with the higher generation (R504). -/
def slotOf (kind j : Nat) (w : Wall) : Option ShelfSlot := (tget w.gra.shelf (kind * 2 + j)).filter (·.valid)
def currentSlot (kind : Nat) (w : Wall) : Option Nat :=
  match slotOf kind 0 w, slotOf kind 1 w with
  | some a, some b => some (if a.gen < b.gen then 1 else 0)
  | some _, none => some 0
  | none, some _ => some 1
  | none, none => none
def slotImage (kind : Nat) (w : Wall) : List Byte :=
  match currentSlot kind w with
  | some j => match slotOf kind j w with | some s => s.image | none => []
  | none => []

/-- The bytes a DOMAIN object holds; `who` asks in `m` (only the value matters here). -/
def domBytes (id u k key : Nat) (w : Wall) : List Byte :=
  if id = 0x60002F then (almRecs 1 u w).flatMap fun r => toLe 40 (almBody r)
  else if id = 0x148303 then (almRecs 2 k w).flatMap fun r => toLe 40 (almBody r)
  else if id = 0x210008 then
    (List.range 8192).flatMap fun i => toLe 2 i ++ toLe 128 (entryBits (entryAt u (shadowBank u w) i w))
  else if id = 0x210201 then
    (List.range 1024).flatMap fun i =>
      let p := policerAt u i w
      toLe 4 p.cir ++ toLe 4 p.cbs ++ toLe 4 p.ebs ++ toLe 4 p.flags
  else if id = 0x210401 then (List.range 4096).flatMap fun i => toLe 2 (indEntry u i w)
  else if id = 0x50031C then pendingBytes u w
  else if id = 0x144001 then slotImage 0 w
  else if id = 0x144002 then slotImage 1 w
  else if id = 0x144003 then slotImage 2 w
  else if id = 0x145001 then w.gra.digest.flatMap fun b => toLe 44 b
  else (tget w.led.doms key).getD []

/-- Generation of a DOMAIN object (R109). -/
def domGenOf (key : Nat) (w : Wall) : Nat := tgetD w.led.domGen key 0

/-- Segment limits of a path (R110). -/
def segLimit : Who → Nat
  | .mailbox => 2048
  | _ => 1024

/-- A plain read: the answer's status and data, and what the read does (R426, R612). -/
def readObj (r : LReq) (m : Mode) (w : Wall) : Nat × List Byte × Wall :=
  if r.index ≥ 0xF000 then (aNoObject, [], w)
  else match findRow r.index r.sub objTable with
  | none => (aNoObject, [], w)
  | some (row, u, k) =>
    let id := rowId row
    if id = 0x113001 ∧ r.who = .mailbox then (aPath, [], w)
    else if !(canRead r.role row || (r.role == .o && (id = 0x700112 ∨ id = 0x122001))) then (aNoRead, [], w)
    else if row.type = .domain then (aDomain, [], w)
    else if bareSvc w && absentBare r.index r.sub then (aEpoch, [], w)
    else if id = 0x500404 then
      let x := takeStamp u w
      (0, toLe 16 x.1, x.2)
    else if id = 0x152003 then
      let x := takeSampleEntry w
      (0, toLe 32 x.1, x.2)
    else (0, encodeVal row.type (liveVal row u k r.sub r.who m w), w)

/-- A segment read (R109, R110): status, generation, data. -/
def segRead (r : LReq) (offset gen len : Nat) (w : Wall) : Nat × Nat × List Byte :=
  if r.index ≥ 0xF000 then (aNoObject, 0, [])
  else match findRow r.index r.sub objTable with
  | none => (aNoObject, 0, [])
  | some (row, u, k) =>
    let key := r.index * 256 + r.sub
    let g := domGenOf key w
    if !canRead r.role row then (aNoRead, 0, [])
    else if row.type ≠ .domain then (aDomain, 0, [])
    else if bareSvc w && absentBare r.index r.sub then (aEpoch, 0, [])
    else
      let d := domBytes (rowId row) u k key w
      if d.length < offset then (aRange, g, [])
      else if offset ≠ 0 ∧ gen ≠ g then (aGen, g, [])
      else (0, g, (d.drop offset).take (min len (segLimit r.who)))

end Sys2Proof.Machine
end

