-- ==== Sys2Proof/Machine/Effects.lean ====
section
/-! DEFINITION. What an accepted Ledger write does (R79), object by object, the value a DOMAIN object takes at LAST
(R112), and the store, restore and default commands (R82 to R86, R499). -/

namespace Sys2Proof.Machine

/-! ### Ports (R256, R300, R309) -/

/-- Staged widths of a port overlap (R256). -/
def overlaps (p : Nat) (w : Wall) : Bool :=
  (List.range 16).any fun r =>
    decide (1 < ((List.range 8).filter fun s => decide (2 * s ≤ r) && decide (r < 2 * s + w.get (Reg.spWidth p s))).length)

/-- A sub-port's new width is brought into force; a changed width, or width 0, loses every SA (R445). -/
def bringWidth (p s : Nat) (w : Wall) : Wall :=
  let v := w.get (Reg.spWidth p s)
  let old := w.get (Reg.widthInUse p s)
  when (v != old || v == 0) (removeAllSas (p * 8 + s)) (w.set (Reg.widthInUse p s) v)

/-- A port's thermal shutdown is over (R256). -/
def thermalEnd (p : Nat) (w : Wall) : Wall := { w with bnd := { w.bnd with thermal := clrBit w.bnd.thermal p } }

/-- A port's staged FEC mode comes into force (R256). -/
def fecInForce (p : Nat) (w : Wall) : Wall :=
  { w with prt := { w.prt with fecMode := tputD w.prt.fecMode p 0 (w.get (Reg.portFecMode p)) } }

/-- PORT_RESTART := 1 (R256). Sub-ports in mill keep their place. -/
def portRestart (p : Nat) (w : Wall) : WRes :=
  if overlaps p w then .abort aRange
  else if w.bnd.dozing then .abort aMode
  else if bit w.bnd.thermal p && (List.range 5).any fun k => decide (100 ≤ w.getI (Reg.tj k)) then .abort aState
  else
    let w := upTo 8 (fun s w =>
      let sp := p * 8 + s
      let v := w.get (Reg.spWidth p s)
      if v = 0 ∧ spWidthOf sp w = 0 then w
      else if spSt sp w = 5 ∧ v ≠ 0 then w
      else setSpGroup sp 0 (downCore sp (if v = 0 then 2 else 9) w)) w
    let w := upTo 8 (bringWidth p) w
    .ok (upTo 8 (fun s w => enterDetect (p * 8 + s) 0 w) (fecInForce p (thermalEnd p w)))

/-- SP_ADMIN (R300): 0 holds the sub-port down with reason 1, 1 lets it enter DETECT. -/
def spAdminWrite (p s v : Nat) (w : Wall) : Wall :=
  let sp := p * 8 + s
  let w := w.set (Reg.spAdmin p s) v
  if v = 0 then
    if spSt sp w = 0 then setSpGroup sp 0 w else if spSt sp w = 5 then w else downOff sp 1 w
  else if spSt sp w = 0 ∧ spGrpSt sp w = 0 then enterDetect sp 0 w else w

/-! ### Other objects with an effect -/

/-- A class threshold or flow-control setting was written: XOFF and XON follow (R289, R307). -/
def fcWritten (sp : Nat) (w : Wall) : Wall := fcCheckAll sp w

/-- STEWARD_RESTART (R577): every named steward that runs restarts with cause 7. -/
def stewardRestarts (v : Nat) (w : Wall) : Wall :=
  upTo 16 (fun n w => when (bit v n && w.get (Reg.stState n) != 3) (stewardStop n 7) w) w

/-- SHELF_ROLLBACK (R506). -/
def shelfRollback (k : Nat) (w : Wall) : WRes :=
  match currentSlot k w with
  | none => .abort aState
  | some j =>
    match slotOf k (1 - j) w, slotOf k j w with
    | some a, some b =>
      let w := { w with gra := { w.gra with shelf := tput w.gra.shelf (k * 2 + (1 - j)) { a with gen := b.gen + 1 } } }
      .ok (newDom (0x1440 * 256 + 1 + k) w)
    | _, _ => .abort aState

/-- A staged KEY_BLOB, with whether it came through the mailbox in clear (R442, R460). -/
def stageBlob (u k : Nat) (mailbox : Bool) (l : List Byte) (w : Wall) : WRes :=
  if mailbox && (blobOf l).form == 0 && w.flag Reg.approvedOnly then .abort aApproved
  else .ok { w with sec := { w.sec with blobs := tput w.sec.blobs (saId u k) (l, mailbox) } }

/-- May a plain blob be installed: it came through a session, or the mailbox may give one (R460, R461). -/
def plainOk (u k : Nat) (w : Wall) : Bool :=
  match tget w.sec.blobs (saId u k) with
  | some (_, viaMailbox) => !viaMailbox || !w.flag Reg.approvedOnly
  | none => true

/-- HOST_OFFICER_S (R462): only an officer session opens or ends an officer host session. -/
def hostOfficer (who : Who) (v : Nat) (w : Wall) : WRes :=
  match who with
  | .mailbox => .abort aPath
  | _ => .ok (w.set Reg.hostOfficerS v)

/-- The request of LOOKUP_REQ (R347). -/
def lookupReq (b : Nat) (v : Nat) (w : Wall) : WRes :=
  let x := issueLookup b (octet v 0) v .relay w
  .later (.lookup b x.2) x.1

/-! ### Store commands (R82 to R86, R499) -/

/-- The objects of a row in an index range: index, subindex, unit, place. -/
def rowObjs (row : ObjRow) (lo hi : Nat) : List (Nat × Nat × Nat × Nat) :=
  match row.loc with
  | .at base stride count s0 sN =>
    (List.range count).flatMap fun u =>
      let i := base + stride * u
      if lo ≤ i ∧ i ≤ hi then (List.range (sN + 1 - s0)).map fun k => (i, s0 + k, u, k) else []
  | .sa _ => []
  | .rxsc s =>
    (List.range 2048).flatMap fun u =>
      let i := 0x7000 + u / 4 * 8 + 2 + u % 4
      if lo ≤ i ∧ i ≤ hi then [(i, s, u, 0)] else []

/-- Every object kept G that the role may store, in an index range (R82, R85). -/
def covered (role : Role) (lo hi : Nat) : List (ObjRow × Nat × Nat × Nat × Nat) :=
  (objTable.filter fun r => r.kept == .g && accOf role r == .rws).flatMap fun r => (rowObjs r lo hi).map fun o => (r, o)

/-- The bytes of an object as its Granary record holds them. -/
def objBytes (row : ObjRow) (i s u k : Nat) (w : Wall) : List Byte :=
  if row.type = .domain then domBytes (rowId row) u k (i * 256 + s) w else encodeVal row.type (w.get (row.reg u k))

/-- Sheaves that one store, restore or default needs (R499). -/
def sheavesFor (kind : StoreKind) (l : List (ObjRow × Nat × Nat × Nat × Nat)) (w : Wall) : Nat :=
  match kind with
  | .store => (l.map fun e => max 1 (ceilDiv (objBytes e.1 e.2.1 e.2.2.1 e.2.2.2.1 e.2.2.2.2 w).length 40)).sum
  | .restore => 0
  | .dflt => (l.filter fun e => (storedBytes true e.2.1 e.2.2.1 w).isSome).length

/-- Commit a tombstone of a Ledger record. -/
def askTomb (index sub : Nat) (after : After) (w : Wall) : Wall :=
  askRecord (ledgerType index) (index + sub * 2 ^ 16) true [0] 3 after w

/-! ### One object's new value -/

/-- What follows the plain writing of an object, beyond its new value. -/
def afterSet (id u k : Nat) (w : Wall) : Wall :=
  if id = 0x402401 ∨ id = 0x402501 then applyShaper u k w
  else if id = 0x500309 ∨ id = 0x500311 then applyShaper (u / 8) (64 + u % 8 * 8 + k) w
  else if id = 0x500319 then upTo 8 (fun n w => applyShaper (u / 8) (64 + u % 8 * 8 + n) w) w
  else if id = 0x402600 then upTo 64 (applyShaper u) w
  else if 0x500002 ≤ id ∧ id ≤ 0x500008 ∧ id ≠ 0x500004 then fcWritten u w
  else if id = 0x402704 ∨ id = 0x402705 then panicEval u w
  else if id = 0x401301 then quietRetry u w
  else if id = 0x104106 then tempReading 0 (w.getI (Reg.tj 0)) w
  else if id = 0x500502 ∨ id = 0x500501 then pumpRings w
  else if id = 0x118003 then
    upTo 2 (fun f w => if bit (w.get Reg.fEnable) f then w else fieldDown f w) w
  else w

/-- Reset-full bits of Q_RESET_FULL and C_RESET_FULL apply only the shapers whose bit the write names: those that
change (R404). -/
def setFull (id u v : Nat) (w : Wall) : Wall :=
  if id = 0x402600 then
    let old := w.get (Reg.qResetFull u)
    upTo 64 (fun q w => when (bit old q != bit v q) (applyShaper u q) w) (w.set (Reg.qResetFull u) v)
  else
    let old := w.get (Reg.cResetFull u)
    upTo 8 (fun n w => when (bit old n != bit v n) (applyShaper (u / 8) (64 + u % 8 * 8 + n)) w) (w.set (Reg.cResetFull u) v)

/-- A write that has passed its checks, for every object but the store commands and MODE_REQUEST. `arg` is what the
outside world adds to it: the failed row of SELFTEST_NOW. -/
def effect (arg : Nat) (r : LReq) (row : ObjRow) (u k v : Nat) (data : List Byte) (w : Wall) : WRes :=
  let id := rowId row
  let reg := row.reg u k
  let mbx := decide (r.who = .mailbox)
  if id = 0x113001 then
    match r.who, sessionOf r.who w with
    | .session slot _ _ _, some s => .ok (putSession slot { s with mask := v } w)
    | _, _ => .ok w
  else if id = 0x150002 then
    match r.who, sessionOf r.who w with
    | .session slot _ _ _, some s => .ok (putSession slot { s with cursor := v } w)
    | _, _ => .ok { w with led := { w.led with cursor := v } }
  else if id = 0x400800 then .ok (trainRestart u v w)
  else if id = 0x600011 then if v = 1 then testStart u w else .ok (testStop u w)
  else if id = 0x600018 then .ok (if v = 1 then prbsClear u w else w)
  else if id = 0x600019 then eyeStart u v w
  else if id = 0x60002D then if v = 1 then retireClear u w else .ok w
  else if id = 0x60002E then .ok (if v = 1 then surveyNow u w else w)
  else if id = 0x148004 then .ok (if v = 1 ∧ roundMay w then startRound w else w)
  else if id = 0x210805 then .ok (spareRate u (w.set reg v))
  else if id = 0x401F00 then if v = 1 then portRestart u w else .ok w
  else if id = 0x401101 then .ok (spAdminWrite u k v w)
  else if id = 0x210308 then .ok (if v = 1 then gleanFlush u w else w)
  else if id = 0x210002 then
    if v = 0 then .ok w
    else if swapping u w then .abort aState
    else .later (.swap u) (swapStart u w)
  else if id = 0x210601 then lookupReq u v w
  else if id = 0x500321 then if v = 1 then gateSchedule u w else .ok (gateCancel u w)
  else if id = 0x402600 ∨ id = 0x500319 then .ok (setFull id u v w)
  else if id = 0x130401 then timeSet r.who (ofT96 v) w
  else if id = 0x130402 then timeStep r.who (toInt 64 v) w
  else if id = 0x130403 then freqWrite r.who (toInt 32 v) w
  else if id = 0x120004 then
    if v = 1 then .ok (w.set Reg.selftestResult arg) else .ok w
  else if id = 0x120301 then hostOfficer r.who v w
  else if id = 0x122001 then installKek u mbx data w
  else if id = 0x122003 then .ok (if v = 1 then clearKek u w else w)
  else if id = 0x123003 then forgetKi v w
  else if id = 0x700112 then stageBlob u k mbx data w
  else if id = 0x700119 then if v = 1 then installSa u k (plainOk u k w) w else uninstallSa u k w
  else if id = 0x700007 then setEncoding u v w
  else if id = 0x144005 then shelfRollback v w
  else if id = 0x500504 then if v = 1 then millOn u w else .ok (millOff u w)
  else if id = 0x160009 then .ok (stewardRestarts v w)
  else if id = 0x151002 then .ok (if v = 1 then pcClearAll w else w)
  else if id = 0x403900 then .ok (tallyWrite u v w)
  else if id = 0x153001 then booksRun v w
  else if id = 0x210F01 then .ok (w.set reg (w.get reg &&& ((2 ^ 32 - 1) ^^^ v)))
  else .ok (afterSet id u k (w.set reg v))

/-! ### DOMAIN values at LAST (R112) -/

/-- Largest value of an image kind: its slot less the 64-byte header (R478, R504). -/
def imageMax (k : Nat) : Nat := (if k = 0 then 136 else if k = 1 then 72 else 20) * 1024 - 64

/-- The slot that a segmented write of kind `k` uses: the one that is not current (R505, log entry 36). -/
def spareSlot (k : Nat) (w : Wall) : Nat := match currentSlot k w with | some j => 1 - j | none => 0

/-- The signature of an image verifies under the keys of its kind (R466, R573). -/
def imageSigned (k : Nat) (l : List Byte) (w : Wall) : Bool :=
  let msg := l.take (l.length - 96)
  let sig := ofLe (l.drop (l.length - 96))
  decide (96 ≤ l.length) &&
  (if k = 2 then w.flag Reg.customerImageKey && Config.ecdsaVerify (w.get Reg.customerImageKey) msg sig
   else Config.ecdsaVerify (Config.romImageKey false) msg sig || Config.ecdsaVerify (Config.romImageKey true) msg sig)

/-- A little-endian U16 of an image header (R573). -/
def img16 (l : List Byte) (o : Nat) : Nat := ofLe ((l.drop o).take 2)

/-- Segment bytes written into the spare slot: valid flag clear, image as far as it has come (R505 steps 1, 2). -/
def imageSegment (k : Nat) (l : List Byte) (w : Wall) : Wall :=
  let j := k * 2 + spareSlot k w
  let old := (tget w.gra.shelf j).getD { valid := false, gen := 0, image := [] }
  { w with gra := { w.gra with shelf := tput w.gra.shelf j { valid := false, gen := old.gen, image := l } } }

/-- The whole image is checked and its slot becomes valid (R505 steps 3, 4). -/
def imageLast (k : Nat) (l : List Byte) (w : Wall) : WRes :=
  if imageMax k < l.length then .abort aRange
  else if !imageSigned k l w then .abort aWhole
  else if k < 2 ∧ (w.get Reg.hwEpoch < img16 l 8 ∨ img16 l 10 < w.get Reg.hwEpoch) then .abort aImageEpoch
  else
    let j := k * 2 + spareSlot k w
    let g := (w.gra.shelf.map fun e => if e.1 / 2 = k then e.2.gen else 0).foldl max 0 + 1
    .ok (newDom (0x1440 * 256 + 1 + k)
      { w with gra := { w.gra with shelf := tput w.gra.shelf j { valid := true, gen := g % 2 ^ 48, image := l } } })

/-- Records of `n` bytes of a DOMAIN value. -/
def recordsOf (n : Nat) (l : List Byte) : List (List Byte) := (List.range (l.length / n)).map fun i => (l.drop (n * i)).take n

/-- The value at LAST of each DOMAIN object that may be written. -/
def effectDom (id u : Nat) (key : Nat) (l : List Byte) (w : Wall) : WRes :=
  if id = 0x210008 then
    let rs := recordsOf 130 l
    if l.length % 130 ≠ 0 ∨ rs.any (fun r => decide (8191 < ofLe (r.take 2))) then .abort aWhole
    else if rs.any fun r => ofLe (r.drop 122) % 2 ^ 20 != 0 then .abort aReserved
    else .ok (newDom key (rs.foldl (fun w r => putEntry u (shadowBank u w) (ofLe (r.take 2)) (entryOf (ofLe (r.drop 2))) w) w))
  else if id = 0x210201 then
    let rs := recordsOf 16 l
    if l.length ≠ 16384 then .abort aWhole
    else if rs.any fun r => ofLe r / 2 ^ 98 != 0 then .abort aReserved
    else if rs.any fun r => !policerOk (ofLe r) then .abort aRange
    else
      let w := ((List.range 1024).zip rs).foldl (fun w e =>
        let p := policerAt u e.1 w
        if ofLe e.2 = p.cir + p.cbs * 2 ^ 32 + p.ebs * 2 ^ 64 + p.flags * 2 ^ 96 then w else putPolicer u e.1 (ofLe e.2) w) w
      .ok (newDom key w)
  else if id = 0x210401 then
    if l.length ≠ 8192 then .abort aWhole
    else .ok (newDom key (((List.range 4096).zip (recordsOf 2 l)).foldl (fun w e => setIndEntry u e.1 (ofLe e.2) w) w))
  else if id = 0x50031C then
    if l.length % 8 ≠ 0 ∨ 2048 < l.length then .abort aWhole
    else .ok ((putDom key l w).set (Reg.pendingLen u) (l.length / 8))
  else if id = 0x120202 then if 8192 < l.length then .abort aWhole else .ok (putDom key l w)
  else if id = 0x144001 then imageLast 0 l w
  else if id = 0x144002 then imageLast 1 l w
  else imageLast 2 l w

/-! ### Running a store command -/

/-- Set an object to a value as a restore or default does; what its write would do follows (log entry 37). -/
def restoreObj (role : Role) (row : ObjRow) (i s u k : Nat) (l : List Byte) (w : Wall) : Wall :=
  if row.type = .domain then
    match effectDom (rowId row) u (i * 256 + s) l w with | .ok w' => w' | _ => w
  else
    let v := decodeVal row.type l
    if w.get (row.reg u k) = v then w
    else match effect 0 { who := .mailbox, role := role, index := i, sub := s, op := .write l } row u k v l w with
      | .ok w' => w'
      | _ => w

/-- The default of an object, as bytes. -/
def defaultBytes (row : ObjRow) (u k : Nat) : List Byte :=
  if row.type = .domain then (if rowId row = 0x50031C then toLe 4 0xFF ++ toLe 4 1000000 else [])
  else encodeVal row.type (row.reg u k).dflt

/-- One object of a store command: its sheaves asked for, with their GEN, or its value set. -/
def storeOne (kind : StoreKind) (role : Role) (e : ObjRow × Nat × Nat × Nat × Nat) (x : Wall × List Nat) : Wall × List Nat :=
  let row := e.1
  let i := e.2.1
  let s := e.2.2.1
  let u := e.2.2.2.1
  let k := e.2.2.2.2
  let w := x.1
  match kind with
  | .store => (askLedger i s (objBytes row i s u k w) (.store w.gra.genNext) w, x.2 ++ [w.gra.genNext])
  | .restore => (restoreObj role row i s u k ((storedBytes true i s w).getD (defaultBytes row u k)) w, x.2)
  | .dflt =>
    if (storedBytes true i s w).isSome then
      let g := w.gra.genNext
      (restoreObj role row i s u k (defaultBytes row u k) (askTomb i s (.store g) w), x.2 ++ [g])
    else (restoreObj role row i s u k (defaultBytes row u k) w, x.2)

/-- The store command runs from here on, until the sheaves it asked for are committed. -/
def storeBegin (kind : StoreKind) (gens : List Nat) (w : Wall) : Wall :=
  { w with led := { w.led with store := some { kind := kind, gens := gens } } }

/-- A store, restore or default command that has passed checks 1 to 3: busy, GRANARY_RO, the allowance, then its start;
its response waits for STORE_COMPLETE (R84). -/
def storeStart (kind : StoreKind) (r : LReq) (v : Nat) (w : Wall) : WRes :=
  let l := covered r.role (v % 2 ^ 16) (v / 2 ^ 16)
  let n := sheavesFor kind l w
  if w.led.store.isSome then .abort aStoreBusy
  else if granaryShut w then .abort aState
  else if w.get Reg.storeAllowance < n then .abort aAllowance
  else
    let w := (w.set Reg.storeState 1).set Reg.storeAllowance (w.get Reg.storeAllowance - n)
    let x := l.foldl (fun x e => storeOne kind r.role e x) (w, [])
    .later .store (storeBegin kind x.2 x.1)

/-- The running store command is over: the Ledger forgets it and what the Granary has committed for it. -/
def storeForget (w : Wall) : Wall := { w with led := { w.led with store := none } }

def storeCommitsForget (w : Wall) : Wall :=
  { w with gra := { w.gra with done := w.gra.done.filter fun a => match a with | .store _ => false | _ => true } }

/-- The running store command ends with a state and a result, which is its response. -/
def storeClose (state result : Nat) (w : Wall) : Wall :=
  releaseDeferred .store result none (((storeCommitsForget (storeForget w)).set Reg.storeState state).set Reg.storeResult result)

/-- STORE_COMPLETE (R84): every sheaf of the running command is committed, or the Granary has failed. -/
def storeComplete (w : Wall) : Wall :=
  match w.led.store with
  | none => w
  | some c =>
    let isDone (g : Nat) : Bool := w.gra.done.any fun a => match a with | .store x => x == g | _ => false
    if c.gens.all isDone then storeClose 2 0 w
    else if granaryFailed w then storeClose 3 aState w
    else w

end Sys2Proof.Machine
end

