-- ==== Sys2Proof/Machine/LedgerOps.lean ====
section
/-! DEFINITION. The Ledger queue (R80): how a request arrives, the pipeline of checks at its head (R79, R109 to
R112, R118), and which requests have a row of their own in the table. -/

namespace Sys2Proof.Machine

/-- The wall serves Ledger requests: clocks run and the Reeve has not halted (R30, R41, R132). -/
def serves (m : Mode) (w : Wall) : Bool := awake m w && !halted w

/-! ### Arrival (R80, R88 to R91) -/

/-- The queue not empty is a level source of the Reeve (R585). -/
def queueLevel (w : Wall) : Wall := level 16 49 (!w.led.queue.isEmpty) w

/-- A request arrives at the queue: refused while it is closed (R143) or full (R80), else appended. -/
def arrive (r : LReq) (w : Wall) : Wall :=
  if w.led.closed then respond r.who aMode none w
  else if 16 ≤ w.led.queue.length then respond r.who aFull none w
  else queueLevel { w with led := { w.led with queue := w.led.queue ++ [r] } }

/-- The role the mailbox acts with (R91). -/
def mbxRole (w : Wall) : Role := if w.flag Reg.hostOfficerS then .o else .h

/-- GO written with an OP (R88, R89): COLLIDE while BUSY, else the request the registers describe is queued. -/
def mbxGo (op : Nat) (last : Bool) (w : Wall) : Wall :=
  let w := w.setWin 0x1000 0 (op * 16 + b2n last * 256)
  let st := w.win32 0x1010 0
  if bit st 0 then w.setWin 0x1010 0 (setBit st 3)
  else
    let w := latch 16 48 (w.setWin 0x1010 0 (bits st 31 16 * 2 ^ 16 + 1))
    let a := w.win32 0x1004 0
    let len := w.win32 0x1008 0
    let off := w.win32 0x100C 0
    let gen := w.win32 0x1018 0
    let lop : Option LOp :=
      match op with
      | 1 => some .read
      | 2 => some (.write (mbxData w len))
      | 3 => some (.segRead off gen (min len 2048))
      | 4 => some (.segWrite off gen last (mbxData w len))
      | _ => none
    match lop with
    | none => respond .mailbox aRange none w
    | some o =>
      if 2048 < len then respond .mailbox aLength none w
      else arrive { who := .mailbox, role := mbxRole w, index := a % 2 ^ 16, sub := a / 2 ^ 16 % 256, op := o } w

/-! ### Rows of the table -/

/-- The rows of the table that are one request reaching the head of the queue. -/
inductive Own where
  | lookupSearch | lookupNext | store | restore | dflt | modeEmber | modeKindle | modeService | modeDoze
  | trainRestart | testStart | testStop | prbsClear | eyeStart | fieldConfig | retireClear | roundNow | surveyNow
  | spareRate | portRestart | spAdmin | gleanFlush | sieveSwap | gateSchedule | gateCancel | timeSet | timeStep
  | freqAdj | stampRead | saInstall | saRemove | encodingAn | kekInstall | kekClear | kiForget | selftest | zeroise
  | officer | rollback | millEnable | millDisable | stewardRestart | pcClear | tallyUs | sampleRead | booksRun
  deriving DecidableEq, Repr

/-- The row of a write, by object, and by value where several rows share one object. -/
def ownWrite (id v : Nat) : Option Own :=
  let one (n : Nat) (o : Own) : Option Own := if v = n then some o else none
  if id = 0x101001 then some .store
  else if id = 0x101101 then some .restore
  else if id = 0x101102 then some .dflt
  else if id = 0x100202 then
    match v with | 1 => some .modeEmber | 2 => some .modeKindle | 3 => some .modeService | 4 => some .modeDoze | _ => none
  else if id = 0x400800 then some .trainRestart
  else if id = 0x600011 then match v with | 1 => some .testStart | 0 => some .testStop | _ => none
  else if id = 0x600018 then some .prbsClear
  else if id = 0x600019 then some .eyeStart
  else if id = 0x118001 ∨ id = 0x118002 ∨ id = 0x118004 then some .fieldConfig
  else if id = 0x60002D then some .retireClear
  else if id = 0x148004 then one 1 .roundNow
  else if id = 0x60002E then some .surveyNow
  else if id = 0x210805 then some .spareRate
  else if id = 0x401F00 then some .portRestart
  else if id = 0x401101 then some .spAdmin
  else if id = 0x210308 then some .gleanFlush
  else if id = 0x210002 then some .sieveSwap
  else if id = 0x500321 then match v with | 1 => some .gateSchedule | 2 => some .gateCancel | _ => none
  else if id = 0x130401 then some .timeSet
  else if id = 0x130402 then some .timeStep
  else if id = 0x130403 then some .freqAdj
  else if id = 0x700119 then match v with | 1 => some .saInstall | 0 => some .saRemove | _ => none
  else if id = 0x700007 then some .encodingAn
  else if id = 0x122001 then some .kekInstall
  else if id = 0x122003 then some .kekClear
  else if id = 0x123003 then some .kiForget
  else if id = 0x120004 then one 1 .selftest
  else if id = 0x120101 then some .zeroise
  else if id = 0x120301 then some .officer
  else if id = 0x144005 then some .rollback
  else if id = 0x500504 then match v with | 1 => some .millEnable | 0 => some .millDisable | _ => none
  else if id = 0x160009 then some .stewardRestart
  else if id = 0x151002 then some .pcClear
  else if id = 0x403900 then some .tallyUs
  else if id = 0x153001 then some .booksRun
  else if id = 0x210601 then match v % 256 with | 2 => some .lookupSearch | 3 => some .lookupNext | _ => none
  else none

/-- The row of a request, if it has one of its own. -/
def ownOf (r : LReq) : Option Own :=
  match findRow r.index r.sub objTable with
  | none => none
  | some (row, _, _) =>
    match r.op with
    | .read => if rowId row = 0x500404 then some .stampRead else if rowId row = 0x152003 then some .sampleRead else none
    | .write data => ownWrite (rowId row) (ofLe data)
    | _ => none

/-! ### Checks at the head -/

/-- Refusals that come before the checks of R79: in KINDLE (R126), in SEALED (R152), and once the queue is closed
(R143). -/
def modeAbort (m : Mode) (r : LReq) (w : Wall) : Option Nat :=
  let reads := match r.op with | .read => true | .segRead _ _ _ => true | _ => false
  let security := (decide (0x1200 ≤ r.index) && decide (r.index ≤ 0x12FF)) || (decide (0x7000 ≤ r.index) && decide (r.index ≤ 0x7FFF))
  match m with
  | .kindle => if reads && decide (0x1000 ≤ r.index) && decide (r.index ≤ 0x100F) then none else some aMode
  | .sealedMode => if reads && decide (r.who = .mailbox) && !security then none else some aSealed
  | _ => if w.led.closed then some aMode else none

/-- Continuation bytes of a UTF-8 sequence. -/
def contBytes : Nat → List Byte → Option (List Byte)
  | 0, l => some l
  | _ + 1, [] => none
  | n + 1, b :: bs => if b.toNat / 64 = 2 then contBytes n bs else none

/-- UTF-8 (R77): lead bytes with their continuation bytes, no overlong form, no surrogate. -/
def utf8Ok : Nat → List Byte → Bool
  | _, [] => true
  | 0, _ => false
  | fuel + 1, b :: bs =>
    let b0 := b.toNat
    let b1 := (bs.getD 0 0).toNat
    if b0 < 0x80 then utf8Ok fuel bs
    else
      let n := if 0xC2 ≤ b0 ∧ b0 < 0xE0 then 1 else if 0xE0 ≤ b0 ∧ b0 < 0xF0 then 2 else if 0xF0 ≤ b0 ∧ b0 < 0xF5 then 3 else 0
      let bad := (b0 == 0xE0 && decide (b1 < 0xA0)) || (b0 == 0xED && decide (0xA0 ≤ b1)) ||
        (b0 == 0xF0 && decide (b1 < 0x90)) || (b0 == 0xF4 && decide (0x90 ≤ b1))
      if n = 0 ∨ bad then false else match contBytes n bs with | some r => utf8Ok fuel r | none => false

/-- Check 2: length and encoding of a plain write (R77, R78). -/
def check2 (row : ObjRow) (data : List Byte) : Option Nat :=
  if row.type = .domain then some aDomain
  else if row.type = .text then (if data.length ≤ 256 && utf8Ok 256 data then none else some aLength)
  else if data.length = tySize row.type then none
  else some aLength

/-- A security service of role O (R458): its approval shows in SERVICE_INDICATOR (R459, R460). -/
def noteService (r : LReq) (id : Nat) (data : List Byte) (w : Wall) : Wall :=
  let security := (decide (0x1200 ≤ r.index) && decide (r.index ≤ 0x12FF)) || (decide (0x7000 ≤ r.index) && decide (r.index ≤ 0x7FFF))
  let plainMbx := decide (r.who = .mailbox) && (id == 0x122001 || (id == 0x700112 && (blobOf data).form == 0))
  when security (setIndicator r.who (!plainMbx)) w

/-- What follows the response of a write (R124, R208). -/
def afterResponse (id : Nat) (w : Wall) : Wall :=
  when (id == 0x118001 || id == 0x118002 || id == 0x118004) fieldRestart w

/-- MODE_REQUEST accepted (R129, R130): answered, and the move is due; 3 in SERVICE has no effect. -/
def modeRequest (r : LReq) (v : Nat) (m : Mode) (w : Wall) : Wall :=
  let w := respond r.who 0 none w
  if m = .service ∧ v = 3 then w else { w with led := { w.led with moveDue := v } }

/-- The write's effect with everything that is judged after check 4 (R79). -/
def writeResult (arg : Nat) (m : Mode) (r : LReq) (row : ObjRow) (u k : Nat) (data : List Byte) (w : Wall) : WRes :=
  let id := rowId row
  let v := decodeVal row.type data
  if stewardAway r.index w then .abort aState
  else match stateRule id u k v m w with
  | some a => .abort a
  | none =>
    if id = 0x101001 then storeStart .store r v w
    else if id = 0x101101 then storeStart .restore r v w
    else if id = 0x101102 then storeStart .dflt r v w
    else if id = 0x100202 then .held (modeRequest r v m w)
    else if id = 0x120101 then .held (zeroiseEngines 2 (respond r.who 0 none w))
    else
      let absent := bareSvc w && absentBare r.index r.sub
      if absent && id == 0x700119 then .abort aEpoch
      else
        let e := effect arg r row u k v data w
        match e with
        | .abort a => .abort a
        | _ => if absent then .abort aEpoch else e

/-- A plain write at the head of the queue (R79). -/
def writeHead (arg : Nat) (m : Mode) (r : LReq) (data : List Byte) (w : Wall) : Wall :=
  let no (a : Nat) : Wall := respond r.who a none w
  if r.index ≥ 0xF000 then no aNoObject
  else match findRow r.index r.sub objTable with
  | none => no aNoObject
  | some (row, u, k) =>
    let id := rowId row
    if id = 0x113001 ∧ r.who = .mailbox then no aPath
    else if !canWrite r.role row then no aNoWrite
    else match check2 row data with
    | some a => no a
    | none =>
      match check3 row u k (decodeVal row.type data) w with
      | some a => no a
      | none =>
        match writeResult arg m r row u k data w with
        | .abort a => no a
        | .held w => w
        | .later on w => deferResponse r.who r.role on (noteService r id data w)
        | .ok w =>
          let w := noteService r id data w
          let w := match needsSteward r.index with | some b => latch b 4 w | none => w
          afterResponse id (respond r.who 0 (if id = 0x120004 then some [BitVec.ofNat 8 arg] else none) w)

/-- The object's own state rule for a segment write. -/
def segState (id u : Nat) (m : Mode) (w : Wall) : Option Nat := stateRule id u 0 0 m w

/-- Does this requester own a transfer? -/
def ownsTransfer (who : Who) (t : Transfer) : Bool :=
  match who, t.who with
  | .mailbox, .mailbox => true
  | .session a i _ _, .session b j _ _ => a == b && i == j
  | _, _ => false

def isImage (id : Nat) : Bool := id == 0x144001 || id == 0x144002 || id == 0x144003

/-- A segment write at the head of the queue (R110 to R112, R505). -/
def segWriteHead (m : Mode) (r : LReq) (offset : Nat) (last : Bool) (data : List Byte) (w : Wall) : Wall :=
  if r.index ≥ 0xF000 then respondG r.who aNoObject 0 none w
  else match findRow r.index r.sub objTable with
  | none => respondG r.who aNoObject 0 none w
  | some (row, u, _) =>
    let id := rowId row
    let key := r.index * 256 + r.sub
    let no (a : Nat) (w : Wall) : Wall := respondG r.who a (domGenOf key w) none w
    if !canWrite r.role row then no aNoWrite w
    else if row.type ≠ .domain then no aDomain w
    else if segLimit r.who < data.length then no aLength w
    else
      let t := tget w.led.transfers key
      let mine := match t with | some t => ownsTransfer r.who t | none => false
      if t.isSome && !mine then no aTransfer w
      else match segState id u m w with
      | some a => no a w
      | none =>
        let have_ := match t with | some t => t.data.length | none => 0
        if offset ≠ 0 ∧ (!mine || offset != have_) then no aOffset w
        else
          let l := if offset = 0 then data else (match t with | some t => t.data | none => []) ++ data
          let w := when (isImage id) (imageSegment (id - 0x144001) (l.take (imageMax (id - 0x144001)))) w
          if !last then
            respondG r.who 0 (domGenOf key w) none
              { w with led := { w.led with transfers := tput w.led.transfers key { who := r.who, role := r.role, data := l } } }
          else
            let w := { w with led := { w.led with transfers := tdel w.led.transfers key } }
            match effectDom id u key l w with
            | .ok w => respondG r.who 0 (domGenOf key w) none (noteService r id data w)
            | .abort a => no a w
            | _ => w

/-- The request at the head of the queue is served: it leaves the queue and is answered. -/
def serveHead (arg : Nat) (m : Mode) (w : Wall) : Wall :=
  match w.led.queue with
  | [] => w
  | r :: rest =>
    let w := queueLevel { w with led := { w.led with queue := rest } }
    match modeAbort m r w with
    | some a => respondG r.who a 0 none w
    | none =>
      match r.op with
      | .read =>
        let x := readObj r m w
        respond r.who x.1 (if x.1 = 0 then some x.2.1 else none) x.2.2
      | .write data => writeHead arg m r data w
      | .segRead off gen len =>
        let x := segRead r off gen len w
        respondG r.who x.1 x.2.1 (if x.1 = 0 then some x.2.2 else none) w
      | .segWrite off _ last data => segWriteHead m r off last data w

/-- Serve the head when it is of the kind a row names. -/
def serveIf (p : LReq → Bool) (arg : Nat) (m : Mode) (w : Wall) : Wall :=
  match w.led.queue with
  | [] => w
  | r :: _ => if serves m w && p r then serveHead arg m w else w

def serveOwn (o : Own) (m : Mode) (w : Wall) : Wall := serveIf (fun r => ownOf r == some o) 0 m w
def isRead (r : LReq) : Bool := match r.op with | .read => true | _ => false
def isWrite (r : LReq) : Bool := match r.op with | .write _ => true | _ => false
def isSegRead (r : LReq) : Bool := match r.op with | .segRead _ _ _ => true | _ => false
def isSegWrite (r : LReq) : Bool := match r.op with | .segWrite _ _ _ _ => true | _ => false

/-- A segment transfer has been silent for 30 s (R112). -/
def transferTimeout (index sub : Nat) (w : Wall) : Wall :=
  { w with led := { w.led with transfers := tdel w.led.transfers (index * 256 + sub) } }

/-! ### Commits that answer requests (R84, R442, R501) -/

/-- What the commits done so far release: installs whose durable record is committed; an install whose commit can no
longer happen ends with 0x0400_0001 and its SA not installed. -/
def settle (w : Wall) : Wall :=
  let recs := w.gra.done.filterMap fun a => match a with | .saRecord x => some x | _ => none
  let w := { w with gra := { w.gra with done := w.gra.done.filter fun a => match a with | .saRecord _ => false | .kekRecord _ => false | _ => true } }
  let w := recs.foldl (fun w x =>
    let u := x / 20
    let k := x % 20
    match getSa u k w with
    | some s => finishInstall u k (putSa u k { s with recordDue := false } w)
    | none => w) w
  if granaryFailed w then
    let stuck := w.sec.sas.filter fun e => e.2.pendingInstall || e.2.recordDue
    stuck.foldl (fun w e =>
      let w := { w with sec := { w.sec with sas := tdel w.sec.sas e.1 } }
      releaseDeferred (.sa e.1) aState none ((showSa (e.1 / 20) (e.1 % 20) w).set (Reg.saInstall (e.1 / 20) (e.1 % 20)) 0)) w
  else w

end Sys2Proof.Machine
end

