-- ==== Sys2Proof/Machine/Windows.lean ====
section
/-! DEFINITION. Target writes to the host window (R16, R49, R50): one 32-bit word at a time in arrival order,
and which offsets the window defines. A register with a row of its own does here what that row does. -/

namespace Sys2Proof.Machine

/-! ### The offsets that are defined (R16, R50) -/

/-- Statistic slots of R597 and everything else below 0x1_0000 of a port window. -/
def portDefined (o : Nat) : Bool :=
  decide (o < 0x2080) || (decide (0x4000 ≤ o) && decide (o < 0x5040)) || (decide (0x8000 ≤ o) && decide (o < 0x8800)) ||
  (decide (0x9000 ≤ o) && decide (o < 0x9800)) || decide (0xC000 ≤ o)

def brickDefined (o : Nat) : Bool :=
  decide (o < 0x8C) || (decide (0x10000 ≤ o) && decide (o < 0x22000)) || (decide (0x30000 ≤ o) && decide (o < 0x34000)) ||
  (decide (0x40000 ≤ o) && decide (o < 0x50000)) || (decide (0x80000 ≤ o) && decide (o < 0x80400) && decide (o % 0x20 < 0x18))

def ringDefined (o : Nat) : Bool :=
  decide (o < 0x18) || (decide (0x20 ≤ o) && decide (o < 0x24)) || (decide (0x40 ≤ o) && decide (o < 0x4C)) ||
  (decide (0x50 ≤ o) && decide (o < 0x68))

/-- Does the host window define something at an offset (R16)? -/
def windowDefined (o : Nat) : Bool :=
  if o < 0x1000 then decide (o < 0x0C)
  else if o < 0x2000 then decide (o < 0x101C) || decide (0x1800 ≤ o)
  else if o < 0x3000 then decide (o < 0x201C)
  else if o < 0x10000 then decide (0x8000 ≤ o) && decide (o < 0x8014)
  else if o < 0x50000 then true
  else if o < 0x100000 then false
  else if o < 0x300000 then ringDefined (o % 0x1000)
  else if o < 0x1000000 then false
  else if o < 0x2000000 then brickDefined (o % 0x100000)
  else if o < 0x2400000 then portDefined (o % 0x10000)
  else false

/-! ### Blocks -/

/-- The mailbox's data in the request under way, overwritten while BUSY, is undefined (R89): free bytes. -/
def spoilMbx (w : Wall) : Wall :=
  let n := w.free
  let bad (l : List Byte) : List Byte := (List.range l.length).map fun i => BitVec.ofNat 8 (n / 256 ^ i)
  let q := w.led.queue.map fun r =>
    if r.who = .mailbox then
      match r.op with
      | .write l => { r with op := .write (bad l) }
      | .segWrite o g last l => { r with op := .segWrite o g last (bad l) }
      | _ => r
    else r
  { w with led := { w.led with queue := q } }.took

/-- A word of the mailbox (R88, R89). -/
def mbxWord (o v : Nat) (w : Wall) : Wall :=
  let busy := bit (w.win32 0x1010 0) 0
  if o = 0x1000 then
    if bit v 0 then mbxGo (bits v 7 4) (bit v 8) w else w.setWin o 0 (bits v 7 4 * 16 + bits v 8 8 * 256)
  else if o = 0x1004 then w.setWin o 0 (v % 2 ^ 24)
  else if o = 0x1008 then w.setWin o 0 (v % 2 ^ 12)
  else if o = 0x100C ∨ o = 0x1018 then w.setWin o 0 v
  else if 0x1800 ≤ o then when busy spoilMbx (w.setWin o 0 v)
  else w

/-- DB_ACK: a value above DB_WRITTEN is taken as DB_WRITTEN (R617). -/
def dbAck (v : Nat) (w : Wall) : Wall := w.setWin64 0x8008 (min v (w.get Reg.dbWritten))

/-- A word of the Daybook's control registers (R617). A high-water mark out of range is discarded (log entry 38). -/
def dayWord (o v : Nat) (w : Wall) : Wall :=
  if o = 0x8008 then dbAck (w.win32 0x800C 0 * 2 ^ 32 + v) w
  else if o = 0x800C then dbAck (v * 2 ^ 32 + w.win32 0x8008 0) w
  else if o = 0x8010 ∧ 1 ≤ v % 2 ^ 16 ∧ v % 2 ^ 16 ≤ 8128 then w.setWin o 4096 (v % 2 ^ 16)
  else w

/-- CTRL of a ring: ENABLE set, cleared or left (R515, R516). -/
def ringCtrlAny (k v : Nat) (w : Wall) : Wall :=
  if bit v 0 == ringOn k w then ringCtrlWrite k v w
  else if bit v 0 then ringEnable k v w
  else ringDisable k v w

/-- A word of a ring block (R514, R515). A SIZE_LOG2 outside 3 to 16 is ignored (log entry 38). -/
def ringWord (k o v : Nat) (w : Wall) : Wall :=
  let at_ := ringBlk k + o
  if o = 0x0C then ringCtrlAny k v w
  else if o = 0x40 then ringDoorbell k v w
  else if o = 0x00 ∨ o = 0x04 ∨ o = 0x08 ∨ o = 0x10 ∨ o = 0x14 then
    if ringOn k w then setCfgRefused k true w
    else
      let w := setCfgRefused k false w
      if o = 0x08 then (if 3 ≤ v % 32 ∧ v % 32 ≤ 16 then w.setWin at_ 3 (v % 32) else w) else w.setWin at_ 0 v
  else w

/-- SIEVE_CMD: the operation that OP names; 0 and 7 are reserved and start none (R357). -/
def sieveCmdWord (b v : Nat) (w : Wall) : Wall :=
  let i := v % 8192
  match bits v 18 16 with
  | 1 => sieveWriteShadow b i w
  | 2 => sieveWriteBoth b i w
  | 3 => sieveReadShadow b i w
  | 4 => sieveReadActive b i w
  | 5 => sieveInvalidateShadow b i w
  | 6 => sieveInvalidateBoth b i w
  | _ => w

/-- A word of a counter's record (R600, R605). -/
def counterWord (b k o v : Nat) (w : Wall) : Wall :=
  if o = 0x00 then (if pcConfigOk k v then w.set (Reg.pcConfig b k) v else badWindow w)
  else if o = 0x04 then (if bit v 0 then w.clrBitR (Reg.pcOvf b) k else w)
  else if o = 0x08 then w.set (Reg.pcValue b k) (putBits (w.get (Reg.pcValue b k)) 31 0 v)
  else if o = 0x0C then w.set (Reg.pcValue b k) (putBits (w.get (Reg.pcValue b k)) 47 32 v)
  else w

/-- A word of a brick window (R355 to R358). -/
def brickWord (b o v : Nat) (w : Wall) : Wall :=
  if o < 0x80 then w.setWin (brickWin b + o) 0 v
  else if o = 0x80 then sieveCmdWord b v w
  else if o = 0x88 then (if bit v 0 then swapWindow b w else w)
  else if 0x10000 ≤ o ∧ o < 0x20000 then hitClear b ((o - 0x10000) / 8) w
  else if 0x20000 ≤ o ∧ o < 0x22000 then
    let i := (o - 0x20000) / 2
    newDom ((0x2104 + b * 16) * 256 + 1) (setIndEntry b (i + 1) (v / 2 ^ 16) (setIndEntry b i (v % 2 ^ 16) w))
  else if 0x30000 ≤ o ∧ o < 0x34000 then
    if o % 16 = 12 then policerApply b ((o - 0x30000) / 16) v w else w.setWin (brickWin b + o) 0 v
  else if 0x80000 ≤ o ∧ o < 0x80400 then counterWord b ((o - 0x80000) / 0x20) (o % 0x20) v w
  else w

/-- A word of PENDING_GCL: GATES and INTERVAL_NS of an entry, its reserved bits ignored (R19, R392, R401). The list
grows to hold the entry (log entry 38). -/
def pendingWord (sp o v : Nat) (w : Wall) : Wall :=
  if w.get (Reg.gateState sp) = 2 then badWindow w
  else
    let l := pendingBytes sp w
    let n := max l.length (o / 8 * 8 + 8)
    let l := fit n l
    let l := l.take o ++ toLe 4 (if o % 8 = 0 then v % 256 else v) ++ l.drop (o + 4)
    putDom (pendingKey sp) l (w.set (Reg.pendingLen sp) (n / 8))

/-- A word of a port window (R398 to R401); statistics, counters and tally records are read only. -/
def portWord (p o v : Nat) (w : Wall) : Wall :=
  if 0x8000 ≤ o ∧ o < 0x8800 then (if o % 0x20 = 16 then queueDropsClear p ((o - 0x8000) / 0x20) w else w)
  else if 0x9000 ≤ o ∧ o < 0x9800 then
    let s := (o - 0x9000) / 16
    if o % 16 = 12 then shaperApplyWin p s w
    else w.setWin (portWin p + o) (if o % 16 = 4 then 65536 else 0) v
  else if 0xC000 ≤ o then pendingWord (p * 8 + (o - 0xC000) / 0x800) (o % 0x800) v w
  else w

/-- One 32-bit word written by the host. -/
def windowWord (o v : Nat) (w : Wall) : Wall :=
  let v := v % 2 ^ 32
  if !windowDefined o then badWindow w
  else if o < 0x1000 then w
  else if o < 0x2000 then mbxWord o v w
  else if o < 0x3000 then
    if o = 0x2008 then hostEnable false v w
    else if o = 0x200C then hostEnable true v w
    else if o = 0x2010 then hostClear false v w
    else if o = 0x2014 then hostClear true v w
    else w
  else if o < 0x10000 then dayWord o v w
  else if o < 0x50000 then w
  else if o < 0x300000 then ringWord ((o - 0x100000) / 0x1000) (o % 0x1000) v w
  else if o < 0x2000000 then brickWord ((o - 0x1000000) / 0x100000) (o % 0x100000) v w
  else portWord ((o - 0x2000000) / 0x10000) (o % 0x10000) v w

/-- A target write of 4 or 8 bytes (R49): two words apply low then high; DB_ACK takes its 64 bits at once. A write
whose halves are both undefined is one access (R50). -/
def windowWrite (o size v : Nat) (w : Wall) : Wall :=
  if size = 4 then windowWord o v w
  else if o = 0x8008 then dbAck v w
  else if !windowDefined o && !windowDefined (o + 4) then badWindow w
  else windowWord (o + 4) (v / 2 ^ 32) (windowWord o v w)

/-- A target write arrives: an access of a wrong size or alignment gets an error completion (R49), and a halted Reeve
leaves only the mirror (R132). -/
def targetWrite (o size v : Nat) (m : Mode) (w : Wall) : Wall :=
  if !answers m w then w
  else if !((size == 4 || size == 8) && o % size == 0) then accessError o size m w
  else if halted w then w
  else windowWrite o size v w

/-- Does an open host window take a write (R628, R132)? -/
def windowOpen (m : Mode) (w : Wall) : Bool := answers m w && !halted w

/-- A target access to an undefined offset: read as zero or discarded, and counted (R50). -/
def unmapped (o : Nat) (m : Mode) (w : Wall) : Wall :=
  if windowOpen m w && !windowDefined o then badWindow w else w

end Sys2Proof.Machine
end

