-- ==== Sys2Proof/Machine/Dvor.lean ====
section
/-! DEFINITION. Dvor (R92 to R122, R458 to R465): handshakes, the judgement of a request by its SEQ, events and
their retransmission, and the other frames of the field port. -/

namespace Sys2Proof.Machine

/-! ### Datagrams (R93, R94, R122, R585) -/

def pathNo : Path → Nat
  | .f0 => 0
  | .f1 => 1
  | .inband => 2

/-- Does a path carry datagrams: in-band only while it is enabled and its sub-port is neither down nor in mill (R119, R122)? -/
def pathOpen (p : Path) (w : Wall) : Bool :=
  match p with
  | .inband => w.flag Reg.inbandEnable && spUp (w.get Reg.inbandSp) w
  | _ => true

/-- A datagram reaches the Reeve: the level source of its path is high until it is served (R585). -/
def datagram (p : Path) (w : Wall) : Wall := pulse 16 (50 + pathNo p) w

/-- A datagram that fails its tag, VER or TYPE check (R97). -/
def authFail (w : Wall) : Wall := w.bump Reg.authFail 1

/-- A frame of the field port that nothing else takes (R94). -/
def fieldOther (p : Path) (w : Wall) : Wall := if p = .inband then w else w.bump Reg.fieldOther 1

/-- One of the replies that share the limit of 100 a second (R94, R152): the reply, or a discard. -/
def limitedReply (p : Path) (o : Out) (w : Wall) : Wall :=
  let n := if w.led.icmpSecond = w.second then w.led.icmpCount else 0
  if 100 ≤ n then fieldOther p w
  else { w with led := { w.led with icmpSecond := w.second, icmpCount := n + 1 } }.emit o

/-- ICMPv6 neighbour solicitations and echo requests (R94). -/
def icmpv6 (p : Path) (echo : Bool) (w : Wall) : Wall :=
  if p = .inband then w else limitedReply p (.icmp p echo) (datagram p w)

/-- A bad datagram (R95, R97): too large a one is discarded like any other frame (log entry 39). -/
def badDatagram (p : Path) (why : BadDatagram) (m : Mode) (w : Wall) : Wall :=
  if m = .sealedMode then w
  else match why with
    | .oversize => fieldOther p w
    | _ => authFail (datagram p w)

/-! ### Handshakes (R99, R100, R463, R464) -/

/-- A P-384 credential is in a slot, and an officer credential is enrolled. -/
def credUsed (k : Nat) (w : Wall) : Bool := w.flag (Reg.credPubkey k) && w.get (Reg.credRole k) != 0
def officerEnrolled (w : Wall) : Bool := (List.range 8).any fun k => w.get (Reg.credRole k) == 2 && w.flag (Reg.credPubkey k)

def roleCode : Role → Nat
  | .h => 0
  | .f => 1
  | .o => 2

/-- May an OPEN go on, be discarded, or be answered with an ABORT for its credential (R463, R464)? -/
inductive OpenJudge where
  | go
  | discard
  | abort (code : Nat)
  deriving DecidableEq, Repr

def judgeOpen (o : DvorOpen) (w : Wall) : OpenJudge :=
  if !Config.onCurve o.point then .discard
  else if o.cred = 0xFF then
    if officerEnrolled w then .abort aOfficer
    else if o.role ≠ 2 ∨ o.peer.path = .inband ∨ !Config.onCurve o.staticPoint then .discard
    else .go
  else if o.cred < 8 ∧ credUsed o.cred w ∧ w.get (Reg.credRole o.cred) = o.role then .go
  else .discard

/-- Header bytes of R96 for the transcript. -/
def dvorHeader (type session seq len : Nat) : List Byte :=
  toLe 1 1 ++ toLe 1 type ++ toLe 2 0 ++ toLe 4 session ++ toLe 4 seq ++ toLe 4 0 ++ toLe 2 len ++ toLe 6 0

/-- T1 of R464. The OPEN's own SEQ is taken as 0 (log entry 39). -/
def transcript1 (o : DvorOpen) (session : Nat) (approved : Bool) (wallNonce point : Nat) : List Byte :=
  let tail := if o.cred = 0xFF then toLe 97 o.staticPoint else []
  dvorHeader 1 0 0 (133 + tail.length) ++ toLe 1 o.role ++ toLe 1 o.cred ++ toLe 2 0 ++ toLe 32 o.nonce ++
    toLe 97 o.point ++ tail ++ dvorHeader 2 session 1 229 ++ toLe 1 (b2n approved) ++ toLe 3 0 ++
    toLe 32 wallNonce ++ toLe 97 point

/-- The lowest session slot that neither a session nor a handshake takes. -/
def freeSlot (w : Wall) : Option Nat :=
  firstBelow 8 fun k => (tget w.led.sessions k).isNone && !(w.led.handshakes.any fun h => h.slot == some k)

def setDrbg (n : Nat) (w : Wall) : Wall := { w with sec := { w.sec with drbg := n } }
def addHandshake (h : Handshake) (w : Wall) : Wall := { w with led := { w.led with handshakes := w.led.handshakes ++ [h] } }

/-- A handshake starts (R99): random SESSION, nonce and ephemeral key from the DRBG, the reply signed by the device. -/
def startHandshake (o : DvorOpen) (w : Wall) : Wall :=
  let n := w.sec.drbg
  let id := 1 + Config.drbg n % (2 ^ 32 - 1)
  let wallNonce := Config.drbg (n + 1)
  let eph := Config.drbg (n + 2)
  let point := Config.publicPoint eph
  let ok := approvedMode w
  let t1 := transcript1 o id ok wallNonce point
  let sig := Config.ecdsaSign (w.sec.deviceKey.getD 0) t1
  let h : Handshake :=
    { slot := freeSlot w, id := id, peer := o.peer, role := if o.role = 2 then .o else .f, cred := o.cred,
      staticPoint := o.staticPoint, nonce := o.nonce, wallNonce := wallNonce, ephemeral := eph, point := o.point,
      transcript := t1 ++ toLe 96 sig, sig := sig, approved := ok }
  (addHandshake h (setDrbg (n + 3) w)).emit (.openReply o.peer id wallNonce point sig ok)

/-- An OPEN (R99, R100, R152, R463, R464). -/
def dvorOpen (o : DvorOpen) (m : Mode) (w : Wall) : Wall :=
  if !pathOpen o.peer.path w ∨ m = .kindle then w
  else
    let w := datagram o.peer.path w
    if m = .sealedMode then limitedReply o.peer.path (.openAbort o.peer aSealed) w
    else match w.led.handshakes.find? fun h => h.nonce == o.nonce with
      | some h => w.emit (.openReply o.peer h.id h.wallNonce (Config.publicPoint h.ephemeral) h.sig h.approved)
      | none =>
        match judgeOpen o w with
        | .discard => authFail w
        | .abort c => w.emit (.openAbort o.peer c)
        | .go =>
          if 8 ≤ w.led.sessions.length then w.bump Reg.busyRefused 1 |>.emit (.openAbort o.peer aSessions)
          else if 4 ≤ w.led.handshakes.length then w.bump Reg.busyRefused 1 |>.emit (.openAbort o.peer aHandshakes)
          else startHandshake o w

def dropHandshake (id : Nat) (w : Wall) : Wall :=
  { w with led := { w.led with handshakes := w.led.handshakes.filter fun h => h.id != id } }

/-- The credential that an OPEN without one enrols (R463, R473, R626). -/
def enrol (point : Nat) (w : Wall) : Wall :=
  let w := (w.set (Reg.credPubkey 0) point).set (Reg.credRole 0) 2
  let w := if granaryShut w then w
    else askLedger 0x1210 3 (textBytes (w.get (Reg.credLabel 0))) .none (commitReg (Reg.credRole 0) 1 (commitReg (Reg.credPubkey 0) 97 w))
  raise 0 0x0A05 0 15 w

/-- Add an accepted SEQ: what lies more than 63 below the highest is too old ever to be asked for again. -/
def acceptSeq (seq : Nat) (s : Session) : Session :=
  let h := max s.high seq
  { s with high := h, accepted := seq :: s.accepted.filter fun q => decide (h ≤ q + 63) }

/-- Resend the cached response of a SEQ, unchanged, on the path the copy came on (R104, R106). -/
def resendCached (slot : Nat) (peer : Peer) (s : Session) (seq : Nat) (w : Wall) : Wall :=
  match s.cache.find? fun c => c.seq == seq with
  | some c => w.emit (.response (.session slot s.id seq peer) c.wallSeq c.renew c.status c.gen c.data)
  | none => w

/-- The session of a handshake is established, with SEQ 1 accepted (R99, R103, R465). -/
def establish (slot : Nat) (h : Handshake) (peer : Peer) (w : Wall) : Wall :=
  let s : Session :=
    { id := h.id, role := h.role, keys := Config.sessionKeys h.ephemeral h.point h.transcript, peer := peer, high := 1,
      accepted := [1], waiting := [], cache := [], wallSeq := 1, eventNo := 0, lost := 0, unacked := [],
      mask := 2 ^ 64 - 1, cursor := 0, indicator := true, heardAt := w.time.tclk }
  let w := putSession slot s (dropHandshake h.id w)
  let w := when (h.cred == 0xFF) (enrol h.staticPoint) w
  sessionRespond slot h.id 1 peer 0 0 [] w

/-- An OPEN_CONFIRM (R99, R464); a copy of one that was accepted is a copy of request SEQ 1 (R104). -/
def dvorConfirm (peer : Peer) (session sig : Nat) (m : Mode) (w : Wall) : Wall :=
  if !pathOpen peer.path w ∨ m = .kindle ∨ m = .sealedMode then w
  else
    let w := datagram peer.path w
    match w.led.handshakes.find? fun h => h.id == session with
    | some h =>
      let key := if h.cred = 0xFF then h.staticPoint else w.get (Reg.credPubkey h.cred)
      let msg := h.transcript ++ [0x63, 0x6F, 0x6E, 0x66, 0x69, 0x72, 0x6D]
      if !Config.ecdsaVerify key msg sig || (h.cred == 0xFF && officerEnrolled w) then authFail (dropHandshake h.id w)
      else match (match h.slot with
          | some k => some k
          | none => freeSlot w) with
        | some k => establish k h peer w
        | none => dropHandshake h.id w
    | none =>
      match w.led.sessions.find? fun e => e.2.id == session with
      | some (slot, s) => resendCached slot peer s 1 w
      | none => authFail w

/-- No OPEN_CONFIRM within 2 s of the OPEN_REPLY (R99). -/
def handshakeTimeout (place : Nat) (w : Wall) : Wall :=
  match w.led.handshakes[place]? with
  | some h => dropHandshake h.id w
  | none => w

/-! ### Requests (R104 to R106, R108) -/

/-- An authenticated message of a session: its path and addresses are kept, its idle time starts again (R93, R101). -/
def heard (peer : Peer) (w : Wall) (s : Session) : Session := { s with peer := peer, heardAt := w.time.tclk }

/-- What R104 does with a SEQ. -/
inductive SeqJudge where
  | resend | copy | take | old | ahead | renew
  deriving DecidableEq, Repr

def judgeSeq (s : Session) (seq : Nat) : SeqJudge :=
  if s.cache.any (fun c => c.seq == seq) ∧ s.high ≤ seq + 63 then .resend
  else if 0x80000000 ≤ seq then .renew
  else if s.accepted.contains seq then .copy
  else if seq + 63 < s.high then .old
  else if s.high + 8 < seq then .ahead
  else .take

/-- A request of a session: judged by its SEQ, and when it is new, handed to `f` (R104). -/
def sessionRequest (r : DvorReq) (m : Mode) (f : Session → Wall → Wall) (w : Wall) : Wall :=
  if !pathOpen r.peer.path w ∨ m = .kindle ∨ m = .sealedMode then w
  else match tget w.led.sessions r.slot with
    | none => w
    | some s =>
      let w := datagram r.peer.path w
      let s := heard r.peer w s
      let w := putSession r.slot s w
      match judgeSeq s r.seq with
      | .resend => resendCached r.slot r.peer s r.seq w
      | .copy => w
      | .old => w.bump Reg.seqOld 1
      | .ahead => w.bump Reg.seqAhead 1
      | .renew => sessionRespond r.slot s.id r.seq r.peer aRenew 0 [] w
      | .take => f s w

/-- A Ledger request enters the queue, and is accepted when it does (R104, R105); a closed queue answers it (R143). -/
def queueRequest (r : DvorReq) (op : LOp) (s : Session) (w : Wall) : Wall :=
  let q : LReq := { who := .session r.slot s.id r.seq r.peer, role := s.role, index := r.index % 2 ^ 16, sub := r.sub % 256, op := op }
  if 16 ≤ w.led.queue.length ∧ !w.led.closed then arrive q w
  else
    let s := acceptSeq r.seq s
    arrive q (putSession r.slot { s with waiting := if w.led.closed then s.waiting else s.waiting ++ [r.seq] } w)

def dvorRequest (r : DvorReq) (op : LOp) (m : Mode) (w : Wall) : Wall := sessionRequest r m (queueRequest r op) w

/-- A message that enters no queue: its SEQ is accepted at once, and it gets no RESPONSE (log entry 39). -/
def takeSeq (r : DvorReq) (f : Session → Session) (s : Session) (w : Wall) : Wall :=
  putSession r.slot (f (acceptSeq r.seq s)) w

/-- EVENT_ACK (R115). -/
def eventAck (r : DvorReq) (events : List Nat) (m : Mode) (w : Wall) : Wall :=
  sessionRequest r m (takeSeq r fun s => { s with unacked := s.unacked.filter fun u => !events.contains u.no }) w

/-- KEEPALIVE restarts the idle time (R101). -/
def keepalive (r : DvorReq) (m : Mode) (w : Wall) : Wall := sessionRequest r m (takeSeq r id) w

/-- CLOSE from the manager (R101). -/
def dvorClose (slot : Nat) (w : Wall) : Wall := closeSession slot 0 true w

/-- The retransmission interval of an unacknowledged event ends (R114): resent unchanged, the interval doubles up to 1.28 s. -/
def eventRetransmit (slot event : Nat) (w : Wall) : Wall :=
  match tget w.led.sessions slot with
  | none => w
  | some s =>
    match s.unacked.find? fun u => u.no == event with
    | none => w
    | some u =>
      let l := s.unacked.map fun x => if x.no = event then { x with interval := min (x.interval * 2) 1280 } else x
      (putSession slot { s with unacked := l } w).emit
        (.event slot u.no u.wallSeq u.src u.code u.srcSeq u.detail u.stamp u.lost u.cls u.renew s.peer)

/-! ### In-band messages on the line (R121) -/

/-- The in-band message of an emission, if it is one. -/
def inbandOf : Out → Bool
  | .response (.session _ _ _ p) _ _ _ _ _ => p.path == .inband
  | .event _ _ _ _ _ _ _ _ _ _ _ p => p.path == .inband
  | .openReply p _ _ _ _ _ => p.path == .inband
  | .openAbort p _ => p.path == .inband
  | .closeMsg _ _ _ p => p.path == .inband
  | _ => false

/-- One in-band message enters the egress queue of its sub-port's port; its bytes are those of an encrypted datagram,
of which nothing is stated but the length of the layers (log entry 39). -/
def sendInband (w : Wall) : Wall :=
  let sp := w.get Reg.inbandSp
  if !spUp sp w then w
  else
    let n := w.free
    let len := 14 + 40 + 8 + 24 + n % 1209
    let f : EFrame :=
      { src := .inband, sp := sp, bytes := (List.range len).map fun i => BitVec.ofNat 8 (n / 256 ^ (i + 2)), whole := true,
        chunks := chunksOf len, stamp := 0, desc := 0 }
    linkOwned (w.get Reg.inbandQueue) f w.took

/-- Emissions since the last tick that go in-band enter their queue. -/
def inbandTick (w : Wall) : Wall :=
  let fresh := (w.out.take (w.out.length - w.led.inbandSent)).filter inbandOf
  let w : Wall := { w with led := { w.led with inbandSent := w.out.length } }
  fresh.foldl (fun w _ => sendInband w) w

end Sys2Proof.Machine
end

