-- ==== Sys2Proof/Machine/Modes.lean ====
section
/-! DEFINITION. The mode moves of R127 but for the KINDLE sequence itself: power, clock loss (R30, R41), EMBER
(R143 to R146), restart (R627), DOZE (R147 to R150), SEALED and zeroisation (R151, R153, R471, R502). -/

namespace Sys2Proof.Machine

/-! ### What every move does (R128) -/

/-- A move between two modes: LAST_CAUSE, a Daybook entry, the mode-change sources; an officer host session ends
(R128, R462). -/
def noteMove (old new cause : Nat) (w : Wall) : Wall :=
  let w := daybook 0 0x0E01 (old + new * 2 ^ 8 + cause * 2 ^ 16) (w.set Reg.lastCause cause)
  latch 17 1 (latch 16 13 (w.set Reg.hostOfficerS 0))

/-- A sub-port that is not down goes down with a reason and its lanes are disabled; one that is down already keeps its
own reason (R30, R143, R151). -/
def stopPort (reason sp : Nat) (w : Wall) : Wall :=
  if spSt sp w = 5 then w
  else if spSt sp w = 0 then (if spGrpSt sp w = 0 then w else setSpGroup sp 0 w)
  else downOff sp reason w

def stopPorts (reason : Nat) (w : Wall) : Wall := upTo 512 (stopPort reason) w

/-- Every session is sent CLOSE with a reason, and every handshake is dropped (R101). -/
def closeAll (reason : Nat) (w : Wall) : Wall :=
  let w := upTo 8 (fun k w => closeSession k reason true w) w
  { w with led := { w.led with handshakes := [] } }

def stopStewards (w : Wall) : Wall := upTo 16 (fun n w => w.set (Reg.stState n) 0) w

/-- Does steward `n` run its ROM code only: in bare service, or since its image could not be reloaded (R558, R577)? -/
def romOnly (n : Nat) (w : Wall) : Bool := bareSvc w || (tget w.gra.loadedGen (16 + n)).isSome

/-- A steward is released at its entry point (R558). -/
def releaseSteward (n : Nat) (w : Wall) : Wall :=
  let rom := romOnly n w
  let r := w.seq n
  (w.setSeq n { r with mpc := if rom then 0 else Config.vendorEntry 0, kicked := w.time.tclk }).set (Reg.stState n)
    (if rom then 2 else 1)

/-! ### Commits of a whole queue (R30, R452, R627) -/

/-- Commit until the queue is empty. -/
def commitAll (w : Wall) : Wall :=
  upTo (w.gra.queue.length + w.gra.waiting.length + 64) (fun _ w => if w.gra.queue = [] then w else commitOne none w) w

/-- The marks of every durable receive SA are asked for, at an orderly EMBER entry and restart (R452). -/
def askMarks (w : Wall) : Wall :=
  w.sec.sas.foldl (fun w e =>
    if e.2.durable && !e.2.pendingInstall && decide (4 ≤ e.1 % 20) then
      askRecord 0x42 (saRkey (e.1 / 20) (e.1 % 20)) false [e.2.highest + 1] 3 .none
        (w.set (Reg.saReservedEnd (e.1 / 20) (e.1 % 20)) (e.2.highest + 1))
    else w) w

/-! ### The state kept without VCORE -/

/-- Everything volatile is lost: what stays is the Granary's stores, the ember island, the pins and the model's own
counters (R17, R44, R154). Cycle counts, classes and generations are found again at replay (R493). -/
def freshState (w : Wall) : Wall :=
  let z := Wall.reset
  let b := w.bnd
  { z with
    time := { z.time with tclk := w.time.tclk, dclk := w.time.dclk }
    bnd := { z.bnd with
      pfail := b.pfail, pfailHigh := b.pfailHigh, vcoreIn := b.vcoreIn, vgranOk := b.vgranOk, vembUp := b.vembUp,
      zeroLatch := b.zeroLatch, wakeReq := b.wakeReq, emberTick := b.emberTick, emberEntry := b.emberEntry,
      refLanes := b.refLanes, cause := b.cause, waiting := b.waiting,
      queueShut := b.pfail || !b.vgranOk, inhibit := b.inhibit }
    gra := { z.gra with
      bank0 := w.gra.bank0, bank1 := w.gra.bank1, hdr0 := w.gra.hdr0, hdr1 := w.gra.hdr1, shelf := w.gra.shelf,
      digest := w.gra.digest, digestSeq := w.gra.digestSeq, retention := w.gra.retention }
    sec := { z.sec with drbg := w.sec.drbg }
    led := { z.led with inbandSent := w.out.length }
    freeN := w.freeN
    out := w.out }

/-- The state kept without VCORE, and what its pins and sensors show at once. -/
def freshWall (w : Wall) : Wall :=
  let b := w.bnd
  let fresh := freshState w
  let live (r : Reg) (x : Wall) : Wall := x.set r (w.get r)
  let fresh := live Reg.railGood (live Reg.vcoreMv (live Reg.reflanePresent fresh))
  let fresh := upTo 5 (fun k x => live (Reg.tj k) x) fresh
  level 16 10 (!b.vgranOk) fresh

/-! ### OFF, EMBER and the rails (R40 to R43, R127, R143 to R146) -/

/-- The last rail reports power-good (R41): the wall waits for REFCORE. The rails are taken as good, PFAIL_N as high and
VCORE at its 0.70 V (R34, R69). -/
def powerGood (reflanes : Nat) (m : Mode) (w : Wall) : Mode × Wall :=
  let start (cause : Nat) : Mode × Wall :=
    let w := freshWall (modBnd (fun b => { b with
      cause := cause + (modeCode m) * 256, wakeReq := false, vembUp := true, vcoreIn := true, vgranOk := true, pfail := false,
      pfailHigh := false, inhibit := false, refLanes := reflanes % 2 ^ 16 }) w)
    let w := modBnd (fun b => { b with waitRef := true }) w
    (.kindle, ((w.set Reg.railGood 0x1F).set Reg.vcoreMv 700).set Reg.reflanePresent (reflanes % 2 ^ 16))
  match m with
  | .off => start 1
  | .ember => if w.bnd.wakeReq then start (if w.bnd.zeroLatch then 3 else 2) else (m, w)
  | _ => (m, w)

/-- VCORE is removed other than after EMBER entry (R127). -/
def vcoreRemoved (m : Mode) (w : Wall) : Mode × Wall :=
  match m with
  | .off | .ember => (m, w)
  | _ => (.off, freshWall { w with gra := { w.gra with retention := { w.gra.retention with valid := false } } })

/-- VEMB is removed, last of the rails: nothing of the ember island is left (R35, R43, R44). -/
def vembRemoved (_m : Mode) (w : Wall) : Mode × Wall :=
  (.off, freshWall (modBnd (fun b => { b with vembUp := false, zeroLatch := false, wakeReq := false, emberTick := 0 })
    { w with gra := { w.gra with retention := { valid := false, tick := 0, edges := [], enables := [], holdoffs := [] } } }))

/-- WAKE is accepted in EMBER (R40). -/
def wakeAccept (m : Mode) (w : Wall) : Wall :=
  if m = .ember then (modBnd (fun b => { b with wakeReq := true }) w).emit .wakeRequest else w

/-- Bellhouse state copied to the retention registers (R584). -/
def retain (w : Wall) : Retention :=
  let us := List.range 18
  { valid := true, tick := w.bnd.emberTick,
    edges := us.foldl (fun t u => tputD t u 0
      ((bitList (w.get (Reg.bhPending u)) (srcCount u)).foldl (fun a s => if isLevel u s then a else setBit a s) 0)) []
    enables := us.foldl (fun t u => tputD t u 0 (w.get (Reg.bhEnable u))) []
    holdoffs := (List.range 17).foldl (fun t u =>
      (w.seq u).holdoff.foldl (fun t h => tputD t (u * 8 + h.1) 0 (h.2 - w.time.tclk)) t) [] }

/-- EMBER entry after the response (R143): the queue closes, sessions and ports are taken down, the stewards stop, the
Bellhouse is retained, and the sheaves still asked for are on their way. -/
def emberStart (w : Wall) : Wall :=
  let w := modBnd (fun b => { b with dozing := false }) w
  let q := w.led.queue
  let w := queueLevel { w with led := { w.led with queue := [], closed := true } }
  let w := q.foldl (fun w r => respondG r.who aMode 0 none w) w
  let w := stopPorts 13 (closeAll 5 w)
  let keep := retain w
  let w := askMarks (dropRings (stopStewards w))
  { w with gra := { w.gra with retention := keep } }

/-- The commit queue has drained and the rails but VEMB may go (R143). -/
def emberDrained (m : Mode) (w : Wall) : Mode × Wall :=
  if w.led.closed && w.led.moveDue == 1 && inService m && !w.bnd.pfail && w.bnd.vgranOk && w.sec.zeroising.isNone then
    let w := setInhibit true (if commitRuns m w then commitAll w else w)
    let w := (noteMove (modeCode m) 1 13 w).emit .railsOff
    let w := modBnd (fun b => { b with emberEntry := b.emberTick, wakeReq := false }) w
    (.ember, freshWall w)
  else (m, w)

/-! ### REFCORE (R30) -/

/-- No sheaf waits outside the commit queue. -/
def dropWaitingSheaves (w : Wall) : Wall := { w with gra := { w.gra with waiting := [] } }

/-- REFCORE_LOSSES and the clock-loss entry, committed with what is queued (R30 steps 3, 4). -/
def clockLossCommit (m : Mode) (w : Wall) : Wall :=
  let outside := w.gra.waiting
  let w := dropWaitingSheaves w
  let runs := commitRuns m w
  let w := if runs then drainQueue w else w
  let w := digestEntry 0 0x0E0A (modeCode m) (commitReg Reg.refcoreLosses 4 (w.bump Reg.refcoreLosses 1))
  let w := if runs then drainQueue w else w
  setShut true { w with gra := { w.gra with waiting := w.gra.waiting ++ outside } }

/-- REFCORE has been absent for 2 µs (R30). A halted Reeve does nothing more (R132). -/
def refcoreLoss (m : Mode) (w : Wall) : Mode × Wall :=
  if !clocksRun m w then (m, w)
  else if halted w then (m, modBnd (fun b => { b with clocksStopped := true }) w)
  else
    let stop := fun b : BoundarySt => { b with clocksStopped := true, fetchDue := false, cause := 15 + modeCode m * 256 }
    match m with
    | .kindle | .service | .doze =>
      let w := latch 16 3 (clockLossCommit m (stopPorts 14 w))
      (.kindle, modBnd (fun b => { stop b with dozing := false }) w)
    | .sealedMode => (m, modBnd (fun b => { b with clocksStopped := true }) (latch 16 3 (clockLossCommit m w)))
    | _ => (m, w)

/-- REFCORE has been valid for 1 ms (R30): KINDLE is due, or SEALED serves again. -/
def refcoreRestored (m : Mode) (w : Wall) : Wall :=
  if !w.bnd.clocksStopped then w
  else
    let w := modBnd (fun b => { b with clocksStopped := false }) w
    if m = .kindle then (if halted w then w else modBnd (fun b => { b with fetchDue := true }) w)
    else
      let w := pumpQueue (setShut (w.bnd.pfail || !w.bnd.vgranOk) w)
      if w.bnd.zeroLatch && w.sec.zeroising.isNone then zeroiseEngines 1 w else w

/-! ### Restart into KINDLE (R127, R579, R627) -/

/-- No Ledger request, response, store command or transfer is left, and the queue is open. -/
def dropRequests (w : Wall) : Wall :=
  { w with led := { w.led with queue := [], deferred := [], store := none, transfers := [], moveDue := 0, closed := false } }

def clearReeveFault (w : Wall) : Wall := { w with stw := { w.stw with reeveFault := false } }

/-- A move into KINDLE with VCORE up: what is in the commit queue is committed, everything that waits elsewhere is lost. -/
def restart (cause : Nat) (m : Mode) (w : Wall) : Mode × Wall :=
  let w := stopPorts 13 (closeAll 4 w)
  let w := dropWaitingSheaves (dropRequests w)
  let w := if cause = 14 then askMarks w else w
  let w := if commitRuns m w then commitAll w else w
  let w := stopStewards (dropRings w)
  let w := modBnd (fun b => { b with fetchDue := true, dozing := false, cause := cause + modeCode m * 256 }) w
  (.kindle, clearReeveFault ((w.set Reg.kindleStep 1).set Reg.kindleCount 0))

/-- The Reeve's watchdog expires, or it takes a restart fault (R576, R579). -/
def reeveRestart (m : Mode) (w : Wall) : Mode × Wall :=
  match m with
  | .service | .doze => restart 16 m w
  | _ => (m, w)

/-! ### SEALED and zeroisation (R134, R151, R468 to R471, R502) -/

/-- Entry to SEALED (R151). What waits for a response is refused like everything else there (R152). -/
def sealWall (old : Mode) (cause last : Nat) (w : Wall) : Wall :=
  let w := modBnd (fun b => { b with dozing := false, fetchDue := false }) (closeAll 3 (stopPorts 15 w))
  let d := w.led.deferred
  let w : Wall := { w with led := { w.led with deferred := [], store := none, transfers := [], moveDue := 0, closed := false } }
  let w := d.foldl (fun w x => respond x.who aSealed none w) w
  let w := dropRings (stopStewards (w.set Reg.sealedCause cause))
  digestEntry 0 0x0E0C (cause + last * 2 ^ 8) (noteMove (modeCode old) 5 last w)

/-- A failed test or a tamper event enters SEALED, which starts zeroisation (R468 to R471). -/
def sealNow (cause last : Nat) (m : Mode) (w : Wall) : Mode × Wall :=
  if clocksRun m w && !halted w && m != .sealedMode then
    (.sealedMode, zeroiseEngines cause (sealWall m cause last w))
  else (m, w)

/-- A continuous test has failed (R468). -/
def continuousFail (m : Mode) (w : Wall) : Mode × Wall :=
  sealNow 4 (if m = .kindle then 5 else 6) m (if clocksRun m w then latch 16 1 w else w)

/-- A tamper event (R470). -/
def tamper (m : Mode) (w : Wall) : Mode × Wall := sealNow 5 9 m (if clocksRun m w then latch 16 2 w else w)

/-- Zeroisation starts in service: data ports stop and the session keys go (R471, first row). -/
def zeroiseStart (w : Wall) : Wall := closeAll 3 (stopPorts 15 w)

/-- ZEROISE is accepted (R42). In KINDLE the latch is what its next step 1 samples (R131, R134). -/
def zeroiseAccept (m : Mode) (w : Wall) : Wall :=
  if m = .off ∨ !w.bnd.vembUp then w
  else
    let w := modBnd (fun b => { b with zeroLatch := true }) w
    match m with
    | .ember => (modBnd (fun b => { b with wakeReq := true }) w).emit .wakeRequest
    | .service | .doze => zeroiseStart (zeroiseEngines 1 w)
    | .sealedMode => if clocksRun m w then zeroiseEngines 1 w else w
    | _ => w

/-- LAST_CAUSE of an entry to SEALED by zeroisation (R155). -/
def zeroCause (c : Nat) : Nat := if 16 ≤ c then 17 else if c = 1 then 7 else 8

/-- The key partition reads as zero (R471): SEALED is entered, or kept where it started the zeroisation. -/
def zeroisationComplete (m : Mode) (w : Wall) : Mode × Wall :=
  match w.sec.zeroising with
  | none => (m, w)
  | some c =>
    if !clocksRun m w || halted w || w.bnd.inhibit then (m, w)
    else
      let w := settle (zeroiseGranary (c % 16) w)
      if m = .sealedMode then (m, w) else (.sealedMode, sealWall m (c % 16) (zeroCause c) w)

/-! ### DOZE (R147 to R150) -/

/-- A port at DOZE entry: quiet is requested, or the port goes down with reason 8 (R147). -/
def dozePort (p : Nat) (w : Wall) : Wall :=
  let live := (portSps p w).filter fun sp => spSt sp w == 2 || spSt sp w == 4
  if live = [] then w
  else if live.any fun sp => !bit (w.get (Reg.agreedCaps (sp / 8) (sp % 8))) 3 then dozeDown p w
  else quietRetry p (w.setQuiet p { w.quiet p with idleDue := true })

/-- MODE_REQUEST := 4. Surveys under way end at once, their roles back where they were (log entry 41). -/
def dozeEnter (w : Wall) : Wall :=
  let w := upTo 512 (fun sp w =>
    if spSt sp w = 1 ∨ (spSt sp w = 0 ∧ spGrpSt sp w ≠ 0) then downOff sp 8 w else w) w
  let w := w.lan.surveys.foldl (fun w e => endSurvey e.1 w) w
  let w := modBnd (fun b => { b with dozing := true }) w
  let w := upTo 64 dozePort (upTo 64 panicEval w)
  noteMove 3 4 10 (stopStewards w)

/-- Back to SERVICE (R150): `cause` as in R155, `wake` as WAKE_CAUSE. -/
def dozeExit (cause wake : Nat) (w : Wall) : Wall :=
  let w := modBnd (fun b => { b with dozing := false }) (w.set Reg.wakeCause wake)
  let w := upTo 16 releaseSteward (noteMove 4 3 cause w)
  let w := upTo 64 (fun p w => grant p (panicEval p (wakePort p w))) w
  let tails := w.hst.rings.filterMap fun e => e.2.dozeTail.map fun v => (e.1, v)
  let w := tails.foldl (fun w e => ringDoorbell e.1 e.2 (w.setRing e.1 { w.ring e.1 with dozeTail := none })) w
  let w := upTo 512 (fun sp w =>
    if spGrpSt sp w = 0 ∧ w.get (Reg.downReason (sp / 8) (sp % 8)) = 8 ∧ mayDetect sp w then enterDetect sp 0 w else w) w
  pumpRings w

/-- The pattern that a frame matches (R149): its first 64 bytes, zero beyond its end. -/
def wakeMatch (frame : List Byte) (w : Wall) : Option Nat :=
  firstBelow 4 fun k =>
    bit (w.get Reg.wakeEnable) k &&
      ((ofLe (frame.take 64) ^^^ w.get (Reg.wakePattern k)) &&& w.get (Reg.wakeMask k)) == 0

/-- A field frame in DOZE that matches an enabled pattern wakes the wall, and is then handled like any other (R149).
A frame that is Dvor or ICMPv6 comes as its own command. -/
def dozeWake (p : Path) (frame : List Byte) (m : Mode) (w : Wall) : Mode × Wall :=
  if m = .doze ∧ p ≠ .inband then
    match wakeMatch frame w with
    | some k => (.service, fieldOther p (dozeExit 11 (1 + k) w))
    | none => (m, fieldOther p w)
  else (m, w)

/-! ### Moves that were requested (R129, R130) -/

/-- A move whose response has been sent and that no store command holds back begins. -/
def dueMove (m : Mode) (w : Wall) : Mode × Wall :=
  if w.led.moveDue = 0 ∨ w.led.store.isSome ∨ w.led.closed ∨ w.sec.zeroising.isSome ∨ !inService m then (m, w)
  else
    let clear (w : Wall) : Wall := { w with led := { w.led with moveDue := 0 } }
    if w.led.moveDue = 1 then (m, emberStart w)
    else if w.led.moveDue = 2 then restart 14 m w
    else if w.led.moveDue = 3 then (if m = .doze then (.service, dozeExit 12 5 (clear w)) else (m, clear w))
    else if m = .service then (.doze, dozeEnter (clear w)) else (m, clear w)

end Sys2Proof.Machine
end

