-- ==== Sys2Proof/Machine/Replay.lean ====
section
/-! DEFINITION. KINDLE (R131 to R142): the journal replay (R484, R485, R493, R494), the retention store (R145, R584),
the image shelf (R136, R137, R573, R574), and the resumption of SAs (R452). What the model takes from the spec's
silence here is in log entries 42 to 46. -/

namespace Sys2Proof.Machine

/-! ### What the banks hold (R479, R484, R485, R493) -/

/-- Is a journal row retired in the map of a working bank? -/
def rowRetired (r : Nat) (w : Wall) : Bool :=
  (List.range 2).any fun k => bankWorks k w &&
    (match headerOf (if k = 0 then w.gra.hdr0 else w.gra.hdr1) with | some h => h.retired.contains r | none => false)

def headerIn (k : Nat) (w : Wall) : Option Header :=
  if bankWorks k w then headerOf (if k = 0 then w.gra.hdr0 else w.gra.hdr1) else none

/-- The wall as replay reads it: of two banks at different layouts, the one at the newer layout alone (R139). -/
def replayView (w : Wall) : Wall :=
  match headerIn 0 w, headerIn 1 w with
  | some a, some b =>
    if a.layout < b.layout then w.clrBitR Reg.bankState 0 else if b.layout < a.layout then w.clrBitR Reg.bankState 1 else w
  | _, _ => w

/-- The layout found, of the newer bank (R137, R139). -/
def foundLayout (w : Wall) : Nat :=
  match headerIn 0 w, headerIn 1 w with
  | some a, some b => max a.layout b.layout
  | some a, none => a.layout
  | none, some b => b.layout
  | none, none => 0

/-- The candidate sheaves of a replay, with their slots (R493). -/
def replaySheaves (w : Wall) : List (Nat × Sheaf) :=
  (sheaves (replayView w)).filter fun e => !rowRetired (e.1 / 64) w

/-- Records that the divergence table makes suspect: type, record key, generation (R494). -/
def suspects (w : Wall) : List (Nat × Nat × Nat) :=
  let v := replayView w
  (usedSlots v).filterMap fun s =>
    if rowRetired (s / 64) w then none
    else match judge s v, copyAt 0 s v with
      | .suspect k t, some (.sheaf a) => some (t, recKey t k, a.gen)
      | _, _ => none

/-- The group a record takes its value from; none when a later suspect sheaf belongs to it (R484, R494). -/
def recordOf (all : List (Nat × Sheaf)) (sus : List (Nat × Nat × Nat)) (t key : Nat) : Option (List Sheaf) :=
  match chosen all t key with
  | none => none
  | some g =>
    let gen := match g with | s :: _ => s.gen | [] => 0
    if g.any (·.tomb) || sus.any (fun x => x.1 == t && x.2.1 == key && decide (gen ≤ x.2.2)) then none else some g

/-- Distinct record keys of a type, in order of first appearance. -/
def recordKeys (all : List (Nat × Sheaf)) (t : Nat) : List Nat :=
  ((all.filter fun e => e.2.type == t).map fun e => recKey t e.2.rkey).eraseDups

/-- Class of a row at replay: of the sheaves that can be read in it, key when it is not blank and none can (R485). -/
def rowClass (all : List (Nat × Sheaf)) (r : Nat) : Bool :=
  match all.find? fun e => e.1 / 64 == r with
  | some e => isKeyType e.2.type
  | none => true

/-- Row states, cycle counts, generation and header values found at replay (R485, R489, R493; log entry 42). Rows whose
sheaves are all dead are free; of the rows of a class with blank slots at their end, the newest is open again, the
others count as full. -/
def rebuildRows (w : Wall) : Wall :=
  let v := replayView w
  let all := replaySheaves w
  let slots := usedSlots v
  let used := (slots.map (· / 64)).eraseDups
  let cyc (r : Nat) : Nat :=
    match chosen all 0x04 (r / 10 * 10) with
    | some (s :: _) => s.body / 2 ^ (32 * (r % 10)) % 2 ^ 32
    | _ => 0
  let lastOf (r : Nat) : Nat := (slots.filter fun s => s / 64 == r).foldl (fun a s => max a (s % 64 + 1)) 0
  let genOf (r : Nat) : Nat := (all.filter fun e => e.1 / 64 == r).foldl (fun a e => max a e.2.gen) 0
  let liveRow (r : Nat) : Bool := all.any fun e => e.1 / 64 == r && isLive all e.2
  let newest (key : Bool) : Option Nat :=
    (used.filter fun r => !rowRetired r w && liveRow r && rowClass all r == key && decide (lastOf r < 64)).foldl
      (fun b r => match b with | none => some r | some x => if genOf x < genOf r then some r else b) none
  let wearRows := (all.filter fun e => e.2.type == 0x04).flatMap fun e => (List.range 10).map (e.2.rkey + ·)
  let row (r : Nat) : Option Row :=
    if rowRetired r w then some { state := .retired, key := rowClass all r, cycles := cyc r, used := 64 }
    else if !used.contains r then
      (if wearRows.contains r then some { state := .free, key := false, cycles := cyc r, used := 0 } else none)
    else if !liveRow r && all.any (fun e => e.1 / 64 == r) then
      some { state := .free, key := rowClass all r, cycles := cyc r, used := 0 }
    else if newest (rowClass all r) = some r then
      some { state := .opened, key := rowClass all r, cycles := cyc r, used := lastOf r }
    else some { state := .full, key := rowClass all r, cycles := cyc r, used := 64 }
  let rows := (List.range 1920).filterMap fun r => (row r).map fun x => (r, x)
  let top := all.foldl (fun a e => max a e.2.gen) 0
  let hd := match headerIn 0 w with | some h => some h | none => headerIn 1 w
  let w : Wall := { w with gra := { w.gra with rows := rows, genNext := max w.gra.genNext (top + 1) } }
  let w := w.set Reg.wearMaxCycles (rows.foldl (fun a e => max a e.2.cycles) 0)
  match hd with
  | some h => (w.set Reg.zeroiseCount h.zeroiseCount).set Reg.retiredRows h.retired.length
  | none => w

/-- The zeroise marker of either header (R502). -/
def markerOf (w : Wall) : Option Nat :=
  match (headerIn 0 w).bind (·.marker) with
  | some c => some c
  | none => (headerIn 1 w).bind (·.marker)

/-! ### The forward rule (R493) -/

/-- Slots that cannot be read and might have held a packet-number record. -/
def unread (w : Wall) : List Nat :=
  let v := replayView w
  let all := replaySheaves w
  (usedSlots v).filter fun s =>
    !rowRetired (s / 64) w && decide (judge s v = .unreadable) && rowClass all (s / 64)

/-- A packet-number record moved forward `n` times. -/
def padSheaf (n b : Nat) (s : Sheaf) : Sheaf :=
  if s.type = 0x40 then { s with body := s.body + n * (2 * b) * 2 ^ 64 }
  else if s.type = 0x43 then { s with body := s.body + n * (2 * b) * 2 ^ 224 }
  else { s with body := s.body + n * 2 ^ 32 }

/-- The candidates with their records moved forward, and the records moved with their counts. -/
def forwardPads (b : Nat) (w : Wall) (all : List (Nat × Sheaf)) : List (Nat × Sheaf) × List (Sheaf × Nat) :=
  let his := (unread w).map fun s =>
    match (all.filter fun e => e.1 / 64 == s / 64 && decide (s < e.1)) with
    | e :: _ => e.2.gen
    | [] => w.gra.genNext
  let recs := [0x40, 0x43, 0x42].flatMap fun t => (recordKeys all t).filterMap fun key =>
    match chosen all t key with
    | some (s :: _) =>
      let n := (his.filter fun h => decide (s.gen < h)).length
      if n = 0 ∨ s.tomb then none else some (s, n)
    | _ => none
  (all.map fun e => match recs.find? fun r => r.1 == e.2 with | some (_, n) => (e.1, padSheaf n b e.2) | none => e, recs)

/-! ### Values of Ledger records (R484, R493) -/

/-- Does the running code's range check take a stored value? Rules that compare several objects are left out. -/
def storedOk (row : ObjRow) (l : List Byte) : Bool :=
  let v := decodeVal row.type l
  (match row.type with | .text => utf8Ok l.length l | t => decide (l.length = tySize t)) && (encodingAbort row.type v).isNone &&
    rngOk row.type row.rng v && v &&& row.resv == 0 && !resvBad (rowId row) v

/-- One Ledger record at replay; KEK values are keys (R482). -/
def replayValue (index sub : Nat) (l : List Byte) (w : Wall) : Wall :=
  if 0x1220 ≤ index ∧ index < 0x1224 ∧ sub = 1 then
    match Config.aesKwUnwrap (Config.storageKey 0) l with
    | some k => ({ w with sec := { w.sec with keks := tput w.sec.keks (index - 0x1220) k } } : Wall).set (Reg.kekState (index - 0x1220)) 1
    | none => w
  else match findRow index sub objTable with
    | none => w
    | some (row, u, k) =>
      if row.kept ≠ .g then w
      else if row.type = .domain then
        match effectDom (rowId row) u (index * 256 + sub) l w with
        | .ok w' => w'
        | _ => w.bump Reg.suspectRecords 1
      else if storedOk row l then w.set (row.reg u k) (decodeVal row.type l)
      else w.bump Reg.suspectRecords 1

def replayValues (all : List (Nat × Sheaf)) (sus : List (Nat × Nat × Nat)) (w : Wall) : Wall :=
  [0x01, 0x44].foldl (fun w t => (recordKeys all t).foldl (fun w key =>
    match recordOf all sus t key with
    | none => w
    | some g => replayValue (key % 2 ^ 16) (key / 2 ^ 16 % 256) (groupBytes g) w) w) w

/-- A field of the 40 bytes of an Almanac record (R241). -/
def almOf (body seq : Nat) : AlmRec :=
  let f (lo n : Nat) : Nat := body / 2 ^ lo % 2 ^ n
  { kind := f 0 8, rate := f 8 8, unit := f 16 16, age := f 32 32, epoch := f 64 8, ctle := f 72 8, swing := f 80 8,
    temp := f 88 8, vcore := f 96 16, v := f 112 24, h := f 136 24, pv := f 160 8, ph := f 168 8, bitsLog2 := f 176 8,
    pErrLog2 := f 184 8, errors := f 192 32, action := f 224 8, old := f 232 8, new := f 240 16, deficit := f 256 32,
    seq := if seq % 2 ^ 16 = f 288 16 then f 288 32 else seq }

/-- Almanac records, oldest first (R241, R242). -/
def replayAlmanac (all : List (Nat × Sheaf)) (sus : List (Nat × Nat × Nat)) (w : Wall) : Wall :=
  let recs := [0x02, 0x03].flatMap fun t => (recordKeys all t).filterMap fun key =>
    match recordOf all sus t key with
    | some (s :: _) => some (almOf s.body s.rkey)
    | _ => none
  let insert (r : AlmRec) (l : List AlmRec) : List AlmRec :=
    (l.filter fun x => decide (x.age < r.age) || (x.age == r.age && decide (x.seq < r.seq))) ++ [r] ++
      l.filter fun x => decide (r.age < x.age) || (x.age == r.age && decide (r.seq ≤ x.seq))
  let w := recs.foldl (fun (w : Wall) r =>
    { w with lan := { w.lan with almanac := tput w.lan.almanac (almKey r.kind r.unit) (insert r (tgetD w.lan.almanac (almKey r.kind r.unit) [])) } }) w
  w.set Reg.almanacRecords recs.length

/-- The key-identifier register: its entries, with later reservations of theirs (R453, R493; log entry 40). -/
def replayKis (all : List (Nat × Sheaf)) (sus : List (Nat × Nat × Nat)) (w : Wall) : Wall :=
  let w := (recordKeys all 0x43).foldl (fun (w : Wall) key =>
    match recordOf all sus 0x43 key with
    | some (s :: _) =>
      let e : KiEntry := { ki := s.body % 2 ^ 128, fp := s.body / 2 ^ 128 % 2 ^ 64, ssci := s.body / 2 ^ 192 % 2 ^ 32,
                           reservedEnd := s.body / 2 ^ 224 % 2 ^ 64, age := s.gen }
      { w with sec := { w.sec with kis := tput w.sec.kis (key % 4096) e } }
    | _ => w) w
  let w := (recordKeys all 0x40).foldl (fun (w : Wall) key =>
    match recordOf all sus 0x40 key with
    | some (s :: _) =>
      let i := s.body % 2 ^ 16
      match tget w.sec.kis i with
      | some e =>
        if e.age < s.gen then
          let w : Wall := { w with sec := { w.sec with kis := tput w.sec.kis i { e with reservedEnd := max e.reservedEnd (pnOf s), age := s.gen } } }
          if e.reservedEnd < pnOf s then keepKi i w else w
        else w
      | none => w
    | _ => w) w
  ({ w with sec := { w.sec with kiClock := w.gra.genNext } } : Wall).set Reg.kiUsed w.sec.kis.length

/-! ### Keys in AES-KW form (R463, R468, R481, R482) -/

/-- Wrapped key of a durable SA record, as its CIPHER sizes it. -/
def saWrapped (g : List Sheaf) : Option (List Byte) :=
  match g.find? fun s => partOf 0x41 s.rkey == 0 with
  | some s => some (toLe (if s.body / 2 ^ 320 % 256 = 0 then 24 else 40) s.body)
  | none => none

def deviceWrapped (g : List Sheaf) : List Byte :=
  ([0, 1].flatMap fun i => match g.find? fun s => partOf 0x45 s.rkey == i with | some s => toLe 44 s.body | none => []).take 56

/-- Every wrapped key that this replay unwraps. -/
def wrappedKeys (all : List (Nat × Sheaf)) (sus : List (Nat × Nat × Nat)) (full : Bool) : List (List Byte) :=
  let sas := if full then (recordKeys all 0x41).filterMap fun key => (recordOf all sus 0x41 key).bind saWrapped else []
  let dev := ((recordKeys all 0x45).filterMap fun key => recordOf all sus 0x45 key).map deviceWrapped
  let keks := (List.range 4).filterMap fun k => (recordOf all sus 0x44 (0x1220 + k + 1 * 2 ^ 16)).map groupBytes
  sas ++ dev ++ keks

/-- An AES-KW integrity check of this replay fails (R468). -/
def unwrapFails (all : List (Nat × Sheaf)) (sus : List (Nat × Nat × Nat)) (full : Bool) : Bool :=
  (wrappedKeys all sus full).any fun l => (Config.aesKwUnwrap (Config.storageKey 0) l).isNone

/-- The device key pair: from its record, or drawn from the DRBG and committed (R463). -/
def replayDeviceKey (all : List (Nat × Sheaf)) (sus : List (Nat × Nat × Nat)) (w : Wall) : Wall :=
  let have_ := match recordOf all sus 0x45 0 with
    | some g => (Config.aesKwUnwrap (Config.storageKey 0) (deviceWrapped g)).map ofLe
    | none => none
  match have_ with
  | some k => ({ w with sec := { w.sec with deviceKey := some k } } : Wall).set Reg.devicePubkey (Config.publicPoint k)
  | none =>
    let k := Config.drbg w.sec.drbg
    let pub := Config.publicPoint k
    let w : Wall := { w with sec := { w.sec with deviceKey := some k, drbg := w.sec.drbg + 1 } }
    let l := Config.aesKwWrap (Config.storageKey 0) (toLe 48 k)
    askRecord 0x45 0 false [ofLe (l.take 44), ofLe (l.drop 44)] 3 .none ((w.set Reg.devicePubkey pub).emit (.deviceKeyDrawn pub))

/-! ### Durable SAs (R452) -/

/-- Resume one durable SA, whose key unwraps. -/
def resumeSa (all : List (Nat × Sheaf)) (sus : List (Nat × Nat × Nat)) (key : Nat) (w : Wall) : Wall :=
  let u := key % 512
  let k := key / 512 % 8 * 4 + key / 4096 % 4
  match recordOf all sus 0x41 key with
  | none => w
  | some g =>
    let p1 := match g.find? fun s => partOf 0x41 s.rkey == 1 with | some s => s.body | none => 0
    match (saWrapped g).bind (Config.aesKwUnwrap (Config.storageKey 0)) with
    | none => w
    | some plain =>
      let ssci := p1 / 2 ^ 128 % 2 ^ 32
      let salt := p1 / 2 ^ 160 % 2 ^ 96
      let base : Sa := { key := plain, durable := true, ki := none, salt := salt, ssci := ssci, nextPn := 0, reservedEnd := 0,
                         want := none, retry := false, stalled := false, warned := false, highest := 0, floor := 0,
                         pendingInstall := false, recordDue := false }
      let show_ (w : Wall) : Wall :=
        showSa u k (((((w.set (Reg.saKi u k) (p1 % 2 ^ 128)).set (Reg.saSsci u k) ssci).set (Reg.saSalt u k) salt).set
          (Reg.saDurable u k) 1).set (Reg.saInstall u k) 1)
      if k < 4 then
        match recordOf all sus 0x40 (resRkey u k) with
        | some (s :: _) =>
          let e := pnOf s
          requestIfLow u k (show_ (putSa u k { base with ki := some (s.body % 2 ^ 16), nextPn := e + 1, reservedEnd := e, stalled := true } w))
        | _ => w
      else
        let mark := match recordOf all sus 0x42 (saRkey u k) with
          | some (s :: _) => pnOf s
          | _ => (Reg.saNextPn u k).dflt
        show_ (putSa u k { base with highest := mark - 1, floor := mark } (w.set (Reg.saReservedEnd u k) mark))

/-- Every durable SA is resumed, but those whose record is suspect (R452). -/
def resumeSas (all : List (Nat × Sheaf)) (sus : List (Nat × Nat × Nat)) (w : Wall) : Wall :=
  let keys := recordKeys all 0x41
  let w := (keys.filter fun key => (chosen all 0x41 key).isSome && (recordOf all sus 0x41 key).isSome).foldl (fun w key => resumeSa all sus key w) w
  let bad := ((sus.filter fun x => x.1 == 0x41).map (·.2.1)).eraseDups.filter fun key => (recordOf all sus 0x41 key).isNone
  let w := bad.foldl (fun w key =>
    raise 0 0x0A03 (key % 512 + key / 4096 % 4 * 2 ^ 16 + key / 512 % 8 * 2 ^ 18) 15 w) w
  upTo 512 (fun u w =>
    let an := w.get (Reg.txEncodingAn u)
    if an = 0 ∨ (getSa u an w).isSome then w else w.set (Reg.txEncodingAn u) 0) w

/-! ### Images (R136, R573, R574) -/

def sectionSizes (kind : Nat) : Nat × Nat × Nat := if kind = 0 then (384, 256, 0) else if kind = 1 then (384, 128, 0) else (128, 0, 64)

/-- Where the macro program of an image begins. -/
def macroAt (kind : Nat) : Nat := 256 + (sectionSizes kind).1 + (sectionSizes kind).2.1 + (sectionSizes kind).2.2

/-- May a vendor address stand in a dispatch entry or handler: in ROM or in the vendor region (R557, R574)? -/
def vendorAddr (kind a : Nat) : Bool := decide (a < (if kind = 0 then 0x9000 else 0x4800))

def imgDispatch (kind op : Nat) (l : List Byte) : Option Nat :=
  if kind = 2 then (let a := img16 l (256 + 2 * (op - 0xC0)); if a = 0 then none else some a)
  else Config.vendorDispatch ((l.drop 256).take 384) op

def imgHandler (s : Nat) (l : List Byte) : Nat := img16 l (640 + 2 * s)
/-- Hook `n`: opcode in the low byte, operand above it; 0 unbound (R573). -/
def imgHook (n : Nat) (l : List Byte) : Nat := img16 l (384 + 2 * n)

/-- The structure of an image (R573, R574). -/
def imageShape (kind : Nat) (l : List Byte) : Bool :=
  let micro := img16 l 20
  let macros := img16 l 22
  (l.take 4 == [0x4D, 0x56, 0x58, 0x49]) && (l.getD 4 0).toNat == kind &&
    l.length == macroAt kind + 2 * macros + 4 * micro + 96 &&
    decide (macros ≤ if kind = 2 then 0 else 3072) && decide (micro ≤ if kind = 0 then 32768 else if kind = 1 then 16384 else 4096) &&
    (if kind = 2 then
      ((List.range 64).all fun i => match imgDispatch 2 (0xC0 + i) l with | some a => decide (0x4800 ≤ a) && decide (a ≤ 0x57FF) | none => true) &&
      ((List.range 32).all fun n =>
        let op := imgHook n l % 256
        op == 0 || (decide (0xC0 ≤ op) && (imgDispatch 2 op l).isSome))
    else
      ((List.range 128).all fun i => match imgDispatch kind (0x40 + i) l with | some a => vendorAddr kind a | none => true) &&
      ((List.range ((sectionSizes kind).2.1 / 2)).all fun s => vendorAddr kind (imgHandler s l)))

def hwRange (l : List Byte) (w : Wall) : Bool := decide (img16 l 8 ≤ w.get Reg.hwEpoch) && decide (w.get Reg.hwEpoch ≤ img16 l 10)

/-- The first of the current and the previous slot that passes; the slot number, and whether it is the previous one. -/
def pickSlot (kind : Nat) (ok : List Byte → Bool) (w : Wall) : Option (Nat × Bool × ShelfSlot) :=
  match currentSlot kind w with
  | none => none
  | some j =>
    match (slotOf kind j w).filter fun s => ok s.image with
    | some s => some (j, false, s)
    | none => ((slotOf kind (1 - j) w).filter fun s => ok s.image).map fun s => (1 - j, true, s)

/-- What step 6 has found (R136). -/
structure Found where
  bare : Nat
  reeve : Option (Bool × ShelfSlot)
  stwd : Option (Bool × ShelfSlot)

def findImages (readable forced : Bool) (w : Wall) : Found :=
  if forced then { bare := 4, reeve := none, stwd := none }
  else if !readable || !(w.gra.shelf.any fun e => e.2.valid) then { bare := 3, reeve := none, stwd := none }
  else match pickSlot 0 (fun l => imageSigned 0 l w && hwRange l w && imageShape 0 l) w with
    | none => { bare := 1, reeve := none, stwd := none }
    | some (_, pr, r) =>
      let e := img16 r.image 6
      match pickSlot 1 (fun l => imageSigned 1 l w && hwRange l w && imageShape 1 l && decide (img16 l 12 ≤ e) && decide (e ≤ img16 l 14)) w with
      | none => { bare := 2, reeve := none, stwd := none }
      | some (_, ps, s) => { bare := 0, reeve := some (pr, r), stwd := some (ps, s) }

/-- A table of `n` entries. -/
def tableOf (n : Nat) (f : Nat → Nat × Nat) : Tbl Nat := (List.range n).foldl (fun t i => tputD t (f i).1 0 (f i).2) []

/-- Load a vendor image into a sequencer (R557, R567, R573). -/
def loadVendor (kind u : Nat) (l : List Byte) (w : Wall) : Wall :=
  let at_ := macroAt kind
  let macros := img16 l 22
  let base := if kind = 0 then 0x1000 else 0x800
  let r := w.seq u
  w.setSeq u { r with
    dispatch := (List.range 128).foldl (fun t i => match imgDispatch kind (0x40 + i) l with | some a => tput t (0x40 + i) a | none => t) []
    handlers := (List.range ((sectionSizes kind).2.1 / 2)).foldl (fun t s => tput t s (imgHandler s l)) []
    macroMem := tableOf macros fun i => (0x400 + i, img16 l (at_ + 2 * i))
    micro := tableOf (img16 l 20) fun i => (base + i, ofLe ((l.drop (at_ + 2 * macros + 4 * i)).take 4))
    mpc := Config.vendorEntry 0 }

/-- Load the customer image into a steward; its hooks are the wall's (R567, R568). -/
def loadCustomer (u : Nat) (l : List Byte) (w : Wall) : Wall :=
  let r := w.seq u
  w.setSeq u { r with
    dispatch := (List.range 64).foldl (fun t i => match imgDispatch 2 (0xC0 + i) l with | some a => tput t (0xC0 + i) a | none => t) r.dispatch
    micro := (List.range (img16 l 20)).foldl (fun t i => tputD t (0x4800 + i) 0 (ofLe ((l.drop (macroAt 2 + 4 * i)).take 4))) r.micro }

/-- The customer image (R136, R567): the state of CUSTOMER_STATE, and its loading into the stewards. -/
def customerLoad (w : Wall) : Wall :=
  if (currentSlot 2 w).isNone then w.set Reg.customerState 0
  else match pickSlot 2 (fun l => imageSigned 2 l w && imageShape 2 l) w with
    | none => w.set Reg.customerState 3
    | some (_, prev, s) =>
      let major := (s.image.getD 16 0).toNat
      let minor := (s.image.getD 17 0).toNat
      let abi := w.get Reg.stewardAbi
      let active := major == abi / 256 && decide (minor ≤ abi % 256)
      let w := (w.set Reg.customerBuild (ofLe ((s.image.drop 32).take 16))).set Reg.customerAbi (major * 256 + minor)
      let w := if prev then w.setBitR Reg.imageSlots 2 else w
      let w : Wall := { w with gra := { w.gra with loadedGen := tput w.gra.loadedGen 2 s.gen } }
      if active then
        let w := upTo 16 (fun n w => (loadCustomer n s.image w).set (Reg.customerActive n) 1) (w.set Reg.customerState 1)
        { w with stw := { w.stw with hooks := tableOf 32 fun n => (n, if imgHook n s.image % 256 = 0 then 0 else imgHook n s.image) } }
      else w.set Reg.customerState 2

/-- Images loaded, or bare service selected (R131 step 7, R558). -/
def loadImages (f : Found) (w : Wall) : Wall :=
  match f.reeve, f.stwd with
  | some (pr, r), some (ps, s) =>
    let w := loadVendor 0 16 r.image w
    let w := upTo 16 (fun n w => loadVendor 1 n s.image w) w
    let w : Wall := { w with gra := { w.gra with loadedGen := tput (tput w.gra.loadedGen 0 r.gen) 1 s.gen } }
    let w := ((w.set Reg.reeveEpoch (img16 r.image 6)).set Reg.stewardEpoch (img16 s.image 6)).set Reg.stewardAbi
      ((s.image.getD 16 0).toNat * 256 + (s.image.getD 17 0).toNat)
    let w := (w.set Reg.reeveBuild (ofLe ((r.image.drop 32).take 16))).set Reg.stewardBuild (ofLe ((s.image.drop 32).take 16))
    customerLoad (w.set Reg.imageSlots (b2n pr + 2 * b2n ps))
  | _, _ => w.set Reg.customerState 4

/-! ### Steps of KINDLE -/

/-- KINDLE_FROM of a LAST_CAUSE (R154, R155). -/
def kindleFromOf (cause : Nat) : Nat :=
  if cause = 2 ∨ cause = 3 then 1 else if cause = 14 then 2 else if cause = 15 then 3 else if cause = 16 then 4 else 0

/-- Step 1 begins: everything volatile is lost, and the move into KINDLE is noted (R128, R155, R409). -/
def kindleStart (w : Wall) : Wall :=
  let c := w.bnd.cause % 256
  let w := noteMove (w.bnd.cause / 256) 2 c (freshWall w)
  (w.set Reg.kindleStep 1).set Reg.kindleFrom (kindleFromOf c)

/-- What the banks are found to hold: changed copies, and headers that do not stand (R479, R493, R501). -/
def readBanks (i : KindleIn) (w : Wall) : Wall :=
  let w := applyDamage i.damage w
  let w := if i.headerOk0 then w else bankFail 0 w
  let w := if i.headerOk1 then w else bankFail 1 w
  rebuildRows w

/-- SEALED from KINDLE: zeroisation follows at once, or waits for the write inhibit (R131 step 2, R471). -/
def zeroiseKindle (cause : Nat) (w : Wall) : Mode × Wall :=
  let w := zeroiseEngines cause w
  if w.bnd.inhibit then (.kindle, w)
  else (.sealedMode, sealWall .kindle (cause % 16) (zeroCause cause) (zeroiseGranary (cause % 16) w))

/-- Step 4: Bellhouse state comes back from a valid retention store (R145, R146, R584). -/
def restoreRetention (crcOk : Bool) (w : Wall) : Wall :=
  let t := w.gra.retention
  let ember := w.get Reg.kindleFrom == 1
  let w : Wall := { w with gra := { w.gra with retention := { valid := false, tick := 0, edges := [], enables := [], holdoffs := [] } } }
  if !ember then w
  else if !(t.valid && crcOk) then w.set Reg.kindleFrom 0
  else
    let ticks := w.bnd.emberTick - w.bnd.emberEntry
    let spent := ticks * 800000000 / 32768
    let w := w.set Reg.emberTicks ticks
    let w := t.edges.foldl (fun w e => w.set (Reg.bhPending e.1) (w.get (Reg.bhPending e.1) ||| e.2)) w
    let w := t.enables.foldl (fun w e => w.set (Reg.bhEnable e.1) e.2) w
    let w := t.holdoffs.foldl (fun w e =>
      if e.2 ≤ spent then w
      else
        let r := w.seq (e.1 / 8)
        w.setSeq (e.1 / 8) { r with holdoff := tput r.holdoff (e.1 % 8) (w.time.tclk + (e.2 - spent)) }) w
    latch 16 12 w

/-- The layout judgement (R136, R137): read-only above LAYOUT_MAX, migrated forward below it. -/
def judgeLayout (layoutMax : Nat) (w : Wall) : Wall :=
  let lay := foundLayout w
  let w := w.set Reg.layoutMax layoutMax
  if layoutMax < lay then (w.set Reg.granaryLayout lay).set Reg.granaryRo 1
  else
    let w := if headerIn 0 w = none ∧ headerIn 1 w = none then w else writeHeaders (fun h => { h with layout := layoutMax }) w
    w.set Reg.granaryLayout layoutMax

/-- Counters that replay itself moves (R154, R579, R626). -/
def replayCounts (all : List (Nat × Sheaf)) (sus : List (Nat × Nat × Nat)) (w : Wall) : Wall :=
  let marked : Bool := match recordOf all sus 0x01 (0x1483 + 1 * 2 ^ 16) with
    | some g => g.any fun s => partOf 0x01 s.rkey == 0 && s.body / 2 ^ 16 % 2 ^ 16 == 1
    | none => false
  let w := when marked (fun w => pumpQueue (pfailGroup (w.bump Reg.pfailCount 1))) w
  let w := commitReg Reg.kindleCount 4 (w.bump Reg.kindleCount 1)
  if w.get Reg.lastCause = 16 then
    let w := commitReg Reg.reeveWdCount 4 (w.bump Reg.reeveWdCount 1)
    digestEntry 0 0x0E0E (w.get Reg.reeveWdCount) w
  else w

/-- Records moved forward are committed again before an SA that uses them is resumed (R493). -/
def commitPads (pads : List (Sheaf × Nat)) (b : Nat) (w : Wall) : Wall :=
  if pads = [] then w
  else
    let w := pads.foldl (fun w p => askRecord p.1.type p.1.rkey false [(padSheaf p.2 b p.1).body] 3 .none w) w
    let w := w.bump Reg.forwardPads (pads.map (·.2)).sum
    raise 0 0x0B06 (pads.length % 2 ^ 16) 16 w

/-- Widths in force at KINDLE, in order of sub-port number (R256). -/
def kindleWidths (p : Nat) (w : Wall) : Wall :=
  upTo 8 (fun s w =>
    let v := w.get (Reg.spWidth p s)
    let taken := (List.range s).any fun q =>
      let x := w.get (Reg.widthInUse p q)
      decide (0 < x) && decide (2 * q < 2 * s + v) && decide (2 * s < 2 * q + x)
    if v = 0 then w.set (Reg.widthInUse p s) 0
    else if taken then
      daybook (stewardSrc (p / 4)) 0x0602 (p * 8 + s + 2 * 2 ^ 16) ((w.set (Reg.widthInUse p s) 0).set (Reg.downReason p s) 2)
    else w.set (Reg.widthInUse p s) v) w

def hostChunksInForce (p h : Nat) (w : Wall) : Wall :=
  { w with egr := { w.egr with hostChunks := tputD w.egr.hostChunks p 4096 h } }

/-- What the wall rebuilds from its objects before service (R256, R307, R364, R404, R213). -/
def kindleObjects (w : Wall) : Wall :=
  let w := upTo 64 (fun p w =>
    let w := kindleWidths p w
    let h := w.get (Reg.hostChunks p)
    let w := fecInForce p (hostChunksInForce p h w)
    let w := upTo 128 (fun s w => if shaperRate p s w = 0 then w else applyShaper p s w) w
    w.set (Reg.pipeCredits p) ((65536 - h) / 16)) w
  upTo 16 (fun b w =>
    let map := w.get (Reg.retiredMap b)
    (bitList map 68).foldl (fun w n => (setLaneSt (b * 68 + n) 12 (setUse (b * 68 + n) 3 w)).set (Reg.serves (b * 68 + n)) 0xFFFF) w) w

/-- A course or brick that fails its check at step 7 keeps its ports down (R142, R507). -/
def checkUnits (i : KindleIn) (w : Wall) : Wall :=
  let dead := (List.range 16).foldl (fun a b => if bit i.courseBad (courseOfBrick b) || bit i.brickBad b then setBit a b else a) 0
  let w := modBnd (fun x => { x with deadBricks := dead }) w
  let w := (bitList i.courseBad 4).foldl (fun w c => digestEntry 0 0x0E0D (7 + c * 2 ^ 8) w) w
  (bitList i.brickBad 16).foldl (fun w b => digestEntry 0 0x0E0D (7 + b * 2 ^ 8 + 2 ^ 16) w) w

/-- Step 8 brings up the sub-ports and the pool lanes of every brick that serves (R131, R135, R141, R216, R546). -/
def bringUp (w : Wall) : Wall :=
  let w := upTo 64 (fun p w => if bit w.bnd.deadBricks (p / 4) then w else grant p w) w
  let w := upTo 1088 (fun l w =>
    if laneUseOf l w = 1 ∧ bit w.bnd.refLanes (brickOfLane l) ∧ !bit w.bnd.deadBricks (brickOfLane l) then detectAlone l w else w) w
  upTo 512 (fun sp w =>
    if spWidthOf sp w = 0 then w
    else if w.flag (Reg.millEnable sp) then (if bareSvc w then setReason sp 12 w else enterMill sp w)
    else if bareSvc w && w.get (Reg.macsecPolicy sp) == 2 then setReason sp 11 w
    else enterDetect sp 0 w) w

/-- Steps 5 to 8, once the banks are read and no zeroisation is due. -/
def kindleService (i : KindleIn) (w : Wall) : Mode × Wall :=
  let all := replaySheaves w
  let sus := suspects w
  let w := (usedSlots w).foldl (fun w s => if rowRetired (s / 64) w then w else actJudge s w) (w.set Reg.kindleStep 5)
  let forced := match recordOf all sus 0x01 (0x1002 + 9 * 2 ^ 16) with | some g => groupBytes g == [1] | none => false
  let f := findImages i.shelfReadable forced w
  let layoutMax := match f.reeve with | some (_, r) => img16 r.image 18 | none => Config.romLayoutMax 0
  let w := judgeLayout layoutMax (w.set Reg.bare f.bare)
  let ok := !granaryShut w
  let b := match recordOf all sus 0x01 (0x1401 + 1 * 2 ^ 16) with | some g => 2 ^ ofLe (groupBytes g) | none => blockB w
  let pads := if ok then forwardPads b w all else (all, [])
  if ok && unwrapFails pads.1 sus (f.bare == 0) then sealNow 4 5 .kindle (latch 16 1 w)
  else
    let w := if ok then replayAlmanac all sus (replayValues all sus w) else w
    let w := if ok then replayKis pads.1 sus w else w
    let w := commitPads pads.2 b w
    let w := replayCounts all (if ok then sus else []) w
    let w := replayDeviceKey (if ok then all else []) sus w
    let w := w.set Reg.digestEntries w.gra.digest.length
    let w := modBnd (fun x => { x with avsRestoring := true }) (w.set Reg.replayUs i.replayUs)
    let w := checkUnits i (loadImages f w)
    let w := if ok && f.bare == 0 then resumeSas pads.1 sus w else w
    let w := upTo 16 (fun n w => if bit i.brickBad n then w else releaseSteward n w) w
    let w := w.setSeq 16 { w.seq 16 with kicked := w.time.tclk }
    let w := bringUp (kindleObjects w)
    (.service, noteMove 2 3 4 ((w.set Reg.kindleStep 8).set Reg.kindleUs i.kindleUs))

/-- KINDLE, from the first ROM fetch (R131 to R134, R502). -/
def kindle (i : KindleIn) (w : Wall) : Mode × Wall :=
  let w := kindleStart w
  if !i.romOk then (.kindle, w.set Reg.kindleStep 0xFF)
  else
    let w := readBanks i (w.set Reg.rootLocked 1)
    if i.zeroisePin ∨ w.bnd.zeroLatch then
      zeroiseKindle 1 (modBnd (fun b => { b with zeroLatch := true }) (w.set Reg.kindleStep 2))
    else if i.selftest ≠ 0 then
      let w := (w.set Reg.kindleStep 3).set Reg.selftestResult i.selftest
      (.sealedMode, zeroiseEngines 3 (sealWall .kindle 3 5 w))
    else
      let w : Wall := { w with sec := { w.sec with testsPassed := true } }
      let w := restoreRetention i.retentionCrcOk (w.set Reg.kindleStep 4)
      match markerOf w with
      | some c => zeroiseKindle (c % 16 + 16) (w.set Reg.kindleStep 5)
      | none => kindleService i w

/-- The root PLL locks: the Reeve's first ROM fetch (R41). Under an accepted PFAIL_N no step starts (R133). -/
def rootPllLock (i : KindleIn) (m : Mode) (w : Wall) : Mode × Wall :=
  if m = .kindle ∧ (w.bnd.waitRef ∨ w.bnd.fetchDue) ∧ !w.bnd.clocksStopped ∧ !w.bnd.pfail then
    kindle i (modBnd (fun b => { b with waitRef := false, fetchDue := false }) w)
  else (m, w)

/-! ### The end of a steward's restart (R577) -/

/-- Exchanges in progress are abandoned, roles held by surveys return, and groups between DETECT and EXCHANGE enter
DETECT again with their failure count unchanged. -/
def rebuildSteward (n : Nat) (w : Wall) : Wall :=
  let w := w.lan.surveys.foldl (fun w e => if brickOfLane e.1 = n then endSurvey e.1 w else w) w
  let w := w.lan.exchs.foldl (fun w e => if e.1 / 16 / 4 = n then abandon e.1 6 w else w) w
  (brickSps n).foldl (fun w sp =>
    match subGroup sp with
    | some g => if 1 ≤ spGrpSt sp w ∧ spGrpSt sp w ≤ 5 then enterDetect sp (failsOf g w) w else w
    | none => w) w

/-- What a steward's restart clears: the restart itself, its Tally sequence, and the image it could not reload. -/
def forgetRestart (n : Nat) (w : Wall) : Wall := { w with stw := { w.stw with restarting := tdel w.stw.restarting n } }

def forgetSeq (n : Nat) (w : Wall) : Wall := { w with obs := { w.obs with srcSeq := tdel w.obs.srcSeq (stewardSrc n) } }

def forgetImage (n : Nat) (w : Wall) : Wall := { w with gra := { w.gra with loadedGen := tput w.gra.loadedGen (16 + n) 0 } }

/-- Registers, data memory and I/O words are clear, and after cause 5 the image is reloaded from the slot of its install
generation, or without one gone (R577). -/
def restartLoads (n cause : Nat) (w : Wall) : Wall :=
  let gen := (tget w.gra.loadedGen 1).getD 0
  let slot := (w.gra.shelf.find? fun e => e.1 / 2 == 1 && e.2.valid && e.2.gen == gen).map (·.2)
  let reload := cause == 5 && !bareSvc w
  let w := w.setSeq n { w.seq n with g := [], t := [], data := [], io := [], trap := none }
  let w := forgetSeq n (forgetRestart n w)
  if reload then
    match slot with
    | some s =>
      let cust := (w.seq n).dispatch.filter fun e => decide (0xC0 ≤ e.1)
      let cmicro := (w.seq n).micro.filter fun e => decide (0x4800 ≤ e.1)
      let w := loadVendor 1 n s.image w
      w.setSeq n { w.seq n with dispatch := (w.seq n).dispatch ++ cust, micro := (w.seq n).micro ++ cmicro }
    | none =>
      let w := forgetImage n w
      w.setSeq n { w.seq n with dispatch := [], handlers := [], macroMem := [], micro := [] }
  else w

/-- A steward's restart is complete: its entry point runs on the state rebuilt from the datapath (R577). -/
def stewardRestartDone (n : Nat) (w : Wall) : Wall :=
  match tget w.stw.restarting n with
  | none => w
  | some cause =>
    let w := ((restartLoads n cause w).bump (Reg.stRestarts n) 1).set (Reg.stLastCause n) cause
    let w := rebuildSteward n (releaseSteward n w)
    raise (stewardSrc n) 0x0D01 (cause + w.get (Reg.stRestarts n) * 2 ^ 8) 17 w

end Sys2Proof.Machine
end

