-- ==== Sys2Proof/Machine/Events.lean ====
section
/-! DEFINITION. Events that several families share or that are short: lock and signal loss (R165, R170, R193), FEC and
header-lock limits (R272 to R274), the wall's own timers (R234, R243, R462, R626), self-tests and zeroisation on request
(R469, R471), the tick of a step without a command, and the ways a command's effect becomes an outcome. -/

namespace Sys2Proof.Machine

/-! ### From effects to outcomes -/

/-- The outcome of a command: a next state, always. -/
abbrev Outcome := Host.Outcome State Fault Refusal

/-- A command that changes the wall only. -/
def act (f : Wall → Wall) (s : State) : Outcome := .next { s with w := f s.w }

/-- A command that changes the wall only, by what the mode allows. -/
def actM (f : Mode → Wall → Wall) (s : State) : Outcome := .next { s with w := f s.mode s.w }

/-- A command whose event occurs only under a condition; elsewhere nothing changes. -/
def actIf (g : Mode → Wall → Bool) (f : Wall → Wall) (s : State) : Outcome :=
  .next { s with w := if g s.mode s.w then f s.w else s.w }

/-- The same, with an effect that depends on the mode. -/
def actIfM (g : Mode → Wall → Bool) (f : Mode → Wall → Wall) (s : State) : Outcome :=
  .next { s with w := if g s.mode s.w then f s.mode s.w else s.w }

/-- A command that may move the mode. -/
def actMove (f : Mode → Wall → Mode × Wall) (s : State) : Outcome :=
  .next { s with mode := (f s.mode s.w).1, w := (f s.mode s.w).2 }

/-- The conditions: clocks run; the Reeve serves; data ports are served; Dvor is served. -/
def reeveOn (m : Mode) (w : Wall) : Bool := awake m w && !halted w
def portsOn (m : Mode) (w : Wall) : Bool := inService m && awake m w
def dvorOn (m : Mode) (w : Wall) : Bool := reeveOn m w && (inService m || m == .sealedMode)

/-- A restart fault of the Reeve moves the wall to KINDLE at the end of the step (R576, R579). -/
def settleFault (m : Mode) (w : Wall) : Mode × Wall :=
  if w.stw.reeveFault then reeveRestart m { w with stw := { w.stw with reeveFault := false } } else (m, w)

/-- A macro-instruction or another event of a sequencer: nothing while the clocks stand still. -/
def actSeq (f : Mode → Wall → Wall) (s : State) : Outcome := actIfM awake f s

/-- One that may end in a restart fault. -/
def actSeqF (f : Mode → Wall → Wall) (s : State) : Outcome :=
  actMove (fun m w => if awake m w then settleFault m (f m w) else (m, w)) s

/-! ### References and the supply outside SERVICE -/

/-- REFLANE lost or back while no port is served: only its presence changes (R31). -/
def reflanePin (b : Nat) (present : Bool) (w : Wall) : Wall :=
  let w := modBnd (fun x => { x with refLanes := if present then setBit x.refLanes b else clrBit x.refLanes b }) w
  w.set Reg.reflanePresent w.bnd.refLanes

def reflaneEvent (b : Nat) (present : Bool) (m : Mode) (w : Wall) : Wall :=
  if m = .off ∨ m = .ember then w
  else if portsOn m w then (if present then reflaneRestored b w else reflaneLoss b w) else reflanePin b present w

/-- Before replay KINDLE holds nothing to commit: an accepted PFAIL_N only closes the queue (R37, R133). -/
def beforeReplay (m : Mode) (w : Wall) : Bool := m == .kindle && !(w.bnd.fetchDue && !w.bnd.waitRef)

def pfailEvent (m : Mode) (w : Wall) : Wall :=
  if m = .off ∨ m = .ember then w
  else if beforeReplay m w then setShut true (modBnd (fun b => { b with pfail := true, pfailHigh := false }) w)
  else pfailAccept w

/-- No sheaf is written while gclk stands still (R30). -/
def pfailDrainEvent (m : Mode) (w : Wall) : Wall :=
  if m = .off ∨ m = .ember then w
  else if clocksRun m w then pfailDrained m w
  else if w.bnd.pfail then setInhibit true w else w

def pfailReopenEvent (m : Mode) (w : Wall) : Wall :=
  if m = .off ∨ m = .ember then w
  else if beforeReplay m w then
    if w.bnd.pfail && w.bnd.pfailHigh then
      setShut false (setInhibit false (modBnd (fun b => { b with pfail := false, pfailHigh := false }) w))
    else w
  else pfailReopen w

/-! ### Lane events (R165, R170, R193, R198) -/

def cdrLock (l : Lane) (w : Wall) : Wall :=
  (w.setB (Reg.cdrLocked l.val) true).modLane l.val fun r => { r with lockedOnce := true }

/-- A lane that is lost to its role: a fault of an ACTIVE lane or of a pool lane (R193, R216). -/
def lostLane (l : Lane) (w : Wall) : Wall :=
  if laneSt l.val w = 6 ∨ laneUseOf l.val w = 1 then laneFault l w else w

/-- The CDR of a lane loses lock (R165). A slip of the gearbox counts for its port. -/
def cdrLockLoss (l : Lane) (slip : Bool) (w : Wall) : Wall :=
  if !w.flag (Reg.cdrLocked l.val) then w
  else
    let first := (w.lane l.val).lockedOnce
    let w := (w.bump (Reg.lockLosses l.val) 1).setB (Reg.cdrLocked l.val) false
    let w := match spOfLane l.val w with
      | some sp => when slip (fun w => w.bump (Reg.gearboxSlips (sp / 8)) 1) w
      | none => w
    let w := eyeSuspend l.val w
    if training (laneGroup l w) w then (if first then fail (laneGroup l w) 5 w else w) else lostLane l w

def signalLoss (l : Lane) (w : Wall) : Wall :=
  let w := w.setB (Reg.signalDetect l.val) false
  if training (laneGroup l w) w then fail (laneGroup l w) 5 w else lostLane l w

def gossipBad (l : Lane) (w : Wall) : Wall :=
  pcCount (brickOfLane l.val) 0x1A 1 none none (w.bump (Reg.gossipBad l.val) 1)

/-- Eight consecutive Gossip words are missing or discarded: a fault of an ACTIVE lane (R193). -/
def gossipLoss (l : Lane) (w : Wall) : Wall := if laneSt l.val w = 6 then laneFault l w else w

/-- A FEC window closes (R273): its counts, and a fault for each role at the limit. -/
def fecWindow (sp : SubPort) (roleCorrected : List Nat) (codewords corrected uncorrectable : Nat) (w : Wall) : Wall :=
  if !spUp sp.val w then w
  else
    let roles := (spRoles sp.val w).zip roleCorrected
    let w := fecCount sp.val roleCorrected codewords corrected uncorrectable w
    roles.foldl (fun w e =>
      if w.get (Reg.laneSerLimit (portOfSp sp.val)) ≤ e.2 then
        let l := laneOf (portOfSp sp.val) e.1 w
        let w := latch (brickOfSp sp.val) 5 w
        if h : l < 1088 then laneFault ⟨l, h⟩ w else w
      else w) w

/-- Header lock has not come back in time (R272). -/
def headerTimeout (sp : Nat) (w : Wall) : Wall :=
  if sp ∈ w.prt.lockLost ∧ !unplannedRuns sp w then downRetrain sp 5 (headerLockBack sp w) else w

/-- HIBER_LIMIT uncorrectable codewords within 1 ms (R274): not while they are not counted. -/
def hiBer (sp : Nat) (w : Wall) : Wall :=
  if spUp sp w ∧ sp ∉ w.prt.lockLost ∧ !unplannedRuns sp w then downRetrain sp 5 w else w

/-- No partner burst within 100 µs of the wall's own (R299). -/
def partnerTimeout (p : Nat) (w : Wall) : Wall :=
  if (w.quiet p).awaiting then
    let w := w.setQuiet p { w.quiet p with awaiting := false, phase := .none }
    ((portSps p w).filter fun sp => spUp sp w).foldl (fun w sp => downRetrain sp 10 w) w
  else w

/-! ### The wall's own timers -/

/-- ROUND_PERIOD_H hours of SERVICE_S have passed (R234). -/
def roundPeriod (w : Wall) : Wall := if roundMay w then startRound w else w

/-- Objects kept G that the wall commits "on change" (R626): its table's last row, and TX_ENCODING_AN while it names a
durable SA. -/
def onChange (row : ObjRow) (u : Nat) (w : Wall) : Bool :=
  let id := rowId row
  let other := [0x104003, 0x104202, 0x130002, 0x100205, 0x10020B, 0x148301, 0x60002F, 0x148303, 0x120102, 0x120201,
    0x122001, 0x122002, 0x123001, 0x140004, 0x140101, 0x140102, 0x144001, 0x144002, 0x144003, 0x144004, 0x145001,
    0x145002, 0x160008]
  if row.kept ≠ .g ∨ storable row then false
  else if id = 0x700007 then
    match getSa u (w.get (Reg.txEncodingAn u)) w with | some s => s.durable | none => false
  else decide (id < 0x700000) && !other.contains id

/-- 1 s after the first change not yet committed (R626). -/
def changeCommit (index sub : Nat) (w : Wall) : Wall :=
  match findRow index sub objTable with
  | none => w
  | some (row, u, k) =>
    if onChange row u w && !granaryShut w && !w.bnd.queueShut then
      let l := objBytes row index sub u k w
      let held := (storedBytes true index sub w).getD (defaultBytes row u k)
      if held = l then w else askLedger index sub l .none w
    else w

/-! ### Self-tests and zeroisation on request (R469, R471) -/

/-- SELFTEST_NOW served: its result answers it, and a failed row seals the wall with cause 4 (R469, R155). A mark
that no result of this run equals shows whether the write was accepted. -/
def selftestHead (failedRow : Nat) (m : Mode) (w : Wall) : Mode × Wall :=
  let row := failedRow % 256
  let mark := if row = 0 then 255 else 0
  let w' := serveIf (fun r => ownOf r == some .selftest) row m (w.set Reg.selftestResult mark)
  if w'.get Reg.selftestResult ≠ row then (m, w'.set Reg.selftestResult (w.get Reg.selftestResult))
  else if row = 0 then (m, w') else sealNow 4 6 m w'

/-- ZEROISE_NOW served: accepted, it stops the data ports and closes the sessions (R471). -/
def zeroiseHead (m : Mode) (w : Wall) : Wall :=
  let w' := serveOwn .zeroise m w
  if w.sec.zeroising.isNone && w'.sec.zeroising.isSome then zeroiseStart w' else w'

/-- A write of MODE_REQUEST served, and the move it asks for (R129, R130). -/
def modeHead (o : Own) (m : Mode) (w : Wall) : Mode × Wall := dueMove m (serveOwn o m w)

/-! ### Commits and scrubs -/

def storesOpen (m : Mode) (w : Wall) : Bool := clocksRun m w && w.sec.zeroising.isNone

def scrubOn (m : Mode) (w : Wall) : Bool := storesOpen m w && m != .kindle

def commitEvent (bad : Option (Fin 2)) (m : Mode) (w : Wall) : Wall := settle (sheafCommit bad m w)

/-! ### A step without a command (log entry 5) -/

/-- Is a course's dclk spine running (R26)? -/
def spineRuns (c : Nat) (m : Mode) (w : Wall) : Bool :=
  (m == .kindle || m == .service) && !w.bnd.clocksStopped &&
    (List.range 128).any fun k => spSt (c * 128 + k) w != 0

/-- Is there, in a brick, what event `ev` of R602 counts at every dclk? -/
def dclkLevel (b ev : Nat) (w : Wall) : Bool :=
  match ev with
  | 0x01 => true
  | 0x0D => anyEligible b w && courseCredits (courseOfBrick b) w == 0
  | 0x0E => decide (w.get (Reg.bufFree b) ≤ w.get (Reg.reserveCells b))
  | 0x16 => (List.range 4).any fun k => w.flag (Reg.panicNow (b * 4 + k))
  | _ => false

/-- Is a class paused that a counter's CONFIG selects (R600, R602 event 0x17)? -/
def pausedLevel (b cfg : Nat) (w : Wall) : Bool :=
  (List.range 32).any fun s => (List.range 8).any fun tc =>
    pcSelects cfg 0x17 (some s) (some tc) && classPaused (b * 32 + s) tc w

/-- The per-dclk events of a brick's counters over the two dclk of a tick. -/
def dclkCounts (b : Nat) (w : Wall) : Wall :=
  upTo 32 (fun k w =>
    if pcCounting b k w then
      let cfg := w.get (Reg.pcConfig b k)
      let ev := cfg % 256
      if (ev == 0x17 && pausedLevel b cfg w) || dclkLevel b ev w then pcAdd b k 2 w else w
    else w) w

/-- Once per second of tclk: SERVICE_S, and the countdown of an officer host session (R243, R462). -/
def secondTick (w : Wall) : Wall :=
  let n := w.get Reg.hostOfficerS
  (w.bump Reg.serviceS 1).set Reg.hostOfficerS (n - 1)

/-- One step of time: a tclk edge and what the running clocks do in it; in EMBER, where the ember oscillator alone
runs, one of its ticks. -/
def tick (m : Mode) (w : Wall) : Wall :=
  if !clocksRun m w then
    if m = .off ∨ !w.bnd.vembUp then w else modBnd (fun b => { b with emberTick := (b.emberTick + 1) % 2 ^ 48 }) w
  else
    let t := w.time.tclk
    let n := (t + 1) * 32768 / 800000000 - t * 32768 / 800000000
    let w := tickTime (modBnd (fun b => { b with emberTick := (b.emberTick + n) % 2 ^ 48 }) w)
    let w := if m = .kindle ∨ m = .service then { w with time := { w.time with dclk := w.time.dclk + 2 } } else w
    let w := upTo 16 (fun b w => if spineRuns (courseOfBrick b) m w then dclkCounts b w else w) w
    let w := if (t + 1) % 800000000 = 0 then secondTick w else w
    inbandTick w

end Sys2Proof.Machine
end

