-- ==== Sys2Proof/Machine/CmdFrames.lean ====
section
/-! DEFINITION. Commands of ingress (R308 to R362), egress (R363 to R404) and time (R405 to R433): one meaning per row
of the table. -/

namespace Sys2Proof.Machine

/-! ### Ingress -/

/-- No byte for 32 dclk: the open cell closes (R312). -/
def execCellIdleClose (sp : SubPort) : State → Outcome := actIf portsOn (closeCell sp.val)
/-- An eligible cell with a credit goes to the Pipe (R350). -/
def execCellSend (b : Brick) : State → Outcome := actIf portsOn (cellSend b.val)
/-- Cells have waited without credit (R351). -/
def execCreditStall (b : Brick) (us : Nat) : State → Outcome := actIf portsOn (creditStall b.val us)
/-- A Gleaner entry expires (R328). -/
def execGleanerExpiry (b : Brick) (entry : Fin 1024) : State → Outcome := actIf portsOn (gleanExpire b.val entry.val)
/-- A write of GLEAN_FLUSH is at the head (R328). -/
def execGleanFlush : State → Outcome := actM (serveOwn .gleanFlush)
/-- SIEVE_CMD OP 1 (R357). -/
def execSieveWriteShadow (b : Brick) (index : Fin 8192) : State → Outcome :=
  actIf windowOpen (sieveWriteShadow b.val index.val)
/-- SIEVE_CMD OP 2 (R357). -/
def execSieveWriteBoth (b : Brick) (index : Fin 8192) : State → Outcome := actIf windowOpen (sieveWriteBoth b.val index.val)
/-- SIEVE_CMD OP 3 (R357). -/
def execSieveReadShadow (b : Brick) (index : Fin 8192) : State → Outcome :=
  actIf windowOpen (sieveReadShadow b.val index.val)
/-- SIEVE_CMD OP 4 (R357). -/
def execSieveReadActive (b : Brick) (index : Fin 8192) : State → Outcome :=
  actIf windowOpen (sieveReadActive b.val index.val)
/-- SIEVE_CMD OP 5 (R357). -/
def execSieveInvalidateShadow (b : Brick) (index : Fin 8192) : State → Outcome :=
  actIf windowOpen (sieveInvalidateShadow b.val index.val)
/-- SIEVE_CMD OP 6 (R357). -/
def execSieveInvalidateBoth (b : Brick) (index : Fin 8192) : State → Outcome :=
  actIf windowOpen (sieveInvalidateBoth b.val index.val)
/-- A swap is asked for through the Ledger, whose write is at the head, or through a brick window (R337). -/
def execSieveSwap (window : Option Brick) : State → Outcome :=
  match window with
  | none => actM (serveOwn .sieveSwap)
  | some b => actIf windowOpen (swapWindow b.val)
/-- A swap ends (R337). -/
def execSieveSwapDone (b : Brick) : State → Outcome := actIf awake (swapDone b.val)
/-- A scrub compares an entry with its master copy (R339). -/
def execSieveScrubCompare (b : Brick) (bank : Fin 2) (index : Fin 8192) (m : Master) (forced : Bool) : State → Outcome :=
  actIf portsOn (scrubCompare b.val bank.val index.val m forced)
/-- A window write clears a hit counter (R355). -/
def execHitCountClear (b : Brick) (index : Fin 8192) : State → Outcome := actIf windowOpen (hitClear b.val index.val)
/-- A policer record is applied (R358). -/
def execPolicerApply (b : Brick) (index : Fin 1024) (value : Nat) : State → Outcome :=
  actIf windowOpen (policerApply b.val index.val value)

/-! ### Egress -/

/-- A sub-port asks for a selection (R375). -/
def execSchedulerSelect (sp : SubPort) : State → Outcome := actIf portsOn (schedulerSelect sp.val)
/-- The last byte of a frame leaves for the MAC (R377). -/
def execTxFrameDone (sp : SubPort) (departure : Nat) : State → Outcome := actIf portsOn (txFrameDone sp.val departure)
/-- A shaper leaves the calendar (R385). -/
def execCalendarRelease (p : Port) (shaper : Fin 128) : State → Outcome := actIf portsOn (calendarRelease p.val shaper.val)
/-- An operating gate entry ends (R392). -/
def execGateEntryChange (sp : SubPort) : State → Outcome := actIf portsOn (gateEntryChange sp.val)
/-- A scheduled change time arrives (R393). -/
def execGateConfigChange (sp : SubPort) : State → Outcome := actIf portsOn (gateConfigChange sp.val)
/-- CONFIG_CHANGE := 1 is at the head (R393). -/
def execGateSchedule : State → Outcome := actM (serveOwn .gateSchedule)
/-- CONFIG_CHANGE := 2 is at the head (R393). -/
def execGateCancel : State → Outcome := actM (serveOwn .gateCancel)
/-- A window write clears DROPS of a queue (R399). -/
def execQueueDropsClear (p : Port) (q : Fin 64) : State → Outcome := actIf windowOpen (queueDropsClear p.val q.val)
/-- A shaper record's last word is written (R383, R400): the staged record is applied; every bit of that word is
reserved. -/
def execShaperApply (p : Port) (shaper : Fin 128) (_value : Nat) : State → Outcome :=
  actIf windowOpen (shaperApplyWin p.val shaper.val)

/-! ### Time -/

/-- The resync instant of each microsecond (R410). -/
def execTimeResync : State → Outcome := actIf clocksRun resync
/-- A write of TIME_SET is at the head (R412). -/
def execTimeSet : State → Outcome := actM (serveOwn .timeSet)
/-- A write of TIME_STEP is at the head (R412). -/
def execTimeStep : State → Outcome := actM (serveOwn .timeStep)
/-- A write of FREQ_ADJ_PPT is at the head (R406). -/
def execFreqAdjWrite : State → Outcome := actM (serveOwn .freqAdj)
/-- A read of TX_STAMP_NEXT is at the head (R426). -/
def execTxStampNextRead : State → Outcome := actM (serveOwn .stampRead)

end Sys2Proof.Machine
end

