-- ==== Sys2Proof/Machine/CmdLanes.lean ====
section
/-! DEFINITION. Commands of lanes and training (R157 to R212), of repointing, the round and the Almanac (R213 to R252,
R629) and of ports and sub-ports (R253 to R307): one meaning per row of the table. -/

namespace Sys2Proof.Machine

/-! ### Lanes and training -/

/-- Every lane of a group in DETECT senses its partner (R169). -/
def execDetectDone (g : Group) : State → Outcome := actIf portsOn (detectDone g)
/-- The 1 ms DETECT timer expires (R169). -/
def execDetectTimeout (g : Group) : State → Outcome := actIf portsOn (detectTimeout g)
/-- The 20 ms PAM2 timer expires (R169). -/
def execPam2Timeout (g : Group) : State → Outcome := actIf portsOn (pam2Timeout g)
/-- The 60 ms timer of PAM2 to LOCKED expires (R169). -/
def execTrainingTimeout (g : Group) : State → Outcome := actIf portsOn (trainingTimeout g)
/-- The 5 ms EXCHANGE timer expires (R169). -/
def execExchangeTimeout (g : Group) : State → Outcome := actIf portsOn (exchangeTimeout g)
/-- A back-off ends (R171). -/
def execBackoffExpiry (g : Group) : State → Outcome := actIf portsOn (backoffExpiry g)
/-- A listening group's burst is due (R172). -/
def execListeningBurst (g : Group) : State → Outcome := actIf portsOn (listeningBurst g)
/-- A group has been ACTIVE for 10 s (R173). -/
def execActiveHoldExpiry (sp : SubPort) : State → Outcome := actIf portsOn (activeHold sp.val)
/-- A write of TRAIN_RESTART is at the head (R174). -/
def execTrainRestart : State → Outcome := actM (serveOwn .trainRestart)
/-- A training frame is received (R179). -/
def execTrainingFrame (l : Lane) (good : Bool) (msg : List Byte) (invertedOnly : Bool) : State → Outcome :=
  actIf portsOn (trainingFrame l good msg invertedOnly)
/-- A HELLO message is accepted (R182). -/
def execHello (l : Lane) (rates role seed : Nat) : State → Outcome := actIf portsOn (helloHeard l rates role seed)
/-- A READY training frame is received (R182). -/
def execTrainingReady (l : Lane) (count : Nat) : State → Outcome := actIf portsOn (readyHeard l count)
/-- READY with COUNT 0 has been sent (R182). -/
def execReadyCountdownEnd (l : Lane) : State → Outcome := actIf portsOn (readyEnd l)
/-- The receiver is ready in PAM4 (R184). -/
def execRxReady (l : Lane) (coarse fine : List Nat) : State → Outcome := actIf portsOn (rxReadySet l coarse fine)
/-- The COUNT 0 training frame has been sent (R185). -/
def execTrainingCountdownEnd (l : Lane) : State → Outcome := actIf portsOn (trainingEnd l)
/-- Block lock on every lane of a group (R271). -/
def execBlockLock (g : Group) : State → Outcome := actIf portsOn (blockLock g)
/-- A CDR declares lock (R165). -/
def execCdrLock (l : Lane) : State → Outcome := actIf portsOn (cdrLock l)
/-- A CDR loses lock (R165). -/
def execCdrLockLoss (l : Lane) (slip : Bool) : State → Outcome := actIf portsOn (cdrLockLoss l slip)
/-- Signal detect is lost for 100 ns (R170, R193). -/
def execSignalDetectLoss (l : Lane) : State → Outcome := actIf portsOn (signalLoss l)
/-- A STATUS word (R188). -/
def execGossipStatus (l : Lane) (exch payload : Nat) : State → Outcome := actIf portsOn (statusHeard l exch payload)
/-- The sub-port of the lane a capability word came on hears it (R190). -/
def onLaneSp (l : Lane) (f : Nat → Wall → Wall) (w : Wall) : Wall :=
  match spOfLane l.val w with | some sp => f sp w | none => w
/-- An OFFER word (R191). -/
def execGossipOffer (l : Lane) (exch payload : Nat) : State → Outcome :=
  actIf portsOn (onLaneSp l fun sp => offerHeard sp exch payload)
/-- An ACCEPT word (R191). -/
def execGossipAccept (l : Lane) (exch payload : Nat) : State → Outcome :=
  actIf portsOn (onLaneSp l fun sp => acceptHeard sp exch payload)
/-- A CONFIRM word (R191); its payload repeats the set. -/
def execGossipConfirm (l : Lane) (exch _payload : Nat) : State → Outcome :=
  actIf portsOn (onLaneSp l fun sp => confirmHeard sp exch)
/-- A SPARE word (R217). -/
def execGossipSpare (l : Lane) (payload : Nat) : State → Outcome := actIf portsOn (spareHeard l payload)
/-- A PREPARE word (R225). -/
def execGossipPrepare (l : Lane) (exch payload : Nat) : State → Outcome := actIf portsOn (prepareHeard l exch payload)
/-- An exchange READY word (R225). -/
def execGossipReady (l : Lane) (exch payload : Nat) : State → Outcome := actIf portsOn (exchReady l exch payload)
/-- A ROLL copy (R221). -/
def execGossipRoll (l : Lane) (exch payload codeword : Nat) : State → Outcome :=
  actIf portsOn (rollHeard l exch payload codeword)
/-- A ROLLED word (R225). -/
def execGossipRolled (l : Lane) (exch payload : Nat) : State → Outcome := actIf portsOn (rolledHeard l exch payload)
/-- A REFUSE word (R223). -/
def execGossipRefuse (l : Lane) (exch payload : Nat) : State → Outcome := actIf portsOn (refuseHeard l exch payload)
/-- A SURVEY word (R236); its EXCH is that of an exchange that has ended. -/
def execGossipSurvey (l : Lane) (_exch payload : Nat) : State → Outcome := actIf portsOn (surveyHeard l payload)
/-- A RETIRE word (R232). -/
def execGossipRetire (l : Lane) (payload : Nat) : State → Outcome := actIf portsOn (retireHeard l payload)
/-- A Gossip word is bad (R187). -/
def execGossipBadWord (l : Lane) : State → Outcome := actIf portsOn (gossipBad l)
/-- Gossip is lost on a lane (R193). -/
def execGossipLoss (l : Lane) : State → Outcome := actIf portsOn (gossipLoss l)
/-- A FEC window of 4 µs closes (R273). -/
def execFecWindowEnd (sp : SubPort) (roleCorrected : List Nat) (codewords corrected uncorrectable : Nat) :
    State → Outcome := actIf portsOn (fecWindow sp roleCorrected codewords corrected uncorrectable)
/-- TEST_ENABLE := 1 is at the head (R199). -/
def execLaneTestStart : State → Outcome := actM (serveOwn .testStart)
/-- TEST_ENABLE := 0 is at the head (R199). -/
def execLaneTestStop : State → Outcome := actM (serveOwn .testStop)
/-- A write of PRBS_CLEAR is at the head (R201). -/
def execPrbsClear : State → Outcome := actM (serveOwn .prbsClear)
/-- A PRBS checker gains or loses lock (R201). -/
def execPrbsCheckerLock (l : Lane) (gained : Bool) (bits errors : Nat) : State → Outcome :=
  actIf portsOn (prbsCheck l.val gained bits errors)
/-- A write of EYE_CTRL is at the head (R202). -/
def execEyeScanStart : State → Outcome := actM (serveOwn .eyeStart)
/-- An eye scan finishes its grid (R204). -/
def execEyeScanDone (l : Lane) (counts : List Nat) : State → Outcome := actIf portsOn (eyeDone l.val counts)
/-- A suspended scan resumes (R198). -/
def execEyeScanResume (l : Lane) : State → Outcome := actIf portsOn (eyeResume l.val)
/-- A scan has been suspended for 1 s (R198). -/
def execEyeScanAbort (l : Lane) : State → Outcome := actIf portsOn (eyeAbort l.val)
/-- A field lane reaches block lock (R207). -/
def execFieldLaneUp (f : Fin 2) : State → Outcome := actIfM reeveOn (fieldUp f.val)
/-- A field lane loses block lock (R207). -/
def execFieldLaneDown (f : Fin 2) : State → Outcome := actIf reeveOn (fieldDown f.val)
/-- A field lane tries again (R207): a try leaves the wall as it is; its success is FIELD_LANE_UP. -/
def execFieldLaneRetry (_f : Fin 2) : State → Outcome := act id
/-- A write of F_RATE, F_FEC or F_POLARITY is at the head (R208). -/
def execFieldLaneConfigWrite : State → Outcome := actM (serveOwn .fieldConfig)

/-! ### Repointing, the round, the Almanac -/

/-- A pool lane's burst is due (R216). -/
def execSpareBurst (l : Lane) : State → Outcome := actIf portsOn (spareBurst l)
/-- A pool lane fails (R216). -/
def execSpareFault (l : Lane) : State → Outcome := actIf portsOn (spareFault l.val)
/-- 100 µs of comparison without mismatch (R225). -/
def execBridgeCompareDone (p : Port) (role : Reg4) : State → Outcome := actIf portsOn (bridgeDone p.val role.val)
/-- The roll codeword arrives (R225). -/
def execRollCodeword (p : Port) (role : Reg4) (shift : Int) : State → Outcome :=
  actIf portsOn (rollCodeword p.val role.val shift)
/-- No ROLLED 16 µs after the roll codeword (R226). -/
def execRollTimeout (p : Port) (role : Reg4) : State → Outcome := actIf portsOn (rollTimeout p.val role.val)
/-- The receiver has deskewed the spare (R228). -/
def execSpareDeskewed (p : Port) (role : Reg4) (shift : Int) (interruptNs : Nat) : State → Outcome :=
  actIf portsOn (spareDeskewed p.val role.val shift interruptNs)
/-- The retest wait of a held lane ends (R231). -/
def execRetestStart (l : Lane) : State → Outcome := actIf portsOn (retestStart l)
/-- A retest's measurement completes (R231). -/
def execRetestMeasured (l : Lane) (m : SurveyMeas) : State → Outcome := actIf portsOn (retestMeasured l m)
/-- A write of RETIRE_CLEAR is at the head (R232). -/
def execRetireClear : State → Outcome := actM (serveOwn .retireClear)
/-- ROUND_NOW := 1 is at the head (R234). -/
def execRoundNow : State → Outcome := actM (serveOwn .roundNow)
/-- ROUND_PERIOD_H hours have passed (R234). -/
def execRoundPeriodExpiry : State → Outcome := actIf portsOn roundPeriod
/-- A brick comes to its next lane (R236). -/
def execSurveyStart (b : Brick) : State → Outcome := actIf portsOn (surveyStart b.val)
/-- A survey period ends (R236). -/
def execSurveyPrbsEnd (b : Brick) (m : SurveyMeas) (remeasured again : Option SurveyMeas) : State → Outcome :=
  actIf portsOn (surveyPrbsEnd b.val m remeasured again)
/-- A write of SURVEY_NOW is at the head (R251). -/
def execSurveyNow : State → Outcome := actM (serveOwn .surveyNow)
/-- The tell-tales have been counted (R240). -/
def execTelltaleMeasure (stressed reference : List Nat) : State → Outcome := actIf portsOn (telltale stressed reference)
/-- An hour of SERVICE_S has passed (R243). -/
def execServiceSHourly : State → Outcome := actIf reeveOn (serviceGroup 0)
/-- A write of SPARE_RATE is at the head (R629). -/
def execSpareRateWrite : State → Outcome := actM (serveOwn .spareRate)

/-! ### Ports and sub-ports -/

/-- A write of PORT_RESTART is at the head (R256). -/
def execPortRestart : State → Outcome := actM (serveOwn .portRestart)
/-- A write of SP_ADMIN is at the head (R300). -/
def execSpAdminWrite : State → Outcome := actM (serveOwn .spAdmin)
/-- Header lock is lost (R272). -/
def execHeaderLockLoss (sp : SubPort) : State → Outcome := actIf portsOn (headerLockLoss sp.val)
/-- Header lock has not come back in time (R272). -/
def execHeaderLockTimeout (sp : SubPort) : State → Outcome := actIf portsOn (headerTimeout sp.val)
/-- Header lock comes back (R272). -/
def execHeaderLockRegained (sp : SubPort) : State → Outcome := actIf portsOn (headerLockBack sp.val)
/-- HIBER_LIMIT uncorrectable codewords within 1 ms (R274). -/
def execHiBer (sp : SubPort) : State → Outcome := actIf portsOn (hiBer sp.val)
/-- A frame is received (R308 to R346). -/
def execRxFrame (f : RxFrame) : State → Outcome := actIf portsOn (rxFrame f)
/-- A PAUSE frame is received (R287). -/
def execPauseFrameRx (sp : SubPort) (quanta : Nat) : State → Outcome := actIf portsOn (pauseRx sp.val quanta)
/-- A PFC frame is received (R287). -/
def execPfcFrameRx (sp : SubPort) (enable : Nat) (times : List Nat) : State → Outcome :=
  actIf portsOn (pfcRx sp.val enable times)
/-- A class's pause time runs out (R287). -/
def execPauseExpiry (sp : SubPort) (tc : Fin 8) : State → Outcome := actIf portsOn (pauseExpiry sp.val tc.val)
/-- A pause frame is due again (R289). -/
def execPfcRefresh (sp : SubPort) (tc : Fin 8) : State → Outcome := actIf portsOn (pfcRefresh sp.val tc.val)
/-- QUIET_IDLE_US have passed without a frame (R293). -/
def execQuietIdleExpiry (p : Port) : State → Outcome := actIf portsOn (quietIdle p.val)
/-- Low-power idle on every active sub-port (R294). -/
def execLpiReceived (p : Port) : State → Outcome := actIf portsOn (lpiReceived p.val)
/-- A quiet request is unanswered (R295). -/
def execQuietHandshakeTimeout (p : Port) : State → Outcome := actIf portsOn (quietTimeout p.val)
/-- Idle after low-power idle (R295). -/
def execIdleAfterLpi (p : Port) : State → Outcome := actIf portsOn (idleAfterLpi p.val)
/-- The partner's wake burst (R298). -/
def execPartnerWakeBurst (p : Port) : State → Outcome := actIf portsOn (partnerBurst p.val)
/-- A wake is complete (R298). -/
def execQuietWakeComplete (p : Port) : State → Outcome := actIf portsOn (wakeComplete p.val)
/-- No partner burst came (R299). -/
def execPartnerWakeTimeout (p : Port) : State → Outcome := actIf portsOn (partnerTimeout p.val)

end Sys2Proof.Machine
end

