-- ==== Sys2Proof/Machine/CmdStores.lean ====
section
/-! DEFINITION. Commands of MACsec and security (R434 to R476), of the Granary (R477 to R511, R626) and of the host rings
and the Mill (R512 to R556, R587, R588): one meaning per row of the table. -/

namespace Sys2Proof.Machine

/-! ### MACsec and security -/

/-- INSTALL := 1 is at the head (R442). -/
def execSaInstall : State → Outcome := actM (serveOwn .saInstall)
/-- INSTALL := 0 is at the head (R444). -/
def execSaRemove : State → Outcome := actM (serveOwn .saRemove)
/-- A write of TX_ENCODING_AN is at the head (R443). -/
def execEncodingAnWrite : State → Outcome := actM (serveOwn .encodingAn)
/-- A reservation sheaf is committed in both banks (R448). -/
def execPnReservationCommit (sp : SubPort) (an : Fin 4) : State → Outcome := actIf reeveOn (reservationCommit sp.val an.val)
/-- A refused reservation request is retried (R448). -/
def execPnReservationRetry (sp : SubPort) (an : Fin 4) : State → Outcome := actIf reeveOn (reservationRetry sp.val an.val)
/-- A write of KEK_VALUE is at the head (R474). -/
def execKekInstall : State → Outcome := actM (serveOwn .kekInstall)
/-- A write of KEK_CLEAR is at the head (R474). -/
def execKekClear : State → Outcome := actM (serveOwn .kekClear)
/-- A write of KI_FORGET is at the head (R454). -/
def execKiForget : State → Outcome := actM (serveOwn .kiForget)
/-- SELFTEST_NOW := 1 is at the head (R469). -/
def execSelftestNow (failedRow : Nat) : State → Outcome := actMove (selftestHead failedRow)
/-- A write of ZEROISE_NOW is at the head (R471). -/
def execZeroiseNow : State → Outcome := actM zeroiseHead
/-- The key partition has been overwritten and reads as zero (R471). -/
def execZeroisationComplete : State → Outcome := actMove zeroisationComplete
/-- A write of HOST_OFFICER_S is at the head (R462). -/
def execHostOfficerSWrite : State → Outcome := actM (serveOwn .officer)
/-- The HOST_OFFICER_S countdown reaches 0 (R462). -/
def execHostOfficerExpiry : State → Outcome := actIf reeveOn fun w => w.set Reg.hostOfficerS 0
/-- The daily known-answer test of an engine (R468). -/
def execMacsecKatDaily (_p : Port) (ok : Bool) : State → Outcome :=
  actMove fun m w => if ok || !reeveOn m w then (m, w) else continuousFail m w
/-- A conditional or continuous test fails (R468). -/
def execContinuousTestFail : State → Outcome := actMove continuousFail
/-- A tamper event (R470). -/
def execTamperEvent : State → Outcome := actMove tamper

/-! ### Granary -/

/-- The next sheaf by rank is committed (R490, R491). -/
def execSheafCommit (readbackBad : Option (Fin 2)) : State → Outcome := actIfM storesOpen (commitEvent readbackBad)
/-- A day of SERVICE_S has passed (R498). -/
def execWearProjection : State → Outcome := actIf scrubOn wearProjection
/-- The scrub reads both copies of a slot (R500). -/
def execGranaryScrubRead (slot : Nat) (damage : List Damage) : State → Outcome := actIfM scrubOn (scrubRead slot damage)
/-- VGRAN is not good (R492). -/
def execVgranLoss : State → Outcome := actM vgranLoss
/-- VGRAN has been good for 1 ms (R492). -/
def execVgranRestored : State → Outcome := actM vgranRestored
/-- VGRAN has not been good for 1 s (R492, R501). -/
def execVgranFailTimeout : State → Outcome := actM fun m w => settle (vgranFailTimeout m w)
/-- 1 s after the first uncommitted change of a wall-kept object (R626). -/
def execChangeCommitTimer (index sub : Nat) : State → Outcome := actIf reeveOn (changeCommit index sub)
/-- The store allowance refills (R499). -/
def execAllowanceRefill : State → Outcome := actIf reeveOn allowanceRefill
/-- The digest bucket regains an entry (R507). -/
def execDigestBucketRefill : State → Outcome := actIf reeveOn digestRefill
/-- A write of SHELF_ROLLBACK is at the head (R506). -/
def execShelfRollback : State → Outcome := actM (serveOwn .rollback)

/-! ### Rings and the Mill -/

/-- RING_TAIL is written (R517). -/
def execRingDoorbell (d : RingDir) (i : RingNo) (value : Nat) : State → Outcome :=
  actIf windowOpen (ringDoorbell (ringKey d i.val) value)
/-- CTRL sets ENABLE from 0 to 1 (R516); a value or a ring of which that is not true is a plain write of CTRL. -/
def execRingEnable (d : RingDir) (i : RingNo) (ctrl : Nat) : State → Outcome :=
  actIf windowOpen (ringCtrlAny (ringKey d i.val) ctrl)
/-- CTRL sets ENABLE from 1 to 0 (R516). -/
def execRingDisable (d : RingDir) (i : RingNo) (ctrl : Nat) : State → Outcome :=
  actIf windowOpen (ringCtrlAny (ringKey d i.val) ctrl)
/-- A disabled ring has nothing outstanding (R516). -/
def execRingStopped (d : RingDir) (i : RingNo) : State → Outcome := actIf awake (ringStopped (ringKey d i.val))
/-- A descriptor group arrives (R520). -/
def execDescriptorFetchDone (d : RingDir) (i : RingNo) (descs : List Nat) : State → Outcome :=
  actIf portsOn (descDone d i.val descs)
/-- A transmit frame's data arrives (R520). -/
def execTxDataReadDone (i : RingNo) (data : List Byte) : State → Outcome := actIf portsOn (txDataDone i.val data)
/-- A frame is delivered to a receive ring (R532). -/
def execRxRingDeliver (i : RingNo) : State → Outcome := actIf portsOn (rxDeliver i.val)
/-- A vector's moderation condition is met (R540). -/
def execVectorDelivery (v : Fin 256) : State → Outcome := actIf reeveOn (vectorDeliver v.val)
/-- MILL_ENABLE := 1 is at the head (R546). -/
def execMillEnable : State → Outcome := actM (serveOwn .millEnable)
/-- MILL_ENABLE := 0 is at the head (R552). -/
def execMillDisable : State → Outcome := actM (serveOwn .millDisable)
/-- The Mill of a sub-port has drained (R552). -/
def execMillDrained (sp : SubPort) : State → Outcome := actIf portsOn (millDrained sp.val)
/-- A Mill frame passes the check-value unit (R543). -/
def execMillFrame (b : Brick) : State → Outcome := actIf portsOn (millFrame b.val)
/-- The head Mill frame is too large (R549). -/
def execMillOversize (b : Brick) : State → Outcome := actIf portsOn (millOversize b.val)
/-- A write of ENABLE_LO or ENABLE_HI (R588). -/
def execHostBhEnableWrite (hi : Bool) (value : Nat) : State → Outcome := actIf windowOpen (hostEnable hi value)
/-- A write of CLEAR_LO or CLEAR_HI (R588). -/
def execHostBhClear (hi : Bool) (value : Nat) : State → Outcome := actIf windowOpen (hostClear hi value)

end Sys2Proof.Machine
end

