-- ==== Sys2Proof/Machine/CmdUnits.lean ====
section
/-! DEFINITION. Commands of the sequencers (R557 to R592) and of observability (R593 to R625): one meaning per row of
the table. -/

namespace Sys2Proof.Machine

/-! ### Macro-instructions (R560) -/

/-- NOP (R560). -/
def execMNop (u : Seqr) : State → Outcome := actSeq (mNop u.val)
/-- MOV (R560). -/
def execMMov (u : Seqr) (d s : Reg4) : State → Outcome := actSeq (mMov u.val d.val s.val)
/-- LDI (R560). -/
def execMLdi (u : Seqr) (imm : Byte) : State → Outcome := actSeq (mLdi u.val imm)
/-- LDH (R560). -/
def execMLdh (u : Seqr) (imm : Byte) : State → Outcome := actSeq (mLdh u.val imm)
/-- ADD (R560). -/
def execMAdd (u : Seqr) (d s : Reg4) : State → Outcome := actSeq (mAdd u.val d.val s.val)
/-- SUB (R560). -/
def execMSub (u : Seqr) (d s : Reg4) : State → Outcome := actSeq (mSub u.val d.val s.val)
/-- AND (R560). -/
def execMAnd (u : Seqr) (d s : Reg4) : State → Outcome := actSeq (mAnd u.val d.val s.val)
/-- OR (R560). -/
def execMOr (u : Seqr) (d s : Reg4) : State → Outcome := actSeq (mOr u.val d.val s.val)
/-- XOR (R560). -/
def execMXor (u : Seqr) (d s : Reg4) : State → Outcome := actSeq (mXor u.val d.val s.val)
/-- SHL (R560). -/
def execMShl (u : Seqr) (d s : Reg4) : State → Outcome := actSeq (mShl u.val d.val s.val)
/-- SHR (R560). -/
def execMShr (u : Seqr) (d s : Reg4) : State → Outcome := actSeq (mShr u.val d.val s.val)
/-- CMP (R560). -/
def execMCmp (u : Seqr) (d s : Reg4) : State → Outcome := actSeq (mCmp u.val d.val s.val)
/-- ADDQ (R560). -/
def execMAddq (u : Seqr) (d : Reg4) (imm : Fin 16) : State → Outcome := actSeq (mAddq u.val d.val imm.val)
/-- SUBQ (R560). -/
def execMSubq (u : Seqr) (d : Reg4) (imm : Fin 16) : State → Outcome := actSeq (mSubq u.val d.val imm.val)
/-- LD (R560). -/
def execMLd (u : Seqr) (d s : Reg4) : State → Outcome := actSeqF (mLd u.val d.val s.val)
/-- ST (R560). -/
def execMSt (u : Seqr) (d s : Reg4) : State → Outcome := actSeqF (mSt u.val d.val s.val)
/-- IN (R560). -/
def execMIn (u : Seqr) (d s : Reg4) : State → Outcome := actSeq (mIn u.val d.val s.val)
/-- OUT (R560). -/
def execMOut (u : Seqr) (d s : Reg4) : State → Outcome := actSeq (mOut u.val d.val s.val)
/-- BR (R560). -/
def execMBr (u : Seqr) (off : Byte) : State → Outcome := actSeq (mBr u.val off)
/-- BZ (R560). -/
def execMBz (u : Seqr) (off : Byte) : State → Outcome := actSeq (mBz u.val off)
/-- BNZ (R560). -/
def execMBnz (u : Seqr) (off : Byte) : State → Outcome := actSeq (mBnz u.val off)
/-- BN (R560). -/
def execMBn (u : Seqr) (off : Byte) : State → Outcome := actSeq (mBn u.val off)
/-- BC (R560). -/
def execMBc (u : Seqr) (off : Byte) : State → Outcome := actSeq (mBc u.val off)
/-- CALL (R560). -/
def execMCall (u : Seqr) (off : Byte) : State → Outcome := actSeqF (mCall u.val off)
/-- RET (R560). -/
def execMRet (u : Seqr) : State → Outcome := actSeqF (mRet u.val)
/-- JR (R560). -/
def execMJr (u : Seqr) (d s : Reg4) : State → Outcome := actSeq (mJr u.val d.val s.val)
/-- WAIT (R560). -/
def execMWait (u : Seqr) : State → Outcome := actSeq (mWait u.val)
/-- RETI (R581). -/
def execMReti (u : Seqr) : State → Outcome := actSeqF (mReti u.val)
/-- DI (R560). -/
def execMDi (u : Seqr) : State → Outcome := actSeq (mDi u.val)
/-- EI (R560). -/
def execMEi (u : Seqr) : State → Outcome := actSeq (mEi u.val)
/-- HOOK (R560). -/
def execMHook (u : Seqr) (n : Byte) : State → Outcome := actSeqF (mHook u.val n)
/-- KICK (R560). -/
def execMKick (u : Seqr) : State → Outcome := actSeq (mKick u.val)
/-- TRAP (R560). -/
def execMTrap (u : Seqr) (code : Byte) : State → Outcome := actSeq (mTrap u.val code)
/-- A vendor opcode (R561). -/
def execVendorOpcode (u : Seqr) (op opr : Byte) : State → Outcome := actSeqF (vendorOpcode u.val op opr)
/-- An opcode dispatched to the illegal-op handler (R576). -/
def execIllegalOpcode (u : Seqr) (op opr : Byte) : State → Outcome := actSeq (illegalOpcode u.val op opr)
/-- The winning Bellhouse source is taken at a boundary (R575, R581). -/
def execBellhouseTake (u : Seqr) : State → Outcome := actSeqF (bellhouseTake u.val)
/-- A group's hold-off ends (R582). -/
def execHoldoffExpiry (u : Seqr) (g : Fin 8) : State → Outcome := actIf awake (holdoffExpiry u.val g.val)
/-- A routine ran 4096 sclk without END (R566). -/
def execRoutineOverrun (u : Seqr) : State → Outcome := actSeqF (routineOverrun u.val)
/-- A steward's watchdog expires (R577). -/
def execStewardWatchdog (n : Fin 16) : State → Outcome := actSeq (stewardWatchdog n.val)
/-- A write of STEWARD_RESTART is at the head (R577). -/
def execStewardRestart : State → Outcome := actM (serveOwn .stewardRestart)
/-- A steward's restart completes (R577). -/
def execStewardRestartDone (n : Fin 16) : State → Outcome :=
  actIf (fun m w => reeveOn m w && (m == .kindle || m == .service)) (stewardRestartDone n.val)
/-- A sequencer timer expires (R585, R586). -/
def execSequencerTimerExpiry (u : Seqr) (t : Fin 8) : State → Outcome := actSeq (sequencerTimer u.val t.val)
/-- The DRBG reaches its reseed point (R585 source 56). -/
def execDrbgReseedDue : State → Outcome := actIf reeveOn (latch 16 56)

/-! ### Observability -/

/-- A programmable counter wraps (R604). -/
def execCounterWrap (b : Brick) (k : Fin 32) : State → Outcome := actIf portsOn (counterWrap b.val k.val)
/-- A window read of a counter's VALUE (R603). -/
def execPcValueRead (b : Brick) (k : Fin 32) : State → Outcome := actIf windowOpen (pcValueRead b.val k.val)
/-- A write of PC_CLEAR_ALL is at the head (R623). -/
def execPcClearAll : State → Outcome := actM (serveOwn .pcClear)
/-- A tally window ends (R607). -/
def execTallyWindowEnd (p : Port) : State → Outcome := actIf portsOn (tallyEnd p.val false)
/-- A write of TALLY_US is at the head (R608). -/
def execTallyUsWrite : State → Outcome := actM (serveOwn .tallyUs)
/-- A read of SAMPLE_NEXT is at the head (R612). -/
def execSampleNextRead : State → Outcome := actM (serveOwn .sampleRead)
/-- A write of BOOKS_RUN is at the head (R622). -/
def execBooksRun : State → Outcome := actM (serveOwn .booksRun)
/-- BOOKS_PERIOD_S has elapsed (R622). -/
def execBooksPeriodDue : State → Outcome := actIf portsOn booksPeriod
/-- An audit completes (R622). -/
def execBooksComplete : State → Outcome := actIf reeveOn booksDone

end Sys2Proof.Machine
end

