-- ==== Sys2Proof/Machine/CmdWall.lean ====
section
/-! DEFINITION. Commands at the boundary (R23 to R75, R628), of the Ledger and Dvor (R76 to R125) and of the modes
(R126 to R156): one meaning per row of the table. -/

namespace Sys2Proof.Machine

/-! ### Boundary -/

/-- The last rail is good: the wall waits for REFCORE (R41). -/
def execPowerGood (reflanes : Nat) : State → Outcome := actMove (powerGood reflanes)
/-- REFCORE is validated and the root PLL locks: the first ROM fetch, and KINDLE with it (R41, R131). -/
def execRootPllLock (k : KindleIn) : State → Outcome := actMove (rootPllLock k)
/-- REFCORE is absent for more than 2 µs (R30). -/
def execRefcoreLoss : State → Outcome := actMove refcoreLoss
/-- REFCORE has been valid for 1 ms after a loss (R30). -/
def execRefcoreRestored : State → Outcome := actM refcoreRestored
/-- REFLANEb is absent for more than 2 µs (R31). -/
def execReflaneLoss (b : Brick) : State → Outcome := actM (reflaneEvent b.val false)
/-- REFLANEb has been valid for 1 ms (R31). -/
def execReflaneRestored (b : Brick) : State → Outcome := actM (reflaneEvent b.val true)
/-- PFAIL_N has been low for 200 ns (R36, R37). -/
def execPfailAccept : State → Outcome := actM pfailEvent
/-- The queue has drained after an accepted PFAIL_N (R37). -/
def execPfailDrainDone : State → Outcome := actM pfailDrainEvent
/-- PFAIL_N returns high (R39). -/
def execPfailNRise : State → Outcome := actIf (fun m _ => m != .off && m != .ember) pfailRise
/-- PFAIL_N has been high for 1 ms (R39). -/
def execPfailReopen : State → Outcome := actM pfailReopenEvent
/-- WAKE has been high for 3 ember ticks in EMBER (R40). -/
def execWakeAccept : State → Outcome := actM wakeAccept
/-- ZEROISE has been high for 10 µs (R42). -/
def execZeroiseAccept : State → Outcome := actM zeroiseAccept
/-- VCORE is removed other than after EMBER entry (R127). -/
def execVcoreRemoved : State → Outcome := actMove vcoreRemoved
/-- A target access of a wrong size or alignment (R49). -/
def execTargetAccessError (offset size : Nat) : State → Outcome := actM (accessError offset size)
/-- A target access to an undefined offset (R50); a write to one is discarded like a read. -/
def execUnmappedAccess (_write : Bool) (offset : Nat) : State → Outcome := actM (unmapped offset)
/-- A target write of the host (R49, R628). -/
def execHostWindowWrite (offset size value : Nat) : State → Outcome := actM (targetWrite offset size value)
/-- The last beat of a read completion (R52). -/
def execReadCompletion (tag : Fin 512) : State → Outcome := actIf reeveOn (readCompletion tag.val)
/-- A read has been outstanding for 100 µs (R52). -/
def execReadTagTimeout (tag : Fin 512) : State → Outcome := actIf reeveOn (tagTimeout tag.val)
/-- A tag's quarantine of 1 ms ends (R52). -/
def execTagQuarantineEnd (tag : Fin 512) : State → Outcome := actIf awake (quarantineEnd tag.val)
/-- A credit return of the core (R57). -/
def execCreditReturn (c : Course) (n : Nat) : State → Outcome := actIf portsOn (creditReturn c.val n)
/-- A credit-init of the core (R58). -/
def execCreditInit (c : Course) (value : Nat) : State → Outcome := actIf portsOn (creditInit c.val value)
/-- A credit word of KIND 3 or with a reserved bit set (R60). -/
def execCreditWordInvalid (c : Course) (value : Nat) : State → Outcome := actIf portsOn (creditLog c.val value)
/-- An egress cell arrives from the Pipe (R352). -/
def execEgressCell (p : Port) (cell : PipeCell) : State → Outcome := actIf portsOn (egressCell p.val cell)
/-- A decision arrives from the core (R62). -/
def execDecisionArrive (b : Brick) (handle result status : Nat) : State → Outcome :=
  actIf portsOn (decisionArrive b.val handle result status)
/-- No decision within 4 µs (R62). -/
def execDecisionTimeout (b : Brick) (handle : Nat) : State → Outcome := actIf portsOn (decisionTimeout b.val handle)
/-- A waiting FLUSH_SP takes a free command slot (R347). -/
def execFlushSpIssue (b : Brick) : State → Outcome := actIf portsOn (flushIssue b.val)
/-- A FLUSH_SP completes (R65). -/
def execFlushSpComplete (b : Brick) (tag : Nat) : State → Outcome := actIf portsOn (flushComplete b.val tag)
/-- A FLUSH_SP is overdue (R65). -/
def execFlushSpOverdue (b : Brick) (tag : Nat) : State → Outcome := actIf portsOn (flushOverdue b.val tag)
/-- LOOKUP_REQ with opcode 2 (R347). -/
def execLookupSearch : State → Outcome := actM (serveOwn .lookupSearch)
/-- LOOKUP_REQ with opcode 3 (R347). -/
def execLookupNext : State → Outcome := actM (serveOwn .lookupNext)
/-- A relayed lookup completes (R347). -/
def execLookupComplete (b : Brick) (tag : Nat) (hit : Bool) (answer : Nat) : State → Outcome :=
  actIf portsOn (lookupComplete b.val tag hit answer)
/-- A relayed lookup has no completion after 900 µs (R347). -/
def execLookupTimeout (b : Brick) (tag : Nat) : State → Outcome := actIf portsOn (lookupTimeout b.val tag)
/-- A WAITING line changes (R66). -/
def execWaitingChange (p : Port) (level : Bool) : State → Outcome := actIf portsOn (waitingChange p.val level)
/-- The 1 ms spacing of AVS requests has passed (R70). -/
def execAvsStep : State → Outcome := actIfM awake avsStep
/-- The engine power controller answers an AVS request (R68). -/
def execAvsAnswer (ack : Bool) : State → Outcome := actIf reeveOn (avsAnswer ack)
/-- An AVS request had no answer for 10 ms (R68). -/
def execAvsAnswerTimeout : State → Outcome := actIf reeveOn avsTimeout
/-- A sensor reads at or above TJ_ALARM_C (R72). -/
def execTjAlarm (sensor : Fin 5) (reading : Int) : State → Outcome := actIf reeveOn (tempReading sensor.val reading)
/-- A sensor reads 115 °C or more (R72): with no port in service only the reading is left. -/
def execThermalShutdown (sensor : Fin 5) (reading : Int) : State → Outcome :=
  actIfM reeveOn fun m w => if portsOn m w then thermalDown sensor.val reading w else tempReading sensor.val reading w
/-- VCORE leaves or returns to its tolerance band (R35). -/
def execVcoreToleranceChange (inBand : Bool) : State → Outcome :=
  actIf (fun m _ => m != .off && m != .ember) (vcoreTolerance inBand)
/-- VEMB is removed (R126). -/
def execVembRemoved : State → Outcome := actMove vembRemoved

/-! ### Ledger and Dvor -/

/-- GO written with OP 1 (R88). -/
def execMbxRead : State → Outcome := actIf windowOpen (mbxGo 1 false)
/-- GO written with OP 2 (R88). -/
def execMbxWrite : State → Outcome := actIf windowOpen (mbxGo 2 false)
/-- GO written with OP 3 (R88). -/
def execMbxSegRead : State → Outcome := actIf windowOpen (mbxGo 3 false)
/-- GO written with OP 4 (R88). -/
def execMbxSegWrite (last : Bool) : State → Outcome := actIf windowOpen (mbxGo 4 last)
/-- A read without a row of its own is at the head of the Ledger queue (R118). -/
def execLedgerRead : State → Outcome := actM (serveIf (fun r => isRead r && (ownOf r).isNone) 0)
/-- A write without a row of its own is at the head of the Ledger queue (R79). -/
def execLedgerWrite : State → Outcome := actM (serveIf (fun r => isWrite r && (ownOf r).isNone) 0)
/-- A SEG_READ is at the head (R110). -/
def execLedgerSegRead : State → Outcome := actM (serveIf isSegRead 0)
/-- A SEG_WRITE is at the head (R111). -/
def execLedgerSegWrite : State → Outcome := actM (serveIf isSegWrite 0)
/-- An OPEN (R99, R152). -/
def execDvorOpen (o : DvorOpen) : State → Outcome := actIfM dvorOn (dvorOpen o)
/-- An OPEN_CONFIRM (R99). -/
def execDvorOpenConfirm (peer : Peer) (session sig : Nat) : State → Outcome := actIfM dvorOn (dvorConfirm peer session sig)
/-- A CLOSE from the manager (R101). -/
def execDvorClose (slot : Fin 8) : State → Outcome := actIf dvorOn (dvorClose slot.val)
/-- A READ request (R104). -/
def execDvorRead (r : DvorReq) : State → Outcome := actIfM dvorOn (dvorRequest r .read)
/-- A WRITE request (R104). -/
def execDvorWrite (r : DvorReq) (data : List Byte) : State → Outcome := actIfM dvorOn (dvorRequest r (.write data))
/-- A SEG_READ request (R109). -/
def execDvorSegRead (r : DvorReq) (offset gen len : Nat) : State → Outcome :=
  actIfM dvorOn (dvorRequest r (.segRead offset gen len))
/-- A SEG_WRITE request (R111). -/
def execDvorSegWrite (r : DvorReq) (offset gen : Nat) (last : Bool) (data : List Byte) : State → Outcome :=
  actIfM dvorOn (dvorRequest r (.segWrite offset gen last data))
/-- An EVENT_ACK (R115). -/
def execDvorEventAck (r : DvorReq) (events : List Nat) : State → Outcome := actIfM dvorOn (eventAck r events)
/-- A KEEPALIVE (R101). -/
def execDvorKeepalive (r : DvorReq) : State → Outcome := actIfM dvorOn (keepalive r)
/-- A bad datagram (R95, R97). -/
def execDvorDatagramBad (path : Path) (why : BadDatagram) : State → Outcome := actIfM dvorOn (badDatagram path why)
/-- An ICMPv6 neighbour solicitation or echo request (R94). -/
def execIcmpv6Request (path : Path) (echo : Bool) : State → Outcome := actIf dvorOn (icmpv6 path echo)
/-- Any other frame on a field port (R94). -/
def execFieldFrameOther (path : Path) : State → Outcome := actIf dvorOn (fieldOther path)
/-- A field frame in DOZE that matches a wake pattern (R149). -/
def execDozeWakeFrame (path : Path) (frame : List Byte) : State → Outcome := actMove (dozeWake path frame)
/-- No OPEN_CONFIRM within 2 s (R99). -/
def execHandshakeTimeout (place : Fin 4) : State → Outcome := actIf reeveOn (handshakeTimeout place.val)
/-- A session has been silent for 30 s (R101). -/
def execSessionIdleTimeout (slot : Fin 8) : State → Outcome := actIf reeveOn (closeSession slot.val 2 true)
/-- An open transfer has been silent for 30 s (R112). -/
def execSegTransferTimeout (index sub : Nat) : State → Outcome := actIf reeveOn (transferTimeout index sub)
/-- The retransmission interval of an event ends (R114). -/
def execEventRetransmit (slot : Fin 8) (event : Nat) : State → Outcome := actIf reeveOn (eventRetransmit slot.val event)
/-- A write of STORE_RANGE is at the head (R82). -/
def execStoreRange : State → Outcome := actM (serveOwn .store)
/-- A write of RESTORE_RANGE is at the head (R83). -/
def execRestoreRange : State → Outcome := actM (serveOwn .restore)
/-- A write of DEFAULT_RANGE is at the head (R83). -/
def execDefaultRange : State → Outcome := actM (serveOwn .dflt)
/-- Every sheaf of a store command is committed (R84); a move that waited for it begins (R130). -/
def execStoreComplete : State → Outcome :=
  actMove fun m w => if reeveOn m w then dueMove m (storeComplete w) else (m, w)

/-! ### Modes -/

/-- MODE_REQUEST := 1 (R143). -/
def execModeRequestEmber : State → Outcome := actMove (modeHead .modeEmber)
/-- The commit queue has drained at EMBER entry (R143). -/
def execEmberDrained : State → Outcome := actMove emberDrained
/-- MODE_REQUEST := 2 (R129). -/
def execModeRequestKindle : State → Outcome := actMove (modeHead .modeKindle)
/-- MODE_REQUEST := 3 (R150). -/
def execModeRequestService : State → Outcome := actMove (modeHead .modeService)
/-- MODE_REQUEST := 4 (R147). -/
def execModeRequestDoze : State → Outcome := actMove (modeHead .modeDoze)
/-- The Reeve's watchdog expires (R579). -/
def execReeveWatchdog : State → Outcome := actMove fun m w => if awake m w then reeveRestart m w else (m, w)

end Sys2Proof.Machine
end

