-- ==== Sys2Proof/Machine/Dispatch.lean ====
section
/-! DEFINITION. One arm per command: a direct call of its meaning. -/

namespace Sys2Proof.Machine

def exec (i : Instr) (s : State) : Host.Outcome State Fault Refusal :=
  match i with
  -- boundary (R23 to R75, R628)
  | .powerGood reflanes => Sys2Proof.Machine.execPowerGood reflanes s
  | .rootPllLock k => Sys2Proof.Machine.execRootPllLock k s
  | .refcoreLoss => Sys2Proof.Machine.execRefcoreLoss s
  | .refcoreRestored => Sys2Proof.Machine.execRefcoreRestored s
  | .reflaneLoss b => Sys2Proof.Machine.execReflaneLoss b s
  | .reflaneRestored b => Sys2Proof.Machine.execReflaneRestored b s
  | .pfailAccept => Sys2Proof.Machine.execPfailAccept s
  | .pfailDrainDone => Sys2Proof.Machine.execPfailDrainDone s
  | .pfailNRise => Sys2Proof.Machine.execPfailNRise s
  | .pfailReopen => Sys2Proof.Machine.execPfailReopen s
  | .wakeAccept => Sys2Proof.Machine.execWakeAccept s
  | .zeroiseAccept => Sys2Proof.Machine.execZeroiseAccept s
  | .vcoreRemoved => Sys2Proof.Machine.execVcoreRemoved s
  | .targetAccessError offset size => Sys2Proof.Machine.execTargetAccessError offset size s
  | .unmappedAccess write offset => Sys2Proof.Machine.execUnmappedAccess write offset s
  | .hostWindowWrite offset size value => Sys2Proof.Machine.execHostWindowWrite offset size value s
  | .readCompletion tag => Sys2Proof.Machine.execReadCompletion tag s
  | .readTagTimeout tag => Sys2Proof.Machine.execReadTagTimeout tag s
  | .tagQuarantineEnd tag => Sys2Proof.Machine.execTagQuarantineEnd tag s
  | .creditReturn c n => Sys2Proof.Machine.execCreditReturn c n s
  | .creditInit c value => Sys2Proof.Machine.execCreditInit c value s
  | .creditWordInvalid c value => Sys2Proof.Machine.execCreditWordInvalid c value s
  | .egressCell p cell => Sys2Proof.Machine.execEgressCell p cell s
  | .decisionArrive b handle result status => Sys2Proof.Machine.execDecisionArrive b handle result status s
  | .decisionTimeout b handle => Sys2Proof.Machine.execDecisionTimeout b handle s
  | .flushSpIssue b => Sys2Proof.Machine.execFlushSpIssue b s
  | .flushSpComplete b tag => Sys2Proof.Machine.execFlushSpComplete b tag s
  | .flushSpOverdue b tag => Sys2Proof.Machine.execFlushSpOverdue b tag s
  | .lookupSearch => Sys2Proof.Machine.execLookupSearch s
  | .lookupNext => Sys2Proof.Machine.execLookupNext s
  | .lookupComplete b tag hit answer => Sys2Proof.Machine.execLookupComplete b tag hit answer s
  | .lookupTimeout b tag => Sys2Proof.Machine.execLookupTimeout b tag s
  | .waitingChange p level => Sys2Proof.Machine.execWaitingChange p level s
  | .avsStep => Sys2Proof.Machine.execAvsStep s
  | .avsAnswer ack => Sys2Proof.Machine.execAvsAnswer ack s
  | .avsAnswerTimeout => Sys2Proof.Machine.execAvsAnswerTimeout s
  | .tjAlarm sensor reading => Sys2Proof.Machine.execTjAlarm sensor reading s
  | .thermalShutdown sensor reading => Sys2Proof.Machine.execThermalShutdown sensor reading s
  -- Ledger and Dvor (R76 to R125)
  | .mbxRead => Sys2Proof.Machine.execMbxRead s
  | .mbxWrite => Sys2Proof.Machine.execMbxWrite s
  | .mbxSegRead => Sys2Proof.Machine.execMbxSegRead s
  | .mbxSegWrite last => Sys2Proof.Machine.execMbxSegWrite last s
  | .ledgerRead => Sys2Proof.Machine.execLedgerRead s
  | .ledgerWrite => Sys2Proof.Machine.execLedgerWrite s
  | .ledgerSegRead => Sys2Proof.Machine.execLedgerSegRead s
  | .ledgerSegWrite => Sys2Proof.Machine.execLedgerSegWrite s
  | .dvorOpen o => Sys2Proof.Machine.execDvorOpen o s
  | .dvorOpenConfirm peer session sig => Sys2Proof.Machine.execDvorOpenConfirm peer session sig s
  | .dvorClose slot => Sys2Proof.Machine.execDvorClose slot s
  | .dvorRead r => Sys2Proof.Machine.execDvorRead r s
  | .dvorWrite r data => Sys2Proof.Machine.execDvorWrite r data s
  | .dvorSegRead r offset gen len => Sys2Proof.Machine.execDvorSegRead r offset gen len s
  | .dvorSegWrite r offset gen last data => Sys2Proof.Machine.execDvorSegWrite r offset gen last data s
  | .dvorEventAck r events => Sys2Proof.Machine.execDvorEventAck r events s
  | .dvorKeepalive r => Sys2Proof.Machine.execDvorKeepalive r s
  | .dvorDatagramBad path why => Sys2Proof.Machine.execDvorDatagramBad path why s
  | .icmpv6Request path echo => Sys2Proof.Machine.execIcmpv6Request path echo s
  | .fieldFrameOther path => Sys2Proof.Machine.execFieldFrameOther path s
  | .dozeWakeFrame path frame => Sys2Proof.Machine.execDozeWakeFrame path frame s
  | .handshakeTimeout place => Sys2Proof.Machine.execHandshakeTimeout place s
  | .sessionIdleTimeout slot => Sys2Proof.Machine.execSessionIdleTimeout slot s
  | .segTransferTimeout index sub => Sys2Proof.Machine.execSegTransferTimeout index sub s
  | .eventRetransmit slot event => Sys2Proof.Machine.execEventRetransmit slot event s
  | .storeRange => Sys2Proof.Machine.execStoreRange s
  | .restoreRange => Sys2Proof.Machine.execRestoreRange s
  | .defaultRange => Sys2Proof.Machine.execDefaultRange s
  | .storeComplete => Sys2Proof.Machine.execStoreComplete s
  -- modes (R126 to R156, R627)
  | .modeRequestEmber => Sys2Proof.Machine.execModeRequestEmber s
  | .emberDrained => Sys2Proof.Machine.execEmberDrained s
  | .modeRequestKindle => Sys2Proof.Machine.execModeRequestKindle s
  | .modeRequestService => Sys2Proof.Machine.execModeRequestService s
  | .modeRequestDoze => Sys2Proof.Machine.execModeRequestDoze s
  | .reeveWatchdog => Sys2Proof.Machine.execReeveWatchdog s
  -- lanes (R157 to R212)
  | .detectDone g => Sys2Proof.Machine.execDetectDone g s
  | .detectTimeout g => Sys2Proof.Machine.execDetectTimeout g s
  | .pam2Timeout g => Sys2Proof.Machine.execPam2Timeout g s
  | .trainingTimeout g => Sys2Proof.Machine.execTrainingTimeout g s
  | .exchangeTimeout g => Sys2Proof.Machine.execExchangeTimeout g s
  | .backoffExpiry g => Sys2Proof.Machine.execBackoffExpiry g s
  | .listeningBurst g => Sys2Proof.Machine.execListeningBurst g s
  | .activeHoldExpiry sp => Sys2Proof.Machine.execActiveHoldExpiry sp s
  | .trainRestart => Sys2Proof.Machine.execTrainRestart s
  | .trainingFrame l good msg invertedOnly => Sys2Proof.Machine.execTrainingFrame l good msg invertedOnly s
  | .hello l rates role seed => Sys2Proof.Machine.execHello l rates role seed s
  | .trainingReady l count => Sys2Proof.Machine.execTrainingReady l count s
  | .readyCountdownEnd l => Sys2Proof.Machine.execReadyCountdownEnd l s
  | .rxReady l coarse fine => Sys2Proof.Machine.execRxReady l coarse fine s
  | .trainingCountdownEnd l => Sys2Proof.Machine.execTrainingCountdownEnd l s
  | .blockLock g => Sys2Proof.Machine.execBlockLock g s
  | .cdrLock l => Sys2Proof.Machine.execCdrLock l s
  | .cdrLockLoss l slip => Sys2Proof.Machine.execCdrLockLoss l slip s
  | .signalDetectLoss l => Sys2Proof.Machine.execSignalDetectLoss l s
  | .gossipStatus l exch payload => Sys2Proof.Machine.execGossipStatus l exch payload s
  | .gossipOffer l exch payload => Sys2Proof.Machine.execGossipOffer l exch payload s
  | .gossipAccept l exch payload => Sys2Proof.Machine.execGossipAccept l exch payload s
  | .gossipConfirm l exch payload => Sys2Proof.Machine.execGossipConfirm l exch payload s
  | .gossipSpare l payload => Sys2Proof.Machine.execGossipSpare l payload s
  | .gossipPrepare l exch payload => Sys2Proof.Machine.execGossipPrepare l exch payload s
  | .gossipReady l exch payload => Sys2Proof.Machine.execGossipReady l exch payload s
  | .gossipRoll l exch payload codeword => Sys2Proof.Machine.execGossipRoll l exch payload codeword s
  | .gossipRolled l exch payload => Sys2Proof.Machine.execGossipRolled l exch payload s
  | .gossipRefuse l exch payload => Sys2Proof.Machine.execGossipRefuse l exch payload s
  | .gossipSurvey l exch payload => Sys2Proof.Machine.execGossipSurvey l exch payload s
  | .gossipRetire l payload => Sys2Proof.Machine.execGossipRetire l payload s
  | .gossipBadWord l => Sys2Proof.Machine.execGossipBadWord l s
  | .gossipLoss l => Sys2Proof.Machine.execGossipLoss l s
  | .fecWindowEnd sp roleCorrected codewords corrected uncorrectable => Sys2Proof.Machine.execFecWindowEnd sp roleCorrected codewords corrected uncorrectable s
  | .laneTestStart => Sys2Proof.Machine.execLaneTestStart s
  | .laneTestStop => Sys2Proof.Machine.execLaneTestStop s
  | .prbsClear => Sys2Proof.Machine.execPrbsClear s
  | .prbsCheckerLock l gained bits errors => Sys2Proof.Machine.execPrbsCheckerLock l gained bits errors s
  | .eyeScanStart => Sys2Proof.Machine.execEyeScanStart s
  | .eyeScanDone l counts => Sys2Proof.Machine.execEyeScanDone l counts s
  | .eyeScanResume l => Sys2Proof.Machine.execEyeScanResume l s
  | .eyeScanAbort l => Sys2Proof.Machine.execEyeScanAbort l s
  | .fieldLaneUp f => Sys2Proof.Machine.execFieldLaneUp f s
  | .fieldLaneDown f => Sys2Proof.Machine.execFieldLaneDown f s
  | .fieldLaneRetry f => Sys2Proof.Machine.execFieldLaneRetry f s
  | .fieldLaneConfigWrite => Sys2Proof.Machine.execFieldLaneConfigWrite s
  -- repointing and ageing (R213 to R252, R629)
  | .spareBurst l => Sys2Proof.Machine.execSpareBurst l s
  | .spareFault l => Sys2Proof.Machine.execSpareFault l s
  | .bridgeCompareDone p role => Sys2Proof.Machine.execBridgeCompareDone p role s
  | .rollCodeword p role shift => Sys2Proof.Machine.execRollCodeword p role shift s
  | .rollTimeout p role => Sys2Proof.Machine.execRollTimeout p role s
  | .spareDeskewed p role shift interruptNs => Sys2Proof.Machine.execSpareDeskewed p role shift interruptNs s
  | .retestStart l => Sys2Proof.Machine.execRetestStart l s
  | .retestMeasured l m => Sys2Proof.Machine.execRetestMeasured l m s
  | .retireClear => Sys2Proof.Machine.execRetireClear s
  | .roundNow => Sys2Proof.Machine.execRoundNow s
  | .roundPeriodExpiry => Sys2Proof.Machine.execRoundPeriodExpiry s
  | .surveyStart b => Sys2Proof.Machine.execSurveyStart b s
  | .surveyPrbsEnd b m remeasured again => Sys2Proof.Machine.execSurveyPrbsEnd b m remeasured again s
  | .surveyNow => Sys2Proof.Machine.execSurveyNow s
  | .telltaleMeasure stressed reference => Sys2Proof.Machine.execTelltaleMeasure stressed reference s
  | .serviceSHourly => Sys2Proof.Machine.execServiceSHourly s
  | .spareRateWrite => Sys2Proof.Machine.execSpareRateWrite s
  -- ports and frames (R253 to R307)
  | .portRestart => Sys2Proof.Machine.execPortRestart s
  | .spAdminWrite => Sys2Proof.Machine.execSpAdminWrite s
  | .headerLockLoss sp => Sys2Proof.Machine.execHeaderLockLoss sp s
  | .headerLockTimeout sp => Sys2Proof.Machine.execHeaderLockTimeout sp s
  | .hiBer sp => Sys2Proof.Machine.execHiBer sp s
  | .rxFrame f => Sys2Proof.Machine.execRxFrame f s
  | .pauseFrameRx sp quanta => Sys2Proof.Machine.execPauseFrameRx sp quanta s
  | .pfcFrameRx sp enable times => Sys2Proof.Machine.execPfcFrameRx sp enable times s
  | .pauseExpiry sp tc => Sys2Proof.Machine.execPauseExpiry sp tc s
  | .pfcRefresh sp tc => Sys2Proof.Machine.execPfcRefresh sp tc s
  | .quietIdleExpiry p => Sys2Proof.Machine.execQuietIdleExpiry p s
  | .lpiReceived p => Sys2Proof.Machine.execLpiReceived p s
  | .quietHandshakeTimeout p => Sys2Proof.Machine.execQuietHandshakeTimeout p s
  | .partnerWakeBurst p => Sys2Proof.Machine.execPartnerWakeBurst p s
  | .quietWakeComplete p => Sys2Proof.Machine.execQuietWakeComplete p s
  | .partnerWakeTimeout p => Sys2Proof.Machine.execPartnerWakeTimeout p s
  -- ingress (R308 to R362)
  | .cellIdleClose sp => Sys2Proof.Machine.execCellIdleClose sp s
  | .cellSend b => Sys2Proof.Machine.execCellSend b s
  | .creditStall b us => Sys2Proof.Machine.execCreditStall b us s
  | .gleanerExpiry b entry => Sys2Proof.Machine.execGleanerExpiry b entry s
  | .gleanFlush => Sys2Proof.Machine.execGleanFlush s
  | .sieveWriteShadow b index => Sys2Proof.Machine.execSieveWriteShadow b index s
  | .sieveWriteBoth b index => Sys2Proof.Machine.execSieveWriteBoth b index s
  | .sieveReadShadow b index => Sys2Proof.Machine.execSieveReadShadow b index s
  | .sieveReadActive b index => Sys2Proof.Machine.execSieveReadActive b index s
  | .sieveInvalidateShadow b index => Sys2Proof.Machine.execSieveInvalidateShadow b index s
  | .sieveInvalidateBoth b index => Sys2Proof.Machine.execSieveInvalidateBoth b index s
  | .sieveSwap window => Sys2Proof.Machine.execSieveSwap window s
  | .sieveSwapDone b => Sys2Proof.Machine.execSieveSwapDone b s
  | .sieveScrubCompare b bank index m forced => Sys2Proof.Machine.execSieveScrubCompare b bank index m forced s
  | .hitCountClear b index => Sys2Proof.Machine.execHitCountClear b index s
  | .policerApply b index value => Sys2Proof.Machine.execPolicerApply b index value s
  -- egress (R363 to R404)
  | .schedulerSelect sp => Sys2Proof.Machine.execSchedulerSelect sp s
  | .txFrameDone sp departure => Sys2Proof.Machine.execTxFrameDone sp departure s
  | .calendarRelease p shaper => Sys2Proof.Machine.execCalendarRelease p shaper s
  | .gateEntryChange sp => Sys2Proof.Machine.execGateEntryChange sp s
  | .gateConfigChange sp => Sys2Proof.Machine.execGateConfigChange sp s
  | .gateSchedule => Sys2Proof.Machine.execGateSchedule s
  | .gateCancel => Sys2Proof.Machine.execGateCancel s
  | .queueDropsClear p q => Sys2Proof.Machine.execQueueDropsClear p q s
  | .shaperApply p shaper value => Sys2Proof.Machine.execShaperApply p shaper value s
  -- time (R405 to R433)
  | .timeResync => Sys2Proof.Machine.execTimeResync s
  | .timeSet => Sys2Proof.Machine.execTimeSet s
  | .timeStep => Sys2Proof.Machine.execTimeStep s
  | .freqAdjWrite => Sys2Proof.Machine.execFreqAdjWrite s
  | .txStampNextRead => Sys2Proof.Machine.execTxStampNextRead s
  -- MACsec and security (R434 to R476)
  | .saInstall => Sys2Proof.Machine.execSaInstall s
  | .saRemove => Sys2Proof.Machine.execSaRemove s
  | .encodingAnWrite => Sys2Proof.Machine.execEncodingAnWrite s
  | .pnReservationCommit sp an => Sys2Proof.Machine.execPnReservationCommit sp an s
  | .pnReservationRetry sp an => Sys2Proof.Machine.execPnReservationRetry sp an s
  | .kekInstall => Sys2Proof.Machine.execKekInstall s
  | .kekClear => Sys2Proof.Machine.execKekClear s
  | .kiForget => Sys2Proof.Machine.execKiForget s
  | .selftestNow failedRow => Sys2Proof.Machine.execSelftestNow failedRow s
  | .zeroiseNow => Sys2Proof.Machine.execZeroiseNow s
  | .zeroisationComplete => Sys2Proof.Machine.execZeroisationComplete s
  | .hostOfficerSWrite => Sys2Proof.Machine.execHostOfficerSWrite s
  | .hostOfficerExpiry => Sys2Proof.Machine.execHostOfficerExpiry s
  | .macsecKatDaily p ok => Sys2Proof.Machine.execMacsecKatDaily p ok s
  | .continuousTestFail => Sys2Proof.Machine.execContinuousTestFail s
  | .tamperEvent => Sys2Proof.Machine.execTamperEvent s
  -- Granary (R477 to R511, R626)
  | .sheafCommit readbackBad => Sys2Proof.Machine.execSheafCommit readbackBad s
  | .wearProjection => Sys2Proof.Machine.execWearProjection s
  | .granaryScrubRead slot damage => Sys2Proof.Machine.execGranaryScrubRead slot damage s
  | .vgranLoss => Sys2Proof.Machine.execVgranLoss s
  | .vgranRestored => Sys2Proof.Machine.execVgranRestored s
  | .vgranFailTimeout => Sys2Proof.Machine.execVgranFailTimeout s
  | .changeCommitTimer index sub => Sys2Proof.Machine.execChangeCommitTimer index sub s
  | .allowanceRefill => Sys2Proof.Machine.execAllowanceRefill s
  | .digestBucketRefill => Sys2Proof.Machine.execDigestBucketRefill s
  | .shelfRollback => Sys2Proof.Machine.execShelfRollback s
  -- rings and Mill (R512 to R556)
  | .ringDoorbell d n value => Sys2Proof.Machine.execRingDoorbell d n value s
  | .ringEnable d n ctrl => Sys2Proof.Machine.execRingEnable d n ctrl s
  | .ringDisable d n ctrl => Sys2Proof.Machine.execRingDisable d n ctrl s
  | .ringStopped d n => Sys2Proof.Machine.execRingStopped d n s
  | .descriptorFetchDone d n descs => Sys2Proof.Machine.execDescriptorFetchDone d n descs s
  | .txDataReadDone n data => Sys2Proof.Machine.execTxDataReadDone n data s
  | .rxRingDeliver n => Sys2Proof.Machine.execRxRingDeliver n s
  | .vectorDelivery v => Sys2Proof.Machine.execVectorDelivery v s
  | .millEnable => Sys2Proof.Machine.execMillEnable s
  | .millDisable => Sys2Proof.Machine.execMillDisable s
  | .millDrained sp => Sys2Proof.Machine.execMillDrained sp s
  | .millFrame b => Sys2Proof.Machine.execMillFrame b s
  | .millOversize b => Sys2Proof.Machine.execMillOversize b s
  | .hostBhEnableWrite hi value => Sys2Proof.Machine.execHostBhEnableWrite hi value s
  | .hostBhClear hi value => Sys2Proof.Machine.execHostBhClear hi value s
  -- macro-instructions (R557 to R592)
  | .mNop u => Sys2Proof.Machine.execMNop u s
  | .mMov u d r => Sys2Proof.Machine.execMMov u d r s
  | .mLdi u imm => Sys2Proof.Machine.execMLdi u imm s
  | .mLdh u imm => Sys2Proof.Machine.execMLdh u imm s
  | .mAdd u d r => Sys2Proof.Machine.execMAdd u d r s
  | .mSub u d r => Sys2Proof.Machine.execMSub u d r s
  | .mAnd u d r => Sys2Proof.Machine.execMAnd u d r s
  | .mOr u d r => Sys2Proof.Machine.execMOr u d r s
  | .mXor u d r => Sys2Proof.Machine.execMXor u d r s
  | .mShl u d r => Sys2Proof.Machine.execMShl u d r s
  | .mShr u d r => Sys2Proof.Machine.execMShr u d r s
  | .mCmp u d r => Sys2Proof.Machine.execMCmp u d r s
  | .mAddq u d imm => Sys2Proof.Machine.execMAddq u d imm s
  | .mSubq u d imm => Sys2Proof.Machine.execMSubq u d imm s
  | .mLd u d r => Sys2Proof.Machine.execMLd u d r s
  | .mSt u d r => Sys2Proof.Machine.execMSt u d r s
  | .mIn u d r => Sys2Proof.Machine.execMIn u d r s
  | .mOut u d r => Sys2Proof.Machine.execMOut u d r s
  | .mBr u off => Sys2Proof.Machine.execMBr u off s
  | .mBz u off => Sys2Proof.Machine.execMBz u off s
  | .mBnz u off => Sys2Proof.Machine.execMBnz u off s
  | .mBn u off => Sys2Proof.Machine.execMBn u off s
  | .mBc u off => Sys2Proof.Machine.execMBc u off s
  | .mCall u off => Sys2Proof.Machine.execMCall u off s
  | .mRet u => Sys2Proof.Machine.execMRet u s
  | .mJr u d r => Sys2Proof.Machine.execMJr u d r s
  | .mWait u => Sys2Proof.Machine.execMWait u s
  | .mReti u => Sys2Proof.Machine.execMReti u s
  | .mDi u => Sys2Proof.Machine.execMDi u s
  | .mEi u => Sys2Proof.Machine.execMEi u s
  | .mHook u n => Sys2Proof.Machine.execMHook u n s
  | .mKick u => Sys2Proof.Machine.execMKick u s
  | .mTrap u code => Sys2Proof.Machine.execMTrap u code s
  | .vendorOpcode u op opr => Sys2Proof.Machine.execVendorOpcode u op opr s
  | .illegalOpcode u op opr => Sys2Proof.Machine.execIllegalOpcode u op opr s
  | .bellhouseTake u => Sys2Proof.Machine.execBellhouseTake u s
  | .holdoffExpiry u g => Sys2Proof.Machine.execHoldoffExpiry u g s
  | .routineOverrun u => Sys2Proof.Machine.execRoutineOverrun u s
  | .stewardWatchdog n => Sys2Proof.Machine.execStewardWatchdog n s
  | .stewardRestart => Sys2Proof.Machine.execStewardRestart s
  | .stewardRestartDone n => Sys2Proof.Machine.execStewardRestartDone n s
  -- observability (R593 to R625)
  | .counterWrap b k => Sys2Proof.Machine.execCounterWrap b k s
  | .pcValueRead b k => Sys2Proof.Machine.execPcValueRead b k s
  | .pcClearAll => Sys2Proof.Machine.execPcClearAll s
  | .tallyWindowEnd p => Sys2Proof.Machine.execTallyWindowEnd p s
  | .tallyUsWrite => Sys2Proof.Machine.execTallyUsWrite s
  | .sampleNextRead => Sys2Proof.Machine.execSampleNextRead s
  | .booksRun => Sys2Proof.Machine.execBooksRun s
  | .booksPeriodDue => Sys2Proof.Machine.execBooksPeriodDue s
  | .booksComplete => Sys2Proof.Machine.execBooksComplete s
  | .headerLockRegained sp => Sys2Proof.Machine.execHeaderLockRegained sp s
  | .vcoreToleranceChange inBand => Sys2Proof.Machine.execVcoreToleranceChange inBand s
  | .vembRemoved => Sys2Proof.Machine.execVembRemoved s
  | .idleAfterLpi p => Sys2Proof.Machine.execIdleAfterLpi p s
  | .sequencerTimerExpiry u t => Sys2Proof.Machine.execSequencerTimerExpiry u t s
  | .drbgReseedDue => Sys2Proof.Machine.execDrbgReseedDue s

end Sys2Proof.Machine
end

