-- ==== Sys2Proof/Safety.lean ====
section
/-! DEFINITION. What a safe run is: the wall stops at no command, and the modes move only as R127 and R153 say. -/

namespace Sys2Proof

open Machine

/-- A step that answers a next state. -/
def Goes (s : State) : Prop := ∃ t, step s = .next t

/-- The moves between modes that R127 and R153 give. -/
def mayMove (a b : Mode) : Bool :=
  match a, b with
  | .off, .kindle => true
  | .ember, .kindle => true
  | .kindle, .service => true
  | .kindle, .sealedMode => true
  | .service, .ember => true
  | .service, .doze => true
  | .service, .kindle => true
  | .service, .sealedMode => true
  | .doze, .service => true
  | .doze, .ember => true
  | .doze, .kindle => true
  | .doze, .sealedMode => true
  | _, .off => true
  | _, _ => a == b

end Sys2Proof

namespace Sys2Proof.Machine

/-- Tables of `TimeSt` in canonical form. At most 16 captures per sub-port are held (R426). -/
structure TimeSt.Ok (x : TimeSt) : Prop where
  adj : twf x.adj = true
  captures : twf x.captures = true
  captures_le : ∀ e ∈ x.captures, e.2.length ≤ 16

/-- Tables of `BoundarySt` in canonical form. -/
structure BoundarySt.Ok (x : BoundarySt) : Prop where
  tags : twf x.tags = true
  pool : twf x.pool = true
  credits : twf x.credits = true

/-- Tables of `LedgerSt` in canonical form. At most 16 requests wait (R80) and at most four handshakes run (R99). -/
structure LedgerSt.Ok (x : LedgerSt) : Prop where
  transfers : twf x.transfers = true
  domGen : twf x.domGen = true
  doms : twf x.doms = true
  sessions : twf x.sessions = true
  queue_le : x.queue.length ≤ 16
  handshakes_le : x.handshakes.length ≤ 4

/-- Tables of `LaneSt` in canonical form. -/
structure LaneSt.Ok (x : LaneSt) : Prop where
  lanes : twf x.lanes = true
  groups : twf x.groups = true
  exchs : twf x.exchs = true
  exchNo : twf x.exchNo = true
  rounds : twf x.rounds = true
  surveys : twf x.surveys = true
  almanac : twf x.almanac = true

/-- Tables of `PortSt` in canonical form. -/
structure PortSt.Ok (x : PortSt) : Prop where
  quiet : twf x.quiet = true
  pauseUntil : twf x.pauseUntil = true
  pauseOut : twf x.pauseOut = true
  fecMode : twf x.fecMode = true
  parse : twf x.parse = true
  lastMs : twf x.lastMs = true

/-- Tables of `IngressSt` in canonical form. -/
structure IngressSt.Ok (x : IngressSt) : Prop where
  cells : twf x.cells = true
  frames : twf x.frames = true
  seqIn : twf x.seqIn = true
  seqEg : twf x.seqEg = true
  glean : twf x.glean = true
  sieve : twf x.sieve = true
  master : twf x.master = true
  hits : twf x.hits = true
  indirection : twf x.indirection = true
  policers : twf x.policers = true
  lookups : twf x.lookups = true
  keysIssued : twf x.keysIssued = true
  keysMatched : twf x.keysMatched = true
  keysTimedOut : twf x.keysTimedOut = true
  swapCopy : twf x.swapCopy = true
  wrr : twf x.wrr = true
  lastMs : twf x.lastMs = true

/-- Tables of `EgressSt` in canonical form. -/
structure EgressSt.Ok (x : EgressSt) : Prop where
  queues : twf x.queues = true
  active : twf x.active = true
  shapers : twf x.shapers = true
  building : twf x.building = true
  txNow : twf x.txNow = true
  pipeOcc : twf x.pipeOcc = true
  hostOcc : twf x.hostOcc = true
  hostChunks : twf x.hostChunks = true
  coreCredits : twf x.coreCredits = true
  gates : twf x.gates = true
  wrr : twf x.wrr = true

/-- Tables of `SecSt` in canonical form. -/
structure SecSt.Ok (x : SecSt) : Prop where
  sas : twf x.sas = true
  blobs : twf x.blobs = true
  kis : twf x.kis = true
  keks : twf x.keks = true
  stallS : twf x.stallS = true

/-- Tables of `GranarySt` in canonical form. At most 13 sheaves are queued (R37, R490), and the digest holds at most 512 entries and its bucket 16 (R507). -/
structure GranarySt.Ok (x : GranarySt) : Prop where
  bank0 : twf x.bank0 = true
  bank1 : twf x.bank1 = true
  rows : twf x.rows = true
  shelf : twf x.shelf = true
  loadedGen : twf x.loadedGen = true
  retiredToday : twf x.retiredToday = true
  queue_le : x.queue.length ≤ 13
  bucket_le : x.bucket ≤ 16
  digest_le : x.digest.length ≤ 512

/-- Tables of `HostSt` in canonical form. -/
structure HostSt.Ok (x : HostSt) : Prop where
  rings : twf x.rings = true
  vecs : twf x.vecs = true
  mills : twf x.mills = true
  turn : twf x.turn = true

/-- Tables of `StewardSt` in canonical form. -/
structure StewardSt.Ok (x : StewardSt) : Prop where
  seqs : twf x.seqs = true
  hooks : twf x.hooks = true
  levels : twf x.levels = true
  restarting : twf x.restarting = true

/-- Tables of `ObsSt` in canonical form. At most 256 samples are held (R612). -/
structure ObsSt.Ok (x : ObsSt) : Prop where
  day : twf x.day = true
  srcSeq : twf x.srcSeq = true
  sampleSeq : twf x.sampleSeq = true
  high : twf x.high = true
  tally : twf x.tally = true
  tallyRecs : twf x.tallyRecs = true
  tallySeq : twf x.tallySeq = true
  illegalS : twf x.illegalS = true
  samples_le : x.samples.length ≤ 256

/-- Every table of the wall in canonical form, and no queue beyond the places the spec gives it. -/
structure Wall.Ok (w : Wall) : Prop where
  regs : twf w.regs = true
  win : twf w.win = true
  time : w.time.Ok
  bnd : w.bnd.Ok
  led : w.led.Ok
  lan : w.lan.Ok
  prt : w.prt.Ok
  ing : w.ing.Ok
  egr : w.egr.Ok
  sec : w.sec.Ok
  gra : w.gra.Ok
  hst : w.hst.Ok
  stw : w.stw.Ok
  obs : w.obs.Ok

/-! ### The words that statements are made of -/

/-- The command `c` completes on `s`: `exec` answers a next state, and `P` holds of it. -/
def Completes (c : Instr) (s : State) (P : State → Prop) : Prop := ∃ t, exec c s = .next t ∧ P t

/-- Sequencer `u` stands before an instruction: its clock runs, it is not stopped, and no WAIT idles it (R558, R560). -/
def atInstr (u : Nat) (s : State) : Bool := awake s.mode s.w && seqRuns s.mode u s.w && !seqIdle u s.w

/-- What an instruction leaves of its sequencer beside MPC, the stack, FLAGS, the general registers and what a statement
names (R562). -/
structure SeqHeld (r r' : SeqRt) : Prop where
  t : r'.t = r.t
  io : r'.io = r.io
  retMpc : r'.retMpc = r.retMpc
  retFlags : r'.retFlags = r.retFlags
  dispatch : r'.dispatch = r.dispatch
  micro : r'.micro = r.micro
  macroMem : r'.macroMem = r.macroMem
  handlers : r'.handlers = r.handlers

/-- One instruction further: MPC moved past it; the stack, the data memory and the handler state as they were (R562, R575). -/
structure Stepped (r r' : SeqRt) : Prop extends SeqHeld r r' where
  mpc : r'.mpc = (r.mpc + 1) % 4096
  stack : r'.stack = r.stack
  data : r'.data = r.data
  inHandler : r'.inHandler = r.inHandler
  holdoff : r'.holdoff = r.holdoff

/-- FLAGS unchanged. -/
def sameFlags (r r' : SeqRt) : Prop := r'.z = r.z ∧ r'.n = r.n ∧ r'.c = r.c ∧ r'.v = r.v

/-- IE, the kick time and the TRAP code unchanged. -/
def sameCtl (r r' : SeqRt) : Prop := r'.ie = r.ie ∧ r'.kicked = r.kicked ∧ r'.trap = r.trap

/-- The other sequencers and the wall outside them, its objects and its samples, unchanged: what a macro-instruction that
only computes leaves. -/
structure OnlySeq (u : Nat) (s t : State) : Prop where
  mode : t.mode = s.mode
  pending : t.pending = s.pending
  seqs : ∀ n, n ≠ u → t.w.seq n = s.w.seq n
  time : t.w.time = s.w.time
  bnd : t.w.bnd = s.w.bnd
  led : t.w.led = s.w.led
  lan : t.w.lan = s.w.lan
  prt : t.w.prt = s.w.prt
  ing : t.w.ing = s.w.ing
  egr : t.w.egr = s.w.egr
  sec : t.w.sec = s.w.sec
  gra : t.w.gra = s.w.gra
  hst : t.w.hst = s.w.hst
  win : t.w.win = s.w.win
  out : t.w.out = s.w.out

/-- The instruction `c` of sequencer `u` computes: it completes and goes one instruction on, leaves IE, the kick time and the
TRAP code and every general register not in `ds`, and `P` relates the sequencer before and after. -/
def Computes (c : Instr) (u : Nat) (ds : List Nat) (s : State) (P : SeqRt → SeqRt → Prop) : Prop :=
  Completes c s fun t => OnlySeq u s t ∧ Stepped (s.w.seq u) (t.w.seq u) ∧ sameCtl (s.w.seq u) (t.w.seq u) ∧
    (∀ i, i ∉ ds → (t.w.seq u).reg i = (s.w.seq u).reg i) ∧ P (s.w.seq u) (t.w.seq u)

/-- A signed number fits 32 bits. -/
def fits32 (i : Int) : Prop := -2 ^ 31 ≤ i ∧ i < 2 ^ 31

/-- A branch of format B: MPC is the address of the following instruction plus the signed offset, modulo 2^12 (R559, R562). -/
def branches (r r' : SeqRt) (off : Byte) : Prop := (r'.mpc : Int) = (((r.mpc + 1) % 4096 : Nat) + off.toInt) % 4096

/-- Control goes somewhere else: `P` says where; registers, FLAGS, IE, data memory and handler state stay. -/
def Jumps (c : Instr) (u : Nat) (s : State) (P : SeqRt → SeqRt → Prop) : Prop :=
  Completes c s fun t => OnlySeq u s t ∧ SeqHeld (s.w.seq u) (t.w.seq u) ∧ sameFlags (s.w.seq u) (t.w.seq u) ∧
    sameCtl (s.w.seq u) (t.w.seq u) ∧ (t.w.seq u).g = (s.w.seq u).g ∧ (t.w.seq u).data = (s.w.seq u).data ∧
    (t.w.seq u).inHandler = (s.w.seq u).inHandler ∧ P (s.w.seq u) (t.w.seq u)

/-- Sequencer `u` takes a restart fault: a steward stops for its restart with this cause, its Bellhouse disabled; the Reeve takes the
wall from SERVICE or DOZE to KINDLE (R576, R577). -/
def Faults (c : Instr) (u cause : Nat) (s : State) : Prop :=
  Completes c s fun t =>
    (u < 16 → t.mode = s.mode ∧ tget t.w.stw.restarting u = some cause ∧ t.w.get (Reg.stState u) = 3 ∧
      t.w.get (Reg.bhEnable u) = 0 ∧ (t.w.seq u).stack = [] ∧ (t.w.seq u).ie = false) ∧
    (u = 16 → s.mode = .service ∨ s.mode = .doze → t.mode = .kindle ∧ t.w.bnd.fetchDue = true)

/-- No restart fault of the Reeve is left over from an earlier step. -/
def noFault (s : State) : Prop := s.w.stw.reeveFault = false

/-- An object that no latch, sample, counter, Daybook entry or event writes: outside 0x1101, 0x1500, 0x1520, the Bellhouses and the programmable counters. -/
abbrev Aside (o : Reg) : Prop :=
  o.key / 256 ≠ 0x1101 ∧ o.key / 256 ≠ 0x1500 ∧ o.key / 256 ≠ 0x1520 ∧ (o.key / 256 < 0x1700 ∨ 0x1711 < o.key / 256) ∧
    (o.key / 256 < 0x2100 ∨ 0x2200 ≤ o.key / 256 ∨ (o.key / 256 % 16 ≠ 13 ∧ o.key / 256 % 16 ≠ 15))

/-- The wall as the head of the Ledger queue has left it (R80). -/
def headTaken (w : Wall) : Wall := queueLevel { w with led := { w.led with queue := w.led.queue.tail } }

/-- At the head of the Ledger queue stands a plain write of `data`, of value `v`, to unit `u`, place `k` of the object `row`, and what R79
judges before the object's own effect, on the wall that the request has left, lets it pass. -/
structure Ready (r : LReq) (row : ObjRow) (u k v : Nat) (data : List Byte) (s : State) : Prop where
  served : serves s.mode s.w = true
  head : s.w.led.queue.head? = some r
  op : r.op = .write data
  index : r.index < 0xF000
  found : findRow r.index r.sub objTable = some (row, u, k)
  path : rowId row ≠ 0x113001
  value : decodeVal row.type data = v
  raw : ofLe data = v
  mode : modeAbort s.mode r (headTaken s.w) = none
  access : canWrite r.role row = true
  check2 : check2 row data = none
  check3 : check3 row u k v (headTaken s.w) = none
  steward : stewardAway r.index (headTaken s.w) = false
  state : stateRule (rowId row) u k v s.mode (headTaken s.w) = none
  present : (bareSvc (headTaken s.w) && absentBare r.index r.sub) = false

/-- The mailbox shows its request completed with a status: BUSY clear, DONE or ABORTED set (R90). -/
def mbxDone (status : Nat) (w : Wall) : Prop := bits (w.win32 0x1010 0) 2 0 = if status = 0 then 2 else 4

/-- The command that serves a write with a row of its own, for the rows that change an object or start an operation. -/
def ownCmd : Own → Option Instr
  | .trainRestart => some .trainRestart
  | .testStart => some .laneTestStart
  | .testStop => some .laneTestStop
  | .prbsClear => some .prbsClear
  | .eyeStart => some .eyeScanStart
  | .fieldConfig => some .fieldLaneConfigWrite
  | .retireClear => some .retireClear
  | .roundNow => some .roundNow
  | .surveyNow => some .surveyNow
  | .spareRate => some .spareRateWrite
  | .portRestart => some .portRestart
  | .spAdmin => some .spAdminWrite
  | .gleanFlush => some .gleanFlush
  | .gateSchedule => some .gateSchedule
  | .gateCancel => some .gateCancel
  | .saRemove => some .saRemove
  | .encodingAn => some .encodingAnWrite
  | .kekInstall => some .kekInstall
  | .kekClear => some .kekClear
  | .kiForget => some .kiForget
  | .officer => some .hostOfficerSWrite
  | .rollback => some .shelfRollback
  | .millEnable => some .millEnable
  | .millDisable => some .millDisable
  | .stewardRestart => some .stewardRestart
  | .pcClear => some .pcClearAll
  | .tallyUs => some .tallyUsWrite
  | .booksRun => some .booksRun
  | _ => none

/-- Surveys that are being measured in a brick (R236). -/
def measuringIn (b : Nat) (w : Wall) : Tbl SurveyRt := w.lan.surveys.filter fun e => brickOfLane e.1 == b && e.2.phase == .measuring

/-- An entry as a bank stores it: VALUE bits outside the mask, and the action's reserved bits, zero (R330). -/
def storedEntry (e : SieveEntry) : SieveEntry := { value := e.value &&& e.mask, mask := e.mask, action := e.action / 2 ^ 20 * 2 ^ 20 }

/-- A policer record as its four window words stand when the last one is written (R358). -/
def policerStage (b i v : Nat) (w : Wall) : Nat :=
  w.win32 (brickWin b + 0x30000 + i * 16) 0 + w.win32 (brickWin b + 0x30000 + i * 16 + 4) 0 * 2 ^ 32 +
    w.win32 (brickWin b + 0x30000 + i * 16 + 8) 0 * 2 ^ 64 + v % 4 * 2 ^ 96

/-- A record's policer with both buckets full (R340). -/
def fullPolicer (v now : Nat) : Policer :=
  { cir := bits v 31 0, cbs := bits v 63 32, ebs := bits v 95 64, flags := bits v 97 96,
    tc := bits v 63 32 * policerUnit, te := bits v 95 64 * policerUnit, last := now }

/-- The wall with a received frame entered under the next frame number, before its cells are written (R309). -/
def placed (sp stamp : Nat) (secured : Bool) (f : List Byte) (w : Wall) : Wall :=
  { w with ing := { w.ing with
      nextFrame := w.ing.nextFrame + 1
      frames := tput w.ing.frames w.ing.nextFrame
        { sp := sp, bytes := f, handle := 0, stamp := t96 ((stamp : Int) + w.time.offset), keyed := false, keyOut := false, disp := .waiting,
          down := false, copy := false, ring := 0, tag := 0, colour := 0, frag := 0, gleaned := false, secured := secured,
          l3ck := 0, l4ck := 0, result := none, hostPending := false } } }

/-- What a request of a session asks of the Ledger (R104, R109, R111). -/
def dvorAsk : Instr → Option (DvorReq × LOp)
  | .dvorRead r => some (r, .read)
  | .dvorWrite r data => some (r, .write data)
  | .dvorSegRead r offset gen len => some (r, .segRead offset gen len)
  | .dvorSegWrite r offset gen last data => some (r, .segWrite offset gen last data)
  | _ => none

/-- The request datagram that a command brings (R96, R104). -/
def dvorReqOf : Instr → Option DvorReq
  | .dvorEventAck r _ => some r
  | .dvorKeepalive r => some r
  | c => (dvorAsk c).map (·.1)

/-! ### Frames: which parts of the wall a command may change -/

/-- Parts of the wall. -/
inductive Part where
  /-- The objects of the Ledger. -/
  | registers
  /-- The host window. -/
  | windows
  /-- The clocks that a tick moves. -/
  | clock
  /-- Offset and increment of wall time. -/
  | timescale
  /-- The time unit. -/
  | time
  /-- Supplies, clocks, tags, credits and AVS. -/
  | boundary
  /-- The Ledger queue, sessions and transfers. -/
  | ledger
  /-- Lanes, groups, exchanges and surveys. -/
  | lanes
  /-- The Almanac. -/
  | almanac
  /-- Quiet, pauses, FEC and parsing. -/
  | ports
  /-- Brick buffers, Sieve, policers and Gleaner. -/
  | ingress
  /-- Egress queues, shapers and gates. -/
  | egress
  /-- SAs, keys and the device key. -/
  | security
  /-- The DRBG. -/
  | random
  /-- The Granary. -/
  | granary
  /-- The two banks of the Granary. -/
  | banks
  /-- Rings, Mills and vectors. -/
  | host
  /-- Sequencers, hooks and Bellhouse levels. -/
  | stewards
  /-- Daybook, samples, tallies and books. -/
  | observed
  /-- What the wall has sent. -/
  | emitted
  deriving DecidableEq, Repr

/-- A part is the same in two walls. -/
def Part.same (w x : Wall) : Part → Prop
  | .registers => x.regs = w.regs
  | .windows => x.win = w.win
  | .clock => x.time.tclk = w.time.tclk ∧ x.time.dclk = w.time.dclk ∧ x.time.acc = w.time.acc
  | .timescale => x.time.inc = w.time.inc ∧ x.time.offset = w.time.offset
  | .time => x.time = w.time
  | .boundary => x.bnd = w.bnd
  | .ledger => x.led = w.led
  | .lanes => x.lan = w.lan
  | .almanac => x.lan.almanac = w.lan.almanac
  | .ports => x.prt = w.prt
  | .ingress => x.ing = w.ing
  | .egress => x.egr = w.egr
  | .security => x.sec = w.sec
  | .random => x.sec.drbg = w.sec.drbg
  | .granary => x.gra = w.gra
  | .banks => x.gra.bank0 = w.gra.bank0 ∧ x.gra.bank1 = w.gra.bank1
  | .host => x.hst = w.hst
  | .stewards => x.stw = w.stw
  | .observed => x.obs = w.obs
  | .emitted => x.out = w.out

/-- The commands that serve the head of the Ledger queue: what they reach is what any object's effect may reach. -/
def servesHead : Instr → Bool
  | .lookupSearch | .lookupNext | .ledgerRead | .ledgerWrite | .ledgerSegRead | .ledgerSegWrite | .storeRange | .restoreRange
  | .defaultRange | .modeRequestEmber | .modeRequestKindle | .modeRequestService | .modeRequestDoze | .trainRestart | .laneTestStart
  | .laneTestStop | .prbsClear | .eyeScanStart | .fieldLaneConfigWrite | .retireClear | .roundNow | .surveyNow | .spareRateWrite
  | .portRestart | .spAdminWrite | .gleanFlush | .sieveSwap .. | .gateSchedule | .gateCancel | .timeSet | .timeStep | .freqAdjWrite
  | .txStampNextRead | .saInstall | .saRemove | .encodingAnWrite | .kekInstall | .kekClear | .kiForget | .hostOfficerSWrite | .shelfRollback
  | .millEnable | .millDisable | .stewardRestart | .pcClearAll | .tallyUsWrite | .sampleNextRead | .booksRun => true
  | _ => false

/-- Commands that may change the objects of the Ledger: all but these. -/
def reachRegisters : Instr → Bool
  | .pfailNRise | .pfailReopen | .wakeAccept | .targetAccessError .. | .flushSpIssue .. | .flushSpComplete .. | .avsStep | .dvorClose ..
  | .handshakeTimeout .. | .sessionIdleTimeout .. | .segTransferTimeout .. | .eventRetransmit .. | .listeningBurst .. | .trainingReady ..
  | .gossipOffer .. | .gossipAccept .. | .gossipRoll .. | .gossipSurvey .. | .fieldLaneRetry .. | .spareBurst .. | .bridgeCompareDone ..
  | .serviceSHourly | .pfcRefresh .. | .quietIdleExpiry .. | .partnerWakeBurst .. | .cellIdleClose .. | .sieveWriteShadow ..
  | .sieveWriteBoth .. | .sieveReadShadow .. | .sieveReadActive .. | .sieveInvalidateShadow .. | .sieveInvalidateBoth .. | .hitCountClear ..
  | .gateEntryChange .. | .queueDropsClear .. | .changeCommitTimer .. | .digestBucketRefill | .ringStopped .. | .holdoffExpiry ..
  | .pcValueRead .. | .headerLockRegained .. | .vcoreToleranceChange .. => false
  | _ => true

/-- Commands that may change the host window. -/
def reachWindows : Instr → Bool
  | .powerGood .. | .rootPllLock .. | .refcoreLoss | .reflaneLoss .. | .reflaneRestored .. | .zeroiseAccept | .vcoreRemoved
  | .hostWindowWrite .. | .readCompletion .. | .readTagTimeout .. | .tagQuarantineEnd .. | .egressCell .. | .lookupComplete ..
  | .lookupTimeout .. | .thermalShutdown .. | .mbxRead | .mbxWrite | .mbxSegRead | .mbxSegWrite .. | .dvorRead .. | .dvorWrite ..
  | .dvorSegRead .. | .dvorSegWrite .. | .dozeWakeFrame .. | .storeComplete | .emberDrained | .reeveWatchdog | .detectTimeout ..
  | .pam2Timeout .. | .trainingTimeout .. | .exchangeTimeout .. | .hello .. | .cdrLockLoss .. | .signalDetectLoss .. | .gossipRefuse ..
  | .gossipLoss .. | .fecWindowEnd .. | .headerLockTimeout .. | .hiBer .. | .quietHandshakeTimeout .. | .partnerWakeTimeout ..
  | .sieveWriteShadow .. | .sieveWriteBoth .. | .sieveReadShadow .. | .sieveReadActive .. | .sieveInvalidateShadow ..
  | .sieveInvalidateBoth .. | .sieveSwapDone .. | .policerApply .. | .schedulerSelect .. | .txFrameDone .. | .shaperApply .. | .timeResync
  | .pnReservationCommit .. | .selftestNow .. | .zeroiseNow | .zeroisationComplete | .macsecKatDaily .. | .continuousTestFail | .tamperEvent
  | .sheafCommit .. | .vgranFailTimeout | .ringDoorbell .. | .ringEnable .. | .ringDisable .. | .ringStopped .. | .descriptorFetchDone ..
  | .txDataReadDone .. | .rxRingDeliver .. | .millFrame .. | .millOversize .. | .mLd .. | .mSt .. | .mCall .. | .mRet .. | .mReti ..
  | .mHook .. | .vendorOpcode .. | .bellhouseTake .. | .routineOverrun .. | .pcValueRead .. | .vembRemoved | .idleAfterLpi .. => true
  | c => servesHead c

/-- Commands that may change the clocks that a tick moves. -/
def reachClock : Instr → Bool
  | .powerGood .. | .rootPllLock .. | .vcoreRemoved | .emberDrained | .vembRemoved => true
  | _ => false

/-- Commands that may change offset and increment of wall time. -/
def reachTimescale : Instr → Bool
  | .powerGood .. | .rootPllLock .. | .vcoreRemoved | .emberDrained | .timeResync | .vembRemoved => true
  | _ => false

/-- Commands that may change the time unit. -/
def reachTime : Instr → Bool
  | .powerGood .. | .rootPllLock .. | .vcoreRemoved | .emberDrained | .txFrameDone .. | .timeResync | .selftestNow .. | .zeroiseNow
  | .vembRemoved => true
  | c => servesHead c

/-- Commands that may change supplies, clocks, tags, credits and AVS. -/
def reachBoundary : Instr → Bool
  | .powerGood .. | .rootPllLock .. | .refcoreLoss | .refcoreRestored | .reflaneLoss .. | .reflaneRestored .. | .pfailAccept
  | .pfailDrainDone | .pfailNRise | .pfailReopen | .wakeAccept | .zeroiseAccept | .vcoreRemoved | .hostWindowWrite .. | .readCompletion ..
  | .readTagTimeout .. | .tagQuarantineEnd .. | .creditReturn .. | .creditInit .. | .waitingChange .. | .avsStep | .avsAnswer ..
  | .avsAnswerTimeout | .thermalShutdown .. | .dozeWakeFrame .. | .storeComplete | .emberDrained | .reeveWatchdog | .surveyStart ..
  | .cellSend .. | .txFrameDone .. | .selftestNow .. | .zeroiseNow | .zeroisationComplete | .macsecKatDaily .. | .continuousTestFail
  | .tamperEvent | .vgranLoss | .vgranRestored | .ringDoorbell .. | .descriptorFetchDone .. | .txDataReadDone .. | .rxRingDeliver ..
  | .millFrame .. | .mLd .. | .mSt .. | .mCall .. | .mRet .. | .mReti .. | .mHook .. | .vendorOpcode .. | .bellhouseTake ..
  | .routineOverrun .. | .vcoreToleranceChange .. | .vembRemoved => true
  | c => servesHead c

/-- Commands that may change the Ledger queue, sessions and transfers. -/
def reachLedger : Instr → Bool
  | .powerGood .. | .rootPllLock .. | .refcoreLoss | .reflaneLoss .. | .reflaneRestored .. | .pfailDrainDone | .zeroiseAccept
  | .vcoreRemoved | .hostWindowWrite .. | .egressCell .. | .lookupComplete .. | .lookupTimeout .. | .thermalShutdown .. | .mbxRead
  | .mbxWrite | .mbxSegRead | .mbxSegWrite .. | .dvorOpen .. | .dvorOpenConfirm .. | .dvorClose .. | .dvorRead .. | .dvorWrite ..
  | .dvorSegRead .. | .dvorSegWrite .. | .dvorEventAck .. | .dvorKeepalive .. | .icmpv6Request .. | .handshakeTimeout ..
  | .sessionIdleTimeout .. | .segTransferTimeout .. | .eventRetransmit .. | .storeComplete | .emberDrained | .reeveWatchdog
  | .detectTimeout .. | .pam2Timeout .. | .trainingTimeout .. | .exchangeTimeout .. | .hello .. | .blockLock .. | .cdrLockLoss ..
  | .signalDetectLoss .. | .gossipStatus .. | .gossipConfirm .. | .gossipPrepare .. | .gossipRolled .. | .gossipRefuse .. | .gossipRetire ..
  | .gossipLoss .. | .fecWindowEnd .. | .eyeScanDone .. | .spareFault .. | .rollCodeword .. | .rollTimeout .. | .spareDeskewed ..
  | .retestMeasured .. | .surveyStart .. | .surveyPrbsEnd .. | .headerLockTimeout .. | .hiBer .. | .rxFrame .. | .quietHandshakeTimeout ..
  | .partnerWakeTimeout .. | .creditStall .. | .sieveWriteShadow .. | .sieveWriteBoth .. | .sieveInvalidateShadow ..
  | .sieveInvalidateBoth .. | .sieveSwapDone .. | .sieveScrubCompare .. | .policerApply .. | .schedulerSelect .. | .gateConfigChange ..
  | .timeResync | .pnReservationCommit .. | .selftestNow .. | .zeroiseNow | .zeroisationComplete | .macsecKatDaily .. | .continuousTestFail
  | .tamperEvent | .sheafCommit .. | .wearProjection | .granaryScrubRead .. | .vgranFailTimeout | .mLd .. | .mSt .. | .mOut .. | .mCall ..
  | .mRet .. | .mReti .. | .mHook .. | .vendorOpcode .. | .illegalOpcode .. | .bellhouseTake .. | .routineOverrun ..
  | .stewardRestartDone .. | .booksComplete | .vembRemoved | .idleAfterLpi .. => true
  | c => servesHead c

/-- Commands that may change lanes, groups, exchanges and surveys. -/
def reachLanes : Instr → Bool
  | .powerGood .. | .rootPllLock .. | .refcoreLoss | .reflaneLoss .. | .reflaneRestored .. | .zeroiseAccept | .vcoreRemoved
  | .thermalShutdown .. | .dozeWakeFrame .. | .storeComplete | .emberDrained | .reeveWatchdog | .detectDone .. | .detectTimeout ..
  | .pam2Timeout .. | .trainingTimeout .. | .exchangeTimeout .. | .backoffExpiry .. | .activeHoldExpiry .. | .trainingFrame .. | .hello ..
  | .trainingReady .. | .readyCountdownEnd .. | .rxReady .. | .trainingCountdownEnd .. | .blockLock .. | .cdrLock .. | .cdrLockLoss ..
  | .signalDetectLoss .. | .gossipStatus .. | .gossipOffer .. | .gossipAccept .. | .gossipConfirm .. | .gossipSpare .. | .gossipPrepare ..
  | .gossipReady .. | .gossipRoll .. | .gossipRolled .. | .gossipRefuse .. | .gossipSurvey .. | .gossipRetire .. | .gossipLoss ..
  | .fecWindowEnd .. | .spareFault .. | .bridgeCompareDone .. | .rollCodeword .. | .rollTimeout .. | .spareDeskewed .. | .retestStart ..
  | .retestMeasured .. | .roundPeriodExpiry | .surveyStart .. | .surveyPrbsEnd .. | .headerLockTimeout .. | .hiBer .. | .lpiReceived ..
  | .quietHandshakeTimeout .. | .quietWakeComplete .. | .partnerWakeTimeout .. | .selftestNow .. | .zeroiseNow | .zeroisationComplete
  | .macsecKatDaily .. | .continuousTestFail | .tamperEvent | .millDrained .. | .mLd .. | .mSt .. | .mCall .. | .mRet .. | .mReti ..
  | .mHook .. | .vendorOpcode .. | .bellhouseTake .. | .routineOverrun .. | .stewardRestartDone .. | .vembRemoved | .idleAfterLpi .. => true
  | c => servesHead c

/-- Commands that may change the Almanac. -/
def reachAlmanac : Instr → Bool
  | .powerGood .. | .rootPllLock .. | .vcoreRemoved | .emberDrained | .surveyStart .. | .surveyPrbsEnd .. | .vembRemoved => true
  | _ => false

/-- Commands that may change quiet, pauses, FEC and parsing. -/
def reachPorts : Instr → Bool
  | .powerGood .. | .rootPllLock .. | .refcoreLoss | .reflaneLoss .. | .reflaneRestored .. | .zeroiseAccept | .vcoreRemoved | .egressCell ..
  | .thermalShutdown .. | .dozeWakeFrame .. | .storeComplete | .emberDrained | .reeveWatchdog | .detectTimeout .. | .pam2Timeout ..
  | .trainingTimeout .. | .exchangeTimeout .. | .hello .. | .blockLock .. | .cdrLockLoss .. | .signalDetectLoss .. | .gossipStatus ..
  | .gossipConfirm .. | .gossipRolled .. | .gossipRefuse .. | .gossipLoss .. | .fecWindowEnd .. | .rollCodeword .. | .spareDeskewed ..
  | .headerLockLoss .. | .headerLockTimeout .. | .hiBer .. | .rxFrame .. | .pauseFrameRx .. | .pfcFrameRx .. | .pauseExpiry ..
  | .pfcRefresh .. | .quietIdleExpiry .. | .lpiReceived .. | .quietHandshakeTimeout .. | .partnerWakeBurst .. | .quietWakeComplete ..
  | .partnerWakeTimeout .. | .cellSend .. | .schedulerSelect .. | .txFrameDone .. | .selftestNow .. | .zeroiseNow | .zeroisationComplete
  | .macsecKatDaily .. | .continuousTestFail | .tamperEvent | .txDataReadDone .. | .rxRingDeliver .. | .mLd .. | .mSt .. | .mCall ..
  | .mRet .. | .mReti .. | .mHook .. | .vendorOpcode .. | .bellhouseTake .. | .routineOverrun .. | .headerLockRegained .. | .vembRemoved
  | .idleAfterLpi .. => true
  | c => servesHead c

/-- Commands that may change brick buffers, Sieve, policers and Gleaner. -/
def reachIngress : Instr → Bool
  | .powerGood .. | .rootPllLock .. | .refcoreLoss | .reflaneLoss .. | .reflaneRestored .. | .zeroiseAccept | .vcoreRemoved
  | .hostWindowWrite .. | .egressCell .. | .decisionArrive .. | .decisionTimeout .. | .flushSpIssue .. | .flushSpComplete ..
  | .lookupComplete .. | .lookupTimeout .. | .thermalShutdown .. | .storeComplete | .emberDrained | .reeveWatchdog | .detectTimeout ..
  | .pam2Timeout .. | .trainingTimeout .. | .exchangeTimeout .. | .hello .. | .blockLock .. | .cdrLockLoss .. | .signalDetectLoss ..
  | .gossipStatus .. | .gossipConfirm .. | .gossipRefuse .. | .gossipLoss .. | .fecWindowEnd .. | .headerLockTimeout .. | .hiBer ..
  | .rxFrame .. | .quietHandshakeTimeout .. | .partnerWakeTimeout .. | .cellIdleClose .. | .cellSend .. | .creditStall ..
  | .gleanerExpiry .. | .sieveWriteShadow .. | .sieveWriteBoth .. | .sieveInvalidateShadow .. | .sieveInvalidateBoth .. | .sieveSwapDone ..
  | .sieveScrubCompare .. | .hitCountClear .. | .policerApply .. | .selftestNow .. | .zeroiseNow | .zeroisationComplete | .macsecKatDaily ..
  | .continuousTestFail | .tamperEvent | .rxRingDeliver .. | .mLd .. | .mSt .. | .mCall .. | .mRet .. | .mReti .. | .mHook ..
  | .vendorOpcode .. | .bellhouseTake .. | .routineOverrun .. | .vembRemoved | .idleAfterLpi .. => true
  | c => servesHead c

/-- Commands that may change egress queues, shapers and gates. -/
def reachEgress : Instr → Bool
  | .powerGood .. | .rootPllLock .. | .refcoreLoss | .reflaneLoss .. | .reflaneRestored .. | .zeroiseAccept | .vcoreRemoved
  | .hostWindowWrite .. | .readCompletion .. | .readTagTimeout .. | .tagQuarantineEnd .. | .egressCell .. | .thermalShutdown ..
  | .dozeWakeFrame .. | .storeComplete | .emberDrained | .reeveWatchdog | .detectTimeout .. | .pam2Timeout .. | .trainingTimeout ..
  | .exchangeTimeout .. | .hello .. | .cdrLockLoss .. | .signalDetectLoss .. | .gossipRefuse .. | .gossipLoss .. | .fecWindowEnd ..
  | .headerLockTimeout .. | .hiBer .. | .quietHandshakeTimeout .. | .partnerWakeTimeout .. | .schedulerSelect .. | .txFrameDone ..
  | .calendarRelease .. | .gateEntryChange .. | .gateConfigChange .. | .queueDropsClear .. | .shaperApply .. | .selftestNow .. | .zeroiseNow
  | .zeroisationComplete | .macsecKatDaily .. | .continuousTestFail | .tamperEvent | .ringDoorbell .. | .descriptorFetchDone ..
  | .txDataReadDone .. | .rxRingDeliver .. | .millFrame .. | .mLd .. | .mSt .. | .mCall .. | .mRet .. | .mReti .. | .mHook ..
  | .vendorOpcode .. | .bellhouseTake .. | .routineOverrun .. | .vembRemoved | .idleAfterLpi .. => true
  | c => servesHead c

/-- Commands that may change SAs, keys and the device key. -/
def reachSecurity : Instr → Bool
  | .powerGood .. | .rootPllLock .. | .refcoreRestored | .zeroiseAccept | .vcoreRemoved | .dvorOpen .. | .emberDrained | .rxFrame ..
  | .schedulerSelect .. | .pnReservationCommit .. | .pnReservationRetry .. | .selftestNow .. | .zeroiseNow | .zeroisationComplete
  | .macsecKatDaily .. | .continuousTestFail | .tamperEvent | .sheafCommit .. | .vgranFailTimeout | .vembRemoved => true
  | c => servesHead c

/-- Commands that may change the DRBG. -/
def reachRandom : Instr → Bool
  | .rootPllLock .. | .dvorOpen .. => true
  | _ => false

/-- Commands that may change the Granary. -/
def reachGranary : Instr → Bool
  | .powerGood .. | .rootPllLock .. | .refcoreLoss | .refcoreRestored | .pfailAccept | .pfailDrainDone | .pfailReopen | .zeroiseAccept
  | .vcoreRemoved | .avsAnswer .. | .thermalShutdown .. | .dvorOpenConfirm .. | .storeComplete | .emberDrained | .reeveWatchdog
  | .surveyStart .. | .surveyPrbsEnd .. | .serviceSHourly | .rxFrame .. | .schedulerSelect .. | .pnReservationCommit ..
  | .pnReservationRetry .. | .selftestNow .. | .zeroiseNow | .zeroisationComplete | .macsecKatDaily .. | .continuousTestFail | .tamperEvent
  | .sheafCommit .. | .wearProjection | .granaryScrubRead .. | .vgranRestored | .vgranFailTimeout | .changeCommitTimer ..
  | .digestBucketRefill | .mLd .. | .mSt .. | .mCall .. | .mRet .. | .mReti .. | .mHook .. | .vendorOpcode .. | .bellhouseTake ..
  | .routineOverrun .. | .stewardRestartDone .. | .vembRemoved => true
  | c => servesHead c

/-- Commands that may change the two banks of the Granary. -/
def reachBanks : Instr → Bool
  | .rootPllLock .. | .refcoreLoss | .pfailDrainDone | .storeComplete | .modeRequestEmber | .emberDrained | .modeRequestKindle
  | .modeRequestService | .modeRequestDoze | .reeveWatchdog | .zeroisationComplete | .sheafCommit .. | .granaryScrubRead .. | .mLd ..
  | .mSt .. | .mCall .. | .mRet .. | .mReti .. | .mHook .. | .vendorOpcode .. | .bellhouseTake .. | .routineOverrun .. => true
  | _ => false

/-- Commands that may change rings, Mills and vectors: all but these. -/
def reachHost : Instr → Bool
  | .refcoreRestored | .pfailNRise | .pfailReopen | .wakeAccept | .targetAccessError .. | .unmappedAccess .. | .flushSpIssue ..
  | .flushSpComplete .. | .waitingChange .. | .avsStep | .dvorClose .. | .fieldFrameOther .. | .handshakeTimeout .. | .sessionIdleTimeout ..
  | .segTransferTimeout .. | .eventRetransmit .. | .listeningBurst .. | .activeHoldExpiry .. | .trainingReady .. | .cdrLock ..
  | .gossipOffer .. | .gossipAccept .. | .gossipRoll .. | .gossipSurvey .. | .prbsCheckerLock .. | .eyeScanResume .. | .fieldLaneRetry ..
  | .spareBurst .. | .bridgeCompareDone .. | .roundPeriodExpiry | .serviceSHourly | .pauseExpiry .. | .pfcRefresh .. | .quietIdleExpiry ..
  | .partnerWakeBurst .. | .cellIdleClose .. | .gleanerExpiry .. | .sieveWriteShadow .. | .sieveWriteBoth .. | .sieveReadShadow ..
  | .sieveReadActive .. | .sieveInvalidateShadow .. | .sieveInvalidateBoth .. | .hitCountClear .. | .policerApply .. | .gateEntryChange ..
  | .gateConfigChange .. | .queueDropsClear .. | .shaperApply .. | .hostOfficerExpiry | .changeCommitTimer .. | .allowanceRefill
  | .digestBucketRefill | .ringStopped .. | .holdoffExpiry .. | .pcValueRead .. | .tallyWindowEnd .. | .booksPeriodDue
  | .headerLockRegained .. | .vcoreToleranceChange .. => false
  | _ => true

/-- Commands that may change sequencers, hooks and Bellhouse levels. -/
def reachStewards : Instr → Bool
  | .powerGood .. | .rootPllLock .. | .vcoreRemoved | .hostWindowWrite .. | .tjAlarm .. | .thermalShutdown .. | .mbxRead | .mbxWrite
  | .mbxSegRead | .mbxSegWrite .. | .dvorOpen .. | .dvorOpenConfirm .. | .dvorRead .. | .dvorWrite .. | .dvorSegRead .. | .dvorSegWrite ..
  | .dvorEventAck .. | .dvorKeepalive .. | .dvorDatagramBad .. | .icmpv6Request .. | .dozeWakeFrame .. | .storeComplete | .emberDrained
  | .reeveWatchdog | .cdrLockLoss .. | .signalDetectLoss .. | .gossipLoss .. | .fecWindowEnd .. | .schedulerSelect .. | .txFrameDone ..
  | .pnReservationCommit .. | .pnReservationRetry .. | .selftestNow .. | .zeroiseNow | .vgranLoss | .vgranRestored | .mNop .. | .mMov ..
  | .mLdi .. | .mLdh .. | .mAdd .. | .mSub .. | .mAnd .. | .mOr .. | .mXor .. | .mShl .. | .mShr .. | .mCmp .. | .mAddq .. | .mSubq ..
  | .mLd .. | .mSt .. | .mIn .. | .mOut .. | .mBr .. | .mBz .. | .mBnz .. | .mBn .. | .mBc .. | .mCall .. | .mRet .. | .mJr .. | .mWait ..
  | .mReti .. | .mDi .. | .mEi .. | .mHook .. | .mKick .. | .mTrap .. | .vendorOpcode .. | .illegalOpcode .. | .bellhouseTake ..
  | .holdoffExpiry .. | .routineOverrun .. | .stewardWatchdog .. | .stewardRestartDone .. | .vembRemoved => true
  | c => servesHead c

/-- Commands that may change Daybook, samples, tallies and books: all but these. -/
def reachObserved : Instr → Bool
  | .refcoreRestored | .pfailNRise | .pfailReopen | .wakeAccept | .targetAccessError .. | .unmappedAccess .. | .hostWindowWrite ..
  | .readCompletion .. | .readTagTimeout .. | .tagQuarantineEnd .. | .decisionTimeout .. | .flushSpIssue .. | .flushSpComplete ..
  | .lookupComplete .. | .lookupTimeout .. | .waitingChange .. | .avsStep | .avsAnswer .. | .tjAlarm .. | .mbxRead | .mbxWrite | .mbxSegRead
  | .mbxSegWrite .. | .dvorOpen .. | .dvorClose .. | .dvorRead .. | .dvorWrite .. | .dvorSegRead .. | .dvorSegWrite .. | .dvorEventAck ..
  | .dvorKeepalive .. | .dvorDatagramBad .. | .icmpv6Request .. | .fieldFrameOther .. | .handshakeTimeout .. | .sessionIdleTimeout ..
  | .segTransferTimeout .. | .eventRetransmit .. | .detectDone .. | .listeningBurst .. | .activeHoldExpiry .. | .trainingReady ..
  | .readyCountdownEnd .. | .rxReady .. | .trainingCountdownEnd .. | .cdrLock .. | .gossipOffer .. | .gossipAccept .. | .gossipReady ..
  | .gossipRoll .. | .gossipSurvey .. | .prbsCheckerLock .. | .eyeScanDone .. | .eyeScanResume .. | .eyeScanAbort .. | .fieldLaneRetry ..
  | .spareBurst .. | .bridgeCompareDone .. | .retestStart .. | .roundPeriodExpiry | .telltaleMeasure .. | .serviceSHourly
  | .headerLockLoss .. | .pauseExpiry .. | .pfcRefresh .. | .quietIdleExpiry .. | .partnerWakeBurst .. | .cellIdleClose ..
  | .gleanerExpiry .. | .sieveWriteShadow .. | .sieveWriteBoth .. | .sieveReadShadow .. | .sieveReadActive .. | .sieveInvalidateShadow ..
  | .sieveInvalidateBoth .. | .sieveSwapDone .. | .hitCountClear .. | .policerApply .. | .gateEntryChange .. | .gateConfigChange ..
  | .queueDropsClear .. | .shaperApply .. | .timeResync | .pnReservationCommit .. | .pnReservationRetry .. | .hostOfficerExpiry | .vgranLoss
  | .vgranRestored | .changeCommitTimer .. | .allowanceRefill | .digestBucketRefill | .ringDoorbell .. | .ringEnable .. | .ringDisable ..
  | .ringStopped .. | .descriptorFetchDone .. | .txDataReadDone .. | .rxRingDeliver .. | .vectorDelivery .. | .millFrame ..
  | .millOversize .. | .hostBhEnableWrite .. | .hostBhClear .. | .holdoffExpiry .. | .stewardWatchdog .. | .pcValueRead ..
  | .headerLockRegained .. | .vcoreToleranceChange .. | .sequencerTimerExpiry .. | .drbgReseedDue => false
  | _ => true

/-- Commands that may change what the wall has sent: all but these. -/
def reachEmitted : Instr → Bool
  | .powerGood .. | .refcoreRestored | .pfailAccept | .pfailNRise | .pfailReopen | .vcoreRemoved | .unmappedAccess .. | .creditReturn ..
  | .creditInit .. | .creditWordInvalid .. | .decisionArrive .. | .decisionTimeout .. | .flushSpOverdue .. | .waitingChange ..
  | .avsAnswer .. | .avsAnswerTimeout | .tjAlarm .. | .dvorDatagramBad .. | .fieldFrameOther .. | .handshakeTimeout ..
  | .segTransferTimeout .. | .activeHoldExpiry .. | .trainingReady .. | .readyCountdownEnd .. | .rxReady .. | .trainingCountdownEnd ..
  | .cdrLock .. | .gossipRoll .. | .gossipSurvey .. | .gossipBadWord .. | .prbsCheckerLock .. | .eyeScanDone .. | .eyeScanResume ..
  | .eyeScanAbort .. | .fieldLaneUp .. | .fieldLaneDown .. | .fieldLaneRetry .. | .roundPeriodExpiry | .telltaleMeasure .. | .serviceSHourly
  | .headerLockLoss .. | .pauseFrameRx .. | .pfcFrameRx .. | .pauseExpiry .. | .pfcRefresh .. | .quietWakeComplete .. | .cellIdleClose ..
  | .gleanerExpiry .. | .sieveWriteShadow .. | .sieveWriteBoth .. | .sieveReadShadow .. | .sieveReadActive .. | .sieveInvalidateShadow ..
  | .sieveInvalidateBoth .. | .hitCountClear .. | .policerApply .. | .calendarRelease .. | .gateEntryChange .. | .gateConfigChange ..
  | .queueDropsClear .. | .shaperApply .. | .pnReservationRetry .. | .hostOfficerExpiry | .vgranLoss | .vgranRestored
  | .changeCommitTimer .. | .allowanceRefill | .digestBucketRefill | .ringEnable .. | .ringDisable .. | .ringStopped ..
  | .hostBhEnableWrite .. | .hostBhClear .. | .mNop .. | .mMov .. | .mLdi .. | .mLdh .. | .mAdd .. | .mSub .. | .mAnd .. | .mOr ..
  | .mXor .. | .mShl .. | .mShr .. | .mCmp .. | .mAddq .. | .mSubq .. | .mIn .. | .mBr .. | .mBz .. | .mBnz .. | .mBn .. | .mBc .. | .mJr ..
  | .mWait .. | .mDi .. | .mEi .. | .mKick .. | .mTrap .. | .holdoffExpiry .. | .stewardWatchdog .. | .counterWrap .. | .pcValueRead ..
  | .tallyWindowEnd .. | .booksPeriodDue | .headerLockRegained .. | .vcoreToleranceChange .. | .vembRemoved | .sequencerTimerExpiry ..
  | .drbgReseedDue => false
  | _ => true

/-- Which commands may change a part. -/
def Part.reach : Part → Instr → Bool
  | .registers => reachRegisters
  | .windows => reachWindows
  | .clock => reachClock
  | .timescale => reachTimescale
  | .time => reachTime
  | .boundary => reachBoundary
  | .ledger => reachLedger
  | .lanes => reachLanes
  | .almanac => reachAlmanac
  | .ports => reachPorts
  | .ingress => reachIngress
  | .egress => reachEgress
  | .security => reachSecurity
  | .random => reachRandom
  | .granary => reachGranary
  | .banks => reachBanks
  | .host => reachHost
  | .stewards => reachStewards
  | .observed => reachObserved
  | .emitted => reachEmitted

/-! ### Moves between modes, by what triggers them -/

/-- The moves of R127 that a command is the trigger of. A requested move follows its response, or the end of the store command it
waits for (R129, R130); a restart fault of the Reeve ends its macro-instruction (R576). -/
def moveBy (c : Instr) (a b : Mode) : Bool :=
  let serving := a == .service || a == .doze
  match c with
  | .powerGood .. => (a == .off || a == .ember) && b == .kindle
  | .rootPllLock .. => a == .kindle && (b == .service || b == .sealedMode)
  | .refcoreLoss | .reeveWatchdog | .mLd .. | .mSt .. | .mCall .. | .mRet .. | .mReti .. | .mHook .. | .vendorOpcode ..
  | .bellhouseTake .. | .routineOverrun .. => serving && b == .kindle
  | .storeComplete | .modeRequestEmber | .modeRequestKindle | .modeRequestService | .modeRequestDoze =>
    serving && b == .kindle || a == .doze && b == .service || a == .service && b == .doze
  | .dozeWakeFrame .. => a == .doze && b == .service
  | .emberDrained => serving && b == .ember
  | .selftestNow .. | .zeroisationComplete | .macsecKatDaily .. | .continuousTestFail | .tamperEvent =>
    (a == .kindle || serving) && b == .sealedMode
  | .vcoreRemoved => a != .off && a != .ember && b == .off
  | .vembRemoved => b == .off
  | _ => false

end Sys2Proof.Machine
end

