-- ==== Sys2Proof/Certificates/Slice0/Obligations.lean ====
section
/-! DEFINITION. The statements, family by family. Each docstring names the rules its statement rests on; a statement that
rests on a value or an order the spec leaves open names the log entry. -/

open Sys2Proof Sys2Proof.Machine

/-! ### The boundary (R23 to R75, R126, R127) -/

/-- Power comes and goes (R41, R127): the last power-good starts KINDLE, from EMBER only after a wake; VCORE gone means OFF and an invalid retention
store, VEMB gone loses the ember island too. The rails' values are log entry 15's. Beyond the rules' own words it takes the model's reading: log
entries 7, 14, 15, 16. -/
def Obligations.PowerMovesTheMode : Prop :=
  (∀ (r : Nat) (s : State), s.mode = .off → Completes (.powerGood r) s fun t => t.mode = .kindle ∧
    t.w.bnd.waitRef = true ∧ t.w.bnd.cause = 1 ∧ t.w.get Reg.railGood = 0x1F ∧ t.w.get Reg.reflanePresent = r % 2 ^ 16 ∧
    t.w.led.queue = [] ∧ t.w.led.sessions = [] ∧ t.w.sec.sas = []) ∧
  (∀ (r : Nat) (s : State), s.mode = .ember → s.w.bnd.wakeReq = true →
    Completes (.powerGood r) s fun t => t.mode = .kindle ∧ t.w.bnd.waitRef = true ∧
      t.w.bnd.cause = (if s.w.bnd.zeroLatch then 3 else 2) + 256 ∧ t.w.gra.retention = s.w.gra.retention ∧
      t.w.bnd.emberTick = s.w.bnd.emberTick ∧ t.w.bnd.zeroLatch = s.w.bnd.zeroLatch) ∧
  (∀ (r : Nat) (s : State), s.mode = .ember → s.w.bnd.wakeReq = false → exec (.powerGood r) s = .next s) ∧
  (∀ s : State, s.mode ≠ .off → s.mode ≠ .ember → Completes .vcoreRemoved s fun t => t.mode = .off ∧
    t.w.gra.retention.valid = false ∧ t.w.gra.bank0 = s.w.gra.bank0 ∧ t.w.gra.bank1 = s.w.gra.bank1 ∧
    t.w.gra.shelf = s.w.gra.shelf ∧ t.w.sec.sas = [] ∧ t.w.led.sessions = []) ∧
  (∀ s : State, Completes .vembRemoved s fun t => t.mode = .off ∧ t.w.bnd.vembUp = false ∧ t.w.bnd.emberTick = 0 ∧
    t.w.bnd.zeroLatch = false ∧ t.w.gra.retention.valid = false ∧ t.w.gra.bank0 = s.w.gra.bank0)

/-- KINDLE at its first ROM fetch (R131, R132, R134): a bad ROM check halts the Reeve at step 1; a failed self-test seals the wall; with both banks
blank and nothing against it, the wall is in SERVICE with KINDLE_STEP 8. Beyond the rules' own words it takes the model's reading: log entries 15,
16. -/
def Obligations.RootPllLockRunsKindle : Prop :=
  ∀ (i : KindleIn) (s : State), s.mode = .kindle → s.w.bnd.waitRef = true → s.w.bnd.clocksStopped = false → s.w.bnd.pfail = false →
    (i.romOk = false → Completes (.rootPllLock i) s fun t => t.mode = .kindle ∧ t.w.get Reg.kindleStep = 0xFF ∧
      t.w.bnd.waitRef = false) ∧
    (i.romOk = true → i.zeroisePin = false → s.w.bnd.zeroLatch = false → i.selftest ≠ 0 →
      Completes (.rootPllLock i) s fun t => t.mode = .sealedMode ∧ t.w.sec.sas = [] ∧ t.w.sec.keks = []) ∧
    (i.romOk = true → i.zeroisePin = false → s.w.bnd.zeroLatch = false → i.selftest = 0 → i.damage = [] →
      i.headerOk0 = true → i.headerOk1 = true → s.w.gra.bank0 = [] → s.w.gra.bank1 = [] → s.w.gra.hdr0 = [] → s.w.gra.hdr1 = [] →
      Completes (.rootPllLock i) s fun t => t.mode = .service ∧ t.w.get Reg.kindleStep = 8 ∧ t.w.get Reg.lastCause = 4)

/-- References (R30, R31): without REFCORE the clocks stand, the wall is in KINDLE or stays SEALED, and its return makes the next ROM fetch due;
REFLANEb's presence follows it, and its loss latches source 15 of the brick. VCORE's tolerance sets and clears the write inhibit (R35). Beyond the
rules' own words it takes the model's reading: log entries 14, 17. -/
def Obligations.ReferencesAndTolerance : Prop :=
  (∀ s : State, clocksRun s.mode s.w = true → halted s.w = false → s.mode ≠ .sealedMode →
    Completes .refcoreLoss s fun t => t.mode = .kindle ∧ t.w.bnd.clocksStopped = true ∧ t.w.bnd.fetchDue = false ∧
      t.w.bnd.cause = 15 + modeCode s.mode * 256) ∧
  (∀ s : State, clocksRun s.mode s.w = true → halted s.w = false → s.mode = .sealedMode →
    Completes .refcoreLoss s fun t => t.mode = .sealedMode ∧ t.w.bnd.clocksStopped = true) ∧
  (∀ s : State, s.mode = .kindle → s.w.bnd.clocksStopped = true → halted s.w = false →
    Completes .refcoreRestored s fun t => t.mode = .kindle ∧ t.w.bnd.clocksStopped = false ∧ t.w.bnd.fetchDue = true) ∧
  (∀ (b : Brick) (s : State), portsOn s.mode s.w = true → bit s.w.bnd.refLanes b.val = true →
    Completes (.reflaneLoss b) s fun t => t.w.bnd.refLanes = clrBit s.w.bnd.refLanes b.val ∧
      bit (t.w.get (Reg.bhPending b.val)) 15 = true) ∧
  (∀ (b : Brick) (s : State), portsOn s.mode s.w = true → bit s.w.bnd.refLanes b.val = false →
    Completes (.reflaneRestored b) s fun t => t.w.bnd.refLanes = setBit s.w.bnd.refLanes b.val) ∧
  (∀ s : State, s.mode ≠ .off → s.mode ≠ .ember →
    (Completes (.vcoreToleranceChange false) s fun t => t.w.bnd.inhibit = true ∧ t.w.bnd.vcoreIn = false) ∧
    (s.w.bnd.pfail = false → s.w.bnd.vgranOk = true →
      Completes (.vcoreToleranceChange true) s fun t => t.w.bnd.inhibit = false ∧ t.w.bnd.vcoreIn = true))

/-- The power-fail warning, WAKE and ZEROISE (R36, R37, R39, R40, R42, R471): an accepted PFAIL_N closes the commit queue, withdraws an AVS request
and latches source 0 of the Reeve and 4 of the host; the drained queue sets the write inhibit; a rise of PFAIL_N is noted, and its 1 ms opens the
queue again; WAKE and ZEROISE in EMBER ask for the rails; ZEROISE in service drops every key at once. Beyond the rules' own words it takes the
model's reading: log entries 17, 18. -/
def Obligations.PowerFailAndWake : Prop :=
  (∀ s : State, s.mode ≠ .off → s.mode ≠ .ember → beforeReplay s.mode s.w = false → s.w.bnd.pfail = false →
    Completes .pfailAccept s fun t => t.w.bnd.pfail = true ∧ t.w.bnd.queueShut = true ∧ t.w.bnd.avsOut = none ∧
      bit (t.w.get (Reg.bhPending 16)) 0 = true ∧ bit (t.w.get (Reg.bhPending 17)) 4 = true) ∧
  (∀ s : State, s.mode ≠ .off → s.mode ≠ .ember → s.w.bnd.pfail = true → s.w.bnd.inhibit = false →
    Completes .pfailDrainDone s fun t => t.w.bnd.inhibit = true ∧ t.w.bnd.pfail = true) ∧
  (∀ s : State, s.mode ≠ .off → s.mode ≠ .ember → s.w.bnd.pfail = true → s.w.bnd.vcoreIn = true →
    Completes .pfailNRise s fun t => t.w.bnd = { s.w.bnd with pfailHigh := true }) ∧
  (∀ s : State, s.mode ≠ .off → s.mode ≠ .ember → s.w.bnd.pfail = true → s.w.bnd.pfailHigh = true → s.w.bnd.vcoreIn = true →
    s.w.bnd.vgranOk = true → Completes .pfailReopen s fun t =>
      t.w.bnd = { s.w.bnd with pfail := false, pfailHigh := false, inhibit := false, queueShut := false }) ∧
  (∀ s : State, s.mode = .ember → Completes .wakeAccept s fun t =>
    t.w.bnd = { s.w.bnd with wakeReq := true } ∧ t.w.out = .wakeRequest :: s.w.out) ∧
  (∀ s : State, s.mode ≠ .ember → exec .wakeAccept s = .next s) ∧
  (∀ s : State, s.mode = .ember → s.w.bnd.vembUp = true → Completes .zeroiseAccept s fun t =>
    t.w.bnd = { s.w.bnd with zeroLatch := true, wakeReq := true } ∧ t.w.out = .wakeRequest :: s.w.out) ∧
  (∀ s : State, s.mode = .service ∨ s.mode = .doze → s.w.bnd.vembUp = true → Completes .zeroiseAccept s fun t =>
    t.w.bnd.zeroLatch = true ∧ t.w.sec.sas = [] ∧ t.w.sec.keks = [] ∧ t.w.sec.deviceKey = none ∧ t.w.sec.zeroising = some 1)

/-- Accesses from the host (R49, R50, R52, R88, R617, R628): a wrong size or alignment gets an error completion; an undefined offset is counted; a
word written to the mailbox block stands there and DB_ACK takes no value above DB_WRITTEN; the last beat frees its read tag, 100 µs without it put
the tag in quarantine, and a quarantined tag counts what comes late and is free after 1 ms. The two clauses in which a tag becomes free assume that
no ring holds anything, since a ring may take the tag at once. Beyond the rules' own words it takes the model's reading: log entries 7, 18, 38. -/
def Obligations.HostAccesses : Prop :=
  (∀ (o size : Nat) (s : State), clocksRun s.mode s.w = true → ¬ ((size = 4 ∨ size = 8) ∧ o % size = 0) →
    Completes (.targetAccessError o size) s fun t => t.w = { s.w with out := .completionError o size :: s.w.out }) ∧
  (∀ (b : Bool) (o : Nat) (s : State), clocksRun s.mode s.w = true → halted s.w = false → windowDefined o = false →
    Completes (.unmappedAccess b o) s fun t => t.w.get Reg.unmappedAccess = (s.w.get Reg.unmappedAccess + 1) % 2 ^ 32) ∧
  (∀ (o v : Nat) (s : State), clocksRun s.mode s.w = true → halted s.w = false → o = 0x100C ∨ o = 0x1018 →
    Completes (.hostWindowWrite o 4 v) s fun t => t.w.win32 o 0 = v % 2 ^ 32 ∧ (∀ p d, p ≠ o → t.w.win32 p d = s.w.win32 p d)) ∧
  (∀ (v : Nat) (s : State), clocksRun s.mode s.w = true → halted s.w = false →
    Completes (.hostWindowWrite 0x8008 8 v) s fun t => t.w.win64 0x8008 = min v (s.w.get Reg.dbWritten) % 2 ^ 64) ∧
  (∀ (tag : Fin 512) (u : ReadUse) (s : State), clocksRun s.mode s.w = true → halted s.w = false →
    tget s.w.bnd.tags tag.val = some (.out u) → s.w.hst.rings = [] →
    Completes (.readCompletion tag) s fun t => tget t.w.bnd.tags tag.val = none ∧
      t.w.get Reg.tagsOut = (s.w.get Reg.tagsOut - 1) % 2 ^ Reg.tagsOut.bits) ∧
  (∀ (tag : Fin 512) (s : State), clocksRun s.mode s.w = true → halted s.w = false →
    tget s.w.bnd.tags tag.val = some .quarantined →
    Completes (.readCompletion tag) s fun t => t.w.get Reg.lateCompletions = (s.w.get Reg.lateCompletions + 1) % 2 ^ 32 ∧
      t.w.bnd = s.w.bnd) ∧
  (∀ (tag : Fin 512) (u : ReadUse) (s : State), clocksRun s.mode s.w = true → halted s.w = false →
    tget s.w.bnd.tags tag.val = some (.out u) →
    Completes (.readTagTimeout tag) s fun t => tget t.w.bnd.tags tag.val = some .quarantined) ∧
  (∀ (tag : Fin 512) (s : State), clocksRun s.mode s.w = true → tget s.w.bnd.tags tag.val = some .quarantined →
    s.w.hst.rings = [] → Completes (.tagQuarantineEnd tag) s fun t => tget t.w.bnd.tags tag.val = none)

/-- Credits, WAITING and egress cells (R57 to R60, R66, R352, R365): a return adds its credits, a credit-init starts a slice with its pool, a word
outside the rules changes no credit and is written to the Daybook; WAITING follows its line; an egress cell uses one credit of its port, and one of
another KIND, or of another port's sub-port, is counted and lost. Beyond the rules' own words it takes the model's reading: log entry 18. -/
def Obligations.CreditsAndEgressCells : Prop :=
  (∀ (c : Course) (n : Nat) (s : State), portsOn s.mode s.w = true → n ≤ 16 → (tget s.w.bnd.pool c.val).isSome = true →
    Completes (.creditReturn c n) s fun t => courseCredits c.val t.w = courseCredits c.val s.w + n ∧
      (∀ d, d ≠ c.val → courseCredits d t.w = courseCredits d s.w)) ∧
  (∀ (c : Course) (v : Nat) (s : State), portsOn s.mode s.w = true → 1 ≤ v → v ≤ 4095 → tget s.w.bnd.pool c.val = none →
    Completes (.creditInit c v) s fun t => courseCredits c.val t.w = v ∧ tget t.w.bnd.pool c.val = some v) ∧
  (∀ (c : Course) (v : Nat) (s : State), portsOn s.mode s.w = true → (tget s.w.bnd.pool c.val).isSome = true ∨ v = 0 ∨ 4095 < v →
    Completes (.creditInit c v) s fun t => t.w.bnd = s.w.bnd ∧ t.w.get Reg.dbWritten = (s.w.get Reg.dbWritten + 1) % 2 ^ 64) ∧
  (∀ (c : Course) (v : Nat) (s : State), portsOn s.mode s.w = true →
    Completes (.creditWordInvalid c v) s fun t => t.w.bnd = s.w.bnd ∧ t.w.get Reg.dbWritten = (s.w.get Reg.dbWritten + 1) % 2 ^ 64) ∧
  (∀ (p : Port) (high : Bool) (s : State), portsOn s.mode s.w = true →
    Completes (.waitingChange p high) s fun t =>
      t.w.bnd = { s.w.bnd with waiting := if high then setBit s.w.bnd.waiting p.val else clrBit s.w.bnd.waiting p.val }) ∧
  (∀ (p : Port) (c : PipeCell) (s : State), portsOn s.mode s.w = true → 0 < coreCredits p.val s.w → s.w.bnd.dozing = true → c.kind = 0 →
    c.sp / 8 ≠ p.val → Completes (.egressCell p c) s fun t => coreCredits p.val t.w = coreCredits p.val s.w - 1 ∧
      t.w.ing = s.w.ing ∧ t.w.egr.building = s.w.egr.building ∧ t.w.egr.queues = s.w.egr.queues ∧
      t.w.get (Reg.misdirected (brickOfPort p.val)) = (s.w.get (Reg.misdirected (brickOfPort p.val)) + 1) % 2 ^ 64)

/-- Decisions and relayed lookups (R62, R65, R345 to R347): a decision for no pending handle is late and counted; one that forwards, or discards, and
a timeout settle the frame and free its key; FLUSH_SP is issued when a command is free, releases learning when it completes, and is written to the
Daybook when it is overdue; a relayed command's answer stands in LOOKUP_RESULT, which without an answer in 900 µs reads 2. Beyond the rules' own
words it takes the model's reading: log entry 7. -/
def Obligations.DecisionsAndLookups : Prop :=
  (∀ (b : Brick) (h r st : Nat) (s : State), portsOn s.mode s.w = true → pendingOf b.val h s.w = none →
    Completes (.decisionArrive b h r st) s fun t => t.w.get (Reg.lateDecisions b.val) = (s.w.get (Reg.lateDecisions b.val) + 1) % 2 ^ 64 ∧
      t.w.ing = s.w.ing) ∧
  (∀ (b : Brick) (h r n : Nat) (f : IFrame) (s : State), portsOn s.mode s.w = true → pendingOf b.val h s.w = some (n, f) →
    tget s.w.ing.frames n = some f → f.down = false → f.copy = false → bits r 63 62 = 0 →
    Completes (.decisionArrive b h r 0) s fun t =>
      tget t.w.ing.frames n = some { f with keyOut := false, result := some (r % 2 ^ 62), disp := .pipe, copy := false } ∧
      tgetD t.w.ing.keysMatched b.val 0 = tgetD s.w.ing.keysMatched b.val 0 + 1 ∧
      t.w.get (Reg.pendingKeys b.val) = (s.w.get (Reg.pendingKeys b.val) - 1) % 2 ^ (Reg.pendingKeys b.val).bits) ∧
  (∀ (b : Brick) (h n : Nat) (f : IFrame) (s : State), portsOn s.mode s.w = true → pendingOf b.val h s.w = some (n, f) →
    Completes (.decisionTimeout b h) s fun t => tgetD t.w.ing.keysTimedOut b.val 0 = tgetD s.w.ing.keysTimedOut b.val 0 + 1) ∧
  (∀ (b : Brick) (sp : Nat) (s : State), portsOn s.mode s.w = true → s.w.ing.flushWait.find? (fun p => brickOfSp p == b.val) = some sp →
    lookupsOut b.val s.w < 16 → Completes (.flushSpIssue b) s fun t => t.w.ing.flushWait = s.w.ing.flushWait.erase sp ∧
      t.w.ing.learnHeld = sp :: s.w.ing.learnHeld.filter (· ≠ sp)) ∧
  (∀ (b : Brick) (tag sp : Nat) (s : State), portsOn s.mode s.w = true → tget s.w.ing.lookups (b.val * 256 + tag) = some (.flush sp) →
    s.w.ing.flushWait = [] → (∀ e ∈ s.w.ing.lookups, e.2 = .flush sp → e.1 = b.val * 256 + tag) → twf s.w.ing.lookups = true →
    Completes (.flushSpComplete b tag) s fun t => tget t.w.ing.lookups (b.val * 256 + tag) = none ∧
      t.w.ing.learnHeld = s.w.ing.learnHeld.erase sp) ∧
  (∀ (b : Brick) (tag sp : Nat) (s : State), portsOn s.mode s.w = true → tget s.w.ing.lookups (b.val * 256 + tag) = some (.flush sp) →
    Completes (.flushSpOverdue b tag) s fun t => t.w.ing = s.w.ing ∧ t.w.get Reg.dbWritten = (s.w.get Reg.dbWritten + 1) % 2 ^ 64) ∧
  (∀ (b : Brick) (tag a : Nat) (hit : Bool) (s : State), portsOn s.mode s.w = true →
    tget s.w.ing.lookups (b.val * 256 + tag) = some .relay → s.w.ing.flushWait = [] →
    Completes (.lookupComplete b tag hit a) s fun t => tget t.w.ing.lookups (b.val * 256 + tag) = none ∧
      t.w.get (Reg.lookupResult b.val) = (b2n (!hit) + a % 2 ^ 512 * 2 ^ 32) % 2 ^ (Reg.lookupResult b.val).bits ∧
      t.w.led.deferred = s.w.led.deferred.filter fun d => decide (d.on ≠ .lookup b.val tag)) ∧
  (∀ (b : Brick) (tag : Nat) (s : State), portsOn s.mode s.w = true → tget s.w.ing.lookups (b.val * 256 + tag) = some .relay →
    Completes (.lookupTimeout b tag) s fun t => tget t.w.ing.lookups (b.val * 256 + tag) = some .dead ∧
      t.w.get (Reg.lookupResult b.val) = 2 ∧ t.w.led.deferred = s.w.led.deferred.filter fun d => decide (d.on ≠ .lookup b.val tag))

/-- AVS and temperature (R67 to R72): a step asks the engine power controller for the next setpoint; an acknowledged one becomes VCORE_MV, and
outside the restore AVS_STORED_MV; a refusal or no answer counts AVS_REFUSED and leaves the setpoint; a reading stands in its sensor's object, raises
the alarm sources at the alarm temperature, and at 115 °C takes every port until its PORT_RESTART. Beyond the rules' own words it takes the model's
reading: log entry 18. -/
def Obligations.AvsAndTemperature : Prop :=
  (∀ (mv : Nat) (s : State), awake s.mode s.w = true → avsMay s.mode s.w = true → avsNext s.w = some mv →
    Completes .avsStep s fun t => t.w.bnd = { s.w.bnd with avsOut := some mv } ∧ t.w.out = .avsRequest mv :: s.w.out) ∧
  (∀ (mv : Nat) (s : State), reeveOn s.mode s.w = true → s.w.bnd.avsOut = some mv →
    Completes (.avsAnswer true) s fun t => t.w.bnd.avsOut = none ∧ t.w.get Reg.vcoreMv = mv % 2 ^ 16) ∧
  (∀ (mv : Nat) (s : State), reeveOn s.mode s.w = true → s.w.bnd.avsOut = some mv →
    Completes (.avsAnswer false) s fun t => t.w.bnd = { s.w.bnd with avsOut := none, avsRestoring := false, avsRound := false } ∧
      t.w.get Reg.vcoreMv = s.w.get Reg.vcoreMv ∧ t.w.get Reg.avsRefused = (s.w.get Reg.avsRefused + 1) % 2 ^ 32) ∧
  (∀ (mv : Nat) (s : State), reeveOn s.mode s.w = true → s.w.bnd.avsOut = some mv →
    Completes .avsAnswerTimeout s fun t => t.w.bnd = { s.w.bnd with avsOut := none, avsRestoring := false, avsRound := false } ∧
      t.w.get Reg.vcoreMv = s.w.get Reg.vcoreMv ∧ t.w.get Reg.avsRefused = (s.w.get Reg.avsRefused + 1) % 2 ^ 32) ∧
  (∀ (k : Fin 5) (d : Int) (s : State), reeveOn s.mode s.w = true → -32768 ≤ d → d < 32768 →
    Completes (.tjAlarm k d) s fun t => t.w.getI (Reg.tj k.val) = d ∧
      (s.w.getI Reg.tjAlarmC ≤ d → levelHigh 16 11 t.w = true ∧ levelHigh 17 2 t.w = true)) ∧
  (∀ (k : Fin 5) (d : Int) (s : State), reeveOn s.mode s.w = true → portsOn s.mode s.w = true → 115 ≤ d →
    Completes (.thermalShutdown k d) s fun t => t.w.bnd.thermal = 2 ^ 64 - 1) ∧
  (∀ (k : Fin 5) (d : Int) (s : State), reeveOn s.mode s.w = true → portsOn s.mode s.w = false → -32768 ≤ d → d < 32768 →
    Completes (.thermalShutdown k d) s fun t => t.w.getI (Reg.tj k.val) = d ∧ t.w.bnd = s.w.bnd)

/-! ### The Ledger and the mailbox (R76 to R91, R110 to R112, R118) -/

/-- GO of the mailbox (R88, R89): while it is not BUSY the request that the registers describe goes to the end of the Ledger queue, with BUSY set;
while it is, COLLIDE is set and nothing is queued. Beyond the rules' own words it takes the model's reading: log entry 19. -/
def Obligations.MailboxRequestsAreQueued : Prop :=
  (∀ (b : Bool) (s : State), windowOpen s.mode s.w = true → bit (s.w.win32 0x1010 0) 0 = false → s.w.win32 0x1008 0 ≤ 2048 →
    s.w.led.closed = false → s.w.led.queue.length < 16 →
    let req (o : LOp) : LReq := { who := .mailbox, role := mbxRole s.w, index := s.w.win32 0x1004 0 % 2 ^ 16,
                                  sub := s.w.win32 0x1004 0 / 2 ^ 16 % 256, op := o }
    let data := mbxData s.w (s.w.win32 0x1008 0)
    let off := s.w.win32 0x100C 0
    let queued (o : LOp) (t : State) : Prop := t.w.led.queue = s.w.led.queue ++ [req o] ∧ bit (t.w.win32 0x1010 0) 0 = true
    Completes .mbxRead s (queued .read) ∧ Completes .mbxWrite s (queued (.write data)) ∧
    Completes .mbxSegRead s (queued (.segRead off (s.w.win32 0x1018 0) (s.w.win32 0x1008 0))) ∧
    Completes (.mbxSegWrite b) s (queued (.segWrite off (s.w.win32 0x1018 0) b data))) ∧
  (∀ (b : Bool) (c : Instr) (s : State), c ∈ [Instr.mbxRead, .mbxWrite, .mbxSegRead, .mbxSegWrite b] → windowOpen s.mode s.w = true →
    bit (s.w.win32 0x1010 0) 0 = true → Completes c s fun t => t.w.led = s.w.led ∧ bit (t.w.win32 0x1010 0) 3 = true)

/-- The head of the Ledger queue is served (R79, R80, R90, R109 to R111, R118): it leaves the queue; a read is answered with the object's bytes, a
plain write that passes every check leaves its value in its object, a segment read is answered with the segment and its length, and a first segment
of a write that is not the last opens a transfer. What is judged is judged on the wall the request has left. Beyond the rules' own words it takes the
model's reading: log entries 9, 19. -/
def Obligations.LedgerHeadsAreServed : Prop :=
  (∀ (r : LReq) (s : State), serves s.mode s.w = true → s.w.led.queue.head? = some r → isRead r = true → ownOf r = none →
    r.who = .mailbox → modeAbort s.mode r (headTaken s.w) = none →
    let x := readObj r s.mode (headTaken s.w)
    Completes .ledgerRead s fun t => t.w.led.queue = s.w.led.queue.tail ∧ mbxDone x.1 t.w ∧
      (x.1 = 0 → t.w.win32 0x1008 0 = min x.2.1.length 2048)) ∧
  (∀ (r : LReq) (row : ObjRow) (u k v : Nat) (data : List Byte) (s : State), Ready r row u k v data s → ownOf r = none → r.who = .mailbox →
    rowId row ∉ [0x100202, 0x118001, 0x118002, 0x118004] → Aside (row.reg u k) → (row.reg u k).key ≠ Reg.busyRefused.key →
    effect 0 r row u k v data (headTaken s.w) = .ok ((headTaken s.w).set (row.reg u k) v) →
    Completes .ledgerWrite s fun t => t.w.led.queue = s.w.led.queue.tail ∧ mbxDone 0 t.w ∧
      t.w.get (row.reg u k) = v % 2 ^ (row.reg u k).bits) ∧
  (∀ (r : LReq) (off g len : Nat) (s : State), serves s.mode s.w = true → s.w.led.queue.head? = some r → r.op = .segRead off g len →
    r.who = .mailbox → modeAbort s.mode r (headTaken s.w) = none →
    let x := segRead r off g len (headTaken s.w)
    Completes .ledgerSegRead s fun t => t.w.led.queue = s.w.led.queue.tail ∧ mbxDone x.1 t.w ∧
      (x.1 = 0 → t.w.win32 0x1008 0 = min x.2.2.length 2048)) ∧
  (∀ (r : LReq) (row : ObjRow) (u k g : Nat) (data : List Byte) (s : State), serves s.mode s.w = true →
    s.w.led.queue.head? = some r → r.op = .segWrite 0 g false data → r.index < 0xF000 → findRow r.index r.sub objTable = some (row, u, k) →
    canWrite r.role row = true → row.type = .domain → data.length ≤ segLimit r.who → isImage (rowId row) = false →
    tget s.w.led.transfers (r.index * 256 + r.sub) = none → modeAbort s.mode r (headTaken s.w) = none →
    segState (rowId row) u s.mode (headTaken s.w) = none → r.who = .mailbox →
    Completes .ledgerSegWrite s fun t => t.w.led.queue = s.w.led.queue.tail ∧ mbxDone 0 t.w ∧
      tget t.w.led.transfers (r.index * 256 + r.sub) = some { who := r.who, role := r.role, data := data })

/-- A write with a row of its own (R79, R80, R90): when it is at the head of the queue, passes the checks, and its object takes it, its command takes
it off the queue and answers it with status 0. Beyond the rules' own words it takes the model's reading: log entry 9. -/
def Obligations.OwnRowsAreServed : Prop :=
  ∀ (o : Own) (c : Instr) (r : LReq) (row : ObjRow) (u k v : Nat) (data : List Byte) (x : Wall) (s : State),
    ownCmd o = some c → Ready r row u k v data s → ownWrite (rowId row) v = some o →
    effect 0 r row u k v data (headTaken s.w) = .ok x →
    Completes c s fun t => t.mode = s.mode ∧ t.w.led.queue = s.w.led.queue.tail ∧ (r.who = .mailbox → mbxDone 0 t.w)

/-! ### Writes with a row of their own -/

/-- Writes that act on lanes (R174, R199, R201, R202, R208, R229, R232, R234, R251, R629): what each leaves. Beyond the rules' own words it takes the
model's reading: log entries 9, 22. -/
def Obligations.LaneWritesTakeEffect : Prop :=
  ∀ (r : LReq) (row : ObjRow) (u k : Nat) (data : List Byte) (s : State), u < 1088 →
    (rowId row = 0x600011 → Ready r row u k 1 data s → laneSt u s.w = 0 ∨ laneSt u s.w = 12 →
      Completes .laneTestStart s fun t => laneSt u t.w = 13 ∧ t.w.get (Reg.testEnable u) = 1 ∧
        (t.w.lane u).testFrom = some (laneSt u s.w, laneUseOf u s.w)) ∧
    (∀ st use, rowId row = 0x600011 → Ready r row u k 0 data s → (s.w.lane u).testFrom = some (st, use) →
      Completes .laneTestStop s fun t => laneUseOf u t.w = use % 256 ∧ t.w.get (Reg.prbsLock u) = 0 ∧ (t.w.lane u).testFrom = none) ∧
    (rowId row = 0x600018 → Ready r row u k 1 data s →
      Completes .prbsClear s fun t => t.w.get (Reg.prbsBits u) = 0 ∧ t.w.get (Reg.prbsErrors u) = 0 ∧ t.w.lan = s.w.lan) ∧
    (∀ v, rowId row = 0x600019 → Ready r row u k v data s → v < 2 ^ 11 → bits v 1 0 = 0 → 20 ≤ bits v 7 2 → bits v 7 2 ≤ 40 →
      laneSt u s.w = 6 ∨ laneSt u s.w = 9 ∨ laneSt u s.w = 13 →
      Completes .eyeScanStart s fun t => t.w.get (Reg.eyeState u) = 1 ∧ (t.w.lane u).eyeCtrl = v) ∧
    (rowId row = 0x60002D → Ready r row u k 1 data s → laneUseOf u s.w = 3 →
      Completes .retireClear s fun t => laneUseOf u t.w = 2 ∧ t.w.get (Reg.retireCause u) = 0 ∧ (t.w.lane u).retestFails = 0) ∧
    (rowId row = 0x148004 → Ready r row u k 1 data s → roundMay (headTaken s.w) = true →
      Completes .roundNow s fun t => t.w.lan.roundStartS = (headTaken s.w).get Reg.serviceS) ∧
    (rowId row = 0x60002E → Ready r row u k 1 data s →
      Completes .surveyNow s fun t => (t.w.round (brickOfLane u)).asked = (s.w.round (brickOfLane u)).asked ++ [u]) ∧
    (∀ i, i < 8 → u < 64 → rowId row = 0x400800 → Ready r row u k (2 ^ i) data s → mayDetect (u * 8 + i) (headTaken s.w) = true →
      spGrpSt (u * 8 + i) s.w = 7 ∨ spGrpSt (u * 8 + i) s.w = 8 →
      Completes .trainRestart s fun t => spGrpSt (u * 8 + i) t.w = 0 ∨
        (spGrpSt (u * 8 + i) t.w = 1 ∧ spSt (u * 8 + i) t.w = 1 ∧ t.w.get (Reg.bringupFails u i) = 0))

/-- Bring-up of a lane group (R167 to R174): DETECT leads to PAM2, or to PAM4 without Gossip; a timer of a state that is still in force fails the
group, which backs off or listens; a lane under retest counts the failure instead; a back-off ends in DETECT; a listening group only sends its burst;
10 s of ACTIVE clear the failure count. Beyond the rules' own words it takes the model's reading: log entries 7, 22. -/
def Obligations.BringupTimersAndFailures : Prop :=
  (∀ (g : Group) (s : State), portsOn s.mode s.w = true → groupSt g s.w = 1 →
    Completes (.detectDone g) s fun t => groupSt g t.w = if noGossip g s.w then 3 else 2) ∧
  (∀ (g : Group) (s : State), portsOn s.mode s.w = true → (∀ l, g = .alone l → laneUseOf l.val s.w ≠ 2) → groupSt g s.w = 1 →
    Completes (.detectTimeout g) s fun t => groupSt g t.w = 7 ∨ groupSt g t.w = 8) ∧
  (∀ (g : Group) (s : State), portsOn s.mode s.w = true → (∀ l, g = .alone l → laneUseOf l.val s.w ≠ 2) → groupSt g s.w = 2 →
    noGossip g s.w = false → Completes (.pam2Timeout g) s fun t => groupSt g t.w = 7 ∨ groupSt g t.w = 8) ∧
  (∀ (g : Group) (s : State), portsOn s.mode s.w = true → (∀ l, g = .alone l → laneUseOf l.val s.w ≠ 2) → groupSt g s.w = 2 ∨ groupSt g s.w = 3 →
    Completes (.trainingTimeout g) s fun t => groupSt g t.w = 7 ∨ groupSt g t.w = 8) ∧
  (∀ (sp : SubPort) (s : State), portsOn s.mode s.w = true → groupSt (.sub sp) s.w = 5 →
    Completes (.exchangeTimeout (.sub sp)) s fun t => groupSt (.sub sp) t.w = 7 ∨ groupSt (.sub sp) t.w = 8) ∧
  (∀ (l : Lane) (s : State), portsOn s.mode s.w = true → laneUseOf l.val s.w = 2 → laneSt l.val s.w = 1 → (s.w.lane l.val).retestFails < 2 →
    Completes (.detectTimeout (.alone l)) s fun t => laneUseOf l.val t.w = 2 ∧
      (t.w.lane l.val).retestFails = (s.w.lane l.val).retestFails + 1) ∧
  (∀ (sp : SubPort) (s : State), portsOn s.mode s.w = true → spGrpSt sp.val s.w = 7 → mayDetect sp.val s.w = true →
    Completes (.backoffExpiry (.sub sp)) s fun t => spGrpSt sp.val t.w = 0 ∨ (spGrpSt sp.val t.w = 1 ∧ spSt sp.val t.w = 1 ∧
      failsOf (.sub sp) t.w = failsOf (.sub sp) s.w % 2 ^ 8)) ∧
  (∀ (l : Lane) (s : State), portsOn s.mode s.w = true → laneSt l.val s.w = 7 →
    Completes (.backoffExpiry (.alone l)) s fun t => laneSt l.val t.w = 1) ∧
  (∀ (g : Group) (s : State), portsOn s.mode s.w = true → groupSt g s.w = 8 →
    Completes (.listeningBurst g) s fun t => t = { s with w := { s.w with out := t.w.out } } ∧
      (∀ l, g = .alone l → t.w.out = .hello l (offered g s.w) (laneRole l.val s.w) (s.w.lane l.val).seed :: s.w.out)) ∧
  (∀ (sp : SubPort) (s : State), portsOn s.mode s.w = true → spGrpSt sp.val s.w = 6 ∨ spGrpSt sp.val s.w = 9 →
    Completes (.activeHoldExpiry sp) s fun t => failsOf (.sub sp) t.w = 0 ∧ (t.w.grp (.sub sp)).held10s = true)

/-- Training messages of a lane (R169, R179 to R185): a bad frame is counted; a HELLO with another SEED in DETECT or PAM2 is heard; READY with COUNT
0 switches the receiver, and its end the transmitter; RX_READY is set in PAM4; the COUNT 0 training frame starts the data of a group's lane and ends
the training of one alone. Beyond the rules' own words it takes the model's reading: log entries 7, 22. -/
def Obligations.TrainingMessages : Prop :=
  (∀ (l : Lane) (msg : List Byte) (s : State), portsOn s.mode s.w = true → laneSt l.val s.w = 1 ∨ laneSt l.val s.w = 2 →
    Completes (.trainingFrame l false msg false) s fun t => t.w.get (Reg.trainBadFrames l.val) = (s.w.get (Reg.trainBadFrames l.val) + 1) % 2 ^ 32 ∧
      (t.w.lane l.val).goodRun = 0 ∧ (t.w.lane l.val).sameMsgs = 0) ∧
  (∀ (l : Lane) (msg : List Byte) (s : State), portsOn s.mode s.w = true → laneSt l.val s.w = 1 ∨ laneSt l.val s.w = 2 →
    (msg.headD 0).toNat = 1 ∨ (msg.headD 0).toNat = 2 →
    Completes (.trainingFrame l true msg false) s fun t => t.w.get (Reg.trainBadFrames l.val) = s.w.get (Reg.trainBadFrames l.val) ∧
      (t.w.lane l.val).goodRun = (s.w.lane l.val).goodRun + 1) ∧
  (∀ (l : Lane) (rates role seed : Nat) (sp : SubPort) (s : State), portsOn s.mode s.w = true → laneGroup l s.w = .sub sp → laneUseOf l.val s.w = 0 →
    spGrpSt sp.val s.w = 1 ∨ spGrpSt sp.val s.w = 2 → noGossip (.sub sp) s.w = false → role = laneRole l.val s.w →
    (commonRate (offered (.sub sp) s.w) (rates % 8)).isSome = true → seed ≠ (s.w.lane l.val).seed →
    Completes (.hello l rates role seed) s fun t => (t.w.lane l.val).heard = true ∧ (t.w.lane l.val).peerSeed = seed) ∧
  (∀ (l : Lane) (s : State), portsOn s.mode s.w = true → laneSt l.val s.w = 2 →
    Completes (.trainingReady l 0) s fun t => (t.w.lane l.val).rxPam4 = true ∧ t.w.regs = s.w.regs) ∧
  (∀ (l : Lane) (s : State), portsOn s.mode s.w = true → laneSt l.val s.w = 2 → (s.w.lane l.val).readySent = true →
    Completes (.readyCountdownEnd l) s fun t => (t.w.lane l.val).txPam4 = true) ∧
  (∀ (l : Lane) (coarse fine : List Nat) (s : State), portsOn s.mode s.w = true → laneSt l.val s.w = 3 → (s.w.lane l.val).rxPam4 = true →
    Completes (.rxReady l coarse fine) s fun t => (t.w.lane l.val).rxReady = true) ∧
  (∀ (l : Lane) (s : State), portsOn s.mode s.w = true → laneSt l.val s.w = 3 → (s.w.lane l.val).rxReady = true → 3 ≤ (s.w.lane l.val).peerRxReady →
    Completes (.trainingCountdownEnd l) s fun t => match laneGroup l s.w with
      | .sub _ => (t.w.lane l.val).txData = true
      | .alone _ => (t.w.lane l.val).trained.isSome = true ∧ (laneUseOf l.val s.w ≠ 2 → laneSt l.val t.w = 10)) ∧
  (∀ (sp : SubPort) (s : State), portsOn s.mode s.w = true → spGrpSt sp.val s.w = 4 →
    Completes (.blockLock (.sub sp)) s fun t => spGrpSt sp.val t.w = if noGossip (.sub sp) s.w then 6 else 5)

/-- Gossip's capability words (R184, R187, R188, R190 to R192): STATUS counts towards the partner's RX_READY and ends the leader's exchange; the
follower accepts an OFFER, the leader an ACCEPT, and a CONFIRM makes the follower active with the agreed set; a bad word is counted. -/
def Obligations.GossipCapabilityWords : Prop :=
  (∀ (l : Lane) (exch payload : Nat) (s : State), portsOn s.mode s.w = true → laneSt l.val s.w = 3 → bit payload 2 = true →
    Completes (.gossipStatus l exch payload) s fun t =>
      (t.w.lane l.val).peerRxReady = if bit payload 0 then (s.w.lane l.val).peerRxReady + 1 else 0) ∧
  (∀ (l : Lane) (exch payload c : Nat) (sp : SubPort) (s : State), portsOn s.mode s.w = true → laneSt l.val s.w ≠ 3 → laneGroup l s.w = .sub sp →
    spGrpSt sp.val s.w = 5 → bit payload 1 = true → (s.w.grp (.sub sp)).leader = true → (s.w.grp (.sub sp)).exch = exch →
    (s.w.grp (.sub sp)).accepted = some c → Completes (.gossipStatus l exch payload) s fun t =>
      spGrpSt sp.val t.w = 6 ∧ spSt sp.val t.w = 2 ∧ t.w.get (Reg.agreedCaps (sp.val / 8) (sp.val % 8)) = (c + exch * 256) % 2 ^ 16) ∧
  (∀ (l : Lane) (exch payload : Nat) (sp : SubPort) (s : State), portsOn s.mode s.w = true → spOfLane l.val s.w = some sp.val →
    spGrpSt sp.val s.w = 5 → (s.w.grp (.sub sp)).leader = false → (s.w.grp (.sub sp)).accepted = none →
    Completes (.gossipOffer l exch payload) s fun t => (t.w.grp (.sub sp)).exch = exch ∧
      (t.w.grp (.sub sp)).accepted = some (capSet payload (ownCaps sp.val s.w)) ∧ t.w.regs = s.w.regs) ∧
  (∀ (l : Lane) (exch payload : Nat) (sp : SubPort) (s : State), portsOn s.mode s.w = true → spOfLane l.val s.w = some sp.val →
    spGrpSt sp.val s.w = 5 → (s.w.grp (.sub sp)).leader = true → (s.w.grp (.sub sp)).exch = exch → (s.w.grp (.sub sp)).accepted = none →
    Completes (.gossipAccept l exch payload) s fun t => (t.w.grp (.sub sp)).accepted = some (payload % 256) ∧ t.w.regs = s.w.regs) ∧
  (∀ (l : Lane) (exch payload c : Nat) (sp : SubPort) (s : State), portsOn s.mode s.w = true → spOfLane l.val s.w = some sp.val →
    spGrpSt sp.val s.w = 5 → (s.w.grp (.sub sp)).leader = false → (s.w.grp (.sub sp)).exch = exch → (s.w.grp (.sub sp)).accepted = some c →
    Completes (.gossipConfirm l exch payload) s fun t =>
      spGrpSt sp.val t.w = 6 ∧ spSt sp.val t.w = 2 ∧ t.w.get (Reg.agreedCaps (sp.val / 8) (sp.val % 8)) = (c + exch * 256) % 2 ^ 16) ∧
  (∀ (l : Lane) (s : State), portsOn s.mode s.w = true →
    Completes (.gossipBadWord l) s fun t => t.w.get (Reg.gossipBad l.val) = (s.w.get (Reg.gossipBad l.val) + 1) % 2 ^ 32 ∧ t.w.lan = s.w.lan)

/-- Lock and signal of a lane, and its faults (R165, R170, R193, R194, R227 to R230): a CDR that locks says so; one that loses lock is counted;
either loss fails a training group; a fault of the old lane of a planned exchange goes on in that exchange; another fault starts an unplanned
exchange onto a free pool lane, and without capability bit 0 takes the sub-port down. Beyond the rules' own words it takes the model's reading: log
entries 7, 23, 32. -/
def Obligations.LaneLossesAndFaults : Prop :=
  (∀ (l : Lane) (s : State), portsOn s.mode s.w = true →
    Completes (.cdrLock l) s fun t => t.w.get (Reg.cdrLocked l.val) = 1 ∧ (t.w.lane l.val).lockedOnce = true) ∧
  (∀ (l : Lane) (s : State), portsOn s.mode s.w = true → s.w.get (Reg.cdrLocked l.val) ≠ 0 → laneSt l.val s.w = 13 → laneUseOf l.val s.w = 4 →
    Completes (.cdrLockLoss l false) s fun t => t.w.get (Reg.cdrLocked l.val) = 0 ∧
      t.w.get (Reg.lockLosses l.val) = (s.w.get (Reg.lockLosses l.val) + 1) % 2 ^ 32) ∧
  (∀ (l : Lane) (slip : Bool) (s : State), portsOn s.mode s.w = true → s.w.get (Reg.cdrLocked l.val) ≠ 0 → training (laneGroup l s.w) s.w = true →
    (s.w.lane l.val).lockedOnce = true → (∀ m, laneGroup l s.w = .alone m → laneUseOf m.val s.w ≠ 2 ∧ laneSt m.val s.w ≤ 3) →
    Completes (.cdrLockLoss l slip) s fun t => groupSt (laneGroup l s.w) t.w = 7 ∨ groupSt (laneGroup l s.w) t.w = 8) ∧
  (∀ (l : Lane) (s : State), portsOn s.mode s.w = true → training (laneGroup l s.w) s.w = true →
    (∀ m, laneGroup l s.w = .alone m → laneUseOf m.val s.w ≠ 2 ∧ laneSt m.val s.w ≤ 3) →
    Completes (.signalDetectLoss l) s fun t => groupSt (laneGroup l s.w) t.w = 7 ∨ groupSt (laneGroup l s.w) t.w = 8) ∧
  (∀ (l : Lane) (sp : SubPort) (e : Exch) (s : State), portsOn s.mode s.w = true → laneSt l.val s.w = 6 → spOfLane l.val s.w = some sp.val →
    spGrpSt sp.val s.w = 6 → (s.w.lan.exchs.find? fun e => e.2.spare == l.val) = none →
    tget s.w.lan.exchs (s.w.get (Reg.serves l.val)) = some e → e.unplanned = false → e.old = l.val →
    Completes (.gossipLoss l) s fun t => tget t.w.lan.exchs (s.w.get (Reg.serves l.val)) =
      some { e with oldFaulty := true, taken := e.taken || e.selfBridged }) ∧
  (∀ (l : Lane) (sp : SubPort) (x : Nat) (s : State), portsOn s.mode s.w = true → laneSt l.val s.w = 6 → spOfLane l.val s.w = some sp.val →
    spGrpSt sp.val s.w = 6 → (s.w.lan.exchs.find? fun e => e.2.spare == l.val) = none →
    tget s.w.lan.exchs (s.w.get (Reg.serves l.val)) = none → capOf sp.val 0 s.w = true →
    s.w.get (Reg.trainMode (s.w.get (Reg.serves l.val) / 16)) ≠ 1 → s.w.get (Reg.serves l.val) < 1024 →
    (freeList (s.w.get (Reg.serves l.val) / 16) (groupRate sp.val s.w) s.w).head? = some x →
    Completes (.gossipLoss l) s fun t => ∃ e, tget t.w.lan.exchs (s.w.get (Reg.serves l.val)) = some e ∧ e.spare = x ∧ e.old =
      laneOf (s.w.get (Reg.serves l.val) / 16) (s.w.get (Reg.serves l.val) % 16) s.w ∧ e.unplanned = true ∧ e.initiator = true) ∧
  (∀ (l : Lane) (sp : SubPort) (s : State), portsOn s.mode s.w = true → laneSt l.val s.w = 6 → spOfLane l.val s.w = some sp.val →
    spGrpSt sp.val s.w = 6 → (s.w.lan.exchs.find? fun e => e.2.spare == l.val) = none →
    tget s.w.lan.exchs (s.w.get (Reg.serves l.val)) = none → capOf sp.val 0 s.w = false →
    Completes (.gossipLoss l) s fun t => (spGrp sp.val s.w).held10s = false → spGrpSt sp.val t.w = 7 ∨ spGrpSt sp.val t.w = 8)

/-- Words of a repointing exchange (R217, R221 to R228, R232, R236, R239): what each leaves in the exchange, survey or pool lane that it names.
Beyond the rules' own words it takes the model's reading: log entry 23. -/
def Obligations.ExchangeWords : Prop :=
  (∀ (l : Lane) (payload : Nat) (s : State), portsOn s.mode s.w = true → laneUseOf l.val s.w = 1 → laneSt l.val s.w = 10 →
    (s.w.lane l.val).freeSeen = true ∨ bit payload 7 = false → Completes (.gossipSpare l payload) s fun t =>
      t.w = s.w.modLane l.val fun r => { r with freeSeen := bit payload 7, pair := some (payload % 128) }) ∧
  (∀ (l : Lane) (exch payload k : Nat) (sp : SubPort) (s : State), portsOn s.mode s.w = true → wordKey l (payload % 16) s.w = some (sp.val, k) →
    spGrpSt sp.val s.w = 6 → tget s.w.lan.exchs k = none →
    (s.w.lan.exchs.find? fun e => e.2.spare == brickOfSp sp.val * 68 + bits payload 17 11) = none →
    prepareRefusal sp.val (brickOfSp sp.val * 68 + bits payload 17 11) (bits payload 10 4) (bit payload 18) (bit payload 19) s.w = none →
    Completes (.gossipPrepare l exch payload) s fun t => laneUseOf (brickOfSp sp.val * 68 + bits payload 17 11) t.w = 0 ∧
      t.w.get (Reg.serves (brickOfSp sp.val * 68 + bits payload 17 11)) = k % 2 ^ 16 ∧
      ∃ e, tget t.w.lan.exchs k = some e ∧ e.initiator = false ∧ e.exch = exch ∧ e.spare = brickOfSp sp.val * 68 + bits payload 17 11 ∧
        e.peerSpare = bits payload 10 4 ∧ e.bridged = true ∧ e.unplanned = bit payload 18 ∧ e.survey = bit payload 19 ∧ e.retire = bit payload 20) ∧
  (∀ (l : Lane) (exch payload k reason : Nat) (sp : SubPort) (s : State), portsOn s.mode s.w = true →
    wordKey l (payload % 16) s.w = some (sp.val, k) → spGrpSt sp.val s.w = 6 → tget s.w.lan.exchs k = none →
    (s.w.lan.exchs.find? fun e => e.2.spare == brickOfSp sp.val * 68 + bits payload 17 11) = none →
    prepareRefusal sp.val (brickOfSp sp.val * 68 + bits payload 17 11) (bits payload 10 4) (bit payload 18) (bit payload 19) s.w = some reason →
    Completes (.gossipPrepare l exch payload) s fun t => t.w.lan = s.w.lan ∧ t.w.regs = s.w.regs) ∧
  (∀ (l : Lane) (exch payload k sp : Nat) (e : Exch) (s : State), portsOn s.mode s.w = true → wordKey l (payload % 16) s.w = some (sp, k) →
    tget s.w.lan.exchs k = some e → e.exch = exch → Completes (.gossipReady l exch payload) s fun t => tget t.w.lan.exchs k = some
      (if bit payload 4 && !e.unplanned && !e.rollSent then { e with bridged := true, peerBridged := true, rollSent := true }
       else { e with bridged := true })) ∧
  (∀ (l : Lane) (exch payload codeword k sp : Nat) (e : Exch) (s : State), portsOn s.mode s.w = true → wordKey l (payload % 16) s.w = some (sp, k) →
    tget s.w.lan.exchs k = some e → e.exch = exch → e.taken = false → Completes (.gossipRoll l exch payload codeword) s fun t =>
      tget t.w.lan.exchs k = some { e with rollCopies := (l.val, codeword) :: e.rollCopies.filter fun c => c.1 != l.val } ∧ t.w.regs = s.w.regs) ∧
  (∀ (l : Lane) (exch payload k sp : Nat) (e : Exch) (s : State), portsOn s.mode s.w = true → wordKey l (payload % 16) s.w = some (sp, k) →
    tget s.w.lan.exchs k = some e → e.exch = exch → (e.taken = false → Completes (.gossipRolled l exch payload) s fun t =>
        tget t.w.lan.exchs k = some { e with peerRolled := true } ∧ t.w.regs = s.w.regs) ∧
      (e.taken = true → e.survey = false → tget s.w.lan.surveys e.spare = none → e.spare < 1088 → k < 1024 → Completes (.gossipRolled l exch payload) s fun t =>
        tget t.w.lan.exchs k = none ∧ laneOf (k / 16) (k % 16) t.w = e.spare)) ∧
  (∀ (l : Lane) (exch payload k sp : Nat) (e : Exch) (s : State), portsOn s.mode s.w = true → wordKey l (payload % 16) s.w = some (sp, k) →
    tget s.w.lan.exchs k = some e → e.exch = exch → e.unplanned = false → e.survey = false → Completes (.gossipRefuse l exch payload) s fun t =>
      tget t.w.lan.exchs k = none ∧ (e.bridged = false → t.w.get (Reg.abandonedCount (brickOfPort (k / 16))) =
        (s.w.get (Reg.abandonedCount (brickOfPort (k / 16))) + 1) % 2 ^ 32)) ∧
  (∀ (l : Lane) (exch payload x : Nat) (v : SurveyRt) (s : State), portsOn s.mode s.w = true →
    (s.w.lan.surveys.find? fun e => brickOfLane e.1 == brickOfLane l.val && (e.1 == l.val || (match e.2.role with
      | some k => k % 16 == payload % 16 && (spOfLane l.val s.w).map (· / 8) == some (k / 16)
      | none => false))) = some (x, v) →
    (bits payload 5 4 = 1 → Completes (.gossipSurvey l exch payload) s fun t => tget t.w.lan.surveys x =
      some { v with peerV := bits payload 13 6, peerH := bits payload 19 14, peerErr := bits payload 27 20 } ∧ t.w.regs = s.w.regs) ∧
    (bits payload 5 4 = 2 → v.own = false → Completes (.gossipSurvey l exch payload) s fun t =>
      tget t.w.lan.surveys x = none ∧ t.w.regs = s.w.regs)) ∧
  (∀ (l : Lane) (payload x : Nat) (s : State), portsOn s.mode s.w = true →
    ((brickLanes (brickOfLane l.val)).find? fun y => (s.w.lane y).pair == some (bits payload 10 4) && laneUseOf y s.w == 1) = some x →
    Completes (.gossipRetire l payload) s fun t => laneUseOf x t.w = 3 ∧ laneSt x t.w = 12 ∧ t.w.get (Reg.retireCause x) = 4)

/-- Local events of an exchange (R221, R225 to R228): the bridge has compared; the roll codeword arrives with its named codeword held; a ROLL without
ROLLED is repeated, and after eight repeats the exchange is abandoned; a spare of a failed lane is taken once it is deskewed. Beyond the rules' own
words it takes the model's reading: log entries 7, 23. -/
def Obligations.ExchangeEvents : Prop :=
  (∀ (p : Port) (role : Reg4) (e : Exch) (s : State), portsOn s.mode s.w = true → tget s.w.lan.exchs (p.val * 16 + role.val) = some e →
    e.bridged = true → e.unplanned = false → e.selfBridged = false → e.oldFaulty = false → Completes (.bridgeCompareDone p role) s fun t =>
      tget t.w.lan.exchs (p.val * 16 + role.val) = some { e with selfBridged := true } ∧ t.w.regs = s.w.regs) ∧
  (∀ (p : Port) (role : Reg4) (shift : Int) (e : Exch) (s : State), portsOn s.mode s.w = true →
    tget s.w.lan.exchs (p.val * 16 + role.val) = some e → e.unplanned = false → e.taken = false → rollHeld e.rollCopies = true → e.peerRolled = false →
    Completes (.rollCodeword p role shift) s fun t => tget t.w.lan.exchs (p.val * 16 + role.val) = some { e with taken := true }) ∧
  (∀ (p : Port) (role : Reg4) (e : Exch) (s : State), portsOn s.mode s.w = true → tget s.w.lan.exchs (p.val * 16 + role.val) = some e →
    e.rollSent = true → e.peerRolled = false →
    (e.tries < 8 → Completes (.rollTimeout p role) s fun t =>
      tget t.w.lan.exchs (p.val * 16 + role.val) = some { e with tries := e.tries + 1 } ∧ t.w.regs = s.w.regs) ∧
    (8 ≤ e.tries → Completes (.rollTimeout p role) s fun t => tget t.w.lan.exchs (p.val * 16 + role.val) = none)) ∧
  (∀ (p : Port) (role : Reg4) (shift : Int) (ns : Nat) (e : Exch) (s : State), portsOn s.mode s.w = true →
    tget s.w.lan.exchs (p.val * 16 + role.val) = some e → e.bridged = true → e.oldFaulty = true → e.taken = false → e.peerRolled = false →
    Completes (.spareDeskewed p role shift ns) s fun t => tget t.w.lan.exchs (p.val * 16 + role.val) = some { e with taken := true } ∧
      (e.unplanned = true → t.w.get (Reg.lastInterruptNs (brickOfPort p.val)) = ns % 2 ^ 32))

/-- Pool lanes, retests, surveys and their timers (R216, R217, R231, R234 to R240, R243): a trained pool lane sends SPARE; a failed one is held; a
held lane retrains when its wait ends and, measured, returns to the pool or counts a failure; a round starts when its period ends; a pool lane is
surveyed in place, and its survey ends with its period, in which a partner's survey starts to return its role; each course shows its largest deficit;
an hour of SERVICE_S asks for its sheaf. Beyond the rules' own words it takes the model's reading: log entries 7, 22, 23. -/
def Obligations.PoolLanesAndSurveys : Prop :=
  (∀ (l : Lane) (s : State), portsOn s.mode s.w = true → laneUseOf l.val s.w = 1 → laneSt l.val s.w = 10 → Completes (.spareBurst l) s fun t =>
    t.w = s.w.emit (.gossip l 4 0 0 (l.val % 68 + b2n (!exchHolds l.val s.w) * 128))) ∧
  (∀ (l : Lane) (s : State), portsOn s.mode s.w = true → laneUseOf l.val s.w = 1 → laneSt l.val s.w = 10 → Completes (.spareFault l) s fun t =>
    laneUseOf l.val t.w = 2 ∧ (t.w.lane l.val).retestFails = 0) ∧
  (∀ (l : Lane) (s : State), portsOn s.mode s.w = true → laneUseOf l.val s.w = 2 → laneSt l.val s.w = 11 → surveying l.val s.w = false →
    Completes (.retestStart l) s fun t => laneSt l.val t.w = 1 ∧ (t.w.lane l.val).retesting = true) ∧
  (∀ (l : Lane) (m : SurveyMeas) (s : State), portsOn s.mode s.w = true → laneUseOf l.val s.w = 2 → (s.w.lane l.val).retesting = true →
    (s.w.lane l.val).trained.isSome = true →
    (m.errors * 1000000 ≤ m.bits → s.w.get Reg.vFloorMv ≤ minOf m.v → s.w.get Reg.hFloor ≤ minOf m.h → Completes (.retestMeasured l m) s fun t =>
      laneUseOf l.val t.w = 1 ∧ ((s.w.lane l.val).trained = some (if bareSvc s.w then 1 else s.w.get (Reg.spareRate (brickOfLane l.val))) →
        laneSt l.val t.w = 10)) ∧
    (m.bits < m.errors * 1000000 → Completes (.retestMeasured l m) s fun t =>
      if 3 ≤ (s.w.lane l.val).retestFails + 1 then laneUseOf l.val t.w = 3 ∧ t.w.get (Reg.retireCause l.val) = 1
      else laneUseOf l.val t.w = 2 ∧ (t.w.lane l.val).retestFails = (s.w.lane l.val).retestFails + 1)) ∧
  (∀ (s : State), portsOn s.mode s.w = true → roundMay s.w = true → Completes .roundPeriodExpiry s fun t =>
    t.w.get Reg.roundActive = 1 ∧ t.w.lan.roundStartS = s.w.get Reg.serviceS) ∧
  (∀ (b : Brick) (l : Nat) (rest : List Nat) (s : State), portsOn s.mode s.w = true → (s.w.round b.val).current = none → bareSvc s.w = false →
    s.w.bnd.dozing = false → (s.w.round b.val).asked = l :: rest → laneUseOf l s.w = 1 → laneSt l s.w = 10 → exchHolds l s.w = false →
    Completes (.surveyStart b) s fun t => tget t.w.lan.surveys l = some (newSurvey none l .measuring) ∧
      t.w.get (Reg.roundLane b.val) = l % 2 ^ 16 ∧ (t.w.round b.val).current = some l ∧ (t.w.round b.val).asked = rest) ∧
  (∀ (b : Brick) (s : State), portsOn s.mode s.w = true → (s.w.round b.val).current.isSome = true ∨ bareSvc s.w = true ∨ s.w.bnd.dozing = true →
    Completes (.surveyStart b) s fun t => t.w.lan = s.w.lan ∧ (∀ o, Aside o → t.w.get o = s.w.get o)) ∧
  (∀ (b : Brick) (l : Nat) (v : SurveyRt) (m : SurveyMeas) (re again : Option SurveyMeas) (s : State), portsOn s.mode s.w = true →
    (measuringIn b.val s.w).find? (fun e => e.2.own) = some (l, v) → v.role = none →
    Completes (.surveyPrbsEnd b m re again) s fun t => tget t.w.lan.surveys l = none) ∧
  (∀ (b : Brick) (l : Nat) (v : SurveyRt) (m : SurveyMeas) (re again : Option SurveyMeas) (s : State), portsOn s.mode s.w = true →
    (measuringIn b.val s.w).find? (fun e => e.2.own) = none → (measuringIn b.val s.w).head? = some (l, v) →
    Completes (.surveyPrbsEnd b m re again) s fun t => tget t.w.lan.surveys l = some { v with phase := .returning }) ∧
  (∀ (st rf : List Nat) (c : Nat) (s : State), portsOn s.mode s.w = true → c < 4 → Completes (.telltaleMeasure st rf) s fun t =>
    t.w.get (Reg.ttDeficitC c) = ofInt 32 (((List.range 8).map fun i => deficitPpm (st.getD (c * 8 + i) 0) (rf.getD (c * 8 + i) 0)).foldl max
      (deficitPpm (st.getD (c * 8) 0) (rf.getD (c * 8) 0))) % 2 ^ 32) ∧
  (∀ (s : State), reeveOn s.mode s.w = true → granaryShut s.w = false → Completes .serviceSHourly s fun t =>
    t.w.gra.genNext = s.w.gra.genNext + 1 ∧ t.w.gra.queue ++ t.w.gra.waiting = s.w.gra.queue ++ s.w.gra.waiting ++
      groupOf 0x01 (0x1483 + 1 * 2 ^ 16) false (ledgerBodies (toLe 8 (s.w.get Reg.serviceS)) 0) 3 .none s.w.gra.genNext (s.w.get Reg.granaryLayout))

/-- FEC windows, PRBS checkers, eye scans and field lanes (R198, R201, R202, R204, R207, R273). Beyond the rules' own words it takes the model's
reading: log entries 7, 32. -/
def Obligations.LaneMeasurementsAndFieldLanes : Prop :=
  (∀ (sp : SubPort) (rc : List Nat) (cw co un : Nat) (s : State), portsOn s.mode s.w = true → spUp sp.val s.w = true → spWidthOf sp.val s.w ≤ 16 →
    (∀ n ∈ rc, n < s.w.get (Reg.laneSerLimit (portOfSp sp.val))) → Completes (.fecWindowEnd sp rc cw co un) s fun t =>
      t.w.get (Reg.statistic sp.val 96) = (s.w.get (Reg.statistic sp.val 96) + cw) % 2 ^ 64 ∧
      t.w.get (Reg.statistic sp.val 97) = (s.w.get (Reg.statistic sp.val 97) + co) % 2 ^ 64 ∧
      t.w.get (Reg.statistic sp.val 98) = (s.w.get (Reg.statistic sp.val 98) + un) % 2 ^ 64 ∧
      t.w.get (Reg.statistic sp.val 99) = (s.w.get (Reg.statistic sp.val 99) + rc.sum) % 2 ^ 64 ∧ t.w.lan = s.w.lan) ∧
  (∀ (l : Lane) (gained : Bool) (n e : Nat) (s : State), portsOn s.mode s.w = true → laneSt l.val s.w = 13 → s.w.get (Reg.prbsRx l.val) % 4 ≠ 0 →
    Completes (.prbsCheckerLock l gained n e) s fun t => t.w.get (Reg.prbsLock l.val) = b2n gained ∧
      (s.w.get (Reg.prbsLock l.val) ≠ 0 → t.w.get (Reg.prbsBits l.val) = (s.w.get (Reg.prbsBits l.val) + n) % 2 ^ 64 ∧
        t.w.get (Reg.prbsErrors l.val) = (s.w.get (Reg.prbsErrors l.val) + e) % 2 ^ 64) ∧
      (s.w.get (Reg.prbsLock l.val) = 0 → t.w.get (Reg.prbsBits l.val) = s.w.get (Reg.prbsBits l.val))) ∧
  (∀ (l : Lane) (counts : List Nat) (s : State), portsOn s.mode s.w = true → s.w.get (Reg.eyeState l.val) = 1 →
    Completes (.eyeScanDone l counts) s fun t => t.w.get (Reg.eyeState l.val) = 2 ∧ t.w.lan = s.w.lan ∧
      (tget t.w.led.doms ((0x6000 + l.val) * 256 + 0x1E)).isSome = true) ∧
  (∀ (l : Lane) (s : State), portsOn s.mode s.w = true → s.w.get (Reg.eyeState l.val) = 3 →
    Completes (.eyeScanResume l) s fun t => t.w.get (Reg.eyeState l.val) = 1 ∧ (∀ o, o.key ≠ (Reg.eyeState l.val).key → t.w.get o = s.w.get o)) ∧
  (∀ (l : Lane) (s : State), portsOn s.mode s.w = true → s.w.get (Reg.eyeState l.val) = 3 →
    Completes (.eyeScanAbort l) s fun t => t.w.get (Reg.eyeState l.val) = 4 ∧ t.w.lan = s.w.lan) ∧
  (∀ (f : Fin 2) (s : State), reeveOn s.mode s.w = true → fieldRuns s.mode = true → bit (s.w.get Reg.fEnable) f.val = true →
    s.w.get (fieldUpReg f.val) = 0 → s.w.bnd.clocksStopped = false → s.w.bnd.fetchDue = false → Completes (.fieldLaneUp f) s fun t =>
      t.w.get (fieldUpReg f.val) = 1 ∧ t.w.get Reg.dbWritten = (s.w.get Reg.dbWritten + 1) % 2 ^ 64) ∧
  (∀ (f : Fin 2) (s : State), reeveOn s.mode s.w = true → s.w.get (fieldUpReg f.val) ≠ 0 → Completes (.fieldLaneDown f) s fun t =>
      t.w.get (fieldUpReg f.val) = 0 ∧ t.w.get (fieldDownsReg f.val) = (s.w.get (fieldDownsReg f.val) + 1) % 2 ^ 32 ∧
      t.w.get Reg.dbWritten = (s.w.get Reg.dbWritten + 1) % 2 ^ 64) ∧
  (∀ (f : Fin 2) (s : State), Completes (.fieldLaneRetry f) s fun t => t = s)

/-- Header lock, uncorrectable codewords, pauses (R272, R274, R287, R289): header lock lost is counted once and, not back in time, takes the sub-port
down, as too many uncorrectable codewords do; a PAUSE or PFC frame pauses the priorities it names for its quanta, until the pause runs out; a class
above XON_CELLS sends its pause again. Beyond the rules' own words it takes the model's reading: log entries 7, 25, 32. -/
def Obligations.HeaderLockAndPauses : Prop :=
  (∀ (sp : SubPort) (s : State), portsOn s.mode s.w = true → spFlows sp.val s.w = true → sp.val ∉ s.w.prt.lockLost →
    Completes (.headerLockLoss sp) s fun t => t.w.prt.lockLost = sp.val :: s.w.prt.lockLost ∧
      t.w.get (Reg.statistic sp.val 100) = (s.w.get (Reg.statistic sp.val 100) + 1) % 2 ^ 64) ∧
  (∀ (sp : SubPort) (s : State), portsOn s.mode s.w = true → sp.val ∈ s.w.prt.lockLost → unplannedRuns sp.val s.w = false →
    Completes (.headerLockTimeout sp) s fun t => if (spGrp sp.val s.w).held10s then spGrpSt sp.val t.w = 0 ∨ spGrpSt sp.val t.w = 1
      else spGrpSt sp.val t.w = 7 ∨ spGrpSt sp.val t.w = 8) ∧
  (∀ (sp : SubPort) (s : State), portsOn s.mode s.w = true →
    Completes (.headerLockRegained sp) s fun t => t.w.prt = { s.w.prt with lockLost := s.w.prt.lockLost.erase sp.val } ∧ t.w.regs = s.w.regs) ∧
  (∀ (sp : SubPort) (s : State), portsOn s.mode s.w = true → spUp sp.val s.w = true → sp.val ∉ s.w.prt.lockLost → unplannedRuns sp.val s.w = false →
    Completes (.hiBer sp) s fun t => if (spGrp sp.val s.w).held10s then spGrpSt sp.val t.w = 0 ∨ spGrpSt sp.val t.w = 1
      else spGrpSt sp.val t.w = 7 ∨ spGrpSt sp.val t.w = 8) ∧
  (∀ (sp : SubPort) (q n : Nat) (s : State), portsOn s.mode s.w = true → spUp sp.val s.w = true → s.w.get (Reg.fcMode sp.val) = 1 → n < 8 →
    Completes (.pauseFrameRx sp q) s fun t => t.w.get (Reg.rxPaused sp.val) = (if q = 0 then 0 else 0xFF) ∧
      tget t.w.prt.pauseUntil (sp.val * 8 + n) = if q = 0 then none else some (nowPs s.w + q * quantumPs sp.val s.w)) ∧
  (∀ (sp : SubPort) (en n : Nat) (times : List Nat) (s : State), portsOn s.mode s.w = true → spUp sp.val s.w = true → s.w.get (Reg.fcMode sp.val) = 2 →
    n < 8 → Completes (.pfcFrameRx sp en times) s fun t =>
      tget t.w.prt.pauseUntil (sp.val * 8 + n) = if bit en n && bit (s.w.get (Reg.pfcEnable sp.val)) (tcOfPrio sp.val n s.w) then
        (if times.getD n 0 = 0 then none else some (nowPs s.w + times.getD n 0 * quantumPs sp.val s.w))
      else tget s.w.prt.pauseUntil (sp.val * 8 + n)) ∧
  (∀ (sp : SubPort) (tc : Fin 8) (s : State), portsOn s.mode s.w = true → Completes (.pauseExpiry sp tc) s fun t =>
    bit (t.w.get (Reg.rxPaused sp.val)) tc.val = false ∧ (s.w.get (Reg.fcMode sp.val) = 1 → tget t.w.prt.pauseUntil (sp.val * 8 + tc.val) = none)) ∧
  (∀ (sp : SubPort) (tc : Fin 8) (s : State), portsOn s.mode s.w = true → bit (s.w.get (Reg.txXoff sp.val)) tc.val = true →
    s.w.get (Reg.xonCells sp.val) < classCells sp.val tc.val s.w → spUp sp.val s.w = true → Completes (.pfcRefresh sp tc) s fun t =>
      tgetD t.w.prt.pauseOut sp.val [] = tgetD s.w.prt.pauseOut sp.val [] ++
        [⟨tc.val, priosOf sp.val tc.val s.w, s.w.get (Reg.pauseQuanta sp.val)⟩] ∧ t.w.regs = s.w.regs)

/-- The quiet handshake of a port (R293 to R299), outside DOZE entry: the request, the answer, quiet entered, the request refused or taken back, and
the wake. Beyond the rules' own words it takes the model's reading: log entries 7, 25. -/
def Obligations.QuietHandshake : Prop :=
  (∀ (p : Port) (s : State), portsOn s.mode s.w = true → s.w.bnd.dozing = false → (s.w.quiet p.val).phase = .none → quietReady p.val s.w = true →
    portIdle p.val s.w = true → s.w.get (Reg.quietEnable p.val) ≠ 0 → Completes (.quietIdleExpiry p) s fun t =>
      (t.w.quiet p.val).phase = .requesting ∧ t.w.out = .lpi p true :: s.w.out ∧ t.w.regs = s.w.regs) ∧
  (∀ (p : Port) (s : State), portsOn s.mode s.w = true → s.w.bnd.dozing = false → (s.w.quiet p.val).phase = .none → quietReady p.val s.w = true →
    portIdle p.val s.w = true → s.w.get (Reg.quietEnable p.val) ≠ 0 → Completes (.lpiReceived p) s fun t =>
      (t.w.quiet p.val).phase = .answering ∧ t.w.out = .lpi p true :: s.w.out ∧ t.w.regs = s.w.regs) ∧
  (∀ (p : Port) (s : State), portsOn s.mode s.w = true → (s.w.quiet p.val).phase = .requesting ∨ (s.w.quiet p.val).phase = .answering →
    quietReady p.val s.w = true → Completes (.lpiReceived p) s fun t => (t.w.quiet p.val).phase = .none ∧
      (∀ sp, activeSps p.val s.w = [sp] → spSt sp t.w = 3)) ∧
  (∀ (p : Port) (s : State), portsOn s.mode s.w = true → s.w.bnd.dozing = false → (s.w.quiet p.val).phase = .requesting →
    Completes (.quietHandshakeTimeout p) s fun t => (t.w.quiet p.val).phase = .none ∧ t.w.out = .lpi p false :: s.w.out ∧
      t.w.get (Reg.quietRefused p.val) = (s.w.get (Reg.quietRefused p.val) + 1) % 2 ^ 32) ∧
  (∀ (p : Port) (s : State), portsOn s.mode s.w = true → s.w.bnd.dozing = false → (s.w.quiet p.val).phase = .requesting ∨ (s.w.quiet p.val).phase = .answering →
    Completes (.idleAfterLpi p) s fun t => (t.w.quiet p.val).phase = .none ∧ t.w.out = .lpi p false :: s.w.out ∧ t.w.regs = s.w.regs) ∧
  (∀ (p : Port) (s : State), portsOn s.mode s.w = true → s.w.bnd.dozing = false → quietSps p.val s.w ≠ [] → (s.w.quiet p.val).phase ≠ .waking →
    Completes (.partnerWakeBurst p) s fun t => (t.w.quiet p.val).phase = .waking ∧ (t.w.quiet p.val).awaiting = false ∧
      t.w.out = .wakeBurst p :: s.w.out) ∧
  (∀ (p : Port) (s : State), portsOn s.mode s.w = true → (s.w.quiet p.val).phase = .waking → Completes (.quietWakeComplete p) s fun t =>
    (t.w.quiet p.val).phase = .none ∧ (∀ sp, quietSps p.val s.w = [sp] → spSt sp t.w = 2)) ∧
  (∀ (p : Port) (s : State), portsOn s.mode s.w = true → (s.w.quiet p.val).awaiting = true → Completes (.partnerWakeTimeout p) s fun t =>
    (t.w.quiet p.val).phase = .none ∧ (t.w.quiet p.val).awaiting = false ∧
      (∀ sp : SubPort, (portSps p.val s.w).filter (fun sp => spUp sp s.w) = [sp.val] → (spGrp sp.val s.w).held10s = false →
        spGrpSt sp.val t.w = 7 ∨ spGrpSt sp.val t.w = 8))

/-! ### The sequencers (R557 to R592) -/

/-- NOP, MOV, LDI and LDH (R560): the register each writes, FLAGS as before, and nothing else. -/
def Obligations.MacroMovesWriteOneRegister : Prop :=
  ∀ (u : Seqr) (s : State), atInstr u.val s = true →
    Computes (.mNop u) u.val [] s sameFlags ∧
    (∀ d g : Reg4, Computes (.mMov u d g) u.val [d.val] s fun r r' =>
      sameFlags r r' ∧ r'.reg d.val = r.reg g.val % 2 ^ 32) ∧
    (∀ imm : Byte, Computes (.mLdi u imm) u.val [0] s fun r r' => sameFlags r r' ∧ r'.reg 0 = imm.toNat) ∧
    (∀ imm : Byte, Computes (.mLdh u imm) u.val [0] s fun r r' =>
      sameFlags r r' ∧ r'.reg 0 = (r.reg 0 * 256 + imm.toNat) % 2 ^ 32)

/-- ADD, SUB, CMP, ADDQ and SUBQ (R560): the sum or difference modulo 2^32, Z and N from it, V exactly when the signed result does not fit 32 bits, C
the carry of an addition; whether C of a difference is its borrow is open (log entry 11). -/
def Obligations.MacroAddSubSetTheFlags : Prop :=
  ∀ (u : Seqr) (s : State), atInstr u.val s = true →
    (∀ d g : Reg4, Computes (.mAdd u d g) u.val [d.val] s fun r r' =>
      r'.reg d.val = (r.reg d.val + r.reg g.val) % 2 ^ 32 ∧ r'.z = (r'.reg d.val == 0) ∧
      r'.n = decide (2 ^ 31 ≤ r'.reg d.val) ∧ r'.c = decide (2 ^ 32 ≤ r.reg d.val + r.reg g.val) ∧
      (r'.v = true ↔ ¬ fits32 (toInt 32 (r.reg d.val) + toInt 32 (r.reg g.val)))) ∧
    (∀ d g : Reg4, Computes (.mSub u d g) u.val [d.val] s fun r r' =>
      r'.reg d.val = ofInt 32 ((r.reg d.val : Int) - r.reg g.val) ∧ r'.z = (r'.reg d.val == 0) ∧
      r'.n = decide (2 ^ 31 ≤ r'.reg d.val) ∧
      r'.c = (decide (r.reg d.val % 2 ^ 32 < r.reg g.val % 2 ^ 32) == Config.carryIsBorrow 0) ∧
      (r'.v = true ↔ ¬ fits32 (toInt 32 (r.reg d.val) - toInt 32 (r.reg g.val)))) ∧
    (∀ d g : Reg4, Computes (.mCmp u d g) u.val [] s fun r r' =>
      r'.z = decide (r.reg d.val % 2 ^ 32 = r.reg g.val % 2 ^ 32) ∧
      r'.n = decide (2 ^ 31 ≤ ofInt 32 ((r.reg d.val : Int) - r.reg g.val)) ∧
      r'.c = (decide (r.reg d.val % 2 ^ 32 < r.reg g.val % 2 ^ 32) == Config.carryIsBorrow 0) ∧
      (r'.v = true ↔ ¬ fits32 (toInt 32 (r.reg d.val) - toInt 32 (r.reg g.val)))) ∧
    (∀ (d : Reg4) (i : Fin 16), Computes (.mAddq u d i) u.val [d.val] s fun r r' =>
      r'.reg d.val = (r.reg d.val + i.val) % 2 ^ 32 ∧ r'.z = (r'.reg d.val == 0) ∧
      r'.n = decide (2 ^ 31 ≤ r'.reg d.val) ∧ r'.c = decide (2 ^ 32 ≤ r.reg d.val + i.val) ∧
      (r'.v = true ↔ ¬ fits32 (toInt 32 (r.reg d.val) + i.val))) ∧
    (∀ (d : Reg4) (i : Fin 16), Computes (.mSubq u d i) u.val [d.val] s fun r r' =>
      r'.reg d.val = ofInt 32 ((r.reg d.val : Int) - i.val) ∧ r'.z = (r'.reg d.val == 0) ∧
      r'.n = decide (2 ^ 31 ≤ r'.reg d.val) ∧
      r'.c = (decide (r.reg d.val % 2 ^ 32 < i.val) == Config.carryIsBorrow 0) ∧
      (r'.v = true ↔ ¬ fits32 (toInt 32 (r.reg d.val) - i.val)))

/-- AND, OR and XOR set Z and N alone; SHL and SHR shift by gS mod 32 and set no flag (R560). -/
def Obligations.MacroLogicAndShifts : Prop :=
  ∀ (u : Seqr) (s : State), atInstr u.val s = true →
    (∀ d g : Reg4, Computes (.mAnd u d g) u.val [d.val] s fun r r' =>
      r'.reg d.val = (r.reg d.val &&& r.reg g.val) % 2 ^ 32 ∧ r'.z = (r'.reg d.val == 0) ∧
      r'.n = decide (2 ^ 31 ≤ r'.reg d.val) ∧ r'.c = r.c ∧ r'.v = r.v) ∧
    (∀ d g : Reg4, Computes (.mOr u d g) u.val [d.val] s fun r r' =>
      r'.reg d.val = (r.reg d.val ||| r.reg g.val) % 2 ^ 32 ∧ r'.z = (r'.reg d.val == 0) ∧
      r'.n = decide (2 ^ 31 ≤ r'.reg d.val) ∧ r'.c = r.c ∧ r'.v = r.v) ∧
    (∀ d g : Reg4, Computes (.mXor u d g) u.val [d.val] s fun r r' =>
      r'.reg d.val = (r.reg d.val ^^^ r.reg g.val) % 2 ^ 32 ∧ r'.z = (r'.reg d.val == 0) ∧
      r'.n = decide (2 ^ 31 ≤ r'.reg d.val) ∧ r'.c = r.c ∧ r'.v = r.v) ∧
    (∀ d g : Reg4, Computes (.mShl u d g) u.val [d.val] s fun r r' =>
      r'.reg d.val = r.reg d.val * 2 ^ (r.reg g.val % 32) % 2 ^ 32 ∧ sameFlags r r') ∧
    (∀ d g : Reg4, Computes (.mShr u d g) u.val [d.val] s fun r r' =>
      r'.reg d.val = r.reg d.val % 2 ^ 32 / 2 ^ (r.reg g.val % 32) ∧ sameFlags r r')

/-- LD and ST read and write the word at the address, IN and OUT the scratch words of R569 (R560, R569). An I/O word that is not given reads as a
free value: nothing is said of it but that the other registers stay. -/
def Obligations.MacroMemoryAndIo : Prop :=
  ∀ (u : Seqr) (s : State), atInstr u.val s = true → noFault s →
    (∀ d g : Reg4, (s.w.seq u.val).reg g.val < dataSize u.val →
      Computes (.mLd u d g) u.val [d.val] s fun r r' => sameFlags r r' ∧ r'.reg d.val = r.word (r.reg g.val) % 2 ^ 32) ∧
    (∀ d g : Reg4, (s.w.seq u.val).reg d.val < dataSize u.val →
      Completes (.mSt u d g) s fun t => OnlySeq u.val s t ∧ SeqHeld (s.w.seq u.val) (t.w.seq u.val) ∧
        sameFlags (s.w.seq u.val) (t.w.seq u.val) ∧ sameCtl (s.w.seq u.val) (t.w.seq u.val) ∧
        (t.w.seq u.val).g = (s.w.seq u.val).g ∧ (t.w.seq u.val).stack = (s.w.seq u.val).stack ∧
        (t.w.seq u.val).mpc = ((s.w.seq u.val).mpc + 1) % 4096 ∧
        ∀ a, (t.w.seq u.val).word a =
          if a = (s.w.seq u.val).reg d.val then (s.w.seq u.val).reg g.val % 2 ^ 32 else (s.w.seq u.val).word a) ∧
    (∀ d g : Reg4, Computes (.mIn u d g) u.val [d.val] s fun r r' => sameFlags r r' ∧
      (u.val < 16 → 0xF010 ≤ r.reg g.val % 2 ^ 16 → r.reg g.val % 2 ^ 16 ≤ 0xF0FF →
        r'.reg d.val = tgetD r.io (r.reg g.val % 2 ^ 16) 0 % 2 ^ 32)) ∧
    (∀ d g : Reg4, u.val < 16 → 0xF010 ≤ (s.w.seq u.val).reg d.val % 2 ^ 16 → (s.w.seq u.val).reg d.val % 2 ^ 16 ≤ 0xF0FF →
      Completes (.mOut u d g) s fun t => OnlySeq u.val s t ∧ sameFlags (s.w.seq u.val) (t.w.seq u.val) ∧
        (t.w.seq u.val).g = (s.w.seq u.val).g ∧ (t.w.seq u.val).data = (s.w.seq u.val).data ∧
        (t.w.seq u.val).mpc = ((s.w.seq u.val).mpc + 1) % 4096 ∧
        ∀ a, tgetD (t.w.seq u.val).io a 0 =
          if a = (s.w.seq u.val).reg d.val % 2 ^ 16 then (s.w.seq u.val).reg g.val % 2 ^ 32
          else tgetD (s.w.seq u.val).io a 0)

/-- Branches, CALL, RET and JR go where R559 and R560 say; a branch that is not taken goes on. -/
def Obligations.MacroControlGoesWhereItSays : Prop :=
  ∀ (u : Seqr) (s : State), atInstr u.val s = true → noFault s →
    (∀ off : Byte, Jumps (.mBr u off) u.val s fun r r' => r'.stack = r.stack ∧ branches r r' off) ∧
    (∀ off : Byte, Jumps (.mBz u off) u.val s fun r r' => r'.stack = r.stack ∧
      if r.z then branches r r' off else r'.mpc = (r.mpc + 1) % 4096) ∧
    (∀ off : Byte, Jumps (.mBnz u off) u.val s fun r r' => r'.stack = r.stack ∧
      if r.z then r'.mpc = (r.mpc + 1) % 4096 else branches r r' off) ∧
    (∀ off : Byte, Jumps (.mBn u off) u.val s fun r r' => r'.stack = r.stack ∧
      if r.n then branches r r' off else r'.mpc = (r.mpc + 1) % 4096) ∧
    (∀ off : Byte, Jumps (.mBc u off) u.val s fun r r' => r'.stack = r.stack ∧
      if r.c then branches r r' off else r'.mpc = (r.mpc + 1) % 4096) ∧
    (∀ off : Byte, (s.w.seq u.val).stack.length < 16 → Jumps (.mCall u off) u.val s fun r r' =>
      r'.stack = (r.mpc + 1) % 4096 :: r.stack ∧ branches r r' off) ∧
    (∀ a st, (s.w.seq u.val).stack = a :: st → Jumps (.mRet u) u.val s fun _ r' => r'.stack = st ∧ r'.mpc = a) ∧
    (∀ d g : Reg4, Jumps (.mJr u d g) u.val s fun r r' => r'.stack = r.stack ∧ r'.mpc = r.reg g.val % 4096)

/-- WAIT, DI, EI, KICK and TRAP change what R560 names and nothing else; RETI restores MPC and FLAGS and leaves the handler (R581). Beyond the rules'
own words it takes the model's reading: log entry 13. -/
def Obligations.MacroWaitsInterruptsAndTraps : Prop :=
  ∀ (u : Seqr) (s : State), atInstr u.val s = true → noFault s →
    (Computes (.mWait u) u.val [] s fun r r' => sameFlags r r' ∧ r'.waiting = true) ∧
    (Completes (.mDi u) s fun t => OnlySeq u.val s t ∧ Stepped (s.w.seq u.val) (t.w.seq u.val) ∧
      sameFlags (s.w.seq u.val) (t.w.seq u.val) ∧ (t.w.seq u.val).g = (s.w.seq u.val).g ∧ (t.w.seq u.val).ie = false) ∧
    (Completes (.mEi u) s fun t => OnlySeq u.val s t ∧ Stepped (s.w.seq u.val) (t.w.seq u.val) ∧
      sameFlags (s.w.seq u.val) (t.w.seq u.val) ∧ (t.w.seq u.val).g = (s.w.seq u.val).g ∧ (t.w.seq u.val).ie = true) ∧
    (Completes (.mKick u) s fun t => OnlySeq u.val s t ∧ Stepped (s.w.seq u.val) (t.w.seq u.val) ∧
      sameFlags (s.w.seq u.val) (t.w.seq u.val) ∧ (t.w.seq u.val).g = (s.w.seq u.val).g ∧
      (t.w.seq u.val).ie = (s.w.seq u.val).ie ∧ (t.w.seq u.val).kicked = s.w.time.tclk) ∧
    (∀ code : Byte, Completes (.mTrap u code) s fun t => OnlySeq u.val s t ∧ Stepped (s.w.seq u.val) (t.w.seq u.val) ∧
      sameFlags (s.w.seq u.val) (t.w.seq u.val) ∧ (t.w.seq u.val).g = (s.w.seq u.val).g ∧
      (t.w.seq u.val).trap = some code.toNat) ∧
    ((s.w.seq u.val).inHandler = true → Completes (.mReti u) s fun t => OnlySeq u.val s t ∧
      SeqHeld (s.w.seq u.val) (t.w.seq u.val) ∧ (t.w.seq u.val).g = (s.w.seq u.val).g ∧
      (t.w.seq u.val).data = (s.w.seq u.val).data ∧ (t.w.seq u.val).stack = (s.w.seq u.val).stack ∧
      (t.w.seq u.val).inHandler = false ∧ (t.w.seq u.val).mpc = (s.w.seq u.val).retMpc ∧
      (t.w.seq u.val).z = bit (s.w.seq u.val).retFlags 0 ∧ (t.w.seq u.val).n = bit (s.w.seq u.val).retFlags 1 ∧
      (t.w.seq u.val).c = bit (s.w.seq u.val).retFlags 2 ∧ (t.w.seq u.val).v = bit (s.w.seq u.val).retFlags 3)

/-- A CALL with 16 entries on the stack, a RET with none, a RETI outside a handler (log entry 13) is a macro-stack fault, cause 3; a data address
beyond the data memory is a data-address fault, cause 4 (R562, R576, R577). -/
def Obligations.MacroFaultsRestartTheSequencer : Prop :=
  ∀ (u : Seqr) (s : State), atInstr u.val s = true → noFault s →
    (∀ off : Byte, (s.w.seq u.val).stack.length = 16 → Faults (.mCall u off) u.val 3 s) ∧
    ((s.w.seq u.val).stack = [] → Faults (.mRet u) u.val 3 s) ∧
    ((s.w.seq u.val).inHandler = false → Faults (.mReti u) u.val 3 s) ∧
    (∀ d g : Reg4, dataSize u.val ≤ (s.w.seq u.val).reg g.val → Faults (.mLd u d g) u.val 4 s) ∧
    (∀ d g : Reg4, dataSize u.val ≤ (s.w.seq u.val).reg d.val → Faults (.mSt u d g) u.val 4 s)

/-- Opcodes outside the base set (R561, R566, R568, R576): a vendor opcode leaves what its routine leaves; an illegal one has no effect but its count
and LAST_ILLEGAL; HOOK sets V when nothing is bound to it, else runs the bound routine and clears V. The routine itself is `microRun`, the microwords
of R564. Beyond the rules' own words it takes the model's reading: log entries 4, 44. -/
def Obligations.VendorIllegalAndHookOpcodes : Prop :=
  ∀ (u : Seqr) (s : State), atInstr u.val s = true → noFault s →
    (∀ (op opr : Byte) (a n : Nat) (r : SeqRt) (w : Wall), 0x40 ≤ op.toNat → op.toNat < 0xC0 →
      tget (s.w.seq u.val).dispatch op.toNat = some a →
      microRun u.val opr.toNat 4096 4096 0 a [] (fetched op.toNat opr.toNat (s.w.seq u.val)) s.w = .done r w n →
      Completes (.vendorOpcode u op opr) s fun t => t.mode = s.mode ∧ (t.w.seq u.val).g = r.g ∧ (t.w.seq u.val).data = r.data ∧
        (t.w.seq u.val).mpc = r.mpc ∧ (t.w.seq u.val).stack = r.stack ∧ sameFlags r (t.w.seq u.val)) ∧
    (∀ op opr : Byte, dispatchesIllegal u.val op.toNat s.w = true →
      Completes (.illegalOpcode u op opr) s fun t => t.mode = s.mode ∧ (t.w.seq u.val).g = (s.w.seq u.val).g ∧
        sameFlags (s.w.seq u.val) (t.w.seq u.val) ∧ Stepped (s.w.seq u.val) (t.w.seq u.val) ∧
        t.w.get (Reg.illegalOps u.val) = (s.w.get (Reg.illegalOps u.val) + 1) % 2 ^ 32 ∧
        t.w.get (Reg.lastIllegal u.val) = (op.toNat + (s.w.seq u.val).mpc * 256) % 2 ^ 32) ∧
    (∀ n : Byte, u.val = 16 ∨ s.w.flag (Reg.customerActive u.val) = false ∨ tget s.w.stw.hooks n.toNat = none →
      Completes (.mHook u n) s fun t => t.mode = s.mode ∧ (t.w.seq u.val).g = (s.w.seq u.val).g ∧
        Stepped (s.w.seq u.val) (t.w.seq u.val) ∧ (t.w.seq u.val).v = true ∧ (t.w.seq u.val).z = (s.w.seq u.val).z) ∧
    (∀ (n : Byte) (h a k : Nat) (r : SeqRt) (w : Wall), u.val < 16 → s.w.flag (Reg.customerActive u.val) = true →
      tget s.w.stw.hooks n.toNat = some h → tget (s.w.seq u.val).dispatch (h % 256) = some a → inCustomer u.val a = true →
      microRun u.val (h / 256) 1024 1024 0 a [] { fetched 0x24 n.toNat (s.w.seq u.val) with nowCust := true } s.w = .done r w k →
      Completes (.mHook u n) s fun t => t.mode = s.mode ∧ (t.w.seq u.val).g = r.g ∧ (t.w.seq u.val).data = r.data ∧
        (t.w.seq u.val).mpc = r.mpc ∧ (t.w.seq u.val).v = false ∧
        t.w.get (Reg.hookRuns u.val) = (w.get (Reg.hookRuns u.val) + 1) % 2 ^ 64)

/-- The Bellhouse, hold-offs, timers and watchdogs (R566, R575 to R577, R581, R582, R585): taking the winner saves MPC and FLAGS and enters its
handler, an edge latch of the Reeve clears; a hold-off ends; a timer and the DRBG's reseed point latch their sources; an overrun and a watchdog
restart the sequencer; a restart ends with the registers, the data memory and the scratch words clear and the entry run (log entry 10 names their
values). Beyond the rules' own words it takes the model's reading: log entries 7, 10, 13. -/
def Obligations.BellhouseTimersAndRestarts : Prop :=
  (∀ (u : Seqr) (s : State) (src : Nat), awake s.mode s.w = true → seqRuns s.mode u.val s.w = true → noFault s →
    (s.w.seq u.val).ie = true → (s.w.seq u.val).inHandler = false → winner s.w u.val = some src →
    tget (s.w.seq u.val).handlers src = none →
    Completes (.bellhouseTake u) s fun t => t.mode = s.mode ∧ (t.w.seq u.val).retMpc = (s.w.seq u.val).mpc ∧
      (t.w.seq u.val).retFlags = (s.w.seq u.val).flags4 ∧ (t.w.seq u.val).inHandler = true ∧
      (t.w.seq u.val).source = some src ∧ (t.w.seq u.val).g = (s.w.seq u.val).g ∧
      (u.val = 16 → t.w.get (Reg.bhPending 16) =
        (if isLevel 16 src then s.w.get (Reg.bhPending 16) else clrBit (s.w.get (Reg.bhPending 16)) src % 2 ^ 128))) ∧
  (∀ (u : Seqr) (g : Fin 8) (s : State), awake s.mode s.w = true → (tget (s.w.seq u.val).holdoff g.val).isSome = true →
    Completes (.holdoffExpiry u g) s fun t => t.mode = s.mode ∧ tget (t.w.seq u.val).holdoff g.val = none ∧
      (∀ h, h ≠ g.val → tget (t.w.seq u.val).holdoff h = tget (s.w.seq u.val).holdoff h) ∧ t.w.regs = s.w.regs) ∧
  (∀ (u : Seqr) (k : Fin 8) (s : State), awake s.mode s.w = true → seqRuns s.mode u.val s.w = true →
    Completes (.sequencerTimerExpiry u k) s fun t => t.mode = s.mode ∧
      bit (t.w.get (Reg.bhPending u.val)) (if u.val = 16 then 58 + k.val else 48 + k.val) = true) ∧
  (∀ s : State, reeveOn s.mode s.w = true → Completes .drbgReseedDue s fun t => t.mode = s.mode ∧
    bit (t.w.get (Reg.bhPending 16)) 56 = true) ∧
  (∀ (u : Seqr) (s : State), awake s.mode s.w = true → seqRuns s.mode u.val s.w = true → noFault s →
    Faults (.routineOverrun u) u.val 6 s) ∧
  (∀ (n : Fin 16) (s : State), awake s.mode s.w = true → seqRuns s.mode n.val s.w = true →
    Faults (.stewardWatchdog n) n.val 1 s) ∧
  (∀ (n : Fin 16) (s : State) (cause : Nat), reeveOn s.mode s.w = true → s.mode = .kindle ∨ s.mode = .service →
    tget s.w.stw.restarting n.val = some cause →
    Completes (.stewardRestartDone n) s fun t => t.mode = s.mode ∧ tget t.w.stw.restarting n.val = none ∧
      (t.w.seq n.val).g = [] ∧ (t.w.seq n.val).data = [] ∧ (t.w.seq n.val).io = [] ∧
      (t.w.seq n.val).kicked = s.w.time.tclk)

/-- Frames received (R258, R276 to R285, R309 to R313, R349 to R351): a frame cut off, or with a fault of the MAC, is counted and goes no further;
while frames do not flow nothing is received; a host sub-port's filter counts what it refuses; a frame that passes is given the next frame number and
is counted; an idle cell closes; an eligible cell uses one credit and leaves for the Pipe; a stall without credit is raised once. Beyond the rules'
own words it takes the model's reading: log entries 7, 21, 24. -/
def Obligations.FramesReceivedAndCellsSent : Prop :=
  (∀ (r : RxFrame) (s : State), portsOn s.mode s.w = true → r.cut = true → spWidthOf r.sp.val s.w ≠ 0 → spSt r.sp.val s.w ≠ 5 →
    Completes (.rxFrame r) s fun t => t.w.get (Reg.statistic r.sp.val 18) = (s.w.get (Reg.statistic r.sp.val 18) + 1) % 2 ^ 64 ∧ t.w.ing = s.w.ing) ∧
  (∀ (r : RxFrame) (s : State), portsOn s.mode s.w = true → r.cut = false → spFlows r.sp.val s.w = false → Completes (.rxFrame r) s fun t => t = s) ∧
  (∀ (r : RxFrame) (k : Nat) (s : State), portsOn s.mode s.w = true → r.cut = false → spFlows r.sp.val s.w = true →
    macFault r.sp.val r.bytes r.codeError s.w = some k → Completes (.rxFrame r) s fun t =>
      t.w.get (Reg.statistic r.sp.val k) = (s.w.get (Reg.statistic r.sp.val k) + 1) % 2 ^ 64 ∧ t.w.ing = s.w.ing) ∧
  (∀ (r : RxFrame) (s : State), portsOn s.mode s.w = true → r.cut = false → spFlows r.sp.val s.w = true → macFault r.sp.val r.bytes r.codeError s.w = none →
    u16at r.bytes 12 ≠ 0x8808 → s.w.get (Reg.hostSp r.sp.val) ≠ 0 → filterOk r.sp.val r.bytes s.w = false → Completes (.rxFrame r) s fun t =>
      t.w.get (Reg.statistic r.sp.val 16) = (s.w.get (Reg.statistic r.sp.val 16) + 1) % 2 ^ 64 ∧ t.w.ing = s.w.ing) ∧
  (∀ (r : RxFrame) (g : List Byte) (sec : Bool) (x y v z : Wall) (s : State), portsOn s.mode s.w = true → r.cut = false → spFlows r.sp.val s.w = true →
    macFault r.sp.val r.bytes r.codeError s.w = none → u16at r.bytes 12 ≠ 0x8808 → s.w.get (Reg.hostSp r.sp.val) = 0 →
    macsecRx r.sp.val (noFcs r.bytes) (portBusy (r.sp.val / 8) s.w) = (.pass g sec, x) →
    y = countRx r.sp.val r.bytes.length (frameBe r.bytes 0 6) (frameTc r.sp.val g x) x → ptpAt r.sp.val g y = none →
    admits r.sp.val (frameTc r.sp.val g y) y = true → parseRoom (r.sp.val / 8) y = some v → isInband r.sp.val g v = false →
    writeChunks r.sp.val v.ing.nextFrame (frameTc r.sp.val g y) (rxStamp r.sp.val r.stamp v) 1100 (ceilDiv g.length 16) 0
      (placed r.sp.val (rxStamp r.sp.val r.stamp v) sec g v) = .ok z →
    Completes (.rxFrame r) s fun t => t.w.ing.nextFrame = s.w.ing.nextFrame + 1) ∧
  (∀ (sp : SubPort) (cs : List ICell) (c : ICell) (s : State), portsOn s.mode s.w = true → cellsOf sp.val s.w = cs ++ [c] → c.closed = false →
    Completes (.cellIdleClose sp) s fun t => cellsOf sp.val t.w = cs ++ [{ c with closed := true }] ∧ t.w.regs = s.w.regs) ∧
  (∀ (b : Brick) (k left : Nat) (c : ICell) (s : State), portsOn s.mode s.w = true → 0 < courseCredits (courseOfBrick b.val) s.w →
    (tget s.w.bnd.pool (courseOfBrick b.val)).isSome = true → wrrPick b.val s.w = some (k, left) → nextCell (b.val * 32 + k) s.w = some c →
    Completes (.cellSend b) s fun t => courseCredits (courseOfBrick b.val) t.w = courseCredits (courseOfBrick b.val) s.w - 1 ∧
      ∃ q, t.w.out = .pipeCell q (cellOut b.val (b.val * 32 + k) c s.w) :: s.w.out ∧ q.val = courseOfBrick b.val) ∧
  (∀ (b : Brick) (us : Nat) (s : State), portsOn s.mode s.w = true → anyEligible b.val s.w = true → courseCredits (courseOfBrick b.val) s.w = 0 →
    bit s.w.ing.stalled b.val = false → Completes (.creditStall b us) s fun t => t.w.ing = { s.w.ing with stalled := setBit s.w.ing.stalled b.val } ∧
      t.w.get (Reg.creditStalls b.val) = (s.w.get (Reg.creditStalls b.val) + 1) % 2 ^ 32)

/-- The brick window's Sieve operations, the swap, the scrub, policers and the Gleaner (R328, R330, R337 to R340, R355, R357, R358): what each leaves
in the bank, the counter or the record that it names; while a swap runs an operation on the shadow bank is refused and writes no entry. Beyond the
rules' own words it takes the model's reading: log entries 7, 24. -/
def Obligations.SieveOperations : Prop :=
  (∀ (b : Brick) (i : Fin 8192) (s : State), windowOpen s.mode s.w = true → swapping b.val s.w = false →
    Completes (.sieveWriteShadow b i) s (fun t => entryAt b.val (shadowBank b.val s.w) i.val t.w = storedEntry (entryOf (stageOf b.val s.w))) ∧
    Completes (.sieveReadShadow b i) s (fun t => t.w.ing = s.w.ing ∧ ∀ k, k < 32 → t.w.win32 (brickWin b.val + 4 * k) 0 =
      entryBits (entryAt b.val (shadowBank b.val s.w) i.val s.w) / 2 ^ (32 * k) % 2 ^ 32) ∧
    Completes (.sieveInvalidateShadow b i) s (fun t => bit (entryAt b.val (shadowBank b.val s.w) i.val t.w).action 63 = false) ∧
    Completes (.sieveSwap (some b)) s (fun t => activeBank b.val t.w = shadowBank b.val s.w ∧ swapping b.val t.w = true)) ∧
  (∀ (b : Brick) (i : Fin 8192) (c : Instr) (s : State), windowOpen s.mode s.w = true → swapping b.val s.w = true →
    c = .sieveWriteShadow b i ∨ c = .sieveReadShadow b i ∨ c = .sieveInvalidateShadow b i ∨ c = .sieveSwap (some b) →
    Completes c s fun t => t.w.ing = s.w.ing ∧ t.w.regs = s.w.regs ∧ bit (sieveStatus b.val t.w) 1 = true) ∧
  (∀ (b : Brick) (i : Fin 8192) (s : State), windowOpen s.mode s.w = true →
    Completes (.sieveWriteBoth b i) s (fun t => ∀ bank, bank < 2 → entryAt b.val bank i.val t.w = storedEntry (entryOf (stageOf b.val s.w))) ∧
    Completes (.sieveReadActive b i) s (fun t => t.w.ing = s.w.ing ∧ ∀ k, k < 32 → t.w.win32 (brickWin b.val + 4 * k) 0 =
      entryBits (entryAt b.val (activeBank b.val s.w) i.val s.w) / 2 ^ (32 * k) % 2 ^ 32) ∧
    Completes (.sieveInvalidateBoth b i) s (fun t => ∀ bank, bank < 2 → bit (entryAt b.val bank i.val t.w).action 63 = false) ∧
    Completes (.hitCountClear b i) s (fun t => tget t.w.ing.hits (b.val * 8192 + i.val) = none ∧ t.w.regs = s.w.regs)) ∧
  (∀ (b : Brick) (s : State), awake s.mode s.w = true → swapping b.val s.w = true → Completes (.sieveSwapDone b) s fun t =>
    swapping b.val t.w = false ∧ t.w.get (Reg.swapCount b.val) = (s.w.get (Reg.swapCount b.val) + 1) % 2 ^ 32 ∧
      t.w.led.deferred = s.w.led.deferred.filter fun d => decide (d.on ≠ .swap b.val)) ∧
  (∀ (b : Brick) (bank : Fin 2) (i : Fin 8192) (s : State), portsOn s.mode s.w = true →
    Completes (.sieveScrubCompare b bank i .agrees false) s (fun t => t = s) ∧
    Completes (.sieveScrubCompare b bank i .correct false) s (fun t =>
      t.w.get (Reg.sieveRepairs b.val) = (s.w.get (Reg.sieveRepairs b.val) + 1) % 2 ^ 32 ∧ entryAt b.val bank.val i.val t.w =
        tgetD s.w.ing.master (sieveKeyOf b.val bank.val i.val) emptyEntry) ∧
    Completes (.sieveScrubCompare b bank i .uncorrectable false) s (fun t =>
      t.w.get (Reg.sieveDisabled b.val) = (s.w.get (Reg.sieveDisabled b.val) + 1) % 2 ^ 16 ∧
      bit (entryAt b.val bank.val i.val t.w).action 63 = false)) ∧
  (∀ (b : Brick) (i : Fin 1024) (v : Nat) (s : State), windowOpen s.mode s.w = true →
    Completes (.policerApply b i v) s fun t => if policerOk (policerStage b.val i.val v s.w) then
        policerAt b.val i.val t.w = fullPolicer (policerStage b.val i.val v s.w) s.w.time.dclk ∧ t.w.regs = s.w.regs
      else t.w.ing = s.w.ing ∧ t.w.get Reg.unmappedAccess = (s.w.get Reg.unmappedAccess + 1) % 2 ^ 32) ∧
  (∀ (b : Brick) (e : Fin 1024) (s : State), portsOn s.mode s.w = true → (tget s.w.ing.glean (gleanKey b.val e.val)).isSome = true →
    Completes (.gleanerExpiry b e) s fun t => tget t.w.ing.glean (gleanKey b.val e.val) = none ∧
      t.w.get (Reg.gleanExpired b.val) = (s.w.get (Reg.gleanExpired b.val) + 1) % 2 ^ 64 ∧
      t.w.get (Reg.gleanUsed b.val) = (s.w.get (Reg.gleanUsed b.val) - 1) % 2 ^ 16) ∧
  (∀ (r : LReq) (row : ObjRow) (u k : Nat) (data : List Byte) (s : State), u < 16 → rowId row = 0x210308 → Ready r row u k 1 data s →
    Completes .gleanFlush s fun t => t.w.get (Reg.gleanUsed u) = 0 ∧ ∀ e, e < 1024 → tget t.w.ing.glean (gleanKey u e) = none)

/-! ### Writes that are answered later (R84, R129, R130, R337, R347, R406, R411, R412, R469, R471) -/

/-- Time writes wait for a resync instant (R411): each leaves the Ledger queue unanswered, with its requester; the resync instant brings every write
that is due into force and forgets it, and shows the rest as seen. A read of a stamp or sample FIFO removes its oldest entry (R426, R612). Beyond the
rules' own words it takes the model's reading: log entries 5, 9, 27. -/
def Obligations.TimeWritesAndCaptures : Prop :=
  (∀ (r : LReq) (row : ObjRow) (u k v : Nat) (data : List Byte) (s : State), Ready r row u k v data s →
    let waits (op : TimeOp) (t : State) : Prop := t.w.led.queue = s.w.led.queue.tail ∧
      t.w.time.waits = s.w.time.waits ++ [{ op := op, who := r.who, applied := s.w.time.tclk, seen := false }]
    (rowId row = 0x130401 → Completes .timeSet s fun t => waits (.set (ofT96 v)) t ∧ t.w.get Reg.timeValid = 1) ∧
    (rowId row = 0x130402 → 0 ≤ wallAfter s.w.time.waits s.w.wallT + toInt 64 v →
      Completes .timeStep s fun t => waits (.step (toInt 64 v)) t ∧ t.w.get Reg.timeValid = 1) ∧
    (rowId row = 0x130403 → Completes .freqAdjWrite s fun t => waits (.freq (toInt 32 v)) t ∧ t.w.getI Reg.freqAdjPpt = toInt 32 v)) ∧
  (∀ s : State, clocksRun s.mode s.w = true → Completes .timeResync s fun t =>
    t.w.time.waits = (s.w.time.waits.filter fun x => !timeDue s.w x).map (fun x => { x with seen := true }) ∧
    t.w.wallT = wallAfter (s.w.time.waits.filter (timeDue s.w)) s.w.wallT) ∧
  (∀ (r : LReq) (row : ObjRow) (u k : Nat) (s : State), serves s.mode s.w = true → s.w.led.queue.head? = some r → r.op = .read →
    modeAbort s.mode r (headTaken s.w) = none → r.index < 0xF000 → findRow r.index r.sub objTable = some (row, u, k) → canRead r.role row = true →
    row.type ≠ .domain → (bareSvc (headTaken s.w) && absentBare r.index r.sub) = false →
    (rowId row = 0x500404 → Completes .txStampNextRead s fun t => t.w.led.queue = s.w.led.queue.tail ∧
      tgetD t.w.time.captures u [] = (tgetD s.w.time.captures u []).tail) ∧
    (rowId row = 0x152003 → Completes .sampleNextRead s fun t => t.w.led.queue = s.w.led.queue.tail ∧ t.w.obs.samples = s.w.obs.samples.tail))

/-- Commands with a row of their own whose response waits: a store, restore or default command that passes its checks is in progress, STORE_STATE 1,
and its response waits for its end (R84); a swap through the Ledger makes the shadow bank active and waits for the swap's end (R337); any other
accepted write that its object answers later waits as that object says. Beyond the rules' own words it takes the model's reading: log entries 9, 20. -/
def Obligations.DeferredResponses : Prop :=
  (∀ (kind : StoreKind) (c : Instr) (id : Nat) (r : LReq) (row : ObjRow) (u k v : Nat) (data : List Byte) (s : State),
    (kind, c, id) ∈ [(StoreKind.store, Instr.storeRange, 0x101001), (.restore, .restoreRange, 0x101101), (.dflt, .defaultRange, 0x101102)] →
    Ready r row u k v data s → rowId row = id → s.w.led.store = none → granaryShut s.w = false →
    sheavesFor kind (covered r.role (v % 2 ^ 16) (v / 2 ^ 16)) (headTaken s.w) ≤ s.w.get Reg.storeAllowance →
    Completes c s fun t => t.mode = s.mode ∧ t.w.led.queue = s.w.led.queue.tail ∧ (t.w.led.store.map fun x => x.kind) = some kind ∧
      { who := r.who, role := r.role, on := WaitFor.store } ∈ t.w.led.deferred) ∧
  (∀ (b : Brick) (r : LReq) (row : ObjRow) (k : Nat) (data : List Byte) (s : State), Ready r row b.val k 1 data s → rowId row = 0x210002 →
    swapping b.val s.w = false → Completes (.sieveSwap none) s fun t => t.w.led.queue = s.w.led.queue.tail ∧
      activeBank b.val t.w = shadowBank b.val s.w ∧ swapping b.val t.w = true ∧
      t.w.led.deferred = s.w.led.deferred ++ [{ who := r.who, role := r.role, on := .swap b.val }]) ∧
  (∀ (o : Own) (c : Instr) (r : LReq) (row : ObjRow) (u k v : Nat) (data : List Byte) (on : WaitFor) (x : Wall) (s : State),
    (o, c) ∈ [(Own.lookupSearch, Instr.lookupSearch), (.lookupNext, .lookupNext), (.saInstall, .saInstall)] → Ready r row u k v data s →
    ownWrite (rowId row) v = some o → effect 0 r row u k v data (headTaken s.w) = .later on x → Completes c s fun t =>
      t.mode = s.mode ∧ t.w.led.queue = s.w.led.queue.tail ∧ t.w.led.deferred = x.led.deferred ++ [{ who := r.who, role := r.role, on := on }]) ∧
  (∀ (r : LReq) (row : ObjRow) (u k : Nat) (l : List Byte) (m : Bool) (data : List Byte) (s : State), Ready r row u k 1 data s → rowId row = 0x700119 →
    4 ≤ k → getSa u k s.w = none → saCount u (k / 4) s.w < 2 → tget s.w.sec.blobs (saId u k) = some (l, m) → (blobOf l).form = 0 →
    plainOk u k s.w = true → s.w.get (Reg.saDurable u k) = 0 →
    (blobOf l).len = (if s.w.get (Reg.cipher u) = 0 then 16 else 32) →
    Completes .saInstall s fun t => t.w.led.queue = s.w.led.queue.tail ∧ (r.who = .mailbox → mbxDone 0 t.w) ∧
      (getSa u k t.w).map (fun a => (a.key, a.pendingInstall)) = some ((blobOf l).bytes.take (blobOf l).len, false))

/-- MODE_REQUEST (R129, R130): an accepted request is answered before the move; while a store command is in progress the move waits for it; else 1
closes the Ledger queue at EMBER entry, 2 restarts into KINDLE, 3 leaves DOZE and has no effect in SERVICE, 4 enters DOZE. Beyond the rules' own
words it takes the model's reading: log entries 9, 17. -/
def Obligations.ModeRequests : Prop :=
  (∀ (c : Instr) (r : LReq) (row : ObjRow) (u k v : Nat) (data : List Byte) (s : State),
    (v, c) ∈ [(1, Instr.modeRequestEmber), (2, .modeRequestKindle), (3, .modeRequestService), (4, .modeRequestDoze)] →
    Ready r row u k v data s → rowId row = 0x100202 → s.w.led.store.isSome = true → Completes c s fun t =>
      t.mode = s.mode ∧ t.w.led.queue = s.w.led.queue.tail ∧ t.w.led.moveDue = (if s.mode = .service ∧ v = 3 then 0 else v)) ∧
  (∀ (r : LReq) (row : ObjRow) (u k v : Nat) (data : List Byte) (s : State),
    Ready r row u k v data s → rowId row = 0x100202 → s.w.led.store = none → s.w.sec.zeroising = none →
    (v = 1 → Completes .modeRequestEmber s fun t => t.mode = s.mode ∧ t.w.led.closed = true ∧ t.w.led.queue = [] ∧ t.w.led.moveDue = 1) ∧
    (v = 2 → Completes .modeRequestKindle s fun t => t.mode = .kindle ∧ t.w.bnd.fetchDue = true ∧ t.w.get Reg.kindleStep = 1) ∧
    (v = 3 → Completes .modeRequestService s fun t => t.mode = .service) ∧
    (v = 4 → Completes .modeRequestDoze s fun t => t.mode = .doze)) ∧
  (∀ (r : LReq) (row : ObjRow) (u k v : Nat) (data : List Byte) (s : State), Ready r row u k v data s → rowId row = 0x120101 →
    s.w.sec.zeroising = none → Completes .zeroiseNow s fun t => t.mode = s.mode ∧ t.w.sec.zeroising = some 2 ∧ t.w.sec.keks = [] ∧ t.w.sec.sas = []) ∧
  (∀ (r : LReq) (row : ObjRow) (u k f : Nat) (data : List Byte) (s : State), Ready r row u k 1 data s → rowId row = 0x120004 →
    (f % 256 = 0 → Completes (.selftestNow f) s fun t => t.mode = s.mode ∧ t.w.get Reg.selftestResult = 0) ∧
    (f % 256 ≠ 0 → Completes (.selftestNow f) s fun t => t.mode = .sealedMode))

/-! ### Scheduling, shapers, gates and transmission (R279, R289, R352, R375 to R400) -/

/-- A selection (R375): a sub-port that is paused from outside, or that has a frame in transmission, selects nothing; a PAUSE or PFC frame goes
before any other; else a frame that the scheduler chooses, which leaves in clear, starts and leaves its queue. When the last byte of a frame has
left, no frame is in transmission; one that ran out of chunks is counted (R279, R377, R389); an in-band frame goes out padded, with its FCS (R276).
Beyond the rules' own words it takes the model's reading: log entries 7, 25, 26. -/
def Obligations.SelectionAndTransmission : Prop :=
  (∀ (sp : SubPort) (s : State), portsOn s.mode s.w = true → spFlows sp.val s.w = false ∨ (tget s.w.egr.txNow sp.val).isSome = true →
    Completes (.schedulerSelect sp) s fun t => t = s) ∧
  (∀ (sp : SubPort) (x : PauseOut) (rest : List PauseOut) (s : State), portsOn s.mode s.w = true → spFlows sp.val s.w = true →
    tget s.w.egr.txNow sp.val = none → tgetD s.w.prt.pauseOut sp.val [] = x :: rest → Completes (.schedulerSelect sp) s fun t =>
      tgetD t.w.prt.pauseOut sp.val [] = rest ∧ t.w.egr = s.w.egr ∧
      t.w.out = .pauseFrame sp (s.w.get (Reg.fcMode sp.val) == 2) x.prios x.quanta :: s.w.out) ∧
  (∀ (sp : SubPort) (n q : Nat) (f : EFrame) (l : List EFrame) (y : Wall) (s : State), portsOn s.mode s.w = true → spFlows sp.val s.w = true →
    tget s.w.egr.txNow sp.val = none → tgetD s.w.prt.pauseOut sp.val [] = [] →
    choose sp.val (upTo 8 (fun n w => dropAllOversize sp.val n w) s.w) = some (n, q, y) → (y.queue (sp.val / 8) q).frames = f :: l →
    txPlan sp.val f.bytes y = .clear → Completes (.schedulerSelect sp) s fun t => (t.w.queue (sp.val / 8) q).frames = l ∧
      tget t.w.egr.txNow sp.val = some { frame := f, queue := q, tc := n, pn := none, maxFrame := y.get (Reg.maxFrame sp.val) }) ∧
  (∀ (sp : SubPort) (d : Nat) (s : State), portsOn s.mode s.w = true → tget s.w.egr.txNow sp.val = none → Completes (.txFrameDone sp d) s fun t => t = s) ∧
  (∀ (sp : SubPort) (d : Nat) (x : TxNow) (s : State), portsOn s.mode s.w = true → tget s.w.egr.txNow sp.val = some x →
    x.frame.whole = false → Completes (.txFrameDone sp d) s fun t => tget t.w.egr.txNow sp.val = none ∧
      t.w.get (Reg.statistic sp.val 45) = (s.w.get (Reg.statistic sp.val 45) + 1) % 2 ^ 64) ∧
  (∀ (sp : SubPort) (d : Nat) (x : TxNow) (s : State), portsOn s.mode s.w = true → tget s.w.egr.txNow sp.val = some x → x.frame.whole = true →
    Completes (.txFrameDone sp d) s fun t => tget t.w.egr.txNow sp.val = none ∧
      (x.frame.sp = sp.val → x.frame.src = .inband → x.pn = none → s.w.hst.rings = [] → (s.w.quiet (sp.val / 8)).idleDue = false →
        t.w.out = .lineFrame sp (macFrame x.maxFrame x.frame.bytes).1 (macFrame x.maxFrame x.frame.bytes).2 :: s.w.out))

/-- Shapers (R381, R383 to R385, R400): the calendar releases a shaper at no less than zero; a window write that completes a record in range sets its
rate, its burst and its tokens, and one out of range is refused. DROPS cleared reads 0 (R399). Gates (R390 to R393): an entry's end moves to the
entry that wall time gives; a scheduled change takes the pending list, cycle and base into force. Beyond the rules' own words it takes the model's
reading: log entries 7, 26. -/
def Obligations.ShapersAndGates : Prop :=
  (∀ (p : Port) (k : Fin 128) (x : Shaper) (s : State), portsOn s.mode s.w = true → tget s.w.egr.shapers (p.val * 128 + k.val) = some x →
    (x.calendar = true → Completes (.calendarRelease p k) s fun t => tget t.w.egr.shapers (p.val * 128 + k.val) =
      some { accrue x s.w.time.dclk with tokens := max (accrue x s.w.time.dclk).tokens 0, calendar := false }) ∧
    (x.calendar = false → Completes (.calendarRelease p k) s fun t => t = s)) ∧
  (∀ (p : Port) (k : Fin 128) (v : Nat) (s : State), windowOpen s.mode s.w = true →
    let rate := s.w.win32 (shaperWin p.val k.val) 0
    let burst := s.w.win32 (shaperWin p.val k.val + 4) 65536
    let full := bit (s.w.win32 (shaperWin p.val k.val + 8) 0) 0
    (rate ≤ 3200000 → burst ≤ 16777215 → Completes (.shaperApply p k v) s fun t => shaperRate p.val k.val t.w = rate ∧ shaperBurst p.val k.val t.w = burst ∧
      tget t.w.egr.shapers (p.val * 128 + k.val) = if rate = 0 then none else
        some { rate := rate, burst := burst, tokens := if full then (burst * shaperUnit : Nat) else 0, last := s.w.time.dclk, calendar := false }) ∧
    (3200000 < rate ∨ 16777215 < burst → Completes (.shaperApply p k v) s fun t => t.w.egr = s.w.egr ∧
      t.w.get Reg.unmappedAccess = (s.w.get Reg.unmappedAccess + 1) % 2 ^ 32)) ∧
  (∀ (p : Port) (q : Fin 64) (s : State), windowOpen s.mode s.w = true → Completes (.queueDropsClear p q) s fun t =>
    t.w.queue p.val q.val = { s.w.queue p.val q.val with drops := 0 } ∧ (∀ j, j ≠ q.val → j < 64 → t.w.queue p.val j = s.w.queue p.val j) ∧ t.w.regs = s.w.regs) ∧
  (∀ (sp : SubPort) (g : Gate) (s : State), portsOn s.mode s.w = true → gateOf sp.val s.w = some g → g.oper ≠ [] → Completes (.gateEntryChange sp) s fun t =>
    gateOf sp.val t.w = some { g with index := gateIndex g s.w.wallT } ∧ t.w.regs = s.w.regs) ∧
  (∀ (sp : SubPort) (g : Gate) (s : State), portsOn s.mode s.w = true → gateOf sp.val s.w = some g → g.changeAt.isSome = true →
    Completes (.gateConfigChange sp) s fun t => t.w.get (Reg.gateState sp.val) = 1 ∧
      t.w.get (Reg.operCycleNs sp.val) = s.w.get (Reg.pendingCycleNs sp.val) % 2 ^ 32 ∧
      (gateOf sp.val t.w).map (fun g => (g.oper, g.cycle, g.base, g.changeAt, g.extendTo)) =
        some (pendingList sp.val s.w, s.w.get (Reg.pendingCycleNs sp.val), ofT96 (s.w.get (Reg.pendingBase sp.val)), none, none))

/-! ### Reservations, tests and zeroisation (R448, R449, R462, R468 to R471, R151, R502) -/

/-- Transmit reservations (R448, R449): a committed reservation raises RESERVED_END and ends the stall and the installation's wait; what asks again
is an SA with less than half a block left. A request that was refused is made again while it may be. Beyond the rules' own words it takes the model's
reading: log entry 7. -/
def Obligations.ReservationsCommitAndRetry : Prop :=
  (∀ (sp : SubPort) (an : Fin 4) (e : Nat) (a : Sa) (s : State), reeveOn s.mode s.w = true →
    s.w.gra.done.find? (fun d => match d with | .reservation i _ => i == saId sp.val an.val | _ => false) = some (.reservation (saId sp.val an.val) e) →
    getSa sp.val an.val s.w = some a → ((blockB s.w / 2 : Nat) : Int) ≤ (max a.reservedEnd e : Nat) - (a.nextPn : Int) →
    Completes (.pnReservationCommit sp an) s fun t => t.w.gra.done = s.w.gra.done.erase (.reservation (saId sp.val an.val) e) ∧
      getSa sp.val an.val t.w = some { a with reservedEnd := max a.reservedEnd e, want := none, stalled := false, pendingInstall := false }) ∧
  (∀ (sp : SubPort) (an : Fin 4) (s : State), reeveOn s.mode s.w = true →
    s.w.gra.done.find? (fun d => match d with | .reservation i _ => i == saId sp.val an.val | _ => false) = none →
    Completes (.pnReservationCommit sp an) s fun t => t = s) ∧
  (∀ (sp : SubPort) (an : Fin 4) (s : State), reeveOn s.mode s.w = true → (getSa sp.val an.val s.w).all (fun a => !a.retry) = true →
    Completes (.pnReservationRetry sp an) s fun t => t = s) ∧
  (∀ (sp : SubPort) (an : Fin 4) (a : Sa) (s : State), reeveOn s.mode s.w = true → getSa sp.val an.val s.w = some a → a.retry = true → a.want = none →
    (a.reservedEnd : Int) - a.nextPn < (blockB s.w / 2 : Nat) → granaryShut s.w = false → s.w.bnd.queueShut = false → s.w.gra.queue.length < 12 →
    s.w.sec.zeroising = none → Completes (.pnReservationRetry sp an) s fun t =>
      getSa sp.val an.val t.w = some { a with retry := false, want := some (min (a.reservedEnd + blockB s.w) (2 ^ 64 - 2)) } ∧
      t.w.gra.queue.length = s.w.gra.queue.length + 1 ∧ t.w.gra.genNext = s.w.gra.genNext + 1)

/-- Failed tests and tamper events enter SEALED, with their cause, and zeroisation starts: no key is held (R468 to R471, R151); when the key
partition reads as zero, SEALED is entered or kept, and zeroisation is over (R471, R502). A passed test, and the end of an officer's host session,
change nothing else (R462). Beyond the rules' own words it takes the model's reading: log entries 7, 17. -/
def Obligations.SealingAndZeroisation : Prop :=
  (∀ (p : Port) (s : State), Completes (.macsecKatDaily p true) s fun t => t = s) ∧
  (∀ (p : Port) (s : State), reeveOn s.mode s.w = true → s.mode ≠ .sealedMode →
    let seals (cause : Nat) (t : State) : Prop := t.mode = .sealedMode ∧ t.w.sec.zeroising = some cause ∧ t.w.sec.sas = [] ∧ t.w.sec.keks = [] ∧
      t.w.sec.blobs = [] ∧ t.w.sec.deviceKey = none ∧ t.w.get Reg.sealedCause = cause
    Completes (.macsecKatDaily p false) s (seals 4) ∧ Completes .continuousTestFail s (seals 4) ∧ Completes .tamperEvent s (seals 5)) ∧
  (∀ (c : Nat) (s : State), clocksRun s.mode s.w = true → halted s.w = false → s.w.bnd.inhibit = false → s.w.sec.zeroising = some c →
    Completes .zeroisationComplete s fun t => t.mode = .sealedMode ∧ t.w.sec.zeroising = none ∧ t.w.sec.kis = [] ∧ t.w.bnd.zeroLatch = false) ∧
  (∀ s : State, reeveOn s.mode s.w = true → Completes .hostOfficerExpiry s fun t => t.w = s.w.set Reg.hostOfficerS 0)

/-! ### The Granary (R84, R483 to R501, R507, R626) -/

/-- A commit (R490, R491, R494, R507): the next sheaf by rank leaves the queue; a repair goes over the copy it repairs, a digest entry to the ring,
and any other sheaf to the next slot of its class's open row, in every bank that works; a copy whose read-back fails is bad (R488). Beyond the rules'
own words it takes the model's reading: log entries 7, 31. -/
def Obligations.CommitsWriteSheaves : Prop :=
  ∀ (bad : Option (Fin 2)) (c : CommitItem) (s : State), storesOpen s.mode s.w = true → commitRuns s.mode s.w = true → nextCommit s.w.gra.queue = some c →
    c.after = .none →
    (∀ bank slot, c.repair = some (bank, slot) → Completes (.sheafCommit bad) s fun t => tget (bankOf bank t.w) slot = some (.sheaf c.sheaf)) ∧
    (c.repair = none → c.sheaf.type = 0x06 → Completes (.sheafCommit bad) s fun t =>
      t.w.gra.digest = (s.w.gra.digest ++ [c.sheaf.body]).drop ((s.w.gra.digest ++ [c.sheaf.body]).length - 512)) ∧
    (∀ r, c.repair = none → c.sheaf.type ≠ 0x06 → openRow (isKeyType c.sheaf.type) s.w = some r → (rowAt r s.w).used + 1 < 64 →
      bad.all (fun b => !bankWorks b.val s.w) = true → Completes (.sheafCommit bad) s fun t =>
        rowAt r t.w = { rowAt r s.w with used := (rowAt r s.w).used + 1 } ∧
        ∀ k, k < 2 → bankWorks k s.w = true → tget (bankOf k t.w) (r * 64 + (rowAt r s.w).used) = some (.sheaf c.sheaf)) ∧
    (∀ (r : Nat) (b : Fin 2), c.repair = none → c.sheaf.type ≠ 0x06 → openRow (isKeyType c.sheaf.type) s.w = some r →
      (rowAt r s.w).used + 1 < 64 → bankWorks b.val s.w = true → bad = some b → Completes (.sheafCommit bad) s fun t => tget (bankOf b.val t.w) (r * 64 + (rowAt r s.w).used) = some .invalid)

/-- Scrub, wear and power of the Granary (R492, R494, R498 to R501, R507, R626): what the two copies of a slot say decides what the scrub does; a
projection keeps the days' sums; a loss of VGRAN closes the queue with the inhibit set and its return opens it; without it for 1 s both banks have
failed. Beyond the rules' own words it takes the model's reading: log entries 7, 31. -/
def Obligations.ScrubWearAndSupply : Prop :=
  (∀ (slot : Nat) (d : List Damage) (s : State), scrubOn s.mode s.w = true → commitRuns s.mode s.w = true → slot < 122880 →
    let x := applyDamage (d.filter fun e => e.slot == slot) s.w
    Completes (.granaryScrubRead slot d) s fun t => match judge slot x with
      | .benign _ => t.w.get Reg.benignDivergence = (s.w.get Reg.benignDivergence + 1) % 2 ^ 32
      | .suspect _ _ => t.w.get Reg.suspectRecords = (s.w.get Reg.suspectRecords + 1) % 2 ^ 32
      | .use a (some b) => bankWorks b x = true → { sheaf := a, rank := 5, after := .none, repair := some (b, slot) } ∈ t.w.gra.queue ++ t.w.gra.waiting
      | _ => t.w = x) ∧
  (∀ s : State, scrubOn s.mode s.w = true → Completes .wearProjection s fun t =>
    t.w.gra.wearDays = (s.w.gra.wearDays ++ [(s.w.get Reg.serviceS, s.w.gra.rows.foldl (fun (a : Nat) (e : Nat × Row) => a + e.2.cycles) 0)]).filter
      fun e => decide (s.w.get Reg.serviceS ≤ e.1 + 30 * 86400)) ∧
  (∀ s : State, s.mode ∈ [Mode.kindle, .service, .doze] → s.w.bnd.vgranOk = true → Completes .vgranLoss s fun t =>
    t.w.bnd = { s.w.bnd with vgranOk := false, queueShut := true, inhibit := true }) ∧
  (∀ s : State, s.mode ∉ [Mode.off, .ember] → s.w.bnd.vgranOk = false → Completes .vgranRestored s fun t =>
    t.w.bnd = if s.w.bnd.pfail then { s.w.bnd with vgranOk := true } else { s.w.bnd with vgranOk := true, queueShut := false, inhibit := false }) ∧
  (∀ s : State, s.mode ∉ [Mode.off, .ember] → s.w.bnd.vgranOk = false → Completes .vgranFailTimeout s fun t =>
    granaryFailed t.w = true ∧ t.w.gra.queue = [] ∧ t.w.gra.waiting = []) ∧
  (∀ s : State, reeveOn s.mode s.w = true →
    Completes .allowanceRefill s (fun t => t.w = s.w.set Reg.storeAllowance (min 262144 (s.w.get Reg.storeAllowance + 4))) ∧
    Completes .digestBucketRefill s (fun t => t.w.gra = { s.w.gra with bucket := min 16 (s.w.gra.bucket + 1) } ∧ t.w.regs = s.w.regs)) ∧
  (∀ (index sub u k : Nat) (row : ObjRow) (s : State), reeveOn s.mode s.w = true → findRow index sub objTable = some (row, u, k) → onChange row u s.w = true →
    granaryShut s.w = false → s.w.bnd.queueShut = false →
    let now := objBytes row index sub u k s.w
    let held := (storedBytes true index sub s.w).getD (defaultBytes row u k)
    Completes (.changeCommitTimer index sub) s fun t => if held = now then t = s else t.w.gra.genNext = s.w.gra.genNext + 1)

/-! ### Dvor (R92 to R122, R149, R152, R463 to R465) -/

/-- A request of a session (R104, R105): judged by its SEQ. One that may be taken enters the Ledger queue with its role and is accepted; a copy does
nothing; one below the window or above it is counted; a copy of one that was answered gets the same response again; a SEQ at the end of its range is
answered with the abort to renew (R108). EVENT_ACK and KEEPALIVE are judged alike (R101, R115). Beyond the rules' own words it takes the model's
reading: log entries 9, 39. -/
def Obligations.DvorRequestsAreJudged : Prop :=
  ∀ (r : DvorReq) (a : Session) (s : State), dvorOn s.mode s.w = true → s.mode ≠ .sealedMode → pathOpen r.peer.path s.w = true →
    tget s.w.led.sessions r.slot = some a →
    let h := heard r.peer s.w a
    let ask (op : LOp) : LReq := { who := .session r.slot a.id r.seq r.peer, role := a.role, index := r.index % 2 ^ 16, sub := r.sub % 256, op := op }
    (∀ (c : Instr) (op : LOp), dvorAsk c = some (r, op) → judgeSeq h r.seq = .take → s.w.led.queue.length < 16 → s.w.led.closed = false →
      Completes c s fun t => t.w.led.queue = s.w.led.queue ++ [ask op] ∧
        tget t.w.led.sessions r.slot = some { acceptSeq r.seq h with waiting := a.waiting ++ [r.seq] }) ∧
    (∀ (evs : List Nat), judgeSeq h r.seq = .take →
      Completes (.dvorEventAck r evs) s (fun t => t.w.led.queue = s.w.led.queue ∧
        tget t.w.led.sessions r.slot = some { acceptSeq r.seq h with unacked := a.unacked.filter fun u => !evs.contains u.no }) ∧
      Completes (.dvorKeepalive r) s (fun t => t.w.led.queue = s.w.led.queue ∧ tget t.w.led.sessions r.slot = some (acceptSeq r.seq h))) ∧
    (∀ c, dvorReqOf c = some r → let same (t : State) : Prop := t.w.led.queue = s.w.led.queue ∧ tget t.w.led.sessions r.slot = some h
      (judgeSeq h r.seq = .copy → Completes c s fun t => same t ∧ t.w.out = s.w.out) ∧
      (judgeSeq h r.seq = .old → Completes c s fun t => same t ∧ t.w.get Reg.seqOld = (s.w.get Reg.seqOld + 1) % 2 ^ 32) ∧
      (judgeSeq h r.seq = .ahead → Completes c s fun t => same t ∧ t.w.get Reg.seqAhead = (s.w.get Reg.seqAhead + 1) % 2 ^ 32) ∧
      (judgeSeq h r.seq = .renew → Completes c s fun t => t.w.led.queue = s.w.led.queue) ∧
      (∀ x, judgeSeq h r.seq = .resend → a.cache.find? (fun x => x.seq == r.seq) = some x → Completes c s fun t => same t ∧
        t.w.out = .response (.session r.slot a.id r.seq r.peer) x.wallSeq x.renew x.status x.gen x.data :: s.w.out))

/-- Handshakes (R99, R100, R152, R463 to R465): an OPEN that is admitted starts one more, with a reply; one that fails its check is counted, and one
that an enrolled officer makes impossible, or that finds SEALED, is answered with an abort; a confirmed handshake becomes a session, a false one is
dropped and counted, and so is one that is not confirmed in time. Beyond the rules' own words it takes the model's reading: log entries 3, 39, 49. -/
def Obligations.DvorHandshakes : Prop :=
  (∀ (o : DvorOpen) (s : State), dvorOn s.mode s.w = true → pathOpen o.peer.path s.w = true →
    (s.mode = .sealedMode → s.w.led.icmpSecond ≠ s.w.second ∨ s.w.led.icmpCount < 100 → Completes (.dvorOpen o) s fun t =>
      t.w.out = .openAbort o.peer aSealed :: s.w.out ∧ t.w.led.handshakes = s.w.led.handshakes) ∧
    (s.mode ≠ .sealedMode → s.w.led.handshakes.find? (fun h => h.nonce == o.nonce) = none →
      (judgeOpen o s.w = .discard → Completes (.dvorOpen o) s fun t => t.w.get Reg.authFail = (s.w.get Reg.authFail + 1) % 2 ^ 32 ∧ t.w.led = s.w.led) ∧
      (∀ c, judgeOpen o s.w = .abort c → Completes (.dvorOpen o) s fun t => t.w.out = .openAbort o.peer c :: s.w.out ∧ t.w.led = s.w.led) ∧
      (judgeOpen o s.w = .go → s.w.led.sessions.length < 8 → s.w.led.handshakes.length < 4 → Completes (.dvorOpen o) s fun t =>
        ∃ h, t.w.led.handshakes = s.w.led.handshakes ++ [h] ∧ h.peer = o.peer ∧ h.id ≠ 0 ∧ h.nonce = o.nonce))) ∧
  (∀ (peer : Peer) (id sig : Nat) (s : State), dvorOn s.mode s.w = true → s.mode ≠ .sealedMode → pathOpen peer.path s.w = true →
    (∀ h, s.w.led.handshakes.find? (fun h => h.id == id) = some h → h.cred < 256 →
      let key := if h.cred = 0xFF then h.staticPoint else s.w.get (Reg.credPubkey h.cred)
      let bad := !Config.ecdsaVerify key (h.transcript ++ [0x63, 0x6F, 0x6E, 0x66, 0x69, 0x72, 0x6D]) sig || (h.cred == 0xFF && officerEnrolled s.w)
      (bad = true → Completes (.dvorOpenConfirm peer id sig) s fun t => t.w.led.handshakes = s.w.led.handshakes.filter (fun x => x.id != h.id) ∧
        t.w.led.sessions = s.w.led.sessions ∧ t.w.get Reg.authFail = (s.w.get Reg.authFail + 1) % 2 ^ 32) ∧
      (∀ k, bad = false → h.slot = some k → h.cred ≠ 0xFF → Completes (.dvorOpenConfirm peer id sig) s fun t =>
        t.w.led.handshakes = s.w.led.handshakes.filter (fun x => x.id != h.id) ∧
        (tget t.w.led.sessions k).map (fun x => (x.id, x.role, x.peer, x.accepted)) = some (h.id, h.role, peer, [1]))) ∧
    (s.w.led.handshakes.find? (fun h => h.id == id) = none → s.w.led.sessions.find? (fun e => e.2.id == id) = none →
      Completes (.dvorOpenConfirm peer id sig) s fun t => t.w.get Reg.authFail = (s.w.get Reg.authFail + 1) % 2 ^ 32 ∧ t.w.led = s.w.led)) ∧
  (∀ (place : Fin 4) (s : State), reeveOn s.mode s.w = true → Completes (.handshakeTimeout place) s fun t =>
    t.w.led.handshakes = match s.w.led.handshakes[place.val]? with
      | some h => s.w.led.handshakes.filter fun x => x.id != h.id
      | none => s.w.led.handshakes)

/-- The rest of the field port and of a session's life (R94, R95, R97, R101, R112, R114, R149): a datagram that fails its checks is counted, one that
is too large counts as a frame nothing takes; ICMPv6 is answered up to 100 times a second; a closed or silent session is gone; an event is sent again
with its interval doubled up to 1.28 s; a frame that matches a pattern wakes the wall from DOZE. Beyond the rules' own words it takes the model's
reading: log entries 39, 49. -/
def Obligations.FieldPortAndSessions : Prop :=
  (∀ (p : Path) (why : BadDatagram) (s : State), dvorOn s.mode s.w = true → s.mode ≠ .sealedMode → Completes (.dvorDatagramBad p why) s fun t =>
    (why ≠ .oversize → t.w.get Reg.authFail = (s.w.get Reg.authFail + 1) % 2 ^ 32) ∧
    (why = .oversize → p ≠ .inband → t.w.get Reg.fieldOther = (s.w.get Reg.fieldOther + 1) % 2 ^ 32)) ∧
  (∀ (p : Path) (s : State), dvorOn s.mode s.w = true → p ≠ .inband →
    (∀ e, s.w.led.icmpSecond ≠ s.w.second ∨ s.w.led.icmpCount < 100 → Completes (.icmpv6Request p e) s fun t => t.w.out = .icmp p e :: s.w.out) ∧
    (∀ e, s.w.led.icmpSecond = s.w.second → 100 ≤ s.w.led.icmpCount → Completes (.icmpv6Request p e) s fun t => t.w.out = s.w.out ∧
      t.w.get Reg.fieldOther = (s.w.get Reg.fieldOther + 1) % 2 ^ 32) ∧
    Completes (.fieldFrameOther p) s (fun t => t.w.get Reg.fieldOther = (s.w.get Reg.fieldOther + 1) % 2 ^ 32 ∧ t.w.out = s.w.out)) ∧
  (∀ (slot : Fin 8) (a : Session) (s : State), tget s.w.led.sessions slot = some a →
    (dvorOn s.mode s.w = true → Completes (.dvorClose slot) s fun t => tget t.w.led.sessions slot = none ∧
      t.w.out = .closeMsg a.id 0 (a.wallSeq + 1) a.peer :: s.w.out) ∧
    (reeveOn s.mode s.w = true → Completes (.sessionIdleTimeout slot) s fun t => tget t.w.led.sessions slot = none ∧
      t.w.out = .closeMsg a.id 2 (a.wallSeq + 1) a.peer :: s.w.out) ∧
    (∀ e u, reeveOn s.mode s.w = true → a.unacked.find? (fun u => u.no == e) = some u → Completes (.eventRetransmit slot e) s fun t =>
      t.w.out = .event slot u.no u.wallSeq u.src u.code u.srcSeq u.detail u.stamp u.lost u.cls u.renew a.peer :: s.w.out ∧
      tget t.w.led.sessions slot = some { a with unacked := a.unacked.map fun x => if x.no = e then { x with interval := min (x.interval * 2) 1280 } else x })) ∧
  (∀ (i sub : Nat) (s : State), reeveOn s.mode s.w = true → Completes (.segTransferTimeout i sub) s fun t =>
    tget t.w.led.transfers (i * 256 + sub) = none ∧ t.w.regs = s.w.regs) ∧
  (∀ (p : Path) (f : List Byte) (s : State),
    (∀ k, s.mode = .doze → p ≠ .inband → wakeMatch f s.w = some k → Completes (.dozeWakeFrame p f) s fun t => t.mode = .service) ∧
    (s.mode = .doze → p ≠ .inband → wakeMatch f s.w = none → Completes (.dozeWakeFrame p f) s fun t => t.mode = .doze ∧
      t.w.get Reg.fieldOther = (s.w.get Reg.fieldOther + 1) % 2 ^ 32) ∧
    (s.mode ≠ .doze ∨ p = .inband → Completes (.dozeWakeFrame p f) s fun t => t = s))

/-- The ends of a store command, of EMBER entry and of a stopped Reeve (R84, R130, R143, R576, R579): a store command ends with state 2 when every
sheaf is committed and 3 when the Granary has failed; EMBER is entered once the queue has drained; a Reeve that stops takes the wall to KINDLE.
Beyond the rules' own words it takes the model's reading: log entries 7, 17, 31. -/
def Obligations.StoresEndAndModesFollow : Prop :=
  (∀ (c : StoreCmd) (s : State), reeveOn s.mode s.w = true → s.w.led.store = some c → s.w.led.moveDue = 0 →
    let done := c.gens.all fun g => s.w.gra.done.any fun a => match a with | .store x => x == g | _ => false
    (done = true → Completes .storeComplete s fun t => t.mode = s.mode ∧ t.w.led.store = none ∧ t.w.get Reg.storeState = 2 ∧ t.w.get Reg.storeResult = 0) ∧
    (done = false → granaryFailed s.w = true → Completes .storeComplete s fun t => t.mode = s.mode ∧ t.w.led.store = none ∧
      t.w.get Reg.storeState = 3 ∧ t.w.get Reg.storeResult = aState)) ∧
  (∀ s : State, reeveOn s.mode s.w = true → s.w.led.store = none → s.w.led.moveDue = 0 → Completes .storeComplete s fun t => t = s) ∧
  (∀ s : State, s.w.led.closed = true → s.w.led.moveDue = 1 → inService s.mode = true → s.w.bnd.pfail = false → s.w.bnd.vgranOk = true →
    s.w.sec.zeroising = none → Completes .emberDrained s fun t => t.mode = .ember ∧ t.w.bnd.emberEntry = s.w.bnd.emberTick ∧ t.w.bnd.wakeReq = false ∧
      t.w.led.queue = []) ∧
  (∀ s : State, awake s.mode s.w = true → inService s.mode = true → Completes .reeveWatchdog s fun t => t.mode = .kindle ∧ t.w.bnd.fetchDue = true ∧
    t.w.get Reg.kindleStep = 1) ∧
  (∀ s : State, inService s.mode = false → Completes .reeveWatchdog s fun t => t = s)

/-! ### Rings, vectors, the host side of the Bellhouse and the Mill (R512 to R553, R588) -/

/-- A ring's block (R514 to R517): a RING_TAIL write that a running ring may take is stored, or kept for later in DOZE; one that it may not is
counted in TAIL_ERRORS; setting ENABLE starts the ring empty, or refuses with ERR_CAUSE 3 and its host source; clearing it stops the fetch, and
STOPPED follows once nothing of the ring is outstanding. Beyond the rules' own words it takes the model's reading: log entries 29, 38. -/
def Obligations.RingsAreSwitched : Prop :=
  ∀ (d : RingDir) (i : RingNo) (s : State), let k := ringKey d i.val
    (windowOpen s.mode s.w = true →
      (∀ v, ringOn k s.w = false ∨ ringSize k s.w ≤ v % 2 ^ 16 → Completes (.ringDoorbell d i v) s fun t => ringTail k t.w = ringTail k s.w ∧
        t.w.win32 (ringBlk k + 0x48) 0 = (s.w.win32 (ringBlk k + 0x48) 0 + 1) % 2 ^ 32 ∧ t.w.regs = s.w.regs) ∧
      (∀ v, ringOn k s.w = true → v < ringSize k s.w → v < 2 ^ 16 →
        (s.w.bnd.dozing = false → Completes (.ringDoorbell d i v) s fun t => ringTail k t.w = v) ∧
        (s.w.bnd.dozing = true → Completes (.ringDoorbell d i v) s fun t => ringTail k t.w = ringTail k s.w ∧ (t.w.ring k).dozeTail = some v)) ∧
      (∀ v, ringOn k s.w = false → bit v 0 = true →
        let bad := ringBase k s.w % 4096 ≠ 0 ∨ (bit v 2 = true ∧ s.w.win64 (ringBlk k + 0x10) % 8 ≠ 0)
        (¬ bad → Completes (.ringEnable d i v) s fun t => ringStatus k t.w = 1 ∧ ringHead k t.w = 0 ∧ ringTail k t.w = 0 ∧
          (t.w.ring k).held = [] ∧ t.w.regs = s.w.regs) ∧
        (bad → Completes (.ringEnable d i v) s fun t => ringStatus k t.w = 4 + 3 * 16 ∧ ringHead k t.w = 0 ∧ ringTail k t.w = 0 ∧
          bit (t.w.get (Reg.bhPending 17)) (if k < 256 then 24 else 25) = true)) ∧
      (∀ v, ringOn k s.w = true → bit v 0 = false → Completes (.ringDisable d i v) s fun t => ringOn k t.w = false ∧ ringRuns k t.w = false ∧
        (t.w.ring k).held = [] ∧ (t.w.ring k).dataFor = (s.w.ring k).dataFor ∧ t.w.out = s.w.out ∧ t.w.regs = s.w.regs)) ∧
    (awake s.mode s.w = true →
      (ringOn k s.w = false → ringReads k s.w = false → ringBusy k s.w = false → Completes (.ringStopped d i) s fun t => bit (ringStatus k t.w) 1 = true ∧
        t.w.regs = s.w.regs) ∧
      (ringOn k s.w = true ∨ ringReads k s.w = true ∨ ringBusy k s.w = true → Completes (.ringStopped d i) s fun t => t = s))

/-- What a ring moves (R520, R523, R530 to R534, R547): the descriptors that a read brings are held, its tags free, and the rings go on; the data of
a transmit frame goes to a queue or, on a Mill ring, to the check-value unit; a frame due for a receive ring is delivered when the held descriptors
take it, and is counted in DROPS when the ring is off or a Mill's. Beyond the rules' own words it takes the model's reading: log entry 29. -/
def Obligations.RingsMoveFrames : Prop :=
  (∀ (d : RingDir) (i : RingNo) (descs : List Nat) (s : State), portsOn s.mode s.w = true →
    let k := ringKey d i.val
    let r := s.w.ring k
    (r.reading = false → Completes (.descriptorFetchDone d i descs) s fun t => t = s) ∧
    (r.reading = true → ringRuns k s.w = true →
      descs.length ≤ unfetched k s.w → descs.length ≤ 16 - r.fetchAt % 16 → r.fetchAt + descs.length ≤ ringSize k s.w →
      Completes (.descriptorFetchDone d i descs) s fun t => ∃ x, t.w = pumpRings x ∧ (x.ring k).reading = false ∧
        (x.ring k).held = r.held ++ ((List.range descs.length).map fun j => r.fetchAt + j).zip descs ∧
        (x.ring k).fetchAt = (r.fetchAt + descs.length) % ringSize k s.w ∧
        (∀ e ∈ x.bnd.tags, e.2 ≠ TagState.out (.desc d i)) ∧ x.win = s.w.win)) ∧
  (∀ (i : RingNo) (data : List Byte) (s : State), portsOn s.mode s.w = true →
    let r := s.w.ring i
    let q (e : Nat × Nat) : Nat := if bit e.2 85 then bits e.2 91 86 else s.w.get (Reg.txQueue r.feeds)
    (r.dataFor = [] → Completes (.txDataReadDone i data) s fun t => t = s) ∧
    (∀ e l, r.dataFor = e :: l →
      (ringRuns i s.w = false → Completes (.txDataReadDone i data) s fun t => ∃ x, t.w = pumpRings x ∧
        hostOcc (r.feeds / 8) x = hostOcc (r.feeds / 8) s.w - chunksOf (frameLen (e :: l)) ∧ (x.ring i).dataFor = [] ∧ x.egr.queues = s.w.egr.queues) ∧
      (∀ sp, ringRuns i s.w = true → millTxOf i s.w = some sp → Completes (.txDataReadDone i data) s fun t =>
        (t.w.mill (brickOfSp sp)).taken = (s.w.mill (brickOfSp sp)).taken + 1 ∧
        (t.w.mill (brickOfSp sp)).waiting = (s.w.mill (brickOfSp sp)).waiting ++ 
          [MillFrame.mk (fit (frameLen (e :: l)) data) e.1 (l.length + 1) e.2 0 false]) ∧
      (ringRuns i s.w = true → millTxOf i s.w = none → Completes (.txDataReadDone i data) s fun t => ∃ x y,
        t.w = pumpRings (linkOwned y (EFrame.mk (.host i e.1 (l.length + 1)) r.feeds (fit (frameLen (e :: l)) data) true (chunksOf (frameLen (e :: l))) 0 e.2) x) ∧ y = q e ∧ (x.ring i).dataFor = [] ∧ x.egr = s.w.egr))) ∧
  (∀ (i : RingNo) (s : State), portsOn s.mode s.w = true → let k := 256 + i.val
    ((s.w.ring k).due = [] → millRxOf i s.w = none → Completes (.rxRingDeliver i) s fun t => t = s) ∧
    (∀ n rest f, (s.w.ring k).due = n :: rest → frameOf n s.w = some f →
      (ringRuns k s.w = false ∨ (millRxOf i s.w).isSome = true → Completes (.rxRingDeliver i) s fun t =>
        t.w.win64 (ringBlk k + 0x60) = (s.w.win64 (ringBlk k + 0x60) + 1) % 2 ^ 64 ∧ (t.w.ring k).due = rest ∧ t.w.out = s.w.out) ∧
      (ringRuns k s.w = true → millRxOf i s.w = none → f.bytes.length ≤ rxRoom (s.w.ring k).held → Completes (.rxRingDeliver i) s fun t =>
        t.w.win64 (ringBlk k + 0x50) = (s.w.win64 (ringBlk k + 0x50) + 1) % 2 ^ 64 ∧
        t.w.win64 (ringBlk k + 0x58) = (s.w.win64 (ringBlk k + 0x58) + f.bytes.length) % 2 ^ 64 ∧
        t.w.win64 (ringBlk k + 0x60) = s.w.win64 (ringBlk k + 0x60))))

/-- The Mill (R543, R546 to R552): a frame passes the unit of its brick as CV_OP asks and is counted; a frame that no descriptors can take stops the
Mill with MILL_STATE 4; a Mill that has drained is left, and its sub-port goes to DETECT if it may. A vector whose condition is met is written, its
count cleared (R540). The host's ENABLE and CLEAR words change the bits they name (R588). Beyond the rules' own words it takes the model's reading:
log entries 7, 29. -/
def Obligations.MillsVectorsAndHostLatches : Prop :=
  (∀ (b : Brick) (sp : Nat) (f : MillFrame) (l : List MillFrame) (s : State), portsOn s.mode s.w = true → millSp b s.w = some sp → (s.w.mill b).waiting = f :: l →
    s.w.get (Reg.millState sp) ≠ 4 → ((s.w.mill b).loop.map fun f => f.bytes.length).sum + f.bytes.length + 8 ≤ 65536 →
    Completes (.millFrame b) s fun t => let p := s.w.get (Reg.cvPoly b) % 4
      let n := cvWidth p
      let op := bits f.desc 114 113
      let start := if bit f.desc 112 then bits f.desc 191 128 % 256 ^ n else if s.w.flag (Reg.cvChain b) then s.w.get (Reg.cvRunning b) % 256 ^ n else cvInit p
      let body := if op = 2 ∧ n < f.bytes.length then f.bytes.take (f.bytes.length - n) else f.bytes
      (t.w.mill b).waiting = l ∧ (∃ g, (t.w.mill b).loop = (s.w.mill b).loop ++ [g] ∧
        g.value = cvFinal p (crcReg (cvPolyRef p) start ((foldBytes b f.desc s.w).1 ++ body)) ∧
        g.bytes = (if op = 1 then body ++ toLe n g.value else body) ∧
        (g.bad = true ↔ op = 2 ∧ (f.bytes.length ≤ n ∨ ofLe (f.bytes.drop (f.bytes.length - n)) ≠ g.value))) ∧
      t.w.get (Reg.cvFrames b) = (s.w.get (Reg.cvFrames b) + 1) % 2 ^ 64 ∧
      t.w.get (Reg.millBytes b) = (s.w.get (Reg.millBytes b) + f.bytes.length) % 2 ^ 64) ∧
  (∀ (b : Brick) (s : State), portsOn s.mode s.w = true → millSp b s.w = none → Completes (.millFrame b) s (fun t => t = s) ∧ Completes (.millOversize b) s fun t => t = s) ∧
  (∀ (b : Brick) (sp : Nat) (f : MillFrame) (l : List MillFrame) (s : State), portsOn s.mode s.w = true → millSp b s.w = some sp → (s.w.mill b).loop = f :: l →
    let k := 256 + s.w.get (Reg.millRxRing sp)
    (ringRuns k s.w = true → (s.w.ring k).held.length = ringSize k s.w - 1 → rxRoom (s.w.ring k).held < f.bytes.length → Completes (.millOversize b) s fun t =>
      t.w.get (Reg.millState sp) = 4 ∧ (t.w.mill b).loop = l ∧ (t.w.mill b).lost = (s.w.mill b).lost + 1 ∧ ringRuns k t.w = false) ∧
    (ringRuns k s.w = false ∨ (s.w.ring k).held.length ≠ ringSize k s.w - 1 ∨ f.bytes.length ≤ rxRoom (s.w.ring k).held →
      Completes (.millOversize b) s fun t => t = s)) ∧
  (∀ (sp : SubPort) (s : State), portsOn s.mode s.w = true →
    let drained := s.w.get (Reg.millState sp) = 2 ∧ (s.w.mill (brickOfSp sp)).waiting = [] ∧ (s.w.mill (brickOfSp sp)).loop = [] ∧
      (s.w.ring (s.w.get (Reg.millTxRing sp))).dataFor = []
    (drained → Completes (.millDrained sp) s fun t => ∃ x, t.w = enterDetect sp 0 x ∧ x.get (Reg.millState sp) = 0 ∧ spSt sp x = 0 ∧ x.led = s.w.led) ∧ (¬ drained → Completes (.millDrained sp) s fun t => t = s)) ∧
  (∀ (v : Fin 256) (s : State), reeveOn s.mode s.w = true → let r := tgetD s.w.hst.vecs v { pending := 0, first := 0, last := 0 }
    let x := s.w.get (Reg.vector (v / 128) (v % 128))
    (r.pending = 0 → Completes (.vectorDelivery v) s fun t => t = s) ∧
    (r.pending ≠ 0 → Completes (.vectorDelivery v) s fun t => tget t.w.hst.vecs v = some { r with pending := 0, last := s.w.time.tclk } ∧
      t.w.out = .mortarWrite (bits x 63 0) (toLe 4 (bits x 95 64)) :: s.w.out ∧ t.w.get Reg.vectorsSent = (s.w.get Reg.vectorsSent + 1) % 2 ^ 64)) ∧
  (∀ (v : Nat) (s : State), windowOpen s.mode s.w = true →
    Completes (.hostBhEnableWrite false v) s (fun t => t.w.get (Reg.bhPending 17) = s.w.get (Reg.bhPending 17) ∧
      ∀ n, n < 29 → bit (t.w.get (Reg.bhEnable 17)) n = bit v n) ∧
    Completes (.hostBhClear false v) s (fun t => t.w.get (Reg.bhEnable 17) = s.w.get (Reg.bhEnable 17) ∧
      ∀ n, n < 29 → bit (t.w.get (Reg.bhPending 17)) n = (bit (s.w.get (Reg.bhPending 17)) n && (!bit v n || (isLevel 17 n && levelHigh 17 n s.w)))) ∧
    Completes (.hostBhEnableWrite true v) s (fun t => t = s) ∧ Completes (.hostBhClear true v) s (fun t => t = s))

/-! ### Observability (R603 to R608, R622) -/

/-- A counter that wraps is zero, sets its OVF bit and carries into a chained partner; a read of an even VALUE copies the odd partner into
HIGH_LATCH; a tally window that ends leaves a record for every sub-port of the port; an audit that completes writes the result of every book and
latches source 5, and event 0x0E08 follows an imbalance (R603, R604, R607, R622). Beyond the rules' own words it takes the model's reading: log
entries 7, 30. -/
def Obligations.CountersTalliesAndBooks : Prop :=
  (∀ (b : Brick) (k : Fin 32) (s : State), portsOn s.mode s.w = true → s.w.get (Reg.pcValue b k) < 2 ^ 48 →
    let runs := pcCounting b k s.w = true ∨ pcChained b k s.w = true
    (runs → Completes (.counterWrap b k) s fun t => t.w.get (Reg.pcValue b k) = 0 ∧ bit (t.w.get (Reg.pcOvf b)) k = true ∧
      (k.val % 2 = 0 → pcChained b (k + 1) s.w = true → t.w.get (Reg.pcValue b (k + 1)) = (s.w.get (Reg.pcValue b (k + 1)) + 1) % 2 ^ 48)) ∧
    (¬ runs → Completes (.counterWrap b k) s fun t => t = s)) ∧
  (∀ (b : Brick) (k : Fin 32) (s : State), windowOpen s.mode s.w = true →
    (k.val % 2 = 0 → Completes (.pcValueRead b k) s fun t => t.w.win64 (pcWin b k + 0x10) = s.w.get (Reg.pcValue b (k + 1)) % 2 ^ 64 ∧ t.w.regs = s.w.regs) ∧
    (k.val % 2 = 1 → Completes (.pcValueRead b k) s fun t => t = s)) ∧
  (∀ (p : Port) (s : State), portsOn s.mode s.w = true → Completes (.tallyWindowEnd p) s fun t =>
    let n := tgetD s.w.obs.tallySeq p 0
    tgetD t.w.obs.tallySeq p 0 = (n + 1) % 2 ^ 32 ∧ (∀ j, j < 8 →
      tallyRec (p * 8 + j) (n % 16) t.w = tallyRecord (tgetD s.w.obs.tally (p * 8 + j) Tally.init) n false ∧
      t.w.get (Reg.tallySeq (p * 8 + j)) = n % 2 ^ 32 ∧
      tget t.w.obs.tally (p * 8 + j) = some { Tally.init with notActive := !spFlows (p * 8 + j) s.w })) ∧
  (∀ s : State, portsOn s.mode s.w = true →
    (s.w.get Reg.booksPeriodS = 0 → Completes .booksPeriodDue s fun t => t = s) ∧
    (s.w.get Reg.booksPeriodS ≠ 0 → s.w.obs.books = none → Completes .booksPeriodDue s fun t => t.w.obs.books = some 0x3FF ∧ t.w.get Reg.booksState = 1) ∧
    (s.w.get Reg.booksPeriodS ≠ 0 → s.w.obs.books ≠ none → Completes .booksPeriodDue s fun t => t.w.obs.booksDue = true ∧ t.w.obs.books = s.w.obs.books ∧
      t.w.regs = s.w.regs)) ∧
  (∀ s : State, reeveOn s.mode s.w = true →
    (s.w.obs.books = none → Completes .booksComplete s fun t => t = s) ∧
    (∀ sel, s.w.obs.books = some sel →
      (s.w.obs.booksDue = false → Completes .booksComplete s fun t => t.w.obs.books = none ∧ t.w.get Reg.booksState = 0) ∧
      (s.w.obs.booksDue = true → Completes .booksComplete s fun t => t.w.obs.books = some 0x3FF ∧ t.w.obs.booksDue = false ∧ t.w.get Reg.booksState = 1) ∧
      Completes .booksComplete s (fun t =>
        t.w.get Reg.booksResult = (bitList sel 10).foldl (fun a n => a + bookResult (bookOf n s.w) * 2 ^ (8 * n)) 0 % 2 ^ 128 ∧
        bit (t.w.get (Reg.bhPending 17)) 5 = true ∧
        ∀ d, ((bitList sel 10).findSome? fun n => (bookFault (bookOf n s.w)).map fun l => bookDetail n l) = some d →
          t.w.get Reg.booksDetail = d % 2 ^ 128 ∧ t.w.get Reg.booksImbalances = (s.w.get Reg.booksImbalances + 1) % 2 ^ 32 ∧
          bit (t.w.get (Reg.bhPending 17)) 6 = true)))

/-! ### The whole wall: the queue, the modes, the form of the state, frames, latches, the search -/

/-- A step takes the command at the front of the queue: the step of any state with `c` in front is `exec c` on that state with the queue's rest. -/
def Obligations.StepTakesTheFront : Prop :=
  ∀ (c : Instr) (rest : List Instr) (s : State), s.pending = c :: rest → step s = exec c { s with pending := rest }

/-- On an empty queue the wall's clocks go on by one tick; that they do, and that nothing else waits for time, is the model's choice (log entries 5,
7). While the clocks run tclk counts, wall time takes its increment modulo 2^96, dclk counts twice in KINDLE and SERVICE; with the clocks stopped the
ember tick alone counts, while VEMB is up; in OFF nothing does (R25, R29, R126, R405). -/
def Obligations.EmptyQueueTicks : Prop :=
  ∀ s : State, s.pending = [] → ∃ t, step s = .next t ∧ t.mode = s.mode ∧ t.pending = [] ∧
    (clocksRun s.mode s.w = true →
      t.w.time = { s.w.time with
        tclk := s.w.time.tclk + 1
        acc := (s.w.time.acc + s.w.time.inc) % 2 ^ 96
        dclk := s.w.time.dclk + if s.mode = .kindle ∨ s.mode = .service then 2 else 0 } ∧
      t.w.bnd.emberTick = (s.w.bnd.emberTick + ((s.w.time.tclk + 1) * 32768 / 800000000 - s.w.time.tclk * 32768 / 800000000)) % 2 ^ 48) ∧
    (clocksRun s.mode s.w = false → s.mode ≠ .off → s.w.bnd.vembUp = true →
      t.w = { s.w with bnd := { s.w.bnd with emberTick := (s.w.bnd.emberTick + 1) % 2 ^ 48 } }) ∧
    (s.mode = .off → t = s)

/-- What reset leaves (R17, R126): mode OFF, no command waiting, every object at its default, both banks, the shelf and the write queue of the
Granary empty, no key, SA, session, request or frame anywhere, nothing sent, every table in canonical form, no restart fault due. The defaults that
the spec does not state, and the generation 1 of the bank headers, are the model's choice (log entries 1, 2). -/
def Obligations.ResetLeaves : Prop :=
  let s := State.reset
  s.mode = .off ∧ s.pending = [] ∧ (∀ o : Reg, s.w.get o = o.dflt) ∧ (∀ o d, s.w.win32 o d = d) ∧
  s.w.gra.bank0 = [] ∧ s.w.gra.bank1 = [] ∧ s.w.gra.shelf = [] ∧ s.w.gra.queue = [] ∧ s.w.gra.digest = [] ∧ s.w.gra.retention.valid = false ∧
  s.w.sec.sas = [] ∧ s.w.sec.keks = [] ∧ s.w.sec.kis = [] ∧ s.w.sec.deviceKey = none ∧ s.w.sec.zeroising = none ∧
  s.w.led.sessions = [] ∧ s.w.led.queue = [] ∧ s.w.lan.almanac = [] ∧ s.w.ing.frames = [] ∧ s.w.egr.queues = [] ∧ s.w.obs.day = [] ∧ s.w.out = [] ∧
  s.w.time.tclk = 0 ∧ s.w.bnd.emberTick = 0 ∧ s.w.Ok ∧ noFault s

/-- No step stops: every command, on every state, and the idle step end in a next state, with the rest of the queue waiting as before. -/
def Obligations.EveryStepAnswers : Prop :=
  ∀ s : State, ∃ t, step s = .next t ∧ t.pending = s.pending.tail

/-- The wall moves between modes only as R127 lists: each step leaves the mode or makes one of the listed moves, and only on a command that triggers
it; SEALED is left only for OFF (R127, R153). -/
def Obligations.ModesMoveOnlyAsListed : Prop :=
  (∀ s t : State, step s = .next t → mayMove s.mode t.mode = true) ∧
  (∀ (c : Instr) (rest : List Instr) (s t : State), s.pending = c :: rest → step s = .next t → t.mode = s.mode ∨ moveBy c s.mode t.mode = true) ∧
  (∀ s t : State, s.pending = [] → step s = .next t → t.mode = s.mode) ∧
  (∀ s t : State, s.mode = .sealedMode → step s = .next t → t.mode = .sealedMode ∨ t.mode = .off)

/-- Every step keeps the form of the state: every table sorted by key without repeats, and every queue and window within its capacity (R77, R80,
R426). No restart fault of the Reeve outlives the step that takes it: a step from a state without one ends in a state without one (R576). -/
def Obligations.StepsKeepTheForm : Prop :=
  (∀ s t : State, s.w.Ok → step s = .next t → t.w.Ok) ∧ (∀ s t : State, noFault s → step s = .next t → noFault t)

/-- Frames, for every command: it completes, the rest of the queue waits as before, and every part of the wall outside the parts listed for the
command is as it was. -/
def Obligations.CommandsReachOnlyTheirParts : Prop :=
  ∀ (c : Instr) (s : State), Completes c s fun t => t.pending = s.pending ∧ ∀ p : Part, p.reach c = false → p.same s.w t.w

/-- The table gives no command any bits: no word spells one, and placing a word changes nothing (log entry 8). -/
def Obligations.NoWordSpellsACommand : Prop :=
  ∀ nbits v : Nat, decodeTableWord nbits v = none ∧ ∀ s : State, s.withFetchWord nbits v = s

/-- Latches follow their causes (R580): an edge sets the latch of its source and no other; an edge while the latch is set is coalesced and counted; a
level source's latch is set while its cause is high, and again when it is re-sampled; ENABLE has no part in any of it. -/
def Obligations.LatchesFollowTheirCauses : Prop :=
  ∀ (u n : Nat) (w : Wall), u ≤ 17 → n < 128 →
    let set := bit (w.get (Reg.bhPending u)) n
    (set = false →
      (∀ j, bit ((latch u n w).get (Reg.bhPending u)) j = (bit (w.get (Reg.bhPending u) % 2 ^ 128) j || j == n)) ∧
      (latch u n w).get (Reg.bhCoalesced u) = w.get (Reg.bhCoalesced u)) ∧
    (set = true →
      (latch u n w).get (Reg.bhPending u) = w.get (Reg.bhPending u) ∧
      (latch u n w).get (Reg.bhCoalesced u) = (w.get (Reg.bhCoalesced u) + 1) % 2 ^ 32) ∧
    bit ((level u n true w).get (Reg.bhPending u)) n = true ∧ levelHigh u n (level u n true w) = true ∧
    (level u n true w).get (Reg.bhCoalesced u) = w.get (Reg.bhCoalesced u) ∧ levelHigh u n (level u n false w) = false ∧
    ∀ r : SeqRt, r.source = some n → isLevel u n = true → bit ((doReti u r w).get (Reg.bhPending u)) n = levelHigh u n w

/-- Of the entries that match a key the one with the lowest index wins (R331): its action applies, its hit counter alone goes on, SHADOWED goes on
once when another entry matched too; without a match the sub-port's NO_MATCH_ACTION applies, whatever its VALID bit, and SIEVE_MISSES goes on. -/
def Obligations.SearchTakesTheLowestEntry : Prop :=
  ∀ (b sp key : Nat) (w : Wall), b < 16 → sp < 512 → twf w.ing.sieve = true →
    let entry (i : Nat) := entryAt b (activeBank b w) i w
    let hit (i : Nat) : Prop := i < 8192 ∧ bit (entry i).action 63 = true ∧ (key ^^^ (entry i).value) &&& (entry i).mask = 0
    let x := (sieveSearch b sp key w).2
    let count (y : Wall) (k : Nat) := tgetD y.ing.hits k 0
    (∀ i, hit i → (∀ j, hit j → i ≤ j) →
      (sieveSearch b sp key w).1 = (entry i).action ∧
      (∀ k, count x k = if k = b * 8192 + i then (count w k + 1) % 2 ^ 64 else count w k) ∧
      x.get (Reg.sieveMisses b) = w.get (Reg.sieveMisses b) ∧
      ((∀ j, hit j → j = i) → x.get (Reg.shadowed b) = w.get (Reg.shadowed b)) ∧
      (∀ j, hit j → j ≠ i → x.get (Reg.shadowed b) = (w.get (Reg.shadowed b) + 1) % 2 ^ 64)) ∧
    ((∀ i, ¬ hit i) →
      (sieveSearch b sp key w).1 = w.get (Reg.noMatchAction sp) ∧ (∀ k, count x k = count w k) ∧
      x.get (Reg.shadowed b) = w.get (Reg.shadowed b) ∧
      x.get (Reg.sieveMisses b) = (w.get (Reg.sieveMisses b) + 1) % 2 ^ 64)
end

