-- ==== Sys2Proof/Laws/Tbl.lean ====
section
/-! SUPPORT. Laws of tables by number: lookup after a write or a removal, and the canonical form kept by every operation. -/

namespace Sys2Proof.Machine

variable {α : Type}

@[simp] theorem tget_nil (k : Nat) : tget ([] : Tbl α) k = none := rfl

theorem tget_tput_same (t : Tbl α) (k : Nat) (v : α) : tget (tput t k v) k = some v := by
  induction t with
  | nil => simp [tput, tget]
  | cons e t ih =>
    obtain ⟨j, a⟩ := e
    unfold tput
    split
    · simp [tget]
    · split
      · simp [tget]
      · have h : j ≠ k := fun h => by subst h; simp_all
        simp [tget, h, ih]

theorem tget_tput_other (t : Tbl α) (k j : Nat) (v : α) (h : j ≠ k) : tget (tput t k v) j = tget t j := by
  induction t with
  | nil => simp [tput, tget, Ne.symm h]
  | cons e t ih =>
    obtain ⟨i, a⟩ := e
    unfold tput
    split
    · simp [tget, Ne.symm h]
    · split
      · rename_i hk; subst hk; simp [tget, Ne.symm h]
      · simp [tget, ih]

theorem tget_tdel_same (t : Tbl α) (k : Nat) : tget (tdel t k) k = none := by
  induction t with
  | nil => rfl
  | cons e t ih =>
    obtain ⟨j, a⟩ := e
    unfold tdel
    split
    · exact ih
    · rename_i h; simp [tget, h, ih]

theorem tget_tdel_other (t : Tbl α) (k j : Nat) (h : j ≠ k) : tget (tdel t k) j = tget t j := by
  induction t with
  | nil => rfl
  | cons e t ih =>
    obtain ⟨i, a⟩ := e
    unfold tdel
    split
    · rename_i hk; subst hk; simp [tget, ih, Ne.symm h]
    · simp [tget, ih]

@[simp] theorem tgetD_tput_same (t : Tbl α) (k : Nat) (v d : α) : tgetD (tput t k v) k d = v := by
  simp [tgetD, tget_tput_same]

theorem tgetD_tput_other (t : Tbl α) (k j : Nat) (v d : α) (h : j ≠ k) : tgetD (tput t k v) j d = tgetD t j d := by
  simp [tgetD, tget_tput_other t k j v h]

theorem tgetD_tputD_same (t : Tbl Nat) (k d v : Nat) : tgetD (tputD t k d v) k d = v := by
  unfold tputD
  split
  · rename_i h; simp [tgetD, tget_tdel_same, h]
  · simp

theorem tget_tputD_other (t : Tbl Nat) (k d v j : Nat) (h : j ≠ k) : tget (tputD t k d v) j = tget t j := by
  unfold tputD
  split
  · exact tget_tdel_other t k j h
  · exact tget_tput_other t k j v h

theorem tgetD_tputD_other (t : Tbl Nat) (k d v j e : Nat) (h : j ≠ k) : tgetD (tputD t k d v) j e = tgetD t j e := by
  simp [tgetD, tget_tputD_other t k d v j h]

@[simp] theorem tgetD_tmod_same (t : Tbl α) (k : Nat) (d : α) (f : α → α) :
    tgetD (tmod t k d f) k d = f (tgetD t k d) := by
  simp [tmod]

/-! ### The canonical form -/

/-- Keys rise strictly: the pairwise form of `twf`. -/
theorem twf_iff (t : Tbl α) : twf t = true ↔ t.Pairwise (fun a b => a.1 < b.1) := by
  induction t with
  | nil => simp [twf]
  | cons e t ih =>
    obtain ⟨j, a⟩ := e
    cases t with
    | nil => simp [twf]
    | cons f t =>
      obtain ⟨k, b⟩ := f
      simp only [twf, Bool.and_eq_true, decide_eq_true_eq, ih, List.pairwise_cons]
      constructor
      · rintro ⟨h, h1, h2⟩
        refine ⟨?_, h1, h2⟩
        intro x hx
        rcases List.mem_cons.mp hx with rfl | hx
        · exact h
        · exact lt_trans h (h1 x hx)
      · rintro ⟨h, h1, h2⟩
        exact ⟨h _ List.mem_cons_self, h1, h2⟩

@[simp] theorem twf_nil : twf ([] : Tbl α) = true := rfl

theorem mem_tput {t : Tbl α} {k : Nat} {v : α} {e : Nat × α} (h : e ∈ tput t k v) : e = (k, v) ∨ e ∈ t := by
  induction t with
  | nil => simpa [tput] using h
  | cons f t ih =>
    obtain ⟨j, a⟩ := f
    unfold tput at h
    split at h
    · simpa using h
    · split at h
      · rcases List.mem_cons.mp h with h | h
        · exact .inl h
        · exact .inr (List.mem_cons_of_mem _ h)
      · rcases List.mem_cons.mp h with h | h
        · exact .inr (h ▸ List.mem_cons_self)
        · rcases ih h with h | h
          · exact .inl h
          · exact .inr (List.mem_cons_of_mem _ h)

theorem tdel_eq_filter (t : Tbl α) (k : Nat) : tdel t k = t.filter fun e => decide (e.1 ≠ k) := by
  induction t with
  | nil => rfl
  | cons e t ih =>
    obtain ⟨j, a⟩ := e
    unfold tdel
    split
    · rename_i h; simp [h, ih]
    · rename_i h; simp [h, ih]

theorem mem_tdel {t : Tbl α} {k : Nat} {e : Nat × α} (h : e ∈ tdel t k) : e ∈ t := by
  rw [tdel_eq_filter] at h; exact List.mem_of_mem_filter h

theorem twf_tput {t : Tbl α} {k : Nat} {v : α} (h : twf t = true) : twf (tput t k v) = true := by
  rw [twf_iff] at h ⊢
  induction t with
  | nil => simp [tput]
  | cons e t ih =>
    obtain ⟨j, a⟩ := e
    rw [List.pairwise_cons] at h
    unfold tput
    split
    · rename_i hk
      refine List.pairwise_cons.mpr ⟨?_, List.pairwise_cons.mpr h⟩
      intro x hx
      rcases List.mem_cons.mp hx with rfl | hx
      · exact hk
      · exact lt_trans hk (h.1 x hx)
    · split
      · rename_i hk; subst hk; exact List.pairwise_cons.mpr ⟨h.1, h.2⟩
      · refine List.pairwise_cons.mpr ⟨?_, ih h.2⟩
        intro x hx
        rcases mem_tput hx with rfl | hx
        · simp only; omega
        · exact h.1 x hx

theorem twf_filter {t : Tbl α} {p : Nat × α → Bool} (h : twf t = true) : twf (t.filter p) = true := by
  rw [twf_iff] at h ⊢
  exact h.filter p

theorem twf_tdel {t : Tbl α} {k : Nat} (h : twf t = true) : twf (tdel t k) = true := by
  rw [tdel_eq_filter]; exact twf_filter h

theorem twf_tputD {t : Tbl Nat} {k d v : Nat} (h : twf t = true) : twf (tputD t k d v) = true := by
  unfold tputD
  split
  · exact twf_tdel h
  · exact twf_tput h

theorem twf_tmod {t : Tbl α} {k : Nat} {d : α} {f : α → α} (h : twf t = true) : twf (tmod t k d f) = true := twf_tput h

theorem twf_tupd {t : Tbl α} {k : Nat} {f : α → α} (h : twf t = true) : twf (tupd t k f) = true := by
  unfold tupd
  split
  · exact twf_tput h
  · exact h

theorem twf_tfilter {t : Tbl α} {p : Nat → α → Bool} (h : twf t = true) : twf (tfilter t p) = true := twf_filter h

theorem twf_tmap {t : Tbl α} {f : Nat → α → α} (h : twf t = true) : twf (tmap t f) = true := by
  rw [twf_iff] at h ⊢
  exact List.pairwise_map.mpr h

/-! ### Loops -/

/-- What each round of a loop keeps, the loop keeps. -/
theorem upTo_keeps {β : Type} (P : β → Prop) (n : Nat) (f : Nat → β → β) (a : β) (h : P a)
    (hf : ∀ i a, P a → P (f i a)) : P (upTo n f a) := by
  unfold upTo
  generalize List.range n = l
  induction l generalizing a with
  | nil => exact h
  | cons i l ih => exact ih _ (hf i a h)

theorem foldl_keeps {β γ : Type} (P : β → Prop) (l : List γ) (f : β → γ → β) (a : β) (h : P a)
    (hf : ∀ a x, P a → P (f a x)) : P (l.foldl f a) := by
  induction l generalizing a with
  | nil => exact h
  | cons i l ih => exact ih _ (hf a i h)

theorem when_keeps {β : Type} (P : β → Prop) (c : Bool) (f : β → β) (a : β) (h : P a) (hf : P a → P (f a)) :
    P (when c f a) := by
  unfold when
  split
  · exact hf h
  · exact h

@[simp] theorem when_true {β : Type} (f : β → β) (a : β) : when true f a = f a := rfl
@[simp] theorem when_false {β : Type} (f : β → β) (a : β) : when false f a = a := rfl

end Sys2Proof.Machine
end

