-- ==== Sys2Proof/Laws/Frame.lean ====
section
/-! SUPPORT. What an operation may change, said once: `Keep m w x` says that `x` differs from `w` only in the fields whose
bit is set in the mask `m`, and that it keeps the tables' canonical form and the capacities (`Wall.Ok`). One relation per
component, the rules to build it, and the mask of each component. -/

namespace Sys2Proof.Machine

/-- A field outside the mask is unchanged. -/
def SameF {α : Type} (m i : Nat) (a b : α) : Prop := m.testBit i = false → b = a

theorem SameF.refl {α : Type} {m i : Nat} {a : α} : SameF m i a a := fun _ => rfl
theorem SameF.free {α : Type} {m i : Nat} {a b : α} (h : m.testBit i = true) : SameF m i a b :=
  fun h' => absurd (h.symm.trans h') (by decide)
theorem SameF.trans {α : Type} {m i : Nat} {a b c : α} (h : SameF m i a b) (k : SameF m i b c) : SameF m i a c :=
  fun h' => (k h').trans (h h')
theorem SameF.mono {α : Type} {m n i : Nat} {a b : α} (h : SameF m i a b) (hm : n ||| m = n) : SameF n i a b := by
  intro h'
  refine h ?_
  rw [← hm, Nat.testBit_or, Bool.or_eq_false_iff] at h'
  exact h'.2

structure TimeSt.Keep (m : Nat) (a b : TimeSt) : Prop where
  tclk : SameF m 2 a.tclk b.tclk
  dclk : SameF m 3 a.dclk b.dclk
  acc : SameF m 4 a.acc b.acc
  inc : SameF m 5 a.inc b.inc
  offset : SameF m 6 a.offset b.offset
  waits : SameF m 7 a.waits b.waits
  adj : SameF m 8 a.adj b.adj
  captures : SameF m 9 a.captures b.captures
  ok : a.Ok → b.Ok

theorem TimeSt.Keep.refl {m : Nat} {a : TimeSt} : TimeSt.Keep m a a :=
  ⟨.refl, .refl, .refl, .refl, .refl, .refl, .refl, .refl, id⟩
theorem TimeSt.Keep.trans {m : Nat} {a b c : TimeSt} (h : TimeSt.Keep m a b) (k : TimeSt.Keep m b c) : TimeSt.Keep m a c :=
  ⟨h.tclk.trans k.tclk, h.dclk.trans k.dclk, h.acc.trans k.acc, h.inc.trans k.inc, h.offset.trans k.offset, h.waits.trans k.waits, h.adj.trans k.adj, h.captures.trans k.captures, fun x => k.ok (h.ok x)⟩
theorem TimeSt.Keep.mono {m n : Nat} {a b : TimeSt} (h : TimeSt.Keep m a b) (hm : n ||| m = n) : TimeSt.Keep n a b :=
  ⟨h.tclk.mono hm, h.dclk.mono hm, h.acc.mono hm, h.inc.mono hm, h.offset.mono hm, h.waits.mono hm, h.adj.mono hm, h.captures.mono hm, h.ok⟩

structure BoundarySt.Keep (m : Nat) (a b : BoundarySt) : Prop where
  waitRef : SameF m 10 a.waitRef b.waitRef
  clocksStopped : SameF m 11 a.clocksStopped b.clocksStopped
  fetchDue : SameF m 12 a.fetchDue b.fetchDue
  cause : SameF m 13 a.cause b.cause
  pfail : SameF m 14 a.pfail b.pfail
  pfailHigh : SameF m 15 a.pfailHigh b.pfailHigh
  vcoreIn : SameF m 16 a.vcoreIn b.vcoreIn
  vgranOk : SameF m 17 a.vgranOk b.vgranOk
  queueShut : SameF m 18 a.queueShut b.queueShut
  inhibit : SameF m 19 a.inhibit b.inhibit
  vembUp : SameF m 20 a.vembUp b.vembUp
  wakeReq : SameF m 21 a.wakeReq b.wakeReq
  zeroLatch : SameF m 22 a.zeroLatch b.zeroLatch
  emberTick : SameF m 23 a.emberTick b.emberTick
  emberEntry : SameF m 24 a.emberEntry b.emberEntry
  refLanes : SameF m 25 a.refLanes b.refLanes
  tags : SameF m 26 a.tags b.tags
  pool : SameF m 27 a.pool b.pool
  credits : SameF m 28 a.credits b.credits
  waiting : SameF m 29 a.waiting b.waiting
  avsOut : SameF m 30 a.avsOut b.avsOut
  avsRestoring : SameF m 31 a.avsRestoring b.avsRestoring
  avsRound : SameF m 32 a.avsRound b.avsRound
  dozing : SameF m 33 a.dozing b.dozing
  deadBricks : SameF m 34 a.deadBricks b.deadBricks
  thermal : SameF m 35 a.thermal b.thermal
  ok : a.Ok → b.Ok

theorem BoundarySt.Keep.refl {m : Nat} {a : BoundarySt} : BoundarySt.Keep m a a :=
  ⟨.refl, .refl, .refl, .refl, .refl, .refl, .refl, .refl, .refl, .refl, .refl, .refl, .refl, .refl, .refl, .refl, .refl, .refl, .refl, .refl, .refl, .refl, .refl, .refl, .refl, .refl, id⟩
theorem BoundarySt.Keep.trans {m : Nat} {a b c : BoundarySt} (h : BoundarySt.Keep m a b) (k : BoundarySt.Keep m b c) : BoundarySt.Keep m a c :=
  ⟨h.waitRef.trans k.waitRef, h.clocksStopped.trans k.clocksStopped, h.fetchDue.trans k.fetchDue, h.cause.trans k.cause, h.pfail.trans k.pfail, h.pfailHigh.trans k.pfailHigh, h.vcoreIn.trans k.vcoreIn, h.vgranOk.trans k.vgranOk, h.queueShut.trans k.queueShut, h.inhibit.trans k.inhibit, h.vembUp.trans k.vembUp, h.wakeReq.trans k.wakeReq, h.zeroLatch.trans k.zeroLatch, h.emberTick.trans k.emberTick, h.emberEntry.trans k.emberEntry, h.refLanes.trans k.refLanes, h.tags.trans k.tags, h.pool.trans k.pool, h.credits.trans k.credits, h.waiting.trans k.waiting, h.avsOut.trans k.avsOut, h.avsRestoring.trans k.avsRestoring, h.avsRound.trans k.avsRound, h.dozing.trans k.dozing, h.deadBricks.trans k.deadBricks, h.thermal.trans k.thermal, fun x => k.ok (h.ok x)⟩
theorem BoundarySt.Keep.mono {m n : Nat} {a b : BoundarySt} (h : BoundarySt.Keep m a b) (hm : n ||| m = n) : BoundarySt.Keep n a b :=
  ⟨h.waitRef.mono hm, h.clocksStopped.mono hm, h.fetchDue.mono hm, h.cause.mono hm, h.pfail.mono hm, h.pfailHigh.mono hm, h.vcoreIn.mono hm, h.vgranOk.mono hm, h.queueShut.mono hm, h.inhibit.mono hm, h.vembUp.mono hm, h.wakeReq.mono hm, h.zeroLatch.mono hm, h.emberTick.mono hm, h.emberEntry.mono hm, h.refLanes.mono hm, h.tags.mono hm, h.pool.mono hm, h.credits.mono hm, h.waiting.mono hm, h.avsOut.mono hm, h.avsRestoring.mono hm, h.avsRound.mono hm, h.dozing.mono hm, h.deadBricks.mono hm, h.thermal.mono hm, h.ok⟩

structure LedgerSt.Keep (m : Nat) (a b : LedgerSt) : Prop where
  queue : SameF m 36 a.queue b.queue
  closed : SameF m 37 a.closed b.closed
  deferred : SameF m 38 a.deferred b.deferred
  store : SameF m 39 a.store b.store
  transfers : SameF m 40 a.transfers b.transfers
  domGen : SameF m 41 a.domGen b.domGen
  doms : SameF m 42 a.doms b.doms
  sessions : SameF m 43 a.sessions b.sessions
  handshakes : SameF m 44 a.handshakes b.handshakes
  cursor : SameF m 45 a.cursor b.cursor
  indicator : SameF m 46 a.indicator b.indicator
  moveDue : SameF m 47 a.moveDue b.moveDue
  icmpSecond : SameF m 48 a.icmpSecond b.icmpSecond
  icmpCount : SameF m 49 a.icmpCount b.icmpCount
  inbandSecond : SameF m 50 a.inbandSecond b.inbandSecond
  inbandCount : SameF m 51 a.inbandCount b.inbandCount
  inbandSent : SameF m 52 a.inbandSent b.inbandSent
  ok : a.Ok → b.Ok

theorem LedgerSt.Keep.refl {m : Nat} {a : LedgerSt} : LedgerSt.Keep m a a :=
  ⟨.refl, .refl, .refl, .refl, .refl, .refl, .refl, .refl, .refl, .refl, .refl, .refl, .refl, .refl, .refl, .refl, .refl, id⟩
theorem LedgerSt.Keep.trans {m : Nat} {a b c : LedgerSt} (h : LedgerSt.Keep m a b) (k : LedgerSt.Keep m b c) : LedgerSt.Keep m a c :=
  ⟨h.queue.trans k.queue, h.closed.trans k.closed, h.deferred.trans k.deferred, h.store.trans k.store, h.transfers.trans k.transfers, h.domGen.trans k.domGen, h.doms.trans k.doms, h.sessions.trans k.sessions, h.handshakes.trans k.handshakes, h.cursor.trans k.cursor, h.indicator.trans k.indicator, h.moveDue.trans k.moveDue, h.icmpSecond.trans k.icmpSecond, h.icmpCount.trans k.icmpCount, h.inbandSecond.trans k.inbandSecond, h.inbandCount.trans k.inbandCount, h.inbandSent.trans k.inbandSent, fun x => k.ok (h.ok x)⟩
theorem LedgerSt.Keep.mono {m n : Nat} {a b : LedgerSt} (h : LedgerSt.Keep m a b) (hm : n ||| m = n) : LedgerSt.Keep n a b :=
  ⟨h.queue.mono hm, h.closed.mono hm, h.deferred.mono hm, h.store.mono hm, h.transfers.mono hm, h.domGen.mono hm, h.doms.mono hm, h.sessions.mono hm, h.handshakes.mono hm, h.cursor.mono hm, h.indicator.mono hm, h.moveDue.mono hm, h.icmpSecond.mono hm, h.icmpCount.mono hm, h.inbandSecond.mono hm, h.inbandCount.mono hm, h.inbandSent.mono hm, h.ok⟩

structure LaneSt.Keep (m : Nat) (a b : LaneSt) : Prop where
  lanes : SameF m 53 a.lanes b.lanes
  groups : SameF m 54 a.groups b.groups
  exchs : SameF m 55 a.exchs b.exchs
  exchNo : SameF m 56 a.exchNo b.exchNo
  rounds : SameF m 57 a.rounds b.rounds
  surveys : SameF m 58 a.surveys b.surveys
  roundStartS : SameF m 59 a.roundStartS b.roundStartS
  almanac : SameF m 60 a.almanac b.almanac
  ok : a.Ok → b.Ok

theorem LaneSt.Keep.refl {m : Nat} {a : LaneSt} : LaneSt.Keep m a a :=
  ⟨.refl, .refl, .refl, .refl, .refl, .refl, .refl, .refl, id⟩
theorem LaneSt.Keep.trans {m : Nat} {a b c : LaneSt} (h : LaneSt.Keep m a b) (k : LaneSt.Keep m b c) : LaneSt.Keep m a c :=
  ⟨h.lanes.trans k.lanes, h.groups.trans k.groups, h.exchs.trans k.exchs, h.exchNo.trans k.exchNo, h.rounds.trans k.rounds, h.surveys.trans k.surveys, h.roundStartS.trans k.roundStartS, h.almanac.trans k.almanac, fun x => k.ok (h.ok x)⟩
theorem LaneSt.Keep.mono {m n : Nat} {a b : LaneSt} (h : LaneSt.Keep m a b) (hm : n ||| m = n) : LaneSt.Keep n a b :=
  ⟨h.lanes.mono hm, h.groups.mono hm, h.exchs.mono hm, h.exchNo.mono hm, h.rounds.mono hm, h.surveys.mono hm, h.roundStartS.mono hm, h.almanac.mono hm, h.ok⟩

structure PortSt.Keep (m : Nat) (a b : PortSt) : Prop where
  quiet : SameF m 61 a.quiet b.quiet
  pauseUntil : SameF m 62 a.pauseUntil b.pauseUntil
  pauseOut : SameF m 63 a.pauseOut b.pauseOut
  lockLost : SameF m 64 a.lockLost b.lockLost
  fecMode : SameF m 65 a.fecMode b.fecMode
  parse : SameF m 66 a.parse b.parse
  lastMs : SameF m 67 a.lastMs b.lastMs
  ok : a.Ok → b.Ok

theorem PortSt.Keep.refl {m : Nat} {a : PortSt} : PortSt.Keep m a a :=
  ⟨.refl, .refl, .refl, .refl, .refl, .refl, .refl, id⟩
theorem PortSt.Keep.trans {m : Nat} {a b c : PortSt} (h : PortSt.Keep m a b) (k : PortSt.Keep m b c) : PortSt.Keep m a c :=
  ⟨h.quiet.trans k.quiet, h.pauseUntil.trans k.pauseUntil, h.pauseOut.trans k.pauseOut, h.lockLost.trans k.lockLost, h.fecMode.trans k.fecMode, h.parse.trans k.parse, h.lastMs.trans k.lastMs, fun x => k.ok (h.ok x)⟩
theorem PortSt.Keep.mono {m n : Nat} {a b : PortSt} (h : PortSt.Keep m a b) (hm : n ||| m = n) : PortSt.Keep n a b :=
  ⟨h.quiet.mono hm, h.pauseUntil.mono hm, h.pauseOut.mono hm, h.lockLost.mono hm, h.fecMode.mono hm, h.parse.mono hm, h.lastMs.mono hm, h.ok⟩

structure IngressSt.Keep (m : Nat) (a b : IngressSt) : Prop where
  cells : SameF m 68 a.cells b.cells
  frames : SameF m 69 a.frames b.frames
  nextFrame : SameF m 70 a.nextFrame b.nextFrame
  seqIn : SameF m 71 a.seqIn b.seqIn
  seqEg : SameF m 72 a.seqEg b.seqEg
  glean : SameF m 73 a.glean b.glean
  sieve : SameF m 74 a.sieve b.sieve
  master : SameF m 75 a.master b.master
  hits : SameF m 76 a.hits b.hits
  indirection : SameF m 77 a.indirection b.indirection
  policers : SameF m 78 a.policers b.policers
  lookups : SameF m 79 a.lookups b.lookups
  flushWait : SameF m 80 a.flushWait b.flushWait
  learnHeld : SameF m 81 a.learnHeld b.learnHeld
  keysIssued : SameF m 82 a.keysIssued b.keysIssued
  keysMatched : SameF m 83 a.keysMatched b.keysMatched
  keysTimedOut : SameF m 84 a.keysTimedOut b.keysTimedOut
  swapCopy : SameF m 85 a.swapCopy b.swapCopy
  wrr : SameF m 86 a.wrr b.wrr
  stalled : SameF m 87 a.stalled b.stalled
  lastMs : SameF m 88 a.lastMs b.lastMs
  ok : a.Ok → b.Ok

theorem IngressSt.Keep.refl {m : Nat} {a : IngressSt} : IngressSt.Keep m a a :=
  ⟨.refl, .refl, .refl, .refl, .refl, .refl, .refl, .refl, .refl, .refl, .refl, .refl, .refl, .refl, .refl, .refl, .refl, .refl, .refl, .refl, .refl, id⟩
theorem IngressSt.Keep.trans {m : Nat} {a b c : IngressSt} (h : IngressSt.Keep m a b) (k : IngressSt.Keep m b c) : IngressSt.Keep m a c :=
  ⟨h.cells.trans k.cells, h.frames.trans k.frames, h.nextFrame.trans k.nextFrame, h.seqIn.trans k.seqIn, h.seqEg.trans k.seqEg, h.glean.trans k.glean, h.sieve.trans k.sieve, h.master.trans k.master, h.hits.trans k.hits, h.indirection.trans k.indirection, h.policers.trans k.policers, h.lookups.trans k.lookups, h.flushWait.trans k.flushWait, h.learnHeld.trans k.learnHeld, h.keysIssued.trans k.keysIssued, h.keysMatched.trans k.keysMatched, h.keysTimedOut.trans k.keysTimedOut, h.swapCopy.trans k.swapCopy, h.wrr.trans k.wrr, h.stalled.trans k.stalled, h.lastMs.trans k.lastMs, fun x => k.ok (h.ok x)⟩
theorem IngressSt.Keep.mono {m n : Nat} {a b : IngressSt} (h : IngressSt.Keep m a b) (hm : n ||| m = n) : IngressSt.Keep n a b :=
  ⟨h.cells.mono hm, h.frames.mono hm, h.nextFrame.mono hm, h.seqIn.mono hm, h.seqEg.mono hm, h.glean.mono hm, h.sieve.mono hm, h.master.mono hm, h.hits.mono hm, h.indirection.mono hm, h.policers.mono hm, h.lookups.mono hm, h.flushWait.mono hm, h.learnHeld.mono hm, h.keysIssued.mono hm, h.keysMatched.mono hm, h.keysTimedOut.mono hm, h.swapCopy.mono hm, h.wrr.mono hm, h.stalled.mono hm, h.lastMs.mono hm, h.ok⟩

structure EgressSt.Keep (m : Nat) (a b : EgressSt) : Prop where
  queues : SameF m 89 a.queues b.queues
  active : SameF m 90 a.active b.active
  shapers : SameF m 91 a.shapers b.shapers
  building : SameF m 92 a.building b.building
  txNow : SameF m 93 a.txNow b.txNow
  skipping : SameF m 94 a.skipping b.skipping
  pipeOcc : SameF m 95 a.pipeOcc b.pipeOcc
  hostOcc : SameF m 96 a.hostOcc b.hostOcc
  hostChunks : SameF m 97 a.hostChunks b.hostChunks
  coreCredits : SameF m 98 a.coreCredits b.coreCredits
  gates : SameF m 99 a.gates b.gates
  wrr : SameF m 100 a.wrr b.wrr
  ok : a.Ok → b.Ok

theorem EgressSt.Keep.refl {m : Nat} {a : EgressSt} : EgressSt.Keep m a a :=
  ⟨.refl, .refl, .refl, .refl, .refl, .refl, .refl, .refl, .refl, .refl, .refl, .refl, id⟩
theorem EgressSt.Keep.trans {m : Nat} {a b c : EgressSt} (h : EgressSt.Keep m a b) (k : EgressSt.Keep m b c) : EgressSt.Keep m a c :=
  ⟨h.queues.trans k.queues, h.active.trans k.active, h.shapers.trans k.shapers, h.building.trans k.building, h.txNow.trans k.txNow, h.skipping.trans k.skipping, h.pipeOcc.trans k.pipeOcc, h.hostOcc.trans k.hostOcc, h.hostChunks.trans k.hostChunks, h.coreCredits.trans k.coreCredits, h.gates.trans k.gates, h.wrr.trans k.wrr, fun x => k.ok (h.ok x)⟩
theorem EgressSt.Keep.mono {m n : Nat} {a b : EgressSt} (h : EgressSt.Keep m a b) (hm : n ||| m = n) : EgressSt.Keep n a b :=
  ⟨h.queues.mono hm, h.active.mono hm, h.shapers.mono hm, h.building.mono hm, h.txNow.mono hm, h.skipping.mono hm, h.pipeOcc.mono hm, h.hostOcc.mono hm, h.hostChunks.mono hm, h.coreCredits.mono hm, h.gates.mono hm, h.wrr.mono hm, h.ok⟩

structure SecSt.Keep (m : Nat) (a b : SecSt) : Prop where
  sas : SameF m 101 a.sas b.sas
  blobs : SameF m 102 a.blobs b.blobs
  kis : SameF m 103 a.kis b.kis
  kiClock : SameF m 104 a.kiClock b.kiClock
  keks : SameF m 105 a.keks b.keks
  deviceKey : SameF m 106 a.deviceKey b.deviceKey
  drbg : SameF m 107 a.drbg b.drbg
  testsPassed : SameF m 108 a.testsPassed b.testsPassed
  zeroising : SameF m 109 a.zeroising b.zeroising
  stallS : SameF m 110 a.stallS b.stallS
  ok : a.Ok → b.Ok

theorem SecSt.Keep.refl {m : Nat} {a : SecSt} : SecSt.Keep m a a :=
  ⟨.refl, .refl, .refl, .refl, .refl, .refl, .refl, .refl, .refl, .refl, id⟩
theorem SecSt.Keep.trans {m : Nat} {a b c : SecSt} (h : SecSt.Keep m a b) (k : SecSt.Keep m b c) : SecSt.Keep m a c :=
  ⟨h.sas.trans k.sas, h.blobs.trans k.blobs, h.kis.trans k.kis, h.kiClock.trans k.kiClock, h.keks.trans k.keks, h.deviceKey.trans k.deviceKey, h.drbg.trans k.drbg, h.testsPassed.trans k.testsPassed, h.zeroising.trans k.zeroising, h.stallS.trans k.stallS, fun x => k.ok (h.ok x)⟩
theorem SecSt.Keep.mono {m n : Nat} {a b : SecSt} (h : SecSt.Keep m a b) (hm : n ||| m = n) : SecSt.Keep n a b :=
  ⟨h.sas.mono hm, h.blobs.mono hm, h.kis.mono hm, h.kiClock.mono hm, h.keks.mono hm, h.deviceKey.mono hm, h.drbg.mono hm, h.testsPassed.mono hm, h.zeroising.mono hm, h.stallS.mono hm, h.ok⟩

structure GranarySt.Keep (m : Nat) (a b : GranarySt) : Prop where
  bank0 : SameF m 111 a.bank0 b.bank0
  bank1 : SameF m 112 a.bank1 b.bank1
  hdr0 : SameF m 113 a.hdr0 b.hdr0
  hdr1 : SameF m 114 a.hdr1 b.hdr1
  rows : SameF m 115 a.rows b.rows
  queue : SameF m 116 a.queue b.queue
  waiting : SameF m 117 a.waiting b.waiting
  done : SameF m 118 a.done b.done
  genNext : SameF m 119 a.genNext b.genNext
  benignAt : SameF m 120 a.benignAt b.benignAt
  digestSeq : SameF m 121 a.digestSeq b.digestSeq
  shelf : SameF m 122 a.shelf b.shelf
  loadedGen : SameF m 123 a.loadedGen b.loadedGen
  digest : SameF m 124 a.digest b.digest
  digestWait : SameF m 125 a.digestWait b.digestWait
  bucket : SameF m 126 a.bucket b.bucket
  suppressed : SameF m 127 a.suppressed b.suppressed
  retiredToday : SameF m 128 a.retiredToday b.retiredToday
  retireDay : SameF m 129 a.retireDay b.retireDay
  wearDays : SameF m 130 a.wearDays b.wearDays
  retention : SameF m 131 a.retention b.retention
  ok : a.Ok → b.Ok

theorem GranarySt.Keep.refl {m : Nat} {a : GranarySt} : GranarySt.Keep m a a :=
  ⟨.refl, .refl, .refl, .refl, .refl, .refl, .refl, .refl, .refl, .refl, .refl, .refl, .refl, .refl, .refl, .refl, .refl, .refl, .refl, .refl, .refl, id⟩
theorem GranarySt.Keep.trans {m : Nat} {a b c : GranarySt} (h : GranarySt.Keep m a b) (k : GranarySt.Keep m b c) : GranarySt.Keep m a c :=
  ⟨h.bank0.trans k.bank0, h.bank1.trans k.bank1, h.hdr0.trans k.hdr0, h.hdr1.trans k.hdr1, h.rows.trans k.rows, h.queue.trans k.queue, h.waiting.trans k.waiting, h.done.trans k.done, h.genNext.trans k.genNext, h.benignAt.trans k.benignAt, h.digestSeq.trans k.digestSeq, h.shelf.trans k.shelf, h.loadedGen.trans k.loadedGen, h.digest.trans k.digest, h.digestWait.trans k.digestWait, h.bucket.trans k.bucket, h.suppressed.trans k.suppressed, h.retiredToday.trans k.retiredToday, h.retireDay.trans k.retireDay, h.wearDays.trans k.wearDays, h.retention.trans k.retention, fun x => k.ok (h.ok x)⟩
theorem GranarySt.Keep.mono {m n : Nat} {a b : GranarySt} (h : GranarySt.Keep m a b) (hm : n ||| m = n) : GranarySt.Keep n a b :=
  ⟨h.bank0.mono hm, h.bank1.mono hm, h.hdr0.mono hm, h.hdr1.mono hm, h.rows.mono hm, h.queue.mono hm, h.waiting.mono hm, h.done.mono hm, h.genNext.mono hm, h.benignAt.mono hm, h.digestSeq.mono hm, h.shelf.mono hm, h.loadedGen.mono hm, h.digest.mono hm, h.digestWait.mono hm, h.bucket.mono hm, h.suppressed.mono hm, h.retiredToday.mono hm, h.retireDay.mono hm, h.wearDays.mono hm, h.retention.mono hm, h.ok⟩

structure HostSt.Keep (m : Nat) (a b : HostSt) : Prop where
  rings : SameF m 132 a.rings b.rings
  vecs : SameF m 133 a.vecs b.vecs
  mills : SameF m 134 a.mills b.mills
  turn : SameF m 135 a.turn b.turn
  ok : a.Ok → b.Ok

theorem HostSt.Keep.refl {m : Nat} {a : HostSt} : HostSt.Keep m a a :=
  ⟨.refl, .refl, .refl, .refl, id⟩
theorem HostSt.Keep.trans {m : Nat} {a b c : HostSt} (h : HostSt.Keep m a b) (k : HostSt.Keep m b c) : HostSt.Keep m a c :=
  ⟨h.rings.trans k.rings, h.vecs.trans k.vecs, h.mills.trans k.mills, h.turn.trans k.turn, fun x => k.ok (h.ok x)⟩
theorem HostSt.Keep.mono {m n : Nat} {a b : HostSt} (h : HostSt.Keep m a b) (hm : n ||| m = n) : HostSt.Keep n a b :=
  ⟨h.rings.mono hm, h.vecs.mono hm, h.mills.mono hm, h.turn.mono hm, h.ok⟩

structure StewardSt.Keep (m : Nat) (a b : StewardSt) : Prop where
  seqs : SameF m 136 a.seqs b.seqs
  hooks : SameF m 137 a.hooks b.hooks
  levels : SameF m 138 a.levels b.levels
  restarting : SameF m 139 a.restarting b.restarting
  reeveFault : SameF m 140 a.reeveFault b.reeveFault
  ok : a.Ok → b.Ok

theorem StewardSt.Keep.refl {m : Nat} {a : StewardSt} : StewardSt.Keep m a a :=
  ⟨.refl, .refl, .refl, .refl, .refl, id⟩
theorem StewardSt.Keep.trans {m : Nat} {a b c : StewardSt} (h : StewardSt.Keep m a b) (k : StewardSt.Keep m b c) : StewardSt.Keep m a c :=
  ⟨h.seqs.trans k.seqs, h.hooks.trans k.hooks, h.levels.trans k.levels, h.restarting.trans k.restarting, h.reeveFault.trans k.reeveFault, fun x => k.ok (h.ok x)⟩
theorem StewardSt.Keep.mono {m n : Nat} {a b : StewardSt} (h : StewardSt.Keep m a b) (hm : n ||| m = n) : StewardSt.Keep n a b :=
  ⟨h.seqs.mono hm, h.hooks.mono hm, h.levels.mono hm, h.restarting.mono hm, h.reeveFault.mono hm, h.ok⟩

structure ObsSt.Keep (m : Nat) (a b : ObsSt) : Prop where
  day : SameF m 141 a.day b.day
  srcSeq : SameF m 142 a.srcSeq b.srcSeq
  samples : SameF m 143 a.samples b.samples
  sampleSeq : SameF m 144 a.sampleSeq b.sampleSeq
  high : SameF m 145 a.high b.high
  tally : SameF m 146 a.tally b.tally
  tallyRecs : SameF m 147 a.tallyRecs b.tallyRecs
  tallySeq : SameF m 148 a.tallySeq b.tallySeq
  books : SameF m 149 a.books b.books
  booksDue : SameF m 150 a.booksDue b.booksDue
  illegalS : SameF m 151 a.illegalS b.illegalS
  ok : a.Ok → b.Ok

theorem ObsSt.Keep.refl {m : Nat} {a : ObsSt} : ObsSt.Keep m a a :=
  ⟨.refl, .refl, .refl, .refl, .refl, .refl, .refl, .refl, .refl, .refl, .refl, id⟩
theorem ObsSt.Keep.trans {m : Nat} {a b c : ObsSt} (h : ObsSt.Keep m a b) (k : ObsSt.Keep m b c) : ObsSt.Keep m a c :=
  ⟨h.day.trans k.day, h.srcSeq.trans k.srcSeq, h.samples.trans k.samples, h.sampleSeq.trans k.sampleSeq, h.high.trans k.high, h.tally.trans k.tally, h.tallyRecs.trans k.tallyRecs, h.tallySeq.trans k.tallySeq, h.books.trans k.books, h.booksDue.trans k.booksDue, h.illegalS.trans k.illegalS, fun x => k.ok (h.ok x)⟩
theorem ObsSt.Keep.mono {m n : Nat} {a b : ObsSt} (h : ObsSt.Keep m a b) (hm : n ||| m = n) : ObsSt.Keep n a b :=
  ⟨h.day.mono hm, h.srcSeq.mono hm, h.samples.mono hm, h.sampleSeq.mono hm, h.high.mono hm, h.tally.mono hm, h.tallyRecs.mono hm, h.tallySeq.mono hm, h.books.mono hm, h.booksDue.mono hm, h.illegalS.mono hm, h.ok⟩

/-- `x` comes from `w` by changes inside the mask only. -/
structure Keep (m : Nat) (w x : Wall) : Prop where
  regs : SameF m 0 w.regs x.regs
  regsOk : twf w.regs = true → twf x.regs = true
  win : SameF m 1 w.win x.win
  winOk : twf w.win = true → twf x.win = true
  time : TimeSt.Keep m w.time x.time
  bnd : BoundarySt.Keep m w.bnd x.bnd
  led : LedgerSt.Keep m w.led x.led
  lan : LaneSt.Keep m w.lan x.lan
  prt : PortSt.Keep m w.prt x.prt
  ing : IngressSt.Keep m w.ing x.ing
  egr : EgressSt.Keep m w.egr x.egr
  sec : SecSt.Keep m w.sec x.sec
  gra : GranarySt.Keep m w.gra x.gra
  hst : HostSt.Keep m w.hst x.hst
  stw : StewardSt.Keep m w.stw x.stw
  obs : ObsSt.Keep m w.obs x.obs
  freeN : SameF m 152 w.freeN x.freeN
  out : SameF m 153 w.out x.out

theorem Keep.refl {m : Nat} {w : Wall} : Keep m w w :=
  ⟨.refl, id, .refl, id, .refl, .refl, .refl, .refl, .refl, .refl, .refl, .refl, .refl, .refl, .refl, .refl, .refl, .refl⟩
theorem Keep.trans {m : Nat} {w x y : Wall} (h : Keep m w x) (k : Keep m x y) : Keep m w y :=
  ⟨h.regs.trans k.regs, fun z => k.regsOk (h.regsOk z), h.win.trans k.win, fun z => k.winOk (h.winOk z),
   h.time.trans k.time, h.bnd.trans k.bnd, h.led.trans k.led, h.lan.trans k.lan, h.prt.trans k.prt, h.ing.trans k.ing, h.egr.trans k.egr, h.sec.trans k.sec, h.gra.trans k.gra, h.hst.trans k.hst, h.stw.trans k.stw, h.obs.trans k.obs, h.freeN.trans k.freeN, h.out.trans k.out⟩
theorem Keep.mono {m n : Nat} {w x : Wall} (h : Keep m w x) (hm : n ||| m = n) : Keep n w x :=
  ⟨h.regs.mono hm, h.regsOk, h.win.mono hm, h.winOk, h.time.mono hm, h.bnd.mono hm, h.led.mono hm, h.lan.mono hm, h.prt.mono hm, h.ing.mono hm, h.egr.mono hm, h.sec.mono hm, h.gra.mono hm, h.hst.mono hm, h.stw.mono hm, h.obs.mono hm, h.freeN.mono hm, h.out.mono hm⟩

theorem Keep.ok {m : Nat} {w x : Wall} (h : Keep m w x) (k : w.Ok) : x.Ok :=
  ⟨h.regsOk k.regs, h.winOk k.win, h.time.ok k.time, h.bnd.ok k.bnd, h.led.ok k.led, h.lan.ok k.lan, h.prt.ok k.prt, h.ing.ok k.ing, h.egr.ok k.egr, h.sec.ok k.sec, h.gra.ok k.gra, h.hst.ok k.hst, h.stw.ok k.stw, h.obs.ok k.obs⟩

/-- One more operation. -/
theorem Keep.step {m n : Nat} {w x y : Wall} (h : Keep m w x) (k : Keep n x y) (hm : m ||| n = m) : Keep m w y :=
  h.trans (k.mono hm)

theorem Keep.of_snd {α : Type} {m : Nat} {w y : Wall} {x : α × Wall} {a : α} (h : Keep m w x.2) (e : x = (a, y)) :
    Keep m w y := by subst e; exact h
theorem Keep.of_fst {α : Type} {m : Nat} {w y : Wall} {x : Wall × α} {a : α} (h : Keep m w x.1) (e : x = (y, a)) :
    Keep m w y := by subst e; exact h
theorem Keep.of_snd2 {α β : Type} {m : Nat} {w y : Wall} {x : α × β × Wall} {a : α} {b : β} (h : Keep m w x.2.2)
    (e : x = (a, b, y)) : Keep m w y := by subst e; exact h

theorem Keep.foldl {γ : Type} {m : Nat} {w x : Wall} {l : List γ} {f : Wall → γ → Wall} (h : Keep m w x)
    (hf : ∀ y e, Keep m w y → Keep m w (f y e)) : Keep m w (l.foldl f x) := foldl_keeps (Keep m w) l f x h hf

theorem Keep.upTo {m n : Nat} {w x : Wall} {f : Nat → Wall → Wall} (h : Keep m w x)
    (hf : ∀ i y, Keep m w y → Keep m w (f i y)) : Keep m w (upTo n f x) := upTo_keeps (Keep m w) n f x h hf

theorem Keep.when {m : Nat} {w x : Wall} {c : Bool} {f : Wall → Wall} (h : Keep m w x)
    (hf : ∀ y, Keep m w y → Keep m w (f y)) : Keep m w (when c f x) := when_keeps (Keep m w) c f x h (hf x)

theorem Keep.ite {m : Nat} {w x y : Wall} {c : Prop} [Decidable c] (h : c → Keep m w x) (k : ¬ c → Keep m w y) :
    Keep m w (if c then x else y) := by
  split
  · exact h ‹_›
  · exact k ‹_›

/-- All components at once; each is unchanged or changed inside the mask. -/
theorem Keep.mk12 {m : Nat} {v w : Wall} {r : Tbl Nat} {n : Tbl Nat} {x0 : TimeSt} {x1 : BoundarySt} {x2 : LedgerSt} {x3 : LaneSt} {x4 : PortSt} {x5 : IngressSt} {x6 : EgressSt} {x7 : SecSt} {x8 : GranarySt} {x9 : HostSt} {x10 : StewardSt} {x11 : ObsSt} {fn : Nat} {ou : List Out}
    (h : Keep m v w) (hr : SameF m 0 w.regs r) (hr' : twf w.regs = true → twf r = true) (hn : SameF m 1 w.win n)
    (hn' : twf w.win = true → twf n = true) (h0 : TimeSt.Keep m w.time x0) (h1 : BoundarySt.Keep m w.bnd x1) (h2 : LedgerSt.Keep m w.led x2) (h3 : LaneSt.Keep m w.lan x3) (h4 : PortSt.Keep m w.prt x4) (h5 : IngressSt.Keep m w.ing x5) (h6 : EgressSt.Keep m w.egr x6) (h7 : SecSt.Keep m w.sec x7) (h8 : GranarySt.Keep m w.gra x8) (h9 : HostSt.Keep m w.hst x9) (h10 : StewardSt.Keep m w.stw x10) (h11 : ObsSt.Keep m w.obs x11)
    (hf : SameF m 152 w.freeN fn) (ho : SameF m 153 w.out ou) :
    Keep m v ⟨r, n, x0, x1, x2, x3, x4, x5, x6, x7, x8, x9, x10, x11, fn, ou⟩ :=
  h.trans ⟨hr, hr', hn, hn', h0, h1, h2, h3, h4, h5, h6, h7, h8, h9, h10, h11, hf, ho⟩

theorem Keep.timeU {m : Nat} {v w : Wall} {x : TimeSt} (h : Keep m v w) (k : TimeSt.Keep m w.time x) :
    Keep m v ⟨w.regs, w.win, x, w.bnd, w.led, w.lan, w.prt, w.ing, w.egr, w.sec, w.gra, w.hst, w.stw, w.obs, w.freeN, w.out⟩ := h.trans ⟨.refl, id, .refl, id, k, .refl, .refl, .refl, .refl, .refl, .refl, .refl, .refl, .refl, .refl, .refl, .refl, .refl⟩
theorem Keep.bndU {m : Nat} {v w : Wall} {x : BoundarySt} (h : Keep m v w) (k : BoundarySt.Keep m w.bnd x) :
    Keep m v ⟨w.regs, w.win, w.time, x, w.led, w.lan, w.prt, w.ing, w.egr, w.sec, w.gra, w.hst, w.stw, w.obs, w.freeN, w.out⟩ := h.trans ⟨.refl, id, .refl, id, .refl, k, .refl, .refl, .refl, .refl, .refl, .refl, .refl, .refl, .refl, .refl, .refl, .refl⟩
theorem Keep.ledU {m : Nat} {v w : Wall} {x : LedgerSt} (h : Keep m v w) (k : LedgerSt.Keep m w.led x) :
    Keep m v ⟨w.regs, w.win, w.time, w.bnd, x, w.lan, w.prt, w.ing, w.egr, w.sec, w.gra, w.hst, w.stw, w.obs, w.freeN, w.out⟩ := h.trans ⟨.refl, id, .refl, id, .refl, .refl, k, .refl, .refl, .refl, .refl, .refl, .refl, .refl, .refl, .refl, .refl, .refl⟩
theorem Keep.lanU {m : Nat} {v w : Wall} {x : LaneSt} (h : Keep m v w) (k : LaneSt.Keep m w.lan x) :
    Keep m v ⟨w.regs, w.win, w.time, w.bnd, w.led, x, w.prt, w.ing, w.egr, w.sec, w.gra, w.hst, w.stw, w.obs, w.freeN, w.out⟩ := h.trans ⟨.refl, id, .refl, id, .refl, .refl, .refl, k, .refl, .refl, .refl, .refl, .refl, .refl, .refl, .refl, .refl, .refl⟩
theorem Keep.prtU {m : Nat} {v w : Wall} {x : PortSt} (h : Keep m v w) (k : PortSt.Keep m w.prt x) :
    Keep m v ⟨w.regs, w.win, w.time, w.bnd, w.led, w.lan, x, w.ing, w.egr, w.sec, w.gra, w.hst, w.stw, w.obs, w.freeN, w.out⟩ := h.trans ⟨.refl, id, .refl, id, .refl, .refl, .refl, .refl, k, .refl, .refl, .refl, .refl, .refl, .refl, .refl, .refl, .refl⟩
theorem Keep.ingU {m : Nat} {v w : Wall} {x : IngressSt} (h : Keep m v w) (k : IngressSt.Keep m w.ing x) :
    Keep m v ⟨w.regs, w.win, w.time, w.bnd, w.led, w.lan, w.prt, x, w.egr, w.sec, w.gra, w.hst, w.stw, w.obs, w.freeN, w.out⟩ := h.trans ⟨.refl, id, .refl, id, .refl, .refl, .refl, .refl, .refl, k, .refl, .refl, .refl, .refl, .refl, .refl, .refl, .refl⟩
theorem Keep.egrU {m : Nat} {v w : Wall} {x : EgressSt} (h : Keep m v w) (k : EgressSt.Keep m w.egr x) :
    Keep m v ⟨w.regs, w.win, w.time, w.bnd, w.led, w.lan, w.prt, w.ing, x, w.sec, w.gra, w.hst, w.stw, w.obs, w.freeN, w.out⟩ := h.trans ⟨.refl, id, .refl, id, .refl, .refl, .refl, .refl, .refl, .refl, k, .refl, .refl, .refl, .refl, .refl, .refl, .refl⟩
theorem Keep.secU {m : Nat} {v w : Wall} {x : SecSt} (h : Keep m v w) (k : SecSt.Keep m w.sec x) :
    Keep m v ⟨w.regs, w.win, w.time, w.bnd, w.led, w.lan, w.prt, w.ing, w.egr, x, w.gra, w.hst, w.stw, w.obs, w.freeN, w.out⟩ := h.trans ⟨.refl, id, .refl, id, .refl, .refl, .refl, .refl, .refl, .refl, .refl, k, .refl, .refl, .refl, .refl, .refl, .refl⟩
theorem Keep.graU {m : Nat} {v w : Wall} {x : GranarySt} (h : Keep m v w) (k : GranarySt.Keep m w.gra x) :
    Keep m v ⟨w.regs, w.win, w.time, w.bnd, w.led, w.lan, w.prt, w.ing, w.egr, w.sec, x, w.hst, w.stw, w.obs, w.freeN, w.out⟩ := h.trans ⟨.refl, id, .refl, id, .refl, .refl, .refl, .refl, .refl, .refl, .refl, .refl, k, .refl, .refl, .refl, .refl, .refl⟩
theorem Keep.hstU {m : Nat} {v w : Wall} {x : HostSt} (h : Keep m v w) (k : HostSt.Keep m w.hst x) :
    Keep m v ⟨w.regs, w.win, w.time, w.bnd, w.led, w.lan, w.prt, w.ing, w.egr, w.sec, w.gra, x, w.stw, w.obs, w.freeN, w.out⟩ := h.trans ⟨.refl, id, .refl, id, .refl, .refl, .refl, .refl, .refl, .refl, .refl, .refl, .refl, k, .refl, .refl, .refl, .refl⟩
theorem Keep.stwU {m : Nat} {v w : Wall} {x : StewardSt} (h : Keep m v w) (k : StewardSt.Keep m w.stw x) :
    Keep m v ⟨w.regs, w.win, w.time, w.bnd, w.led, w.lan, w.prt, w.ing, w.egr, w.sec, w.gra, w.hst, x, w.obs, w.freeN, w.out⟩ := h.trans ⟨.refl, id, .refl, id, .refl, .refl, .refl, .refl, .refl, .refl, .refl, .refl, .refl, .refl, k, .refl, .refl, .refl⟩
theorem Keep.obsU {m : Nat} {v w : Wall} {x : ObsSt} (h : Keep m v w) (k : ObsSt.Keep m w.obs x) :
    Keep m v ⟨w.regs, w.win, w.time, w.bnd, w.led, w.lan, w.prt, w.ing, w.egr, w.sec, w.gra, w.hst, w.stw, x, w.freeN, w.out⟩ := h.trans ⟨.refl, id, .refl, id, .refl, .refl, .refl, .refl, .refl, .refl, .refl, .refl, .refl, .refl, .refl, k, .refl, .refl⟩
theorem Keep.freeNU {m : Nat} {v w : Wall} {x : Nat} (h : Keep m v w) (k : m.testBit 152 = true) :
    Keep m v ⟨w.regs, w.win, w.time, w.bnd, w.led, w.lan, w.prt, w.ing, w.egr, w.sec, w.gra, w.hst, w.stw, w.obs, x, w.out⟩ := h.trans ⟨.refl, id, .refl, id, .refl, .refl, .refl, .refl, .refl, .refl, .refl, .refl, .refl, .refl, .refl, .refl, .free k, .refl⟩
theorem Keep.outU {m : Nat} {v w : Wall} {x : List Out} (h : Keep m v w) (k : m.testBit 153 = true) :
    Keep m v ⟨w.regs, w.win, w.time, w.bnd, w.led, w.lan, w.prt, w.ing, w.egr, w.sec, w.gra, w.hst, w.stw, w.obs, w.freeN, x⟩ := h.trans ⟨.refl, id, .refl, id, .refl, .refl, .refl, .refl, .refl, .refl, .refl, .refl, .refl, .refl, .refl, .refl, .refl, .free k⟩
theorem Keep.regsU {m : Nat} {v w : Wall} {x : Tbl Nat} (h : Keep m v w) (k : m.testBit 0 = true) (t : twf w.regs = true → twf x = true) :
    Keep m v ⟨x, w.win, w.time, w.bnd, w.led, w.lan, w.prt, w.ing, w.egr, w.sec, w.gra, w.hst, w.stw, w.obs, w.freeN, w.out⟩ := h.trans ⟨.free k, t, .refl, id, .refl, .refl, .refl, .refl, .refl, .refl, .refl, .refl, .refl, .refl, .refl, .refl, .refl, .refl⟩
theorem Keep.winU {m : Nat} {v w : Wall} {x : Tbl Nat} (h : Keep m v w) (k : m.testBit 1 = true) (t : twf w.win = true → twf x = true) :
    Keep m v ⟨w.regs, x, w.time, w.bnd, w.led, w.lan, w.prt, w.ing, w.egr, w.sec, w.gra, w.hst, w.stw, w.obs, w.freeN, w.out⟩ := h.trans ⟨.refl, id, .free k, t, .refl, .refl, .refl, .refl, .refl, .refl, .refl, .refl, .refl, .refl, .refl, .refl, .refl, .refl⟩

/-! ### Whole components outside the mask -/

theorem TimeSt.Keep.same {m : Nat} {a b : TimeSt} (h : TimeSt.Keep m a b)
    (hm : ∀ i, 2 ≤ i → i < 10 → m.testBit i = false) : b = a := by
  cases a; cases b
  simp only [TimeSt.mk.injEq]
  exact ⟨h.tclk (hm _ (by decide) (by decide)), h.dclk (hm _ (by decide) (by decide)), h.acc (hm _ (by decide) (by decide)), h.inc (hm _ (by decide) (by decide)), h.offset (hm _ (by decide) (by decide)), h.waits (hm _ (by decide) (by decide)), h.adj (hm _ (by decide) (by decide)), h.captures (hm _ (by decide) (by decide))⟩
theorem BoundarySt.Keep.same {m : Nat} {a b : BoundarySt} (h : BoundarySt.Keep m a b)
    (hm : ∀ i, 10 ≤ i → i < 36 → m.testBit i = false) : b = a := by
  cases a; cases b
  simp only [BoundarySt.mk.injEq]
  exact ⟨h.waitRef (hm _ (by decide) (by decide)), h.clocksStopped (hm _ (by decide) (by decide)), h.fetchDue (hm _ (by decide) (by decide)), h.cause (hm _ (by decide) (by decide)), h.pfail (hm _ (by decide) (by decide)), h.pfailHigh (hm _ (by decide) (by decide)), h.vcoreIn (hm _ (by decide) (by decide)), h.vgranOk (hm _ (by decide) (by decide)), h.queueShut (hm _ (by decide) (by decide)), h.inhibit (hm _ (by decide) (by decide)), h.vembUp (hm _ (by decide) (by decide)), h.wakeReq (hm _ (by decide) (by decide)), h.zeroLatch (hm _ (by decide) (by decide)), h.emberTick (hm _ (by decide) (by decide)), h.emberEntry (hm _ (by decide) (by decide)), h.refLanes (hm _ (by decide) (by decide)), h.tags (hm _ (by decide) (by decide)), h.pool (hm _ (by decide) (by decide)), h.credits (hm _ (by decide) (by decide)), h.waiting (hm _ (by decide) (by decide)), h.avsOut (hm _ (by decide) (by decide)), h.avsRestoring (hm _ (by decide) (by decide)), h.avsRound (hm _ (by decide) (by decide)), h.dozing (hm _ (by decide) (by decide)), h.deadBricks (hm _ (by decide) (by decide)), h.thermal (hm _ (by decide) (by decide))⟩
theorem LedgerSt.Keep.same {m : Nat} {a b : LedgerSt} (h : LedgerSt.Keep m a b)
    (hm : ∀ i, 36 ≤ i → i < 53 → m.testBit i = false) : b = a := by
  cases a; cases b
  simp only [LedgerSt.mk.injEq]
  exact ⟨h.queue (hm _ (by decide) (by decide)), h.closed (hm _ (by decide) (by decide)), h.deferred (hm _ (by decide) (by decide)), h.store (hm _ (by decide) (by decide)), h.transfers (hm _ (by decide) (by decide)), h.domGen (hm _ (by decide) (by decide)), h.doms (hm _ (by decide) (by decide)), h.sessions (hm _ (by decide) (by decide)), h.handshakes (hm _ (by decide) (by decide)), h.cursor (hm _ (by decide) (by decide)), h.indicator (hm _ (by decide) (by decide)), h.moveDue (hm _ (by decide) (by decide)), h.icmpSecond (hm _ (by decide) (by decide)), h.icmpCount (hm _ (by decide) (by decide)), h.inbandSecond (hm _ (by decide) (by decide)), h.inbandCount (hm _ (by decide) (by decide)), h.inbandSent (hm _ (by decide) (by decide))⟩
theorem LaneSt.Keep.same {m : Nat} {a b : LaneSt} (h : LaneSt.Keep m a b)
    (hm : ∀ i, 53 ≤ i → i < 61 → m.testBit i = false) : b = a := by
  cases a; cases b
  simp only [LaneSt.mk.injEq]
  exact ⟨h.lanes (hm _ (by decide) (by decide)), h.groups (hm _ (by decide) (by decide)), h.exchs (hm _ (by decide) (by decide)), h.exchNo (hm _ (by decide) (by decide)), h.rounds (hm _ (by decide) (by decide)), h.surveys (hm _ (by decide) (by decide)), h.roundStartS (hm _ (by decide) (by decide)), h.almanac (hm _ (by decide) (by decide))⟩
theorem PortSt.Keep.same {m : Nat} {a b : PortSt} (h : PortSt.Keep m a b)
    (hm : ∀ i, 61 ≤ i → i < 68 → m.testBit i = false) : b = a := by
  cases a; cases b
  simp only [PortSt.mk.injEq]
  exact ⟨h.quiet (hm _ (by decide) (by decide)), h.pauseUntil (hm _ (by decide) (by decide)), h.pauseOut (hm _ (by decide) (by decide)), h.lockLost (hm _ (by decide) (by decide)), h.fecMode (hm _ (by decide) (by decide)), h.parse (hm _ (by decide) (by decide)), h.lastMs (hm _ (by decide) (by decide))⟩
theorem IngressSt.Keep.same {m : Nat} {a b : IngressSt} (h : IngressSt.Keep m a b)
    (hm : ∀ i, 68 ≤ i → i < 89 → m.testBit i = false) : b = a := by
  cases a; cases b
  simp only [IngressSt.mk.injEq]
  exact ⟨h.cells (hm _ (by decide) (by decide)), h.frames (hm _ (by decide) (by decide)), h.nextFrame (hm _ (by decide) (by decide)), h.seqIn (hm _ (by decide) (by decide)), h.seqEg (hm _ (by decide) (by decide)), h.glean (hm _ (by decide) (by decide)), h.sieve (hm _ (by decide) (by decide)), h.master (hm _ (by decide) (by decide)), h.hits (hm _ (by decide) (by decide)), h.indirection (hm _ (by decide) (by decide)), h.policers (hm _ (by decide) (by decide)), h.lookups (hm _ (by decide) (by decide)), h.flushWait (hm _ (by decide) (by decide)), h.learnHeld (hm _ (by decide) (by decide)), h.keysIssued (hm _ (by decide) (by decide)), h.keysMatched (hm _ (by decide) (by decide)), h.keysTimedOut (hm _ (by decide) (by decide)), h.swapCopy (hm _ (by decide) (by decide)), h.wrr (hm _ (by decide) (by decide)), h.stalled (hm _ (by decide) (by decide)), h.lastMs (hm _ (by decide) (by decide))⟩
theorem EgressSt.Keep.same {m : Nat} {a b : EgressSt} (h : EgressSt.Keep m a b)
    (hm : ∀ i, 89 ≤ i → i < 101 → m.testBit i = false) : b = a := by
  cases a; cases b
  simp only [EgressSt.mk.injEq]
  exact ⟨h.queues (hm _ (by decide) (by decide)), h.active (hm _ (by decide) (by decide)), h.shapers (hm _ (by decide) (by decide)), h.building (hm _ (by decide) (by decide)), h.txNow (hm _ (by decide) (by decide)), h.skipping (hm _ (by decide) (by decide)), h.pipeOcc (hm _ (by decide) (by decide)), h.hostOcc (hm _ (by decide) (by decide)), h.hostChunks (hm _ (by decide) (by decide)), h.coreCredits (hm _ (by decide) (by decide)), h.gates (hm _ (by decide) (by decide)), h.wrr (hm _ (by decide) (by decide))⟩
theorem SecSt.Keep.same {m : Nat} {a b : SecSt} (h : SecSt.Keep m a b)
    (hm : ∀ i, 101 ≤ i → i < 111 → m.testBit i = false) : b = a := by
  cases a; cases b
  simp only [SecSt.mk.injEq]
  exact ⟨h.sas (hm _ (by decide) (by decide)), h.blobs (hm _ (by decide) (by decide)), h.kis (hm _ (by decide) (by decide)), h.kiClock (hm _ (by decide) (by decide)), h.keks (hm _ (by decide) (by decide)), h.deviceKey (hm _ (by decide) (by decide)), h.drbg (hm _ (by decide) (by decide)), h.testsPassed (hm _ (by decide) (by decide)), h.zeroising (hm _ (by decide) (by decide)), h.stallS (hm _ (by decide) (by decide))⟩
theorem GranarySt.Keep.same {m : Nat} {a b : GranarySt} (h : GranarySt.Keep m a b)
    (hm : ∀ i, 111 ≤ i → i < 132 → m.testBit i = false) : b = a := by
  cases a; cases b
  simp only [GranarySt.mk.injEq]
  exact ⟨h.bank0 (hm _ (by decide) (by decide)), h.bank1 (hm _ (by decide) (by decide)), h.hdr0 (hm _ (by decide) (by decide)), h.hdr1 (hm _ (by decide) (by decide)), h.rows (hm _ (by decide) (by decide)), h.queue (hm _ (by decide) (by decide)), h.waiting (hm _ (by decide) (by decide)), h.done (hm _ (by decide) (by decide)), h.genNext (hm _ (by decide) (by decide)), h.benignAt (hm _ (by decide) (by decide)), h.digestSeq (hm _ (by decide) (by decide)), h.shelf (hm _ (by decide) (by decide)), h.loadedGen (hm _ (by decide) (by decide)), h.digest (hm _ (by decide) (by decide)), h.digestWait (hm _ (by decide) (by decide)), h.bucket (hm _ (by decide) (by decide)), h.suppressed (hm _ (by decide) (by decide)), h.retiredToday (hm _ (by decide) (by decide)), h.retireDay (hm _ (by decide) (by decide)), h.wearDays (hm _ (by decide) (by decide)), h.retention (hm _ (by decide) (by decide))⟩
theorem HostSt.Keep.same {m : Nat} {a b : HostSt} (h : HostSt.Keep m a b)
    (hm : ∀ i, 132 ≤ i → i < 136 → m.testBit i = false) : b = a := by
  cases a; cases b
  simp only [HostSt.mk.injEq]
  exact ⟨h.rings (hm _ (by decide) (by decide)), h.vecs (hm _ (by decide) (by decide)), h.mills (hm _ (by decide) (by decide)), h.turn (hm _ (by decide) (by decide))⟩
theorem StewardSt.Keep.same {m : Nat} {a b : StewardSt} (h : StewardSt.Keep m a b)
    (hm : ∀ i, 136 ≤ i → i < 141 → m.testBit i = false) : b = a := by
  cases a; cases b
  simp only [StewardSt.mk.injEq]
  exact ⟨h.seqs (hm _ (by decide) (by decide)), h.hooks (hm _ (by decide) (by decide)), h.levels (hm _ (by decide) (by decide)), h.restarting (hm _ (by decide) (by decide)), h.reeveFault (hm _ (by decide) (by decide))⟩
theorem ObsSt.Keep.same {m : Nat} {a b : ObsSt} (h : ObsSt.Keep m a b)
    (hm : ∀ i, 141 ≤ i → i < 152 → m.testBit i = false) : b = a := by
  cases a; cases b
  simp only [ObsSt.mk.injEq]
  exact ⟨h.day (hm _ (by decide) (by decide)), h.srcSeq (hm _ (by decide) (by decide)), h.samples (hm _ (by decide) (by decide)), h.sampleSeq (hm _ (by decide) (by decide)), h.high (hm _ (by decide) (by decide)), h.tally (hm _ (by decide) (by decide)), h.tallyRecs (hm _ (by decide) (by decide)), h.tallySeq (hm _ (by decide) (by decide)), h.books (hm _ (by decide) (by decide)), h.booksDue (hm _ (by decide) (by decide)), h.illegalS (hm _ (by decide) (by decide))⟩

end Sys2Proof.Machine
end

