-- ==== Sys2Proof/Laws/KeepOps.lean ====
section
/-! SUPPORT. What each operation of Machine/Ops.lean may change. -/

set_option linter.unusedTactic false
set_option linter.unreachableTactic false

open Sys2Proof

namespace Sys2Proof.Machine

theorem set_keep (w : Wall) (r : Reg) (v : ℕ) :
    Keep 0x1 w (Wall.set w r v) := by
  unfold Wall.set
  try dsimp only
  repeat' first
    | with_reducible apply Keep.refl
    | with_reducible assumption
    | (with_reducible apply Keep.regsU; (on_goal 2 => decide); (on_goal 2 => intro k))
    | with_reducible apply twf_tputD

theorem setB_keep (w : Wall) (r : Reg) (b : Bool) :
    Keep 0x1 w (Wall.setB w r b) := by
  unfold Wall.setB
  try dsimp only
  repeat' first
    | with_reducible apply Keep.refl
    | (with_reducible apply Keep.step _ (set_keep ..) _; on_goal 2 => decide)

theorem bump_keep (w : Wall) (r : Reg) (n : ℕ) :
    Keep 0x1 w (Wall.bump w r n) := by
  unfold Wall.bump
  try dsimp only
  repeat' first
    | with_reducible apply Keep.refl
    | (with_reducible apply Keep.step _ (set_keep ..) _; on_goal 2 => decide)

theorem bumpSat_keep (w : Wall) (r : Reg) (n : ℕ) :
    Keep 0x1 w (Wall.bumpSat w r n) := by
  unfold Wall.bumpSat
  try dsimp only
  repeat' first
    | with_reducible apply Keep.refl
    | (with_reducible apply Keep.step _ (set_keep ..) _; on_goal 2 => decide)

theorem setI_keep (w : Wall) (r : Reg) (i : ℤ) :
    Keep 0x1 w (Wall.setI w r i) := by
  unfold Wall.setI
  try dsimp only
  repeat' first
    | with_reducible apply Keep.refl
    | (with_reducible apply Keep.step _ (set_keep ..) _; on_goal 2 => decide)

theorem setBitR_keep (w : Wall) (r : Reg) (i : ℕ) :
    Keep 0x1 w (Wall.setBitR w r i) := by
  unfold Wall.setBitR
  try dsimp only
  repeat' first
    | with_reducible apply Keep.refl
    | (with_reducible apply Keep.step _ (set_keep ..) _; on_goal 2 => decide)

theorem clrBitR_keep (w : Wall) (r : Reg) (i : ℕ) :
    Keep 0x1 w (Wall.clrBitR w r i) := by
  unfold Wall.clrBitR
  try dsimp only
  repeat' first
    | with_reducible apply Keep.refl
    | (with_reducible apply Keep.step _ (set_keep ..) _; on_goal 2 => decide)

theorem setWin_keep (w : Wall) (off : ℕ) (d : ℕ) (v : ℕ) :
    Keep 0x2 w (Wall.setWin w off d v) := by
  unfold Wall.setWin
  try dsimp only
  repeat' first
    | with_reducible apply Keep.refl
    | with_reducible assumption
    | (with_reducible apply Keep.winU; (on_goal 2 => decide); (on_goal 2 => intro k))
    | with_reducible apply twf_tputD

theorem setWin64_keep (w : Wall) (off : ℕ) (v : ℕ) :
    Keep 0x2 w (Wall.setWin64 w off v) := by
  unfold Wall.setWin64
  try dsimp only
  repeat' first
    | with_reducible apply Keep.refl
    | (with_reducible apply Keep.step _ (setWin_keep ..) _; on_goal 2 => decide)

theorem emit_keep (w : Wall) (o : Out) :
    Keep 0x200000000000000000000000000000000000000 w (Wall.emit w o) := by
  unfold Wall.emit
  try dsimp only
  repeat' first
    | with_reducible apply Keep.refl
    | (with_reducible apply Keep.outU; on_goal 2 => decide)

theorem took_keep (w : Wall) :
    Keep 0x100000000000000000000000000000000000000 w (Wall.took w) := by
  unfold Wall.took
  try dsimp only
  repeat' first
    | with_reducible apply Keep.refl
    | (with_reducible apply Keep.freeNU; on_goal 2 => decide)

theorem tookN_keep (w : Wall) (n : ℕ) :
    Keep 0x100000000000000000000000000000000000000 w (Wall.tookN w n) := by
  unfold Wall.tookN
  try dsimp only
  repeat' first
    | with_reducible apply Keep.refl
    | (with_reducible apply Keep.freeNU; on_goal 2 => decide)

theorem newDom_keep (key : ℕ) (w : Wall) :
    Keep 0x20000000000 w (newDom key w) := by
  unfold newDom
  try dsimp only
  repeat' first
    | with_reducible apply Keep.refl
    | with_reducible assumption
    | (with_reducible apply Keep.ledU; on_goal 2 => (generalize Wall.led _ = z; revert z; refine id ?_; intro z; refine LedgerSt.Keep.mk .refl .refl .refl .refl .refl (.free (by decide)) .refl .refl .refl .refl .refl .refl .refl .refl .refl .refl .refl (fun ⟨k0, k1, k2, k3, k4, k5⟩ => ?_); constructor <;> dsimp only))
    | with_reducible apply twf_tput

theorem putDom_keep (key : ℕ) (l : List Byte) (w : Wall) :
    Keep 0x60000000000 w (putDom key l w) := by
  unfold putDom
  try dsimp only
  repeat' first
    | with_reducible apply Keep.refl
    | with_reducible assumption
    | (with_reducible apply Keep.step _ (newDom_keep ..) _; on_goal 2 => decide)
    | (with_reducible apply Keep.ledU; on_goal 2 => (generalize Wall.led _ = z; revert z; refine id ?_; intro z; refine LedgerSt.Keep.mk .refl .refl .refl .refl .refl (.free (by decide)) (.free (by decide)) .refl .refl .refl .refl .refl .refl .refl .refl .refl .refl (fun ⟨k0, k1, k2, k3, k4, k5⟩ => ?_); constructor <;> dsimp only))
    | with_reducible apply twf_tput

theorem vecEvent_keep (v : ℕ) (w : Wall) :
    Keep 0x2000000000000000000000000000000000 w (vecEvent v w) := by
  unfold vecEvent
  try dsimp only
  repeat' first
    | with_reducible apply Keep.refl
    | with_reducible assumption
    | (with_reducible apply Keep.hstU; on_goal 2 => (generalize Wall.hst _ = z; revert z; refine id ?_; intro z; refine HostSt.Keep.mk .refl (.free (by decide)) .refl .refl (fun ⟨k0, k1, k2, k3⟩ => ?_); constructor <;> dsimp only))
    | with_reducible apply twf_tput
    | (with_reducible apply Keep.ite <;> intro _)

theorem hostEvent_keep (s : ℕ) (w : Wall) :
    Keep 0x2000000000000000000000000000000001 w (hostEvent s w) := by
  unfold hostEvent
  try dsimp only
  repeat' first
    | with_reducible apply Keep.refl
    | (with_reducible apply Keep.step _ (vecEvent_keep ..) _; on_goal 2 => decide)
    | (with_reducible apply Keep.step _ (bump_keep ..) _; on_goal 2 => decide)

theorem setLatch_keep (u : ℕ) (s : ℕ) (w : Wall) :
    Keep 0x2000000000000000000000000000000001 w (setLatch u s w) := by
  unfold setLatch
  try dsimp only
  repeat' first
    | with_reducible apply Keep.refl
    | with_reducible assumption
    | (with_reducible apply Keep.step _ (hostEvent_keep ..) _; on_goal 2 => decide)
    | (with_reducible apply Keep.step _ (setBitR_keep ..) _; on_goal 2 => decide)
    | (with_reducible apply Keep.when; on_goal 2 => intro _ _)

theorem latch_keep (u : ℕ) (s : ℕ) (w : Wall) :
    Keep 0x2000000000000000000000000000000001 w (latch u s w) := by
  unfold latch
  try dsimp only
  repeat' first
    | with_reducible apply Keep.refl
    | (with_reducible apply Keep.step _ (setLatch_keep ..) _; on_goal 2 => decide)
    | (with_reducible apply Keep.step _ (bump_keep ..) _; on_goal 2 => decide)
    | (with_reducible apply Keep.ite <;> intro _)

theorem level_keep (u : ℕ) (s : ℕ) (high : Bool) (w : Wall) :
    Keep 0x42000000000000000000000000000000001 w (level u s high w) := by
  unfold level
  try dsimp only
  repeat' first
    | with_reducible apply Keep.refl
    | with_reducible assumption
    | (with_reducible apply Keep.step _ (setLatch_keep ..) _; on_goal 2 => decide)
    | (with_reducible apply Keep.when; on_goal 2 => intro _ _)
    | (with_reducible apply Keep.stwU; on_goal 2 => (generalize Wall.stw _ = z; revert z; refine id ?_; intro z; refine StewardSt.Keep.mk .refl .refl (.free (by decide)) .refl .refl (fun ⟨k0, k1, k2, k3⟩ => ?_); constructor <;> dsimp only))
    | with_reducible apply twf_tputD

theorem pulse_keep (u : ℕ) (s : ℕ) (w : Wall) :
    Keep 0x42000000000000000000000000000000001 w (pulse u s w) := by
  unfold pulse
  try dsimp only
  repeat' first
    | with_reducible apply Keep.refl
    | (with_reducible apply Keep.step _ (level_keep ..) _; on_goal 2 => decide)

theorem dayHighWater_keep (before : ℕ) (w : Wall) :
    Keep 0x2000000000000000000000000000000001 w (dayHighWater before w) := by
  unfold dayHighWater
  try dsimp only
  repeat' first
    | with_reducible apply Keep.refl
    | with_reducible assumption
    | (with_reducible apply Keep.step _ (latch_keep ..) _; on_goal 2 => decide)
    | (with_reducible apply Keep.when; on_goal 2 => intro _ _)

theorem daybook_keep (src : ℕ) (code : ℕ) (detail : ℕ) (w : Wall) :
    Keep 0x602000000000000000000000000000000001 w (daybook src code detail w) := by
  unfold daybook
  try dsimp only
  repeat' first
    | with_reducible apply Keep.refl
    | with_reducible assumption
    | (with_reducible apply Keep.step _ (dayHighWater_keep ..) _; on_goal 2 => decide)
    | (with_reducible apply Keep.step _ (bump_keep ..) _; on_goal 2 => decide)
    | (with_reducible apply Keep.obsU; on_goal 2 => (generalize Wall.obs _ = z; revert z; refine id ?_; intro z; refine ObsSt.Keep.mk (.free (by decide)) (.free (by decide)) .refl .refl .refl .refl .refl .refl .refl .refl .refl (fun ⟨k0, k1, k2, k3, k4, k5, k6, k7, k8⟩ => ?_); constructor <;> dsimp only))
    | with_reducible apply twf_tput

theorem closeSession_keep (slot : ℕ) (reason : ℕ) (send : Bool) (w : Wall) :
    Keep 0x200000000000000000000000000090000000000 w (closeSession slot reason send w) := by
  unfold closeSession
  try dsimp only
  repeat' first
    | with_reducible apply Keep.refl
    | with_reducible assumption
    | (with_reducible apply Keep.step _ (emit_keep ..) _; on_goal 2 => decide)
    | (with_reducible apply Keep.when; on_goal 2 => intro _ _)
    | (with_reducible apply Keep.ledU; on_goal 2 => (generalize Wall.led _ = z; revert z; refine id ?_; intro z; refine LedgerSt.Keep.mk .refl .refl .refl .refl (.free (by decide)) .refl .refl (.free (by decide)) .refl .refl .refl .refl .refl .refl .refl .refl .refl (fun ⟨k0, k1, k2, k3, k4, k5⟩ => ?_); constructor <;> dsimp only))
    | with_reducible apply twf_tdel
    | with_reducible apply twf_tfilter
    | split

theorem putSession_keep (slot : ℕ) (s : Session) (w : Wall) :
    Keep 0x80000000000 w (putSession slot s w) := by
  unfold putSession
  try dsimp only
  repeat' first
    | with_reducible apply Keep.refl
    | with_reducible assumption
    | (with_reducible apply Keep.ledU; on_goal 2 => (generalize Wall.led _ = z; revert z; refine id ?_; intro z; refine LedgerSt.Keep.mk .refl .refl .refl .refl .refl .refl .refl (.free (by decide)) .refl .refl .refl .refl .refl .refl .refl .refl .refl (fun ⟨k0, k1, k2, k3, k4, k5⟩ => ?_); constructor <;> dsimp only))
    | with_reducible apply twf_tput

theorem sendEvent_keep (src : ℕ) (code : ℕ) (srcSeq : ℕ) (detail : ℕ) (cls : ℕ) (slot : ℕ) (w : Wall) :
    Keep 0x200000000000000000000000000090000000001 w (sendEvent src code srcSeq detail cls slot w) := by
  unfold sendEvent
  try dsimp only
  repeat' first
    | with_reducible apply Keep.refl
    | (with_reducible apply Keep.step _ (putSession_keep ..) _; on_goal 2 => decide)
    | (with_reducible apply Keep.step _ (closeSession_keep ..) _; on_goal 2 => decide)
    | (with_reducible apply Keep.step _ (bump_keep ..) _; on_goal 2 => decide)
    | (with_reducible apply Keep.step _ (emit_keep ..) _; on_goal 2 => decide)
    | (with_reducible apply Keep.ite <;> intro _)
    | split

theorem deliver_keep (src : ℕ) (code : ℕ) (srcSeq : ℕ) (detail : ℕ) (cls : ℕ) (w : Wall) :
    Keep 0x200000000000000000000000000090000000001 w (deliver src code srcSeq detail cls w) := by
  unfold deliver
  try dsimp only
  repeat' first
    | with_reducible apply Keep.refl
    | with_reducible assumption
    | (with_reducible apply Keep.step _ (sendEvent_keep ..) _; on_goal 2 => decide)
    | (with_reducible apply Keep.upTo; on_goal 2 => intro _ _ _)

theorem eventLatches_keep (src : ℕ) (code : ℕ) (cls : ℕ) (w : Wall) :
    Keep 0x2000000000000000000000000000000001 w (eventLatches src code cls w) := by
  unfold eventLatches
  try dsimp only
  repeat' first
    | with_reducible apply Keep.refl
    | with_reducible assumption
    | (with_reducible apply Keep.step _ (latch_keep ..) _; on_goal 2 => decide)
    | (with_reducible apply Keep.when; on_goal 2 => intro _ _)

theorem raise_keep (src : ℕ) (code : ℕ) (detail : ℕ) (cls : ℕ) (w : Wall) :
    Keep 0x200602000000000000000000000090000000001 w (raise src code detail cls w) := by
  unfold raise
  try dsimp only
  repeat' first
    | with_reducible apply Keep.refl
    | (with_reducible apply Keep.step _ (eventLatches_keep ..) _; on_goal 2 => decide)
    | (with_reducible apply Keep.step _ (daybook_keep ..) _; on_goal 2 => decide)
    | (with_reducible apply Keep.step _ (deliver_keep ..) _; on_goal 2 => decide)

theorem stat_keep (sp : ℕ) (k : ℕ) (n : ℕ) (w : Wall) :
    Keep 0x1 w (stat sp k n w) := by
  unfold stat
  try dsimp only
  repeat' first
    | with_reducible apply Keep.refl
    | (with_reducible apply Keep.step _ (bump_keep ..) _; on_goal 2 => decide)

theorem modTally_keep (sp : ℕ) (f : Tally → Tally) (w : Wall) :
    Keep 0x4000000000000000000000000000000000000 w (modTally sp f w) := by
  unfold modTally
  try dsimp only
  repeat' first
    | with_reducible apply Keep.refl
    | with_reducible assumption
    | (with_reducible apply Keep.obsU; on_goal 2 => (generalize Wall.obs _ = z; revert z; refine id ?_; intro z; refine ObsSt.Keep.mk .refl .refl .refl .refl .refl (.free (by decide)) .refl .refl .refl .refl .refl (fun ⟨k0, k1, k2, k3, k4, k5, k6, k7, k8⟩ => ?_); constructor <;> dsimp only))
    | with_reducible apply twf_tmod

end Sys2Proof.Machine
end

