-- ==== Sys2Proof/Laws/KeepOperands.lean ====
section
/-! SUPPORT. What each operation of Machine/Operands.lean may change. -/

set_option linter.unusedTactic false
set_option linter.unreachableTactic false

open Sys2Proof

namespace Sys2Proof.Machine

theorem setSeq_keep (w : Wall) (u : ℕ) (r : SeqRt) :
    Keep 0x10000000000000000000000000000000000 w (Wall.setSeq w u r) := by
  unfold Wall.setSeq
  try dsimp only
  repeat' first
    | with_reducible apply Keep.refl
    | with_reducible assumption
    | (with_reducible apply Keep.stwU; on_goal 2 => (generalize Wall.stw _ = z; revert z; refine id ?_; intro z; refine StewardSt.Keep.mk (.free (by decide)) .refl .refl .refl .refl (fun ⟨k0, k1, k2, k3⟩ => ?_); constructor <;> dsimp only))
    | with_reducible apply twf_tput

end Sys2Proof.Machine
end

