-- ==== Sys2Proof/Laws/KeepCounters.lean ====
section
/-! SUPPORT. What each operation of Machine/Counters.lean may change. -/

set_option linter.unusedTactic false
set_option linter.unreachableTactic false

open Sys2Proof

namespace Sys2Proof.Machine

theorem takeSample_keep (u : ℕ) (trigger : ℕ) (w : Wall) :
    Keep 0x1802000000000000000000000000000000001 w (takeSample u trigger w) := by
  unfold takeSample
  try dsimp only
  repeat' first
    | with_reducible apply Keep.refl
    | with_reducible assumption
    | (with_reducible apply Keep.step _ (bump_keep ..) _; on_goal 2 => decide)
    | (with_reducible apply Keep.step _ (latch_keep ..) _; on_goal 2 => decide)
    | (with_reducible apply Keep.when; on_goal 2 => intro _ _)
    | (with_reducible apply Keep.obsU; on_goal 2 => (refine ObsSt.Keep.mk .refl .refl (.free (by decide)) (.free (by decide)) .refl .refl .refl .refl .refl .refl .refl (fun ⟨k0, k1, k2, k3, k4, k5, k6, k7, k8⟩ => ?_); constructor <;> dsimp only))
    | with_reducible apply twf_tput
    | (simp only [List.length_append, List.length_singleton]; omega)
    | (with_reducible apply Keep.ite <;> intro _)

theorem counterWrapped_keep (b : ℕ) (k : ℕ) (w : Wall) :
    Keep 0x1802000000000000000000000000000000001 w (counterWrapped b k w) := by
  unfold counterWrapped
  try dsimp only
  repeat' first
    | with_reducible apply Keep.refl
    | with_reducible assumption
    | (with_reducible apply Keep.step _ (takeSample_keep ..) _; on_goal 2 => decide)
    | (with_reducible apply Keep.step _ (latch_keep ..) _; on_goal 2 => decide)
    | (with_reducible apply Keep.step _ (setBitR_keep ..) _; on_goal 2 => decide)
    | (with_reducible apply Keep.when; on_goal 2 => intro _ _)

theorem pcBump_keep (b : ℕ) (k : ℕ) (n : ℕ) (w : Wall) :
    Keep 0x1802000000000000000000000000000000001 w (pcBump b k n w) := by
  unfold pcBump
  try dsimp only
  repeat' first
    | with_reducible apply Keep.refl
    | with_reducible assumption
    | (with_reducible apply Keep.step _ (counterWrapped_keep ..) _; on_goal 2 => decide)
    | (with_reducible apply Keep.step _ (set_keep ..) _; on_goal 2 => decide)
    | (with_reducible apply Keep.when; on_goal 2 => intro _ _)

theorem pcAdd_keep (b : ℕ) (k : ℕ) (n : ℕ) (w : Wall) :
    Keep 0x1802000000000000000000000000000000001 w (pcAdd b k n w) := by
  unfold pcAdd
  try dsimp only
  repeat' first
    | with_reducible apply Keep.refl
    | with_reducible assumption
    | (with_reducible apply Keep.step _ (pcBump_keep ..) _; on_goal 2 => decide)
    | (with_reducible apply Keep.when; on_goal 2 => intro _ _)

theorem pcCount_keep (b : ℕ) (ev : ℕ) (n : ℕ) (sp : Option ℕ) (tc : Option ℕ) (w : Wall) :
    Keep 0x1802000000000000000000000000000000001 w (pcCount b ev n sp tc w) := by
  unfold pcCount
  try dsimp only
  repeat' first
    | with_reducible apply Keep.refl
    | with_reducible assumption
    | (with_reducible apply Keep.step _ (pcAdd_keep ..) _; on_goal 2 => decide)
    | (with_reducible apply Keep.upTo; on_goal 2 => intro _ _ _)
    | (with_reducible apply Keep.when; on_goal 2 => intro _ _)

theorem pcSp_keep (sp : ℕ) (ev : ℕ) (n : ℕ) (tc : Option ℕ) (w : Wall) :
    Keep 0x1802000000000000000000000000000000001 w (pcSp sp ev n tc w) := by
  unfold pcSp
  try dsimp only
  repeat' first
    | with_reducible apply Keep.refl
    | (with_reducible apply Keep.step _ (pcCount_keep ..) _; on_goal 2 => decide)

end Sys2Proof.Machine
end

