-- ==== Sys2Proof/Laws/KeepMicro.lean ====
section
/-! SUPPORT. What each operation of Machine/Micro.lean may change. -/

set_option linter.unusedTactic false
set_option linter.unreachableTactic false

open Sys2Proof

namespace Sys2Proof.Machine

/-- What a microword may change. -/
def MOut.Keep (m : Nat) (w : Wall) : MOut → Prop
  | .next _ _ _ x _ => Machine.Keep m w x
  | .done _ x _ => Machine.Keep m w x
  | .customer _ _ _ x => Machine.Keep m w x
  | .fault _ _ x => Machine.Keep m w x

theorem MOut.Keep.next {m : Nat} {w x : Wall} {p : Nat} {c : List Nat} {r : SeqRt} {k : Nat} (h : Machine.Keep m w x) :
    MOut.Keep m w (.next p c r x k) := h
theorem MOut.Keep.done {m : Nat} {w x : Wall} {r : SeqRt} {k : Nat} (h : Machine.Keep m w x) :
    MOut.Keep m w (.done r x k) := h
theorem MOut.Keep.customer {m : Nat} {w x : Wall} {k p : Nat} {r : SeqRt} (h : Machine.Keep m w x) :
    MOut.Keep m w (.customer k p r x) := h
theorem MOut.Keep.fault {m : Nat} {w x : Wall} {k : Nat} {r : SeqRt} (h : Machine.Keep m w x) :
    MOut.Keep m w (.fault k r x) := h
theorem MOut.Keep.step {m n : Nat} {w x : Wall} {o : MOut} (h : Machine.Keep m w x) (k : MOut.Keep n x o)
    (hm : m ||| n = m) : MOut.Keep m w o := by
  cases o <;> exact Machine.Keep.step h k hm

/-- What a routine may change. -/
def MEnd.Keep (m : Nat) (w : Wall) : MEnd → Prop
  | .done _ x _ => Machine.Keep m w x
  | .customer _ _ _ x => Machine.Keep m w x
  | .fault _ _ x => Machine.Keep m w x

theorem MEnd.Keep.done {m : Nat} {w x : Wall} {r : SeqRt} {k : Nat} (h : Machine.Keep m w x) :
    MEnd.Keep m w (.done r x k) := h
theorem MEnd.Keep.customer {m : Nat} {w x : Wall} {k p : Nat} {r : SeqRt} (h : Machine.Keep m w x) :
    MEnd.Keep m w (.customer k p r x) := h
theorem MEnd.Keep.fault {m : Nat} {w x : Wall} {k : Nat} {r : SeqRt} (h : Machine.Keep m w x) :
    MEnd.Keep m w (.fault k r x) := h
theorem MEnd.Keep.step {m n : Nat} {w x : Wall} {o : MEnd} (h : Machine.Keep m w x) (k : MEnd.Keep n x o)
    (hm : m ||| n = m) : MEnd.Keep m w o := by
  cases o <;> exact Machine.Keep.step h k hm
theorem MOut.Keep.of_next {m : Nat} {w : Wall} {o : MOut} {p : Nat} {c : List Nat} {r : SeqRt} {y : Wall} {k : Nat} (h : MOut.Keep m w o)
    (e : o = .next p c r y k) : Machine.Keep m w y := by subst e; exact h
theorem MOut.Keep.of_done {m : Nat} {w : Wall} {o : MOut} {r : SeqRt} {y : Wall} {k : Nat} (h : MOut.Keep m w o)
    (e : o = .done r y k) : Machine.Keep m w y := by subst e; exact h
theorem MOut.Keep.of_customer {m : Nat} {w : Wall} {o : MOut} {j p : Nat} {r : SeqRt} {y : Wall} (h : MOut.Keep m w o)
    (e : o = .customer j p r y) : Machine.Keep m w y := by subst e; exact h
theorem MOut.Keep.of_fault {m : Nat} {w : Wall} {o : MOut} {k : Nat} {r : SeqRt} {y : Wall} (h : MOut.Keep m w o)
    (e : o = .fault k r y) : Machine.Keep m w y := by subst e; exact h
theorem MEnd.Keep.of_done {m : Nat} {w : Wall} {o : MEnd} {r : SeqRt} {y : Wall} {k : Nat} (h : MEnd.Keep m w o)
    (e : o = .done r y k) : Machine.Keep m w y := by subst e; exact h
theorem MEnd.Keep.of_customer {m : Nat} {w : Wall} {o : MEnd} {j p : Nat} {r : SeqRt} {y : Wall} (h : MEnd.Keep m w o)
    (e : o = .customer j p r y) : Machine.Keep m w y := by subst e; exact h
theorem MEnd.Keep.of_fault {m : Nat} {w : Wall} {o : MEnd} {k : Nat} {r : SeqRt} {y : Wall} (h : MEnd.Keep m w o)
    (e : o = .fault k r y) : Machine.Keep m w y := by subst e; exact h
theorem MOut.Keep.ite {m : Nat} {w : Wall} {x y : MOut} {c : Prop} [Decidable c] (h : c → MOut.Keep m w x)
    (k : ¬ c → MOut.Keep m w y) : MOut.Keep m w (if c then x else y) := by
  split
  · exact h ‹_›
  · exact k ‹_›
theorem MEnd.Keep.ite {m : Nat} {w : Wall} {x y : MEnd} {c : Prop} [Decidable c] (h : c → MEnd.Keep m w x)
    (k : ¬ c → MEnd.Keep m w y) : MEnd.Keep m w (if c then x else y) := by
  split
  · exact h ‹_›
  · exact k ‹_›

theorem doReti_keep (u : ℕ) (r : SeqRt) (w : Wall) :
    Keep 0x10000000000000000000000000000000001 w (doReti u r w) := by
  unfold doReti
  try dsimp only
  repeat' first
    | with_reducible apply Keep.refl
    | (with_reducible apply Keep.step _ (setSeq_keep ..) _; on_goal 2 => decide)
    | (with_reducible apply Keep.step _ (setBitR_keep ..) _; on_goal 2 => decide)
    | (with_reducible apply Keep.step _ (clrBitR_keep ..) _; on_goal 2 => decide)
    | (with_reducible apply Keep.ite <;> intro _)
    | split

theorem ioRead_keep (u : ℕ) (a : ℕ) (r : SeqRt) (w : Wall) :
    Keep 0x100000000000000000000000000000000000000 w (ioRead u a r w).2 := by
  unfold ioRead
  try dsimp only
  repeat' first
    | with_reducible apply Keep.refl
    | (with_reducible apply Keep.step _ (took_keep ..) _; on_goal 2 => decide)
    | split

theorem setEnableWord_keep (u : ℕ) (k : ℕ) (v : ℕ) (w : Wall) :
    Keep 0x1 w (setEnableWord u k v w) := by
  unfold setEnableWord
  try dsimp only
  repeat' first
    | with_reducible apply Keep.refl
    | (with_reducible apply Keep.step _ (set_keep ..) _; on_goal 2 => decide)

theorem ioWrite_keep (u : ℕ) (a : ℕ) (v : ℕ) (r : SeqRt) (w : Wall) :
    Keep 0x200602000000000000000000000090000000001 w (ioWrite u a v r w).2 := by
  unfold ioWrite
  try dsimp only
  repeat' first
    | with_reducible apply Keep.refl
    | (with_reducible apply Keep.step _ (daybook_keep ..) _; on_goal 2 => decide)
    | (with_reducible apply Keep.step _ (setEnableWord_keep ..) _; on_goal 2 => decide)
    | (with_reducible apply Keep.step _ (raise_keep ..) _; on_goal 2 => decide)
    | split

theorem badWord_keep (cust : Bool) (pc : ℕ) (r : SeqRt) (w : Wall) :
    MOut.Keep 0x0 w (badWord cust pc r w) := by
  unfold badWord
  try dsimp only
  repeat' first
    | with_reducible apply Keep.refl
    | with_reducible apply MOut.Keep.customer
    | with_reducible apply MOut.Keep.fault
    | (with_reducible apply MOut.Keep.ite <;> intro _)

theorem microWrite_keep (cust : Bool) (fin : Bool) (pc : ℕ) (cs : List ℕ) (d : ℕ) (v : ℕ) (r : SeqRt) (w : Wall) :
    MOut.Keep 0x100000000000000000000000000000000000000 w (microWrite cust fin pc cs d v r w) := by
  unfold microWrite
  try dsimp only
  repeat' first
    | with_reducible apply Keep.refl
    | (with_reducible apply Keep.step _ (tookN_keep ..) _; on_goal 2 => decide)
    | (with_reducible apply MOut.Keep.step _ (badWord_keep ..) _; on_goal 2 => decide)
    | with_reducible apply MOut.Keep.next
    | with_reducible apply MOut.Keep.done
    | with_reducible apply MOut.Keep.customer
    | (with_reducible apply Keep.ite <;> intro _)
    | (with_reducible apply MOut.Keep.ite <;> intro _)
    | split

theorem microAlu_keep (opr : ℕ) (cust : Bool) (fin : Bool) (pc : ℕ) (cs : List ℕ) (x : ℕ) (r : SeqRt) (w : Wall) :
    MOut.Keep 0x100000000000000000000000000000000000000 w (microAlu opr cust fin pc cs x r w) := by
  unfold microAlu
  try dsimp only
  repeat' first
    | with_reducible apply Keep.refl
    | (with_reducible apply MOut.Keep.step _ (badWord_keep ..) _; on_goal 2 => decide)
    | (with_reducible apply MOut.Keep.step _ (microWrite_keep ..) _; on_goal 2 => decide)
    | with_reducible apply MOut.Keep.next
    | with_reducible apply MOut.Keep.done
    | (with_reducible apply MOut.Keep.ite <;> intro _)
    | split

theorem microGo_keep (u : ℕ) (cust : Bool) (fin : Bool) (pc : ℕ) (target : ℕ) (cs : List ℕ) (r : SeqRt) (w : Wall) (cost : ℕ) :
    MOut.Keep 0x0 w (microGo u cust fin pc target cs r w cost) := by
  unfold microGo
  try dsimp only
  repeat' first
    | with_reducible apply Keep.refl
    | with_reducible apply MOut.Keep.next
    | with_reducible apply MOut.Keep.done
    | with_reducible apply MOut.Keep.customer
    | (with_reducible apply MOut.Keep.ite <;> intro _)

theorem microSeq_keep (u : ℕ) (opr : ℕ) (fin : Bool) (pc : ℕ) (cs : List ℕ) (x : ℕ) (r : SeqRt) (w : Wall) :
    MOut.Keep 0x10000000000000000000000000000000001 w (microSeq u opr fin pc cs x r w) := by
  unfold microSeq
  try dsimp only
  repeat' first
    | with_reducible apply Keep.refl
    | (with_reducible apply Keep.step _ (doReti_keep ..) _; on_goal 2 => decide)
    | with_reducible apply MOut.Keep.next
    | with_reducible apply MOut.Keep.done
    | with_reducible apply MOut.Keep.fault
    | (with_reducible apply MOut.Keep.ite <;> intro _)
    | split

theorem microStep_keep (u : ℕ) (opr : ℕ) (pc : ℕ) (cs : List ℕ) (r : SeqRt) (w : Wall) :
    MOut.Keep 0x300612000000000000000000000090000000001 w (microStep u opr pc cs r w) := by
  unfold microStep
  try dsimp only
  repeat' first
    | with_reducible apply Keep.refl
    | (with_reducible apply MOut.Keep.step _ (badWord_keep ..) _; on_goal 2 => decide)
    | (with_reducible apply Keep.step _ (ioRead_keep ..) _; on_goal 2 => decide)
    | (with_reducible apply MOut.Keep.step _ (microGo_keep ..) _; on_goal 2 => decide)
    | (with_reducible apply Keep.step _ (ioWrite_keep ..) _; on_goal 2 => decide)
    | (with_reducible apply MOut.Keep.step _ (microSeq_keep ..) _; on_goal 2 => decide)
    | (with_reducible apply MOut.Keep.step _ (microWrite_keep ..) _; on_goal 2 => decide)
    | (with_reducible apply MOut.Keep.step _ (microAlu_keep ..) _; on_goal 2 => decide)
    | with_reducible apply MOut.Keep.next
    | with_reducible apply MOut.Keep.done
    | with_reducible apply MOut.Keep.customer
    | with_reducible apply MOut.Keep.fault
    | (with_reducible apply MOut.Keep.ite <;> intro _)
    | split

theorem microRun_keep (u opr limit : Nat) :
    ∀ (fuel used pc : Nat) (cs : List Nat) (r : SeqRt) (w : Wall),
    MEnd.Keep 0x300612000000000000000000000090000000001 w (microRun u opr limit fuel used pc cs r w) := by
  intro fuel
  induction fuel with
  | zero => intros; unfold microRun; split <;> exact Keep.refl
  | succ n ih =>
    intro a4 a5 a6 a7 a8
    unfold microRun
    repeat' first
      | with_reducible apply Keep.refl
      | with_reducible assumption
      | (with_reducible apply Keep.step _ (MOut.Keep.of_next (microStep_keep ..) ‹_›) _; on_goal 2 => decide)
      | (with_reducible apply Keep.step _ (MOut.Keep.of_done (microStep_keep ..) ‹_›) _; on_goal 2 => decide)
      | (with_reducible apply Keep.step _ (MOut.Keep.of_customer (microStep_keep ..) ‹_›) _; on_goal 2 => decide)
      | (with_reducible apply Keep.step _ (MOut.Keep.of_fault (microStep_keep ..) ‹_›) _; on_goal 2 => decide)
      | with_reducible apply MEnd.Keep.done
      | with_reducible apply MEnd.Keep.customer
      | with_reducible apply MEnd.Keep.fault
      | (with_reducible apply MEnd.Keep.step _ (ih ..) _; on_goal 2 => decide)
      | split

end Sys2Proof.Machine
end

