-- ==== Sys2Proof/Laws/KeepStewards.lean ====
section
/-! SUPPORT. What each operation of Machine/Stewards.lean may change. -/

set_option linter.unusedTactic false
set_option linter.unreachableTactic false

open Sys2Proof

namespace Sys2Proof.Machine

theorem completed_keep (u : ℕ) (w : Wall) :
    Keep 0x1812000000000000000000000000000000001 w (completed u w) := by
  unfold completed
  try dsimp only
  repeat' first
    | with_reducible apply Keep.refl
    | (with_reducible apply Keep.step _ (setSeq_keep ..) _; on_goal 2 => decide)
    | (with_reducible apply Keep.step _ (takeSample_keep ..) _; on_goal 2 => decide)
    | (with_reducible apply Keep.step _ (pcCount_keep ..) _; on_goal 2 => decide)
    | (with_reducible apply Keep.ite <;> intro _)

theorem stewardStop_keep (n : ℕ) (cause : ℕ) (w : Wall) :
    Keep 0x92000000000000000000000000000000001 w (stewardStop n cause w) := by
  unfold stewardStop
  try dsimp only
  repeat' first
    | with_reducible apply Keep.refl
    | with_reducible assumption
    | (with_reducible apply Keep.step _ (setSeq_keep ..) _; on_goal 2 => decide)
    | (with_reducible apply Keep.step _ (set_keep ..) _; on_goal 2 => decide)
    | (with_reducible apply Keep.step _ (latch_keep ..) _; on_goal 2 => decide)
    | (with_reducible apply Keep.stwU; on_goal 2 => (generalize Wall.stw _ = z; revert z; refine id ?_; intro z; refine StewardSt.Keep.mk (.free (by decide)) .refl .refl (.free (by decide)) .refl (fun ⟨k0, k1, k2, k3⟩ => ?_); constructor <;> dsimp only))
    | with_reducible apply twf_tput

theorem seqFault_keep (u : ℕ) (cause : ℕ) (w : Wall) :
    Keep 0x192000000000000000000000000000000001 w (seqFault u cause w) := by
  unfold seqFault
  try dsimp only
  repeat' first
    | with_reducible apply Keep.refl
    | with_reducible assumption
    | (with_reducible apply Keep.step _ (stewardStop_keep ..) _; on_goal 2 => decide)
    | (with_reducible apply Keep.stwU; on_goal 2 => (generalize Wall.stw _ = z; revert z; refine id ?_; intro z; refine StewardSt.Keep.mk (.free (by decide)) .refl .refl (.free (by decide)) (.free (by decide)) (fun ⟨k0, k1, k2, k3⟩ => ?_); constructor <;> dsimp only))
    | (with_reducible apply Keep.ite <;> intro _)

theorem runOp_keep (u : ℕ) (op : ℕ) (opr : ℕ) (f : SeqRt → SeqRt) (m : Mode) (w : Wall) :
    Keep 0x1812000000000000000000000000000000001 w (runOp u op opr f m w) := by
  unfold runOp
  try dsimp only
  repeat' first
    | with_reducible apply Keep.refl
    | (with_reducible apply Keep.step _ (setSeq_keep ..) _; on_goal 2 => decide)
    | (with_reducible apply Keep.step _ (completed_keep ..) _; on_goal 2 => decide)
    | (with_reducible apply Keep.ite <;> intro _)

theorem runOpF_keep (u : ℕ) (op : ℕ) (opr : ℕ) (cause : ℕ) (f : SeqRt → Option SeqRt) (m : Mode) (w : Wall) :
    Keep 0x1992000000000000000000000000000000001 w (runOpF u op opr cause f m w) := by
  unfold runOpF
  try dsimp only
  repeat' first
    | with_reducible apply Keep.refl
    | (with_reducible apply Keep.step _ (setSeq_keep ..) _; on_goal 2 => decide)
    | (with_reducible apply Keep.step _ (completed_keep ..) _; on_goal 2 => decide)
    | (with_reducible apply Keep.step _ (seqFault_keep ..) _; on_goal 2 => decide)
    | (with_reducible apply Keep.ite <;> intro _)
    | split

theorem mNop_keep (u : ℕ) (a1 : Mode) (a2 : Wall) :
    Keep 0x1812000000000000000000000000000000001 a2 (mNop u a1 a2) := by
  unfold mNop
  try dsimp only
  repeat' first
    | with_reducible apply Keep.refl
    | (with_reducible apply Keep.step _ (runOp_keep ..) _; on_goal 2 => decide)

theorem mMov_keep (u : ℕ) (d : ℕ) (s : ℕ) (a3 : Mode) (a4 : Wall) :
    Keep 0x1812000000000000000000000000000000001 a4 (mMov u d s a3 a4) := by
  unfold mMov
  try dsimp only
  repeat' first
    | with_reducible apply Keep.refl
    | (with_reducible apply Keep.step _ (runOp_keep ..) _; on_goal 2 => decide)

theorem mLdi_keep (u : ℕ) (i : Byte) (a2 : Mode) (a3 : Wall) :
    Keep 0x1812000000000000000000000000000000001 a3 (mLdi u i a2 a3) := by
  unfold mLdi
  try dsimp only
  repeat' first
    | with_reducible apply Keep.refl
    | (with_reducible apply Keep.step _ (runOp_keep ..) _; on_goal 2 => decide)

theorem mLdh_keep (u : ℕ) (i : Byte) (a2 : Mode) (a3 : Wall) :
    Keep 0x1812000000000000000000000000000000001 a3 (mLdh u i a2 a3) := by
  unfold mLdh
  try dsimp only
  repeat' first
    | with_reducible apply Keep.refl
    | (with_reducible apply Keep.step _ (runOp_keep ..) _; on_goal 2 => decide)

theorem mAdd_keep (u : ℕ) (d : ℕ) (s : ℕ) (a3 : Mode) (a4 : Wall) :
    Keep 0x1812000000000000000000000000000000001 a4 (mAdd u d s a3 a4) := by
  unfold mAdd
  try dsimp only
  repeat' first
    | with_reducible apply Keep.refl
    | (with_reducible apply Keep.step _ (runOp_keep ..) _; on_goal 2 => decide)

theorem mSub_keep (u : ℕ) (d : ℕ) (s : ℕ) (a3 : Mode) (a4 : Wall) :
    Keep 0x1812000000000000000000000000000000001 a4 (mSub u d s a3 a4) := by
  unfold mSub
  try dsimp only
  repeat' first
    | with_reducible apply Keep.refl
    | (with_reducible apply Keep.step _ (runOp_keep ..) _; on_goal 2 => decide)

theorem mAnd_keep (u : ℕ) (d : ℕ) (s : ℕ) (a3 : Mode) (a4 : Wall) :
    Keep 0x1812000000000000000000000000000000001 a4 (mAnd u d s a3 a4) := by
  unfold mAnd
  try dsimp only
  repeat' first
    | with_reducible apply Keep.refl
    | (with_reducible apply Keep.step _ (runOp_keep ..) _; on_goal 2 => decide)

theorem mOr_keep (u : ℕ) (d : ℕ) (s : ℕ) (a3 : Mode) (a4 : Wall) :
    Keep 0x1812000000000000000000000000000000001 a4 (mOr u d s a3 a4) := by
  unfold mOr
  try dsimp only
  repeat' first
    | with_reducible apply Keep.refl
    | (with_reducible apply Keep.step _ (runOp_keep ..) _; on_goal 2 => decide)

theorem mXor_keep (u : ℕ) (d : ℕ) (s : ℕ) (a3 : Mode) (a4 : Wall) :
    Keep 0x1812000000000000000000000000000000001 a4 (mXor u d s a3 a4) := by
  unfold mXor
  try dsimp only
  repeat' first
    | with_reducible apply Keep.refl
    | (with_reducible apply Keep.step _ (runOp_keep ..) _; on_goal 2 => decide)

theorem mShl_keep (u : ℕ) (d : ℕ) (s : ℕ) (a3 : Mode) (a4 : Wall) :
    Keep 0x1812000000000000000000000000000000001 a4 (mShl u d s a3 a4) := by
  unfold mShl
  try dsimp only
  repeat' first
    | with_reducible apply Keep.refl
    | (with_reducible apply Keep.step _ (runOp_keep ..) _; on_goal 2 => decide)

theorem mShr_keep (u : ℕ) (d : ℕ) (s : ℕ) (a3 : Mode) (a4 : Wall) :
    Keep 0x1812000000000000000000000000000000001 a4 (mShr u d s a3 a4) := by
  unfold mShr
  try dsimp only
  repeat' first
    | with_reducible apply Keep.refl
    | (with_reducible apply Keep.step _ (runOp_keep ..) _; on_goal 2 => decide)

theorem mCmp_keep (u : ℕ) (d : ℕ) (s : ℕ) (a3 : Mode) (a4 : Wall) :
    Keep 0x1812000000000000000000000000000000001 a4 (mCmp u d s a3 a4) := by
  unfold mCmp
  try dsimp only
  repeat' first
    | with_reducible apply Keep.refl
    | (with_reducible apply Keep.step _ (runOp_keep ..) _; on_goal 2 => decide)

theorem mAddq_keep (u : ℕ) (d : ℕ) (i : ℕ) (a3 : Mode) (a4 : Wall) :
    Keep 0x1812000000000000000000000000000000001 a4 (mAddq u d i a3 a4) := by
  unfold mAddq
  try dsimp only
  repeat' first
    | with_reducible apply Keep.refl
    | (with_reducible apply Keep.step _ (runOp_keep ..) _; on_goal 2 => decide)

theorem mSubq_keep (u : ℕ) (d : ℕ) (i : ℕ) (a3 : Mode) (a4 : Wall) :
    Keep 0x1812000000000000000000000000000000001 a4 (mSubq u d i a3 a4) := by
  unfold mSubq
  try dsimp only
  repeat' first
    | with_reducible apply Keep.refl
    | (with_reducible apply Keep.step _ (runOp_keep ..) _; on_goal 2 => decide)

theorem mLd_keep (u : ℕ) (d : ℕ) (s : ℕ) (a3 : Mode) (a4 : Wall) :
    Keep 0x1992000000000000000000000000000000001 a4 (mLd u d s a3 a4) := by
  unfold mLd
  try dsimp only
  repeat' first
    | with_reducible apply Keep.refl
    | (with_reducible apply Keep.step _ (runOpF_keep ..) _; on_goal 2 => decide)

theorem mSt_keep (u : ℕ) (d : ℕ) (s : ℕ) (a3 : Mode) (a4 : Wall) :
    Keep 0x1992000000000000000000000000000000001 a4 (mSt u d s a3 a4) := by
  unfold mSt
  try dsimp only
  repeat' first
    | with_reducible apply Keep.refl
    | (with_reducible apply Keep.step _ (runOpF_keep ..) _; on_goal 2 => decide)

theorem mIn_keep (u : ℕ) (d : ℕ) (s : ℕ) (m : Mode) (w : Wall) :
    Keep 0x101812000000000000000000000000000000001 w (mIn u d s m w) := by
  unfold mIn
  try dsimp only
  repeat' first
    | with_reducible apply Keep.refl
    | (with_reducible apply Keep.step _ (setSeq_keep ..) _; on_goal 2 => decide)
    | (with_reducible apply Keep.step _ (ioRead_keep ..) _; on_goal 2 => decide)
    | (with_reducible apply Keep.step _ (completed_keep ..) _; on_goal 2 => decide)
    | (with_reducible apply Keep.ite <;> intro _)

theorem mOut_keep (u : ℕ) (d : ℕ) (s : ℕ) (m : Mode) (w : Wall) :
    Keep 0x201e12000000000000000000000090000000001 w (mOut u d s m w) := by
  unfold mOut
  try dsimp only
  repeat' first
    | with_reducible apply Keep.refl
    | (with_reducible apply Keep.step _ (setSeq_keep ..) _; on_goal 2 => decide)
    | (with_reducible apply Keep.step _ (ioWrite_keep ..) _; on_goal 2 => decide)
    | (with_reducible apply Keep.step _ (completed_keep ..) _; on_goal 2 => decide)
    | (with_reducible apply Keep.ite <;> intro _)

theorem branch_keep (u : ℕ) (op : ℕ) (off : Byte) (cond : SeqRt → Bool) (a4 : Mode) (a5 : Wall) :
    Keep 0x1812000000000000000000000000000000001 a5 (branch u op off cond a4 a5) := by
  unfold branch
  try dsimp only
  repeat' first
    | with_reducible apply Keep.refl
    | (with_reducible apply Keep.step _ (runOp_keep ..) _; on_goal 2 => decide)

theorem mBr_keep (u : ℕ) (off : Byte) (a2 : Mode) (a3 : Wall) :
    Keep 0x1812000000000000000000000000000000001 a3 (mBr u off a2 a3) := by
  unfold mBr
  try dsimp only
  repeat' first
    | with_reducible apply Keep.refl
    | (with_reducible apply Keep.step _ (branch_keep ..) _; on_goal 2 => decide)

theorem mBz_keep (u : ℕ) (off : Byte) (a2 : Mode) (a3 : Wall) :
    Keep 0x1812000000000000000000000000000000001 a3 (mBz u off a2 a3) := by
  unfold mBz
  try dsimp only
  repeat' first
    | with_reducible apply Keep.refl
    | (with_reducible apply Keep.step _ (branch_keep ..) _; on_goal 2 => decide)

theorem mBnz_keep (u : ℕ) (off : Byte) (a2 : Mode) (a3 : Wall) :
    Keep 0x1812000000000000000000000000000000001 a3 (mBnz u off a2 a3) := by
  unfold mBnz
  try dsimp only
  repeat' first
    | with_reducible apply Keep.refl
    | (with_reducible apply Keep.step _ (branch_keep ..) _; on_goal 2 => decide)

theorem mBn_keep (u : ℕ) (off : Byte) (a2 : Mode) (a3 : Wall) :
    Keep 0x1812000000000000000000000000000000001 a3 (mBn u off a2 a3) := by
  unfold mBn
  try dsimp only
  repeat' first
    | with_reducible apply Keep.refl
    | (with_reducible apply Keep.step _ (branch_keep ..) _; on_goal 2 => decide)

theorem mBc_keep (u : ℕ) (off : Byte) (a2 : Mode) (a3 : Wall) :
    Keep 0x1812000000000000000000000000000000001 a3 (mBc u off a2 a3) := by
  unfold mBc
  try dsimp only
  repeat' first
    | with_reducible apply Keep.refl
    | (with_reducible apply Keep.step _ (branch_keep ..) _; on_goal 2 => decide)

theorem mCall_keep (u : ℕ) (off : Byte) (a2 : Mode) (a3 : Wall) :
    Keep 0x1992000000000000000000000000000000001 a3 (mCall u off a2 a3) := by
  unfold mCall
  try dsimp only
  repeat' first
    | with_reducible apply Keep.refl
    | (with_reducible apply Keep.step _ (runOpF_keep ..) _; on_goal 2 => decide)

theorem mRet_keep (u : ℕ) (a1 : Mode) (a2 : Wall) :
    Keep 0x1992000000000000000000000000000000001 a2 (mRet u a1 a2) := by
  unfold mRet
  try dsimp only
  repeat' first
    | with_reducible apply Keep.refl
    | (with_reducible apply Keep.step _ (runOpF_keep ..) _; on_goal 2 => decide)

theorem mJr_keep (u : ℕ) (d : ℕ) (s : ℕ) (a3 : Mode) (a4 : Wall) :
    Keep 0x1812000000000000000000000000000000001 a4 (mJr u d s a3 a4) := by
  unfold mJr
  try dsimp only
  repeat' first
    | with_reducible apply Keep.refl
    | (with_reducible apply Keep.step _ (runOp_keep ..) _; on_goal 2 => decide)

theorem mWait_keep (u : ℕ) (a1 : Mode) (a2 : Wall) :
    Keep 0x1812000000000000000000000000000000001 a2 (mWait u a1 a2) := by
  unfold mWait
  try dsimp only
  repeat' first
    | with_reducible apply Keep.refl
    | (with_reducible apply Keep.step _ (runOp_keep ..) _; on_goal 2 => decide)

theorem mReti_keep (u : ℕ) (m : Mode) (w : Wall) :
    Keep 0x1992000000000000000000000000000000001 w (mReti u m w) := by
  unfold mReti
  try dsimp only
  repeat' first
    | with_reducible apply Keep.refl
    | (with_reducible apply Keep.step _ (setSeq_keep ..) _; on_goal 2 => decide)
    | (with_reducible apply Keep.step _ (doReti_keep ..) _; on_goal 2 => decide)
    | (with_reducible apply Keep.step _ (completed_keep ..) _; on_goal 2 => decide)
    | (with_reducible apply Keep.step _ (seqFault_keep ..) _; on_goal 2 => decide)
    | (with_reducible apply Keep.ite <;> intro _)

theorem mDi_keep (u : ℕ) (a1 : Mode) (a2 : Wall) :
    Keep 0x1812000000000000000000000000000000001 a2 (mDi u a1 a2) := by
  unfold mDi
  try dsimp only
  repeat' first
    | with_reducible apply Keep.refl
    | (with_reducible apply Keep.step _ (runOp_keep ..) _; on_goal 2 => decide)

theorem mEi_keep (u : ℕ) (a1 : Mode) (a2 : Wall) :
    Keep 0x1812000000000000000000000000000000001 a2 (mEi u a1 a2) := by
  unfold mEi
  try dsimp only
  repeat' first
    | with_reducible apply Keep.refl
    | (with_reducible apply Keep.step _ (runOp_keep ..) _; on_goal 2 => decide)

theorem mKick_keep (u : ℕ) (m : Mode) (w : Wall) :
    Keep 0x1812000000000000000000000000000000001 w (mKick u m w) := by
  unfold mKick
  try dsimp only
  repeat' first
    | with_reducible apply Keep.refl
    | (with_reducible apply Keep.step _ (runOp_keep ..) _; on_goal 2 => decide)

theorem mTrap_keep (u : ℕ) (code : Byte) (a2 : Mode) (a3 : Wall) :
    Keep 0x1812000000000000000000000000000000001 a3 (mTrap u code a2 a3) := by
  unfold mTrap
  try dsimp only
  repeat' first
    | with_reducible apply Keep.refl
    | (with_reducible apply Keep.step _ (runOp_keep ..) _; on_goal 2 => decide)

theorem illegal_keep (u : ℕ) (op : ℕ) (opr : ℕ) (w : Wall) :
    Keep 0x200612000000000000000000000090000000001 w (illegal u op opr w) := by
  unfold illegal
  try dsimp only
  repeat' first
    | with_reducible apply Keep.refl
    | (with_reducible apply Keep.step _ (setSeq_keep ..) _; on_goal 2 => decide)
    | (with_reducible apply Keep.step _ (set_keep ..) _; on_goal 2 => decide)
    | (with_reducible apply Keep.step _ (bump_keep ..) _; on_goal 2 => decide)
    | (with_reducible apply Keep.step _ (raise_keep ..) _; on_goal 2 => decide)
    | (with_reducible apply Keep.ite <;> intro _)
    | split

theorem illegalOpcode_keep (u : ℕ) (op : Byte) (opr : Byte) (m : Mode) (w : Wall) :
    Keep 0x201e12000000000000000000000090000000001 w (illegalOpcode u op opr m w) := by
  unfold illegalOpcode
  try dsimp only
  repeat' first
    | with_reducible apply Keep.refl
    | (with_reducible apply Keep.step _ (illegal_keep ..) _; on_goal 2 => decide)
    | (with_reducible apply Keep.step _ (completed_keep ..) _; on_goal 2 => decide)
    | (with_reducible apply Keep.ite <;> intro _)

theorem vendorOpcode_keep (u : ℕ) (op : Byte) (opr : Byte) (m : Mode) (w : Wall) :
    Keep 0x301f92000000000000000000000090000000001 w (vendorOpcode u op opr m w) := by
  unfold vendorOpcode
  try dsimp only
  repeat' first
    | with_reducible apply Keep.refl
    | (with_reducible apply Keep.step _ (setSeq_keep ..) _; on_goal 2 => decide)
    | (with_reducible apply Keep.step _ (illegal_keep ..) _; on_goal 2 => decide)
    | (with_reducible apply Keep.step _ (completed_keep ..) _; on_goal 2 => decide)
    | (with_reducible apply Keep.step _ (seqFault_keep ..) _; on_goal 2 => decide)
    | (with_reducible apply Keep.step _ (MEnd.Keep.of_done (microRun_keep ..) ‹_›) _; on_goal 2 => decide)
    | (with_reducible apply Keep.step _ (MEnd.Keep.of_customer (microRun_keep ..) ‹_›) _; on_goal 2 => decide)
    | (with_reducible apply Keep.step _ (MEnd.Keep.of_fault (microRun_keep ..) ‹_›) _; on_goal 2 => decide)
    | (with_reducible apply Keep.ite <;> intro _)
    | split

theorem customerFault_keep (u : ℕ) (op : ℕ) (kind : ℕ) (pc : ℕ) (before : SeqRt) (r : SeqRt) (w : Wall) :
    Keep 0x200612000000000000000000000090000000001 w (customerFault u op kind pc before r w) := by
  unfold customerFault
  try dsimp only
  repeat' first
    | with_reducible apply Keep.refl
    | with_reducible assumption
    | (with_reducible apply Keep.step _ (setSeq_keep ..) _; on_goal 2 => decide)
    | (with_reducible apply Keep.step _ (setB_keep ..) _; on_goal 2 => decide)
    | (with_reducible apply Keep.step _ (set_keep ..) _; on_goal 2 => decide)
    | (with_reducible apply Keep.step _ (bump_keep ..) _; on_goal 2 => decide)
    | (with_reducible apply Keep.step _ (raise_keep ..) _; on_goal 2 => decide)
    | (with_reducible apply Keep.when; on_goal 2 => intro _ _)

theorem hookBody_keep (u : ℕ) (n : ℕ) (r : SeqRt) (w : Wall) :
    Keep 0x301e12000000000000000000000090000000001 w (hookBody u n r w) := by
  unfold hookBody
  try dsimp only
  repeat' first
    | with_reducible apply Keep.refl
    | (with_reducible apply Keep.step _ (setSeq_keep ..) _; on_goal 2 => decide)
    | (with_reducible apply Keep.step _ (customerFault_keep ..) _; on_goal 2 => decide)
    | (with_reducible apply Keep.step _ (bump_keep ..) _; on_goal 2 => decide)
    | (with_reducible apply Keep.step _ (pcCount_keep ..) _; on_goal 2 => decide)
    | (with_reducible apply Keep.step _ (MEnd.Keep.of_done (microRun_keep ..) ‹_›) _; on_goal 2 => decide)
    | (with_reducible apply Keep.step _ (MEnd.Keep.of_customer (microRun_keep ..) ‹_›) _; on_goal 2 => decide)
    | (with_reducible apply Keep.step _ (MEnd.Keep.of_fault (microRun_keep ..) ‹_›) _; on_goal 2 => decide)
    | (with_reducible apply Keep.ite <;> intro _)
    | split

theorem mHook_keep (u : ℕ) (n : Byte) (m : Mode) (w : Wall) :
    Keep 0x301e12000000000000000000000090000000001 w (mHook u n m w) := by
  unfold mHook
  try dsimp only
  repeat' first
    | with_reducible apply Keep.refl
    | (with_reducible apply Keep.step _ (completed_keep ..) _; on_goal 2 => decide)
    | (with_reducible apply Keep.step _ (hookBody_keep ..) _; on_goal 2 => decide)
    | (with_reducible apply Keep.ite <;> intro _)

theorem bellhouseTake_keep (u : ℕ) (m : Mode) (w : Wall) :
    Keep 0x301f92000000000000000000000090000000001 w (bellhouseTake u m w) := by
  unfold bellhouseTake
  try dsimp only
  repeat' first
    | with_reducible apply Keep.refl
    | with_reducible assumption
    | (with_reducible apply Keep.step _ (setSeq_keep ..) _; on_goal 2 => decide)
    | (with_reducible apply Keep.step _ (clrBitR_keep ..) _; on_goal 2 => decide)
    | (with_reducible apply Keep.step _ (bump_keep ..) _; on_goal 2 => decide)
    | (with_reducible apply Keep.step _ (pcCount_keep ..) _; on_goal 2 => decide)
    | (with_reducible apply Keep.step _ (seqFault_keep ..) _; on_goal 2 => decide)
    | (with_reducible apply Keep.step _ (MEnd.Keep.of_done (microRun_keep ..) ‹_›) _; on_goal 2 => decide)
    | (with_reducible apply Keep.step _ (MEnd.Keep.of_customer (microRun_keep ..) ‹_›) _; on_goal 2 => decide)
    | (with_reducible apply Keep.step _ (MEnd.Keep.of_fault (microRun_keep ..) ‹_›) _; on_goal 2 => decide)
    | (with_reducible apply Keep.when; on_goal 2 => intro _ _)
    | (with_reducible apply Keep.ite <;> intro _)
    | split

theorem holdoffExpiry_keep (u : ℕ) (g : ℕ) (w : Wall) :
    Keep 0x10000000000000000000000000000000000 w (holdoffExpiry u g w) := by
  unfold holdoffExpiry
  try dsimp only
  repeat' first
    | with_reducible apply Keep.refl
    | (with_reducible apply Keep.step _ (setSeq_keep ..) _; on_goal 2 => decide)
    | (with_reducible apply Keep.ite <;> intro _)

theorem routineOverrun_keep (u : ℕ) (m : Mode) (w : Wall) :
    Keep 0x192000000000000000000000000000000001 w (routineOverrun u m w) := by
  unfold routineOverrun
  try dsimp only
  repeat' first
    | with_reducible apply Keep.refl
    | (with_reducible apply Keep.step _ (seqFault_keep ..) _; on_goal 2 => decide)
    | (with_reducible apply Keep.ite <;> intro _)

theorem stewardWatchdog_keep (n : ℕ) (m : Mode) (w : Wall) :
    Keep 0x92000000000000000000000000000000001 w (stewardWatchdog n m w) := by
  unfold stewardWatchdog
  try dsimp only
  repeat' first
    | with_reducible apply Keep.refl
    | (with_reducible apply Keep.step _ (stewardStop_keep ..) _; on_goal 2 => decide)
    | (with_reducible apply Keep.ite <;> intro _)

theorem sequencerTimer_keep (u : ℕ) (t : ℕ) (m : Mode) (w : Wall) :
    Keep 0x2000000000000000000000000000000001 w (sequencerTimer u t m w) := by
  unfold sequencerTimer
  try dsimp only
  repeat' first
    | with_reducible apply Keep.refl
    | (with_reducible apply Keep.step _ (latch_keep ..) _; on_goal 2 => decide)
    | (with_reducible apply Keep.ite <;> intro _)

end Sys2Proof.Machine
end

