-- ==== Sys2Proof/Laws/KeepGranary.lean ====
section
/-! SUPPORT. What each operation of Machine/Granary.lean may change. -/

set_option linter.unusedTactic false
set_option linter.unreachableTactic false

open Sys2Proof

namespace Sys2Proof.Machine

/-- Either bank of an orderly Granary. -/
theorem bankOf_ok {k : Nat} {w : Wall} (h : w.gra.Ok) : twf (bankOf k w) = true := by
  unfold bankOf
  split
  · exact h.bank0
  · exact h.bank1

theorem admitItems_le : ∀ (q l : List CommitItem), q.length ≤ 13 → (admitItems q l).1.length ≤ 13
  | q, [], h => h
  | q, c :: cs, h => by
    unfold admitItems
    split
    · exact admitItems_le _ cs (by simp only [List.length_append, List.length_singleton]; omega)
    · exact h

@[simp] theorem toLe_length : ∀ n v, (toLe n v).length = n
  | 0, _ => rfl
  | n + 1, v => by simp [toLe, toLe_length n]

@[simp] theorem groupOf_length (t k : Nat) (b : Bool) (l : List Nat) (r : Nat) (a : After) (g y : Nat) :
    (groupOf t k b l r a g y).length = l.length := by simp [groupOf]

theorem ledgerBodies_length (n v mark : Nat) : (ledgerBodies (toLe n v) mark).length = max 1 (ceilDiv n 40) := by
  simp [ledgerBodies]

theorem setBank_keep (k : Nat) (t : Tbl SlotCopy) (w : Wall) (h : w.gra.Ok → twf t = true) :
    Keep 0x18000000000000000000000000000 w (setBank k t w) := by
  unfold setBank
  split
  · exact Keep.refl.graU (GranarySt.Keep.mk (.free (by decide)) (.free (by decide)) .refl .refl .refl .refl .refl .refl .refl .refl .refl .refl .refl .refl .refl .refl .refl .refl .refl .refl .refl
      fun k => ⟨h k, k.bank1, k.rows, k.shelf, k.loadedGen, k.retiredToday, k.queue_le, k.bucket_le, k.digest_le⟩)
  · exact Keep.refl.graU (GranarySt.Keep.mk (.free (by decide)) (.free (by decide)) .refl .refl .refl .refl .refl .refl .refl .refl .refl .refl .refl .refl .refl .refl .refl .refl .refl .refl .refl
      fun k => ⟨k.bank0, h k, k.rows, k.shelf, k.loadedGen, k.retiredToday, k.queue_le, k.bucket_le, k.digest_le⟩)

theorem writeBoth_keep (s : ℕ) (c : SlotCopy) (w : Wall) :
    Keep 0x18000000000000000000000000000 w (writeBoth s c w) := by
  unfold writeBoth
  try dsimp only
  repeat' first
    | with_reducible apply Keep.refl
    | with_reducible assumption
    | (with_reducible refine Keep.step ?_ (setBank_keep _ _ _ ?_) (by decide))
    | (with_reducible apply Keep.when; on_goal 2 => intro _ _)
    | (intro k; with_reducible apply twf_tput; exact bankOf_ok k)

theorem eraseRow_keep (r : ℕ) (w : Wall) :
    Keep 0x18000000000000000000000000000 w (eraseRow r w) := by
  unfold eraseRow
  try dsimp only
  repeat' first
    | with_reducible apply Keep.refl
    | with_reducible assumption
    | (with_reducible refine Keep.step ?_ (setBank_keep _ _ _ ?_) (by decide))
    | (with_reducible apply Keep.when; on_goal 2 => intro _ _)
    | (intro k; with_reducible apply twf_tfilter; exact bankOf_ok k)

theorem writeHeaders_keep (f : Header → Header) (w : Wall) :
    Keep 0x60000000000000000000000000000 w (writeHeaders f w) := by
  unfold writeHeaders
  try dsimp only
  repeat' first
    | with_reducible apply Keep.refl
    | with_reducible assumption
    | (with_reducible apply Keep.graU; on_goal 2 => (generalize Wall.gra _ = z; revert z; refine id ?_; intro z; refine GranarySt.Keep.mk .refl .refl (.free (by decide)) (.free (by decide)) .refl .refl .refl .refl .refl .refl .refl .refl .refl .refl .refl .refl .refl .refl .refl .refl .refl (fun ⟨k0, k1, k2, k3, k4, k5, k6, k7, k8⟩ => ?_); constructor <;> dsimp only))

theorem setRow_keep (r : ℕ) (x : Row) (w : Wall) :
    Keep 0x80000000000000000000000000000 w (setRow r x w) := by
  unfold setRow
  try dsimp only
  repeat' first
    | with_reducible apply Keep.refl
    | with_reducible assumption
    | (with_reducible apply Keep.graU; on_goal 2 => (generalize Wall.gra _ = z; revert z; refine id ?_; intro z; refine GranarySt.Keep.mk .refl .refl .refl .refl (.free (by decide)) .refl .refl .refl .refl .refl .refl .refl .refl .refl .refl .refl .refl .refl .refl .refl .refl (fun ⟨k0, k1, k2, k3, k4, k5, k6, k7, k8⟩ => ?_); constructor <;> dsimp only))
    | with_reducible apply twf_tput

theorem pumpQueue_keep (w : Wall) :
    Keep 0x300000000000000000000000000000 w (pumpQueue w) := by
  unfold pumpQueue
  try dsimp only
  repeat' first
    | with_reducible apply Keep.refl
    | with_reducible assumption
    | (with_reducible apply Keep.graU; on_goal 2 => (generalize Wall.gra _ = z; revert z; refine id ?_; intro z; refine GranarySt.Keep.mk .refl .refl .refl .refl .refl (.free (by decide)) (.free (by decide)) .refl .refl .refl .refl .refl .refl .refl .refl .refl .refl .refl .refl .refl .refl (fun ⟨k0, k1, k2, k3, k4, k5, k6, k7, k8⟩ => ?_); constructor <;> dsimp only))
    | (apply admitItems_le; assumption)
    | (with_reducible apply Keep.ite <;> intro _)

theorem askSheaves_keep (l : List CommitItem) (w : Wall) :
    Keep 0x300000000000000000000000000000 w (askSheaves l w) := by
  unfold askSheaves
  try dsimp only
  repeat' first
    | with_reducible apply Keep.refl
    | with_reducible assumption
    | (with_reducible apply Keep.step _ (pumpQueue_keep ..) _; on_goal 2 => decide)
    | (with_reducible apply Keep.graU; on_goal 2 => (generalize Wall.gra _ = z; revert z; refine id ?_; intro z; refine GranarySt.Keep.mk .refl .refl .refl .refl .refl (.free (by decide)) (.free (by decide)) .refl .refl .refl .refl .refl .refl .refl .refl .refl .refl .refl .refl .refl .refl (fun ⟨k0, k1, k2, k3, k4, k5, k6, k7, k8⟩ => ?_); constructor <;> dsimp only))
    | (with_reducible apply Keep.ite <;> intro _)

theorem askRecord_keep (type : ℕ) (key : ℕ) (tomb : Bool) (bodies : List ℕ) (rank : ℕ) (after : After) (w : Wall) :
    Keep 0xb00000000000000000000000000000 w (askRecord type key tomb bodies rank after w) := by
  unfold askRecord
  try dsimp only
  repeat' first
    | with_reducible apply Keep.refl
    | with_reducible assumption
    | (with_reducible apply Keep.step _ (askSheaves_keep ..) _; on_goal 2 => decide)
    | (with_reducible apply Keep.graU; on_goal 2 => (generalize Wall.gra _ = z; revert z; refine id ?_; intro z; refine GranarySt.Keep.mk .refl .refl .refl .refl .refl (.free (by decide)) (.free (by decide)) .refl (.free (by decide)) .refl .refl .refl .refl .refl .refl .refl .refl .refl .refl .refl .refl (fun ⟨k0, k1, k2, k3, k4, k5, k6, k7, k8⟩ => ?_); constructor <;> dsimp only))
    | (with_reducible apply Keep.ite <;> intro _)

theorem askLedger_keep (index : ℕ) (sub : ℕ) (l : List Byte) (after : After) (w : Wall) :
    Keep 0xb00000000000000000000000000000 w (askLedger index sub l after w) := by
  unfold askLedger
  try dsimp only
  repeat' first
    | with_reducible apply Keep.refl
    | (with_reducible apply Keep.step _ (askRecord_keep ..) _; on_goal 2 => decide)

theorem commitReg_keep (r : Reg) (bytes : ℕ) (w : Wall) :
    Keep 0xb00000000000000000000000000000 w (commitReg r bytes w) := by
  unfold commitReg
  try dsimp only
  repeat' first
    | with_reducible apply Keep.refl
    | (with_reducible apply Keep.step _ (askLedger_keep ..) _; on_goal 2 => decide)

theorem digestEntry_keep (src : ℕ) (code : ℕ) (detail : ℕ) (w : Wall) :
    Keep 0xc2b00000000000000000000000000001 w (digestEntry src code detail w) := by
  unfold digestEntry
  try dsimp only
  repeat' first
    | with_reducible apply Keep.refl
    | with_reducible assumption
    | (with_reducible apply Keep.step _ (bump_keep ..) _; on_goal 2 => decide)
    | (with_reducible apply Keep.step _ (askRecord_keep ..) _; on_goal 2 => decide)
    | (with_reducible apply Keep.graU; on_goal 2 => (generalize Wall.gra _ = z; revert z; refine id ?_; intro z; refine GranarySt.Keep.mk .refl .refl .refl .refl .refl (.free (by decide)) (.free (by decide)) .refl (.free (by decide)) .refl (.free (by decide)) .refl .refl .refl .refl (.free (by decide)) (.free (by decide)) .refl .refl .refl .refl (fun ⟨k0, k1, k2, k3, k4, k5, k6, k7, k8⟩ => ?_); constructor <;> dsimp only))
    | omega
    | (with_reducible apply Keep.ite <;> intro _)

theorem digestCommit_keep (b : ℕ) (w : Wall) :
    Keep 0x10000000000000000000020000000001 w (digestCommit b w) := by
  unfold digestCommit
  try dsimp only
  repeat' first
    | with_reducible apply Keep.refl
    | with_reducible assumption
    | (with_reducible apply Keep.step _ (newDom_keep ..) _; on_goal 2 => decide)
    | (with_reducible apply Keep.step _ (set_keep ..) _; on_goal 2 => decide)
    | (with_reducible apply Keep.graU; on_goal 2 => (generalize Wall.gra _ = z; revert z; refine id ?_; intro z; refine GranarySt.Keep.mk .refl .refl .refl .refl .refl .refl .refl .refl .refl .refl .refl .refl .refl (.free (by decide)) .refl .refl .refl .refl .refl .refl .refl (fun ⟨k0, k1, k2, k3, k4, k5, k6, k7, k8⟩ => ?_); constructor <;> dsimp only))
    | (simp only [List.length_drop, List.length_append, List.length_singleton]; omega)

theorem bankFail_keep (k : ℕ) (w : Wall) :
    Keep 0x2006020c2f00000000000000000090000000001 w (bankFail k w) := by
  unfold bankFail
  try dsimp only
  repeat' first
    | with_reducible apply Keep.refl
    | with_reducible assumption
    | (with_reducible apply Keep.step _ (clrBitR_keep ..) _; on_goal 2 => decide)
    | (with_reducible apply Keep.step _ (digestEntry_keep ..) _; on_goal 2 => decide)
    | (with_reducible apply Keep.step _ (raise_keep ..) _; on_goal 2 => decide)
    | (with_reducible apply Keep.graU; on_goal 2 => (generalize Wall.gra _ = z; revert z; refine id ?_; intro z; refine GranarySt.Keep.mk .refl .refl .refl .refl .refl (.free (by decide)) (.free (by decide)) (.free (by decide)) (.free (by decide)) .refl (.free (by decide)) .refl .refl .refl .refl (.free (by decide)) (.free (by decide)) .refl .refl .refl .refl (fun ⟨k0, k1, k2, k3, k4, k5, k6, k7, k8⟩ => ?_); constructor <;> dsimp only))
    | apply Nat.zero_le
    | (with_reducible apply Keep.ite <;> intro _)

theorem askWear_keep (r : ℕ) (w : Wall) :
    Keep 0xb00000000000000000000000000000 w (askWear r w) := by
  unfold askWear
  try dsimp only
  repeat' first
    | with_reducible apply Keep.refl
    | (with_reducible apply Keep.step _ (askRecord_keep ..) _; on_goal 2 => decide)

theorem noteWear_keep (r : ℕ) (w : Wall) :
    Keep 0x1 w (noteWear r w) := by
  unfold noteWear
  try dsimp only
  repeat' first
    | with_reducible apply Keep.refl
    | (with_reducible apply Keep.step _ (set_keep ..) _; on_goal 2 => decide)

theorem moveRow_keep (r : ℕ) (after : After) (w : Wall) :
    Keep 0x300000000000000000000000000000 w (moveRow r after w) := by
  unfold moveRow
  try dsimp only
  repeat' first
    | with_reducible apply Keep.refl
    | (with_reducible apply Keep.step _ (askSheaves_keep ..) _; on_goal 2 => decide)

theorem freeRow_keep (r : ℕ) (w : Wall) :
    Keep 0x80000000000000000000000000000 w (freeRow r w) := by
  unfold freeRow
  try dsimp only
  repeat' first
    | with_reducible apply Keep.refl
    | (with_reducible apply Keep.step _ (setRow_keep ..) _; on_goal 2 => decide)

theorem reclaim_keep (r : ℕ) (w : Wall) :
    Keep 0x380000000000000000000000000000 w (reclaim r w) := by
  unfold reclaim
  try dsimp only
  repeat' first
    | with_reducible apply Keep.refl
    | (with_reducible apply Keep.step _ (moveRow_keep ..) _; on_goal 2 => decide)
    | (with_reducible apply Keep.step _ (freeRow_keep ..) _; on_goal 2 => decide)
    | (with_reducible apply Keep.ite <;> intro _)

theorem reclaimIfFew_keep (w : Wall) :
    Keep 0x380000000000000000000000000000 w (reclaimIfFew w) := by
  unfold reclaimIfFew
  try dsimp only
  repeat' first
    | with_reducible apply Keep.refl
    | (with_reducible apply Keep.step _ (reclaim_keep ..) _; on_goal 2 => decide)
    | (with_reducible apply Keep.ite <;> intro _)
    | split

theorem levelWear_keep (w : Wall) :
    Keep 0x380000000000000000000000000000 w (levelWear w) := by
  unfold levelWear
  try dsimp only
  repeat' first
    | with_reducible apply Keep.refl
    | (with_reducible apply Keep.step _ (reclaim_keep ..) _; on_goal 2 => decide)
    | (with_reducible apply Keep.ite <;> intro _)
    | split

theorem openNew_keep (key : Bool) (w : Wall) :
    Keep 0xb98000000000000000000000000001 w (openNew key w) := by
  unfold openNew
  try dsimp only
  repeat' first
    | with_reducible apply Keep.refl
    | with_reducible assumption
    | (with_reducible apply Keep.step _ (noteWear_keep ..) _; on_goal 2 => decide)
    | (with_reducible apply Keep.step _ (eraseRow_keep ..) _; on_goal 2 => decide)
    | (with_reducible apply Keep.step _ (reclaimIfFew_keep ..) _; on_goal 2 => decide)
    | (with_reducible apply Keep.step _ (levelWear_keep ..) _; on_goal 2 => decide)
    | (with_reducible apply Keep.step _ (setRow_keep ..) _; on_goal 2 => decide)
    | (with_reducible apply Keep.step _ (askWear_keep ..) _; on_goal 2 => decide)
    | (with_reducible apply Keep.when; on_goal 2 => intro _ _)
    | split

theorem retireRow_keep (r : ℕ) (bank : ℕ) (w : Wall) :
    Keep 0x2006023c2fe0000000000000000090000000001 w (retireRow r bank w) := by
  unfold retireRow
  try dsimp only
  repeat' first
    | with_reducible apply Keep.refl
    | with_reducible assumption
    | (with_reducible apply Keep.step _ (setRow_keep ..) _; on_goal 2 => decide)
    | (with_reducible apply Keep.step _ (bump_keep ..) _; on_goal 2 => decide)
    | (with_reducible apply Keep.step _ (bankFail_keep ..) _; on_goal 2 => decide)
    | (with_reducible apply Keep.step _ (writeHeaders_keep ..) _; on_goal 2 => decide)
    | (with_reducible apply Keep.step _ (raise_keep ..) _; on_goal 2 => decide)
    | (with_reducible apply Keep.when; on_goal 2 => intro _ _)
    | (with_reducible apply Keep.graU; on_goal 2 => (generalize Wall.gra _ = z; revert z; refine id ?_; intro z; refine GranarySt.Keep.mk .refl .refl (.free (by decide)) (.free (by decide)) (.free (by decide)) (.free (by decide)) (.free (by decide)) (.free (by decide)) (.free (by decide)) .refl (.free (by decide)) .refl .refl .refl .refl (.free (by decide)) (.free (by decide)) (.free (by decide)) (.free (by decide)) .refl .refl (fun ⟨k0, k1, k2, k3, k4, k5, k6, k7, k8⟩ => ?_); constructor <;> dsimp only))
    | with_reducible apply twf_tput
    | with_reducible apply twf_nil
    | split

theorem appendSheaf_keep (s : Sheaf) (w : Wall) :
    Keep 0xb98000000000000000000000000001 w (appendSheaf s w) := by
  unfold appendSheaf
  try dsimp only
  repeat' first
    | with_reducible apply Keep.refl
    | (with_reducible apply Keep.step _ (setRow_keep ..) _; on_goal 2 => decide)
    | (with_reducible apply Keep.step _ (openNew_keep ..) _; on_goal 2 => decide)
    | (with_reducible apply Keep.step _ (writeBoth_keep ..) _; on_goal 2 => decide)
    | (with_reducible apply Keep.ite <;> intro _)
    | split

theorem readyRow_keep (key : Bool) (w : Wall) :
    Keep 0xb98000000000000000000000000001 w (readyRow key w) := by
  unfold readyRow
  try dsimp only
  repeat' first
    | with_reducible apply Keep.refl
    | (with_reducible apply Keep.step _ (openNew_keep ..) _; on_goal 2 => decide)
    | (with_reducible apply Keep.ite <;> intro _)

theorem writeBad_keep (s : Sheaf) (bank : ℕ) (r : ℕ) (w : Wall) :
    Keep 0x98000000000000000000000000000 w (writeBad s bank r w) := by
  unfold writeBad
  try dsimp only
  repeat' first
    | with_reducible apply Keep.refl
    | with_reducible assumption
    | (with_reducible refine Keep.step ?_ (setBank_keep _ _ _ ?_) (by decide))
    | (with_reducible apply Keep.step _ (setRow_keep ..) _; on_goal 2 => decide)
    | (with_reducible apply Keep.step _ (writeBoth_keep ..) _; on_goal 2 => decide)
    | (with_reducible apply Keep.when; on_goal 2 => intro _ _)
    | (intro k; with_reducible apply twf_tput; exact bankOf_ok k)

theorem badAppend_keep (s : Sheaf) (bank : ℕ) (w : Wall) :
    Keep 0x2006023c2ff8000000000000000090000000001 w (badAppend s bank w) := by
  unfold badAppend
  try dsimp only
  repeat' first
    | with_reducible apply Keep.refl
    | with_reducible assumption
    | (with_reducible apply Keep.step _ (moveRow_keep ..) _; on_goal 2 => decide)
    | (with_reducible apply Keep.step _ (retireRow_keep ..) _; on_goal 2 => decide)
    | (with_reducible apply Keep.step _ (openNew_keep ..) _; on_goal 2 => decide)
    | (with_reducible apply Keep.step _ (latch_keep ..) _; on_goal 2 => decide)
    | (with_reducible apply Keep.step _ (appendSheaf_keep ..) _; on_goal 2 => decide)
    | (with_reducible apply Keep.step _ (readyRow_keep ..) _; on_goal 2 => decide)
    | (with_reducible apply Keep.step _ (writeBad_keep ..) _; on_goal 2 => decide)
    | (with_reducible apply Keep.when; on_goal 2 => intro _ _)
    | (with_reducible apply Keep.ite <;> intro _)
    | split

theorem afterCommit_keep (a : After) (w : Wall) :
    Keep 0x2006023c2fe0000000000000000090000000001 w (afterCommit a w) := by
  unfold afterCommit
  try dsimp only
  repeat' first
    | with_reducible apply Keep.refl
    | with_reducible assumption
    | (with_reducible apply Keep.step _ (retireRow_keep ..) _; on_goal 2 => decide)
    | (with_reducible apply Keep.step _ (freeRow_keep ..) _; on_goal 2 => decide)
    | (with_reducible apply Keep.graU; on_goal 2 => (generalize Wall.gra _ = z; revert z; refine id ?_; intro z; refine GranarySt.Keep.mk .refl .refl (.free (by decide)) (.free (by decide)) (.free (by decide)) (.free (by decide)) (.free (by decide)) (.free (by decide)) (.free (by decide)) .refl (.free (by decide)) .refl .refl .refl .refl (.free (by decide)) (.free (by decide)) (.free (by decide)) (.free (by decide)) .refl .refl (fun ⟨k0, k1, k2, k3, k4, k5, k6, k7, k8⟩ => ?_); constructor <;> dsimp only))
    | split

theorem commitOne_keep (bad : Option (Fin 2)) (w : Wall) :
    Keep 0x2006023d2ff80000000000000000b0000000001 w (commitOne bad w) := by
  unfold commitOne
  try dsimp only
  repeat' first
    | with_reducible apply Keep.refl
    | with_reducible assumption
    | (with_reducible apply Keep.step _ (digestCommit_keep ..) _; on_goal 2 => decide)
    | (with_reducible apply Keep.step _ (badAppend_keep ..) _; on_goal 2 => decide)
    | (with_reducible apply Keep.step _ (pumpQueue_keep ..) _; on_goal 2 => decide)
    | (with_reducible apply Keep.step _ (appendSheaf_keep ..) _; on_goal 2 => decide)
    | (with_reducible apply Keep.step _ (bump_keep ..) _; on_goal 2 => decide)
    | (with_reducible refine Keep.step ?_ (setBank_keep _ _ _ ?_) (by decide))
    | (with_reducible apply Keep.step _ (afterCommit_keep ..) _; on_goal 2 => decide)
    | (with_reducible apply Keep.step _ (latch_keep ..) _; on_goal 2 => decide)
    | (with_reducible apply Keep.graU; on_goal 2 => (generalize Wall.gra _ = z; revert z; refine id ?_; intro z; refine GranarySt.Keep.mk (.free (by decide)) (.free (by decide)) (.free (by decide)) (.free (by decide)) (.free (by decide)) (.free (by decide)) (.free (by decide)) (.free (by decide)) (.free (by decide)) .refl (.free (by decide)) .refl .refl (.free (by decide)) .refl (.free (by decide)) (.free (by decide)) (.free (by decide)) (.free (by decide)) .refl .refl (fun ⟨k0, k1, k2, k3, k4, k5, k6, k7, k8⟩ => ?_); constructor <;> dsimp only))
    | (intro k; with_reducible apply twf_tput; exact bankOf_ok k)
    | exact (List.length_erase_le ..).trans (by assumption)
    | (with_reducible apply Keep.ite <;> intro _)
    | split

theorem sheafCommit_keep (bad : Option (Fin 2)) (m : Mode) (w : Wall) :
    Keep 0x2006023d2ff80000000000000000b0000000001 w (sheafCommit bad m w) := by
  unfold sheafCommit
  try dsimp only
  repeat' first
    | with_reducible apply Keep.refl
    | (with_reducible apply Keep.step _ (commitOne_keep ..) _; on_goal 2 => decide)
    | (with_reducible apply Keep.ite <;> intro _)

theorem drainQueue_keep (w : Wall) :
    Keep 0x2006023d2ff80000000000000000b0000000001 w (drainQueue w) := by
  unfold drainQueue
  try dsimp only
  repeat' first
    | with_reducible apply Keep.refl
    | with_reducible assumption
    | (with_reducible apply Keep.step _ (commitOne_keep ..) _; on_goal 2 => decide)
    | (with_reducible apply Keep.upTo; on_goal 2 => intro _ _ _)
    | (with_reducible apply Keep.ite <;> intro _)

theorem setShut_keep (b : Bool) (w : Wall) :
    Keep 0x40000 w (setShut b w) := by
  unfold setShut
  try dsimp only
  repeat' first
    | with_reducible apply Keep.refl
    | with_reducible assumption
    | (with_reducible apply Keep.bndU; on_goal 2 => (generalize Wall.bnd _ = z; revert z; refine id ?_; intro z; refine BoundarySt.Keep.mk .refl .refl .refl .refl .refl .refl .refl .refl (.free (by decide)) .refl .refl .refl .refl .refl .refl .refl .refl .refl .refl .refl .refl .refl .refl .refl .refl .refl (fun ⟨k0, k1, k2⟩ => ?_); constructor <;> dsimp only))

theorem setInhibit_keep (b : Bool) (w : Wall) :
    Keep 0x80000 w (setInhibit b w) := by
  unfold setInhibit
  try dsimp only
  repeat' first
    | with_reducible apply Keep.refl
    | with_reducible assumption
    | (with_reducible apply Keep.bndU; on_goal 2 => (generalize Wall.bnd _ = z; revert z; refine id ?_; intro z; refine BoundarySt.Keep.mk .refl .refl .refl .refl .refl .refl .refl .refl .refl (.free (by decide)) .refl .refl .refl .refl .refl .refl .refl .refl .refl .refl .refl .refl .refl .refl .refl .refl (fun ⟨k0, k1, k2⟩ => ?_); constructor <;> dsimp only))

theorem serviceGroup_keep (mark : ℕ) (w : Wall) :
    Keep 0xb00000000000000000000000000000 w (serviceGroup mark w) := by
  unfold serviceGroup
  try dsimp only
  repeat' first
    | with_reducible apply Keep.refl
    | (with_reducible apply Keep.step _ (askRecord_keep ..) _; on_goal 2 => decide)

theorem pfailSheaf_keep (w : Wall) :
    Keep 0x900000000000000000000000000000 w (pfailSheaf w) := by
  unfold pfailSheaf
  try dsimp only
  repeat' first
    | with_reducible apply Keep.refl
    | with_reducible assumption
    | (with_reducible apply Keep.graU; on_goal 2 => (refine GranarySt.Keep.mk .refl .refl .refl .refl .refl (.free (by decide)) .refl .refl (.free (by decide)) .refl .refl .refl .refl .refl .refl .refl .refl .refl .refl .refl .refl (fun ⟨k0, k1, k2, k3, k4, k5, k6, k7, k8⟩ => ?_); constructor <;> dsimp only))
    | (rename_i h _; have := not_or.mp h; rw [List.length_append, groupOf_length, ledgerBodies_length]; have e : max 1 (ceilDiv 8 40) = 1 := rfl; omega)
    | (with_reducible apply Keep.ite <;> intro _)

theorem vgranLoss_keep (m : Mode) (w : Wall) :
    Keep 0x420000000000000000000000000000e0001 w (vgranLoss m w) := by
  unfold vgranLoss
  try dsimp only
  repeat' first
    | with_reducible apply Keep.refl
    | with_reducible assumption
    | (with_reducible apply Keep.step _ (level_keep ..) _; on_goal 2 => decide)
    | (with_reducible apply Keep.step _ (setShut_keep ..) _; on_goal 2 => decide)
    | (with_reducible apply Keep.step _ (setInhibit_keep ..) _; on_goal 2 => decide)
    | (with_reducible apply Keep.bndU; on_goal 2 => (generalize Wall.bnd _ = z; revert z; refine id ?_; intro z; refine BoundarySt.Keep.mk .refl .refl .refl .refl .refl .refl .refl (.free (by decide)) (.free (by decide)) (.free (by decide)) .refl .refl .refl .refl .refl .refl .refl .refl .refl .refl .refl .refl .refl .refl .refl .refl (fun ⟨k0, k1, k2⟩ => ?_); constructor <;> dsimp only))
    | (with_reducible apply Keep.ite <;> intro _)

theorem vgranRestored_keep (m : Mode) (w : Wall) :
    Keep 0x420003000000000000000000000000e0001 w (vgranRestored m w) := by
  unfold vgranRestored
  try dsimp only
  repeat' first
    | with_reducible apply Keep.refl
    | with_reducible assumption
    | (with_reducible apply Keep.step _ (level_keep ..) _; on_goal 2 => decide)
    | (with_reducible apply Keep.step _ (pumpQueue_keep ..) _; on_goal 2 => decide)
    | (with_reducible apply Keep.step _ (setShut_keep ..) _; on_goal 2 => decide)
    | (with_reducible apply Keep.step _ (setInhibit_keep ..) _; on_goal 2 => decide)
    | (with_reducible apply Keep.bndU; on_goal 2 => (generalize Wall.bnd _ = z; revert z; refine id ?_; intro z; refine BoundarySt.Keep.mk .refl .refl .refl .refl .refl .refl .refl (.free (by decide)) (.free (by decide)) (.free (by decide)) .refl .refl .refl .refl .refl .refl .refl .refl .refl .refl .refl .refl .refl .refl .refl .refl (fun ⟨k0, k1, k2⟩ => ?_); constructor <;> dsimp only))
    | (with_reducible apply Keep.ite <;> intro _)

theorem vgranFailTimeout_keep (m : Mode) (w : Wall) :
    Keep 0x2006020c2f00000000000000000090000000001 w (vgranFailTimeout m w) := by
  unfold vgranFailTimeout
  try dsimp only
  repeat' first
    | with_reducible apply Keep.refl
    | with_reducible assumption
    | (with_reducible apply Keep.step _ (bankFail_keep ..) _; on_goal 2 => decide)
    | (with_reducible apply Keep.graU; on_goal 2 => (generalize Wall.gra _ = z; revert z; refine id ?_; intro z; refine GranarySt.Keep.mk .refl .refl .refl .refl .refl (.free (by decide)) (.free (by decide)) (.free (by decide)) (.free (by decide)) .refl (.free (by decide)) .refl .refl .refl .refl (.free (by decide)) (.free (by decide)) .refl .refl .refl .refl (fun ⟨k0, k1, k2, k3, k4, k5, k6, k7, k8⟩ => ?_); constructor <;> dsimp only))
    | apply Nat.zero_le
    | (with_reducible apply Keep.ite <;> intro _)

theorem wearProjection_keep (w : Wall) :
    Keep 0x2006024c2b00000000000000000090000000001 w (wearProjection w) := by
  unfold wearProjection
  try dsimp only
  repeat' first
    | with_reducible apply Keep.refl
    | with_reducible assumption
    | (with_reducible apply Keep.step _ (bump_keep ..) _; on_goal 2 => decide)
    | (with_reducible apply Keep.step _ (digestEntry_keep ..) _; on_goal 2 => decide)
    | (with_reducible apply Keep.step _ (commitReg_keep ..) _; on_goal 2 => decide)
    | (with_reducible apply Keep.step _ (set_keep ..) _; on_goal 2 => decide)
    | (with_reducible apply Keep.step _ (raise_keep ..) _; on_goal 2 => decide)
    | (with_reducible apply Keep.graU; on_goal 2 => (generalize Wall.gra _ = z; revert z; refine id ?_; intro z; refine GranarySt.Keep.mk .refl .refl .refl .refl .refl (.free (by decide)) (.free (by decide)) .refl (.free (by decide)) .refl (.free (by decide)) .refl .refl .refl .refl (.free (by decide)) (.free (by decide)) .refl .refl (.free (by decide)) .refl (fun ⟨k0, k1, k2, k3, k4, k5, k6, k7, k8⟩ => ?_); constructor <;> dsimp only))
    | (with_reducible apply Keep.ite <;> intro _)

theorem allowanceRefill_keep (w : Wall) :
    Keep 0x1 w (allowanceRefill w) := by
  unfold allowanceRefill
  try dsimp only
  repeat' first
    | with_reducible apply Keep.refl
    | (with_reducible apply Keep.step _ (set_keep ..) _; on_goal 2 => decide)

theorem digestRefill_keep (w : Wall) :
    Keep 0x40000000000000000000000000000000 w (digestRefill w) := by
  unfold digestRefill
  try dsimp only
  repeat' first
    | with_reducible apply Keep.refl
    | with_reducible assumption
    | (with_reducible apply Keep.graU; on_goal 2 => (generalize Wall.gra _ = z; revert z; refine id ?_; intro z; refine GranarySt.Keep.mk .refl .refl .refl .refl .refl .refl .refl .refl .refl .refl .refl .refl .refl .refl .refl (.free (by decide)) .refl .refl .refl .refl .refl (fun ⟨k0, k1, k2, k3, k4, k5, k6, k7, k8⟩ => ?_); constructor <;> dsimp only))
    | omega

theorem applyDamage_keep (l : List Damage) (w : Wall) :
    Keep 0x18000000000000000000000000000 w (applyDamage l w) := by
  unfold applyDamage
  try dsimp only
  repeat' first
    | with_reducible apply Keep.refl
    | with_reducible assumption
    | (with_reducible refine Keep.step ?_ (setBank_keep _ _ _ ?_) (by decide))
    | (with_reducible apply Keep.foldl; on_goal 2 => intro _ _ _)
    | (intro k; with_reducible apply twf_tput; exact bankOf_ok k)
    | (intro k; with_reducible apply twf_tdel; exact bankOf_ok k)
    | split

theorem benignEvent_keep (s : Sheaf) (w : Wall) :
    Keep 0x200602001000000000000000000090000000001 w (benignEvent s w) := by
  unfold benignEvent
  try dsimp only
  repeat' first
    | with_reducible apply Keep.refl
    | with_reducible assumption
    | (with_reducible apply Keep.step _ (daybook_keep ..) _; on_goal 2 => decide)
    | (with_reducible apply Keep.step _ (raise_keep ..) _; on_goal 2 => decide)
    | (with_reducible apply Keep.graU; on_goal 2 => (generalize Wall.gra _ = z; revert z; refine id ?_; intro z; refine GranarySt.Keep.mk .refl .refl .refl .refl .refl .refl .refl .refl .refl (.free (by decide)) .refl .refl .refl .refl .refl .refl .refl .refl .refl .refl .refl (fun ⟨k0, k1, k2, k3, k4, k5, k6, k7, k8⟩ => ?_); constructor <;> dsimp only))
    | (with_reducible apply Keep.ite <;> intro _)

theorem askRepair_keep (rank : ℕ) (bank : ℕ) (slot : ℕ) (s : Sheaf) (w : Wall) :
    Keep 0x300000000000000000000000000000 w (askRepair rank bank slot s w) := by
  unfold askRepair
  try dsimp only
  repeat' first
    | with_reducible apply Keep.refl
    | (with_reducible apply Keep.step _ (askSheaves_keep ..) _; on_goal 2 => decide)

theorem actJudge_keep (slot : ℕ) (w : Wall) :
    Keep 0x200602001300000000000000000090000000001 w (actJudge slot w) := by
  unfold actJudge
  try dsimp only
  repeat' first
    | with_reducible apply Keep.refl
    | (with_reducible apply Keep.step _ (bump_keep ..) _; on_goal 2 => decide)
    | (with_reducible apply Keep.step _ (askRepair_keep ..) _; on_goal 2 => decide)
    | (with_reducible apply Keep.step _ (raise_keep ..) _; on_goal 2 => decide)
    | (with_reducible apply Keep.step _ (benignEvent_keep ..) _; on_goal 2 => decide)
    | (with_reducible apply Keep.ite <;> intro _)
    | split

theorem scrubRead_keep (slot : ℕ) (damage : List Damage) (m : Mode) (w : Wall) :
    Keep 0x200602001318000000000000000090000000001 w (scrubRead slot damage m w) := by
  unfold scrubRead
  try dsimp only
  repeat' first
    | with_reducible apply Keep.refl
    | (with_reducible apply Keep.step _ (actJudge_keep ..) _; on_goal 2 => decide)
    | (with_reducible apply Keep.step _ (applyDamage_keep ..) _; on_goal 2 => decide)
    | (with_reducible apply Keep.ite <;> intro _)

end Sys2Proof.Machine
end

