-- ==== Sys2Proof/Laws/KeepRespond.lean ====
section
/-! SUPPORT. What each operation of Machine/Respond.lean may change. -/

set_option linter.unusedTactic false
set_option linter.unreachableTactic false

open Sys2Proof

namespace Sys2Proof.Machine

/-- What a write's result may have changed. -/
@[irreducible] def WRes.Keep (m : Nat) (w : Wall) : WRes → Prop
  | .abort _ => True
  | .ok x => Machine.Keep m w x
  | .later _ x => Machine.Keep m w x
  | .held x => Machine.Keep m w x

theorem WRes.Keep.abort {m : Nat} {w : Wall} {a : Nat} : WRes.Keep m w (.abort a) := by unfold WRes.Keep; trivial
theorem WRes.Keep.okI {m : Nat} {w x : Wall} (h : Machine.Keep m w x) : WRes.Keep m w (.ok x) := by unfold WRes.Keep; exact h
theorem WRes.Keep.later {m : Nat} {w x : Wall} {o : WaitFor} (h : Machine.Keep m w x) : WRes.Keep m w (.later o x) := by
  unfold WRes.Keep; exact h
theorem WRes.Keep.held {m : Nat} {w x : Wall} (h : Machine.Keep m w x) : WRes.Keep m w (.held x) := by
  unfold WRes.Keep; exact h
theorem WRes.Keep.of_ok {m : Nat} {w y : Wall} {o : WRes} (h : WRes.Keep m w o) (e : o = .ok y) : Machine.Keep m w y := by
  subst e; unfold WRes.Keep at h; exact h
theorem WRes.Keep.of_later {m : Nat} {w y : Wall} {o : WRes} {p : WaitFor} (h : WRes.Keep m w o) (e : o = .later p y) :
    Machine.Keep m w y := by subst e; unfold WRes.Keep at h; exact h
theorem WRes.Keep.of_held {m : Nat} {w y : Wall} {o : WRes} (h : WRes.Keep m w o) (e : o = .held y) :
    Machine.Keep m w y := by subst e; unfold WRes.Keep at h; exact h
theorem WRes.Keep.step {m n : Nat} {w x : Wall} {o : WRes} (h : Machine.Keep m w x) (k : WRes.Keep n x o)
    (hm : m ||| n = m) : WRes.Keep m w o := by
  cases o with
  | abort a => exact .abort
  | ok y => exact .okI (h.step (k.of_ok rfl) hm)
  | later p y => exact .later (h.step (k.of_later rfl) hm)
  | held y => exact .held (h.step (k.of_held rfl) hm)
theorem WRes.Keep.ite {m : Nat} {w : Wall} {x y : WRes} {c : Prop} [Decidable c] (h : c → WRes.Keep m w x)
    (k : ¬ c → WRes.Keep m w y) : WRes.Keep m w (if c then x else y) := by
  split
  · exact h ‹_›
  · exact k ‹_›

theorem setMbxByte_keep (i : ℕ) (b : Byte) (w : Wall) :
    Keep 0x2 w (setMbxByte i b w) := by
  unfold setMbxByte
  try dsimp only
  repeat' first
    | with_reducible apply Keep.refl
    | (with_reducible apply Keep.step _ (setWin_keep ..) _; on_goal 2 => decide)

theorem setMbxBytes_keep : ∀ (i : Nat) (l : List Byte) (w : Wall), Keep 0x2 w (setMbxBytes i l w)
  | _, [], _ => .refl
  | i, b :: bs, w => Keep.step (Keep.step .refl (setMbxByte_keep i b w) (by decide)) (setMbxBytes_keep (i + 1) bs _) (by decide)

theorem mbxComplete_keep (status : ℕ) (gen : ℕ) (data : Option (List Byte)) (w : Wall) :
    Keep 0x2000000000000000000000000000000003 w (mbxComplete status gen data w) := by
  unfold mbxComplete
  try dsimp only
  repeat' first
    | with_reducible apply Keep.refl
    | (with_reducible apply Keep.step _ (latch_keep ..) _; on_goal 2 => decide)
    | (with_reducible apply Keep.step _ (setWin_keep ..) _; on_goal 2 => decide)
    | (with_reducible apply Keep.step _ (setMbxBytes_keep ..) _; on_goal 2 => decide)
    | (with_reducible apply Keep.ite <;> intro _)
    | split

theorem sessionRespond_keep (slot : ℕ) (id : ℕ) (seq : ℕ) (peer : Peer) (status : ℕ) (gen : ℕ) (data : List Byte) (w : Wall) :
    Keep 0x200000000000000000000000000090000000000 w (sessionRespond slot id seq peer status gen data w) := by
  unfold sessionRespond
  try dsimp only
  repeat' first
    | with_reducible apply Keep.refl
    | (with_reducible apply Keep.step _ (putSession_keep ..) _; on_goal 2 => decide)
    | (with_reducible apply Keep.step _ (closeSession_keep ..) _; on_goal 2 => decide)
    | (with_reducible apply Keep.step _ (emit_keep ..) _; on_goal 2 => decide)
    | (with_reducible apply Keep.ite <;> intro _)
    | split

theorem respondG_keep (who : Who) (status : ℕ) (gen : ℕ) (data : Option (List Byte)) (w : Wall) :
    Keep 0x200002000000000000000000000090000000003 w (respondG who status gen data w) := by
  unfold respondG
  try dsimp only
  repeat' first
    | with_reducible apply Keep.refl
    | with_reducible assumption
    | (with_reducible apply Keep.step _ (bump_keep ..) _; on_goal 2 => decide)
    | (with_reducible apply Keep.step _ (sessionRespond_keep ..) _; on_goal 2 => decide)
    | (with_reducible apply Keep.step _ (mbxComplete_keep ..) _; on_goal 2 => decide)
    | (with_reducible apply Keep.when; on_goal 2 => intro _ _)
    | split

theorem respond_keep (who : Who) (status : ℕ) (data : Option (List Byte)) (w : Wall) :
    Keep 0x200002000000000000000000000090000000003 w (respond who status data w) := by
  unfold respond
  try dsimp only
  repeat' first
    | with_reducible apply Keep.refl
    | (with_reducible apply Keep.step _ (respondG_keep ..) _; on_goal 2 => decide)

theorem deferResponse_keep (who : Who) (role : Role) (on : WaitFor) (w : Wall) :
    Keep 0x4000000000 w (deferResponse who role on w) := by
  unfold deferResponse
  try dsimp only
  repeat' first
    | with_reducible apply Keep.refl
    | with_reducible assumption
    | (with_reducible apply Keep.ledU; on_goal 2 => (generalize Wall.led _ = z; revert z; refine id ?_; intro z; refine LedgerSt.Keep.mk .refl .refl (.free (by decide)) .refl .refl .refl .refl .refl .refl .refl .refl .refl .refl .refl .refl .refl .refl (fun ⟨k0, k1, k2, k3, k4, k5⟩ => ?_); constructor <;> dsimp only))

theorem releaseDeferred_keep (on : WaitFor) (status : ℕ) (data : Option (List Byte)) (w : Wall) :
    Keep 0x200002000000000000000000000094000000003 w (releaseDeferred on status data w) := by
  unfold releaseDeferred
  try dsimp only
  repeat' first
    | with_reducible apply Keep.refl
    | with_reducible assumption
    | (with_reducible apply Keep.step _ (respond_keep ..) _; on_goal 2 => decide)
    | (with_reducible apply Keep.foldl; on_goal 2 => intro _ _ _)
    | (with_reducible apply Keep.ledU; on_goal 2 => (generalize Wall.led _ = z; revert z; refine id ?_; intro z; refine LedgerSt.Keep.mk .refl .refl (.free (by decide)) .refl (.free (by decide)) .refl .refl (.free (by decide)) .refl .refl .refl .refl .refl .refl .refl .refl .refl (fun ⟨k0, k1, k2, k3, k4, k5⟩ => ?_); constructor <;> dsimp only))

theorem setIndicator_keep (who : Who) (b : Bool) (w : Wall) :
    Keep 0x480000000000 w (setIndicator who b w) := by
  unfold setIndicator
  try dsimp only
  repeat' first
    | with_reducible apply Keep.refl
    | with_reducible assumption
    | (with_reducible apply Keep.step _ (putSession_keep ..) _; on_goal 2 => decide)
    | (with_reducible apply Keep.ledU; on_goal 2 => (generalize Wall.led _ = z; revert z; refine id ?_; intro z; refine LedgerSt.Keep.mk .refl .refl .refl .refl .refl .refl .refl (.free (by decide)) .refl .refl (.free (by decide)) .refl .refl .refl .refl .refl .refl (fun ⟨k0, k1, k2, k3, k4, k5⟩ => ?_); constructor <;> dsimp only))
    | (with_reducible apply Keep.ite <;> intro _)
    | split

end Sys2Proof.Machine
end

