-- ==== Sys2Proof/Laws/KeepSecurity.lean ====
section
/-! SUPPORT. What each operation of Machine/Security.lean may change. -/

set_option linter.unusedTactic false
set_option linter.unreachableTactic false

open Sys2Proof

namespace Sys2Proof.Machine

theorem putSa_keep (u : ℕ) (k : ℕ) (s : Sa) (w : Wall) :
    Keep 0x20000000000000000000000000 w (putSa u k s w) := by
  unfold putSa
  try dsimp only
  repeat' first
    | with_reducible apply Keep.refl
    | with_reducible assumption
    | (with_reducible apply Keep.secU; on_goal 2 => (generalize Wall.sec _ = z; revert z; refine id ?_; intro z; refine SecSt.Keep.mk (.free (by decide)) .refl .refl .refl .refl .refl .refl .refl .refl .refl (fun ⟨k0, k1, k2, k3, k4⟩ => ?_); constructor <;> dsimp only))
    | with_reducible apply twf_tput

theorem delSa_keep (u : ℕ) (k : ℕ) (w : Wall) :
    Keep 0x20000000000000000000000000 w (delSa u k w) := by
  unfold delSa
  try dsimp only
  repeat' first
    | with_reducible apply Keep.refl
    | with_reducible assumption
    | (with_reducible apply Keep.secU; on_goal 2 => (generalize Wall.sec _ = z; revert z; refine id ?_; intro z; refine SecSt.Keep.mk (.free (by decide)) .refl .refl .refl .refl .refl .refl .refl .refl .refl (fun ⟨k0, k1, k2, k3, k4⟩ => ?_); constructor <;> dsimp only))
    | with_reducible apply twf_tdel

theorem keepKi_keep (i : ℕ) (w : Wall) :
    Keep 0xb00000000000000000000000000000 w (keepKi i w) := by
  unfold keepKi
  try dsimp only
  repeat' first
    | with_reducible apply Keep.refl
    | (with_reducible apply Keep.step _ (askRecord_keep ..) _; on_goal 2 => decide)
    | split

theorem removeSa_keep (u : ℕ) (k : ℕ) (w : Wall) :
    Keep 0xb00020000000000000000000000001 w (removeSa u k w) := by
  unfold removeSa
  try dsimp only
  repeat' first
    | with_reducible apply Keep.refl
    | with_reducible assumption
    | (with_reducible apply Keep.step _ (keepKi_keep ..) _; on_goal 2 => decide)
    | (with_reducible apply Keep.step _ (delSa_keep ..) _; on_goal 2 => decide)
    | (with_reducible apply Keep.step _ (set_keep ..) _; on_goal 2 => decide)
    | (with_reducible apply Keep.step _ (askRecord_keep ..) _; on_goal 2 => decide)
    | (with_reducible apply Keep.when; on_goal 2 => intro _ _)
    | split

theorem removeAllSas_keep (u : ℕ) (w : Wall) :
    Keep 0xb00020000000000000000000000001 w (removeAllSas u w) := by
  unfold removeAllSas
  try dsimp only
  repeat' first
    | with_reducible apply Keep.refl
    | with_reducible assumption
    | (with_reducible apply Keep.step _ (removeSa_keep ..) _; on_goal 2 => decide)
    | (with_reducible apply Keep.upTo; on_goal 2 => intro _ _ _)

theorem askReservation_keep (u : ℕ) (an : ℕ) (entry : ℕ) (resEnd : ℕ) (w : Wall) :
    ∀ y, (askReservation u an entry resEnd w) = some y → Keep 0x900000000000000000000000000000 w y := by
  intro y h
  unfold askReservation at h
  try dsimp only at h
  repeat' split at h
  all_goals first
    | (cases h <;> repeat' first
      | with_reducible apply Keep.refl
      | with_reducible assumption
      | (with_reducible apply Keep.graU; on_goal 2 => (refine GranarySt.Keep.mk .refl .refl .refl .refl .refl (.free (by decide)) .refl .refl (.free (by decide)) .refl .refl .refl .refl .refl .refl .refl .refl .refl .refl .refl .refl (fun ⟨k0, k1, k2, k3, k4, k5, k6, k7, k8⟩ => ?_); constructor <;> dsimp only))
      | (rename_i h _; have := not_or.mp h; rw [List.length_append, groupOf_length]; simp; omega))

theorem stallEvent_keep (u : ℕ) (an : ℕ) (w : Wall) :
    Keep 0x200602000004000000000000000090000000001 w (stallEvent u an w) := by
  unfold stallEvent
  try dsimp only
  repeat' first
    | with_reducible apply Keep.refl
    | with_reducible assumption
    | (with_reducible apply Keep.step _ (raise_keep ..) _; on_goal 2 => decide)
    | (with_reducible apply Keep.secU; on_goal 2 => (generalize Wall.sec _ = z; revert z; refine id ?_; intro z; refine SecSt.Keep.mk .refl .refl .refl .refl .refl .refl .refl .refl .refl (.free (by decide)) (fun ⟨k0, k1, k2, k3, k4⟩ => ?_); constructor <;> dsimp only))
    | with_reducible apply twf_tput
    | (with_reducible apply Keep.ite <;> intro _)

theorem requestIfLow_keep (u : ℕ) (an : ℕ) (w : Wall) :
    Keep 0x42000900020000000000000000000000001 w (requestIfLow u an w) := by
  unfold requestIfLow
  try dsimp only
  repeat' first
    | with_reducible apply Keep.refl
    | (with_reducible apply Keep.step _ (putSa_keep ..) _; on_goal 2 => decide)
    | (with_reducible apply Keep.step _ (pulse_keep ..) _; on_goal 2 => decide)
    | (with_reducible apply Keep.step _ (askReservation_keep _ _ _ _ _ _ ‹_›) _; on_goal 2 => decide)
    | (with_reducible apply Keep.ite <;> intro _)
    | split

theorem reservationRetry_keep (u : ℕ) (an : ℕ) (w : Wall) :
    Keep 0x42000900020000000000000000000000001 w (reservationRetry u an w) := by
  unfold reservationRetry
  try dsimp only
  repeat' first
    | with_reducible apply Keep.refl
    | (with_reducible apply Keep.step _ (requestIfLow_keep ..) _; on_goal 2 => decide)
    | (with_reducible apply Keep.step _ (putSa_keep ..) _; on_goal 2 => decide)
    | (with_reducible apply Keep.ite <;> intro _)
    | split

theorem showSa_keep (u : ℕ) (k : ℕ) (w : Wall) :
    Keep 0x1 w (showSa u k w) := by
  unfold showSa
  try dsimp only
  repeat' first
    | with_reducible apply Keep.refl
    | (with_reducible apply Keep.step _ (set_keep ..) _; on_goal 2 => decide)
    | split

theorem noteKi_keep (i : ℕ) (resEnd : ℕ) (w : Wall) :
    Keep 0x180000000000000000000000000 w (noteKi i resEnd w) := by
  unfold noteKi
  try dsimp only
  repeat' first
    | with_reducible apply Keep.refl
    | with_reducible assumption
    | (with_reducible apply Keep.secU; on_goal 2 => (generalize Wall.sec _ = z; revert z; refine id ?_; intro z; refine SecSt.Keep.mk .refl .refl (.free (by decide)) (.free (by decide)) .refl .refl .refl .refl .refl .refl (fun ⟨k0, k1, k2, k3, k4⟩ => ?_); constructor <;> dsimp only))
    | with_reducible apply twf_tupd

theorem finishInstall_keep (u : ℕ) (k : ℕ) (w : Wall) :
    Keep 0x200002000000000000000000000094000000003 w (finishInstall u k w) := by
  unfold finishInstall
  try dsimp only
  repeat' first
    | with_reducible apply Keep.refl
    | (with_reducible apply Keep.step _ (releaseDeferred_keep ..) _; on_goal 2 => decide)
    | (with_reducible apply Keep.ite <;> intro _)
    | split

theorem reservationCommit_keep (u : ℕ) (an : ℕ) (w : Wall) :
    Keep 0x200042000d001a0000000000000094000000003 w (reservationCommit u an w) := by
  unfold reservationCommit
  try dsimp only
  repeat' first
    | with_reducible apply Keep.refl
    | with_reducible assumption
    | (with_reducible apply Keep.step _ (noteKi_keep ..) _; on_goal 2 => decide)
    | (with_reducible apply Keep.step _ (requestIfLow_keep ..) _; on_goal 2 => decide)
    | (with_reducible apply Keep.step _ (showSa_keep ..) _; on_goal 2 => decide)
    | (with_reducible apply Keep.step _ (putSa_keep ..) _; on_goal 2 => decide)
    | (with_reducible apply Keep.step _ (finishInstall_keep ..) _; on_goal 2 => decide)
    | (with_reducible apply Keep.graU; on_goal 2 => (generalize Wall.gra _ = z; revert z; refine id ?_; intro z; refine GranarySt.Keep.mk .refl .refl .refl .refl .refl (.free (by decide)) .refl (.free (by decide)) (.free (by decide)) .refl .refl .refl .refl .refl .refl .refl .refl .refl .refl .refl .refl (fun ⟨k0, k1, k2, k3, k4, k5, k6, k7, k8⟩ => ?_); constructor <;> dsimp only))
    | split

theorem putKi_keep (i : ℕ) (e : KiEntry) (w : Wall) :
    Keep 0xb00080000000000000000000000001 w (putKi i e w) := by
  unfold putKi
  try dsimp only
  repeat' first
    | with_reducible apply Keep.refl
    | with_reducible assumption
    | (with_reducible apply Keep.step _ (askRecord_keep ..) _; on_goal 2 => decide)
    | (with_reducible apply Keep.step _ (set_keep ..) _; on_goal 2 => decide)
    | (with_reducible apply Keep.secU; on_goal 2 => (generalize Wall.sec _ = z; revert z; refine id ?_; intro z; refine SecSt.Keep.mk .refl .refl (.free (by decide)) .refl .refl .refl .refl .refl .refl .refl (fun ⟨k0, k1, k2, k3, k4⟩ => ?_); constructor <;> dsimp only))
    | with_reducible apply twf_tput

theorem installSa_keep (u : ℕ) (k : ℕ) (plainOk : Bool) (w : Wall) :
    WRes.Keep 0x200602000b000a0000000000000090000000001 w (installSa u k plainOk w) := by
  unfold installSa
  try dsimp only
  repeat' first
    | with_reducible apply Keep.refl
    | with_reducible assumption
    | (with_reducible apply Keep.step _ (putKi_keep ..) _; on_goal 2 => decide)
    | (with_reducible apply Keep.step _ (showSa_keep ..) _; on_goal 2 => decide)
    | (with_reducible apply Keep.step _ (bump_keep ..) _; on_goal 2 => decide)
    | (with_reducible apply Keep.step _ (set_keep ..) _; on_goal 2 => decide)
    | (with_reducible apply Keep.step _ (putSa_keep ..) _; on_goal 2 => decide)
    | (with_reducible apply Keep.step _ (askRecord_keep ..) _; on_goal 2 => decide)
    | (with_reducible apply Keep.step _ (raise_keep ..) _; on_goal 2 => decide)
    | (with_reducible apply Keep.step _ (askReservation_keep _ _ _ _ _ _ ‹_›) _; on_goal 2 => decide)
    | with_reducible apply WRes.Keep.abort
    | with_reducible apply WRes.Keep.okI
    | with_reducible apply WRes.Keep.later
    | (with_reducible apply Keep.when; on_goal 2 => intro _ _)
    | (with_reducible apply WRes.Keep.ite <;> intro _)
    | split

theorem uninstallSa_keep (u : ℕ) (k : ℕ) (w : Wall) :
    WRes.Keep 0xb00020000000000000000000000001 w (uninstallSa u k w) := by
  unfold uninstallSa
  try dsimp only
  repeat' first
    | with_reducible apply Keep.refl
    | (with_reducible apply Keep.step _ (removeSa_keep ..) _; on_goal 2 => decide)
    | with_reducible apply WRes.Keep.abort
    | with_reducible apply WRes.Keep.okI
    | (with_reducible apply WRes.Keep.ite <;> intro _)

theorem setEncoding_keep (u : ℕ) (an : ℕ) (w : Wall) :
    WRes.Keep 0x1 w (setEncoding u an w) := by
  unfold setEncoding
  try dsimp only
  repeat' first
    | with_reducible apply Keep.refl
    | with_reducible assumption
    | (with_reducible apply Keep.step _ (showSa_keep ..) _; on_goal 2 => decide)
    | (with_reducible apply Keep.step _ (set_keep ..) _; on_goal 2 => decide)
    | with_reducible apply WRes.Keep.abort
    | with_reducible apply WRes.Keep.okI
    | (with_reducible apply Keep.upTo; on_goal 2 => intro _ _ _)
    | (with_reducible apply Keep.ite <;> intro _)
    | (with_reducible apply WRes.Keep.ite <;> intro _)

theorem installKek_keep (k : ℕ) (mailbox : Bool) (l : List Byte) (w : Wall) :
    WRes.Keep 0xb00200000000000000000000000001 w (installKek k mailbox l w) := by
  unfold installKek
  try dsimp only
  repeat' first
    | with_reducible apply Keep.refl
    | with_reducible assumption
    | (with_reducible apply Keep.step _ (set_keep ..) _; on_goal 2 => decide)
    | (with_reducible apply Keep.step _ (askRecord_keep ..) _; on_goal 2 => decide)
    | with_reducible apply WRes.Keep.abort
    | with_reducible apply WRes.Keep.okI
    | (with_reducible apply Keep.secU; on_goal 2 => (generalize Wall.sec _ = z; revert z; refine id ?_; intro z; refine SecSt.Keep.mk .refl .refl .refl .refl (.free (by decide)) .refl .refl .refl .refl .refl (fun ⟨k0, k1, k2, k3, k4⟩ => ?_); constructor <;> dsimp only))
    | with_reducible apply twf_tput
    | (with_reducible apply WRes.Keep.ite <;> intro _)

theorem clearKek_keep (k : ℕ) (w : Wall) :
    Keep 0xb00200000000000000000000000001 w (clearKek k w) := by
  unfold clearKek
  try dsimp only
  repeat' first
    | with_reducible apply Keep.refl
    | with_reducible assumption
    | (with_reducible apply Keep.step _ (set_keep ..) _; on_goal 2 => decide)
    | (with_reducible apply Keep.step _ (askRecord_keep ..) _; on_goal 2 => decide)
    | (with_reducible apply Keep.secU; on_goal 2 => (generalize Wall.sec _ = z; revert z; refine id ?_; intro z; refine SecSt.Keep.mk .refl .refl .refl .refl (.free (by decide)) .refl .refl .refl .refl .refl (fun ⟨k0, k1, k2, k3, k4⟩ => ?_); constructor <;> dsimp only))
    | with_reducible apply twf_tdel

theorem forgetKi_keep (ki : ℕ) (w : Wall) :
    WRes.Keep 0xb00080000000000000000000000001 w (forgetKi ki w) := by
  unfold forgetKi
  try dsimp only
  repeat' first
    | with_reducible apply Keep.refl
    | with_reducible assumption
    | (with_reducible apply Keep.step _ (set_keep ..) _; on_goal 2 => decide)
    | (with_reducible apply Keep.step _ (askRecord_keep ..) _; on_goal 2 => decide)
    | with_reducible apply WRes.Keep.abort
    | with_reducible apply WRes.Keep.okI
    | (with_reducible apply Keep.secU; on_goal 2 => (generalize Wall.sec _ = z; revert z; refine id ?_; intro z; refine SecSt.Keep.mk .refl .refl (.free (by decide)) .refl .refl .refl .refl .refl .refl .refl (fun ⟨k0, k1, k2, k3, k4⟩ => ?_); constructor <;> dsimp only))
    | with_reducible apply twf_tdel
    | (with_reducible apply WRes.Keep.ite <;> intro _)
    | split

theorem takePn_keep (u : ℕ) (an : ℕ) (w : Wall) :
    Keep 0x200642000900020000000000000090000000001 w (takePn u an w) := by
  unfold takePn
  try dsimp only
  repeat' first
    | with_reducible apply Keep.refl
    | with_reducible assumption
    | (with_reducible apply Keep.step _ (requestIfLow_keep ..) _; on_goal 2 => decide)
    | (with_reducible apply Keep.step _ (showSa_keep ..) _; on_goal 2 => decide)
    | (with_reducible apply Keep.step _ (putSa_keep ..) _; on_goal 2 => decide)
    | (with_reducible apply Keep.step _ (raise_keep ..) _; on_goal 2 => decide)
    | (with_reducible apply Keep.when; on_goal 2 => intro _ _)
    | split

theorem enterStall_keep (u : ℕ) (an : ℕ) (w : Wall) :
    Keep 0x200642000904020000000000000090000000001 w (enterStall u an w) := by
  unfold enterStall
  try dsimp only
  repeat' first
    | with_reducible apply Keep.refl
    | (with_reducible apply Keep.step _ (bump_keep ..) _; on_goal 2 => decide)
    | (with_reducible apply Keep.step _ (requestIfLow_keep ..) _; on_goal 2 => decide)
    | (with_reducible apply Keep.step _ (stallEvent_keep ..) _; on_goal 2 => decide)
    | (with_reducible apply Keep.step _ (showSa_keep ..) _; on_goal 2 => decide)
    | (with_reducible apply Keep.step _ (putSa_keep ..) _; on_goal 2 => decide)
    | (with_reducible apply Keep.ite <;> intro _)
    | split

theorem acceptPn_keep (u : ℕ) (k : ℕ) (pn : ℕ) (w : Wall) :
    Keep 0xb00020000000000000000000000001 w (acceptPn u k pn w) := by
  unfold acceptPn
  try dsimp only
  repeat' first
    | with_reducible apply Keep.refl
    | (with_reducible apply Keep.step _ (set_keep ..) _; on_goal 2 => decide)
    | (with_reducible apply Keep.step _ (putSa_keep ..) _; on_goal 2 => decide)
    | (with_reducible apply Keep.step _ (askRecord_keep ..) _; on_goal 2 => decide)
    | (with_reducible apply Keep.ite <;> intro _)
    | split

theorem macsecRx_keep (u : ℕ) (f : List Byte) (w : Wall) :
    Keep 0xb00020000000000000000000000001 w (macsecRx u f w).2 := by
  unfold macsecRx
  try dsimp only
  repeat' first
    | with_reducible apply Keep.refl
    | (with_reducible apply Keep.step _ (stat_keep ..) _; on_goal 2 => decide)
    | (with_reducible apply Keep.step _ (acceptPn_keep ..) _; on_goal 2 => decide)
    | split

theorem dropKeys_keep (cause : ℕ) (w : Wall) :
    Keep 0x2660000000000000000000000000 w (dropKeys cause w) := by
  unfold dropKeys
  try dsimp only
  repeat' first
    | with_reducible apply Keep.refl
    | with_reducible assumption
    | (with_reducible apply Keep.secU; on_goal 2 => (generalize Wall.sec _ = z; revert z; refine id ?_; intro z; refine SecSt.Keep.mk (.free (by decide)) (.free (by decide)) .refl .refl (.free (by decide)) (.free (by decide)) .refl .refl (.free (by decide)) .refl (fun ⟨k0, k1, k2, k3, k4⟩ => ?_); constructor <;> dsimp only))
    | with_reducible apply twf_nil

theorem dropKeySheaves_keep (w : Wall) :
    Keep 0x700000000000000000000000000000 w (dropKeySheaves w) := by
  unfold dropKeySheaves
  try dsimp only
  repeat' first
    | with_reducible apply Keep.refl
    | with_reducible assumption
    | (with_reducible apply Keep.graU; on_goal 2 => (generalize Wall.gra _ = z; revert z; refine id ?_; intro z; refine GranarySt.Keep.mk .refl .refl .refl .refl .refl (.free (by decide)) (.free (by decide)) (.free (by decide)) .refl .refl .refl .refl .refl .refl .refl .refl .refl .refl .refl .refl .refl (fun ⟨k0, k1, k2, k3, k4, k5, k6, k7, k8⟩ => ?_); constructor <;> dsimp only))
    | exact (List.length_filter_le ..).trans (by assumption)

theorem dropSaObjects_keep (w : Wall) :
    Keep 0x1 w (dropSaObjects w) := by
  unfold dropSaObjects
  try dsimp only
  repeat' first
    | with_reducible apply Keep.refl
    | with_reducible assumption
    | (with_reducible apply Keep.regsU; (on_goal 2 => decide); (on_goal 2 => intro k))
    | with_reducible apply twf_tfilter

theorem zeroiseEngines_keep (cause : ℕ) (w : Wall) :
    Keep 0x762660000000000000000000000001 w (zeroiseEngines cause w) := by
  unfold zeroiseEngines
  try dsimp only
  repeat' first
    | with_reducible apply Keep.refl
    | with_reducible assumption
    | (with_reducible apply Keep.step _ (dropKeys_keep ..) _; on_goal 2 => decide)
    | (with_reducible apply Keep.step _ (writeHeaders_keep ..) _; on_goal 2 => decide)
    | (with_reducible apply Keep.step _ (dropSaObjects_keep ..) _; on_goal 2 => decide)
    | (with_reducible apply Keep.step _ (dropKeySheaves_keep ..) _; on_goal 2 => decide)
    | (with_reducible apply Keep.step _ (set_keep ..) _; on_goal 2 => decide)
    | (with_reducible apply Keep.upTo; on_goal 2 => intro _ _ _)
    | (with_reducible apply Keep.ite <;> intro _)

theorem dropKis_keep (w : Wall) :
    Keep 0x2080000000000000000000000000 w (dropKis w) := by
  unfold dropKis
  try dsimp only
  repeat' first
    | with_reducible apply Keep.refl
    | with_reducible assumption
    | (with_reducible apply Keep.secU; on_goal 2 => (generalize Wall.sec _ = z; revert z; refine id ?_; intro z; refine SecSt.Keep.mk .refl .refl (.free (by decide)) .refl .refl .refl .refl .refl (.free (by decide)) .refl (fun ⟨k0, k1, k2, k3, k4⟩ => ?_); constructor <;> dsimp only))
    | with_reducible apply twf_nil

theorem clearZeroLatch_keep (w : Wall) :
    Keep 0x400000 w (clearZeroLatch w) := by
  unfold clearZeroLatch
  try dsimp only
  repeat' first
    | with_reducible apply Keep.refl
    | with_reducible assumption
    | (with_reducible apply Keep.bndU; on_goal 2 => (generalize Wall.bnd _ = z; revert z; refine id ?_; intro z; refine BoundarySt.Keep.mk .refl .refl .refl .refl .refl .refl .refl .refl .refl .refl .refl .refl (.free (by decide)) .refl .refl .refl .refl .refl .refl .refl .refl .refl .refl .refl .refl .refl (fun ⟨k0, k1, k2⟩ => ?_); constructor <;> dsimp only))

theorem zeroiseGranary_keep (cause : ℕ) (w : Wall) :
    Keep 0xbfa080000000000000000000400001 w (zeroiseGranary cause w) := by
  unfold zeroiseGranary
  try dsimp only
  repeat' first
    | with_reducible apply Keep.refl
    | with_reducible assumption
    | (with_reducible apply Keep.step _ (bump_keep ..) _; on_goal 2 => decide)
    | (with_reducible apply Keep.step _ (eraseRow_keep ..) _; on_goal 2 => decide)
    | (with_reducible apply Keep.step _ (writeHeaders_keep ..) _; on_goal 2 => decide)
    | (with_reducible apply Keep.step _ (clearZeroLatch_keep ..) _; on_goal 2 => decide)
    | (with_reducible apply Keep.step _ (dropKis_keep ..) _; on_goal 2 => decide)
    | (with_reducible apply Keep.step _ (setRow_keep ..) _; on_goal 2 => decide)
    | (with_reducible apply Keep.step _ (commitReg_keep ..) _; on_goal 2 => decide)
    | (with_reducible apply Keep.step _ (set_keep ..) _; on_goal 2 => decide)
    | (with_reducible apply Keep.foldl; on_goal 2 => intro _ _ _)

end Sys2Proof.Machine
end

