-- ==== Sys2Proof/Laws/KeepLanes.lean ====
section
/-! SUPPORT. What each operation of Machine/Lanes.lean may change. -/

set_option linter.unusedTactic false
set_option linter.unreachableTactic false

open Sys2Proof

namespace Sys2Proof.Machine

theorem setLane_keep (w : Wall) (l : ℕ) (r : LaneRt) :
    Keep 0x20000000000000 w (Wall.setLane w l r) := by
  unfold Wall.setLane
  try dsimp only
  repeat' first
    | with_reducible apply Keep.refl
    | with_reducible assumption
    | (with_reducible apply Keep.lanU; on_goal 2 => (generalize Wall.lan _ = z; revert z; refine id ?_; intro z; refine LaneSt.Keep.mk (.free (by decide)) .refl .refl .refl .refl .refl .refl .refl (fun ⟨k0, k1, k2, k3, k4, k5, k6⟩ => ?_); constructor <;> dsimp only))
    | with_reducible apply twf_tput

theorem modLane_keep (w : Wall) (l : ℕ) (f : LaneRt → LaneRt) :
    Keep 0x20000000000000 w (Wall.modLane w l f) := by
  unfold Wall.modLane
  try dsimp only
  repeat' first
    | with_reducible apply Keep.refl
    | (with_reducible apply Keep.step _ (setLane_keep ..) _; on_goal 2 => decide)

theorem setGrp_keep (w : Wall) (g : Group) (r : GroupRt) :
    Keep 0x40000000000000 w (Wall.setGrp w g r) := by
  unfold Wall.setGrp
  try dsimp only
  repeat' first
    | with_reducible apply Keep.refl
    | with_reducible assumption
    | (with_reducible apply Keep.lanU; on_goal 2 => (generalize Wall.lan _ = z; revert z; refine id ?_; intro z; refine LaneSt.Keep.mk .refl (.free (by decide)) .refl .refl .refl .refl .refl .refl (fun ⟨k0, k1, k2, k3, k4, k5, k6⟩ => ?_); constructor <;> dsimp only))
    | with_reducible apply twf_tput

theorem setSpSt_keep (sp : ℕ) (v : ℕ) (w : Wall) :
    Keep 0x4000000000000000000000000000000000001 w (setSpSt sp v w) := by
  unfold setSpSt
  try dsimp only
  repeat' first
    | with_reducible apply Keep.refl
    | with_reducible assumption
    | (with_reducible apply Keep.step _ (modTally_keep ..) _; on_goal 2 => decide)
    | (with_reducible apply Keep.step _ (set_keep ..) _; on_goal 2 => decide)
    | (with_reducible apply Keep.when; on_goal 2 => intro _ _)

theorem setUse_keep (l : ℕ) (c : ℕ) (w : Wall) :
    Keep 0x1 w (setUse l c w) := by
  unfold setUse
  try dsimp only
  repeat' first
    | with_reducible apply Keep.refl
    | (with_reducible apply Keep.step _ (set_keep ..) _; on_goal 2 => decide)

theorem eyeEnd_keep (l : ℕ) (st : ℕ) (w : Wall) :
    Keep 0x2000000000000000000000000000000001 w (eyeEnd l st w) := by
  unfold eyeEnd
  try dsimp only
  repeat' first
    | with_reducible apply Keep.refl
    | (with_reducible apply Keep.step _ (set_keep ..) _; on_goal 2 => decide)
    | (with_reducible apply Keep.step _ (latch_keep ..) _; on_goal 2 => decide)

theorem setLaneSt_keep (l : ℕ) (st : ℕ) (w : Wall) :
    Keep 0x2000000000000000000020000000000001 w (setLaneSt l st w) := by
  unfold setLaneSt
  try dsimp only
  repeat' first
    | with_reducible apply Keep.refl
    | with_reducible assumption
    | (with_reducible apply Keep.step _ (eyeEnd_keep ..) _; on_goal 2 => decide)
    | (with_reducible apply Keep.step _ (modLane_keep ..) _; on_goal 2 => decide)
    | (with_reducible apply Keep.step _ (set_keep ..) _; on_goal 2 => decide)
    | (with_reducible apply Keep.when; on_goal 2 => intro _ _)

theorem setGroupSt_keep (g : Group) (st : ℕ) (w : Wall) :
    Keep 0x2000000000000000000020000000000001 w (setGroupSt g st w) := by
  unfold setGroupSt
  try dsimp only
  repeat' first
    | with_reducible apply Keep.refl
    | with_reducible assumption
    | (with_reducible apply Keep.step _ (setLaneSt_keep ..) _; on_goal 2 => decide)
    | (with_reducible apply Keep.step _ (set_keep ..) _; on_goal 2 => decide)
    | (with_reducible apply Keep.foldl; on_goal 2 => intro _ _ _)
    | split

theorem takeSettings_keep (l : ℕ) (w : Wall) :
    Keep 0x1 w (takeSettings l w) := by
  unfold takeSettings
  try dsimp only
  repeat' first
    | with_reducible apply Keep.refl
    | (with_reducible apply Keep.step _ (set_keep ..) _; on_goal 2 => decide)

theorem laneDetect_keep (g : Group) (seed : ℕ) (l : ℕ) (w : Wall) :
    Keep 0x200002000000000000000000020000000000001 w (laneDetect g seed l w) := by
  unfold laneDetect
  try dsimp only
  repeat' first
    | with_reducible apply Keep.refl
    | (with_reducible apply Keep.step _ (setLane_keep ..) _; on_goal 2 => decide)
    | (with_reducible apply Keep.step _ (setLaneSt_keep ..) _; on_goal 2 => decide)
    | (with_reducible apply Keep.step _ (set_keep ..) _; on_goal 2 => decide)
    | (with_reducible apply Keep.step _ (emit_keep ..) _; on_goal 2 => decide)
    | (with_reducible apply Keep.step _ (takeSettings_keep ..) _; on_goal 2 => decide)
    | split

theorem drawSeed_keep (w : Wall) :
    Keep 0x100000000000000000000000000000000000000 w (drawSeed w).2 := by
  unfold drawSeed
  try dsimp only
  repeat' first
    | with_reducible apply Keep.refl
    | (with_reducible apply Keep.step _ (took_keep ..) _; on_goal 2 => decide)

theorem detectAlone_keep (l : ℕ) (w : Wall) :
    Keep 0x300002000000000000000000020000000000001 w (detectAlone l w) := by
  unfold detectAlone
  try dsimp only
  repeat' first
    | with_reducible apply Keep.refl
    | (with_reducible apply Keep.step _ (laneDetect_keep ..) _; on_goal 2 => decide)
    | (with_reducible apply Keep.step _ (drawSeed_keep ..) _; on_goal 2 => decide)
    | split

theorem testStart_keep (l : ℕ) (w : Wall) :
    WRes.Keep 0x2000000000000000000020000000000001 w (testStart l w) := by
  unfold testStart
  try dsimp only
  repeat' first
    | with_reducible apply Keep.refl
    | (with_reducible apply Keep.step _ (setLaneSt_keep ..) _; on_goal 2 => decide)
    | (with_reducible apply Keep.step _ (modLane_keep ..) _; on_goal 2 => decide)
    | (with_reducible apply Keep.step _ (set_keep ..) _; on_goal 2 => decide)
    | (with_reducible apply Keep.step _ (setUse_keep ..) _; on_goal 2 => decide)
    | (with_reducible apply Keep.step _ (takeSettings_keep ..) _; on_goal 2 => decide)
    | with_reducible apply WRes.Keep.abort
    | with_reducible apply WRes.Keep.okI
    | (with_reducible apply WRes.Keep.ite <;> intro _)

theorem testStop_keep (l : ℕ) (w : Wall) :
    Keep 0x2000000000000000000020000000000001 w (testStop l w) := by
  unfold testStop
  try dsimp only
  repeat' first
    | with_reducible apply Keep.refl
    | (with_reducible apply Keep.step _ (setLaneSt_keep ..) _; on_goal 2 => decide)
    | (with_reducible apply Keep.step _ (setUse_keep ..) _; on_goal 2 => decide)
    | (with_reducible apply Keep.step _ (modLane_keep ..) _; on_goal 2 => decide)
    | (with_reducible apply Keep.step _ (set_keep ..) _; on_goal 2 => decide)
    | split

theorem prbsClear_keep (l : ℕ) (w : Wall) :
    Keep 0x1 w (prbsClear l w) := by
  unfold prbsClear
  try dsimp only
  repeat' first
    | with_reducible apply Keep.refl
    | (with_reducible apply Keep.step _ (set_keep ..) _; on_goal 2 => decide)

theorem prbsCheck_keep (l : ℕ) (gained : Bool) (bits : ℕ) (errors : ℕ) (w : Wall) :
    Keep 0x1 w (prbsCheck l gained bits errors w) := by
  unfold prbsCheck
  try dsimp only
  repeat' first
    | with_reducible apply Keep.refl
    | with_reducible assumption
    | (with_reducible apply Keep.step _ (bump_keep ..) _; on_goal 2 => decide)
    | (with_reducible apply Keep.step _ (setB_keep ..) _; on_goal 2 => decide)
    | (with_reducible apply Keep.when; on_goal 2 => intro _ _)
    | (with_reducible apply Keep.ite <;> intro _)

theorem eyeStart_keep (l : ℕ) (v : ℕ) (w : Wall) :
    WRes.Keep 0x20000000000001 w (eyeStart l v w) := by
  unfold eyeStart
  try dsimp only
  repeat' first
    | with_reducible apply Keep.refl
    | (with_reducible apply Keep.step _ (modLane_keep ..) _; on_goal 2 => decide)
    | (with_reducible apply Keep.step _ (set_keep ..) _; on_goal 2 => decide)
    | with_reducible apply WRes.Keep.abort
    | with_reducible apply WRes.Keep.okI
    | (with_reducible apply WRes.Keep.ite <;> intro _)

theorem eyeDone_keep (l : ℕ) (counts : List ℕ) (w : Wall) :
    Keep 0x2000000000000000000000060000000001 w (eyeDone l counts w) := by
  unfold eyeDone
  try dsimp only
  repeat' first
    | with_reducible apply Keep.refl
    | (with_reducible apply Keep.step _ (eyeEnd_keep ..) _; on_goal 2 => decide)
    | (with_reducible apply Keep.step _ (set_keep ..) _; on_goal 2 => decide)
    | (with_reducible apply Keep.step _ (putDom_keep ..) _; on_goal 2 => decide)
    | (with_reducible apply Keep.ite <;> intro _)

theorem eyeResume_keep (l : ℕ) (w : Wall) :
    Keep 0x1 w (eyeResume l w) := by
  unfold eyeResume
  try dsimp only
  repeat' first
    | with_reducible apply Keep.refl
    | (with_reducible apply Keep.step _ (set_keep ..) _; on_goal 2 => decide)
    | (with_reducible apply Keep.ite <;> intro _)

theorem eyeAbort_keep (l : ℕ) (w : Wall) :
    Keep 0x2000000000000000000000000000000001 w (eyeAbort l w) := by
  unfold eyeAbort
  try dsimp only
  repeat' first
    | with_reducible apply Keep.refl
    | (with_reducible apply Keep.step _ (eyeEnd_keep ..) _; on_goal 2 => decide)
    | (with_reducible apply Keep.ite <;> intro _)

theorem eyeSuspend_keep (l : ℕ) (w : Wall) :
    Keep 0x1 w (eyeSuspend l w) := by
  unfold eyeSuspend
  try dsimp only
  repeat' first
    | with_reducible apply Keep.refl
    | (with_reducible apply Keep.step _ (set_keep ..) _; on_goal 2 => decide)
    | (with_reducible apply Keep.ite <;> intro _)

theorem fieldMove_keep (f : ℕ) (up : Bool) (w : Wall) :
    Keep 0x602000000000000000000000000000000001 w (fieldMove f up w) := by
  unfold fieldMove
  try dsimp only
  repeat' first
    | with_reducible apply Keep.refl
    | (with_reducible apply Keep.step _ (daybook_keep ..) _; on_goal 2 => decide)
    | (with_reducible apply Keep.step _ (latch_keep ..) _; on_goal 2 => decide)
    | (with_reducible apply Keep.step _ (setB_keep ..) _; on_goal 2 => decide)

theorem fieldUp_keep (f : ℕ) (m : Mode) (w : Wall) :
    Keep 0x602000000000000000000000000000000001 w (fieldUp f m w) := by
  unfold fieldUp
  try dsimp only
  repeat' first
    | with_reducible apply Keep.refl
    | (with_reducible apply Keep.step _ (fieldMove_keep ..) _; on_goal 2 => decide)
    | (with_reducible apply Keep.ite <;> intro _)

theorem fieldDown_keep (f : ℕ) (w : Wall) :
    Keep 0x602000000000000000000000000000000001 w (fieldDown f w) := by
  unfold fieldDown
  try dsimp only
  repeat' first
    | with_reducible apply Keep.refl
    | (with_reducible apply Keep.step _ (fieldMove_keep ..) _; on_goal 2 => decide)
    | (with_reducible apply Keep.step _ (bump_keep ..) _; on_goal 2 => decide)
    | (with_reducible apply Keep.ite <;> intro _)

theorem fieldRestart_keep (w : Wall) :
    Keep 0x602000000000000000000000000000000001 w (fieldRestart w) := by
  unfold fieldRestart
  try dsimp only
  repeat' first
    | with_reducible apply Keep.refl
    | (with_reducible apply Keep.step _ (fieldDown_keep ..) _; on_goal 2 => decide)

end Sys2Proof.Machine
end

