-- ==== Sys2Proof/Laws/KeepRings.lean ====
section
/-! SUPPORT. What each operation of Machine/Rings.lean may change. -/

set_option linter.unusedTactic false
set_option linter.unreachableTactic false

open Sys2Proof

namespace Sys2Proof.Machine

theorem setRingStatus_keep (k : ℕ) (v : ℕ) (w : Wall) :
    Keep 0x2 w (setRingStatus k v w) := by
  unfold setRingStatus
  try dsimp only
  repeat' first
    | with_reducible apply Keep.refl
    | (with_reducible apply Keep.step _ (setWin_keep ..) _; on_goal 2 => decide)

theorem bump64_keep (off : ℕ) (n : ℕ) (w : Wall) :
    Keep 0x2 w (bump64 off n w) := by
  unfold bump64
  try dsimp only
  repeat' first
    | with_reducible apply Keep.refl
    | (with_reducible apply Keep.step _ (setWin64_keep ..) _; on_goal 2 => decide)

theorem setRing_keep (w : Wall) (k : ℕ) (r : RingRt) :
    Keep 0x1000000000000000000000000000000000 w (Wall.setRing w k r) := by
  unfold Wall.setRing
  try dsimp only
  repeat' first
    | with_reducible apply Keep.refl
    | with_reducible assumption
    | (with_reducible apply Keep.hstU; on_goal 2 => (generalize Wall.hst _ = z; revert z; refine id ?_; intro z; refine HostSt.Keep.mk (.free (by decide)) .refl .refl .refl (fun ⟨k0, k1, k2, k3⟩ => ?_); constructor <;> dsimp only))
    | with_reducible apply twf_tput

theorem ringError_keep (k : ℕ) (cause : ℕ) (w : Wall) :
    Keep 0x2000000000000000000000000000000003 w (ringError k cause w) := by
  unfold ringError
  try dsimp only
  repeat' first
    | with_reducible apply Keep.refl
    | (with_reducible apply Keep.step _ (setRingStatus_keep ..) _; on_goal 2 => decide)
    | (with_reducible apply Keep.step _ (latch_keep ..) _; on_goal 2 => decide)

theorem hostWrite_keep : ∀ (n a : Nat) (l : List Byte) (w : Wall), Keep 0x200000000000000000000000000000000000000 w (hostWrite n a l w)
  | 0, _, _, _ => .refl
  | _ + 1, _, [], _ => .refl
  | n + 1, a, b :: l, w => Keep.step (Keep.step .refl (emit_keep ..) (by decide)) (hostWrite_keep n (a + 256) _ _) (by decide)

theorem writeHost_keep (a : ℕ) (l : List Byte) (w : Wall) :
    Keep 0x200000000000000000000000000000000000000 w (writeHost a l w) := by
  unfold writeHost
  try dsimp only
  repeat' first
    | with_reducible apply Keep.refl
    | (with_reducible apply Keep.step _ (hostWrite_keep ..) _; on_goal 2 => decide)

theorem issueRead_keep (u : ReadUse) (a : ℕ) (len : ℕ) (w : Wall) :
    Keep 0x200000000000000000000000000000004000001 w (issueRead u a len w) := by
  unfold issueRead
  try dsimp only
  repeat' first
    | with_reducible apply Keep.refl
    | with_reducible assumption
    | (with_reducible apply Keep.step _ (bump_keep ..) _; on_goal 2 => decide)
    | (with_reducible apply Keep.step _ (emit_keep ..) _; on_goal 2 => decide)
    | (with_reducible apply Keep.bndU; on_goal 2 => (generalize Wall.bnd _ = z; revert z; refine id ?_; intro z; refine BoundarySt.Keep.mk .refl .refl .refl .refl .refl .refl .refl .refl .refl .refl .refl .refl .refl .refl .refl .refl (.free (by decide)) .refl .refl .refl .refl .refl .refl .refl .refl .refl (fun ⟨k0, k1, k2⟩ => ?_); constructor <;> dsimp only))
    | with_reducible apply twf_tput
    | split

theorem issueReads_keep (u : ReadUse) (l : List (ℕ × ℕ)) (w : Wall) :
    Keep 0x200000000000000000000000000000004000001 w (issueReads u l w) := by
  unfold issueReads
  try dsimp only
  repeat' first
    | with_reducible apply Keep.refl
    | with_reducible assumption
    | (with_reducible apply Keep.step _ (issueRead_keep ..) _; on_goal 2 => decide)
    | (with_reducible apply Keep.foldl; on_goal 2 => intro _ _ _)

theorem freeUse_keep (u : ReadUse) (w : Wall) :
    Keep 0x4000001 w (freeUse u w) := by
  unfold freeUse
  try dsimp only
  repeat' first
    | with_reducible apply Keep.refl
    | with_reducible assumption
    | (with_reducible apply Keep.step _ (set_keep ..) _; on_goal 2 => decide)
    | (with_reducible apply Keep.bndU; on_goal 2 => (generalize Wall.bnd _ = z; revert z; refine id ?_; intro z; refine BoundarySt.Keep.mk .refl .refl .refl .refl .refl .refl .refl .refl .refl .refl .refl .refl .refl .refl .refl .refl (.free (by decide)) .refl .refl .refl .refl .refl .refl .refl .refl .refl (fun ⟨k0, k1, k2⟩ => ?_); constructor <;> dsimp only))
    | with_reducible apply twf_tfilter

theorem ringAdvance_keep (k : ℕ) (idx : List ℕ) (w : Wall) :
    Keep 0x200001000000000000000000000000000000002 w (ringAdvance k idx w) := by
  unfold ringAdvance
  try dsimp only
  repeat' first
    | with_reducible apply Keep.refl
    | with_reducible assumption
    | (with_reducible apply Keep.step _ (writeHost_keep ..) _; on_goal 2 => decide)
    | (with_reducible apply Keep.step _ (setRing_keep ..) _; on_goal 2 => decide)
    | (with_reducible apply Keep.step _ (setWin_keep ..) _; on_goal 2 => decide)
    | (with_reducible apply Keep.when; on_goal 2 => intro _ _)

theorem ringCount_keep (k : ℕ) (len : ℕ) (drop : Bool) (w : Wall) :
    Keep 0x2000000000000000000000000000000002 w (ringCount k len drop w) := by
  unfold ringCount
  try dsimp only
  repeat' first
    | with_reducible apply Keep.refl
    | with_reducible assumption
    | (with_reducible apply Keep.step _ (vecEvent_keep ..) _; on_goal 2 => decide)
    | (with_reducible apply Keep.step _ (bump64_keep ..) _; on_goal 2 => decide)
    | (with_reducible apply Keep.when; on_goal 2 => intro _ _)

theorem txWriteBack_keep (k : ℕ) (first : ℕ) (count : ℕ) (desc : ℕ) (status : ℕ) (len : ℕ) (stamp : ℕ) (value : ℕ) (w : Wall) :
    Keep 0x200000000000000000000000000000000000000 w (txWriteBack k first count desc status len stamp value w) := by
  unfold txWriteBack
  try dsimp only
  repeat' first
    | with_reducible apply Keep.refl
    | (with_reducible apply Keep.step _ (writeHost_keep ..) _; on_goal 2 => decide)

theorem txComplete_keep (k : ℕ) (first : ℕ) (count : ℕ) (desc : ℕ) (status : ℕ) (len : ℕ) (stamp : ℕ) (value : ℕ) (w : Wall) :
    Keep 0x200003000000000000000000000000000000002 w (txComplete k first count desc status len stamp value w) := by
  unfold txComplete
  try dsimp only
  repeat' first
    | with_reducible apply Keep.refl
    | (with_reducible apply Keep.step _ (ringCount_keep ..) _; on_goal 2 => decide)
    | (with_reducible apply Keep.step _ (ringAdvance_keep ..) _; on_goal 2 => decide)
    | (with_reducible apply Keep.step _ (txWriteBack_keep ..) _; on_goal 2 => decide)

theorem addHostOcc_keep (p : ℕ) (n : ℕ) (w : Wall) :
    Keep 0x1000000000000000000000000 w (addHostOcc p n w) := by
  unfold addHostOcc
  try dsimp only
  repeat' first
    | with_reducible apply Keep.refl
    | with_reducible assumption
    | (with_reducible apply Keep.egrU; on_goal 2 => (generalize Wall.egr _ = z; revert z; refine id ?_; intro z; refine EgressSt.Keep.mk .refl .refl .refl .refl .refl .refl .refl (.free (by decide)) .refl .refl .refl .refl (fun ⟨k0, k1, k2, k3, k4, k5, k6, k7, k8, k9, k10⟩ => ?_); constructor <;> dsimp only))
    | with_reducible apply twf_tputD

theorem subHostOcc_keep (p : ℕ) (n : ℕ) (w : Wall) :
    Keep 0x1000000000000000000000000 w (subHostOcc p n w) := by
  unfold subHostOcc
  try dsimp only
  repeat' first
    | with_reducible apply Keep.refl
    | with_reducible assumption
    | (with_reducible apply Keep.egrU; on_goal 2 => (generalize Wall.egr _ = z; revert z; refine id ?_; intro z; refine EgressSt.Keep.mk .refl .refl .refl .refl .refl .refl .refl (.free (by decide)) .refl .refl .refl .refl (fun ⟨k0, k1, k2, k3, k4, k5, k6, k7, k8, k9, k10⟩ => ?_); constructor <;> dsimp only))
    | with_reducible apply twf_tputD

theorem setMill_keep (w : Wall) (b : ℕ) (r : MillRt) :
    Keep 0x4000000000000000000000000000000000 w (Wall.setMill w b r) := by
  unfold Wall.setMill
  try dsimp only
  repeat' first
    | with_reducible apply Keep.refl
    | with_reducible assumption
    | (with_reducible apply Keep.hstU; on_goal 2 => (generalize Wall.hst _ = z; revert z; refine id ?_; intro z; refine HostSt.Keep.mk .refl .refl (.free (by decide)) .refl (fun ⟨k0, k1, k2, k3⟩ => ?_); constructor <;> dsimp only))
    | with_reducible apply twf_tput

theorem setMillState_keep (sp : ℕ) (v : ℕ) (w : Wall) :
    Keep 0x2000000000000000000000000000000001 w (setMillState sp v w) := by
  unfold setMillState
  try dsimp only
  repeat' first
    | with_reducible apply Keep.refl
    | (with_reducible apply Keep.step _ (set_keep ..) _; on_goal 2 => decide)
    | (with_reducible apply Keep.step _ (latch_keep ..) _; on_goal 2 => decide)
    | (with_reducible apply Keep.ite <;> intro _)

theorem fetchDescs_keep (k : ℕ) (want : ℕ) (w : Wall) :
    Keep 0x200001000000000000000000000000004000001 w (fetchDescs k want w) := by
  unfold fetchDescs
  try dsimp only
  repeat' first
    | with_reducible apply Keep.refl
    | (with_reducible apply Keep.step _ (setRing_keep ..) _; on_goal 2 => decide)
    | (with_reducible apply Keep.step _ (issueRead_keep ..) _; on_goal 2 => decide)
    | (with_reducible apply Keep.ite <;> intro _)

theorem startFrame_keep (i : ℕ) (sp : ℕ) (mill : Bool) (ds : List (ℕ × ℕ)) (rest : List (ℕ × ℕ)) (w : Wall) :
    Keep 0x200001000000001000000000000000004000001 w (startFrame i sp mill ds rest w) := by
  unfold startFrame
  try dsimp only
  repeat' first
    | with_reducible apply Keep.refl
    | (with_reducible apply Keep.step _ (issueReads_keep ..) _; on_goal 2 => decide)
    | (with_reducible apply Keep.step _ (addHostOcc_keep ..) _; on_goal 2 => decide)
    | (with_reducible apply Keep.step _ (setRing_keep ..) _; on_goal 2 => decide)
    | (with_reducible apply Keep.ite <;> intro _)

theorem txTake_keep (i : ℕ) (sp : ℕ) (mill : Bool) (w : Wall) :
    Keep 0x200003000000001000000000000000004000003 w (txTake i sp mill w) := by
  unfold txTake
  try dsimp only
  repeat' first
    | with_reducible apply Keep.refl
    | (with_reducible apply Keep.step _ (txComplete_keep ..) _; on_goal 2 => decide)
    | (with_reducible apply Keep.step _ (startFrame_keep ..) _; on_goal 2 => decide)
    | (with_reducible apply Keep.step _ (setRing_keep ..) _; on_goal 2 => decide)
    | (with_reducible apply Keep.ite <;> intro _)
    | split

theorem pumpTx_keep (i : ℕ) (sp : ℕ) (mill : Bool) (w : Wall) :
    Keep 0x200003000000001000000000000000004000003 w (pumpTx i sp mill w) := by
  unfold pumpTx
  try dsimp only
  repeat' first
    | with_reducible apply Keep.refl
    | with_reducible assumption
    | (with_reducible apply Keep.step _ (fetchDescs_keep ..) _; on_goal 2 => decide)
    | (with_reducible apply Keep.step _ (txTake_keep ..) _; on_goal 2 => decide)
    | (with_reducible apply Keep.upTo; on_goal 2 => intro _ _ _)

theorem pumpSp_keep (sp : ℕ) (w : Wall) :
    Keep 0x20000b000000001000000000000000004000003 w (pumpSp sp w) := by
  unfold pumpSp
  try dsimp only
  repeat' first
    | with_reducible apply Keep.refl
    | with_reducible assumption
    | (with_reducible apply Keep.step _ (pumpTx_keep ..) _; on_goal 2 => decide)
    | (with_reducible apply Keep.foldl; on_goal 2 => intro _ _ _)
    | (with_reducible apply Keep.hstU; on_goal 2 => (generalize Wall.hst _ = z; revert z; refine id ?_; intro z; refine HostSt.Keep.mk (.free (by decide)) (.free (by decide)) .refl (.free (by decide)) (fun ⟨k0, k1, k2, k3⟩ => ?_); constructor <;> dsimp only))
    | with_reducible apply twf_tput
    | (with_reducible apply Keep.ite <;> intro _)

theorem pumpRx_keep (k : ℕ) (w : Wall) :
    Keep 0x200001000000000000000000000000004000001 w (pumpRx k w) := by
  unfold pumpRx
  try dsimp only
  repeat' first
    | with_reducible apply Keep.refl
    | (with_reducible apply Keep.step _ (fetchDescs_keep ..) _; on_goal 2 => decide)

theorem pumpRings_keep (w : Wall) :
    Keep 0x20000b000000001000000000000000004000003 w (pumpRings w) := by
  unfold pumpRings
  try dsimp only
  repeat' first
    | with_reducible apply Keep.refl
    | with_reducible assumption
    | (with_reducible apply Keep.step _ (pumpSp_keep ..) _; on_goal 2 => decide)
    | (with_reducible apply Keep.step _ (pumpTx_keep ..) _; on_goal 2 => decide)
    | (with_reducible apply Keep.step _ (pumpRx_keep ..) _; on_goal 2 => decide)
    | (with_reducible apply Keep.foldl; on_goal 2 => intro _ _ _)
    | (with_reducible apply Keep.ite <;> intro _)
    | split

theorem ringDoorbell_keep (k : ℕ) (v : ℕ) (w : Wall) :
    Keep 0x20000b000000001000000000000000004000003 w (ringDoorbell k v w) := by
  unfold ringDoorbell
  try dsimp only
  repeat' first
    | with_reducible apply Keep.refl
    | (with_reducible apply Keep.step _ (setRing_keep ..) _; on_goal 2 => decide)
    | (with_reducible apply Keep.step _ (setWin_keep ..) _; on_goal 2 => decide)
    | (with_reducible apply Keep.step _ (pumpRings_keep ..) _; on_goal 2 => decide)
    | (with_reducible apply Keep.ite <;> intro _)

theorem setCfgRefused_keep (k : ℕ) (b : Bool) (w : Wall) :
    Keep 0x2 w (setCfgRefused k b w) := by
  unfold setCfgRefused
  try dsimp only
  repeat' first
    | with_reducible apply Keep.refl
    | (with_reducible apply Keep.step _ (setRingStatus_keep ..) _; on_goal 2 => decide)

theorem ringEnable_keep (k : ℕ) (v : ℕ) (w : Wall) :
    Keep 0x3000000000000000000000000000000003 w (ringEnable k v w) := by
  unfold ringEnable
  try dsimp only
  repeat' first
    | with_reducible apply Keep.refl
    | (with_reducible apply Keep.step _ (setRingStatus_keep ..) _; on_goal 2 => decide)
    | (with_reducible apply Keep.step _ (ringError_keep ..) _; on_goal 2 => decide)
    | (with_reducible apply Keep.step _ (setRing_keep ..) _; on_goal 2 => decide)
    | (with_reducible apply Keep.step _ (setWin_keep ..) _; on_goal 2 => decide)
    | (with_reducible apply Keep.ite <;> intro _)

theorem ringDisable_keep (k : ℕ) (v : ℕ) (w : Wall) :
    Keep 0x1000000000000000000000000000000002 w (ringDisable k v w) := by
  unfold ringDisable
  try dsimp only
  repeat' first
    | with_reducible apply Keep.refl
    | (with_reducible apply Keep.step _ (setCfgRefused_keep ..) _; on_goal 2 => decide)
    | (with_reducible apply Keep.step _ (setRing_keep ..) _; on_goal 2 => decide)
    | (with_reducible apply Keep.step _ (setRingStatus_keep ..) _; on_goal 2 => decide)
    | (with_reducible apply Keep.step _ (setWin_keep ..) _; on_goal 2 => decide)
    | (with_reducible apply Keep.ite <;> intro _)

theorem ringCtrlWrite_keep (k : ℕ) (v : ℕ) (w : Wall) :
    Keep 0x2 w (ringCtrlWrite k v w) := by
  unfold ringCtrlWrite
  try dsimp only
  repeat' first
    | with_reducible apply Keep.refl
    | (with_reducible apply Keep.step _ (setWin_keep ..) _; on_goal 2 => decide)
    | (with_reducible apply Keep.step _ (setCfgRefused_keep ..) _; on_goal 2 => decide)

theorem orphanFrames_keep (w : Wall) :
    Keep 0x220000000000000000000000 w (orphanFrames w) := by
  unfold orphanFrames
  try dsimp only
  repeat' first
    | with_reducible apply Keep.refl
    | with_reducible assumption
    | (with_reducible apply Keep.egrU; on_goal 2 => (generalize Wall.egr _ = z; revert z; refine id ?_; intro z; refine EgressSt.Keep.mk (.free (by decide)) .refl .refl .refl (.free (by decide)) .refl .refl .refl .refl .refl .refl .refl (fun ⟨k0, k1, k2, k3, k4, k5, k6, k7, k8, k9, k10⟩ => ?_); constructor <;> dsimp only))
    | with_reducible apply twf_tmap

theorem forgetRingFrames_keep (w : Wall) :
    Keep 0x200000000000000000 w (forgetRingFrames w) := by
  unfold forgetRingFrames
  try dsimp only
  repeat' first
    | with_reducible apply Keep.refl
    | with_reducible assumption
    | (with_reducible apply Keep.ingU; on_goal 2 => (generalize Wall.ing _ = z; revert z; refine id ?_; intro z; refine IngressSt.Keep.mk .refl (.free (by decide)) .refl .refl .refl .refl .refl .refl .refl .refl .refl .refl .refl .refl .refl .refl .refl .refl .refl .refl .refl (fun ⟨k0, k1, k2, k3, k4, k5, k6, k7, k8, k9, k10, k11, k12, k13, k14, k15, k16⟩ => ?_); constructor <;> dsimp only))
    | with_reducible apply twf_tmap

theorem clearRings_keep (w : Wall) :
    Keep 0x5000000000000000000000000000000000 w (clearRings w) := by
  unfold clearRings
  try dsimp only
  repeat' first
    | with_reducible apply Keep.refl
    | with_reducible assumption
    | (with_reducible apply Keep.hstU; on_goal 2 => (generalize Wall.hst _ = z; revert z; refine id ?_; intro z; refine HostSt.Keep.mk (.free (by decide)) .refl (.free (by decide)) .refl (fun ⟨k0, k1, k2, k3⟩ => ?_); constructor <;> dsimp only))
    | with_reducible apply twf_nil

theorem loseRings_keep (w : Wall) :
    Keep 0x5000000000220000200000000000000000 w (loseRings w) := by
  unfold loseRings
  try dsimp only
  repeat' first
    | with_reducible apply Keep.refl
    | (with_reducible apply Keep.step _ (forgetRingFrames_keep ..) _; on_goal 2 => decide)
    | (with_reducible apply Keep.step _ (orphanFrames_keep ..) _; on_goal 2 => decide)
    | (with_reducible apply Keep.step _ (clearRings_keep ..) _; on_goal 2 => decide)

theorem dropRings_keep (w : Wall) :
    Keep 0x5000000000220000200000000000000002 w (dropRings w) := by
  unfold dropRings
  try dsimp only
  repeat' first
    | with_reducible apply Keep.refl
    | with_reducible assumption
    | (with_reducible apply Keep.step _ (loseRings_keep ..) _; on_goal 2 => decide)
    | (with_reducible apply Keep.step _ (setRingStatus_keep ..) _; on_goal 2 => decide)
    | (with_reducible apply Keep.step _ (setWin_keep ..) _; on_goal 2 => decide)
    | (with_reducible apply Keep.foldl; on_goal 2 => intro _ _ _)
    | (with_reducible apply Keep.ite <;> intro _)

end Sys2Proof.Machine
end

