-- ==== Sys2Proof/Laws/KeepPipe.lean ====
section
/-! SUPPORT. What each operation of Machine/Pipe.lean may change. -/

set_option linter.unusedTactic false
set_option linter.unreachableTactic false

open Sys2Proof

namespace Sys2Proof.Machine

theorem setCells_keep (sp : ℕ) (l : List ICell) (w : Wall) :
    Keep 0x100000000000000000 w (setCells sp l w) := by
  unfold setCells
  try dsimp only
  repeat' first
    | with_reducible apply Keep.refl
    | with_reducible assumption
    | (with_reducible apply Keep.ingU; on_goal 2 => (generalize Wall.ing _ = z; revert z; refine id ?_; intro z; refine IngressSt.Keep.mk (.free (by decide)) .refl .refl .refl .refl .refl .refl .refl .refl .refl .refl .refl .refl .refl .refl .refl .refl .refl .refl .refl .refl (fun ⟨k0, k1, k2, k3, k4, k5, k6, k7, k8, k9, k10, k11, k12, k13, k14, k15, k16⟩ => ?_); constructor <;> dsimp only))
    | with_reducible apply twf_tput

theorem modFrame_keep (n : ℕ) (f : IFrame → IFrame) (w : Wall) :
    Keep 0x200000000000000000 w (modFrame n f w) := by
  unfold modFrame
  try dsimp only
  repeat' first
    | with_reducible apply Keep.refl
    | with_reducible assumption
    | (with_reducible apply Keep.ingU; on_goal 2 => (generalize Wall.ing _ = z; revert z; refine id ?_; intro z; refine IngressSt.Keep.mk .refl (.free (by decide)) .refl .refl .refl .refl .refl .refl .refl .refl .refl .refl .refl .refl .refl .refl .refl .refl .refl .refl .refl (fun ⟨k0, k1, k2, k3, k4, k5, k6, k7, k8, k9, k10, k11, k12, k13, k14, k15, k16⟩ => ?_); constructor <;> dsimp only))
    | with_reducible apply twf_tupd

theorem queuePause_keep (sp : ℕ) (tc : ℕ) (quanta : ℕ) (w : Wall) :
    Keep 0x8000000000000000 w (queuePause sp tc quanta w) := by
  unfold queuePause
  try dsimp only
  repeat' first
    | with_reducible apply Keep.refl
    | with_reducible assumption
    | (with_reducible apply Keep.prtU; on_goal 2 => (generalize Wall.prt _ = z; revert z; refine id ?_; intro z; refine PortSt.Keep.mk .refl .refl (.free (by decide)) .refl .refl .refl .refl (fun ⟨k0, k1, k2, k3, k4, k5⟩ => ?_); constructor <;> dsimp only))
    | with_reducible apply twf_tmod

theorem fcCheck_keep (sp : ℕ) (tc : ℕ) (w : Wall) :
    Keep 0x8000000000000001 w (fcCheck sp tc w) := by
  unfold fcCheck
  try dsimp only
  repeat' first
    | with_reducible apply Keep.refl
    | (with_reducible apply Keep.step _ (queuePause_keep ..) _; on_goal 2 => decide)
    | (with_reducible apply Keep.step _ (setBitR_keep ..) _; on_goal 2 => decide)
    | (with_reducible apply Keep.step _ (clrBitR_keep ..) _; on_goal 2 => decide)
    | (with_reducible apply Keep.ite <;> intro _)

theorem fcCheckAll_keep (sp : ℕ) (w : Wall) :
    Keep 0x8000000000000001 w (fcCheckAll sp w) := by
  unfold fcCheckAll
  try dsimp only
  repeat' first
    | with_reducible apply Keep.refl
    | with_reducible assumption
    | (with_reducible apply Keep.step _ (fcCheck_keep ..) _; on_goal 2 => decide)
    | (with_reducible apply Keep.upTo; on_goal 2 => intro _ _ _)

theorem freeCell_keep (sp : ℕ) (c : ICell) (w : Wall) :
    Keep 0x1 w (freeCell sp c w) := by
  unfold freeCell
  try dsimp only
  repeat' first
    | with_reducible apply Keep.refl
    | (with_reducible apply Keep.step _ (bump_keep ..) _; on_goal 2 => decide)
    | (with_reducible apply Keep.step _ (set_keep ..) _; on_goal 2 => decide)
    | (with_reducible apply Keep.ite <;> intro _)

theorem sweep_keep (sp : ℕ) (w : Wall) :
    Keep 0x308000000000000001 w (sweep sp w) := by
  unfold sweep
  try dsimp only
  repeat' first
    | with_reducible apply Keep.refl
    | with_reducible assumption
    | (with_reducible apply Keep.step _ (setCells_keep ..) _; on_goal 2 => decide)
    | (with_reducible apply Keep.step _ (fcCheckAll_keep ..) _; on_goal 2 => decide)
    | (with_reducible apply Keep.step _ (freeCell_keep ..) _; on_goal 2 => decide)
    | (with_reducible apply Keep.foldl; on_goal 2 => intro _ _ _)
    | (with_reducible apply Keep.ingU; on_goal 2 => (generalize Wall.ing _ = z; revert z; refine id ?_; intro z; refine IngressSt.Keep.mk (.free (by decide)) (.free (by decide)) .refl .refl .refl .refl .refl .refl .refl .refl .refl .refl .refl .refl .refl .refl .refl .refl .refl .refl .refl (fun ⟨k0, k1, k2, k3, k4, k5, k6, k7, k8, k9, k10, k11, k12, k13, k14, k15, k16⟩ => ?_); constructor <;> dsimp only))
    | with_reducible apply twf_tfilter

theorem dropIn_keep (n : ℕ) (w : Wall) :
    Keep 0x200000000000000000 w (dropIn n w) := by
  unfold dropIn
  try dsimp only
  repeat' first
    | with_reducible apply Keep.refl
    | (with_reducible apply Keep.step _ (modFrame_keep ..) _; on_goal 2 => decide)

theorem forgetDue_keep (n : ℕ) (w : Wall) :
    Keep 0x1000000000000000000000000000000000 w (forgetDue n w) := by
  unfold forgetDue
  try dsimp only
  repeat' first
    | with_reducible apply Keep.refl
    | with_reducible assumption
    | (with_reducible apply Keep.hstU; on_goal 2 => (generalize Wall.hst _ = z; revert z; refine id ?_; intro z; refine HostSt.Keep.mk (.free (by decide)) .refl .refl .refl (fun ⟨k0, k1, k2, k3⟩ => ?_); constructor <;> dsimp only))
    | with_reducible apply twf_tmap

theorem downIngress_keep (sp : ℕ) (w : Wall) :
    Keep 0x1000000000000000308000000000000001 w (downIngress sp w) := by
  unfold downIngress
  try dsimp only
  repeat' first
    | with_reducible apply Keep.refl
    | with_reducible assumption
    | (with_reducible apply Keep.step _ (forgetDue_keep ..) _; on_goal 2 => decide)
    | (with_reducible apply Keep.step _ (modFrame_keep ..) _; on_goal 2 => decide)
    | (with_reducible apply Keep.step _ (sweep_keep ..) _; on_goal 2 => decide)
    | (with_reducible apply Keep.step _ (dropIn_keep ..) _; on_goal 2 => decide)
    | (with_reducible apply Keep.step _ (stat_keep ..) _; on_goal 2 => decide)
    | (with_reducible apply Keep.foldl; on_goal 2 => intro _ _ _)
    | (with_reducible apply Keep.ite <;> intro _)

theorem issueLookup_keep (b : ℕ) (op : ℕ) (operand : ℕ) (use : LookupUse) (w : Wall) :
    Keep 0x200000000000000000080000000000000000000 w (issueLookup b op operand use w).1 := by
  unfold issueLookup
  try dsimp only
  repeat' first
    | with_reducible apply Keep.refl
    | with_reducible assumption
    | (with_reducible apply Keep.step _ (emit_keep ..) _; on_goal 2 => decide)
    | (with_reducible apply Keep.ingU; on_goal 2 => (generalize Wall.ing _ = z; revert z; refine id ?_; intro z; refine IngressSt.Keep.mk .refl .refl .refl .refl .refl .refl .refl .refl .refl .refl .refl (.free (by decide)) .refl .refl .refl .refl .refl .refl .refl .refl .refl (fun ⟨k0, k1, k2, k3, k4, k5, k6, k7, k8, k9, k10, k11, k12, k13, k14, k15, k16⟩ => ?_); constructor <;> dsimp only))
    | with_reducible apply twf_tput
    | split

theorem flushIssue_keep (b : ℕ) (w : Wall) :
    Keep 0x200000000000000000380000000000000000000 w (flushIssue b w) := by
  unfold flushIssue
  try dsimp only
  repeat' first
    | with_reducible apply Keep.refl
    | with_reducible assumption
    | (with_reducible apply Keep.step _ (issueLookup_keep ..) _; on_goal 2 => decide)
    | (with_reducible apply Keep.ingU; on_goal 2 => (generalize Wall.ing _ = z; revert z; refine id ?_; intro z; refine IngressSt.Keep.mk .refl .refl .refl .refl .refl .refl .refl .refl .refl .refl .refl (.free (by decide)) (.free (by decide)) (.free (by decide)) .refl .refl .refl .refl .refl .refl .refl (fun ⟨k0, k1, k2, k3, k4, k5, k6, k7, k8, k9, k10, k11, k12, k13, k14, k15, k16⟩ => ?_); constructor <;> dsimp only))
    | (with_reducible apply Keep.ite <;> intro _)
    | split

theorem flushSp_keep (sp : ℕ) (w : Wall) :
    Keep 0x200000000000000000380000000000000000000 w (flushSp sp w) := by
  unfold flushSp
  try dsimp only
  repeat' first
    | with_reducible apply Keep.refl
    | with_reducible assumption
    | (with_reducible apply Keep.step _ (flushIssue_keep ..) _; on_goal 2 => decide)
    | (with_reducible apply Keep.ingU; on_goal 2 => (generalize Wall.ing _ = z; revert z; refine id ?_; intro z; refine IngressSt.Keep.mk .refl .refl .refl .refl .refl .refl .refl .refl .refl .refl .refl (.free (by decide)) (.free (by decide)) (.free (by decide)) .refl .refl .refl .refl .refl .refl .refl (fun ⟨k0, k1, k2, k3, k4, k5, k6, k7, k8, k9, k10, k11, k12, k13, k14, k15, k16⟩ => ?_); constructor <;> dsimp only))

theorem setPipeOcc_keep (p : ℕ) (n : ℕ) (w : Wall) :
    Keep 0x800000000000000000000000 w (setPipeOcc p n w) := by
  unfold setPipeOcc
  try dsimp only
  repeat' first
    | with_reducible apply Keep.refl
    | with_reducible assumption
    | (with_reducible apply Keep.egrU; on_goal 2 => (generalize Wall.egr _ = z; revert z; refine id ?_; intro z; refine EgressSt.Keep.mk .refl .refl .refl .refl .refl .refl (.free (by decide)) .refl .refl .refl .refl .refl (fun ⟨k0, k1, k2, k3, k4, k5, k6, k7, k8, k9, k10⟩ => ?_); constructor <;> dsimp only))
    | with_reducible apply twf_tputD

theorem setCoreCredits_keep (p : ℕ) (n : ℕ) (w : Wall) :
    Keep 0x4000000000000000000000000 w (setCoreCredits p n w) := by
  unfold setCoreCredits
  try dsimp only
  repeat' first
    | with_reducible apply Keep.refl
    | with_reducible assumption
    | (with_reducible apply Keep.egrU; on_goal 2 => (generalize Wall.egr _ = z; revert z; refine id ?_; intro z; refine EgressSt.Keep.mk .refl .refl .refl .refl .refl .refl .refl .refl .refl (.free (by decide)) .refl .refl (fun ⟨k0, k1, k2, k3, k4, k5, k6, k7, k8, k9, k10⟩ => ?_); constructor <;> dsimp only))
    | with_reducible apply twf_tputD

theorem grant_keep (p : ℕ) (w : Wall) :
    Keep 0x200000000000004000000000000000000000000 w (grant p w) := by
  unfold grant
  try dsimp only
  repeat' first
    | with_reducible apply Keep.refl
    | (with_reducible apply Keep.step _ (setCoreCredits_keep ..) _; on_goal 2 => decide)
    | (with_reducible apply Keep.step _ (emit_keep ..) _; on_goal 2 => decide)
    | (with_reducible apply Keep.ite <;> intro _)
    | split

theorem panicEval_keep (p : ℕ) (w : Wall) :
    Keep 0x1 w (panicEval p w) := by
  unfold panicEval
  try dsimp only
  repeat' first
    | with_reducible apply Keep.refl
    | (with_reducible apply Keep.step _ (bump_keep ..) _; on_goal 2 => decide)
    | (with_reducible apply Keep.step _ (set_keep ..) _; on_goal 2 => decide)
    | (with_reducible apply Keep.ite <;> intro _)

theorem freeChunks_keep (f : EFrame) (w : Wall) :
    Keep 0x200000000000005800000000000000000000001 w (freeChunks f w) := by
  unfold freeChunks
  try dsimp only
  repeat' first
    | with_reducible apply Keep.refl
    | (with_reducible apply Keep.step _ (grant_keep ..) _; on_goal 2 => decide)
    | (with_reducible apply Keep.step _ (subHostOcc_keep ..) _; on_goal 2 => decide)
    | (with_reducible apply Keep.step _ (setPipeOcc_keep ..) _; on_goal 2 => decide)
    | (with_reducible apply Keep.step _ (panicEval_keep ..) _; on_goal 2 => decide)
    | split

theorem setQueue_keep (w : Wall) (p : ℕ) (q : ℕ) (r : EQueue) :
    Keep 0x20000000000000000000000 w (Wall.setQueue w p q r) := by
  unfold Wall.setQueue
  try dsimp only
  repeat' first
    | with_reducible apply Keep.refl
    | with_reducible assumption
    | (with_reducible apply Keep.egrU; on_goal 2 => (generalize Wall.egr _ = z; revert z; refine id ?_; intro z; refine EgressSt.Keep.mk (.free (by decide)) .refl .refl .refl .refl .refl .refl .refl .refl .refl .refl .refl (fun ⟨k0, k1, k2, k3, k4, k5, k6, k7, k8, k9, k10⟩ => ?_); constructor <;> dsimp only))
    | with_reducible apply twf_tput

theorem setActive_keep (sp : ℕ) (tc : ℕ) (l : List ℕ) (w : Wall) :
    Keep 0x40000000000000000000000 w (setActive sp tc l w) := by
  unfold setActive
  try dsimp only
  repeat' first
    | with_reducible apply Keep.refl
    | with_reducible assumption
    | (with_reducible apply Keep.egrU; on_goal 2 => (generalize Wall.egr _ = z; revert z; refine id ?_; intro z; refine EgressSt.Keep.mk .refl (.free (by decide)) .refl .refl .refl .refl .refl .refl .refl .refl .refl .refl (fun ⟨k0, k1, k2, k3, k4, k5, k6, k7, k8, k9, k10⟩ => ?_); constructor <;> dsimp only))
    | with_reducible apply twf_tput

theorem leaveActive_keep (sp : ℕ) (q : ℕ) (w : Wall) :
    Keep 0x60000000000000000000000 w (leaveActive sp q w) := by
  unfold leaveActive
  try dsimp only
  repeat' first
    | with_reducible apply Keep.refl
    | (with_reducible apply Keep.step _ (setQueue_keep ..) _; on_goal 2 => decide)
    | (with_reducible apply Keep.step _ (setActive_keep ..) _; on_goal 2 => decide)

theorem skipRest_keep (f : EFrame) (w : Wall) :
    Keep 0x400000000000000000000000 w (skipRest f w) := by
  unfold skipRest
  try dsimp only
  repeat' first
    | with_reducible apply Keep.refl
    | with_reducible assumption
    | (with_reducible apply Keep.egrU; on_goal 2 => (generalize Wall.egr _ = z; revert z; refine id ?_; intro z; refine EgressSt.Keep.mk .refl .refl .refl .refl .refl (.free (by decide)) .refl .refl .refl .refl .refl .refl (fun ⟨k0, k1, k2, k3, k4, k5, k6, k7, k8, k9, k10⟩ => ?_); constructor <;> dsimp only))
    | (with_reducible apply Keep.ite <;> intro _)

theorem discardOut_keep (f : EFrame) (status : ℕ) (w : Wall) :
    Keep 0x200003000000005c00000000000000000000003 w (discardOut f status w) := by
  unfold discardOut
  try dsimp only
  repeat' first
    | with_reducible apply Keep.refl
    | (with_reducible apply Keep.step _ (txComplete_keep ..) _; on_goal 2 => decide)
    | (with_reducible apply Keep.step _ (freeChunks_keep ..) _; on_goal 2 => decide)
    | (with_reducible apply Keep.step _ (skipRest_keep ..) _; on_goal 2 => decide)
    | split

theorem downEgress_keep (sp : ℕ) (w : Wall) :
    Keep 0x200003000000005f60000008000000000000003 w (downEgress sp w) := by
  unfold downEgress
  try dsimp only
  repeat' first
    | with_reducible apply Keep.refl
    | with_reducible assumption
    | (with_reducible apply Keep.step _ (discardOut_keep ..) _; on_goal 2 => decide)
    | (with_reducible apply Keep.step _ (leaveActive_keep ..) _; on_goal 2 => decide)
    | (with_reducible apply Keep.step _ (setQueue_keep ..) _; on_goal 2 => decide)
    | (with_reducible apply Keep.step _ (emit_keep ..) _; on_goal 2 => decide)
    | (with_reducible apply Keep.step _ (stat_keep ..) _; on_goal 2 => decide)
    | (with_reducible apply Keep.foldl; on_goal 2 => intro _ _ _)
    | (with_reducible apply Keep.egrU; on_goal 2 => (generalize Wall.egr _ = z; revert z; refine id ?_; intro z; refine EgressSt.Keep.mk (.free (by decide)) (.free (by decide)) .refl (.free (by decide)) (.free (by decide)) (.free (by decide)) (.free (by decide)) (.free (by decide)) .refl (.free (by decide)) .refl .refl (fun ⟨k0, k1, k2, k3, k4, k5, k6, k7, k8, k9, k10⟩ => ?_); constructor <;> dsimp only))
    | (with_reducible apply Keep.prtU; on_goal 2 => (generalize Wall.prt _ = z; revert z; refine id ?_; intro z; refine PortSt.Keep.mk .refl .refl (.free (by decide)) .refl .refl .refl .refl (fun ⟨k0, k1, k2, k3, k4, k5⟩ => ?_); constructor <;> dsimp only))
    | with_reducible apply twf_tdel
    | (with_reducible apply Keep.ite <;> intro _)
    | split

end Sys2Proof.Machine
end

