-- ==== Sys2Proof/Laws/KeepPorts.lean ====
section
/-! SUPPORT. What each operation of Machine/Ports.lean may change. -/

set_option linter.unusedTactic false
set_option linter.unreachableTactic false

open Sys2Proof

namespace Sys2Proof.Machine

theorem setSpGroup_keep (sp : ℕ) (st : ℕ) (w : Wall) :
    Keep 0x2000000000000000000020000000000001 w (setSpGroup sp st w) := by
  unfold setSpGroup
  try dsimp only
  repeat' first
    | with_reducible apply Keep.refl
    | (with_reducible apply Keep.step _ (setGroupSt_keep ..) _; on_goal 2 => decide)
    | split

theorem setSpGrp_keep (sp : ℕ) (r : GroupRt) (w : Wall) :
    Keep 0x40000000000000 w (setSpGrp sp r w) := by
  unfold setSpGrp
  try dsimp only
  repeat' first
    | with_reducible apply Keep.refl
    | with_reducible assumption
    | (with_reducible apply Keep.lanU; on_goal 2 => (generalize Wall.lan _ = z; revert z; refine id ?_; intro z; refine LaneSt.Keep.mk .refl (.free (by decide)) .refl .refl .refl .refl .refl .refl (fun ⟨k0, k1, k2, k3, k4, k5, k6⟩ => ?_); constructor <;> dsimp only))
    | with_reducible apply twf_tput

theorem toSpare_keep (l : ℕ) (w : Wall) :
    Keep 0x2000000000000000000020000000000001 w (toSpare l w) := by
  unfold toSpare
  try dsimp only
  repeat' first
    | with_reducible apply Keep.refl
    | (with_reducible apply Keep.step _ (set_keep ..) _; on_goal 2 => decide)
    | (with_reducible apply Keep.step _ (setUse_keep ..) _; on_goal 2 => decide)
    | (with_reducible apply Keep.step _ (setLaneSt_keep ..) _; on_goal 2 => decide)

theorem assign_keep (p : ℕ) (r : ℕ) (l : ℕ) (w : Wall) :
    Keep 0x1 w (assign p r l w) := by
  unfold assign
  try dsimp only
  repeat' first
    | with_reducible apply Keep.refl
    | (with_reducible apply Keep.step _ (setUse_keep ..) _; on_goal 2 => decide)
    | (with_reducible apply Keep.step _ (set_keep ..) _; on_goal 2 => decide)

theorem delExch_keep (k : ℕ) (w : Wall) :
    Keep 0x80000000000000 w (delExch k w) := by
  unfold delExch
  try dsimp only
  repeat' first
    | with_reducible apply Keep.refl
    | with_reducible assumption
    | (with_reducible apply Keep.lanU; on_goal 2 => (generalize Wall.lan _ = z; revert z; refine id ?_; intro z; refine LaneSt.Keep.mk .refl .refl (.free (by decide)) .refl .refl .refl .refl .refl (fun ⟨k0, k1, k2, k3, k4, k5, k6⟩ => ?_); constructor <;> dsimp only))
    | with_reducible apply twf_tdel

theorem putExch_keep (k : ℕ) (e : Exch) (w : Wall) :
    Keep 0x80000000000000 w (putExch k e w) := by
  unfold putExch
  try dsimp only
  repeat' first
    | with_reducible apply Keep.refl
    | with_reducible assumption
    | (with_reducible apply Keep.lanU; on_goal 2 => (generalize Wall.lan _ = z; revert z; refine id ?_; intro z; refine LaneSt.Keep.mk .refl .refl (.free (by decide)) .refl .refl .refl .refl .refl (fun ⟨k0, k1, k2, k3, k4, k5, k6⟩ => ?_); constructor <;> dsimp only))
    | with_reducible apply twf_tput

theorem abandon_keep (k : ℕ) (reason : ℕ) (w : Wall) :
    Keep 0x2006020000000000000000000a0090000000001 w (abandon k reason w) := by
  unfold abandon
  try dsimp only
  repeat' first
    | with_reducible apply Keep.refl
    | with_reducible assumption
    | (with_reducible apply Keep.step _ (bump_keep ..) _; on_goal 2 => decide)
    | (with_reducible apply Keep.step _ (toSpare_keep ..) _; on_goal 2 => decide)
    | (with_reducible apply Keep.step _ (raise_keep ..) _; on_goal 2 => decide)
    | (with_reducible apply Keep.step _ (delExch_keep ..) _; on_goal 2 => decide)
    | (with_reducible apply Keep.when; on_goal 2 => intro _ _)
    | split

theorem delSurvey_keep (l : ℕ) (w : Wall) :
    Keep 0x400000000000000 w (delSurvey l w) := by
  unfold delSurvey
  try dsimp only
  repeat' first
    | with_reducible apply Keep.refl
    | with_reducible assumption
    | (with_reducible apply Keep.lanU; on_goal 2 => (generalize Wall.lan _ = z; revert z; refine id ?_; intro z; refine LaneSt.Keep.mk .refl .refl .refl .refl .refl (.free (by decide)) .refl .refl (fun ⟨k0, k1, k2, k3, k4, k5, k6⟩ => ?_); constructor <;> dsimp only))
    | with_reducible apply twf_tdel

theorem modRound_keep (b : ℕ) (f : RoundRt → RoundRt) (w : Wall) :
    Keep 0x200000000000000 w (modRound b f w) := by
  unfold modRound
  try dsimp only
  repeat' first
    | with_reducible apply Keep.refl
    | with_reducible assumption
    | (with_reducible apply Keep.lanU; on_goal 2 => (generalize Wall.lan _ = z; revert z; refine id ?_; intro z; refine LaneSt.Keep.mk .refl .refl .refl .refl (.free (by decide)) .refl .refl .refl (fun ⟨k0, k1, k2, k3, k4, k5, k6⟩ => ?_); constructor <;> dsimp only))
    | with_reducible apply twf_tupd

theorem clearCurrent_keep (l : ℕ) (w : Wall) :
    Keep 0x200000000000001 w (clearCurrent l w) := by
  unfold clearCurrent
  try dsimp only
  repeat' first
    | with_reducible apply Keep.refl
    | with_reducible assumption
    | (with_reducible apply Keep.step _ (modRound_keep ..) _; on_goal 2 => decide)
    | (with_reducible apply Keep.step _ (set_keep ..) _; on_goal 2 => decide)
    | (with_reducible apply Keep.when; on_goal 2 => intro _ _)

theorem endSurvey_keep (l : ℕ) (w : Wall) :
    Keep 0x2000000000000000000620000000000001 w (endSurvey l w) := by
  unfold endSurvey
  try dsimp only
  repeat' first
    | with_reducible apply Keep.refl
    | with_reducible assumption
    | (with_reducible apply Keep.step _ (setLaneSt_keep ..) _; on_goal 2 => decide)
    | (with_reducible apply Keep.step _ (toSpare_keep ..) _; on_goal 2 => decide)
    | (with_reducible apply Keep.step _ (delSurvey_keep ..) _; on_goal 2 => decide)
    | (with_reducible apply Keep.step _ (assign_keep ..) _; on_goal 2 => decide)
    | (with_reducible apply Keep.step _ (clearCurrent_keep ..) _; on_goal 2 => decide)
    | (with_reducible apply Keep.when; on_goal 2 => intro _ _)
    | (with_reducible apply Keep.ite <;> intro _)
    | split

theorem downExchanges_keep (sp : ℕ) (w : Wall) :
    Keep 0x2006020000000000000000006a0090000000001 w (downExchanges sp w) := by
  unfold downExchanges
  try dsimp only
  repeat' first
    | with_reducible apply Keep.refl
    | with_reducible assumption
    | (with_reducible apply Keep.step _ (endSurvey_keep ..) _; on_goal 2 => decide)
    | (with_reducible apply Keep.step _ (abandon_keep ..) _; on_goal 2 => decide)
    | (with_reducible apply Keep.foldl; on_goal 2 => intro _ _ _)

theorem setReason_keep (sp : ℕ) (reason : ℕ) (w : Wall) :
    Keep 0x1 w (setReason sp reason w) := by
  unfold setReason
  try dsimp only
  repeat' first
    | with_reducible apply Keep.refl
    | (with_reducible apply Keep.step _ (set_keep ..) _; on_goal 2 => decide)

theorem clearPauses_keep (sp : ℕ) (w : Wall) :
    Keep 0x4000000000000000 w (clearPauses sp w) := by
  unfold clearPauses
  try dsimp only
  repeat' first
    | with_reducible apply Keep.refl
    | with_reducible assumption
    | (with_reducible apply Keep.prtU; on_goal 2 => (generalize Wall.prt _ = z; revert z; refine id ?_; intro z; refine PortSt.Keep.mk .refl (.free (by decide)) .refl .refl .refl .refl .refl (fun ⟨k0, k1, k2, k3, k4, k5⟩ => ?_); constructor <;> dsimp only))
    | with_reducible apply twf_tfilter

theorem downCore_keep (sp : ℕ) (reason : ℕ) (w : Wall) :
    Keep 0x204603000000005f6038031c6a0090000000003 w (downCore sp reason w) := by
  unfold downCore
  try dsimp only
  repeat' first
    | with_reducible apply Keep.refl
    | with_reducible assumption
    | (with_reducible apply Keep.step _ (setReason_keep ..) _; on_goal 2 => decide)
    | (with_reducible apply Keep.step _ (downEgress_keep ..) _; on_goal 2 => decide)
    | (with_reducible apply Keep.step _ (downIngress_keep ..) _; on_goal 2 => decide)
    | (with_reducible apply Keep.step _ (set_keep ..) _; on_goal 2 => decide)
    | (with_reducible apply Keep.step _ (clearPauses_keep ..) _; on_goal 2 => decide)
    | (with_reducible apply Keep.step _ (bump_keep ..) _; on_goal 2 => decide)
    | (with_reducible apply Keep.step _ (flushSp_keep ..) _; on_goal 2 => decide)
    | (with_reducible apply Keep.step _ (setSpSt_keep ..) _; on_goal 2 => decide)
    | (with_reducible apply Keep.step _ (downExchanges_keep ..) _; on_goal 2 => decide)
    | (with_reducible apply Keep.step _ (raise_keep ..) _; on_goal 2 => decide)
    | (with_reducible apply Keep.prtU; on_goal 2 => (generalize Wall.prt _ = z; revert z; refine id ?_; intro z; refine PortSt.Keep.mk .refl (.free (by decide)) (.free (by decide)) (.free (by decide)) .refl .refl .refl (fun ⟨k0, k1, k2, k3, k4, k5⟩ => ?_); constructor <;> dsimp only))
    | (with_reducible apply Keep.ite <;> intro _)

theorem downOff_keep (sp : ℕ) (reason : ℕ) (w : Wall) :
    Keep 0x204603000000005f6038031c6a0090000000003 w (downOff sp reason w) := by
  unfold downOff
  try dsimp only
  repeat' first
    | with_reducible apply Keep.refl
    | (with_reducible apply Keep.step _ (downCore_keep ..) _; on_goal 2 => decide)
    | (with_reducible apply Keep.step _ (setSpGroup_keep ..) _; on_goal 2 => decide)

theorem setPause_keep (k : ℕ) (until_ : Option ℕ) (w : Wall) :
    Keep 0x4000000000000000 w (setPause k until_ w) := by
  unfold setPause
  try dsimp only
  repeat' first
    | with_reducible apply Keep.refl
    | with_reducible assumption
    | (with_reducible apply Keep.prtU; on_goal 2 => (generalize Wall.prt _ = z; revert z; refine id ?_; intro z; refine PortSt.Keep.mk .refl (.free (by decide)) .refl .refl .refl .refl .refl (fun ⟨k0, k1, k2, k3, k4, k5⟩ => ?_); constructor <;> dsimp only))
    | with_reducible apply twf_tput
    | with_reducible apply twf_tdel
    | split

theorem pausePrio_keep (sp : ℕ) (n : ℕ) (quanta : ℕ) (w : Wall) :
    Keep 0x4000000000000000 w (pausePrio sp n quanta w) := by
  unfold pausePrio
  try dsimp only
  repeat' first
    | with_reducible apply Keep.refl
    | (with_reducible apply Keep.step _ (setPause_keep ..) _; on_goal 2 => decide)

theorem pauseFrame_keep (sp : ℕ) (quanta : ℕ) (w : Wall) :
    Keep 0x4000000000000001 w (pauseFrame sp quanta w) := by
  unfold pauseFrame
  try dsimp only
  repeat' first
    | with_reducible apply Keep.refl
    | with_reducible assumption
    | (with_reducible apply Keep.step _ (stat_keep ..) _; on_goal 2 => decide)
    | (with_reducible apply Keep.step _ (pausePrio_keep ..) _; on_goal 2 => decide)
    | (with_reducible apply Keep.step _ (set_keep ..) _; on_goal 2 => decide)
    | (with_reducible apply Keep.upTo; on_goal 2 => intro _ _ _)
    | (with_reducible apply Keep.ite <;> intro _)

theorem pfcFrame_keep (sp : ℕ) (enable : ℕ) (times : List ℕ) (w : Wall) :
    Keep 0x4000000000000001 w (pfcFrame sp enable times w) := by
  unfold pfcFrame
  try dsimp only
  repeat' first
    | with_reducible apply Keep.refl
    | with_reducible assumption
    | (with_reducible apply Keep.step _ (stat_keep ..) _; on_goal 2 => decide)
    | (with_reducible apply Keep.step _ (pausePrio_keep ..) _; on_goal 2 => decide)
    | (with_reducible apply Keep.step _ (setBitR_keep ..) _; on_goal 2 => decide)
    | (with_reducible apply Keep.step _ (clrBitR_keep ..) _; on_goal 2 => decide)
    | (with_reducible apply Keep.upTo; on_goal 2 => intro _ _ _)
    | (with_reducible apply Keep.when; on_goal 2 => intro _ _)
    | (with_reducible apply Keep.ite <;> intro _)

theorem pauseExpiry_keep (sp : ℕ) (tc : ℕ) (w : Wall) :
    Keep 0x4000000000000001 w (pauseExpiry sp tc w) := by
  unfold pauseExpiry
  try dsimp only
  repeat' first
    | with_reducible apply Keep.refl
    | with_reducible assumption
    | (with_reducible apply Keep.step _ (setPause_keep ..) _; on_goal 2 => decide)
    | (with_reducible apply Keep.step _ (clrBitR_keep ..) _; on_goal 2 => decide)
    | (with_reducible apply Keep.foldl; on_goal 2 => intro _ _ _)
    | (with_reducible apply Keep.ite <;> intro _)

theorem pfcRefresh_keep (sp : ℕ) (tc : ℕ) (w : Wall) :
    Keep 0x8000000000000000 w (pfcRefresh sp tc w) := by
  unfold pfcRefresh
  try dsimp only
  repeat' first
    | with_reducible apply Keep.refl
    | (with_reducible apply Keep.step _ (queuePause_keep ..) _; on_goal 2 => decide)
    | (with_reducible apply Keep.ite <;> intro _)

theorem setQuiet_keep (w : Wall) (p : ℕ) (r : QuietRt) :
    Keep 0x2000000000000000 w (Wall.setQuiet w p r) := by
  unfold Wall.setQuiet
  try dsimp only
  repeat' first
    | with_reducible apply Keep.refl
    | with_reducible assumption
    | (with_reducible apply Keep.prtU; on_goal 2 => (generalize Wall.prt _ = z; revert z; refine id ?_; intro z; refine PortSt.Keep.mk (.free (by decide)) .refl .refl .refl .refl .refl .refl (fun ⟨k0, k1, k2, k3, k4, k5⟩ => ?_); constructor <;> dsimp only))
    | with_reducible apply twf_tput

theorem sendLpi_keep (p : ℕ) (on : Bool) (w : Wall) :
    Keep 0x200000000000000000000000000000000000000 w (sendLpi p on w) := by
  unfold sendLpi
  try dsimp only
  repeat' first
    | with_reducible apply Keep.refl
    | (with_reducible apply Keep.step _ (emit_keep ..) _; on_goal 2 => decide)
    | split

theorem quietRequest_keep (p : ℕ) (w : Wall) :
    Keep 0x200000000000000000000002000000000000000 w (quietRequest p w) := by
  unfold quietRequest
  try dsimp only
  repeat' first
    | with_reducible apply Keep.refl
    | (with_reducible apply Keep.step _ (setQuiet_keep ..) _; on_goal 2 => decide)
    | (with_reducible apply Keep.step _ (sendLpi_keep ..) _; on_goal 2 => decide)
    | (with_reducible apply Keep.ite <;> intro _)

theorem quietIdle_keep (p : ℕ) (w : Wall) :
    Keep 0x200000000000000000000002000000000000000 w (quietIdle p w) := by
  unfold quietIdle
  try dsimp only
  repeat' first
    | with_reducible apply Keep.refl
    | (with_reducible apply Keep.step _ (setQuiet_keep ..) _; on_goal 2 => decide)
    | (with_reducible apply Keep.step _ (quietRequest_keep ..) _; on_goal 2 => decide)
    | (with_reducible apply Keep.ite <;> intro _)

theorem quietRetry_keep (p : ℕ) (w : Wall) :
    Keep 0x200000000000000000000002000000000000000 w (quietRetry p w) := by
  unfold quietRetry
  try dsimp only
  repeat' first
    | with_reducible apply Keep.refl
    | (with_reducible apply Keep.step _ (quietRequest_keep ..) _; on_goal 2 => decide)
    | (with_reducible apply Keep.ite <;> intro _)

theorem enterQuiet_keep (p : ℕ) (w : Wall) :
    Keep 0x4002000000000000000002020000000000001 w (enterQuiet p w) := by
  unfold enterQuiet
  try dsimp only
  repeat' first
    | with_reducible apply Keep.refl
    | with_reducible assumption
    | (with_reducible apply Keep.step _ (bump_keep ..) _; on_goal 2 => decide)
    | (with_reducible apply Keep.step _ (setSpGroup_keep ..) _; on_goal 2 => decide)
    | (with_reducible apply Keep.step _ (setQuiet_keep ..) _; on_goal 2 => decide)
    | (with_reducible apply Keep.step _ (setSpSt_keep ..) _; on_goal 2 => decide)
    | (with_reducible apply Keep.foldl; on_goal 2 => intro _ _ _)

theorem lpiReceived_keep (p : ℕ) (w : Wall) :
    Keep 0x204002000000000000000002020000000000001 w (lpiReceived p w) := by
  unfold lpiReceived
  try dsimp only
  repeat' first
    | with_reducible apply Keep.refl
    | (with_reducible apply Keep.step _ (setQuiet_keep ..) _; on_goal 2 => decide)
    | (with_reducible apply Keep.step _ (sendLpi_keep ..) _; on_goal 2 => decide)
    | (with_reducible apply Keep.step _ (enterQuiet_keep ..) _; on_goal 2 => decide)
    | (with_reducible apply Keep.ite <;> intro _)
    | split

theorem abandonQuiet_keep (p : ℕ) (w : Wall) :
    Keep 0x200000000000000000000002000000000000000 w (abandonQuiet p w) := by
  unfold abandonQuiet
  try dsimp only
  repeat' first
    | with_reducible apply Keep.refl
    | (with_reducible apply Keep.step _ (setQuiet_keep ..) _; on_goal 2 => decide)
    | (with_reducible apply Keep.step _ (sendLpi_keep ..) _; on_goal 2 => decide)
    | split

theorem dozeDown_keep (p : ℕ) (w : Wall) :
    Keep 0x204603000000005f6038031c6a0090000000003 w (dozeDown p w) := by
  unfold dozeDown
  try dsimp only
  repeat' first
    | with_reducible apply Keep.refl
    | with_reducible assumption
    | (with_reducible apply Keep.step _ (downOff_keep ..) _; on_goal 2 => decide)
    | (with_reducible apply Keep.foldl; on_goal 2 => intro _ _ _)
    | (with_reducible apply Keep.ite <;> intro _)

theorem idleAfterLpi_keep (p : ℕ) (w : Wall) :
    Keep 0x204603000000005f6038031e6a0090000000003 w (idleAfterLpi p w) := by
  unfold idleAfterLpi
  try dsimp only
  repeat' first
    | with_reducible apply Keep.refl
    | with_reducible assumption
    | (with_reducible apply Keep.step _ (abandonQuiet_keep ..) _; on_goal 2 => decide)
    | (with_reducible apply Keep.step _ (dozeDown_keep ..) _; on_goal 2 => decide)
    | (with_reducible apply Keep.when; on_goal 2 => intro _ _)
    | split

theorem quietTimeout_keep (p : ℕ) (w : Wall) :
    Keep 0x204603000000005f6038031e6a0090000000003 w (quietTimeout p w) := by
  unfold quietTimeout
  try dsimp only
  repeat' first
    | with_reducible apply Keep.refl
    | with_reducible assumption
    | (with_reducible apply Keep.step _ (bump_keep ..) _; on_goal 2 => decide)
    | (with_reducible apply Keep.step _ (abandonQuiet_keep ..) _; on_goal 2 => decide)
    | (with_reducible apply Keep.step _ (dozeDown_keep ..) _; on_goal 2 => decide)
    | (with_reducible apply Keep.when; on_goal 2 => intro _ _)
    | (with_reducible apply Keep.ite <;> intro _)

theorem wakePort_keep (p : ℕ) (w : Wall) :
    Keep 0x200000000000000000000002000000000000000 w (wakePort p w) := by
  unfold wakePort
  try dsimp only
  repeat' first
    | with_reducible apply Keep.refl
    | (with_reducible apply Keep.step _ (emit_keep ..) _; on_goal 2 => decide)
    | (with_reducible apply Keep.step _ (setQuiet_keep ..) _; on_goal 2 => decide)
    | (with_reducible apply Keep.ite <;> intro _)
    | split

theorem partnerBurst_keep (p : ℕ) (w : Wall) :
    Keep 0x200000000000000000000002000000000000000 w (partnerBurst p w) := by
  unfold partnerBurst
  try dsimp only
  repeat' first
    | with_reducible apply Keep.refl
    | (with_reducible apply Keep.step _ (wakePort_keep ..) _; on_goal 2 => decide)
    | (with_reducible apply Keep.step _ (setQuiet_keep ..) _; on_goal 2 => decide)
    | (with_reducible apply Keep.ite <;> intro _)

theorem wakeComplete_keep (p : ℕ) (w : Wall) :
    Keep 0x4002000000000000000002020000000000001 w (wakeComplete p w) := by
  unfold wakeComplete
  try dsimp only
  repeat' first
    | with_reducible apply Keep.refl
    | with_reducible assumption
    | (with_reducible apply Keep.step _ (setSpGroup_keep ..) _; on_goal 2 => decide)
    | (with_reducible apply Keep.step _ (setQuiet_keep ..) _; on_goal 2 => decide)
    | (with_reducible apply Keep.step _ (setSpSt_keep ..) _; on_goal 2 => decide)
    | (with_reducible apply Keep.foldl; on_goal 2 => intro _ _ _)
    | (with_reducible apply Keep.ite <;> intro _)

theorem portBusy_keep (p : ℕ) (w : Wall) :
    Keep 0x200000000000000000000002000000000000000 w (portBusy p w) := by
  unfold portBusy
  try dsimp only
  repeat' first
    | with_reducible apply Keep.refl
    | with_reducible assumption
    | (with_reducible apply Keep.step _ (wakePort_keep ..) _; on_goal 2 => decide)
    | (with_reducible apply Keep.step _ (setQuiet_keep ..) _; on_goal 2 => decide)
    | (with_reducible apply Keep.step _ (abandonQuiet_keep ..) _; on_goal 2 => decide)
    | (with_reducible apply Keep.when; on_goal 2 => intro _ _)

theorem headerLockLoss_keep (sp : ℕ) (w : Wall) :
    Keep 0x2000000000000000010000000000000001 w (headerLockLoss sp w) := by
  unfold headerLockLoss
  try dsimp only
  repeat' first
    | with_reducible apply Keep.refl
    | with_reducible assumption
    | (with_reducible apply Keep.step _ (stat_keep ..) _; on_goal 2 => decide)
    | (with_reducible apply Keep.step _ (latch_keep ..) _; on_goal 2 => decide)
    | (with_reducible apply Keep.prtU; on_goal 2 => (generalize Wall.prt _ = z; revert z; refine id ?_; intro z; refine PortSt.Keep.mk .refl .refl .refl (.free (by decide)) .refl .refl .refl (fun ⟨k0, k1, k2, k3, k4, k5⟩ => ?_); constructor <;> dsimp only))
    | (with_reducible apply Keep.ite <;> intro _)

theorem headerLockBack_keep (sp : ℕ) (w : Wall) :
    Keep 0x10000000000000000 w (headerLockBack sp w) := by
  unfold headerLockBack
  try dsimp only
  repeat' first
    | with_reducible apply Keep.refl
    | with_reducible assumption
    | (with_reducible apply Keep.prtU; on_goal 2 => (generalize Wall.prt _ = z; revert z; refine id ?_; intro z; refine PortSt.Keep.mk .refl .refl .refl (.free (by decide)) .refl .refl .refl (fun ⟨k0, k1, k2, k3, k4, k5⟩ => ?_); constructor <;> dsimp only))

theorem fecCount_keep (sp : ℕ) (roleCorrected : List ℕ) (codewords : ℕ) (corrected : ℕ) (uncorrectable : ℕ) (w : Wall) :
    Keep 0x1802000000000000000000000000000000001 w (fecCount sp roleCorrected codewords corrected uncorrectable w) := by
  unfold fecCount
  try dsimp only
  repeat' first
    | with_reducible apply Keep.refl
    | with_reducible assumption
    | (with_reducible apply Keep.step _ (bump_keep ..) _; on_goal 2 => decide)
    | (with_reducible apply Keep.step _ (stat_keep ..) _; on_goal 2 => decide)
    | (with_reducible apply Keep.step _ (pcSp_keep ..) _; on_goal 2 => decide)
    | (with_reducible apply Keep.foldl; on_goal 2 => intro _ _ _)

end Sys2Proof.Machine
end

