-- ==== Sys2Proof/Laws/KeepBringup.lean ====
section
/-! SUPPORT. What each operation of Machine/Bringup.lean may change. -/

set_option linter.unusedTactic false
set_option linter.unreachableTactic false

open Sys2Proof

namespace Sys2Proof.Machine

theorem releaseLane_keep (l : ℕ) (w : Wall) :
    Keep 0x1 w (releaseLane l w) := by
  unfold releaseLane
  try dsimp only
  repeat' first
    | with_reducible apply Keep.refl
    | (with_reducible apply Keep.step _ (set_keep ..) _; on_goal 2 => decide)
    | (with_reducible apply Keep.step _ (setUse_keep ..) _; on_goal 2 => decide)

theorem assignRoles_keep (sp : ℕ) (w : Wall) :
    ∀ y, (assignRoles sp w) = some y → Keep 0x300002000000000000000000020000000000001 w y := by
  intro y h
  unfold assignRoles at h
  try dsimp only at h
  repeat' split at h
  all_goals first
    | (cases h <;> repeat' first
      | with_reducible apply Keep.refl
      | with_reducible assumption
      | (with_reducible apply Keep.step _ (detectAlone_keep ..) _; on_goal 2 => decide)
      | (with_reducible apply Keep.step _ (assign_keep ..) _; on_goal 2 => decide)
      | (with_reducible apply Keep.step _ (releaseLane_keep ..) _; on_goal 2 => decide)
      | (with_reducible apply Keep.foldl; on_goal 2 => intro _ _ _))

theorem enterDetect_keep (sp : ℕ) (fails : ℕ) (w : Wall) :
    Keep 0x304002000000000000000000060000000000001 w (enterDetect sp fails w) := by
  unfold enterDetect
  try dsimp only
  repeat' first
    | with_reducible apply Keep.refl
    | with_reducible assumption
    | (with_reducible apply Keep.step _ (laneDetect_keep ..) _; on_goal 2 => decide)
    | (with_reducible apply Keep.step _ (drawSeed_keep ..) _; on_goal 2 => decide)
    | (with_reducible apply Keep.step _ (setReason_keep ..) _; on_goal 2 => decide)
    | (with_reducible apply Keep.step _ (setSpSt_keep ..) _; on_goal 2 => decide)
    | (with_reducible apply Keep.step _ (setSpGroup_keep ..) _; on_goal 2 => decide)
    | (with_reducible apply Keep.step _ (set_keep ..) _; on_goal 2 => decide)
    | (with_reducible apply Keep.step _ (setSpGrp_keep ..) _; on_goal 2 => decide)
    | (with_reducible apply Keep.step _ (assignRoles_keep _ _ _ ‹_›) _; on_goal 2 => decide)
    | (with_reducible apply Keep.foldl; on_goal 2 => intro _ _ _)
    | (with_reducible apply Keep.ite <;> intro _)
    | split

theorem retryNoLane_keep (b : ℕ) (w : Wall) :
    Keep 0x304002000000000000000000060000000000001 w (retryNoLane b w) := by
  unfold retryNoLane
  try dsimp only
  repeat' first
    | with_reducible apply Keep.refl
    | with_reducible assumption
    | (with_reducible apply Keep.step _ (enterDetect_keep ..) _; on_goal 2 => decide)
    | (with_reducible apply Keep.upTo; on_goal 2 => intro _ _ _)
    | (with_reducible apply Keep.ite <;> intro _)

theorem setFails_keep (g : Group) (n : ℕ) (w : Wall) :
    Keep 0x40000000000001 w (setFails g n w) := by
  unfold setFails
  try dsimp only
  repeat' first
    | with_reducible apply Keep.refl
    | (with_reducible apply Keep.step _ (setGrp_keep ..) _; on_goal 2 => decide)
    | (with_reducible apply Keep.step _ (set_keep ..) _; on_goal 2 => decide)
    | split

theorem failRecord_keep (g : Group) (n : ℕ) (w : Wall) :
    Keep 0x2000000000000000000060000000000001 w (failRecord g n w) := by
  unfold failRecord
  try dsimp only
  repeat' first
    | with_reducible apply Keep.refl
    | with_reducible assumption
    | (with_reducible apply Keep.step _ (bump_keep ..) _; on_goal 2 => decide)
    | (with_reducible apply Keep.step _ (setGroupSt_keep ..) _; on_goal 2 => decide)
    | (with_reducible apply Keep.step _ (setFails_keep ..) _; on_goal 2 => decide)
    | (with_reducible apply Keep.step _ (set_keep ..) _; on_goal 2 => decide)
    | (with_reducible apply Keep.foldl; on_goal 2 => intro _ _ _)
    | split

theorem retire_keep (l : ℕ) (cause : ℕ) (w : Wall) :
    Keep 0x200602000000000000000000020090000000001 w (retire l cause w) := by
  unfold retire
  try dsimp only
  repeat' first
    | with_reducible apply Keep.refl
    | (with_reducible apply Keep.step _ (emit_keep ..) _; on_goal 2 => decide)
    | (with_reducible apply Keep.step _ (setUse_keep ..) _; on_goal 2 => decide)
    | (with_reducible apply Keep.step _ (setLaneSt_keep ..) _; on_goal 2 => decide)
    | (with_reducible apply Keep.step _ (raise_keep ..) _; on_goal 2 => decide)
    | (with_reducible apply Keep.step _ (set_keep ..) _; on_goal 2 => decide)
    | split

theorem holdForRetest_keep (l : ℕ) (fails : ℕ) (w : Wall) :
    Keep 0x2000000000000000000020000000000001 w (holdForRetest l fails w) := by
  unfold holdForRetest
  try dsimp only
  repeat' first
    | with_reducible apply Keep.refl
    | (with_reducible apply Keep.step _ (setUse_keep ..) _; on_goal 2 => decide)
    | (with_reducible apply Keep.step _ (setLaneSt_keep ..) _; on_goal 2 => decide)
    | (with_reducible apply Keep.step _ (modLane_keep ..) _; on_goal 2 => decide)
    | (with_reducible apply Keep.step _ (set_keep ..) _; on_goal 2 => decide)

theorem retestFailed_keep (l : ℕ) (w : Wall) :
    Keep 0x200602000000000000000000020090000000001 w (retestFailed l w) := by
  unfold retestFailed
  try dsimp only
  repeat' first
    | with_reducible apply Keep.refl
    | (with_reducible apply Keep.step _ (holdForRetest_keep ..) _; on_goal 2 => decide)
    | (with_reducible apply Keep.step _ (retire_keep ..) _; on_goal 2 => decide)
    | (with_reducible apply Keep.ite <;> intro _)

theorem fail_keep (g : Group) (n : ℕ) (w : Wall) :
    Keep 0x204603000000005f6038031c6e0090000000003 w (fail g n w) := by
  unfold fail
  try dsimp only
  repeat' first
    | with_reducible apply Keep.refl
    | (with_reducible apply Keep.step _ (retestFailed_keep ..) _; on_goal 2 => decide)
    | (with_reducible apply Keep.step _ (bump_keep ..) _; on_goal 2 => decide)
    | (with_reducible apply Keep.step _ (downCore_keep ..) _; on_goal 2 => decide)
    | (with_reducible apply Keep.step _ (failRecord_keep ..) _; on_goal 2 => decide)
    | (with_reducible apply Keep.ite <;> intro _)
    | split

theorem downRetrain_keep (sp : ℕ) (reason : ℕ) (w : Wall) :
    Keep 0x304603000000005f6038031c6e0090000000003 w (downRetrain sp reason w) := by
  unfold downRetrain
  try dsimp only
  repeat' first
    | with_reducible apply Keep.refl
    | (with_reducible apply Keep.step _ (setSpGroup_keep ..) _; on_goal 2 => decide)
    | (with_reducible apply Keep.step _ (downCore_keep ..) _; on_goal 2 => decide)
    | (with_reducible apply Keep.step _ (enterDetect_keep ..) _; on_goal 2 => decide)
    | (with_reducible apply Keep.step _ (failRecord_keep ..) _; on_goal 2 => decide)
    | (with_reducible apply Keep.ite <;> intro _)
    | split

theorem detectTimeout_keep (g : Group) (w : Wall) :
    Keep 0x204603000000005f6038031c6e0090000000003 w (detectTimeout g w) := by
  unfold detectTimeout
  try dsimp only
  repeat' first
    | with_reducible apply Keep.refl
    | (with_reducible apply Keep.step _ (fail_keep ..) _; on_goal 2 => decide)
    | (with_reducible apply Keep.ite <;> intro _)

theorem pam2Timeout_keep (g : Group) (w : Wall) :
    Keep 0x204603000000005f6038031c6e0090000000003 w (pam2Timeout g w) := by
  unfold pam2Timeout
  try dsimp only
  repeat' first
    | with_reducible apply Keep.refl
    | (with_reducible apply Keep.step _ (fail_keep ..) _; on_goal 2 => decide)
    | (with_reducible apply Keep.ite <;> intro _)

theorem trainingTimeout_keep (g : Group) (w : Wall) :
    Keep 0x204603000000005f6038031c6e0090000000003 w (trainingTimeout g w) := by
  unfold trainingTimeout
  try dsimp only
  repeat' first
    | with_reducible apply Keep.refl
    | (with_reducible apply Keep.step _ (fail_keep ..) _; on_goal 2 => decide)
    | (with_reducible apply Keep.ite <;> intro _)

theorem exchangeTimeout_keep (g : Group) (w : Wall) :
    Keep 0x204603000000005f6038031c6e0090000000003 w (exchangeTimeout g w) := by
  unfold exchangeTimeout
  try dsimp only
  repeat' first
    | with_reducible apply Keep.refl
    | (with_reducible apply Keep.step _ (fail_keep ..) _; on_goal 2 => decide)
    | (with_reducible apply Keep.ite <;> intro _)

theorem backoffExpiry_keep (g : Group) (w : Wall) :
    Keep 0x304002000000000000000000060000000000001 w (backoffExpiry g w) := by
  unfold backoffExpiry
  try dsimp only
  repeat' first
    | with_reducible apply Keep.refl
    | (with_reducible apply Keep.step _ (detectAlone_keep ..) _; on_goal 2 => decide)
    | (with_reducible apply Keep.step _ (enterDetect_keep ..) _; on_goal 2 => decide)
    | (with_reducible apply Keep.ite <;> intro _)
    | split

theorem listeningBurst_keep (g : Group) (w : Wall) :
    Keep 0x200000000000000000000000000000000000000 w (listeningBurst g w) := by
  unfold listeningBurst
  try dsimp only
  repeat' first
    | with_reducible apply Keep.refl
    | with_reducible assumption
    | (with_reducible apply Keep.step _ (emit_keep ..) _; on_goal 2 => decide)
    | (with_reducible apply Keep.foldl; on_goal 2 => intro _ _ _)
    | (with_reducible apply Keep.ite <;> intro _)
    | split

theorem activeHold_keep (sp : ℕ) (w : Wall) :
    Keep 0x40000000000001 w (activeHold sp w) := by
  unfold activeHold
  try dsimp only
  repeat' first
    | with_reducible apply Keep.refl
    | (with_reducible apply Keep.step _ (set_keep ..) _; on_goal 2 => decide)
    | (with_reducible apply Keep.step _ (setSpGrp_keep ..) _; on_goal 2 => decide)
    | (with_reducible apply Keep.ite <;> intro _)

theorem trainRestart_keep (p : ℕ) (v : ℕ) (w : Wall) :
    Keep 0x304002000000000000000000060000000000001 w (trainRestart p v w) := by
  unfold trainRestart
  try dsimp only
  repeat' first
    | with_reducible apply Keep.refl
    | with_reducible assumption
    | (with_reducible apply Keep.step _ (enterDetect_keep ..) _; on_goal 2 => decide)
    | (with_reducible apply Keep.foldl; on_goal 2 => intro _ _ _)
    | (with_reducible apply Keep.ite <;> intro _)

theorem tryReady_keep (g : Group) (l : ℕ) (w : Wall) :
    Keep 0x200000000000000000000000060000000000000 w (tryReady g l w) := by
  unfold tryReady
  try dsimp only
  repeat' first
    | with_reducible apply Keep.refl
    | (with_reducible apply Keep.step _ (setLane_keep ..) _; on_goal 2 => decide)
    | (with_reducible apply Keep.step _ (setGrp_keep ..) _; on_goal 2 => decide)
    | (with_reducible apply Keep.step _ (emit_keep ..) _; on_goal 2 => decide)
    | (with_reducible apply Keep.ite <;> intro _)
    | split

theorem detectDone_keep (g : Group) (w : Wall) :
    Keep 0x200002000000000000000000060000000000001 w (detectDone g w) := by
  unfold detectDone
  try dsimp only
  repeat' first
    | with_reducible apply Keep.refl
    | with_reducible assumption
    | (with_reducible apply Keep.step _ (setGroupSt_keep ..) _; on_goal 2 => decide)
    | (with_reducible apply Keep.step _ (tryReady_keep ..) _; on_goal 2 => decide)
    | (with_reducible apply Keep.step _ (set_keep ..) _; on_goal 2 => decide)
    | (with_reducible apply Keep.step _ (setSpGrp_keep ..) _; on_goal 2 => decide)
    | (with_reducible apply Keep.foldl; on_goal 2 => intro _ _ _)
    | (with_reducible apply Keep.ite <;> intro _)
    | split

theorem joinRole_keep (l : ℕ) (role : ℕ) (seed : ℕ) (w : Wall) :
    ∀ y, (joinRole l role seed w) = some y → Keep 0x300002000000000000000000020000000000001 w y := by
  intro y h
  unfold joinRole at h
  try dsimp only at h
  repeat' split at h
  all_goals first
    | (cases h <;> repeat' first
      | with_reducible apply Keep.refl
      | (with_reducible apply Keep.step _ (laneDetect_keep ..) _; on_goal 2 => decide)
      | (with_reducible apply Keep.step _ (detectAlone_keep ..) _; on_goal 2 => decide)
      | (with_reducible apply Keep.step _ (assign_keep ..) _; on_goal 2 => decide)
      | (with_reducible apply Keep.step _ (releaseLane_keep ..) _; on_goal 2 => decide))

theorem helloHeard_keep (l : Lane) (rates : ℕ) (role : ℕ) (seed : ℕ) (w : Wall) :
    Keep 0x304603000000005f6038031c6e0090000000003 w (helloHeard l rates role seed w) := by
  unfold helloHeard
  try dsimp only
  repeat' first
    | with_reducible apply Keep.refl
    | with_reducible assumption
    | (with_reducible apply Keep.step _ (setLane_keep ..) _; on_goal 2 => decide)
    | (with_reducible apply Keep.step _ (drawSeed_keep ..) _; on_goal 2 => decide)
    | (with_reducible apply Keep.step _ (tryReady_keep ..) _; on_goal 2 => decide)
    | (with_reducible apply Keep.step _ (modLane_keep ..) _; on_goal 2 => decide)
    | (with_reducible apply Keep.step _ (fail_keep ..) _; on_goal 2 => decide)
    | (with_reducible apply Keep.foldl; on_goal 2 => intro _ _ _)
    | (rename_i heq; split at heq; (· exact Keep.step .refl (joinRole_keep _ _ _ _ _ heq) (by decide)); (· cases heq))
    | (with_reducible apply Keep.ite <;> intro _)
    | split

theorem trainingFrame_keep (l : Lane) (good : Bool) (msg : List Byte) (inv : Bool) (w : Wall) :
    Keep 0x304002000000000000000000060000000000001 w (trainingFrame l good msg inv w) := by
  unfold trainingFrame
  try dsimp only
  repeat' first
    | with_reducible apply Keep.refl
    | with_reducible assumption
    | (with_reducible apply Keep.step _ (setLane_keep ..) _; on_goal 2 => decide)
    | (with_reducible apply Keep.step _ (detectAlone_keep ..) _; on_goal 2 => decide)
    | (with_reducible apply Keep.step _ (setFails_keep ..) _; on_goal 2 => decide)
    | (with_reducible apply Keep.step _ (modLane_keep ..) _; on_goal 2 => decide)
    | (with_reducible apply Keep.step _ (enterDetect_keep ..) _; on_goal 2 => decide)
    | (with_reducible apply Keep.step _ (set_keep ..) _; on_goal 2 => decide)
    | (with_reducible apply Keep.step _ (bump_keep ..) _; on_goal 2 => decide)
    | (with_reducible apply Keep.when; on_goal 2 => intro _ _)
    | (with_reducible apply Keep.ite <;> intro _)
    | split

theorem readyHeard_keep (l : Lane) (count : ℕ) (w : Wall) :
    Keep 0x20000000000000 w (readyHeard l count w) := by
  unfold readyHeard
  try dsimp only
  repeat' first
    | with_reducible apply Keep.refl
    | (with_reducible apply Keep.step _ (modLane_keep ..) _; on_goal 2 => decide)
    | (with_reducible apply Keep.ite <;> intro _)

theorem readyEnd_keep (l : Lane) (w : Wall) :
    Keep 0x2000000000000000000020000000000001 w (readyEnd l w) := by
  unfold readyEnd
  try dsimp only
  repeat' first
    | with_reducible apply Keep.refl
    | (with_reducible apply Keep.step _ (setGroupSt_keep ..) _; on_goal 2 => decide)
    | (with_reducible apply Keep.step _ (modLane_keep ..) _; on_goal 2 => decide)
    | (with_reducible apply Keep.ite <;> intro _)

theorem rxReadySet_keep (l : Lane) (coarse : List ℕ) (fine : List ℕ) (w : Wall) :
    Keep 0x2000000000000000000020000000000001 w (rxReadySet l coarse fine w) := by
  unfold rxReadySet
  try dsimp only
  repeat' first
    | with_reducible apply Keep.refl
    | (with_reducible apply Keep.step _ (setGroupSt_keep ..) _; on_goal 2 => decide)
    | (with_reducible apply Keep.step _ (modLane_keep ..) _; on_goal 2 => decide)
    | (with_reducible apply Keep.step _ (set_keep ..) _; on_goal 2 => decide)
    | (with_reducible apply Keep.ite <;> intro _)

theorem aloneTrained_keep (l : ℕ) (w : Wall) :
    Keep 0x2000000000000000000060000000000001 w (aloneTrained l w) := by
  unfold aloneTrained
  try dsimp only
  repeat' first
    | with_reducible apply Keep.refl
    | (with_reducible apply Keep.step _ (setLaneSt_keep ..) _; on_goal 2 => decide)
    | (with_reducible apply Keep.step _ (setFails_keep ..) _; on_goal 2 => decide)
    | (with_reducible apply Keep.step _ (modLane_keep ..) _; on_goal 2 => decide)
    | (with_reducible apply Keep.ite <;> intro _)
    | split

theorem trainingEnd_keep (l : Lane) (w : Wall) :
    Keep 0x2000000000000000000060000000000001 w (trainingEnd l w) := by
  unfold trainingEnd
  try dsimp only
  repeat' first
    | with_reducible apply Keep.refl
    | (with_reducible apply Keep.step _ (setGroupSt_keep ..) _; on_goal 2 => decide)
    | (with_reducible apply Keep.step _ (modLane_keep ..) _; on_goal 2 => decide)
    | (with_reducible apply Keep.step _ (aloneTrained_keep ..) _; on_goal 2 => decide)
    | (with_reducible apply Keep.ite <;> intro _)
    | split

theorem sendGroup_keep (sp : ℕ) (kind : ℕ) (exch : ℕ) (payload : ℕ) (w : Wall) :
    Keep 0x200000000000000000000000000000000000000 w (sendGroup sp kind exch payload w) := by
  unfold sendGroup
  try dsimp only
  repeat' first
    | with_reducible apply Keep.refl
    | with_reducible assumption
    | (with_reducible apply Keep.step _ (emit_keep ..) _; on_goal 2 => decide)
    | (with_reducible apply Keep.foldl; on_goal 2 => intro _ _ _)
    | split

theorem enterActive_keep (sp : ℕ) (caps : ℕ) (w : Wall) :
    Keep 0x204602000000000000001008060090000000001 w (enterActive sp caps w) := by
  unfold enterActive
  try dsimp only
  repeat' first
    | with_reducible apply Keep.refl
    | with_reducible assumption
    | (with_reducible apply Keep.step _ (setSpGroup_keep ..) _; on_goal 2 => decide)
    | (with_reducible apply Keep.step _ (set_keep ..) _; on_goal 2 => decide)
    | (with_reducible apply Keep.step _ (fcCheckAll_keep ..) _; on_goal 2 => decide)
    | (with_reducible apply Keep.step _ (setSpSt_keep ..) _; on_goal 2 => decide)
    | (with_reducible apply Keep.step _ (raise_keep ..) _; on_goal 2 => decide)
    | (with_reducible apply Keep.step _ (setSpGrp_keep ..) _; on_goal 2 => decide)
    | (with_reducible apply Keep.ingU; on_goal 2 => (generalize Wall.ing _ = z; revert z; refine id ?_; intro z; refine IngressSt.Keep.mk .refl .refl .refl .refl (.free (by decide)) .refl .refl .refl .refl .refl .refl .refl .refl .refl .refl .refl .refl .refl .refl .refl .refl (fun ⟨k0, k1, k2, k3, k4, k5, k6, k7, k8, k9, k10, k11, k12, k13, k14, k15, k16⟩ => ?_); constructor <;> dsimp only))
    | with_reducible apply twf_tputD

theorem blockLock_keep (g : Group) (w : Wall) :
    Keep 0x204602000000000000001008060090000000001 w (blockLock g w) := by
  unfold blockLock
  try dsimp only
  repeat' first
    | with_reducible apply Keep.refl
    | (with_reducible apply Keep.step _ (setGroupSt_keep ..) _; on_goal 2 => decide)
    | (with_reducible apply Keep.step _ (sendGroup_keep ..) _; on_goal 2 => decide)
    | (with_reducible apply Keep.step _ (enterActive_keep ..) _; on_goal 2 => decide)
    | (with_reducible apply Keep.step _ (setSpGrp_keep ..) _; on_goal 2 => decide)
    | (with_reducible apply Keep.ite <;> intro _)
    | split

theorem offerHeard_keep (sp : ℕ) (exch : ℕ) (payload : ℕ) (w : Wall) :
    Keep 0x200000000000000000000000040000000000000 w (offerHeard sp exch payload w) := by
  unfold offerHeard
  try dsimp only
  repeat' first
    | with_reducible apply Keep.refl
    | (with_reducible apply Keep.step _ (sendGroup_keep ..) _; on_goal 2 => decide)
    | (with_reducible apply Keep.step _ (setSpGrp_keep ..) _; on_goal 2 => decide)
    | (with_reducible apply Keep.ite <;> intro _)
    | split

theorem acceptHeard_keep (sp : ℕ) (exch : ℕ) (payload : ℕ) (w : Wall) :
    Keep 0x200000000000000000000000040000000000000 w (acceptHeard sp exch payload w) := by
  unfold acceptHeard
  try dsimp only
  repeat' first
    | with_reducible apply Keep.refl
    | (with_reducible apply Keep.step _ (sendGroup_keep ..) _; on_goal 2 => decide)
    | (with_reducible apply Keep.step _ (setSpGrp_keep ..) _; on_goal 2 => decide)
    | (with_reducible apply Keep.ite <;> intro _)

theorem confirmHeard_keep (sp : ℕ) (exch : ℕ) (w : Wall) :
    Keep 0x204602000000000000001008060090000000001 w (confirmHeard sp exch w) := by
  unfold confirmHeard
  try dsimp only
  repeat' first
    | with_reducible apply Keep.refl
    | (with_reducible apply Keep.step _ (sendGroup_keep ..) _; on_goal 2 => decide)
    | (with_reducible apply Keep.step _ (enterActive_keep ..) _; on_goal 2 => decide)
    | (with_reducible apply Keep.ite <;> intro _)
    | split

theorem statusHeard_keep (l : Lane) (exch : ℕ) (payload : ℕ) (w : Wall) :
    Keep 0x204602000000000000001008060090000000001 w (statusHeard l exch payload w) := by
  unfold statusHeard
  try dsimp only
  repeat' first
    | with_reducible apply Keep.refl
    | (with_reducible apply Keep.step _ (enterActive_keep ..) _; on_goal 2 => decide)
    | (with_reducible apply Keep.step _ (modLane_keep ..) _; on_goal 2 => decide)
    | (with_reducible apply Keep.ite <;> intro _)
    | split

end Sys2Proof.Machine
end

