-- ==== Sys2Proof/Laws/KeepRepoint.lean ====
section
/-! SUPPORT. What each operation of Machine/Repoint.lean may change. -/

set_option linter.unusedTactic false
set_option linter.unreachableTactic false

open Sys2Proof

namespace Sys2Proof.Machine

theorem sendExch_keep (k : ℕ) (e : Exch) (kind : ℕ) (payload : ℕ) (w : Wall) :
    Keep 0x200000000000000000000000000000000000000 w (sendExch k e kind payload w) := by
  unfold sendExch
  try dsimp only
  repeat' first
    | with_reducible apply Keep.refl
    | (with_reducible apply Keep.step _ (emit_keep ..) _; on_goal 2 => decide)
    | (with_reducible apply Keep.step _ (sendGroup_keep ..) _; on_goal 2 => decide)
    | split

theorem bridge_keep (k : ℕ) (l : ℕ) (w : Wall) :
    Keep 0x2000000000000000000020000000000001 w (bridge k l w) := by
  unfold bridge
  try dsimp only
  repeat' first
    | with_reducible apply Keep.refl
    | (with_reducible apply Keep.step _ (set_keep ..) _; on_goal 2 => decide)
    | (with_reducible apply Keep.step _ (setUse_keep ..) _; on_goal 2 => decide)
    | (with_reducible apply Keep.step _ (setLaneSt_keep ..) _; on_goal 2 => decide)

theorem startExch_keep (k : ℕ) (spare : ℕ) (unplanned : Bool) (survey : Bool) (retire_ : Bool) (w : Wall) :
    Keep 0x2000020000000000000000001a0000000000001 w (startExch k spare unplanned survey retire_ w) := by
  unfold startExch
  try dsimp only
  repeat' first
    | with_reducible apply Keep.refl
    | with_reducible assumption
    | (with_reducible apply Keep.step _ (sendExch_keep ..) _; on_goal 2 => decide)
    | (with_reducible apply Keep.step _ (putExch_keep ..) _; on_goal 2 => decide)
    | (with_reducible apply Keep.step _ (bridge_keep ..) _; on_goal 2 => decide)
    | (with_reducible apply Keep.when; on_goal 2 => intro _ _)
    | (with_reducible apply Keep.lanU; on_goal 2 => (generalize Wall.lan _ = z; revert z; refine id ?_; intro z; refine LaneSt.Keep.mk (.free (by decide)) .refl (.free (by decide)) (.free (by decide)) .refl .refl .refl .refl (fun ⟨k0, k1, k2, k3, k4, k5, k6⟩ => ?_); constructor <;> dsimp only))
    | with_reducible apply twf_tput
    | split

theorem claimSpare_keep (lane : ℕ) (k : ℕ) (w : Wall) :
    Keep 0x2000020000000000000000005a0000000000001 w (claimSpare lane k w) := by
  unfold claimSpare
  try dsimp only
  repeat' first
    | with_reducible apply Keep.refl
    | with_reducible assumption
    | (with_reducible apply Keep.step _ (startExch_keep ..) _; on_goal 2 => decide)
    | (with_reducible apply Keep.lanU; on_goal 2 => (generalize Wall.lan _ = z; revert z; refine id ?_; intro z; refine LaneSt.Keep.mk (.free (by decide)) .refl (.free (by decide)) (.free (by decide)) .refl (.free (by decide)) .refl .refl (fun ⟨k0, k1, k2, k3, k4, k5, k6⟩ => ?_); constructor <;> dsimp only))
    | with_reducible apply twf_tput
    | split

theorem faultRole_keep (k : ℕ) (sp : ℕ) (w : Wall) :
    Keep 0x304603000000005f6038031c7e0090000000003 w (faultRole k sp w) := by
  unfold faultRole
  try dsimp only
  repeat' first
    | with_reducible apply Keep.refl
    | (with_reducible apply Keep.step _ (claimSpare_keep ..) _; on_goal 2 => decide)
    | (with_reducible apply Keep.step _ (downRetrain_keep ..) _; on_goal 2 => decide)
    | (with_reducible apply Keep.step _ (startExch_keep ..) _; on_goal 2 => decide)
    | (with_reducible apply Keep.ite <;> intro _)
    | split

theorem spareFault_keep (l : ℕ) (w : Wall) :
    Keep 0x2006020000000000000000006a0090000000001 w (spareFault l w) := by
  unfold spareFault
  try dsimp only
  repeat' first
    | with_reducible apply Keep.refl
    | (with_reducible apply Keep.step _ (delSurvey_keep ..) _; on_goal 2 => decide)
    | (with_reducible apply Keep.step _ (abandon_keep ..) _; on_goal 2 => decide)
    | (with_reducible apply Keep.step _ (holdForRetest_keep ..) _; on_goal 2 => decide)
    | (with_reducible apply Keep.step _ (clearCurrent_keep ..) _; on_goal 2 => decide)
    | (with_reducible apply Keep.ite <;> intro _)
    | split

theorem laneFault_keep (l : Lane) (w : Wall) :
    Keep 0x304643000000005f6038031c7e0090000000003 w (laneFault l w) := by
  unfold laneFault
  try dsimp only
  repeat' first
    | with_reducible apply Keep.refl
    | with_reducible assumption
    | (with_reducible apply Keep.step _ (holdForRetest_keep ..) _; on_goal 2 => decide)
    | (with_reducible apply Keep.step _ (sendExch_keep ..) _; on_goal 2 => decide)
    | (with_reducible apply Keep.step _ (abandon_keep ..) _; on_goal 2 => decide)
    | (with_reducible apply Keep.step _ (faultRole_keep ..) _; on_goal 2 => decide)
    | (with_reducible apply Keep.step _ (spareFault_keep ..) _; on_goal 2 => decide)
    | (with_reducible apply Keep.step _ (putExch_keep ..) _; on_goal 2 => decide)
    | (with_reducible apply Keep.step _ (pulse_keep ..) _; on_goal 2 => decide)
    | (with_reducible apply Keep.when; on_goal 2 => intro _ _)
    | (with_reducible apply Keep.ite <;> intro _)
    | split

theorem almCommit_keep (r : AlmRec) (w : Wall) :
    Keep 0xb00000000000001000020000000001 w (almCommit r w) := by
  unfold almCommit
  try dsimp only
  repeat' first
    | with_reducible apply Keep.refl
    | with_reducible assumption
    | (with_reducible apply Keep.step _ (bump_keep ..) _; on_goal 2 => decide)
    | (with_reducible apply Keep.step _ (askSheaves_keep ..) _; on_goal 2 => decide)
    | (with_reducible apply Keep.step _ (newDom_keep ..) _; on_goal 2 => decide)
    | (with_reducible apply Keep.when; on_goal 2 => intro _ _)
    | (with_reducible apply Keep.lanU; on_goal 2 => (generalize Wall.lan _ = z; revert z; refine id ?_; intro z; refine LaneSt.Keep.mk .refl .refl .refl .refl .refl .refl .refl (.free (by decide)) (fun ⟨k0, k1, k2, k3, k4, k5, k6⟩ => ?_); constructor <;> dsimp only))
    | (with_reducible apply Keep.graU; on_goal 2 => (generalize Wall.gra _ = z; revert z; refine id ?_; intro z; refine GranarySt.Keep.mk .refl .refl .refl .refl .refl (.free (by decide)) (.free (by decide)) .refl (.free (by decide)) .refl .refl .refl .refl .refl .refl .refl .refl .refl .refl .refl .refl (fun ⟨k0, k1, k2, k3, k4, k5, k6, k7, k8⟩ => ?_); constructor <;> dsimp only))
    | with_reducible apply twf_tput
    | (with_reducible apply Keep.ite <;> intro _)

theorem q16_keep (num : ℤ) (den : ℤ) (w : Wall) :
    Keep 0x100000000000000000000000000000000000000 w (q16 num den w).2 := by
  unfold q16
  try dsimp only
  repeat' first
    | with_reducible apply Keep.refl
    | (with_reducible apply Keep.step _ (took_keep ..) _; on_goal 2 => decide)
    | split

theorem showTrend_keep (l : ℕ) (pts : List AlmRec) (w : Wall) :
    Keep 0x100000000000000000000000000000000000001 w (showTrend l pts w) := by
  unfold showTrend
  try dsimp only
  repeat' first
    | with_reducible apply Keep.refl
    | (with_reducible apply Keep.step _ (q16_keep ..) _; on_goal 2 => decide)
    | (with_reducible apply Keep.step _ (setI_keep ..) _; on_goal 2 => decide)
    | split

theorem showSurvey_keep (r : AlmRec) (w : Wall) :
    Keep 0x1 w (showSurvey r w) := by
  unfold showSurvey
  try dsimp only
  repeat' first
    | with_reducible apply Keep.refl
    | (with_reducible apply Keep.step _ (set_keep ..) _; on_goal 2 => decide)

theorem applyPlan_keep (l : ℕ) (p : Replan) (w : Wall) :
    Keep 0x1 w (applyPlan l p w) := by
  unfold applyPlan
  try dsimp only
  repeat' first
    | with_reducible apply Keep.refl
    | (with_reducible apply Keep.step _ (bump_keep ..) _; on_goal 2 => decide)
    | (with_reducible apply Keep.step _ (setI_keep ..) _; on_goal 2 => decide)
    | (with_reducible apply Keep.step _ (set_keep ..) _; on_goal 2 => decide)
    | (with_reducible apply Keep.ite <;> intro _)
    | split

theorem surveyPlan_keep (l : ℕ) (role : Option ℕ) (m : SurveyMeas) (re : Option SurveyMeas) (again : Option SurveyMeas) (s : SurveyRt) (w : Wall) :
    Keep 0x300602000000000000000000000090000000001 w (surveyPlan l role m re again s w).2.2 := by
  unfold surveyPlan
  try dsimp only
  repeat' first
    | with_reducible apply Keep.refl
    | (with_reducible apply Keep.step _ (showTrend_keep ..) _; on_goal 2 => decide)
    | (with_reducible apply Keep.step _ (applyPlan_keep ..) _; on_goal 2 => decide)
    | (with_reducible apply Keep.step _ (raise_keep ..) _; on_goal 2 => decide)
    | split

theorem leaveLane_keep (e : Exch) (w : Wall) :
    Keep 0x200602000000000000000000020090000000001 w (leaveLane e w) := by
  unfold leaveLane
  try dsimp only
  repeat' first
    | with_reducible apply Keep.refl
    | (with_reducible apply Keep.step _ (setLaneSt_keep ..) _; on_goal 2 => decide)
    | (with_reducible apply Keep.step _ (setUse_keep ..) _; on_goal 2 => decide)
    | (with_reducible apply Keep.step _ (toSpare_keep ..) _; on_goal 2 => decide)
    | (with_reducible apply Keep.step _ (holdForRetest_keep ..) _; on_goal 2 => decide)
    | (with_reducible apply Keep.step _ (set_keep ..) _; on_goal 2 => decide)
    | (with_reducible apply Keep.step _ (retire_keep ..) _; on_goal 2 => decide)
    | (with_reducible apply Keep.ite <;> intro _)

theorem surveyAfter_keep (k : ℕ) (e : Exch) (w : Wall) :
    Keep 0x2040020000000000000000007a0000000000001 w (surveyAfter k e w) := by
  unfold surveyAfter
  try dsimp only
  repeat' first
    | with_reducible apply Keep.refl
    | with_reducible assumption
    | (with_reducible apply Keep.step _ (startExch_keep ..) _; on_goal 2 => decide)
    | (with_reducible apply Keep.step _ (delSurvey_keep ..) _; on_goal 2 => decide)
    | (with_reducible apply Keep.step _ (setSpSt_keep ..) _; on_goal 2 => decide)
    | (with_reducible apply Keep.step _ (clearCurrent_keep ..) _; on_goal 2 => decide)
    | (with_reducible apply Keep.when; on_goal 2 => intro _ _)
    | (with_reducible apply Keep.lanU; on_goal 2 => (generalize Wall.lan _ = z; revert z; refine id ?_; intro z; refine LaneSt.Keep.mk (.free (by decide)) .refl (.free (by decide)) (.free (by decide)) (.free (by decide)) (.free (by decide)) .refl .refl (fun ⟨k0, k1, k2, k3, k4, k5, k6⟩ => ?_); constructor <;> dsimp only))
    | with_reducible apply twf_tput
    | (with_reducible apply Keep.ite <;> intro _)
    | split

theorem completeExch_keep (k : ℕ) (w : Wall) :
    Keep 0x2046020000000000000000027a0090000000001 w (completeExch k w) := by
  unfold completeExch
  try dsimp only
  repeat' first
    | with_reducible apply Keep.refl
    | (with_reducible apply Keep.step _ (setLaneSt_keep ..) _; on_goal 2 => decide)
    | (with_reducible apply Keep.step _ (surveyAfter_keep ..) _; on_goal 2 => decide)
    | (with_reducible apply Keep.step _ (assign_keep ..) _; on_goal 2 => decide)
    | (with_reducible apply Keep.step _ (quietRetry_keep ..) _; on_goal 2 => decide)
    | (with_reducible apply Keep.step _ (set_keep ..) _; on_goal 2 => decide)
    | (with_reducible apply Keep.step _ (leaveLane_keep ..) _; on_goal 2 => decide)
    | (with_reducible apply Keep.step _ (bump_keep ..) _; on_goal 2 => decide)
    | (with_reducible apply Keep.step _ (raise_keep ..) _; on_goal 2 => decide)
    | (with_reducible apply Keep.step _ (delExch_keep ..) _; on_goal 2 => decide)
    | (with_reducible apply Keep.ite <;> intro _)
    | split

theorem takeRole_keep (k : ℕ) (e : Exch) (shift : ℤ) (w : Wall) :
    Keep 0x2046020000000000000000027a0090000000001 w (takeRole k e shift w) := by
  unfold takeRole
  try dsimp only
  repeat' first
    | with_reducible apply Keep.refl
    | (with_reducible apply Keep.step _ (completeExch_keep ..) _; on_goal 2 => decide)
    | (with_reducible apply Keep.step _ (sendExch_keep ..) _; on_goal 2 => decide)
    | (with_reducible apply Keep.step _ (setI_keep ..) _; on_goal 2 => decide)
    | (with_reducible apply Keep.step _ (putExch_keep ..) _; on_goal 2 => decide)
    | (with_reducible apply Keep.ite <;> intro _)
    | split

theorem refuse_keep (sp : ℕ) (exch : ℕ) (role : ℕ) (reason : ℕ) (w : Wall) :
    Keep 0x200000000000000000000000000000000000000 w (refuse sp exch role reason w) := by
  unfold refuse
  try dsimp only
  repeat' first
    | with_reducible apply Keep.refl
    | (with_reducible apply Keep.step _ (sendGroup_keep ..) _; on_goal 2 => decide)

theorem acceptPrepare_keep (k : ℕ) (exch : ℕ) (mine : ℕ) (theirs : ℕ) (unplanned : Bool) (survey : Bool) (retire_ : Bool) (w : Wall) :
    Keep 0x2000020000000000000000000a0000000000001 w (acceptPrepare k exch mine theirs unplanned survey retire_ w) := by
  unfold acceptPrepare
  try dsimp only
  repeat' first
    | with_reducible apply Keep.refl
    | (with_reducible apply Keep.step _ (putExch_keep ..) _; on_goal 2 => decide)
    | (with_reducible apply Keep.step _ (sendExch_keep ..) _; on_goal 2 => decide)
    | (with_reducible apply Keep.step _ (bridge_keep ..) _; on_goal 2 => decide)

theorem prepareHeard_keep (l : Lane) (exch : ℕ) (payload : ℕ) (w : Wall) :
    Keep 0x2006020000000000000000000a0090000000001 w (prepareHeard l exch payload w) := by
  unfold prepareHeard
  try dsimp only
  repeat' first
    | with_reducible apply Keep.refl
    | (with_reducible apply Keep.step _ (acceptPrepare_keep ..) _; on_goal 2 => decide)
    | (with_reducible apply Keep.step _ (sendExch_keep ..) _; on_goal 2 => decide)
    | (with_reducible apply Keep.step _ (refuse_keep ..) _; on_goal 2 => decide)
    | (with_reducible apply Keep.step _ (abandon_keep ..) _; on_goal 2 => decide)
    | (with_reducible apply Keep.ite <;> intro _)
    | split

theorem exchReady_keep (l : Lane) (exch : ℕ) (payload : ℕ) (w : Wall) :
    Keep 0x2000020000000000000000000a0000000000001 w (exchReady l exch payload w) := by
  unfold exchReady
  try dsimp only
  repeat' first
    | with_reducible apply Keep.refl
    | with_reducible assumption
    | (with_reducible apply Keep.step _ (sendExch_keep ..) _; on_goal 2 => decide)
    | (with_reducible apply Keep.step _ (putExch_keep ..) _; on_goal 2 => decide)
    | (with_reducible apply Keep.step _ (bridge_keep ..) _; on_goal 2 => decide)
    | (with_reducible apply Keep.when; on_goal 2 => intro _ _)
    | (with_reducible apply Keep.ite <;> intro _)
    | split

theorem bridgeDone_keep (p : ℕ) (role : ℕ) (w : Wall) :
    Keep 0x200000000000000000000000080000000000000 w (bridgeDone p role w) := by
  unfold bridgeDone
  try dsimp only
  repeat' first
    | with_reducible apply Keep.refl
    | (with_reducible apply Keep.step _ (putExch_keep ..) _; on_goal 2 => decide)
    | (with_reducible apply Keep.step _ (sendExch_keep ..) _; on_goal 2 => decide)
    | (with_reducible apply Keep.ite <;> intro _)
    | split

theorem rollHeard_keep (l : Lane) (exch : ℕ) (payload : ℕ) (codeword : ℕ) (w : Wall) :
    Keep 0x80000000000000 w (rollHeard l exch payload codeword w) := by
  unfold rollHeard
  try dsimp only
  repeat' first
    | with_reducible apply Keep.refl
    | (with_reducible apply Keep.step _ (putExch_keep ..) _; on_goal 2 => decide)
    | (with_reducible apply Keep.ite <;> intro _)
    | split

theorem rollCodeword_keep (p : ℕ) (role : ℕ) (shift : ℤ) (w : Wall) :
    Keep 0x2046020000000000000000027a0090000000001 w (rollCodeword p role shift w) := by
  unfold rollCodeword
  try dsimp only
  repeat' first
    | with_reducible apply Keep.refl
    | (with_reducible apply Keep.step _ (takeRole_keep ..) _; on_goal 2 => decide)
    | (with_reducible apply Keep.ite <;> intro _)
    | split

theorem rolledHeard_keep (l : Lane) (exch : ℕ) (payload : ℕ) (w : Wall) :
    Keep 0x2046020000000000000000027a0090000000001 w (rolledHeard l exch payload w) := by
  unfold rolledHeard
  try dsimp only
  repeat' first
    | with_reducible apply Keep.refl
    | (with_reducible apply Keep.step _ (completeExch_keep ..) _; on_goal 2 => decide)
    | (with_reducible apply Keep.step _ (putExch_keep ..) _; on_goal 2 => decide)
    | (with_reducible apply Keep.ite <;> intro _)
    | split

theorem rollTimeout_keep (p : ℕ) (role : ℕ) (w : Wall) :
    Keep 0x2006020000000000000000000a0090000000001 w (rollTimeout p role w) := by
  unfold rollTimeout
  try dsimp only
  repeat' first
    | with_reducible apply Keep.refl
    | (with_reducible apply Keep.step _ (sendExch_keep ..) _; on_goal 2 => decide)
    | (with_reducible apply Keep.step _ (abandon_keep ..) _; on_goal 2 => decide)
    | (with_reducible apply Keep.step _ (putExch_keep ..) _; on_goal 2 => decide)
    | (with_reducible apply Keep.ite <;> intro _)
    | split

theorem spareDeskewed_keep (p : ℕ) (role : ℕ) (shift : ℤ) (ns : ℕ) (w : Wall) :
    Keep 0x2046020000000000000000027a0090000000001 w (spareDeskewed p role shift ns w) := by
  unfold spareDeskewed
  try dsimp only
  repeat' first
    | with_reducible apply Keep.refl
    | with_reducible assumption
    | (with_reducible apply Keep.step _ (takeRole_keep ..) _; on_goal 2 => decide)
    | (with_reducible apply Keep.step _ (set_keep ..) _; on_goal 2 => decide)
    | (with_reducible apply Keep.when; on_goal 2 => intro _ _)
    | (with_reducible apply Keep.ite <;> intro _)
    | split

theorem refuseHeard_keep (l : Lane) (exch : ℕ) (payload : ℕ) (w : Wall) :
    Keep 0x304603000000005f6038031c6e0090000000003 w (refuseHeard l exch payload w) := by
  unfold refuseHeard
  try dsimp only
  repeat' first
    | with_reducible apply Keep.refl
    | (with_reducible apply Keep.step _ (delSurvey_keep ..) _; on_goal 2 => decide)
    | (with_reducible apply Keep.step _ (abandon_keep ..) _; on_goal 2 => decide)
    | (with_reducible apply Keep.step _ (clearCurrent_keep ..) _; on_goal 2 => decide)
    | (with_reducible apply Keep.step _ (downRetrain_keep ..) _; on_goal 2 => decide)
    | (with_reducible apply Keep.ite <;> intro _)
    | split

theorem spareHeard_keep (l : Lane) (payload : ℕ) (w : Wall) :
    Keep 0x304002000000000000000000060000000000001 w (spareHeard l payload w) := by
  unfold spareHeard
  try dsimp only
  repeat' first
    | with_reducible apply Keep.refl
    | with_reducible assumption
    | (with_reducible apply Keep.step _ (modLane_keep ..) _; on_goal 2 => decide)
    | (with_reducible apply Keep.step _ (retryNoLane_keep ..) _; on_goal 2 => decide)
    | (with_reducible apply Keep.when; on_goal 2 => intro _ _)
    | (with_reducible apply Keep.ite <;> intro _)

theorem retireHeard_keep (l : Lane) (payload : ℕ) (w : Wall) :
    Keep 0x200602000000000000000000620090000000001 w (retireHeard l payload w) := by
  unfold retireHeard
  try dsimp only
  repeat' first
    | with_reducible apply Keep.refl
    | (with_reducible apply Keep.step _ (endSurvey_keep ..) _; on_goal 2 => decide)
    | (with_reducible apply Keep.step _ (retire_keep ..) _; on_goal 2 => decide)
    | (with_reducible apply Keep.ite <;> intro _)
    | split

theorem spareBurst_keep (l : Lane) (w : Wall) :
    Keep 0x200000000000000000000000000000000000000 w (spareBurst l w) := by
  unfold spareBurst
  try dsimp only
  repeat' first
    | with_reducible apply Keep.refl
    | (with_reducible apply Keep.step _ (emit_keep ..) _; on_goal 2 => decide)
    | (with_reducible apply Keep.ite <;> intro _)

theorem retestStart_keep (l : Lane) (w : Wall) :
    Keep 0x300002000000000000000000020000000000001 w (retestStart l w) := by
  unfold retestStart
  try dsimp only
  repeat' first
    | with_reducible apply Keep.refl
    | (with_reducible apply Keep.step _ (detectAlone_keep ..) _; on_goal 2 => decide)
    | (with_reducible apply Keep.step _ (modLane_keep ..) _; on_goal 2 => decide)
    | (with_reducible apply Keep.ite <;> intro _)

theorem retestMeasured_keep (l : Lane) (m : SurveyMeas) (w : Wall) :
    Keep 0x300602000000000000000000020090000000001 w (retestMeasured l m w) := by
  unfold retestMeasured
  try dsimp only
  repeat' first
    | with_reducible apply Keep.refl
    | (with_reducible apply Keep.step _ (detectAlone_keep ..) _; on_goal 2 => decide)
    | (with_reducible apply Keep.step _ (retestFailed_keep ..) _; on_goal 2 => decide)
    | (with_reducible apply Keep.step _ (setLaneSt_keep ..) _; on_goal 2 => decide)
    | (with_reducible apply Keep.step _ (modLane_keep ..) _; on_goal 2 => decide)
    | (with_reducible apply Keep.step _ (setUse_keep ..) _; on_goal 2 => decide)
    | (with_reducible apply Keep.ite <;> intro _)

theorem retireClear_keep (l : ℕ) (w : Wall) :
    WRes.Keep 0x2000000000000000000020000000000001 w (retireClear l w) := by
  unfold retireClear
  try dsimp only
  repeat' first
    | with_reducible apply Keep.refl
    | (with_reducible apply Keep.step _ (holdForRetest_keep ..) _; on_goal 2 => decide)
    | (with_reducible apply Keep.step _ (set_keep ..) _; on_goal 2 => decide)
    | with_reducible apply WRes.Keep.abort
    | with_reducible apply WRes.Keep.okI
    | (with_reducible apply WRes.Keep.ite <;> intro _)

theorem spareRate_keep (b : ℕ) (w : Wall) :
    Keep 0x300002000000000000000000020000000000001 w (spareRate b w) := by
  unfold spareRate
  try dsimp only
  repeat' first
    | with_reducible apply Keep.refl
    | with_reducible assumption
    | (with_reducible apply Keep.step _ (detectAlone_keep ..) _; on_goal 2 => decide)
    | (with_reducible apply Keep.step _ (modLane_keep ..) _; on_goal 2 => decide)
    | (with_reducible apply Keep.foldl; on_goal 2 => intro _ _ _)
    | (with_reducible apply Keep.ite <;> intro _)

theorem setRound_keep (w : Wall) (b : ℕ) (r : RoundRt) :
    Keep 0x200000000000000 w (Wall.setRound w b r) := by
  unfold Wall.setRound
  try dsimp only
  repeat' first
    | with_reducible apply Keep.refl
    | with_reducible assumption
    | (with_reducible apply Keep.lanU; on_goal 2 => (generalize Wall.lan _ = z; revert z; refine id ?_; intro z; refine LaneSt.Keep.mk .refl .refl .refl .refl (.free (by decide)) .refl .refl .refl (fun ⟨k0, k1, k2, k3, k4, k5, k6⟩ => ?_); constructor <;> dsimp only))
    | with_reducible apply twf_tput

theorem startRound_keep (w : Wall) :
    Keep 0xa00000000000001 w (startRound w) := by
  unfold startRound
  try dsimp only
  repeat' first
    | with_reducible apply Keep.refl
    | with_reducible assumption
    | (with_reducible apply Keep.step _ (setRound_keep ..) _; on_goal 2 => decide)
    | (with_reducible apply Keep.step _ (set_keep ..) _; on_goal 2 => decide)
    | (with_reducible apply Keep.upTo; on_goal 2 => intro _ _ _)
    | (with_reducible apply Keep.lanU; on_goal 2 => (generalize Wall.lan _ = z; revert z; refine id ?_; intro z; refine LaneSt.Keep.mk .refl .refl .refl .refl (.free (by decide)) .refl (.free (by decide)) .refl (fun ⟨k0, k1, k2, k3, k4, k5, k6⟩ => ?_); constructor <;> dsimp only))

theorem putSurvey_keep (l : ℕ) (s : SurveyRt) (w : Wall) :
    Keep 0x400000000000000 w (putSurvey l s w) := by
  unfold putSurvey
  try dsimp only
  repeat' first
    | with_reducible apply Keep.refl
    | with_reducible assumption
    | (with_reducible apply Keep.lanU; on_goal 2 => (generalize Wall.lan _ = z; revert z; refine id ?_; intro z; refine LaneSt.Keep.mk .refl .refl .refl .refl .refl (.free (by decide)) .refl .refl (fun ⟨k0, k1, k2, k3, k4, k5, k6⟩ => ?_); constructor <;> dsimp only))
    | with_reducible apply twf_tput

theorem surveyLane_keep (b : ℕ) (l : ℕ) (w : Wall) :
    ∀ y, (surveyLane b l w) = some y → Keep 0x2000020000000000000000007a0000000000001 w y := by
  intro y h
  unfold surveyLane at h
  try dsimp only at h
  repeat' split at h
  all_goals first
    | (cases h <;> repeat' first
      | with_reducible apply Keep.refl
      | (with_reducible apply Keep.step _ (putSurvey_keep ..) _; on_goal 2 => decide)
      | (with_reducible apply Keep.step _ (setRound_keep ..) _; on_goal 2 => decide)
      | (with_reducible apply Keep.step _ (set_keep ..) _; on_goal 2 => decide)
      | (with_reducible apply Keep.step _ (startExch_keep ..) _; on_goal 2 => decide))

theorem courseRecord_keep (c : ℕ) (w : Wall) :
    Keep 0xb00000000000001000020000000001 w (courseRecord c w) := by
  unfold courseRecord
  try dsimp only
  repeat' first
    | with_reducible apply Keep.refl
    | (with_reducible apply Keep.step _ (almCommit_keep ..) _; on_goal 2 => decide)

theorem avsTarget_keep (w : Wall) :
    Keep 0x200602000000000000000000000090100000001 w (avsTarget w) := by
  unfold avsTarget
  try dsimp only
  repeat' first
    | with_reducible apply Keep.refl
    | with_reducible assumption
    | (with_reducible apply Keep.step _ (set_keep ..) _; on_goal 2 => decide)
    | (with_reducible apply Keep.step _ (raise_keep ..) _; on_goal 2 => decide)
    | (with_reducible apply Keep.when; on_goal 2 => intro _ _)
    | (with_reducible apply Keep.bndU; on_goal 2 => (generalize Wall.bnd _ = z; revert z; refine id ?_; intro z; refine BoundarySt.Keep.mk .refl .refl .refl .refl .refl .refl .refl .refl .refl .refl .refl .refl .refl .refl .refl .refl .refl .refl .refl .refl .refl .refl (.free (by decide)) .refl .refl .refl (fun ⟨k0, k1, k2⟩ => ?_); constructor <;> dsimp only))
    | (with_reducible apply Keep.ite <;> intro _)

theorem roundEnd_keep (w : Wall) :
    Keep 0x200602000b000000000000010000b0100000001 w (roundEnd w) := by
  unfold roundEnd
  try dsimp only
  repeat' first
    | with_reducible apply Keep.refl
    | with_reducible assumption
    | (with_reducible apply Keep.step _ (courseRecord_keep ..) _; on_goal 2 => decide)
    | (with_reducible apply Keep.step _ (bump_keep ..) _; on_goal 2 => decide)
    | (with_reducible apply Keep.step _ (avsTarget_keep ..) _; on_goal 2 => decide)
    | (with_reducible apply Keep.step _ (set_keep ..) _; on_goal 2 => decide)
    | (with_reducible apply Keep.upTo; on_goal 2 => intro _ _ _)
    | (with_reducible apply Keep.ite <;> intro _)

theorem surveyStart_keep (b : ℕ) (w : Wall) :
    Keep 0x200602000b000000000000017a00b0100000001 w (surveyStart b w) := by
  unfold surveyStart
  try dsimp only
  repeat' first
    | with_reducible apply Keep.refl
    | with_reducible assumption
    | (with_reducible apply Keep.step _ (bump_keep ..) _; on_goal 2 => decide)
    | (with_reducible apply Keep.step _ (setRound_keep ..) _; on_goal 2 => decide)
    | (with_reducible apply Keep.step _ (latch_keep ..) _; on_goal 2 => decide)
    | (with_reducible apply Keep.step _ (roundEnd_keep ..) _; on_goal 2 => decide)
    | (with_reducible apply Keep.step _ (surveyLane_keep _ _ _ _ ‹_›) _; on_goal 2 => decide)
    | (with_reducible apply Keep.when; on_goal 2 => intro _ _)
    | (with_reducible apply Keep.ite <;> intro _)
    | split

theorem surveyHeard_keep (l : Lane) (payload : ℕ) (w : Wall) :
    Keep 0x400000000000000 w (surveyHeard l payload w) := by
  unfold surveyHeard
  try dsimp only
  repeat' first
    | with_reducible apply Keep.refl
    | (with_reducible apply Keep.step _ (delSurvey_keep ..) _; on_goal 2 => decide)
    | (with_reducible apply Keep.step _ (putSurvey_keep ..) _; on_goal 2 => decide)
    | (with_reducible apply Keep.ite <;> intro _)
    | split

theorem sendResults_keep (x : ℕ) (s : SurveyRt) (m : SurveyMeas) (phase : ℕ) (w : Wall) :
    Keep 0x200000000000000000000000000000000000000 w (sendResults x s m phase w) := by
  unfold sendResults
  try dsimp only
  repeat' first
    | with_reducible apply Keep.refl
    | (with_reducible apply Keep.step _ (emit_keep ..) _; on_goal 2 => decide)
    | split

theorem ownSurveyEnd_keep (l : ℕ) (s : SurveyRt) (m : SurveyMeas) (re : Option SurveyMeas) (again : Option SurveyMeas) (w : Wall) :
    Keep 0x304602000b000000000000017a00b0000000001 w (ownSurveyEnd l s m re again w) := by
  unfold ownSurveyEnd
  try dsimp only
  repeat' first
    | with_reducible apply Keep.refl
    | (with_reducible apply Keep.step _ (showSurvey_keep ..) _; on_goal 2 => decide)
    | (with_reducible apply Keep.step _ (modLane_keep ..) _; on_goal 2 => decide)
    | (with_reducible apply Keep.step _ (surveyPlan_keep ..) _; on_goal 2 => decide)
    | (with_reducible apply Keep.step _ (startExch_keep ..) _; on_goal 2 => decide)
    | (with_reducible apply Keep.step _ (bump_keep ..) _; on_goal 2 => decide)
    | (with_reducible apply Keep.step _ (delSurvey_keep ..) _; on_goal 2 => decide)
    | (with_reducible apply Keep.step _ (setSpSt_keep ..) _; on_goal 2 => decide)
    | (with_reducible apply Keep.step _ (putSurvey_keep ..) _; on_goal 2 => decide)
    | (with_reducible apply Keep.step _ (sendResults_keep ..) _; on_goal 2 => decide)
    | (with_reducible apply Keep.step _ (clearCurrent_keep ..) _; on_goal 2 => decide)
    | (with_reducible apply Keep.step _ (almCommit_keep ..) _; on_goal 2 => decide)
    | (with_reducible apply Keep.step _ (retire_keep ..) _; on_goal 2 => decide)
    | (with_reducible apply Keep.ite <;> intro _)
    | split

theorem surveyPrbsEnd_keep (b : ℕ) (m : SurveyMeas) (re : Option SurveyMeas) (again : Option SurveyMeas) (w : Wall) :
    Keep 0x304602000b000000000000017a00b0000000001 w (surveyPrbsEnd b m re again w) := by
  unfold surveyPrbsEnd
  try dsimp only
  repeat' first
    | with_reducible apply Keep.refl
    | (with_reducible apply Keep.step _ (ownSurveyEnd_keep ..) _; on_goal 2 => decide)
    | (with_reducible apply Keep.step _ (putSurvey_keep ..) _; on_goal 2 => decide)
    | (with_reducible apply Keep.step _ (showSurvey_keep ..) _; on_goal 2 => decide)
    | (with_reducible apply Keep.step _ (sendResults_keep ..) _; on_goal 2 => decide)
    | (with_reducible apply Keep.step _ (almCommit_keep ..) _; on_goal 2 => decide)
    | split

theorem surveyNow_keep (l : ℕ) (w : Wall) :
    Keep 0x200000000000000 w (surveyNow l w) := by
  unfold surveyNow
  try dsimp only
  repeat' first
    | with_reducible apply Keep.refl
    | (with_reducible apply Keep.step _ (setRound_keep ..) _; on_goal 2 => decide)

theorem telltale_keep (stressed : List ℕ) (reference : List ℕ) (w : Wall) :
    Keep 0x2000000000000000000000000000000001 w (telltale stressed reference w) := by
  unfold telltale
  try dsimp only
  repeat' first
    | with_reducible apply Keep.refl
    | with_reducible assumption
    | (with_reducible apply Keep.step _ (latch_keep ..) _; on_goal 2 => decide)
    | (with_reducible apply Keep.step _ (setI_keep ..) _; on_goal 2 => decide)
    | (with_reducible apply Keep.upTo; on_goal 2 => intro _ _ _)

end Sys2Proof.Machine
end

