-- ==== Sys2Proof/Laws/KeepParse.lean ====
section
/-! SUPPORT. What each operation of Machine/Parse.lean may change. -/

set_option linter.unusedTactic false
set_option linter.unreachableTactic false

open Sys2Proof

namespace Sys2Proof.Machine

theorem countRx_keep (sp : ℕ) (len : ℕ) (dst : ℕ) (tc : ℕ) (w : Wall) :
    Keep 0x5802000000000000000000000000000000001 w (countRx sp len dst tc w) := by
  unfold countRx
  try dsimp only
  repeat' first
    | with_reducible apply Keep.refl
    | (with_reducible apply Keep.step _ (stat_keep ..) _; on_goal 2 => decide)
    | (with_reducible apply Keep.step _ (modTally_keep ..) _; on_goal 2 => decide)
    | (with_reducible apply Keep.step _ (pcSp_keep ..) _; on_goal 2 => decide)

theorem countTx_keep (sp : ℕ) (len : ℕ) (dst : ℕ) (tc : Option ℕ) (w : Wall) :
    Keep 0x5802000000000000000000000000000000001 w (countTx sp len dst tc w) := by
  unfold countTx
  try dsimp only
  repeat' first
    | with_reducible apply Keep.refl
    | (with_reducible apply Keep.step _ (stat_keep ..) _; on_goal 2 => decide)
    | (with_reducible apply Keep.step _ (modTally_keep ..) _; on_goal 2 => decide)
    | (with_reducible apply Keep.step _ (pcSp_keep ..) _; on_goal 2 => decide)
    | split

end Sys2Proof.Machine
end

