-- ==== Sys2Proof/Laws/KeepSieve.lean ====
section
/-! SUPPORT. What each operation of Machine/Sieve.lean may change. -/

set_option linter.unusedTactic false
set_option linter.unreachableTactic false

open Sys2Proof

namespace Sys2Proof.Machine

theorem copyBank_ok {b s d : Nat} {t : Tbl SieveEntry} (h : twf t = true) : twf (copyBank b s d t) = true := by
  unfold copyBank
  exact foldl_keeps (fun a => twf a = true) _ _ _ (twf_tfilter h) fun _ _ k => twf_tput k

theorem oncePerMs_keep {M : Nat} {v : Wall} (key : Nat) (f : Wall → Wall) (w : Wall) (h : Keep M v w)
    (hf : ∀ y, Keep M v y → Keep M v (f y)) (hm : M ||| 0x10000000000000000000000 = M) : Keep M v (oncePerMs key f w) := by
  unfold oncePerMs
  dsimp only
  have k : Keep 0x10000000000000000000000 w { w with ing := { w.ing with lastMs := tput w.ing.lastMs key w.time.tclk } } := by
    refine Keep.ingU .refl (IngressSt.Keep.mk .refl .refl .refl .refl .refl .refl .refl .refl .refl .refl .refl .refl .refl .refl .refl .refl .refl .refl .refl .refl (.free (by decide)) (fun k => ?_))
    cases k
    constructor <;> first | assumption | exact twf_tput (by assumption)
  exact Keep.ite (fun _ => hf _ (Keep.step h k hm)) (fun _ => h)

theorem badWindow_keep (w : Wall) :
    Keep 0x1 w (badWindow w) := by
  unfold badWindow
  try dsimp only
  repeat' first
    | with_reducible apply Keep.refl
    | (with_reducible apply Keep.step _ (bump_keep ..) _; on_goal 2 => decide)

theorem setRefused_keep (b : ℕ) (r : Bool) (w : Wall) :
    Keep 0x2 w (setRefused b r w) := by
  unfold setRefused
  try dsimp only
  repeat' first
    | with_reducible apply Keep.refl
    | (with_reducible apply Keep.step _ (setWin_keep ..) _; on_goal 2 => decide)

theorem setStage_keep (b : ℕ) (v : ℕ) (w : Wall) :
    Keep 0x2 w (setStage b v w) := by
  unfold setStage
  try dsimp only
  repeat' first
    | with_reducible apply Keep.refl
    | with_reducible assumption
    | (with_reducible apply Keep.step _ (setWin_keep ..) _; on_goal 2 => decide)
    | (with_reducible apply Keep.upTo; on_goal 2 => intro _ _ _)

theorem putEntry_keep (b : ℕ) (bank : ℕ) (i : ℕ) (e : SieveEntry) (w : Wall) :
    Keep 0xc000000000000000000 w (putEntry b bank i e w) := by
  unfold putEntry
  try dsimp only
  repeat' first
    | with_reducible apply Keep.refl
    | with_reducible assumption
    | (with_reducible apply Keep.ingU; on_goal 2 => (generalize Wall.ing _ = z; revert z; refine id ?_; intro z; refine IngressSt.Keep.mk .refl .refl .refl .refl .refl .refl (.free (by decide)) (.free (by decide)) .refl .refl .refl .refl .refl .refl .refl .refl .refl .refl .refl .refl .refl (fun ⟨k0, k1, k2, k3, k4, k5, k6, k7, k8, k9, k10, k11, k12, k13, k14, k15, k16⟩ => ?_); constructor <;> dsimp only))
    | with_reducible apply twf_tput
    | with_reducible apply twf_tdel
    | split

theorem newShadow_keep (b : ℕ) (w : Wall) :
    Keep 0x20000000000 w (newShadow b w) := by
  unfold newShadow
  try dsimp only
  repeat' first
    | with_reducible apply Keep.refl
    | (with_reducible apply Keep.step _ (newDom_keep ..) _; on_goal 2 => decide)

theorem invalidate_keep (b : ℕ) (bank : ℕ) (i : ℕ) (w : Wall) :
    Keep 0xc000000000000000000 w (invalidate b bank i w) := by
  unfold invalidate
  try dsimp only
  repeat' first
    | with_reducible apply Keep.refl
    | (with_reducible apply Keep.step _ (putEntry_keep ..) _; on_goal 2 => decide)

theorem sieveCmd_keep {M : Nat} {v : Wall} (b i op : Nat) (s : Bool) (f : Wall → Wall) (w : Wall) (h : Keep M v w)
    (hf : ∀ y, Keep M v y → Keep M v (f y)) (hm : M ||| 0x2 = M) : Keep M v (sieveCmd b i op s f w) := by
  have k : ∀ y, Keep 0x2 w y → Keep M v y := fun y k => Keep.step h k hm
  unfold sieveCmd
  exact Keep.ite (fun _ => k _ (setRefused_keep ..))
    (fun _ => hf _ (k _ (Keep.step (Keep.step .refl (setWin_keep ..) (by decide)) (setRefused_keep ..) (by decide))))

theorem sieveWriteShadow_keep (b : ℕ) (i : ℕ) (w : Wall) :
    Keep 0xc000000020000000002 w (sieveWriteShadow b i w) := by
  unfold sieveWriteShadow
  try dsimp only
  repeat' first
    | with_reducible apply Keep.refl
    | with_reducible assumption
    | (with_reducible apply sieveCmd_keep; (on_goal 3 => decide); (on_goal 2 => (intros; try dsimp only)))
    | (with_reducible apply Keep.step _ (newShadow_keep ..) _; on_goal 2 => decide)
    | (with_reducible apply Keep.step _ (putEntry_keep ..) _; on_goal 2 => decide)

theorem sieveWriteBoth_keep (b : ℕ) (i : ℕ) (w : Wall) :
    Keep 0xc000000020000000002 w (sieveWriteBoth b i w) := by
  unfold sieveWriteBoth
  try dsimp only
  repeat' first
    | with_reducible apply Keep.refl
    | with_reducible assumption
    | (with_reducible apply sieveCmd_keep; (on_goal 3 => decide); (on_goal 2 => (intros; try dsimp only)))
    | (with_reducible apply Keep.step _ (newShadow_keep ..) _; on_goal 2 => decide)
    | (with_reducible apply Keep.step _ (putEntry_keep ..) _; on_goal 2 => decide)

theorem sieveRead_keep (b : ℕ) (bank : ℕ) (i : ℕ) (w : Wall) :
    Keep 0x2 w (sieveRead b bank i w) := by
  unfold sieveRead
  try dsimp only
  repeat' first
    | with_reducible apply Keep.refl
    | (with_reducible apply Keep.step _ (setStage_keep ..) _; on_goal 2 => decide)
    | (with_reducible apply Keep.step _ (setWin_keep ..) _; on_goal 2 => decide)

theorem sieveReadShadow_keep (b : ℕ) (i : ℕ) (w : Wall) :
    Keep 0x2 w (sieveReadShadow b i w) := by
  unfold sieveReadShadow
  try dsimp only
  repeat' first
    | with_reducible apply Keep.refl
    | with_reducible assumption
    | (with_reducible apply Keep.step _ (sieveRead_keep ..) _; on_goal 2 => decide)
    | (with_reducible apply sieveCmd_keep; (on_goal 3 => decide); (on_goal 2 => (intros; try dsimp only)))

theorem sieveReadActive_keep (b : ℕ) (i : ℕ) (w : Wall) :
    Keep 0x2 w (sieveReadActive b i w) := by
  unfold sieveReadActive
  try dsimp only
  repeat' first
    | with_reducible apply Keep.refl
    | with_reducible assumption
    | (with_reducible apply Keep.step _ (sieveRead_keep ..) _; on_goal 2 => decide)
    | (with_reducible apply sieveCmd_keep; (on_goal 3 => decide); (on_goal 2 => (intros; try dsimp only)))

theorem sieveInvalidateShadow_keep (b : ℕ) (i : ℕ) (w : Wall) :
    Keep 0xc000000020000000002 w (sieveInvalidateShadow b i w) := by
  unfold sieveInvalidateShadow
  try dsimp only
  repeat' first
    | with_reducible apply Keep.refl
    | with_reducible assumption
    | (with_reducible apply Keep.step _ (invalidate_keep ..) _; on_goal 2 => decide)
    | (with_reducible apply sieveCmd_keep; (on_goal 3 => decide); (on_goal 2 => (intros; try dsimp only)))
    | (with_reducible apply Keep.step _ (newShadow_keep ..) _; on_goal 2 => decide)

theorem sieveInvalidateBoth_keep (b : ℕ) (i : ℕ) (w : Wall) :
    Keep 0xc000000020000000002 w (sieveInvalidateBoth b i w) := by
  unfold sieveInvalidateBoth
  try dsimp only
  repeat' first
    | with_reducible apply Keep.refl
    | with_reducible assumption
    | (with_reducible apply Keep.step _ (invalidate_keep ..) _; on_goal 2 => decide)
    | (with_reducible apply sieveCmd_keep; (on_goal 3 => decide); (on_goal 2 => (intros; try dsimp only)))
    | (with_reducible apply Keep.step _ (newShadow_keep ..) _; on_goal 2 => decide)

theorem swapStart_keep (b : ℕ) (w : Wall) :
    Keep 0x2000000000020000000001 w (swapStart b w) := by
  unfold swapStart
  try dsimp only
  repeat' first
    | with_reducible apply Keep.refl
    | with_reducible assumption
    | (with_reducible apply Keep.step _ (newShadow_keep ..) _; on_goal 2 => decide)
    | (with_reducible apply Keep.step _ (set_keep ..) _; on_goal 2 => decide)
    | (with_reducible apply Keep.ingU; on_goal 2 => (generalize Wall.ing _ = z; revert z; refine id ?_; intro z; refine IngressSt.Keep.mk .refl .refl .refl .refl .refl .refl .refl .refl .refl .refl .refl .refl .refl .refl .refl .refl .refl (.free (by decide)) .refl .refl .refl (fun ⟨k0, k1, k2, k3, k4, k5, k6, k7, k8, k9, k10, k11, k12, k13, k14, k15, k16⟩ => ?_); constructor <;> dsimp only))
    | with_reducible apply twf_tput

theorem swapWindow_keep (b : ℕ) (w : Wall) :
    Keep 0x2000000000020000000003 w (swapWindow b w) := by
  unfold swapWindow
  try dsimp only
  repeat' first
    | with_reducible apply Keep.refl
    | (with_reducible apply Keep.step _ (swapStart_keep ..) _; on_goal 2 => decide)
    | (with_reducible apply Keep.step _ (setRefused_keep ..) _; on_goal 2 => decide)
    | (with_reducible apply Keep.ite <;> intro _)

theorem swapDone_keep (b : ℕ) (w : Wall) :
    Keep 0x20000200000000000000c0000000b4000000003 w (swapDone b w) := by
  unfold swapDone
  try dsimp only
  repeat' first
    | with_reducible apply Keep.refl
    | with_reducible assumption
    | (with_reducible apply Keep.step _ (newShadow_keep ..) _; on_goal 2 => decide)
    | (with_reducible apply Keep.step _ (releaseDeferred_keep ..) _; on_goal 2 => decide)
    | (with_reducible apply Keep.step _ (set_keep ..) _; on_goal 2 => decide)
    | (with_reducible apply Keep.step _ (bump_keep ..) _; on_goal 2 => decide)
    | (with_reducible apply Keep.ingU; on_goal 2 => (generalize Wall.ing _ = z; revert z; refine id ?_; intro z; refine IngressSt.Keep.mk .refl .refl .refl .refl .refl .refl (.free (by decide)) (.free (by decide)) .refl .refl .refl .refl .refl .refl .refl .refl .refl .refl .refl .refl .refl (fun ⟨k0, k1, k2, k3, k4, k5, k6, k7, k8, k9, k10, k11, k12, k13, k14, k15, k16⟩ => ?_); constructor <;> dsimp only))
    | (with_reducible apply copyBank_ok)
    | (with_reducible apply Keep.ite <;> intro _)

theorem scrubCompare_keep (b : ℕ) (bank : ℕ) (i : ℕ) (m : Master) (forced : Bool) (w : Wall) :
    Keep 0x201e0200000000000000c0000000b0000000001 w (scrubCompare b bank i m forced w) := by
  unfold scrubCompare
  try dsimp only
  repeat' first
    | with_reducible apply Keep.refl
    | with_reducible assumption
    | (with_reducible apply Keep.step _ (newShadow_keep ..) _; on_goal 2 => decide)
    | (with_reducible apply Keep.step _ (bump_keep ..) _; on_goal 2 => decide)
    | (with_reducible apply Keep.step _ (pcCount_keep ..) _; on_goal 2 => decide)
    | (with_reducible apply Keep.step _ (raise_keep ..) _; on_goal 2 => decide)
    | (with_reducible apply Keep.step _ (invalidate_keep ..) _; on_goal 2 => decide)
    | (with_reducible apply Keep.when; on_goal 2 => intro _ _)
    | (with_reducible apply Keep.ingU; on_goal 2 => (generalize Wall.ing _ = z; revert z; refine id ?_; intro z; refine IngressSt.Keep.mk .refl .refl .refl .refl .refl .refl (.free (by decide)) (.free (by decide)) .refl .refl .refl .refl .refl .refl .refl .refl .refl .refl .refl .refl .refl (fun ⟨k0, k1, k2, k3, k4, k5, k6, k7, k8, k9, k10, k11, k12, k13, k14, k15, k16⟩ => ?_); constructor <;> dsimp only))
    | with_reducible apply twf_tput
    | with_reducible apply twf_tdel
    | split

theorem sieveSearch_keep (b : ℕ) (sp : ℕ) (key : ℕ) (w : Wall) :
    Keep 0x1802000000000000010000000000000000001 w (sieveSearch b sp key w).2 := by
  unfold sieveSearch
  try dsimp only
  repeat' first
    | with_reducible apply Keep.refl
    | with_reducible assumption
    | (with_reducible apply Keep.step _ (pcSp_keep ..) _; on_goal 2 => decide)
    | (with_reducible apply Keep.step _ (bump_keep ..) _; on_goal 2 => decide)
    | (with_reducible apply Keep.when; on_goal 2 => intro _ _)
    | (with_reducible apply Keep.ingU; on_goal 2 => (generalize Wall.ing _ = z; revert z; refine id ?_; intro z; refine IngressSt.Keep.mk .refl .refl .refl .refl .refl .refl .refl .refl (.free (by decide)) .refl .refl .refl .refl .refl .refl .refl .refl .refl .refl .refl .refl (fun ⟨k0, k1, k2, k3, k4, k5, k6, k7, k8, k9, k10, k11, k12, k13, k14, k15, k16⟩ => ?_); constructor <;> dsimp only))
    | with_reducible apply twf_tmod
    | split

theorem hitClear_keep (b : ℕ) (i : ℕ) (w : Wall) :
    Keep 0x10000000000000000000 w (hitClear b i w) := by
  unfold hitClear
  try dsimp only
  repeat' first
    | with_reducible apply Keep.refl
    | with_reducible assumption
    | (with_reducible apply Keep.ingU; on_goal 2 => (generalize Wall.ing _ = z; revert z; refine id ?_; intro z; refine IngressSt.Keep.mk .refl .refl .refl .refl .refl .refl .refl .refl (.free (by decide)) .refl .refl .refl .refl .refl .refl .refl .refl .refl .refl .refl .refl (fun ⟨k0, k1, k2, k3, k4, k5, k6, k7, k8, k9, k10, k11, k12, k13, k14, k15, k16⟩ => ?_); constructor <;> dsimp only))
    | with_reducible apply twf_tdel

theorem putPolicer_keep (b : ℕ) (i : ℕ) (v : ℕ) (w : Wall) :
    Keep 0x40000000000000000000 w (putPolicer b i v w) := by
  unfold putPolicer
  try dsimp only
  repeat' first
    | with_reducible apply Keep.refl
    | with_reducible assumption
    | (with_reducible apply Keep.ingU; on_goal 2 => (generalize Wall.ing _ = z; revert z; refine id ?_; intro z; refine IngressSt.Keep.mk .refl .refl .refl .refl .refl .refl .refl .refl .refl .refl (.free (by decide)) .refl .refl .refl .refl .refl .refl .refl .refl .refl .refl (fun ⟨k0, k1, k2, k3, k4, k5, k6, k7, k8, k9, k10, k11, k12, k13, k14, k15, k16⟩ => ?_); constructor <;> dsimp only))
    | with_reducible apply twf_tput

theorem policerApply_keep (b : ℕ) (i : ℕ) (value : ℕ) (w : Wall) :
    Keep 0x40000000020000000003 w (policerApply b i value w) := by
  unfold policerApply
  try dsimp only
  repeat' first
    | with_reducible apply Keep.refl
    | (with_reducible apply Keep.step _ (badWindow_keep ..) _; on_goal 2 => decide)
    | (with_reducible apply Keep.step _ (newDom_keep ..) _; on_goal 2 => decide)
    | (with_reducible apply Keep.step _ (putPolicer_keep ..) _; on_goal 2 => decide)
    | (with_reducible apply Keep.step _ (setWin_keep ..) _; on_goal 2 => decide)
    | (with_reducible apply Keep.ite <;> intro _)

theorem meter_keep (b : ℕ) (i : ℕ) (len : ℕ) (colour : ℕ) (blind : Bool) (w : Wall) :
    Keep 0x40000000000000000000 w (meter b i len colour blind w).2 := by
  unfold meter
  try dsimp only
  repeat' first
    | with_reducible apply Keep.refl
    | with_reducible assumption
    | (with_reducible apply Keep.ingU; on_goal 2 => (generalize Wall.ing _ = z; revert z; refine id ?_; intro z; refine IngressSt.Keep.mk .refl .refl .refl .refl .refl .refl .refl .refl .refl .refl (.free (by decide)) .refl .refl .refl .refl .refl .refl .refl .refl .refl .refl (fun ⟨k0, k1, k2, k3, k4, k5, k6, k7, k8, k9, k10, k11, k12, k13, k14, k15, k16⟩ => ?_); constructor <;> dsimp only))
    | with_reducible apply twf_tput
    | split

theorem setIndEntry_keep (b : ℕ) (i : ℕ) (v : ℕ) (w : Wall) :
    Keep 0x20000000000000000000 w (setIndEntry b i v w) := by
  unfold setIndEntry
  try dsimp only
  repeat' first
    | with_reducible apply Keep.refl
    | with_reducible assumption
    | (with_reducible apply Keep.ingU; on_goal 2 => (generalize Wall.ing _ = z; revert z; refine id ?_; intro z; refine IngressSt.Keep.mk .refl .refl .refl .refl .refl .refl .refl .refl .refl (.free (by decide)) .refl .refl .refl .refl .refl .refl .refl .refl .refl .refl .refl (fun ⟨k0, k1, k2, k3, k4, k5, k6, k7, k8, k9, k10, k11, k12, k13, k14, k15, k16⟩ => ?_); constructor <;> dsimp only))
    | with_reducible apply twf_tputD

theorem putGlean_keep (b : ℕ) (e : ℕ) (g : Glean) (w : Wall) :
    Keep 0x2000000000000000000 w (putGlean b e g w) := by
  unfold putGlean
  try dsimp only
  repeat' first
    | with_reducible apply Keep.refl
    | with_reducible assumption
    | (with_reducible apply Keep.ingU; on_goal 2 => (generalize Wall.ing _ = z; revert z; refine id ?_; intro z; refine IngressSt.Keep.mk .refl .refl .refl .refl .refl (.free (by decide)) .refl .refl .refl .refl .refl .refl .refl .refl .refl .refl .refl .refl .refl .refl .refl (fun ⟨k0, k1, k2, k3, k4, k5, k6, k7, k8, k9, k10, k11, k12, k13, k14, k15, k16⟩ => ?_); constructor <;> dsimp only))
    | with_reducible apply twf_tput

theorem freeGlean_keep (b : ℕ) (e : ℕ) (w : Wall) :
    Keep 0x2000000000000000001 w (freeGlean b e w) := by
  unfold freeGlean
  try dsimp only
  repeat' first
    | with_reducible apply Keep.refl
    | with_reducible assumption
    | (with_reducible apply Keep.step _ (set_keep ..) _; on_goal 2 => decide)
    | (with_reducible apply Keep.ingU; on_goal 2 => (generalize Wall.ing _ = z; revert z; refine id ?_; intro z; refine IngressSt.Keep.mk .refl .refl .refl .refl .refl (.free (by decide)) .refl .refl .refl .refl .refl .refl .refl .refl .refl .refl .refl .refl .refl .refl .refl (fun ⟨k0, k1, k2, k3, k4, k5, k6, k7, k8, k9, k10, k11, k12, k13, k14, k15, k16⟩ => ?_); constructor <;> dsimp only))
    | with_reducible apply twf_tdel

theorem gleanStep_keep (b : ℕ) (sp : ℕ) (i : ℕ) (kind : ℕ) (f : List Byte) (data : List Byte) (w : Wall) :
    Keep 0x201e02000000000010002000000090000000001 w (gleanStep b sp i kind f data w).2.2.2 := by
  unfold gleanStep
  try dsimp only
  repeat' first
    | with_reducible apply Keep.refl
    | with_reducible assumption
    | (with_reducible apply Keep.step _ (pcSp_keep ..) _; on_goal 2 => decide)
    | (with_reducible apply oncePerMs_keep; (on_goal 3 => decide); (on_goal 2 => (intros; try dsimp only)))
    | (with_reducible apply Keep.step _ (freeGlean_keep ..) _; on_goal 2 => decide)
    | (with_reducible apply Keep.step _ (bump_keep ..) _; on_goal 2 => decide)
    | (with_reducible apply Keep.step _ (putGlean_keep ..) _; on_goal 2 => decide)
    | (with_reducible apply Keep.step _ (raise_keep ..) _; on_goal 2 => decide)
    | (with_reducible apply Keep.ite <;> intro _)
    | split

theorem gleanExpire_keep (b : ℕ) (e : ℕ) (w : Wall) :
    Keep 0x2000000000000000001 w (gleanExpire b e w) := by
  unfold gleanExpire
  try dsimp only
  repeat' first
    | with_reducible apply Keep.refl
    | (with_reducible apply Keep.step _ (bump_keep ..) _; on_goal 2 => decide)
    | (with_reducible apply Keep.step _ (freeGlean_keep ..) _; on_goal 2 => decide)
    | split

theorem gleanFlush_keep (b : ℕ) (w : Wall) :
    Keep 0x2000000000000000001 w (gleanFlush b w) := by
  unfold gleanFlush
  try dsimp only
  repeat' first
    | with_reducible apply Keep.refl
    | with_reducible assumption
    | (with_reducible apply Keep.step _ (set_keep ..) _; on_goal 2 => decide)
    | (with_reducible apply Keep.ingU; on_goal 2 => (generalize Wall.ing _ = z; revert z; refine id ?_; intro z; refine IngressSt.Keep.mk .refl .refl .refl .refl .refl (.free (by decide)) .refl .refl .refl .refl .refl .refl .refl .refl .refl .refl .refl .refl .refl .refl .refl (fun ⟨k0, k1, k2, k3, k4, k5, k6, k7, k8, k9, k10, k11, k12, k13, k14, k15, k16⟩ => ?_); constructor <;> dsimp only))
    | with_reducible apply twf_tfilter

end Sys2Proof.Machine
end

