-- ==== Sys2Proof/Laws/KeepIngress.lean ====
section
/-! SUPPORT. What each operation of Machine/Ingress.lean may change. -/

set_option linter.unusedTactic false
set_option linter.unreachableTactic false

open Sys2Proof

namespace Sys2Proof.Machine

/-- What taking a cell may change. -/
def Room.Keep (m : Nat) (w : Wall) : Room → Prop
  | .ok x => Machine.Keep m w x
  | .noBuffer => True
  | .noHeadroom => True

theorem Room.Keep.okI {m : Nat} {w x : Wall} (h : Machine.Keep m w x) : Room.Keep m w (.ok x) := h
theorem Room.Keep.noBuffer {m : Nat} {w : Wall} : Room.Keep m w .noBuffer := trivial
theorem Room.Keep.noHeadroom {m : Nat} {w : Wall} : Room.Keep m w .noHeadroom := trivial
theorem Room.Keep.step {m n : Nat} {w x : Wall} {o : Room} (h : Machine.Keep m w x) (k : Room.Keep n x o)
    (hm : m ||| n = m) : Room.Keep m w o := by
  cases o <;> first | trivial | exact Machine.Keep.step h k hm
theorem Room.Keep.of_ok {m : Nat} {w y : Wall} {o : Room} (h : Room.Keep m w o) (e : o = .ok y) :
    Machine.Keep m w y := by subst e; exact h
theorem Room.Keep.ite {m : Nat} {w : Wall} {x y : Room} {c : Prop} [Decidable c] (h : c → Room.Keep m w x)
    (k : ¬ c → Room.Keep m w y) : Room.Keep m w (if c then x else y) := by
  split
  · exact h ‹_›
  · exact k ‹_›

theorem macControl_keep (sp : ℕ) (f : List Byte) (w : Wall) :
    Keep 0x5802000000000000000004000000000000001 w (macControl sp f w) := by
  unfold macControl
  try dsimp only
  repeat' first
    | with_reducible apply Keep.refl
    | (with_reducible apply Keep.step _ (stat_keep ..) _; on_goal 2 => decide)
    | (with_reducible apply Keep.step _ (countRx_keep ..) _; on_goal 2 => decide)
    | (with_reducible apply Keep.step _ (pauseFrame_keep ..) _; on_goal 2 => decide)
    | (with_reducible apply Keep.step _ (pfcFrame_keep ..) _; on_goal 2 => decide)
    | (with_reducible apply Keep.ite <;> intro _)

theorem closeCell_keep (sp : ℕ) (w : Wall) :
    Keep 0x100000000000000000 w (closeCell sp w) := by
  unfold closeCell
  try dsimp only
  repeat' first
    | with_reducible apply Keep.refl
    | (with_reducible apply Keep.step _ (setCells_keep ..) _; on_goal 2 => decide)
    | (with_reducible apply Keep.ite <;> intro _)
    | split

theorem newCell_keep (sp : ℕ) (tc : ℕ) (stamp : ℕ) (w : Wall) :
    Room.Keep 0x1802000000000000000908000000000000001 w (newCell sp tc stamp w) := by
  unfold newCell
  try dsimp only
  repeat' first
    | with_reducible apply Keep.refl
    | with_reducible assumption
    | (with_reducible apply Keep.step _ (setCells_keep ..) _; on_goal 2 => decide)
    | (with_reducible apply Keep.step _ (fcCheck_keep ..) _; on_goal 2 => decide)
    | (with_reducible apply Keep.step _ (bump_keep ..) _; on_goal 2 => decide)
    | (with_reducible apply Keep.step _ (pcSp_keep ..) _; on_goal 2 => decide)
    | (with_reducible apply Keep.step _ (set_keep ..) _; on_goal 2 => decide)
    | with_reducible apply Room.Keep.okI
    | with_reducible apply Room.Keep.noBuffer
    | with_reducible apply Room.Keep.noHeadroom
    | (with_reducible apply Keep.ingU; on_goal 2 => (generalize Wall.ing _ = z; revert z; refine id ?_; intro z; refine IngressSt.Keep.mk (.free (by decide)) .refl .refl (.free (by decide)) .refl .refl .refl .refl .refl .refl .refl .refl .refl .refl .refl .refl .refl .refl .refl .refl .refl (fun ⟨k0, k1, k2, k3, k4, k5, k6, k7, k8, k9, k10, k11, k12, k13, k14, k15, k16⟩ => ?_); constructor <;> dsimp only))
    | with_reducible apply twf_tput
    | (with_reducible apply Room.Keep.ite <;> intro _)

theorem writeChunks_keep (sp n tc stamp : Nat) : ∀ (k left off : Nat) (w : Wall),
    Room.Keep 0x1802000000000000000908000000000000001 w (writeChunks sp n tc stamp k left off w)
  | 0, _, _, _ => Machine.Keep.refl
  | _ + 1, 0, _, _ => Machine.Keep.refl
  | k + 1, left + 1, off, w => by
    have go : ∀ y, Machine.Keep 0x1802000000000000000908000000000000001 w y → Room.Keep 0x1802000000000000000908000000000000001 w (match (cellsOf sp y).getLast? with
      | none => Room.ok y
      | some c =>
        writeChunks sp n tc stamp k (left + 1 - min (left + 1) (16 - cellFill c)) (off + 16 * min (left + 1) (16 - cellFill c))
          (setCells sp ((cellsOf sp y).dropLast ++ [{ c with
            segs := c.segs ++ [{ frame := n, lo := cellFill c, n := min (left + 1) (16 - cellFill c), off := off, starts := off == 0, ends := min (left + 1) (16 - cellFill c) == left + 1 }],
            closed := cellFill c + min (left + 1) (16 - cellFill c) == 16,
            stamp := if (off == 0 && !(c.segs.any fun s => s.starts)) = true then stamp % 2 ^ 32 else c.stamp }]) y)) := by
      intro y h
      split
      · exact h
      · exact Room.Keep.step (Machine.Keep.step h (setCells_keep ..) (by decide)) (writeChunks_keep sp n tc stamp k _ _ _) (by decide)
    unfold writeChunks
    dsimp only
    apply Room.Keep.ite <;> intro _
    · exact go w .refl
    · split
      · exact go _ (Machine.Keep.step .refl (Room.Keep.of_ok (newCell_keep ..) ‹_›) (by decide))
      · exact Room.Keep.step .refl (newCell_keep ..) (by decide)

theorem headroomDrop_keep (sp : ℕ) (tc : ℕ) (w : Wall) :
    Keep 0x200602000000000010000000000090000000001 w (headroomDrop sp tc w) := by
  unfold headroomDrop
  try dsimp only
  repeat' first
    | with_reducible apply Keep.refl
    | with_reducible assumption
    | (with_reducible apply Keep.step _ (stat_keep ..) _; on_goal 2 => decide)
    | (with_reducible apply oncePerMs_keep; (on_goal 3 => decide); (on_goal 2 => (intros; try dsimp only)))
    | (with_reducible apply Keep.step _ (raise_keep ..) _; on_goal 2 => decide)

theorem toRing_keep (n : ℕ) (ring : ℕ) (w : Wall) :
    Keep 0x1000000000000000200000000000000000 w (toRing n ring w) := by
  unfold toRing
  try dsimp only
  repeat' first
    | with_reducible apply Keep.refl
    | (with_reducible apply Keep.step _ (modFrame_keep ..) _; on_goal 2 => decide)
    | (with_reducible apply Keep.step _ (setRing_keep ..) _; on_goal 2 => decide)

theorem discardIn_keep (n : ℕ) (sp : ℕ) (slot : ℕ) (w : Wall) :
    Keep 0x200000000000000001 w (discardIn n sp slot w) := by
  unfold discardIn
  try dsimp only
  repeat' first
    | with_reducible apply Keep.refl
    | (with_reducible apply Keep.step _ (dropIn_keep ..) _; on_goal 2 => decide)
    | (with_reducible apply Keep.step _ (stat_keep ..) _; on_goal 2 => decide)

theorem hostOnly_keep (n : ℕ) (w : Wall) :
    Keep 0x1000000000000000200000000000000000 w (hostOnly n w) := by
  unfold hostOnly
  try dsimp only
  repeat' first
    | with_reducible apply Keep.refl
    | (with_reducible apply Keep.step _ (modFrame_keep ..) _; on_goal 2 => decide)
    | (with_reducible apply Keep.step _ (toRing_keep ..) _; on_goal 2 => decide)
    | split

theorem sendKey_keep (n : ℕ) (sp : ℕ) (key : ℕ) (handle : ℕ) (w : Wall) :
    Keep 0x201802000000000000400200000000000000001 w (sendKey n sp key handle w) := by
  unfold sendKey
  try dsimp only
  repeat' first
    | with_reducible apply Keep.refl
    | with_reducible assumption
    | (with_reducible apply Keep.step _ (modFrame_keep ..) _; on_goal 2 => decide)
    | (with_reducible apply Keep.step _ (pcSp_keep ..) _; on_goal 2 => decide)
    | (with_reducible apply Keep.step _ (bump_keep ..) _; on_goal 2 => decide)
    | (with_reducible apply Keep.step _ (emit_keep ..) _; on_goal 2 => decide)
    | (with_reducible apply Keep.ingU; on_goal 2 => (generalize Wall.ing _ = z; revert z; refine id ?_; intro z; refine IngressSt.Keep.mk .refl (.free (by decide)) .refl .refl .refl .refl .refl .refl .refl .refl .refl .refl .refl .refl (.free (by decide)) .refl .refl .refl .refl .refl .refl (fun ⟨k0, k1, k2, k3, k4, k5, k6, k7, k8, k9, k10, k11, k12, k13, k14, k15, k16⟩ => ?_); constructor <;> dsimp only))
    | with_reducible apply twf_tmod
    | split

theorem disposeFrame_keep (n : ℕ) (sp : ℕ) (tc : ℕ) (lineLen : ℕ) (c : Class) (w : Wall) :
    Keep 0x201803000000000000450200000000000000001 w (disposeFrame n sp tc lineLen c w) := by
  unfold disposeFrame
  try dsimp only
  repeat' first
    | with_reducible apply Keep.refl
    | with_reducible assumption
    | (with_reducible apply Keep.step _ (sieveSearch_keep ..) _; on_goal 2 => decide)
    | (with_reducible apply Keep.step _ (modFrame_keep ..) _; on_goal 2 => decide)
    | (with_reducible apply Keep.step _ (pcSp_keep ..) _; on_goal 2 => decide)
    | (with_reducible apply Keep.step _ (meter_keep ..) _; on_goal 2 => decide)
    | (with_reducible apply Keep.step _ (sendKey_keep ..) _; on_goal 2 => decide)
    | (with_reducible apply Keep.step _ (discardIn_keep ..) _; on_goal 2 => decide)
    | (with_reducible apply Keep.step _ (hostOnly_keep ..) _; on_goal 2 => decide)
    | (with_reducible apply Keep.when; on_goal 2 => intro _ _)
    | (with_reducible apply Keep.ite <;> intro _)
    | split

theorem classify_keep (n : ℕ) (sp : ℕ) (tc : ℕ) (lineLen : ℕ) (w : Wall) :
    Keep 0x201e03000000000010452200000090000000001 w (classify n sp tc lineLen w) := by
  unfold classify
  try dsimp only
  repeat' first
    | with_reducible apply Keep.refl
    | with_reducible assumption
    | (with_reducible apply Keep.step _ (discardIn_keep ..) _; on_goal 2 => decide)
    | (with_reducible apply Keep.step _ (stat_keep ..) _; on_goal 2 => decide)
    | (with_reducible apply Keep.step _ (disposeFrame_keep ..) _; on_goal 2 => decide)
    | (with_reducible apply Keep.step _ (gleanStep_keep ..) _; on_goal 2 => decide)
    | (with_reducible apply Keep.when; on_goal 2 => intro _ _)
    | (with_reducible apply Keep.ite <;> intro _)
    | split

theorem parseRoom_keep (p : ℕ) (w : Wall) :
    ∀ y, (parseRoom p w) = some y → Keep 0x40000000000000000 w y := by
  intro y h
  unfold parseRoom at h
  try dsimp only at h
  repeat' split at h
  all_goals first
    | (cases h <;> repeat' first
      | with_reducible apply Keep.refl
      | with_reducible assumption
      | (with_reducible apply Keep.prtU; on_goal 2 => (generalize Wall.prt _ = z; revert z; refine id ?_; intro z; refine PortSt.Keep.mk .refl .refl .refl .refl .refl (.free (by decide)) .refl (fun ⟨k0, k1, k2, k3, k4, k5⟩ => ?_); constructor <;> dsimp only))
      | with_reducible apply twf_tput)

theorem divert_keep (sp : ℕ) (w : Wall) :
    Keep 0xc000000000001 w (divert sp w) := by
  unfold divert
  try dsimp only
  repeat' first
    | with_reducible apply Keep.refl
    | with_reducible assumption
    | (with_reducible apply Keep.step _ (bump_keep ..) _; on_goal 2 => decide)
    | (with_reducible apply Keep.step _ (stat_keep ..) _; on_goal 2 => decide)
    | (with_reducible apply Keep.ledU; on_goal 2 => (generalize Wall.led _ = z; revert z; refine id ?_; intro z; refine LedgerSt.Keep.mk .refl .refl .refl .refl .refl .refl .refl .refl .refl .refl .refl .refl .refl .refl (.free (by decide)) (.free (by decide)) .refl (fun ⟨k0, k1, k2, k3, k4, k5⟩ => ?_); constructor <;> dsimp only))
    | (with_reducible apply Keep.ite <;> intro _)

theorem writeFrame_keep (sp : ℕ) (tc : ℕ) (lineLen : ℕ) (stamp : ℕ) (secured : Bool) (ptp : Bool) (f : List Byte) (w : Wall) :
    Keep 0x201e03000000000010452f08000090000000001 w (writeFrame sp tc lineLen stamp secured ptp f w) := by
  unfold writeFrame
  try dsimp only
  repeat' first
    | with_reducible apply Keep.refl
    | with_reducible assumption
    | (with_reducible apply Keep.step _ (closeCell_keep ..) _; on_goal 2 => decide)
    | (with_reducible apply Keep.step _ (classify_keep ..) _; on_goal 2 => decide)
    | (with_reducible apply Keep.step _ (headroomDrop_keep ..) _; on_goal 2 => decide)
    | (with_reducible apply Keep.step _ (stat_keep ..) _; on_goal 2 => decide)
    | (with_reducible apply Keep.step _ (Room.Keep.of_ok (writeChunks_keep ..) ‹_›) _; on_goal 2 => decide)
    | (with_reducible apply Keep.when; on_goal 2 => intro _ _)
    | (with_reducible apply Keep.ingU; on_goal 2 => (generalize Wall.ing _ = z; revert z; refine id ?_; intro z; refine IngressSt.Keep.mk (.free (by decide)) (.free (by decide)) (.free (by decide)) (.free (by decide)) .refl (.free (by decide)) .refl .refl (.free (by decide)) .refl (.free (by decide)) .refl .refl .refl (.free (by decide)) .refl .refl .refl .refl .refl (.free (by decide)) (fun ⟨k0, k1, k2, k3, k4, k5, k6, k7, k8, k9, k10, k11, k12, k13, k14, k15, k16⟩ => ?_); constructor <;> dsimp only))
    | with_reducible apply twf_tput
    | split

theorem writerTakes_keep (sp : ℕ) (lineLen : ℕ) (stamp : ℕ) (secured : Bool) (f : List Byte) (w : Wall) :
    Keep 0x201e03000000000010452f4800c090000000001 w (writerTakes sp lineLen stamp secured f w) := by
  unfold writerTakes
  try dsimp only
  repeat' first
    | with_reducible apply Keep.refl
    | with_reducible assumption
    | (with_reducible apply Keep.step _ (stat_keep ..) _; on_goal 2 => decide)
    | (with_reducible apply Keep.step _ (divert_keep ..) _; on_goal 2 => decide)
    | (with_reducible apply Keep.step _ (writeFrame_keep ..) _; on_goal 2 => decide)
    | (with_reducible apply Keep.step _ (parseRoom_keep _ _ _ ‹_›) _; on_goal 2 => decide)
    | (with_reducible apply Keep.when; on_goal 2 => intro _ _)
    | (with_reducible apply Keep.ite <;> intro _)
    | split

theorem rxFrame_keep (r : RxFrame) (w : Wall) :
    Keep 0x205e03000b00020010452f4e00c090000000001 w (rxFrame r w) := by
  unfold rxFrame
  try dsimp only
  repeat' first
    | with_reducible apply Keep.refl
    | (with_reducible apply Keep.step _ (writerTakes_keep ..) _; on_goal 2 => decide)
    | (with_reducible apply Keep.step _ (countRx_keep ..) _; on_goal 2 => decide)
    | (with_reducible apply Keep.step _ (stat_keep ..) _; on_goal 2 => decide)
    | (with_reducible apply Keep.step _ (portBusy_keep ..) _; on_goal 2 => decide)
    | (with_reducible apply Keep.step _ (macControl_keep ..) _; on_goal 2 => decide)
    | (with_reducible apply Keep.step _ (Keep.of_snd (macsecRx_keep ..) ‹_›) _; on_goal 2 => decide)
    | (with_reducible apply Keep.ite <;> intro _)
    | split

theorem pauseRx_keep (sp : ℕ) (quanta : ℕ) (w : Wall) :
    Keep 0x5802000000000000000004000000000000001 w (pauseRx sp quanta w) := by
  unfold pauseRx
  try dsimp only
  repeat' first
    | with_reducible apply Keep.refl
    | (with_reducible apply Keep.step _ (countRx_keep ..) _; on_goal 2 => decide)
    | (with_reducible apply Keep.step _ (pauseFrame_keep ..) _; on_goal 2 => decide)
    | (with_reducible apply Keep.ite <;> intro _)

theorem pfcRx_keep (sp : ℕ) (enable : ℕ) (times : List ℕ) (w : Wall) :
    Keep 0x5802000000000000000004000000000000001 w (pfcRx sp enable times w) := by
  unfold pfcRx
  try dsimp only
  repeat' first
    | with_reducible apply Keep.refl
    | (with_reducible apply Keep.step _ (pfcFrame_keep ..) _; on_goal 2 => decide)
    | (with_reducible apply Keep.step _ (countRx_keep ..) _; on_goal 2 => decide)
    | (with_reducible apply Keep.ite <;> intro _)

theorem keyDone_keep (b : ℕ) (n : ℕ) (w : Wall) :
    Keep 0x200000000000000001 w (keyDone b n w) := by
  unfold keyDone
  try dsimp only
  repeat' first
    | with_reducible apply Keep.refl
    | (with_reducible apply Keep.step _ (modFrame_keep ..) _; on_goal 2 => decide)
    | (with_reducible apply Keep.step _ (set_keep ..) _; on_goal 2 => decide)

theorem forward_keep (n : ℕ) (copy : Bool) (w : Wall) :
    Keep 0x1000000000000000200000000000000000 w (forward n copy w) := by
  unfold forward
  try dsimp only
  repeat' first
    | with_reducible apply Keep.refl
    | with_reducible assumption
    | (with_reducible apply Keep.step _ (modFrame_keep ..) _; on_goal 2 => decide)
    | (with_reducible apply Keep.step _ (toRing_keep ..) _; on_goal 2 => decide)
    | (with_reducible apply Keep.when; on_goal 2 => intro _ _)
    | split

theorem discardKeyed_keep (n : ℕ) (sp : ℕ) (slot : ℕ) (w : Wall) :
    Keep 0x1000000000000000200000000000000001 w (discardKeyed n sp slot w) := by
  unfold discardKeyed
  try dsimp only
  repeat' first
    | with_reducible apply Keep.refl
    | with_reducible assumption
    | (with_reducible apply Keep.step _ (toRing_keep ..) _; on_goal 2 => decide)
    | (with_reducible apply Keep.step _ (discardIn_keep ..) _; on_goal 2 => decide)
    | (with_reducible apply Keep.when; on_goal 2 => intro _ _)
    | split

theorem decisionArrive_keep (b : ℕ) (handle : ℕ) (result : ℕ) (status : ℕ) (w : Wall) :
    Keep 0x1e03000000000010800200000000000000001 w (decisionArrive b handle result status w) := by
  unfold decisionArrive
  try dsimp only
  repeat' first
    | with_reducible apply Keep.refl
    | with_reducible assumption
    | (with_reducible apply Keep.step _ (modFrame_keep ..) _; on_goal 2 => decide)
    | (with_reducible apply oncePerMs_keep; (on_goal 3 => decide); (on_goal 2 => (intros; try dsimp only)))
    | (with_reducible apply Keep.step _ (forward_keep ..) _; on_goal 2 => decide)
    | (with_reducible apply Keep.step _ (bump_keep ..) _; on_goal 2 => decide)
    | (with_reducible apply Keep.step _ (daybook_keep ..) _; on_goal 2 => decide)
    | (with_reducible apply Keep.step _ (keyDone_keep ..) _; on_goal 2 => decide)
    | (with_reducible apply Keep.step _ (pcSp_keep ..) _; on_goal 2 => decide)
    | (with_reducible apply Keep.step _ (dropIn_keep ..) _; on_goal 2 => decide)
    | (with_reducible apply Keep.step _ (stat_keep ..) _; on_goal 2 => decide)
    | (with_reducible apply Keep.step _ (hostOnly_keep ..) _; on_goal 2 => decide)
    | (with_reducible apply Keep.step _ (discardKeyed_keep ..) _; on_goal 2 => decide)
    | (with_reducible apply Keep.when; on_goal 2 => intro _ _)
    | (with_reducible apply Keep.ingU; on_goal 2 => (generalize Wall.ing _ = z; revert z; refine id ?_; intro z; refine IngressSt.Keep.mk .refl (.free (by decide)) .refl .refl .refl .refl .refl .refl .refl .refl .refl .refl .refl .refl .refl (.free (by decide)) .refl .refl .refl .refl (.free (by decide)) (fun ⟨k0, k1, k2, k3, k4, k5, k6, k7, k8, k9, k10, k11, k12, k13, k14, k15, k16⟩ => ?_); constructor <;> dsimp only))
    | with_reducible apply twf_tmod
    | (with_reducible apply Keep.ite <;> intro _)
    | split

theorem decisionTimeout_keep (b : ℕ) (handle : ℕ) (w : Wall) :
    Keep 0x1000000000001000200000000000000001 w (decisionTimeout b handle w) := by
  unfold decisionTimeout
  try dsimp only
  repeat' first
    | with_reducible apply Keep.refl
    | with_reducible assumption
    | (with_reducible apply Keep.step _ (dropIn_keep ..) _; on_goal 2 => decide)
    | (with_reducible apply Keep.step _ (stat_keep ..) _; on_goal 2 => decide)
    | (with_reducible apply Keep.step _ (keyDone_keep ..) _; on_goal 2 => decide)
    | (with_reducible apply Keep.step _ (discardKeyed_keep ..) _; on_goal 2 => decide)
    | (with_reducible apply Keep.ingU; on_goal 2 => (generalize Wall.ing _ = z; revert z; refine id ?_; intro z; refine IngressSt.Keep.mk .refl (.free (by decide)) .refl .refl .refl .refl .refl .refl .refl .refl .refl .refl .refl .refl .refl .refl (.free (by decide)) .refl .refl .refl .refl (fun ⟨k0, k1, k2, k3, k4, k5, k6, k7, k8, k9, k10, k11, k12, k13, k14, k15, k16⟩ => ?_); constructor <;> dsimp only))
    | with_reducible apply twf_tmod
    | (with_reducible apply Keep.ite <;> intro _)
    | split

theorem setCredits_keep (c : ℕ) (n : ℕ) (w : Wall) :
    Keep 0x10000000 w (setCredits c n w) := by
  unfold setCredits
  try dsimp only
  repeat' first
    | with_reducible apply Keep.refl
    | with_reducible assumption
    | (with_reducible apply Keep.bndU; on_goal 2 => (generalize Wall.bnd _ = z; revert z; refine id ?_; intro z; refine BoundarySt.Keep.mk .refl .refl .refl .refl .refl .refl .refl .refl .refl .refl .refl .refl .refl .refl .refl .refl .refl .refl (.free (by decide)) .refl .refl .refl .refl .refl .refl .refl (fun ⟨k0, k1, k2⟩ => ?_); constructor <;> dsimp only))
    | with_reducible apply twf_tputD

theorem cellSend_keep (b : ℕ) (w : Wall) :
    Keep 0x20180200000000000c000308000000010000001 w (cellSend b w) := by
  unfold cellSend
  try dsimp only
  repeat' first
    | with_reducible apply Keep.refl
    | with_reducible assumption
    | (with_reducible apply Keep.step _ (setCells_keep ..) _; on_goal 2 => decide)
    | (with_reducible apply Keep.step _ (sweep_keep ..) _; on_goal 2 => decide)
    | (with_reducible apply Keep.step _ (pcSp_keep ..) _; on_goal 2 => decide)
    | (with_reducible apply Keep.step _ (emit_keep ..) _; on_goal 2 => decide)
    | (with_reducible apply Keep.step _ (setCredits_keep ..) _; on_goal 2 => decide)
    | (with_reducible apply Keep.ingU; on_goal 2 => (generalize Wall.ing _ = z; revert z; refine id ?_; intro z; refine IngressSt.Keep.mk (.free (by decide)) (.free (by decide)) .refl .refl .refl .refl .refl .refl .refl .refl .refl .refl .refl .refl .refl .refl .refl .refl (.free (by decide)) (.free (by decide)) .refl (fun ⟨k0, k1, k2, k3, k4, k5, k6, k7, k8, k9, k10, k11, k12, k13, k14, k15, k16⟩ => ?_); constructor <;> dsimp only))
    | with_reducible apply twf_tput
    | (with_reducible apply Keep.ite <;> intro _)
    | split

theorem creditStall_keep (b : ℕ) (us : ℕ) (w : Wall) :
    Keep 0x200602000000000008000000000090000000001 w (creditStall b us w) := by
  unfold creditStall
  try dsimp only
  repeat' first
    | with_reducible apply Keep.refl
    | with_reducible assumption
    | (with_reducible apply Keep.step _ (bump_keep ..) _; on_goal 2 => decide)
    | (with_reducible apply Keep.step _ (raise_keep ..) _; on_goal 2 => decide)
    | (with_reducible apply Keep.ingU; on_goal 2 => (generalize Wall.ing _ = z; revert z; refine id ?_; intro z; refine IngressSt.Keep.mk .refl .refl .refl .refl .refl .refl .refl .refl .refl .refl .refl .refl .refl .refl .refl .refl .refl .refl .refl (.free (by decide)) .refl (fun ⟨k0, k1, k2, k3, k4, k5, k6, k7, k8, k9, k10, k11, k12, k13, k14, k15, k16⟩ => ?_); constructor <;> dsimp only))
    | (with_reducible apply Keep.ite <;> intro _)

theorem dropLookup_keep (b : ℕ) (tag : ℕ) (w : Wall) :
    Keep 0x80000000000000000000 w (dropLookup b tag w) := by
  unfold dropLookup
  try dsimp only
  repeat' first
    | with_reducible apply Keep.refl
    | with_reducible assumption
    | (with_reducible apply Keep.ingU; on_goal 2 => (generalize Wall.ing _ = z; revert z; refine id ?_; intro z; refine IngressSt.Keep.mk .refl .refl .refl .refl .refl .refl .refl .refl .refl .refl .refl (.free (by decide)) .refl .refl .refl .refl .refl .refl .refl .refl .refl (fun ⟨k0, k1, k2, k3, k4, k5, k6, k7, k8, k9, k10, k11, k12, k13, k14, k15, k16⟩ => ?_); constructor <;> dsimp only))
    | with_reducible apply twf_tdel

theorem flushComplete_keep (b : ℕ) (tag : ℕ) (w : Wall) :
    Keep 0x200000000000000000380000000000000000000 w (flushComplete b tag w) := by
  unfold flushComplete
  try dsimp only
  repeat' first
    | with_reducible apply Keep.refl
    | with_reducible assumption
    | (with_reducible apply Keep.step _ (flushIssue_keep ..) _; on_goal 2 => decide)
    | (with_reducible apply Keep.step _ (dropLookup_keep ..) _; on_goal 2 => decide)
    | (with_reducible apply Keep.ingU; on_goal 2 => (generalize Wall.ing _ = z; revert z; refine id ?_; intro z; refine IngressSt.Keep.mk .refl .refl .refl .refl .refl .refl .refl .refl .refl .refl .refl (.free (by decide)) (.free (by decide)) (.free (by decide)) .refl .refl .refl .refl .refl .refl .refl (fun ⟨k0, k1, k2, k3, k4, k5, k6, k7, k8, k9, k10, k11, k12, k13, k14, k15, k16⟩ => ?_); constructor <;> dsimp only))
    | (with_reducible apply Keep.ite <;> intro _)
    | split

theorem flushOverdue_keep (b : ℕ) (tag : ℕ) (w : Wall) :
    Keep 0x602000000000000000000000000000000001 w (flushOverdue b tag w) := by
  unfold flushOverdue
  try dsimp only
  repeat' first
    | with_reducible apply Keep.refl
    | (with_reducible apply Keep.step _ (daybook_keep ..) _; on_goal 2 => decide)
    | split

theorem lookupComplete_keep (b : ℕ) (tag : ℕ) (hit : Bool) (answer : ℕ) (w : Wall) :
    Keep 0x200002000000000000380000000094000000003 w (lookupComplete b tag hit answer w) := by
  unfold lookupComplete
  try dsimp only
  repeat' first
    | with_reducible apply Keep.refl
    | (with_reducible apply Keep.step _ (latch_keep ..) _; on_goal 2 => decide)
    | (with_reducible apply Keep.step _ (flushIssue_keep ..) _; on_goal 2 => decide)
    | (with_reducible apply Keep.step _ (releaseDeferred_keep ..) _; on_goal 2 => decide)
    | (with_reducible apply Keep.step _ (dropLookup_keep ..) _; on_goal 2 => decide)
    | (with_reducible apply Keep.step _ (set_keep ..) _; on_goal 2 => decide)
    | split

theorem lookupTimeout_keep (b : ℕ) (tag : ℕ) (w : Wall) :
    Keep 0x200002000000000000080000000094000000003 w (lookupTimeout b tag w) := by
  unfold lookupTimeout
  try dsimp only
  repeat' first
    | with_reducible apply Keep.refl
    | with_reducible assumption
    | (with_reducible apply Keep.step _ (releaseDeferred_keep ..) _; on_goal 2 => decide)
    | (with_reducible apply Keep.step _ (set_keep ..) _; on_goal 2 => decide)
    | (with_reducible apply Keep.step _ (latch_keep ..) _; on_goal 2 => decide)
    | (with_reducible apply Keep.ingU; on_goal 2 => (generalize Wall.ing _ = z; revert z; refine id ?_; intro z; refine IngressSt.Keep.mk .refl .refl .refl .refl .refl .refl .refl .refl .refl .refl .refl (.free (by decide)) .refl .refl .refl .refl .refl .refl .refl .refl .refl (fun ⟨k0, k1, k2, k3, k4, k5, k6, k7, k8, k9, k10, k11, k12, k13, k14, k15, k16⟩ => ?_); constructor <;> dsimp only))
    | with_reducible apply twf_tput
    | split

end Sys2Proof.Machine
end

