-- ==== Sys2Proof/Laws/KeepEgress.lean ====
section
/-! SUPPORT. What each operation of Machine/Egress.lean may change. -/

set_option linter.unusedTactic false
set_option linter.unreachableTactic false

open Sys2Proof

namespace Sys2Proof.Machine

theorem applyShaper_keep (p : ℕ) (s : ℕ) (w : Wall) :
    Keep 0x80000000000000000000002 w (applyShaper p s w) := by
  unfold applyShaper
  try dsimp only
  repeat' first
    | with_reducible apply Keep.refl
    | with_reducible assumption
    | (with_reducible apply Keep.step _ (setWin_keep ..) _; on_goal 2 => decide)
    | (with_reducible apply Keep.egrU; on_goal 2 => (generalize Wall.egr _ = z; revert z; refine id ?_; intro z; refine EgressSt.Keep.mk .refl .refl (.free (by decide)) .refl .refl .refl .refl .refl .refl .refl .refl .refl (fun ⟨k0, k1, k2, k3, k4, k5, k6, k7, k8, k9, k10⟩ => ?_); constructor <;> dsimp only))
    | with_reducible apply twf_tput
    | with_reducible apply twf_tdel
    | split

theorem shaperDebit_keep (p : ℕ) (s : ℕ) (cost : ℕ) (w : Wall) :
    Keep 0x80000000000000000000000 w (shaperDebit p s cost w) := by
  unfold shaperDebit
  try dsimp only
  repeat' first
    | with_reducible apply Keep.refl
    | with_reducible assumption
    | (with_reducible apply Keep.egrU; on_goal 2 => (generalize Wall.egr _ = z; revert z; refine id ?_; intro z; refine EgressSt.Keep.mk .refl .refl (.free (by decide)) .refl .refl .refl .refl .refl .refl .refl .refl .refl (fun ⟨k0, k1, k2, k3, k4, k5, k6, k7, k8, k9, k10⟩ => ?_); constructor <;> dsimp only))
    | with_reducible apply twf_tput
    | split

theorem calendarRelease_keep (p : ℕ) (s : ℕ) (w : Wall) :
    Keep 0x1802000000000080000000000000000000001 w (calendarRelease p s w) := by
  unfold calendarRelease
  try dsimp only
  repeat' first
    | with_reducible apply Keep.refl
    | with_reducible assumption
    | (with_reducible apply Keep.step _ (pcCount_keep ..) _; on_goal 2 => decide)
    | (with_reducible apply Keep.egrU; on_goal 2 => (generalize Wall.egr _ = z; revert z; refine id ?_; intro z; refine EgressSt.Keep.mk .refl .refl (.free (by decide)) .refl .refl .refl .refl .refl .refl .refl .refl .refl (fun ⟨k0, k1, k2, k3, k4, k5, k6, k7, k8, k9, k10⟩ => ?_); constructor <;> dsimp only))
    | with_reducible apply twf_tput
    | (with_reducible apply Keep.ite <;> intro _)
    | split

theorem setShaperRegs_keep (p : ℕ) (s : ℕ) (rate : ℕ) (burst : ℕ) (full : Bool) (w : Wall) :
    Keep 0x1 w (setShaperRegs p s rate burst full w) := by
  unfold setShaperRegs
  try dsimp only
  repeat' first
    | with_reducible apply Keep.refl
    | (with_reducible apply Keep.step _ (set_keep ..) _; on_goal 2 => decide)
    | (with_reducible apply Keep.ite <;> intro _)

theorem shaperApplyWin_keep (p : ℕ) (s : ℕ) (w : Wall) :
    Keep 0x80000000000000000000003 w (shaperApplyWin p s w) := by
  unfold shaperApplyWin
  try dsimp only
  repeat' first
    | with_reducible apply Keep.refl
    | (with_reducible apply Keep.step _ (setShaperRegs_keep ..) _; on_goal 2 => decide)
    | (with_reducible apply Keep.step _ (badWindow_keep ..) _; on_goal 2 => decide)
    | (with_reducible apply Keep.step _ (applyShaper_keep ..) _; on_goal 2 => decide)
    | (with_reducible apply Keep.ite <;> intro _)

theorem putGate_keep (sp : ℕ) (g : Gate) (w : Wall) :
    Keep 0x8000000000000000000000000 w (putGate sp g w) := by
  unfold putGate
  try dsimp only
  repeat' first
    | with_reducible apply Keep.refl
    | with_reducible assumption
    | (with_reducible apply Keep.egrU; on_goal 2 => (generalize Wall.egr _ = z; revert z; refine id ?_; intro z; refine EgressSt.Keep.mk .refl .refl .refl .refl .refl .refl .refl .refl .refl .refl (.free (by decide)) .refl (fun ⟨k0, k1, k2, k3, k4, k5, k6, k7, k8, k9, k10⟩ => ?_); constructor <;> dsimp only))
    | with_reducible apply twf_tput

theorem gateEntryChange_keep (sp : ℕ) (w : Wall) :
    Keep 0x8000000000000000000000000 w (gateEntryChange sp w) := by
  unfold gateEntryChange
  try dsimp only
  repeat' first
    | with_reducible apply Keep.refl
    | (with_reducible apply Keep.step _ (putGate_keep ..) _; on_goal 2 => decide)
    | (with_reducible apply Keep.ite <;> intro _)
    | split

theorem gateConfigChange_keep (sp : ℕ) (w : Wall) :
    Keep 0x8000000000000060000000001 w (gateConfigChange sp w) := by
  unfold gateConfigChange
  try dsimp only
  repeat' first
    | with_reducible apply Keep.refl
    | with_reducible assumption
    | (with_reducible apply Keep.step _ (putDom_keep ..) _; on_goal 2 => decide)
    | (with_reducible apply Keep.step _ (putGate_keep ..) _; on_goal 2 => decide)
    | (with_reducible apply Keep.step _ (set_keep ..) _; on_goal 2 => decide)
    | (with_reducible apply Keep.upTo; on_goal 2 => intro _ _ _)
    | (with_reducible apply Keep.ite <;> intro _)
    | split

theorem gateSchedule_keep (sp : ℕ) (w : Wall) :
    WRes.Keep 0x8000000000000000000000001 w (gateSchedule sp w) := by
  unfold gateSchedule
  try dsimp only
  repeat' first
    | with_reducible apply Keep.refl
    | (with_reducible apply Keep.step _ (set_keep ..) _; on_goal 2 => decide)
    | (with_reducible apply Keep.step _ (putGate_keep ..) _; on_goal 2 => decide)
    | with_reducible apply WRes.Keep.abort
    | with_reducible apply WRes.Keep.okI
    | (with_reducible apply WRes.Keep.ite <;> intro _)

theorem gateCancel_keep (sp : ℕ) (w : Wall) :
    Keep 0x8000000000000000000000001 w (gateCancel sp w) := by
  unfold gateCancel
  try dsimp only
  repeat' first
    | with_reducible apply Keep.refl
    | with_reducible assumption
    | (with_reducible apply Keep.step _ (set_keep ..) _; on_goal 2 => decide)
    | (with_reducible apply Keep.step _ (putGate_keep ..) _; on_goal 2 => decide)
    | (with_reducible apply Keep.egrU; on_goal 2 => (generalize Wall.egr _ = z; revert z; refine id ?_; intro z; refine EgressSt.Keep.mk .refl .refl .refl .refl .refl .refl .refl .refl .refl .refl (.free (by decide)) .refl (fun ⟨k0, k1, k2, k3, k4, k5, k6, k7, k8, k9, k10⟩ => ?_); constructor <;> dsimp only))
    | with_reducible apply twf_tdel
    | (with_reducible apply Keep.ite <;> intro _)
    | split

theorem queueDrop_keep (f : EFrame) (q : Option ℕ) (w : Wall) :
    Keep 0x200003000000005c20000000000000000000003 w (queueDrop f q w) := by
  unfold queueDrop
  try dsimp only
  repeat' first
    | with_reducible apply Keep.refl
    | (with_reducible apply Keep.step _ (setQueue_keep ..) _; on_goal 2 => decide)
    | (with_reducible apply Keep.step _ (stat_keep ..) _; on_goal 2 => decide)
    | (with_reducible apply Keep.step _ (discardOut_keep ..) _; on_goal 2 => decide)
    | split

theorem linkFrame_keep (q : ℕ) (f : EFrame) (w : Wall) :
    Keep 0x200003000000005c60000002000000000000003 w (linkFrame q f w) := by
  unfold linkFrame
  try dsimp only
  repeat' first
    | with_reducible apply Keep.refl
    | (with_reducible apply Keep.step _ (setActive_keep ..) _; on_goal 2 => decide)
    | (with_reducible apply Keep.step _ (discardOut_keep ..) _; on_goal 2 => decide)
    | (with_reducible apply Keep.step _ (queueDrop_keep ..) _; on_goal 2 => decide)
    | (with_reducible apply Keep.step _ (setQueue_keep ..) _; on_goal 2 => decide)
    | (with_reducible apply Keep.step _ (stat_keep ..) _; on_goal 2 => decide)
    | (with_reducible apply Keep.step _ (portBusy_keep ..) _; on_goal 2 => decide)
    | (with_reducible apply Keep.ite <;> intro _)

theorem linkOwned_keep (q : ℕ) (f : EFrame) (w : Wall) :
    Keep 0x200003000000005c60000002000000000000003 w (linkOwned q f w) := by
  unfold linkOwned
  try dsimp only
  repeat' first
    | with_reducible apply Keep.refl
    | (with_reducible apply Keep.step _ (stat_keep ..) _; on_goal 2 => decide)
    | (with_reducible apply Keep.step _ (discardOut_keep ..) _; on_goal 2 => decide)
    | (with_reducible apply Keep.step _ (queueDrop_keep ..) _; on_goal 2 => decide)
    | (with_reducible apply Keep.step _ (linkFrame_keep ..) _; on_goal 2 => decide)
    | (with_reducible apply Keep.ite <;> intro _)

theorem modOpen_keep (sp : ℕ) (pl : Place) (g : EFrame → EFrame) (w : Wall) :
    Keep 0x320000000000000000000000 w (modOpen sp pl g w) := by
  unfold modOpen
  try dsimp only
  repeat' first
    | with_reducible apply Keep.refl
    | with_reducible assumption
    | (with_reducible apply Keep.step _ (setQueue_keep ..) _; on_goal 2 => decide)
    | (with_reducible apply Keep.egrU; on_goal 2 => (generalize Wall.egr _ = z; revert z; refine id ?_; intro z; refine EgressSt.Keep.mk (.free (by decide)) .refl .refl (.free (by decide)) (.free (by decide)) .refl .refl .refl .refl .refl .refl .refl (fun ⟨k0, k1, k2, k3, k4, k5, k6, k7, k8, k9, k10⟩ => ?_); constructor <;> dsimp only))
    | with_reducible apply twf_tupd
    | split

theorem stompLine_keep (f : EFrame) (w : Wall) :
    Keep 0x200000000000000000000000000000000000000 w (stompLine f w) := by
  unfold stompLine
  try dsimp only
  repeat' first
    | with_reducible apply Keep.refl
    | (with_reducible apply Keep.step _ (emit_keep ..) _; on_goal 2 => decide)
    | split

theorem cutFrame_keep (sp : ℕ) (w : Wall) :
    Keep 0x200003000000005f60000000000000000000003 w (cutFrame sp w) := by
  unfold cutFrame
  try dsimp only
  repeat' first
    | with_reducible apply Keep.refl
    | with_reducible assumption
    | (with_reducible apply Keep.step _ (discardOut_keep ..) _; on_goal 2 => decide)
    | (with_reducible apply Keep.step _ (leaveActive_keep ..) _; on_goal 2 => decide)
    | (with_reducible apply Keep.step _ (stompLine_keep ..) _; on_goal 2 => decide)
    | (with_reducible apply Keep.step _ (setQueue_keep ..) _; on_goal 2 => decide)
    | (with_reducible apply Keep.step _ (stat_keep ..) _; on_goal 2 => decide)
    | (with_reducible apply Keep.foldl; on_goal 2 => intro _ _ _)
    | (with_reducible apply Keep.egrU; on_goal 2 => (generalize Wall.egr _ = z; revert z; refine id ?_; intro z; refine EgressSt.Keep.mk (.free (by decide)) (.free (by decide)) .refl (.free (by decide)) (.free (by decide)) (.free (by decide)) (.free (by decide)) (.free (by decide)) .refl (.free (by decide)) .refl .refl (fun ⟨k0, k1, k2, k3, k4, k5, k6, k7, k8, k9, k10⟩ => ?_); constructor <;> dsimp only))
    | with_reducible apply twf_tdel
    | (with_reducible apply Keep.ite <;> intro _)
    | split

theorem setSkip_keep (sp : ℕ) (b : Bool) (w : Wall) :
    Keep 0x400000000000000000000000 w (setSkip sp b w) := by
  unfold setSkip
  try dsimp only
  repeat' first
    | with_reducible apply Keep.refl
    | with_reducible assumption
    | (with_reducible apply Keep.egrU; on_goal 2 => (generalize Wall.egr _ = z; revert z; refine id ?_; intro z; refine EgressSt.Keep.mk .refl .refl .refl .refl .refl (.free (by decide)) .refl .refl .refl .refl .refl .refl (fun ⟨k0, k1, k2, k3, k4, k5, k6, k7, k8, k9, k10⟩ => ?_); constructor <;> dsimp only))

theorem loseCell_keep (sp : ℕ) (c : PipeCell) (w : Wall) :
    Keep 0x200003000000005f60000000000000000000003 w (loseCell sp c w) := by
  unfold loseCell
  try dsimp only
  repeat' first
    | with_reducible apply Keep.refl
    | (with_reducible apply Keep.step _ (setSkip_keep ..) _; on_goal 2 => decide)
    | (with_reducible apply Keep.step _ (stat_keep ..) _; on_goal 2 => decide)
    | (with_reducible apply Keep.step _ (cutFrame_keep ..) _; on_goal 2 => decide)
    | (with_reducible apply Keep.ite <;> intro _)

theorem tryLink_keep (sp : ℕ) (w : Wall) :
    Keep 0x200003000000005d60000002000000000000003 w (tryLink sp w) := by
  unfold tryLink
  try dsimp only
  repeat' first
    | with_reducible apply Keep.refl
    | with_reducible assumption
    | (with_reducible apply Keep.step _ (linkOwned_keep ..) _; on_goal 2 => decide)
    | (with_reducible apply Keep.egrU; on_goal 2 => (generalize Wall.egr _ = z; revert z; refine id ?_; intro z; refine EgressSt.Keep.mk (.free (by decide)) (.free (by decide)) .refl (.free (by decide)) .refl (.free (by decide)) (.free (by decide)) (.free (by decide)) .refl (.free (by decide)) .refl .refl (fun ⟨k0, k1, k2, k3, k4, k5, k6, k7, k8, k9, k10⟩ => ?_); constructor <;> dsimp only))
    | with_reducible apply twf_tdel
    | (with_reducible apply Keep.ite <;> intro _)
    | split

theorem takeChunk_keep (sp : ℕ) (c : PipeCell) (w : Wall) (i : ℕ) :
    Keep 0x300003000000005f60000002000000000000003 w (takeChunk sp c w i) := by
  unfold takeChunk
  try dsimp only
  repeat' first
    | with_reducible apply Keep.refl
    | with_reducible assumption
    | (with_reducible apply Keep.step _ (modOpen_keep ..) _; on_goal 2 => decide)
    | (with_reducible apply Keep.step _ (cutFrame_keep ..) _; on_goal 2 => decide)
    | (with_reducible apply Keep.step _ (took_keep ..) _; on_goal 2 => decide)
    | (with_reducible apply Keep.step _ (setPipeOcc_keep ..) _; on_goal 2 => decide)
    | (with_reducible apply Keep.step _ (setSkip_keep ..) _; on_goal 2 => decide)
    | (with_reducible apply Keep.step _ (tryLink_keep ..) _; on_goal 2 => decide)
    | (with_reducible apply Keep.egrU; on_goal 2 => (generalize Wall.egr _ = z; revert z; refine id ?_; intro z; refine EgressSt.Keep.mk (.free (by decide)) (.free (by decide)) .refl (.free (by decide)) (.free (by decide)) (.free (by decide)) (.free (by decide)) (.free (by decide)) .refl (.free (by decide)) .refl .refl (fun ⟨k0, k1, k2, k3, k4, k5, k6, k7, k8, k9, k10⟩ => ?_); constructor <;> dsimp only))
    | with_reducible apply twf_tput
    | (with_reducible apply Keep.ite <;> intro _)
    | split

theorem egressCell_keep (p : ℕ) (c : PipeCell) (w : Wall) :
    Keep 0x300603000000005f70001002000090000000003 w (egressCell p c w) := by
  unfold egressCell
  try dsimp only
  repeat' first
    | with_reducible apply Keep.refl
    | with_reducible assumption
    | (with_reducible apply oncePerMs_keep; (on_goal 3 => decide); (on_goal 2 => (intros; try dsimp only)))
    | (with_reducible apply Keep.step _ (loseCell_keep ..) _; on_goal 2 => decide)
    | (with_reducible apply Keep.step _ (grant_keep ..) _; on_goal 2 => decide)
    | (with_reducible apply Keep.step _ (bump_keep ..) _; on_goal 2 => decide)
    | (with_reducible apply Keep.step _ (setCoreCredits_keep ..) _; on_goal 2 => decide)
    | (with_reducible apply Keep.step _ (takeChunk_keep ..) _; on_goal 2 => decide)
    | (with_reducible apply Keep.step _ (panicEval_keep ..) _; on_goal 2 => decide)
    | (with_reducible apply Keep.step _ (raise_keep ..) _; on_goal 2 => decide)
    | (with_reducible apply Keep.foldl; on_goal 2 => intro _ _ _)
    | (with_reducible apply Keep.ingU; on_goal 2 => (generalize Wall.ing _ = z; revert z; refine id ?_; intro z; refine IngressSt.Keep.mk .refl .refl .refl .refl (.free (by decide)) .refl .refl .refl .refl .refl .refl .refl .refl .refl .refl .refl .refl .refl .refl .refl (.free (by decide)) (fun ⟨k0, k1, k2, k3, k4, k5, k6, k7, k8, k9, k10, k11, k12, k13, k14, k15, k16⟩ => ?_); constructor <;> dsimp only))
    | with_reducible apply twf_tputD
    | (with_reducible apply Keep.ite <;> intro _)

theorem discardFree_keep (f : EFrame) (w : Wall) :
    Keep 0x300003000000005c00000000000000000000003 w (discardFree f w) := by
  unfold discardFree
  try dsimp only
  repeat' first
    | with_reducible apply Keep.refl
    | (with_reducible apply Keep.step _ (took_keep ..) _; on_goal 2 => decide)
    | (with_reducible apply Keep.step _ (discardOut_keep ..) _; on_goal 2 => decide)

theorem dropHead_keep (sp : ℕ) (q : ℕ) (slot : ℕ) (w : Wall) :
    Keep 0x300003000000005c60000000000000000000003 w (dropHead sp q slot w) := by
  unfold dropHead
  try dsimp only
  repeat' first
    | with_reducible apply Keep.refl
    | (with_reducible apply Keep.step _ (setQueue_keep ..) _; on_goal 2 => decide)
    | (with_reducible apply Keep.step _ (stat_keep ..) _; on_goal 2 => decide)
    | (with_reducible apply Keep.step _ (discardFree_keep ..) _; on_goal 2 => decide)
    | (with_reducible apply Keep.step _ (leaveActive_keep ..) _; on_goal 2 => decide)
    | (with_reducible apply Keep.ite <;> intro _)
    | split

theorem dropOversize_keep (sp n q : Nat) : ∀ (k : Nat) (w : Wall), Keep 0x300003000000005c60000000000000000000003 w (dropOversize sp n q k w)
  | 0, _ => .refl
  | k + 1, w => by
    unfold dropOversize
    split
    · exact Keep.ite (fun _ => Keep.step (Keep.step .refl (dropHead_keep ..) (by decide)) (dropOversize_keep sp n q k _) (by decide)) (fun _ => .refl)
    · exact .refl

theorem dropAllOversize_keep (sp : ℕ) (n : ℕ) (w : Wall) :
    Keep 0x300003000000005c60000000000000000000003 w (dropAllOversize sp n w) := by
  unfold dropAllOversize
  try dsimp only
  repeat' first
    | with_reducible apply Keep.refl
    | with_reducible assumption
    | (with_reducible apply Keep.step _ (dropOversize_keep ..) _; on_goal 2 => decide)
    | (with_reducible apply Keep.foldl; on_goal 2 => intro _ _ _)
    | (with_reducible apply Keep.ite <;> intro _)

theorem drr_keep (sp n : Nat) : ∀ (k : Nat) (pre l : List Nat) (w : Wall) (y : Nat × Wall),
    drr sp n k pre l w = some y → Keep 0x1802000000000060000000000000000000001 w y.2
  | 0, _, _, _, _, h => by simp [drr] at h
  | _ + 1, _, [], _, _, h => by simp [drr] at h
  | k + 1, pre, q :: l, w, y, h => by
    unfold drr at h
    dsimp only at h
    generalize (ite ((w.queue (sp / 8) q).turn = true) (w.queue (sp / 8) q) _ : EQueue) = r at h
    have k1 : Keep 0x1802000000000060000000000000000000001 w (w.setQueue (sp / 8) q r) := Keep.step .refl (setQueue_keep ..) (by decide)
    split at h
    · exact Keep.step (Keep.step k1 (setQueue_keep ..) (by decide)) (drr_keep sp n k _ _ _ y h) (by decide)
    · split at h
      · exact Keep.step (Keep.step k1 (pcSp_keep ..) (by decide)) (drr_keep sp n k _ _ _ y h) (by decide)
      · cases h
        exact Keep.step k1 (setActive_keep ..) (by decide)

theorem choose_keep (sp : Nat) (w : Wall) (n q : Nat) (y : Wall) (h : choose sp w = some (n, q, y)) :
    Keep 0x1802000000000060000000000000000000001 w y := by
  unfold choose at h
  split at h
  · obtain ⟨r, hr, e⟩ := Option.map_eq_some_iff.mp h
    cases e
    exact Keep.step .refl (drr_keep _ _ _ _ _ _ _ hr) (by decide)
  · cases h

theorem sendPause_keep (sp : ℕ) (x : PauseOut) (rest : List PauseOut) (w : Wall) :
    Keep 0x205802000000000000000008000000000000001 w (sendPause sp x rest w) := by
  unfold sendPause
  try dsimp only
  repeat' first
    | with_reducible apply Keep.refl
    | with_reducible assumption
    | (with_reducible apply Keep.step _ (countTx_keep ..) _; on_goal 2 => decide)
    | (with_reducible apply Keep.step _ (emit_keep ..) _; on_goal 2 => decide)
    | (with_reducible apply Keep.step _ (stat_keep ..) _; on_goal 2 => decide)
    | (with_reducible apply Keep.prtU; on_goal 2 => (generalize Wall.prt _ = z; revert z; refine id ?_; intro z; refine PortSt.Keep.mk .refl .refl (.free (by decide)) .refl .refl .refl .refl (fun ⟨k0, k1, k2, k3, k4, k5⟩ => ?_); constructor <;> dsimp only))
    | with_reducible apply twf_tput
    | (with_reducible apply Keep.ite <;> intro _)
    | split

theorem startTx_keep (sp : ℕ) (n : ℕ) (q : ℕ) (f : EFrame) (l : List EFrame) (w : Wall) :
    Keep 0x301e43000904025e60000000000090000000003 w (startTx sp n q f l w) := by
  unfold startTx
  try dsimp only
  repeat' first
    | with_reducible apply Keep.refl
    | with_reducible assumption
    | (with_reducible apply Keep.step _ (takePn_keep ..) _; on_goal 2 => decide)
    | (with_reducible apply Keep.step _ (pcSp_keep ..) _; on_goal 2 => decide)
    | (with_reducible apply Keep.step _ (dropHead_keep ..) _; on_goal 2 => decide)
    | (with_reducible apply Keep.step _ (setQueue_keep ..) _; on_goal 2 => decide)
    | (with_reducible apply Keep.step _ (enterStall_keep ..) _; on_goal 2 => decide)
    | (with_reducible apply Keep.egrU; on_goal 2 => (generalize Wall.egr _ = z; revert z; refine id ?_; intro z; refine EgressSt.Keep.mk (.free (by decide)) (.free (by decide)) .refl .refl (.free (by decide)) (.free (by decide)) (.free (by decide)) (.free (by decide)) .refl (.free (by decide)) .refl .refl (fun ⟨k0, k1, k2, k3, k4, k5, k6, k7, k8, k9, k10⟩ => ?_); constructor <;> dsimp only))
    | with_reducible apply twf_tput
    | split

theorem schedulerSelect_keep (sp : ℕ) (w : Wall) :
    Keep 0x305e43000904025e60000008000090000000003 w (schedulerSelect sp w) := by
  unfold schedulerSelect
  try dsimp only
  repeat' first
    | with_reducible apply Keep.refl
    | with_reducible assumption
    | (with_reducible apply Keep.step _ (dropAllOversize_keep ..) _; on_goal 2 => decide)
    | (with_reducible apply Keep.step _ (sendPause_keep ..) _; on_goal 2 => decide)
    | (with_reducible apply Keep.step _ (pcSp_keep ..) _; on_goal 2 => decide)
    | (with_reducible apply Keep.step _ (startTx_keep ..) _; on_goal 2 => decide)
    | (with_reducible apply Keep.upTo; on_goal 2 => intro _ _ _)
    | (with_reducible apply Keep.step _ (choose_keep _ _ _ _ _ ‹_›) _; on_goal 2 => decide)
    | (with_reducible apply Keep.ite <;> intro _)
    | split

theorem insertCk_keep (sp : ℕ) (kind : ℕ) (off : ℕ) (l4 : ℕ) (do3 : Bool) (do4 : Bool) (f : List Byte) (w : Wall) :
    Keep 0x1 w (insertCk sp kind off l4 do3 do4 f w).2 := by
  unfold insertCk
  try dsimp only
  repeat' first
    | with_reducible apply Keep.refl
    | (with_reducible apply Keep.step _ (stat_keep ..) _; on_goal 2 => decide)
    | split

theorem ckStage_keep (f : EFrame) (w : Wall) :
    Keep 0x1 w (ckStage f w).2 := by
  unfold ckStage
  try dsimp only
  repeat' first
    | with_reducible apply Keep.refl
    | (with_reducible apply Keep.step _ (insertCk_keep ..) _; on_goal 2 => decide)
    | split

theorem ptpStage_keep (e : EFrame) (f : List Byte) (dep : ℕ) (t : ℕ) (w : Wall) :
    Keep 0x1 w (ptpStage e f dep t w).2 := by
  unfold ptpStage
  try dsimp only
  repeat' first
    | with_reducible apply Keep.refl
    | (with_reducible apply Keep.step _ (stat_keep ..) _; on_goal 2 => decide)
    | split

theorem capture_keep (e : EFrame) (f : List Byte) (t : ℕ) (w : Wall) :
    Keep 0x42000000000000000000000000000000201 w (capture e f t w) := by
  unfold capture
  try dsimp only
  repeat' first
    | with_reducible apply Keep.refl
    | with_reducible assumption
    | (with_reducible apply Keep.step _ (level_keep ..) _; on_goal 2 => decide)
    | (with_reducible apply Keep.step _ (bump_keep ..) _; on_goal 2 => decide)
    | (with_reducible apply Keep.timeU; on_goal 2 => (refine TimeSt.Keep.mk .refl .refl .refl .refl .refl .refl .refl (.free (by decide)) (fun ⟨k0, k1, k2⟩ => ?_); constructor <;> dsimp only))
    | with_reducible apply twf_tput
    | (intro e he; rcases mem_tput he with rfl | he; (· rename_i h _; simp only [List.length_append, List.length_singleton]; omega); (· exact (by assumption : ∀ e ∈ w.time.captures, e.2.length ≤ 16) e he))
    | (with_reducible apply Keep.ite <;> intro _)
    | split

theorem debit_keep (t : TxNow) (len : ℕ) (w : Wall) :
    Keep 0xe0000000000000000000000 w (debit t len w) := by
  unfold debit
  try dsimp only
  repeat' first
    | with_reducible apply Keep.refl
    | (with_reducible apply Keep.step _ (leaveActive_keep ..) _; on_goal 2 => decide)
    | (with_reducible apply Keep.step _ (setQueue_keep ..) _; on_goal 2 => decide)
    | (with_reducible apply Keep.step _ (shaperDebit_keep ..) _; on_goal 2 => decide)
    | (with_reducible apply Keep.ite <;> intro _)

theorem sendWhole_keep (t : TxNow) (departure : ℕ) (w : Wall) :
    Keep 0x2058430000000058e0000000000000000000203 w (sendWhole t departure w) := by
  unfold sendWhole
  try dsimp only
  repeat' first
    | with_reducible apply Keep.refl
    | with_reducible assumption
    | (with_reducible apply Keep.step _ (pcSp_keep ..) _; on_goal 2 => decide)
    | (with_reducible apply Keep.step _ (txComplete_keep ..) _; on_goal 2 => decide)
    | (with_reducible apply Keep.step _ (countTx_keep ..) _; on_goal 2 => decide)
    | (with_reducible apply Keep.step _ (freeChunks_keep ..) _; on_goal 2 => decide)
    | (with_reducible apply Keep.step _ (debit_keep ..) _; on_goal 2 => decide)
    | (with_reducible apply Keep.step _ (emit_keep ..) _; on_goal 2 => decide)
    | (with_reducible apply Keep.step _ (stat_keep ..) _; on_goal 2 => decide)
    | (with_reducible apply Keep.step _ (ckStage_keep ..) _; on_goal 2 => decide)
    | (with_reducible apply Keep.step _ (ptpStage_keep ..) _; on_goal 2 => decide)
    | (with_reducible apply Keep.step _ (capture_keep ..) _; on_goal 2 => decide)
    | (with_reducible apply Keep.when; on_goal 2 => intro _ _)
    | (with_reducible apply Keep.ite <;> intro _)
    | split

theorem txFrameDone_keep (sp : ℕ) (departure : ℕ) (w : Wall) :
    Keep 0x20584b000000005ee0000002000000004000203 w (txFrameDone sp departure w) := by
  unfold txFrameDone
  try dsimp only
  repeat' first
    | with_reducible apply Keep.refl
    | with_reducible assumption
    | (with_reducible apply Keep.step _ (freeChunks_keep ..) _; on_goal 2 => decide)
    | (with_reducible apply Keep.step _ (debit_keep ..) _; on_goal 2 => decide)
    | (with_reducible apply Keep.step _ (pumpRings_keep ..) _; on_goal 2 => decide)
    | (with_reducible apply Keep.step _ (quietRetry_keep ..) _; on_goal 2 => decide)
    | (with_reducible apply Keep.step _ (skipRest_keep ..) _; on_goal 2 => decide)
    | (with_reducible apply Keep.step _ (stompLine_keep ..) _; on_goal 2 => decide)
    | (with_reducible apply Keep.step _ (stat_keep ..) _; on_goal 2 => decide)
    | (with_reducible apply Keep.step _ (sendWhole_keep ..) _; on_goal 2 => decide)
    | (with_reducible apply Keep.egrU; on_goal 2 => (generalize Wall.egr _ = z; revert z; refine id ?_; intro z; refine EgressSt.Keep.mk (.free (by decide)) (.free (by decide)) (.free (by decide)) .refl (.free (by decide)) (.free (by decide)) (.free (by decide)) (.free (by decide)) .refl (.free (by decide)) .refl .refl (fun ⟨k0, k1, k2, k3, k4, k5, k6, k7, k8, k9, k10⟩ => ?_); constructor <;> dsimp only))
    | with_reducible apply twf_tdel
    | (with_reducible apply Keep.ite <;> intro _)
    | split

theorem queueDropsClear_keep (p : ℕ) (q : ℕ) (w : Wall) :
    Keep 0x20000000000000000000000 w (queueDropsClear p q w) := by
  unfold queueDropsClear
  try dsimp only
  repeat' first
    | with_reducible apply Keep.refl
    | (with_reducible apply Keep.step _ (setQueue_keep ..) _; on_goal 2 => decide)

end Sys2Proof.Machine
end

