-- ==== Sys2Proof/Laws/KeepMill.lean ====
section
/-! SUPPORT. What each operation of Machine/Mill.lean may change. -/

set_option linter.unusedTactic false
set_option linter.unreachableTactic false

open Sys2Proof

namespace Sys2Proof.Machine

theorem millFail_keep (ring : ℕ) (w : Wall) :
    Keep 0x2000000000000000000000000000000001 w (millFail ring w) := by
  unfold millFail
  try dsimp only
  repeat' first
    | with_reducible apply Keep.refl
    | (with_reducible apply Keep.step _ (setMillState_keep ..) _; on_goal 2 => decide)
    | split

theorem descFail_keep (k : ℕ) (w : Wall) :
    Keep 0x3000000000000000000000000000000003 w (descFail k w) := by
  unfold descFail
  try dsimp only
  repeat' first
    | with_reducible apply Keep.refl
    | (with_reducible apply Keep.step _ (millFail_keep ..) _; on_goal 2 => decide)
    | (with_reducible apply Keep.step _ (setRing_keep ..) _; on_goal 2 => decide)
    | (with_reducible apply Keep.step _ (ringError_keep ..) _; on_goal 2 => decide)
    | (with_reducible apply Keep.ite <;> intro _)

theorem millLost_keep (i : ℕ) (w : Wall) :
    Keep 0x4000000000000000000000000000000000 w (millLost i w) := by
  unfold millLost
  try dsimp only
  repeat' first
    | with_reducible apply Keep.refl
    | (with_reducible apply Keep.step _ (setMill_keep ..) _; on_goal 2 => decide)
    | split

theorem dataFail_keep (i : ℕ) (w : Wall) :
    Keep 0x200007000000001000000000000000000000003 w (dataFail i w) := by
  unfold dataFail
  try dsimp only
  repeat' first
    | with_reducible apply Keep.refl
    | (with_reducible apply Keep.step _ (millFail_keep ..) _; on_goal 2 => decide)
    | (with_reducible apply Keep.step _ (setRing_keep ..) _; on_goal 2 => decide)
    | (with_reducible apply Keep.step _ (subHostOcc_keep ..) _; on_goal 2 => decide)
    | (with_reducible apply Keep.step _ (txComplete_keep ..) _; on_goal 2 => decide)
    | (with_reducible apply Keep.step _ (millLost_keep ..) _; on_goal 2 => decide)
    | (with_reducible apply Keep.step _ (ringError_keep ..) _; on_goal 2 => decide)
    | (with_reducible apply Keep.ite <;> intro _)
    | split

theorem tagTimeout_keep (tag : ℕ) (w : Wall) :
    Keep 0x200007000000001000000000000000004000003 w (tagTimeout tag w) := by
  unfold tagTimeout
  try dsimp only
  repeat' first
    | with_reducible apply Keep.refl
    | with_reducible assumption
    | (with_reducible apply Keep.step _ (dataFail_keep ..) _; on_goal 2 => decide)
    | (with_reducible apply Keep.step _ (set_keep ..) _; on_goal 2 => decide)
    | (with_reducible apply Keep.step _ (bump_keep ..) _; on_goal 2 => decide)
    | (with_reducible apply Keep.step _ (descFail_keep ..) _; on_goal 2 => decide)
    | (with_reducible apply Keep.bndU; on_goal 2 => (generalize Wall.bnd _ = z; revert z; refine id ?_; intro z; refine BoundarySt.Keep.mk .refl .refl .refl .refl .refl .refl .refl .refl .refl .refl .refl .refl .refl .refl .refl .refl (.free (by decide)) .refl .refl .refl .refl .refl .refl .refl .refl .refl (fun ⟨k0, k1, k2⟩ => ?_); constructor <;> dsimp only))
    | with_reducible apply twf_tput
    | split

theorem dropTag_keep (tag : ℕ) (w : Wall) :
    Keep 0x4000000 w (dropTag tag w) := by
  unfold dropTag
  try dsimp only
  repeat' first
    | with_reducible apply Keep.refl
    | with_reducible assumption
    | (with_reducible apply Keep.bndU; on_goal 2 => (generalize Wall.bnd _ = z; revert z; refine id ?_; intro z; refine BoundarySt.Keep.mk .refl .refl .refl .refl .refl .refl .refl .refl .refl .refl .refl .refl .refl .refl .refl .refl (.free (by decide)) .refl .refl .refl .refl .refl .refl .refl .refl .refl (fun ⟨k0, k1, k2⟩ => ?_); constructor <;> dsimp only))
    | with_reducible apply twf_tdel

theorem readCompletion_keep (tag : ℕ) (w : Wall) :
    Keep 0x20000b000000001000000000000000004000003 w (readCompletion tag w) := by
  unfold readCompletion
  try dsimp only
  repeat' first
    | with_reducible apply Keep.refl
    | (with_reducible apply Keep.step _ (bump_keep ..) _; on_goal 2 => decide)
    | (with_reducible apply Keep.step _ (dropTag_keep ..) _; on_goal 2 => decide)
    | (with_reducible apply Keep.step _ (pumpRings_keep ..) _; on_goal 2 => decide)
    | (with_reducible apply Keep.step _ (set_keep ..) _; on_goal 2 => decide)
    | split

theorem quarantineEnd_keep (tag : ℕ) (w : Wall) :
    Keep 0x20000b000000001000000000000000004000003 w (quarantineEnd tag w) := by
  unfold quarantineEnd
  try dsimp only
  repeat' first
    | with_reducible apply Keep.refl
    | (with_reducible apply Keep.step _ (dropTag_keep ..) _; on_goal 2 => decide)
    | (with_reducible apply Keep.step _ (pumpRings_keep ..) _; on_goal 2 => decide)
    | split

theorem descDone_keep (d : RingDir) (i : ℕ) (descs : List ℕ) (w : Wall) :
    Keep 0x20000b000000001000000000000000004000003 w (descDone d i descs w) := by
  unfold descDone
  try dsimp only
  repeat' first
    | with_reducible apply Keep.refl
    | (with_reducible apply Keep.step _ (pumpRings_keep ..) _; on_goal 2 => decide)
    | (with_reducible apply Keep.step _ (setRing_keep ..) _; on_goal 2 => decide)
    | (with_reducible apply Keep.step _ (freeUse_keep ..) _; on_goal 2 => decide)
    | (with_reducible apply Keep.ite <;> intro _)

theorem txDataDone_keep (i : ℕ) (data : List Byte) (w : Wall) :
    Keep 0x20000f000000005c60000002000000004000003 w (txDataDone i data w) := by
  unfold txDataDone
  try dsimp only
  repeat' first
    | with_reducible apply Keep.refl
    | (with_reducible apply Keep.step _ (linkOwned_keep ..) _; on_goal 2 => decide)
    | (with_reducible apply Keep.step _ (setMill_keep ..) _; on_goal 2 => decide)
    | (with_reducible apply Keep.step _ (pumpRings_keep ..) _; on_goal 2 => decide)
    | (with_reducible apply Keep.step _ (freeUse_keep ..) _; on_goal 2 => decide)
    | (with_reducible apply Keep.step _ (setRing_keep ..) _; on_goal 2 => decide)
    | (with_reducible apply Keep.step _ (subHostOcc_keep ..) _; on_goal 2 => decide)
    | (with_reducible apply Keep.ite <;> intro _)
    | split

theorem ringStopped_keep (k : ℕ) (w : Wall) :
    Keep 0x2 w (ringStopped k w) := by
  unfold ringStopped
  try dsimp only
  repeat' first
    | with_reducible apply Keep.refl
    | (with_reducible apply Keep.step _ (setRingStatus_keep ..) _; on_goal 2 => decide)
    | (with_reducible apply Keep.ite <;> intro _)

theorem deliverRx_keep (k : ℕ) (data : List Byte) (eop : ℕ) (w : Wall) :
    Keep 0x200003000000000000000000000000000000002 w (deliverRx k data eop w) := by
  unfold deliverRx
  try dsimp only
  repeat' first
    | with_reducible apply Keep.refl
    | with_reducible assumption
    | (with_reducible apply Keep.step _ (writeHost_keep ..) _; on_goal 2 => decide)
    | (with_reducible apply Keep.step _ (setRing_keep ..) _; on_goal 2 => decide)
    | (with_reducible apply Keep.step _ (ringCount_keep ..) _; on_goal 2 => decide)
    | (with_reducible apply Keep.step _ (ringAdvance_keep ..) _; on_goal 2 => decide)
    | (with_reducible apply Keep.foldl; on_goal 2 => intro _ _ _)

theorem hostDone_keep (n : ℕ) (f : IFrame) (w : Wall) :
    Keep 0x308000000000000001 w (hostDone n f w) := by
  unfold hostDone
  try dsimp only
  repeat' first
    | with_reducible apply Keep.refl
    | (with_reducible apply Keep.step _ (modFrame_keep ..) _; on_goal 2 => decide)
    | (with_reducible apply Keep.step _ (sweep_keep ..) _; on_goal 2 => decide)

theorem deliverDue_keep (k : ℕ) (n : ℕ) (rest : List ℕ) (w : Wall) :
    Keep 0x20000b000000001000000308000000004000003 w (deliverDue k n rest w) := by
  unfold deliverDue
  try dsimp only
  repeat' first
    | with_reducible apply Keep.refl
    | (with_reducible apply Keep.step _ (bump64_keep ..) _; on_goal 2 => decide)
    | (with_reducible apply Keep.step _ (hostDone_keep ..) _; on_goal 2 => decide)
    | (with_reducible apply Keep.step _ (pumpRings_keep ..) _; on_goal 2 => decide)
    | (with_reducible apply Keep.step _ (stat_keep ..) _; on_goal 2 => decide)
    | (with_reducible apply Keep.step _ (deliverRx_keep ..) _; on_goal 2 => decide)
    | (with_reducible apply Keep.step _ (setRing_keep ..) _; on_goal 2 => decide)
    | (with_reducible apply Keep.ite <;> intro _)
    | split

theorem deliverMill_keep (k : ℕ) (sp : ℕ) (w : Wall) :
    Keep 0x20000f000000001000000000000000004000003 w (deliverMill k sp w) := by
  unfold deliverMill
  try dsimp only
  repeat' first
    | with_reducible apply Keep.refl
    | with_reducible assumption
    | (with_reducible apply Keep.step _ (setMillState_keep ..) _; on_goal 2 => decide)
    | (with_reducible apply Keep.step _ (setMill_keep ..) _; on_goal 2 => decide)
    | (with_reducible apply Keep.step _ (pumpRings_keep ..) _; on_goal 2 => decide)
    | (with_reducible apply Keep.step _ (bump_keep ..) _; on_goal 2 => decide)
    | (with_reducible apply Keep.step _ (deliverRx_keep ..) _; on_goal 2 => decide)
    | (with_reducible apply Keep.when; on_goal 2 => intro _ _)
    | (with_reducible apply Keep.ite <;> intro _)
    | split

theorem rxDeliver_keep (i : ℕ) (w : Wall) :
    Keep 0x20000f000000001000000308000000004000003 w (rxDeliver i w) := by
  unfold rxDeliver
  try dsimp only
  repeat' first
    | with_reducible apply Keep.refl
    | (with_reducible apply Keep.step _ (deliverDue_keep ..) _; on_goal 2 => decide)
    | (with_reducible apply Keep.step _ (deliverMill_keep ..) _; on_goal 2 => decide)
    | split

theorem vectorDeliver_keep (v : ℕ) (w : Wall) :
    Keep 0x200002000000000000000000000000000000001 w (vectorDeliver v w) := by
  unfold vectorDeliver
  try dsimp only
  repeat' first
    | with_reducible apply Keep.refl
    | with_reducible assumption
    | (with_reducible apply Keep.step _ (bump_keep ..) _; on_goal 2 => decide)
    | (with_reducible apply Keep.step _ (emit_keep ..) _; on_goal 2 => decide)
    | (with_reducible apply Keep.hstU; on_goal 2 => (generalize Wall.hst _ = z; revert z; refine id ?_; intro z; refine HostSt.Keep.mk .refl (.free (by decide)) .refl .refl (fun ⟨k0, k1, k2, k3⟩ => ?_); constructor <;> dsimp only))
    | with_reducible apply twf_tput
    | (with_reducible apply Keep.ite <;> intro _)

theorem hostEnable_keep (hi : Bool) (v : ℕ) (w : Wall) :
    Keep 0x2000000000000000000000000000000001 w (hostEnable hi v w) := by
  unfold hostEnable
  try dsimp only
  repeat' first
    | with_reducible apply Keep.refl
    | with_reducible assumption
    | (with_reducible apply Keep.step _ (hostEvent_keep ..) _; on_goal 2 => decide)
    | (with_reducible apply Keep.step _ (setBitR_keep ..) _; on_goal 2 => decide)
    | (with_reducible apply Keep.step _ (clrBitR_keep ..) _; on_goal 2 => decide)
    | (with_reducible apply Keep.when; on_goal 2 => intro _ _)
    | (with_reducible apply Keep.foldl; on_goal 2 => intro _ _ _)
    | (with_reducible apply Keep.ite <;> intro _)

theorem hostClear_keep (hi : Bool) (v : ℕ) (w : Wall) :
    Keep 0x2000000000000000000000000000000001 w (hostClear hi v w) := by
  unfold hostClear
  try dsimp only
  repeat' first
    | with_reducible apply Keep.refl
    | with_reducible assumption
    | (with_reducible apply Keep.step _ (setLatch_keep ..) _; on_goal 2 => decide)
    | (with_reducible apply Keep.step _ (clrBitR_keep ..) _; on_goal 2 => decide)
    | (with_reducible apply Keep.when; on_goal 2 => intro _ _)
    | (with_reducible apply Keep.foldl; on_goal 2 => intro _ _ _)
    | (with_reducible apply Keep.ite <;> intro _)

theorem foldBytes_keep (b : ℕ) (desc : ℕ) (w : Wall) :
    Keep 0x1 w (foldBytes b desc w).2 := by
  unfold foldBytes
  try dsimp only
  repeat' first
    | with_reducible apply Keep.refl
    | (with_reducible apply Keep.step _ (bump_keep ..) _; on_goal 2 => decide)
    | split

theorem cvUnit_keep (b : ℕ) (f : MillFrame) (w : Wall) :
    Keep 0x1 w (cvUnit b f w).2 := by
  unfold cvUnit
  try dsimp only
  repeat' first
    | with_reducible apply Keep.refl
    | (with_reducible apply Keep.step _ (set_keep ..) _; on_goal 2 => decide)
    | (with_reducible apply Keep.step _ (bump_keep ..) _; on_goal 2 => decide)
    | (with_reducible apply Keep.step _ (foldBytes_keep ..) _; on_goal 2 => decide)

theorem millFrame_keep (b : ℕ) (w : Wall) :
    Keep 0x20000f000000001000000000000000004000003 w (millFrame b w) := by
  unfold millFrame
  try dsimp only
  repeat' first
    | with_reducible apply Keep.refl
    | (with_reducible apply Keep.step _ (txComplete_keep ..) _; on_goal 2 => decide)
    | (with_reducible apply Keep.step _ (setMill_keep ..) _; on_goal 2 => decide)
    | (with_reducible apply Keep.step _ (pumpRings_keep ..) _; on_goal 2 => decide)
    | (with_reducible apply Keep.step _ (subHostOcc_keep ..) _; on_goal 2 => decide)
    | (with_reducible apply Keep.step _ (cvUnit_keep ..) _; on_goal 2 => decide)
    | (with_reducible apply Keep.ite <;> intro _)
    | split

theorem millOversize_keep (b : ℕ) (w : Wall) :
    Keep 0x200006000000000000000000000000000000003 w (millOversize b w) := by
  unfold millOversize
  try dsimp only
  repeat' first
    | with_reducible apply Keep.refl
    | (with_reducible apply Keep.step _ (setMillState_keep ..) _; on_goal 2 => decide)
    | (with_reducible apply Keep.step _ (bump64_keep ..) _; on_goal 2 => decide)
    | (with_reducible apply Keep.step _ (setMill_keep ..) _; on_goal 2 => decide)
    | (with_reducible apply Keep.step _ (ringError_keep ..) _; on_goal 2 => decide)
    | (with_reducible apply Keep.step _ (txWriteBack_keep ..) _; on_goal 2 => decide)
    | (with_reducible apply Keep.ite <;> intro _)
    | split

theorem enterMill_keep (sp : ℕ) (w : Wall) :
    Keep 0x204607000000005f6038031c6a0090000000003 w (enterMill sp w) := by
  unfold enterMill
  try dsimp only
  repeat' first
    | with_reducible apply Keep.refl
    | (with_reducible apply Keep.step _ (setMillState_keep ..) _; on_goal 2 => decide)
    | (with_reducible apply Keep.step _ (downOff_keep ..) _; on_goal 2 => decide)
    | (with_reducible apply Keep.step _ (setSpSt_keep ..) _; on_goal 2 => decide)
    | (with_reducible apply Keep.step _ (setMill_keep ..) _; on_goal 2 => decide)

theorem millTurn_keep (sp : ℕ) (w : Wall) :
    Keep 0x204607000000005f6038031c6a0090000000003 w (millTurn sp w) := by
  unfold millTurn
  try dsimp only
  repeat' first
    | with_reducible apply Keep.refl
    | (with_reducible apply Keep.step _ (setMillState_keep ..) _; on_goal 2 => decide)
    | (with_reducible apply Keep.step _ (enterMill_keep ..) _; on_goal 2 => decide)
    | (with_reducible apply Keep.ite <;> intro _)

theorem millOn_keep (sp : ℕ) (w : Wall) :
    WRes.Keep 0x204607000000005f6038031c6a0090000000003 w (millOn sp w) := by
  unfold millOn
  try dsimp only
  repeat' first
    | with_reducible apply Keep.refl
    | (with_reducible apply Keep.step _ (millTurn_keep ..) _; on_goal 2 => decide)
    | (with_reducible apply Keep.step _ (set_keep ..) _; on_goal 2 => decide)
    | with_reducible apply WRes.Keep.abort
    | with_reducible apply WRes.Keep.okI
    | (with_reducible apply WRes.Keep.ite <;> intro _)

theorem millOff_keep (sp : ℕ) (w : Wall) :
    Keep 0x2000000000000000000000000000000001 w (millOff sp w) := by
  unfold millOff
  try dsimp only
  repeat' first
    | with_reducible apply Keep.refl
    | (with_reducible apply Keep.step _ (setMillState_keep ..) _; on_goal 2 => decide)
    | (with_reducible apply Keep.step _ (set_keep ..) _; on_goal 2 => decide)
    | (with_reducible apply Keep.ite <;> intro _)

theorem millDrained_keep (sp : ℕ) (w : Wall) :
    Keep 0x304002000000000000000000060000000000001 w (millDrained sp w) := by
  unfold millDrained
  try dsimp only
  repeat' first
    | with_reducible apply Keep.refl
    | (with_reducible apply Keep.step _ (setMillState_keep ..) _; on_goal 2 => decide)
    | (with_reducible apply Keep.step _ (setSpSt_keep ..) _; on_goal 2 => decide)
    | (with_reducible apply Keep.step _ (enterDetect_keep ..) _; on_goal 2 => decide)
    | (with_reducible apply Keep.ite <;> intro _)

end Sys2Proof.Machine
end

