-- ==== Sys2Proof/Laws/KeepTime.lean ====
section
/-! SUPPORT. What each operation of Machine/Time.lean may change. -/

set_option linter.unusedTactic false
set_option linter.unreachableTactic false

open Sys2Proof

namespace Sys2Proof.Machine

theorem tget_mem {α : Type} : ∀ {t : Tbl α} {k : Nat} {v : α}, tget t k = some v → (k, v) ∈ t
  | [], _, _, h => by simp at h
  | (j, a) :: t, k, v, h => by
    unfold tget at h
    split at h
    · cases h; subst_vars; exact List.mem_cons_self
    · exact List.mem_cons_of_mem _ (tget_mem h)

/-- What is left of a sub-port's captures after the oldest is taken is no longer than they were. -/
theorem captures_tail {t : Tbl (List Nat)} {k x : Nat} {l : List Nat} (h : ∀ e ∈ t, e.2.length ≤ 16)
    (e : tgetD t k [] = x :: l) : l.length ≤ 16 := by
  unfold tgetD at e
  cases g : tget t k with
  | none => simp [g] at e
  | some v =>
    have := h _ (tget_mem g)
    simp only [g, Option.getD_some] at e
    subst e
    simp only [List.length_cons] at this
    omega

theorem tickTime_keep (w : Wall) :
    Keep 0x14 w (tickTime w) := by
  unfold tickTime
  try dsimp only
  repeat' first
    | with_reducible apply Keep.refl
    | with_reducible assumption
    | (with_reducible apply Keep.timeU; on_goal 2 => (generalize Wall.time _ = z; revert z; refine id ?_; intro z; refine TimeSt.Keep.mk (.free (by decide)) .refl (.free (by decide)) .refl .refl .refl .refl .refl (fun ⟨k0, k1, k2⟩ => ?_); constructor <;> dsimp only))

theorem waitTime_keep (who : Who) (op : TimeOp) (w : Wall) :
    Keep 0x80 w (waitTime who op w) := by
  unfold waitTime
  try dsimp only
  repeat' first
    | with_reducible apply Keep.refl
    | with_reducible assumption
    | (with_reducible apply Keep.timeU; on_goal 2 => (generalize Wall.time _ = z; revert z; refine id ?_; intro z; refine TimeSt.Keep.mk .refl .refl .refl .refl .refl (.free (by decide)) .refl .refl (fun ⟨k0, k1, k2⟩ => ?_); constructor <;> dsimp only))

theorem timeSet_keep (who : Who) (v : ℕ) (w : Wall) :
    WRes.Keep 0x81 w (timeSet who v w) := by
  unfold timeSet
  try dsimp only
  repeat' first
    | with_reducible apply Keep.refl
    | (with_reducible apply Keep.step _ (waitTime_keep ..) _; on_goal 2 => decide)
    | (with_reducible apply Keep.step _ (set_keep ..) _; on_goal 2 => decide)
    | with_reducible apply WRes.Keep.held

theorem timeStep_keep (who : Who) (d : ℤ) (w : Wall) :
    WRes.Keep 0x81 w (timeStep who d w) := by
  unfold timeStep
  try dsimp only
  repeat' first
    | with_reducible apply Keep.refl
    | (with_reducible apply Keep.step _ (waitTime_keep ..) _; on_goal 2 => decide)
    | (with_reducible apply Keep.step _ (set_keep ..) _; on_goal 2 => decide)
    | with_reducible apply WRes.Keep.abort
    | with_reducible apply WRes.Keep.held
    | (with_reducible apply WRes.Keep.ite <;> intro _)

theorem freqWrite_keep (who : Who) (ppt : ℤ) (w : Wall) :
    WRes.Keep 0x81 w (freqWrite who ppt w) := by
  unfold freqWrite
  try dsimp only
  repeat' first
    | with_reducible apply Keep.refl
    | (with_reducible apply Keep.step _ (waitTime_keep ..) _; on_goal 2 => decide)
    | (with_reducible apply Keep.step _ (setI_keep ..) _; on_goal 2 => decide)
    | with_reducible apply WRes.Keep.held

theorem stepped_keep (w : Wall) :
    Keep 0x1 w (stepped w) := by
  unfold stepped
  try dsimp only
  repeat' first
    | with_reducible apply Keep.refl
    | (with_reducible apply Keep.step _ (bump_keep ..) _; on_goal 2 => decide)
    | (with_reducible apply Keep.step _ (set_keep ..) _; on_goal 2 => decide)

theorem applyTime_keep (op : TimeOp) (w : Wall) :
    Keep 0x61 w (applyTime op w) := by
  unfold applyTime
  try dsimp only
  repeat' first
    | with_reducible apply Keep.refl
    | with_reducible assumption
    | (with_reducible apply Keep.step _ (stepped_keep ..) _; on_goal 2 => decide)
    | (with_reducible apply Keep.timeU; on_goal 2 => (generalize Wall.time _ = z; revert z; refine id ?_; intro z; refine TimeSt.Keep.mk .refl .refl .refl (.free (by decide)) (.free (by decide)) .refl .refl .refl (fun ⟨k0, k1, k2⟩ => ?_); constructor <;> dsimp only))
    | split

theorem takeAdj_keep (w : Wall) :
    Keep 0x100 w (takeAdj w) := by
  unfold takeAdj
  try dsimp only
  repeat' first
    | with_reducible apply Keep.refl
    | with_reducible assumption
    | (with_reducible apply Keep.upTo; on_goal 2 => intro _ _ _)
    | (with_reducible apply Keep.timeU; on_goal 2 => (generalize Wall.time _ = z; revert z; refine id ?_; intro z; refine TimeSt.Keep.mk .refl .refl .refl .refl .refl .refl (.free (by decide)) .refl (fun ⟨k0, k1, k2⟩ => ?_); constructor <;> dsimp only))
    | with_reducible apply twf_tputD

theorem resync_keep (w : Wall) :
    Keep 0x2000020000000000000000000000900000001e3 w (resync w) := by
  unfold resync
  try dsimp only
  repeat' first
    | with_reducible apply Keep.refl
    | with_reducible assumption
    | (with_reducible apply Keep.step _ (respond_keep ..) _; on_goal 2 => decide)
    | (with_reducible apply Keep.step _ (takeAdj_keep ..) _; on_goal 2 => decide)
    | (with_reducible apply Keep.step _ (applyTime_keep ..) _; on_goal 2 => decide)
    | (with_reducible apply Keep.foldl; on_goal 2 => intro _ _ _)
    | (with_reducible apply Keep.timeU; on_goal 2 => (generalize Wall.time _ = z; revert z; refine id ?_; intro z; refine TimeSt.Keep.mk .refl .refl .refl (.free (by decide)) (.free (by decide)) (.free (by decide)) (.free (by decide)) .refl (fun ⟨k0, k1, k2⟩ => ?_); constructor <;> dsimp only))

theorem takeStamp_keep (sp : ℕ) (w : Wall) :
    Keep 0x42000000000000000000000000000000201 w (takeStamp sp w).2 := by
  unfold takeStamp
  try dsimp only
  repeat' first
    | with_reducible apply Keep.refl
    | with_reducible assumption
    | (with_reducible apply Keep.step _ (level_keep ..) _; on_goal 2 => decide)
    | (with_reducible apply Keep.timeU; on_goal 2 => (refine TimeSt.Keep.mk .refl .refl .refl .refl .refl .refl .refl (.free (by decide)) (fun ⟨k0, k1, k2⟩ => ?_); constructor <;> dsimp only))
    | with_reducible apply twf_tput
    | with_reducible apply twf_tdel
    | (intro e he; exact (by assumption : ∀ e ∈ w.time.captures, e.2.length ≤ 16) e (mem_tdel he))
    | (intro e he; rcases mem_tput he with rfl | he; (· exact captures_tail (by assumption) (by assumption)); (· exact (by assumption : ∀ e ∈ w.time.captures, e.2.length ≤ 16) e he))
    | (with_reducible apply Keep.ite <;> intro _)
    | split

end Sys2Proof.Machine
end

