-- ==== Sys2Proof/Laws/KeepBoundary.lean ====
section
/-! SUPPORT. What each operation of Machine/Boundary.lean may change. -/

set_option linter.unusedTactic false
set_option linter.unreachableTactic false

open Sys2Proof

namespace Sys2Proof.Machine

theorem modBnd_keep {m : Nat} {v w : Wall} {f : BoundarySt → BoundarySt} (h : Keep m v w)
    (k : ∀ b, BoundarySt.Keep m b (f b)) : Keep m v (modBnd f w) := Keep.bndU h (k w.bnd)

theorem reflaneLoss_keep (b : ℕ) (w : Wall) :
    Keep 0x204603000000005f6038031c6a0090002000003 w (reflaneLoss b w) := by
  unfold reflaneLoss
  try dsimp only
  repeat' first
    | with_reducible apply Keep.refl
    | with_reducible assumption
    | (with_reducible apply Keep.step _ (set_keep ..) _; on_goal 2 => decide)
    | (with_reducible apply Keep.step _ (latch_keep ..) _; on_goal 2 => decide)
    | (with_reducible apply Keep.step _ (downOff_keep ..) _; on_goal 2 => decide)
    | (with_reducible apply Keep.foldl; on_goal 2 => intro _ _ _)
    | (with_reducible apply Keep.bndU; on_goal 2 => (generalize Wall.bnd _ = z; revert z; refine id ?_; intro z; refine BoundarySt.Keep.mk .refl .refl .refl .refl .refl .refl .refl .refl .refl .refl .refl .refl .refl .refl .refl (.free (by decide)) .refl .refl .refl .refl .refl .refl .refl .refl .refl .refl (fun ⟨k0, k1, k2⟩ => ?_); constructor <;> dsimp only))
    | (with_reducible apply Keep.ite <;> intro _)

theorem reflaneRestored_keep (b : ℕ) (w : Wall) :
    Keep 0x304002000000000000000000060000002000001 w (reflaneRestored b w) := by
  unfold reflaneRestored
  try dsimp only
  repeat' first
    | with_reducible apply Keep.refl
    | with_reducible assumption
    | (with_reducible apply Keep.step _ (enterDetect_keep ..) _; on_goal 2 => decide)
    | (with_reducible apply Keep.step _ (set_keep ..) _; on_goal 2 => decide)
    | (with_reducible apply Keep.foldl; on_goal 2 => intro _ _ _)
    | (with_reducible apply Keep.bndU; on_goal 2 => (generalize Wall.bnd _ = z; revert z; refine id ?_; intro z; refine BoundarySt.Keep.mk .refl .refl .refl .refl .refl .refl .refl .refl .refl .refl .refl .refl .refl .refl .refl (.free (by decide)) .refl .refl .refl .refl .refl .refl .refl .refl .refl .refl (fun ⟨k0, k1, k2⟩ => ?_); constructor <;> dsimp only))
    | (with_reducible apply Keep.ite <;> intro _)

theorem pfailAccept_keep (w : Wall) :
    Keep 0x60200090000000000000000000004004c001 w (pfailAccept w) := by
  unfold pfailAccept
  try dsimp only
  repeat' first
    | with_reducible apply Keep.refl
    | with_reducible assumption
    | (with_reducible apply Keep.step _ (daybook_keep ..) _; on_goal 2 => decide)
    | (with_reducible apply Keep.step _ (bump_keep ..) _; on_goal 2 => decide)
    | (with_reducible apply Keep.step _ (setShut_keep ..) _; on_goal 2 => decide)
    | (with_reducible apply Keep.step _ (pfailSheaf_keep ..) _; on_goal 2 => decide)
    | (with_reducible apply Keep.step _ (latch_keep ..) _; on_goal 2 => decide)
    | (with_reducible apply modBnd_keep; on_goal 2 => (intro b; refine BoundarySt.Keep.mk .refl .refl .refl .refl (.free (by decide)) (.free (by decide)) .refl .refl (.free (by decide)) .refl .refl .refl .refl .refl .refl .refl .refl .refl .refl .refl (.free (by decide)) .refl .refl .refl .refl .refl (fun ⟨k0, k1, k2⟩ => ?_); constructor <;> dsimp only))
    | (with_reducible apply Keep.ite <;> intro _)

theorem pfailDrained_keep (m : Mode) (w : Wall) :
    Keep 0x2006023d2ff80000000000000000b0000080001 w (pfailDrained m w) := by
  unfold pfailDrained
  try dsimp only
  repeat' first
    | with_reducible apply Keep.refl
    | (with_reducible apply Keep.step _ (drainQueue_keep ..) _; on_goal 2 => decide)
    | (with_reducible apply Keep.step _ (setInhibit_keep ..) _; on_goal 2 => decide)
    | (with_reducible apply Keep.ite <;> intro _)

theorem pfailRise_keep (w : Wall) :
    Keep 0x8000 w (pfailRise w) := by
  unfold pfailRise
  try dsimp only
  repeat' first
    | with_reducible apply Keep.refl
    | with_reducible assumption
    | (with_reducible apply modBnd_keep; on_goal 2 => (intro b; refine BoundarySt.Keep.mk .refl .refl .refl .refl .refl (.free (by decide)) .refl .refl .refl .refl .refl .refl .refl .refl .refl .refl .refl .refl .refl .refl .refl .refl .refl .refl .refl .refl (fun ⟨k0, k1, k2⟩ => ?_); constructor <;> dsimp only))
    | (with_reducible apply Keep.ite <;> intro _)

theorem pfailGroup_keep (w : Wall) :
    Keep 0xa00000000000000000000000000000 w (pfailGroup w) := by
  unfold pfailGroup
  try dsimp only
  repeat' first
    | with_reducible apply Keep.refl
    | with_reducible assumption
    | (with_reducible apply Keep.graU; on_goal 2 => (generalize Wall.gra _ = z; revert z; refine id ?_; intro z; refine GranarySt.Keep.mk .refl .refl .refl .refl .refl .refl (.free (by decide)) .refl (.free (by decide)) .refl .refl .refl .refl .refl .refl .refl .refl .refl .refl .refl .refl (fun ⟨k0, k1, k2, k3, k4, k5, k6, k7, k8⟩ => ?_); constructor <;> dsimp only))
    | (with_reducible apply Keep.ite <;> intro _)

theorem pfailReopen_keep (w : Wall) :
    Keep 0xb000000000000000000000000cc000 w (pfailReopen w) := by
  unfold pfailReopen
  try dsimp only
  repeat' first
    | with_reducible apply Keep.refl
    | with_reducible assumption
    | (with_reducible apply Keep.step _ (setShut_keep ..) _; on_goal 2 => decide)
    | (with_reducible apply Keep.step _ (pfailGroup_keep ..) _; on_goal 2 => decide)
    | (with_reducible apply Keep.step _ (pumpQueue_keep ..) _; on_goal 2 => decide)
    | (with_reducible apply Keep.step _ (setInhibit_keep ..) _; on_goal 2 => decide)
    | (with_reducible apply modBnd_keep; on_goal 2 => (intro b; refine BoundarySt.Keep.mk .refl .refl .refl .refl (.free (by decide)) (.free (by decide)) .refl .refl (.free (by decide)) (.free (by decide)) .refl .refl .refl .refl .refl .refl .refl .refl .refl .refl .refl .refl .refl .refl .refl .refl (fun ⟨k0, k1, k2⟩ => ?_); constructor <;> dsimp only))
    | (with_reducible apply Keep.ite <;> intro _)

theorem vcoreTolerance_keep (inBand : Bool) (w : Wall) :
    Keep 0x98000 w (vcoreTolerance inBand w) := by
  unfold vcoreTolerance
  try dsimp only
  repeat' first
    | with_reducible apply Keep.refl
    | with_reducible assumption
    | (with_reducible apply Keep.step _ (setInhibit_keep ..) _; on_goal 2 => decide)
    | (with_reducible apply modBnd_keep; on_goal 2 => (intro b; refine BoundarySt.Keep.mk .refl .refl .refl .refl .refl (.free (by decide)) (.free (by decide)) .refl .refl (.free (by decide)) .refl .refl .refl .refl .refl .refl .refl .refl .refl .refl .refl .refl .refl .refl .refl .refl (fun ⟨k0, k1, k2⟩ => ?_); constructor <;> dsimp only))
    | (with_reducible apply Keep.ite <;> intro _)

theorem accessError_keep (offset : ℕ) (size : ℕ) (m : Mode) (w : Wall) :
    Keep 0x200000000000000000000000000000000000000 w (accessError offset size m w) := by
  unfold accessError
  try dsimp only
  repeat' first
    | with_reducible apply Keep.refl
    | (with_reducible apply Keep.step _ (emit_keep ..) _; on_goal 2 => decide)
    | (with_reducible apply Keep.ite <;> intro _)

theorem creditLog_keep (c : ℕ) (v : ℕ) (w : Wall) :
    Keep 0x602000000000000000000000000000000001 w (creditLog c v w) := by
  unfold creditLog
  try dsimp only
  repeat' first
    | with_reducible apply Keep.refl
    | (with_reducible apply Keep.step _ (daybook_keep ..) _; on_goal 2 => decide)

theorem creditReturn_keep (c : ℕ) (n : ℕ) (w : Wall) :
    Keep 0x602000000000000000000000000010000001 w (creditReturn c n w) := by
  unfold creditReturn
  try dsimp only
  repeat' first
    | with_reducible apply Keep.refl
    | (with_reducible apply Keep.step _ (creditLog_keep ..) _; on_goal 2 => decide)
    | (with_reducible apply Keep.step _ (setCredits_keep ..) _; on_goal 2 => decide)
    | (with_reducible apply Keep.ite <;> intro _)

theorem creditInit_keep (c : ℕ) (v : ℕ) (w : Wall) :
    Keep 0x602000000000000000000000000018000001 w (creditInit c v w) := by
  unfold creditInit
  try dsimp only
  repeat' first
    | with_reducible apply Keep.refl
    | with_reducible assumption
    | (with_reducible apply Keep.step _ (creditLog_keep ..) _; on_goal 2 => decide)
    | (with_reducible apply Keep.step _ (setCredits_keep ..) _; on_goal 2 => decide)
    | (with_reducible apply modBnd_keep; on_goal 2 => (intro b; refine BoundarySt.Keep.mk .refl .refl .refl .refl .refl .refl .refl .refl .refl .refl .refl .refl .refl .refl .refl .refl .refl (.free (by decide)) (.free (by decide)) .refl .refl .refl .refl .refl .refl .refl (fun ⟨k0, k1, k2⟩ => ?_); constructor <;> dsimp only))
    | with_reducible apply twf_tput
    | (with_reducible apply Keep.ite <;> intro _)

theorem waitingChange_keep (p : ℕ) (high : Bool) (w : Wall) :
    Keep 0x20000001 w (waitingChange p high w) := by
  unfold waitingChange
  try dsimp only
  repeat' first
    | with_reducible apply Keep.refl
    | with_reducible assumption
    | (with_reducible apply Keep.step _ (panicEval_keep ..) _; on_goal 2 => decide)
    | (with_reducible apply modBnd_keep; on_goal 2 => (intro b; refine BoundarySt.Keep.mk .refl .refl .refl .refl .refl .refl .refl .refl .refl .refl .refl .refl .refl .refl .refl .refl .refl .refl .refl (.free (by decide)) .refl .refl .refl .refl .refl .refl (fun ⟨k0, k1, k2⟩ => ?_); constructor <;> dsimp only))

theorem avsStep_keep (m : Mode) (w : Wall) :
    Keep 0x2000000000000000000000000000000c0000000 w (avsStep m w) := by
  unfold avsStep
  try dsimp only
  repeat' first
    | with_reducible apply Keep.refl
    | with_reducible assumption
    | (with_reducible apply Keep.step _ (emit_keep ..) _; on_goal 2 => decide)
    | (with_reducible apply modBnd_keep; on_goal 2 => (intro b; refine BoundarySt.Keep.mk .refl .refl .refl .refl .refl .refl .refl .refl .refl .refl .refl .refl .refl .refl .refl .refl .refl .refl .refl .refl (.free (by decide)) (.free (by decide)) .refl .refl .refl .refl (fun ⟨k0, k1, k2⟩ => ?_); constructor <;> dsimp only))
    | (with_reducible apply Keep.ite <;> intro _)
    | split

theorem avsFailed_keep (w : Wall) :
    Keep 0x1c0000001 w (avsFailed w) := by
  unfold avsFailed
  try dsimp only
  repeat' first
    | with_reducible apply Keep.refl
    | with_reducible assumption
    | (with_reducible apply Keep.step _ (bump_keep ..) _; on_goal 2 => decide)
    | (with_reducible apply modBnd_keep; on_goal 2 => (intro b; refine BoundarySt.Keep.mk .refl .refl .refl .refl .refl .refl .refl .refl .refl .refl .refl .refl .refl .refl .refl .refl .refl .refl .refl .refl (.free (by decide)) (.free (by decide)) (.free (by decide)) .refl .refl .refl (fun ⟨k0, k1, k2⟩ => ?_); constructor <;> dsimp only))

theorem avsAnswer_keep (ack : Bool) (w : Wall) :
    Keep 0x2000b000000000000000000001c0000001 w (avsAnswer ack w) := by
  unfold avsAnswer
  try dsimp only
  repeat' first
    | with_reducible apply Keep.refl
    | with_reducible assumption
    | (with_reducible apply Keep.step _ (set_keep ..) _; on_goal 2 => decide)
    | (with_reducible apply Keep.step _ (avsFailed_keep ..) _; on_goal 2 => decide)
    | (with_reducible apply Keep.step _ (latch_keep ..) _; on_goal 2 => decide)
    | (with_reducible apply Keep.step _ (commitReg_keep ..) _; on_goal 2 => decide)
    | (with_reducible apply modBnd_keep; on_goal 2 => (intro b; refine BoundarySt.Keep.mk .refl .refl .refl .refl .refl .refl .refl .refl .refl .refl .refl .refl .refl .refl .refl .refl .refl .refl .refl .refl (.free (by decide)) (.free (by decide)) (.free (by decide)) .refl .refl .refl (fun ⟨k0, k1, k2⟩ => ?_); constructor <;> dsimp only))
    | (with_reducible apply Keep.ite <;> intro _)
    | split

theorem avsTimeout_keep (w : Wall) :
    Keep 0x6020000000000000000000000001c0000001 w (avsTimeout w) := by
  unfold avsTimeout
  try dsimp only
  repeat' first
    | with_reducible apply Keep.refl
    | (with_reducible apply Keep.step _ (daybook_keep ..) _; on_goal 2 => decide)
    | (with_reducible apply Keep.step _ (avsFailed_keep ..) _; on_goal 2 => decide)
    | split

theorem tempReading_keep (k : ℕ) (t : ℤ) (w : Wall) :
    Keep 0x42000000000000000000000000000000001 w (tempReading k t w) := by
  unfold tempReading
  try dsimp only
  repeat' first
    | with_reducible apply Keep.refl
    | (with_reducible apply Keep.step _ (level_keep ..) _; on_goal 2 => decide)
    | (with_reducible apply Keep.step _ (setI_keep ..) _; on_goal 2 => decide)

theorem thermalDown_keep (k : ℕ) (t : ℤ) (w : Wall) :
    Keep 0x2046430c2b00005f6038031c6a0090800000003 w (thermalDown k t w) := by
  unfold thermalDown
  try dsimp only
  repeat' first
    | with_reducible apply Keep.refl
    | with_reducible assumption
    | (with_reducible apply Keep.step _ (digestEntry_keep ..) _; on_goal 2 => decide)
    | (with_reducible apply Keep.step _ (tempReading_keep ..) _; on_goal 2 => decide)
    | (with_reducible apply Keep.step _ (downOff_keep ..) _; on_goal 2 => decide)
    | (with_reducible apply Keep.upTo; on_goal 2 => intro _ _ _)
    | (with_reducible apply modBnd_keep; on_goal 2 => (intro b; refine BoundarySt.Keep.mk .refl .refl .refl .refl .refl .refl .refl .refl .refl .refl .refl .refl .refl .refl .refl .refl .refl .refl .refl .refl .refl .refl .refl .refl .refl (.free (by decide)) (fun ⟨k0, k1, k2⟩ => ?_); constructor <;> dsimp only))
    | (with_reducible apply Keep.ite <;> intro _)

end Sys2Proof.Machine
end

