-- ==== Sys2Proof/Laws/KeepObserve.lean ====
section
/-! SUPPORT. What each operation of Machine/Observe.lean may change. -/

set_option linter.unusedTactic false
set_option linter.unreachableTactic false

open Sys2Proof

namespace Sys2Proof.Machine

theorem counterWrap_keep (b : ℕ) (k : ℕ) (w : Wall) :
    Keep 0x1802000000000000000000000000000000001 w (counterWrap b k w) := by
  unfold counterWrap
  try dsimp only
  repeat' first
    | with_reducible apply Keep.refl
    | (with_reducible apply Keep.step _ (pcAdd_keep ..) _; on_goal 2 => decide)
    | (with_reducible apply Keep.ite <;> intro _)

theorem pcValueRead_keep (b : ℕ) (k : ℕ) (w : Wall) :
    Keep 0x2 w (pcValueRead b k w) := by
  unfold pcValueRead
  try dsimp only
  repeat' first
    | with_reducible apply Keep.refl
    | (with_reducible apply Keep.step _ (setWin64_keep ..) _; on_goal 2 => decide)
    | (with_reducible apply Keep.ite <;> intro _)

theorem pcClearAll_keep (w : Wall) :
    Keep 0x3 w (pcClearAll w) := by
  unfold pcClearAll
  try dsimp only
  repeat' first
    | with_reducible apply Keep.refl
    | with_reducible assumption
    | (with_reducible apply Keep.step _ (setWin64_keep ..) _; on_goal 2 => decide)
    | (with_reducible apply Keep.step _ (set_keep ..) _; on_goal 2 => decide)
    | (with_reducible apply Keep.upTo; on_goal 2 => intro _ _ _)

theorem tallyStart_keep (sp : ℕ) (w : Wall) :
    Keep 0x4000000000000000000000000000000000000 w (tallyStart sp w) := by
  unfold tallyStart
  try dsimp only
  repeat' first
    | with_reducible apply Keep.refl
    | (with_reducible apply Keep.step _ (modTally_keep ..) _; on_goal 2 => decide)

theorem tallyEnd_keep (p : ℕ) (partly : Bool) (w : Wall) :
    Keep 0x1c000000000000000000000000000000000001 w (tallyEnd p partly w) := by
  unfold tallyEnd
  try dsimp only
  repeat' first
    | with_reducible apply Keep.refl
    | with_reducible assumption
    | (with_reducible apply Keep.step _ (set_keep ..) _; on_goal 2 => decide)
    | (with_reducible apply Keep.step _ (tallyStart_keep ..) _; on_goal 2 => decide)
    | (with_reducible apply Keep.upTo; on_goal 2 => intro _ _ _)
    | (with_reducible apply Keep.obsU; on_goal 2 => (generalize Wall.obs _ = z; revert z; refine id ?_; intro z; refine ObsSt.Keep.mk .refl .refl .refl .refl .refl (.free (by decide)) (.free (by decide)) (.free (by decide)) .refl .refl .refl (fun ⟨k0, k1, k2, k3, k4, k5, k6, k7, k8⟩ => ?_); constructor <;> dsimp only))
    | with_reducible apply twf_tput

theorem tallyWrite_keep (p : ℕ) (v : ℕ) (w : Wall) :
    Keep 0x1c000000000000000000000000000000000001 w (tallyWrite p v w) := by
  unfold tallyWrite
  try dsimp only
  repeat' first
    | with_reducible apply Keep.refl
    | (with_reducible apply Keep.step _ (tallyEnd_keep ..) _; on_goal 2 => decide)
    | (with_reducible apply Keep.step _ (set_keep ..) _; on_goal 2 => decide)

theorem takeSampleEntry_keep (w : Wall) :
    Keep 0x800000000000000000000000000000000001 w (takeSampleEntry w).2 := by
  unfold takeSampleEntry
  try dsimp only
  repeat' first
    | with_reducible apply Keep.refl
    | with_reducible assumption
    | (with_reducible apply Keep.step _ (set_keep ..) _; on_goal 2 => decide)
    | (with_reducible apply Keep.obsU; on_goal 2 => (refine ObsSt.Keep.mk .refl .refl (.free (by decide)) .refl .refl .refl .refl .refl .refl .refl .refl (fun ⟨k0, k1, k2, k3, k4, k5, k6, k7, k8⟩ => ?_); constructor <;> dsimp only))
    | (rename_i e _; have k := (by assumption : w.obs.samples.length ≤ 256); rw [e, List.length_cons] at k; omega)
    | split

theorem booksStart_keep (sel : ℕ) (w : Wall) :
    Keep 0x20000000000000000000000000000000000001 w (booksStart sel w) := by
  unfold booksStart
  try dsimp only
  repeat' first
    | with_reducible apply Keep.refl
    | with_reducible assumption
    | (with_reducible apply Keep.step _ (set_keep ..) _; on_goal 2 => decide)
    | (with_reducible apply Keep.obsU; on_goal 2 => (generalize Wall.obs _ = z; revert z; refine id ?_; intro z; refine ObsSt.Keep.mk .refl .refl .refl .refl .refl .refl .refl .refl (.free (by decide)) .refl .refl (fun ⟨k0, k1, k2, k3, k4, k5, k6, k7, k8⟩ => ?_); constructor <;> dsimp only))

theorem booksRun_keep (sel : ℕ) (w : Wall) :
    WRes.Keep 0x20000000000000000000000000000000000001 w (booksRun sel w) := by
  unfold booksRun
  try dsimp only
  repeat' first
    | with_reducible apply Keep.refl
    | (with_reducible apply Keep.step _ (booksStart_keep ..) _; on_goal 2 => decide)
    | with_reducible apply WRes.Keep.abort
    | with_reducible apply WRes.Keep.okI
    | (with_reducible apply WRes.Keep.ite <;> intro _)

theorem booksPeriod_keep (w : Wall) :
    Keep 0x60000000000000000000000000000000000001 w (booksPeriod w) := by
  unfold booksPeriod
  try dsimp only
  repeat' first
    | with_reducible apply Keep.refl
    | with_reducible assumption
    | (with_reducible apply Keep.step _ (booksStart_keep ..) _; on_goal 2 => decide)
    | (with_reducible apply Keep.obsU; on_goal 2 => (generalize Wall.obs _ = z; revert z; refine id ?_; intro z; refine ObsSt.Keep.mk .refl .refl .refl .refl .refl .refl .refl .refl (.free (by decide)) (.free (by decide)) .refl (fun ⟨k0, k1, k2, k3, k4, k5, k6, k7, k8⟩ => ?_); constructor <;> dsimp only))
    | (with_reducible apply Keep.ite <;> intro _)

theorem booksDone_keep (w : Wall) :
    Keep 0x260602000000000000000000000090000000001 w (booksDone w) := by
  unfold booksDone
  try dsimp only
  repeat' first
    | with_reducible apply Keep.refl
    | with_reducible assumption
    | (with_reducible apply Keep.step _ (booksStart_keep ..) _; on_goal 2 => decide)
    | (with_reducible apply Keep.step _ (set_keep ..) _; on_goal 2 => decide)
    | (with_reducible apply Keep.step _ (bump_keep ..) _; on_goal 2 => decide)
    | (with_reducible apply Keep.step _ (latch_keep ..) _; on_goal 2 => decide)
    | (with_reducible apply Keep.step _ (raise_keep ..) _; on_goal 2 => decide)
    | (with_reducible apply Keep.obsU; on_goal 2 => (generalize Wall.obs _ = z; revert z; refine id ?_; intro z; refine ObsSt.Keep.mk (.free (by decide)) (.free (by decide)) .refl .refl .refl .refl .refl .refl (.free (by decide)) (.free (by decide)) .refl (fun ⟨k0, k1, k2, k3, k4, k5, k6, k7, k8⟩ => ?_); constructor <;> dsimp only))
    | (with_reducible apply Keep.ite <;> intro _)
    | split

end Sys2Proof.Machine
end

