-- ==== Sys2Proof/Laws/KeepReads.lean ====
section
/-! SUPPORT. What each operation of Machine/Reads.lean may change. -/

set_option linter.unusedTactic false
set_option linter.unreachableTactic false

open Sys2Proof

namespace Sys2Proof.Machine

theorem readObj_keep (r : LReq) (m : Mode) (w : Wall) :
    Keep 0x842000000000000000000000000000000201 w (readObj r m w).2.2 := by
  unfold readObj
  try dsimp only
  repeat' first
    | with_reducible apply Keep.refl
    | (with_reducible apply Keep.step _ (takeSampleEntry_keep ..) _; on_goal 2 => decide)
    | (with_reducible apply Keep.step _ (takeStamp_keep ..) _; on_goal 2 => decide)
    | split

end Sys2Proof.Machine
end

