-- ==== Sys2Proof/Laws/KeepEffects.lean ====
section
/-! SUPPORT. What each operation of Machine/Effects.lean may change. -/

set_option linter.unusedTactic false
set_option linter.unreachableTactic false

open Sys2Proof

namespace Sys2Proof.Machine

theorem bringWidth_keep (p : ℕ) (s : ℕ) (w : Wall) :
    Keep 0xb00020000000000000000000000001 w (bringWidth p s w) := by
  unfold bringWidth
  try dsimp only
  repeat' first
    | with_reducible apply Keep.refl
    | with_reducible assumption
    | (with_reducible apply Keep.step _ (removeAllSas_keep ..) _; on_goal 2 => decide)
    | (with_reducible apply Keep.step _ (set_keep ..) _; on_goal 2 => decide)
    | (with_reducible apply Keep.when; on_goal 2 => intro _ _)

theorem thermalEnd_keep (p : ℕ) (w : Wall) :
    Keep 0x800000000 w (thermalEnd p w) := by
  unfold thermalEnd
  try dsimp only
  repeat' first
    | with_reducible apply Keep.refl
    | with_reducible assumption
    | (with_reducible apply Keep.bndU; on_goal 2 => (generalize Wall.bnd _ = z; revert z; refine id ?_; intro z; refine BoundarySt.Keep.mk .refl .refl .refl .refl .refl .refl .refl .refl .refl .refl .refl .refl .refl .refl .refl .refl .refl .refl .refl .refl .refl .refl .refl .refl .refl (.free (by decide)) (fun ⟨k0, k1, k2⟩ => ?_); constructor <;> dsimp only))

theorem fecInForce_keep (p : ℕ) (w : Wall) :
    Keep 0x20000000000000000 w (fecInForce p w) := by
  unfold fecInForce
  try dsimp only
  repeat' first
    | with_reducible apply Keep.refl
    | with_reducible assumption
    | (with_reducible apply Keep.prtU; on_goal 2 => (generalize Wall.prt _ = z; revert z; refine id ?_; intro z; refine PortSt.Keep.mk .refl .refl .refl .refl (.free (by decide)) .refl .refl (fun ⟨k0, k1, k2, k3, k4, k5⟩ => ?_); constructor <;> dsimp only))
    | with_reducible apply twf_tputD

theorem portRestart_keep (p : ℕ) (w : Wall) :
    WRes.Keep 0x304603000b00025f6038033c6e0090800000003 w (portRestart p w) := by
  unfold portRestart
  try dsimp only
  repeat' first
    | with_reducible apply Keep.refl
    | with_reducible assumption
    | (with_reducible apply Keep.step _ (setSpGroup_keep ..) _; on_goal 2 => decide)
    | (with_reducible apply Keep.step _ (enterDetect_keep ..) _; on_goal 2 => decide)
    | (with_reducible apply Keep.step _ (fecInForce_keep ..) _; on_goal 2 => decide)
    | (with_reducible apply Keep.step _ (downCore_keep ..) _; on_goal 2 => decide)
    | (with_reducible apply Keep.step _ (bringWidth_keep ..) _; on_goal 2 => decide)
    | (with_reducible apply Keep.step _ (thermalEnd_keep ..) _; on_goal 2 => decide)
    | with_reducible apply WRes.Keep.abort
    | with_reducible apply WRes.Keep.okI
    | (with_reducible apply Keep.upTo; on_goal 2 => intro _ _ _)
    | (with_reducible apply Keep.ite <;> intro _)
    | (with_reducible apply WRes.Keep.ite <;> intro _)

theorem spAdminWrite_keep (p : ℕ) (s : ℕ) (v : ℕ) (w : Wall) :
    Keep 0x304603000000005f6038031c6e0090000000003 w (spAdminWrite p s v w) := by
  unfold spAdminWrite
  try dsimp only
  repeat' first
    | with_reducible apply Keep.refl
    | (with_reducible apply Keep.step _ (setSpGroup_keep ..) _; on_goal 2 => decide)
    | (with_reducible apply Keep.step _ (enterDetect_keep ..) _; on_goal 2 => decide)
    | (with_reducible apply Keep.step _ (set_keep ..) _; on_goal 2 => decide)
    | (with_reducible apply Keep.step _ (downOff_keep ..) _; on_goal 2 => decide)
    | (with_reducible apply Keep.ite <;> intro _)

theorem fcWritten_keep (sp : ℕ) (w : Wall) :
    Keep 0x8000000000000001 w (fcWritten sp w) := by
  unfold fcWritten
  try dsimp only
  repeat' first
    | with_reducible apply Keep.refl
    | (with_reducible apply Keep.step _ (fcCheckAll_keep ..) _; on_goal 2 => decide)

theorem stewardRestarts_keep (v : ℕ) (w : Wall) :
    Keep 0x92000000000000000000000000000000001 w (stewardRestarts v w) := by
  unfold stewardRestarts
  try dsimp only
  repeat' first
    | with_reducible apply Keep.refl
    | with_reducible assumption
    | (with_reducible apply Keep.step _ (stewardStop_keep ..) _; on_goal 2 => decide)
    | (with_reducible apply Keep.upTo; on_goal 2 => intro _ _ _)
    | (with_reducible apply Keep.when; on_goal 2 => intro _ _)

theorem shelfRollback_keep (k : ℕ) (w : Wall) :
    WRes.Keep 0x4000000000000000000020000000000 w (shelfRollback k w) := by
  unfold shelfRollback
  repeat' first
    | (extract_lets +onlyGivenNames q; refine (fun (hq : Keep 0x4000000000000000000020000000000 w q) => ?_) ?_; (on_goal 2 => subst q); clear_value q)
    | (extract_lets +onlyGivenNames q; subst q)
    | with_reducible apply Keep.refl
    | with_reducible assumption
    | (with_reducible apply Keep.step _ (newDom_keep ..) _; on_goal 2 => decide)
    | with_reducible apply WRes.Keep.abort
    | with_reducible apply WRes.Keep.okI
    | (with_reducible apply Keep.graU; on_goal 2 => (generalize Wall.gra _ = z; revert z; refine id ?_; intro z; refine GranarySt.Keep.mk .refl .refl .refl .refl .refl .refl .refl .refl .refl .refl .refl (.free (by decide)) .refl .refl .refl .refl .refl .refl .refl .refl .refl (fun ⟨k0, k1, k2, k3, k4, k5, k6, k7, k8⟩ => ?_); constructor <;> dsimp only))
    | with_reducible apply twf_tput
    | split

theorem stageBlob_keep (u : ℕ) (k : ℕ) (mailbox : Bool) (l : List Byte) (w : Wall) :
    WRes.Keep 0x40000000000000000000000000 w (stageBlob u k mailbox l w) := by
  unfold stageBlob
  try dsimp only
  repeat' first
    | with_reducible apply Keep.refl
    | with_reducible assumption
    | with_reducible apply WRes.Keep.abort
    | with_reducible apply WRes.Keep.okI
    | (with_reducible apply Keep.secU; on_goal 2 => (generalize Wall.sec _ = z; revert z; refine id ?_; intro z; refine SecSt.Keep.mk .refl (.free (by decide)) .refl .refl .refl .refl .refl .refl .refl .refl (fun ⟨k0, k1, k2, k3, k4⟩ => ?_); constructor <;> dsimp only))
    | with_reducible apply twf_tput
    | (with_reducible apply WRes.Keep.ite <;> intro _)

theorem hostOfficer_keep (who : Who) (v : ℕ) (w : Wall) :
    WRes.Keep 0x1 w (hostOfficer who v w) := by
  unfold hostOfficer
  try dsimp only
  repeat' first
    | with_reducible apply Keep.refl
    | (with_reducible apply Keep.step _ (set_keep ..) _; on_goal 2 => decide)
    | with_reducible apply WRes.Keep.abort
    | with_reducible apply WRes.Keep.okI
    | split

theorem lookupReq_keep (b : ℕ) (v : ℕ) (w : Wall) :
    WRes.Keep 0x200000000000000000080000000000000000000 w (lookupReq b v w) := by
  unfold lookupReq
  try dsimp only
  repeat' first
    | with_reducible apply Keep.refl
    | (with_reducible apply Keep.step _ (issueLookup_keep ..) _; on_goal 2 => decide)
    | with_reducible apply WRes.Keep.later

theorem askTomb_keep (index : ℕ) (sub : ℕ) (after : After) (w : Wall) :
    Keep 0xb00000000000000000000000000000 w (askTomb index sub after w) := by
  unfold askTomb
  try dsimp only
  repeat' first
    | with_reducible apply Keep.refl
    | (with_reducible apply Keep.step _ (askRecord_keep ..) _; on_goal 2 => decide)

theorem afterSet_keep (id : ℕ) (u : ℕ) (k : ℕ) (w : Wall) :
    Keep 0x20064b00000000108000000a000000004000003 w (afterSet id u k w) := by
  unfold afterSet
  try dsimp only
  repeat' first
    | with_reducible apply Keep.refl
    | with_reducible assumption
    | (with_reducible apply Keep.step _ (applyShaper_keep ..) _; on_goal 2 => decide)
    | (with_reducible apply Keep.step _ (fieldDown_keep ..) _; on_goal 2 => decide)
    | (with_reducible apply Keep.step _ (panicEval_keep ..) _; on_goal 2 => decide)
    | (with_reducible apply Keep.step _ (fcWritten_keep ..) _; on_goal 2 => decide)
    | (with_reducible apply Keep.step _ (tempReading_keep ..) _; on_goal 2 => decide)
    | (with_reducible apply Keep.step _ (pumpRings_keep ..) _; on_goal 2 => decide)
    | (with_reducible apply Keep.step _ (quietRetry_keep ..) _; on_goal 2 => decide)
    | (with_reducible apply Keep.upTo; on_goal 2 => intro _ _ _)
    | (with_reducible apply Keep.ite <;> intro _)

theorem setFull_keep (id : ℕ) (u : ℕ) (v : ℕ) (w : Wall) :
    Keep 0x80000000000000000000003 w (setFull id u v w) := by
  unfold setFull
  try dsimp only
  repeat' first
    | with_reducible apply Keep.refl
    | with_reducible assumption
    | (with_reducible apply Keep.step _ (applyShaper_keep ..) _; on_goal 2 => decide)
    | (with_reducible apply Keep.step _ (set_keep ..) _; on_goal 2 => decide)
    | (with_reducible apply Keep.upTo; on_goal 2 => intro _ _ _)
    | (with_reducible apply Keep.when; on_goal 2 => intro _ _)
    | (with_reducible apply Keep.ite <;> intro _)

theorem effect_keep (arg : ℕ) (r : LReq) (row : ObjRow) (u : ℕ) (k : ℕ) (v : ℕ) (data : List Byte) (w : Wall) :
    WRes.Keep 0x33c6df004b002edfe238233eee02b0804000083 w (effect arg r row u k v data w) := by
  unfold effect
  try dsimp only
  repeat' first
    | with_reducible apply Keep.refl
    | with_reducible assumption
    | (with_reducible apply WRes.Keep.step _ (millOn_keep ..) _; on_goal 2 => decide)
    | (with_reducible apply Keep.step _ (swapStart_keep ..) _; on_goal 2 => decide)
    | (with_reducible apply Keep.step _ (gateCancel_keep ..) _; on_goal 2 => decide)
    | (with_reducible apply WRes.Keep.step _ (hostOfficer_keep ..) _; on_goal 2 => decide)
    | (with_reducible apply WRes.Keep.step _ (gateSchedule_keep ..) _; on_goal 2 => decide)
    | (with_reducible apply Keep.step _ (trainRestart_keep ..) _; on_goal 2 => decide)
    | (with_reducible apply Keep.step _ (testStop_keep ..) _; on_goal 2 => decide)
    | (with_reducible apply Keep.step _ (millOff_keep ..) _; on_goal 2 => decide)
    | (with_reducible apply WRes.Keep.step _ (portRestart_keep ..) _; on_goal 2 => decide)
    | (with_reducible apply Keep.step _ (pcClearAll_keep ..) _; on_goal 2 => decide)
    | (with_reducible apply WRes.Keep.step _ (uninstallSa_keep ..) _; on_goal 2 => decide)
    | (with_reducible apply WRes.Keep.step _ (lookupReq_keep ..) _; on_goal 2 => decide)
    | (with_reducible apply WRes.Keep.step _ (shelfRollback_keep ..) _; on_goal 2 => decide)
    | (with_reducible apply WRes.Keep.step _ (booksRun_keep ..) _; on_goal 2 => decide)
    | (with_reducible apply WRes.Keep.step _ (timeSet_keep ..) _; on_goal 2 => decide)
    | (with_reducible apply Keep.step _ (startRound_keep ..) _; on_goal 2 => decide)
    | (with_reducible apply WRes.Keep.step _ (installSa_keep ..) _; on_goal 2 => decide)
    | (with_reducible apply WRes.Keep.step _ (eyeStart_keep ..) _; on_goal 2 => decide)
    | (with_reducible apply Keep.step _ (putSession_keep ..) _; on_goal 2 => decide)
    | (with_reducible apply Keep.step _ (clearKek_keep ..) _; on_goal 2 => decide)
    | (with_reducible apply Keep.step _ (surveyNow_keep ..) _; on_goal 2 => decide)
    | (with_reducible apply Keep.step _ (gleanFlush_keep ..) _; on_goal 2 => decide)
    | (with_reducible apply WRes.Keep.step _ (timeStep_keep ..) _; on_goal 2 => decide)
    | (with_reducible apply Keep.step _ (stewardRestarts_keep ..) _; on_goal 2 => decide)
    | (with_reducible apply Keep.step _ (tallyWrite_keep ..) _; on_goal 2 => decide)
    | (with_reducible apply WRes.Keep.step _ (setEncoding_keep ..) _; on_goal 2 => decide)
    | (with_reducible apply WRes.Keep.step _ (stageBlob_keep ..) _; on_goal 2 => decide)
    | (with_reducible apply Keep.step _ (set_keep ..) _; on_goal 2 => decide)
    | (with_reducible apply Keep.step _ (prbsClear_keep ..) _; on_goal 2 => decide)
    | (with_reducible apply WRes.Keep.step _ (testStart_keep ..) _; on_goal 2 => decide)
    | (with_reducible apply Keep.step _ (spAdminWrite_keep ..) _; on_goal 2 => decide)
    | (with_reducible apply WRes.Keep.step _ (installKek_keep ..) _; on_goal 2 => decide)
    | (with_reducible apply WRes.Keep.step _ (freqWrite_keep ..) _; on_goal 2 => decide)
    | (with_reducible apply WRes.Keep.step _ (forgetKi_keep ..) _; on_goal 2 => decide)
    | (with_reducible apply Keep.step _ (spareRate_keep ..) _; on_goal 2 => decide)
    | (with_reducible apply Keep.step _ (setFull_keep ..) _; on_goal 2 => decide)
    | (with_reducible apply Keep.step _ (afterSet_keep ..) _; on_goal 2 => decide)
    | (with_reducible apply WRes.Keep.step _ (retireClear_keep ..) _; on_goal 2 => decide)
    | with_reducible apply WRes.Keep.abort
    | with_reducible apply WRes.Keep.okI
    | with_reducible apply WRes.Keep.later
    | (with_reducible apply Keep.ledU; on_goal 2 => (generalize Wall.led _ = z; revert z; refine id ?_; intro z; refine LedgerSt.Keep.mk .refl .refl .refl .refl (.free (by decide)) (.free (by decide)) .refl (.free (by decide)) .refl (.free (by decide)) .refl .refl .refl .refl .refl .refl .refl (fun ⟨k0, k1, k2, k3, k4, k5⟩ => ?_); constructor <;> dsimp only))
    | (with_reducible apply Keep.ite <;> intro _)
    | (with_reducible apply WRes.Keep.ite <;> intro _)
    | split

theorem imageSegment_keep (k : ℕ) (l : List Byte) (w : Wall) :
    Keep 0x4000000000000000000000000000000 w (imageSegment k l w) := by
  unfold imageSegment
  try dsimp only
  repeat' first
    | with_reducible apply Keep.refl
    | with_reducible assumption
    | (with_reducible apply Keep.graU; on_goal 2 => (generalize Wall.gra _ = z; revert z; refine id ?_; intro z; refine GranarySt.Keep.mk .refl .refl .refl .refl .refl .refl .refl .refl .refl .refl .refl (.free (by decide)) .refl .refl .refl .refl .refl .refl .refl .refl .refl (fun ⟨k0, k1, k2, k3, k4, k5, k6, k7, k8⟩ => ?_); constructor <;> dsimp only))
    | with_reducible apply twf_tput

theorem imageLast_keep (k : ℕ) (l : List Byte) (w : Wall) :
    WRes.Keep 0x4000000000000000000020000000000 w (imageLast k l w) := by
  unfold imageLast
  try dsimp only
  repeat' first
    | with_reducible apply Keep.refl
    | with_reducible assumption
    | (with_reducible apply Keep.step _ (newDom_keep ..) _; on_goal 2 => decide)
    | with_reducible apply WRes.Keep.abort
    | with_reducible apply WRes.Keep.okI
    | (with_reducible apply Keep.graU; on_goal 2 => (generalize Wall.gra _ = z; revert z; refine id ?_; intro z; refine GranarySt.Keep.mk .refl .refl .refl .refl .refl .refl .refl .refl .refl .refl .refl (.free (by decide)) .refl .refl .refl .refl .refl .refl .refl .refl .refl (fun ⟨k0, k1, k2, k3, k4, k5, k6, k7, k8⟩ => ?_); constructor <;> dsimp only))
    | with_reducible apply twf_tput
    | (with_reducible apply WRes.Keep.ite <;> intro _)

theorem effectDom_keep (id : ℕ) (u : ℕ) (key : ℕ) (l : List Byte) (w : Wall) :
    WRes.Keep 0x400000000006c000000060000000001 w (effectDom id u key l w) := by
  unfold effectDom
  try dsimp only
  repeat' first
    | with_reducible apply Keep.refl
    | with_reducible assumption
    | (with_reducible apply WRes.Keep.step _ (imageLast_keep ..) _; on_goal 2 => decide)
    | (with_reducible apply Keep.step _ (newDom_keep ..) _; on_goal 2 => decide)
    | (with_reducible apply Keep.step _ (putPolicer_keep ..) _; on_goal 2 => decide)
    | (with_reducible apply Keep.step _ (set_keep ..) _; on_goal 2 => decide)
    | (with_reducible apply Keep.step _ (putDom_keep ..) _; on_goal 2 => decide)
    | (with_reducible apply Keep.step _ (setIndEntry_keep ..) _; on_goal 2 => decide)
    | (with_reducible apply Keep.step _ (putEntry_keep ..) _; on_goal 2 => decide)
    | with_reducible apply WRes.Keep.abort
    | with_reducible apply WRes.Keep.okI
    | (with_reducible apply Keep.foldl; on_goal 2 => intro _ _ _)
    | (with_reducible apply Keep.ite <;> intro _)
    | (with_reducible apply WRes.Keep.ite <;> intro _)

theorem restoreObj_keep (role : Role) (row : ObjRow) (i : ℕ) (s : ℕ) (u : ℕ) (k : ℕ) (l : List Byte) (w : Wall) :
    Keep 0x33c6df004b002edfe23ee33eee02f0804000083 w (restoreObj role row i s u k l w) := by
  unfold restoreObj
  try dsimp only
  repeat' first
    | with_reducible apply Keep.refl
    | (with_reducible apply Keep.step _ (WRes.Keep.of_ok (effectDom_keep ..) ‹_›) _; on_goal 2 => decide)
    | (with_reducible apply Keep.step _ (WRes.Keep.of_ok (effect_keep ..) ‹_›) _; on_goal 2 => decide)
    | (with_reducible apply Keep.ite <;> intro _)
    | split

theorem storeOne_keep (kind : StoreKind) (role : Role) (e : ObjRow × ℕ × ℕ × ℕ × ℕ) (x : Wall × List ℕ) :
    Keep 0x33c6df004b002edfe23ee33eee02f0804000083 x.1 (storeOne kind role e x).1 := by
  unfold storeOne
  try dsimp only
  repeat' first
    | with_reducible apply Keep.refl
    | (with_reducible apply Keep.step _ (restoreObj_keep ..) _; on_goal 2 => decide)
    | (with_reducible apply Keep.step _ (askLedger_keep ..) _; on_goal 2 => decide)
    | (with_reducible apply Keep.step _ (askTomb_keep ..) _; on_goal 2 => decide)
    | split

theorem storeBegin_keep (kind : StoreKind) (gens : List ℕ) (w : Wall) :
    Keep 0x8000000000 w (storeBegin kind gens w) := by
  unfold storeBegin
  try dsimp only
  repeat' first
    | with_reducible apply Keep.refl
    | with_reducible assumption
    | (with_reducible apply Keep.ledU; on_goal 2 => (generalize Wall.led _ = z; revert z; refine id ?_; intro z; refine LedgerSt.Keep.mk .refl .refl .refl (.free (by decide)) .refl .refl .refl .refl .refl .refl .refl .refl .refl .refl .refl .refl .refl (fun ⟨k0, k1, k2, k3, k4, k5⟩ => ?_); constructor <;> dsimp only))

theorem storeFold_keep {M : Nat} (kind : StoreKind) (role : Role) (hm : M ||| 0x33c6df004b002edfe23ee33eee02f0804000083 = M) :
    ∀ (l : List (ObjRow × Nat × Nat × Nat × Nat)) (x : Wall × List Nat),
      Keep M x.1 (l.foldl (fun x e => storeOne kind role e x) x).1
  | [], _ => .refl
  | e :: l, x => Keep.trans (Keep.mono (storeOne_keep kind role e x) hm) (storeFold_keep kind role hm l (storeOne kind role e x))

theorem storeStart_keep (kind : StoreKind) (r : LReq) (v : Nat) (w : Wall) : WRes.Keep 0x33c6df004b002edfe23ee33eee02f8804000083 w (storeStart kind r v w) := by
  unfold storeStart
  refine WRes.Keep.ite (fun _ => .abort) (fun _ => WRes.Keep.ite (fun _ => .abort) (fun _ => WRes.Keep.ite (fun _ => .abort) (fun _ => ?_)))
  refine WRes.Keep.later ?_
  refine Keep.step ?_ (storeBegin_keep ..) (by decide)
  refine Keep.trans (y := _) ?_ (storeFold_keep kind r.role (by decide) _ _)
  exact Keep.step (Keep.step .refl (set_keep ..) (by decide)) (set_keep ..) (by decide)

theorem storeForget_keep (w : Wall) :
    Keep 0x8000000000 w (storeForget w) := by
  unfold storeForget
  try dsimp only
  repeat' first
    | with_reducible apply Keep.refl
    | with_reducible assumption
    | (with_reducible apply Keep.ledU; on_goal 2 => (generalize Wall.led _ = z; revert z; refine id ?_; intro z; refine LedgerSt.Keep.mk .refl .refl .refl (.free (by decide)) .refl .refl .refl .refl .refl .refl .refl .refl .refl .refl .refl .refl .refl (fun ⟨k0, k1, k2, k3, k4, k5⟩ => ?_); constructor <;> dsimp only))

theorem storeCommitsForget_keep (w : Wall) :
    Keep 0x400000000000000000000000000000 w (storeCommitsForget w) := by
  unfold storeCommitsForget
  try dsimp only
  repeat' first
    | with_reducible apply Keep.refl
    | with_reducible assumption
    | (with_reducible apply Keep.graU; on_goal 2 => (generalize Wall.gra _ = z; revert z; refine id ?_; intro z; refine GranarySt.Keep.mk .refl .refl .refl .refl .refl .refl .refl (.free (by decide)) .refl .refl .refl .refl .refl .refl .refl .refl .refl .refl .refl .refl .refl (fun ⟨k0, k1, k2, k3, k4, k5, k6, k7, k8⟩ => ?_); constructor <;> dsimp only))

theorem storeClose_keep (state : ℕ) (result : ℕ) (w : Wall) :
    Keep 0x20000200040000000000000000009c000000003 w (storeClose state result w) := by
  unfold storeClose
  try dsimp only
  repeat' first
    | with_reducible apply Keep.refl
    | (with_reducible apply Keep.step _ (storeForget_keep ..) _; on_goal 2 => decide)
    | (with_reducible apply Keep.step _ (set_keep ..) _; on_goal 2 => decide)
    | (with_reducible apply Keep.step _ (releaseDeferred_keep ..) _; on_goal 2 => decide)
    | (with_reducible apply Keep.step _ (storeCommitsForget_keep ..) _; on_goal 2 => decide)

theorem storeComplete_keep (w : Wall) :
    Keep 0x20000200040000000000000000009c000000003 w (storeComplete w) := by
  unfold storeComplete
  try dsimp only
  repeat' first
    | with_reducible apply Keep.refl
    | (with_reducible apply Keep.step _ (storeClose_keep ..) _; on_goal 2 => decide)
    | (with_reducible apply Keep.ite <;> intro _)
    | split

end Sys2Proof.Machine
end

