-- ==== Sys2Proof/Laws/KeepLedgerOps.lean ====
section
/-! SUPPORT. What each operation of Machine/LedgerOps.lean may change. -/

set_option linter.unusedTactic false
set_option linter.unreachableTactic false

open Sys2Proof

namespace Sys2Proof.Machine

theorem queueLevel_keep (w : Wall) :
    Keep 0x42000000000000000000000000000000001 w (queueLevel w) := by
  unfold queueLevel
  try dsimp only
  repeat' first
    | with_reducible apply Keep.refl
    | (with_reducible apply Keep.step _ (level_keep ..) _; on_goal 2 => decide)

theorem arrive_keep (r : LReq) (w : Wall) :
    Keep 0x200042000000000000000000000091000000003 w (arrive r w) := by
  unfold arrive
  try dsimp only
  repeat' first
    | with_reducible apply Keep.refl
    | with_reducible assumption
    | (with_reducible apply Keep.step _ (respond_keep ..) _; on_goal 2 => decide)
    | (with_reducible apply Keep.step _ (queueLevel_keep ..) _; on_goal 2 => decide)
    | (with_reducible apply Keep.ledU; on_goal 2 => (refine LedgerSt.Keep.mk (.free (by decide)) .refl .refl .refl (.free (by decide)) .refl .refl (.free (by decide)) .refl .refl .refl .refl .refl .refl .refl .refl .refl (fun ⟨k0, k1, k2, k3, k4, k5⟩ => ?_); constructor <;> dsimp only))
    | (simp only [List.length_append, List.length_singleton]; omega)
    | (with_reducible apply Keep.ite <;> intro _)

theorem mbxGo_keep (op : ℕ) (last : Bool) (w : Wall) :
    Keep 0x200042000000000000000000000091000000003 w (mbxGo op last w) := by
  unfold mbxGo
  try dsimp only
  repeat' first
    | with_reducible apply Keep.refl
    | (with_reducible apply Keep.step _ (respond_keep ..) _; on_goal 2 => decide)
    | (with_reducible apply Keep.step _ (arrive_keep ..) _; on_goal 2 => decide)
    | (with_reducible apply Keep.step _ (latch_keep ..) _; on_goal 2 => decide)
    | (with_reducible apply Keep.step _ (setWin_keep ..) _; on_goal 2 => decide)
    | (with_reducible apply Keep.ite <;> intro _)
    | split

theorem noteService_keep (r : LReq) (id : ℕ) (data : List Byte) (w : Wall) :
    Keep 0x480000000000 w (noteService r id data w) := by
  unfold noteService
  try dsimp only
  repeat' first
    | with_reducible apply Keep.refl
    | with_reducible assumption
    | (with_reducible apply Keep.step _ (setIndicator_keep ..) _; on_goal 2 => decide)
    | (with_reducible apply Keep.when; on_goal 2 => intro _ _)

theorem afterResponse_keep (id : ℕ) (w : Wall) :
    Keep 0x602000000000000000000000000000000001 w (afterResponse id w) := by
  unfold afterResponse
  try dsimp only
  repeat' first
    | with_reducible apply Keep.refl
    | with_reducible assumption
    | (with_reducible apply Keep.step _ (fieldRestart_keep ..) _; on_goal 2 => decide)
    | (with_reducible apply Keep.when; on_goal 2 => intro _ _)

theorem modeRequest_keep (r : LReq) (v : ℕ) (m : Mode) (w : Wall) :
    Keep 0x200002000000000000000000000890000000003 w (modeRequest r v m w) := by
  unfold modeRequest
  try dsimp only
  repeat' first
    | with_reducible apply Keep.refl
    | with_reducible assumption
    | (with_reducible apply Keep.step _ (respond_keep ..) _; on_goal 2 => decide)
    | (with_reducible apply Keep.ledU; on_goal 2 => (generalize Wall.led _ = z; revert z; refine id ?_; intro z; refine LedgerSt.Keep.mk .refl .refl .refl .refl (.free (by decide)) .refl .refl (.free (by decide)) .refl .refl .refl (.free (by decide)) .refl .refl .refl .refl .refl (fun ⟨k0, k1, k2, k3, k4, k5⟩ => ?_); constructor <;> dsimp only))
    | (with_reducible apply Keep.ite <;> intro _)

theorem writeResult_keep (arg : ℕ) (m : Mode) (r : LReq) (row : ObjRow) (u : ℕ) (k : ℕ) (data : List Byte) (w : Wall) :
    WRes.Keep 0x33c6df004f626edfe23ee33eee0af8804000083 w (writeResult arg m r row u k data w) := by
  unfold writeResult
  try dsimp only
  repeat' first
    | with_reducible apply Keep.refl
    | (with_reducible apply Keep.step _ (zeroiseEngines_keep ..) _; on_goal 2 => decide)
    | (with_reducible apply Keep.step _ (respond_keep ..) _; on_goal 2 => decide)
    | (with_reducible apply Keep.step _ (modeRequest_keep ..) _; on_goal 2 => decide)
    | (with_reducible apply WRes.Keep.step _ (storeStart_keep ..) _; on_goal 2 => decide)
    | (with_reducible apply WRes.Keep.step _ (effect_keep ..) _; on_goal 2 => decide)
    | with_reducible apply WRes.Keep.abort
    | with_reducible apply WRes.Keep.held
    | (with_reducible apply WRes.Keep.ite <;> intro _)
    | split

theorem writeHead_keep (arg : ℕ) (m : Mode) (r : LReq) (data : List Byte) (w : Wall) :
    Keep 0x33c6df004f626edfe23ee33eee0efc804000083 w (writeHead arg m r data w) := by
  unfold writeHead
  try dsimp only
  repeat' first
    | with_reducible apply Keep.refl
    | (with_reducible apply Keep.step _ (afterResponse_keep ..) _; on_goal 2 => decide)
    | (with_reducible apply Keep.step _ (noteService_keep ..) _; on_goal 2 => decide)
    | (with_reducible apply Keep.step _ (respond_keep ..) _; on_goal 2 => decide)
    | (with_reducible apply Keep.step _ (deferResponse_keep ..) _; on_goal 2 => decide)
    | (with_reducible apply Keep.step _ (latch_keep ..) _; on_goal 2 => decide)
    | (with_reducible apply Keep.step _ (WRes.Keep.of_ok (writeResult_keep ..) ‹_›) _; on_goal 2 => decide)
    | (with_reducible apply Keep.step _ (WRes.Keep.of_later (writeResult_keep ..) ‹_›) _; on_goal 2 => decide)
    | (with_reducible apply Keep.step _ (WRes.Keep.of_held (writeResult_keep ..) ‹_›) _; on_goal 2 => decide)
    | (with_reducible apply Keep.ite <;> intro _)
    | split

theorem segWriteHead_keep (m : Mode) (r : LReq) (offset : ℕ) (last : Bool) (data : List Byte) (w : Wall) :
    Keep 0x20000200400000000006c0000004f0000000003 w (segWriteHead m r offset last data w) := by
  unfold segWriteHead
  try dsimp only
  repeat' first
    | with_reducible apply Keep.refl
    | with_reducible assumption
    | (with_reducible apply Keep.step _ (noteService_keep ..) _; on_goal 2 => decide)
    | (with_reducible apply Keep.step _ (respondG_keep ..) _; on_goal 2 => decide)
    | (with_reducible apply Keep.step _ (imageSegment_keep ..) _; on_goal 2 => decide)
    | (with_reducible apply Keep.step _ (WRes.Keep.of_ok (effectDom_keep ..) ‹_›) _; on_goal 2 => decide)
    | (with_reducible apply Keep.when; on_goal 2 => intro _ _)
    | (with_reducible apply Keep.ledU; on_goal 2 => (generalize Wall.led _ = z; revert z; refine id ?_; intro z; refine LedgerSt.Keep.mk .refl .refl .refl .refl (.free (by decide)) (.free (by decide)) (.free (by decide)) (.free (by decide)) .refl .refl (.free (by decide)) .refl .refl .refl .refl .refl .refl (fun ⟨k0, k1, k2, k3, k4, k5⟩ => ?_); constructor <;> dsimp only))
    | with_reducible apply twf_tput
    | with_reducible apply twf_tdel
    | (with_reducible apply Keep.ite <;> intro _)
    | split

theorem serveHead_keep (arg : ℕ) (m : Mode) (w : Wall) :
    Keep 0x33cedf004f626edfe23ee33eee0efd804000283 w (serveHead arg m w) := by
  unfold serveHead
  try dsimp only
  repeat' first
    | with_reducible apply Keep.refl
    | with_reducible assumption
    | (with_reducible apply Keep.step _ (segWriteHead_keep ..) _; on_goal 2 => decide)
    | (with_reducible apply Keep.step _ (respondG_keep ..) _; on_goal 2 => decide)
    | (with_reducible apply Keep.step _ (respond_keep ..) _; on_goal 2 => decide)
    | (with_reducible apply Keep.step _ (queueLevel_keep ..) _; on_goal 2 => decide)
    | (with_reducible apply Keep.step _ (readObj_keep ..) _; on_goal 2 => decide)
    | (with_reducible apply Keep.step _ (writeHead_keep ..) _; on_goal 2 => decide)
    | (with_reducible apply Keep.ledU; on_goal 2 => (refine LedgerSt.Keep.mk (.free (by decide)) .refl (.free (by decide)) (.free (by decide)) (.free (by decide)) (.free (by decide)) (.free (by decide)) (.free (by decide)) .refl (.free (by decide)) (.free (by decide)) (.free (by decide)) .refl .refl .refl .refl .refl (fun ⟨k0, k1, k2, k3, k4, k5⟩ => ?_); constructor <;> dsimp only))
    | (have k := (by assumption : w.led.queue.length ≤ 16); rw [(by assumption : w.led.queue = _ :: _), List.length_cons] at k; omega)
    | split

theorem serveIf_keep (p : LReq → Bool) (arg : ℕ) (m : Mode) (w : Wall) :
    Keep 0x33cedf004f626edfe23ee33eee0efd804000283 w (serveIf p arg m w) := by
  unfold serveIf
  try dsimp only
  repeat' first
    | with_reducible apply Keep.refl
    | (with_reducible apply Keep.step _ (serveHead_keep ..) _; on_goal 2 => decide)
    | (with_reducible apply Keep.ite <;> intro _)
    | split

theorem serveOwn_keep (o : Own) (m : Mode) (w : Wall) :
    Keep 0x33cedf004f626edfe23ee33eee0efd804000283 w (serveOwn o m w) := by
  unfold serveOwn
  try dsimp only
  repeat' first
    | with_reducible apply Keep.refl
    | (with_reducible apply Keep.step _ (serveIf_keep ..) _; on_goal 2 => decide)

theorem transferTimeout_keep (index : ℕ) (sub : ℕ) (w : Wall) :
    Keep 0x10000000000 w (transferTimeout index sub w) := by
  unfold transferTimeout
  try dsimp only
  repeat' first
    | with_reducible apply Keep.refl
    | with_reducible assumption
    | (with_reducible apply Keep.ledU; on_goal 2 => (generalize Wall.led _ = z; revert z; refine id ?_; intro z; refine LedgerSt.Keep.mk .refl .refl .refl .refl (.free (by decide)) .refl .refl .refl .refl .refl .refl .refl .refl .refl .refl .refl .refl (fun ⟨k0, k1, k2, k3, k4, k5⟩ => ?_); constructor <;> dsimp only))
    | with_reducible apply twf_tdel

theorem settle_keep (w : Wall) :
    Keep 0x200002000400020000000000000094000000003 w (settle w) := by
  unfold settle
  try dsimp only
  repeat' first
    | with_reducible apply Keep.refl
    | with_reducible assumption
    | (with_reducible apply Keep.step _ (showSa_keep ..) _; on_goal 2 => decide)
    | (with_reducible apply Keep.step _ (finishInstall_keep ..) _; on_goal 2 => decide)
    | (with_reducible apply Keep.step _ (releaseDeferred_keep ..) _; on_goal 2 => decide)
    | (with_reducible apply Keep.step _ (set_keep ..) _; on_goal 2 => decide)
    | (with_reducible apply Keep.step _ (putSa_keep ..) _; on_goal 2 => decide)
    | (with_reducible apply Keep.foldl; on_goal 2 => intro _ _ _)
    | (with_reducible apply Keep.graU; on_goal 2 => (generalize Wall.gra _ = z; revert z; refine id ?_; intro z; refine GranarySt.Keep.mk .refl .refl .refl .refl .refl .refl .refl (.free (by decide)) .refl .refl .refl .refl .refl .refl .refl .refl .refl .refl .refl .refl .refl (fun ⟨k0, k1, k2, k3, k4, k5, k6, k7, k8⟩ => ?_); constructor <;> dsimp only))
    | (with_reducible apply Keep.secU; on_goal 2 => (generalize Wall.sec _ = z; revert z; refine id ?_; intro z; refine SecSt.Keep.mk (.free (by decide)) .refl .refl .refl .refl .refl .refl .refl .refl .refl (fun ⟨k0, k1, k2, k3, k4⟩ => ?_); constructor <;> dsimp only))
    | with_reducible apply twf_tdel
    | (with_reducible apply Keep.ite <;> intro _)
    | split

end Sys2Proof.Machine
end

