-- ==== Sys2Proof/Laws/KeepWindows.lean ====
section
/-! SUPPORT. What each operation of Machine/Windows.lean may change. -/

set_option linter.unusedTactic false
set_option linter.unreachableTactic false

open Sys2Proof

namespace Sys2Proof.Machine

theorem spoilMbx_keep (w : Wall) :
    Keep 0x100000000000000000000000000001000000000 w (spoilMbx w) := by
  unfold spoilMbx
  try dsimp only
  repeat' first
    | with_reducible apply Keep.refl
    | with_reducible assumption
    | (with_reducible apply Keep.step _ (took_keep ..) _; on_goal 2 => decide)
    | (with_reducible apply Keep.ledU; on_goal 2 => (generalize Wall.led _ = z; revert z; refine id ?_; intro z; refine LedgerSt.Keep.mk (.free (by decide)) .refl .refl .refl .refl .refl .refl .refl .refl .refl .refl .refl .refl .refl .refl .refl .refl (fun ⟨k0, k1, k2, k3, k4, k5⟩ => ?_); constructor <;> dsimp only))
    | (rw [List.length_map]; assumption)

theorem mbxWord_keep (o : ℕ) (v : ℕ) (w : Wall) :
    Keep 0x300042000000000000000000000091000000003 w (mbxWord o v w) := by
  unfold mbxWord
  try dsimp only
  repeat' first
    | with_reducible apply Keep.refl
    | with_reducible assumption
    | (with_reducible apply Keep.step _ (mbxGo_keep ..) _; on_goal 2 => decide)
    | (with_reducible apply Keep.step _ (setWin_keep ..) _; on_goal 2 => decide)
    | (with_reducible apply Keep.step _ (spoilMbx_keep ..) _; on_goal 2 => decide)
    | (with_reducible apply Keep.when; on_goal 2 => intro _ _)
    | (with_reducible apply Keep.ite <;> intro _)

theorem dbAck_keep (v : ℕ) (w : Wall) :
    Keep 0x2 w (dbAck v w) := by
  unfold dbAck
  try dsimp only
  repeat' first
    | with_reducible apply Keep.refl
    | (with_reducible apply Keep.step _ (setWin64_keep ..) _; on_goal 2 => decide)

theorem dayWord_keep (o : ℕ) (v : ℕ) (w : Wall) :
    Keep 0x2 w (dayWord o v w) := by
  unfold dayWord
  try dsimp only
  repeat' first
    | with_reducible apply Keep.refl
    | (with_reducible apply Keep.step _ (setWin_keep ..) _; on_goal 2 => decide)
    | (with_reducible apply Keep.step _ (dbAck_keep ..) _; on_goal 2 => decide)
    | (with_reducible apply Keep.ite <;> intro _)

theorem ringCtrlAny_keep (k : ℕ) (v : ℕ) (w : Wall) :
    Keep 0x3000000000000000000000000000000003 w (ringCtrlAny k v w) := by
  unfold ringCtrlAny
  try dsimp only
  repeat' first
    | with_reducible apply Keep.refl
    | (with_reducible apply Keep.step _ (ringEnable_keep ..) _; on_goal 2 => decide)
    | (with_reducible apply Keep.step _ (ringCtrlWrite_keep ..) _; on_goal 2 => decide)
    | (with_reducible apply Keep.step _ (ringDisable_keep ..) _; on_goal 2 => decide)
    | (with_reducible apply Keep.ite <;> intro _)

theorem ringWord_keep (k : ℕ) (o : ℕ) (v : ℕ) (w : Wall) :
    Keep 0x20000b000000001000000000000000004000003 w (ringWord k o v w) := by
  unfold ringWord
  try dsimp only
  repeat' first
    | with_reducible apply Keep.refl
    | (with_reducible apply Keep.step _ (setCfgRefused_keep ..) _; on_goal 2 => decide)
    | (with_reducible apply Keep.step _ (ringCtrlAny_keep ..) _; on_goal 2 => decide)
    | (with_reducible apply Keep.step _ (ringDoorbell_keep ..) _; on_goal 2 => decide)
    | (with_reducible apply Keep.step _ (setWin_keep ..) _; on_goal 2 => decide)
    | (with_reducible apply Keep.ite <;> intro _)

theorem sieveCmdWord_keep (b : ℕ) (v : ℕ) (w : Wall) :
    Keep 0xc000000020000000002 w (sieveCmdWord b v w) := by
  unfold sieveCmdWord
  try dsimp only
  repeat' first
    | with_reducible apply Keep.refl
    | (with_reducible apply Keep.step _ (sieveReadActive_keep ..) _; on_goal 2 => decide)
    | (with_reducible apply Keep.step _ (sieveReadShadow_keep ..) _; on_goal 2 => decide)
    | (with_reducible apply Keep.step _ (sieveInvalidateShadow_keep ..) _; on_goal 2 => decide)
    | (with_reducible apply Keep.step _ (sieveInvalidateBoth_keep ..) _; on_goal 2 => decide)
    | (with_reducible apply Keep.step _ (sieveWriteShadow_keep ..) _; on_goal 2 => decide)
    | (with_reducible apply Keep.step _ (sieveWriteBoth_keep ..) _; on_goal 2 => decide)
    | split

theorem counterWord_keep (b : ℕ) (k : ℕ) (o : ℕ) (v : ℕ) (w : Wall) :
    Keep 0x1 w (counterWord b k o v w) := by
  unfold counterWord
  try dsimp only
  repeat' first
    | with_reducible apply Keep.refl
    | (with_reducible apply Keep.step _ (badWindow_keep ..) _; on_goal 2 => decide)
    | (with_reducible apply Keep.step _ (set_keep ..) _; on_goal 2 => decide)
    | (with_reducible apply Keep.step _ (clrBitR_keep ..) _; on_goal 2 => decide)
    | (with_reducible apply Keep.ite <;> intro _)

theorem brickWord_keep (b : ℕ) (o : ℕ) (v : ℕ) (w : Wall) :
    Keep 0x207c000000020000000003 w (brickWord b o v w) := by
  unfold brickWord
  try dsimp only
  repeat' first
    | with_reducible apply Keep.refl
    | (with_reducible apply Keep.step _ (policerApply_keep ..) _; on_goal 2 => decide)
    | (with_reducible apply Keep.step _ (sieveCmdWord_keep ..) _; on_goal 2 => decide)
    | (with_reducible apply Keep.step _ (counterWord_keep ..) _; on_goal 2 => decide)
    | (with_reducible apply Keep.step _ (hitClear_keep ..) _; on_goal 2 => decide)
    | (with_reducible apply Keep.step _ (newDom_keep ..) _; on_goal 2 => decide)
    | (with_reducible apply Keep.step _ (setIndEntry_keep ..) _; on_goal 2 => decide)
    | (with_reducible apply Keep.step _ (setWin_keep ..) _; on_goal 2 => decide)
    | (with_reducible apply Keep.step _ (swapWindow_keep ..) _; on_goal 2 => decide)
    | (with_reducible apply Keep.ite <;> intro _)

theorem pendingWord_keep (sp : ℕ) (o : ℕ) (v : ℕ) (w : Wall) :
    Keep 0x60000000001 w (pendingWord sp o v w) := by
  unfold pendingWord
  try dsimp only
  repeat' first
    | with_reducible apply Keep.refl
    | (with_reducible apply Keep.step _ (putDom_keep ..) _; on_goal 2 => decide)
    | (with_reducible apply Keep.step _ (badWindow_keep ..) _; on_goal 2 => decide)
    | (with_reducible apply Keep.step _ (set_keep ..) _; on_goal 2 => decide)
    | (with_reducible apply Keep.ite <;> intro _)

theorem portWord_keep (p : ℕ) (o : ℕ) (v : ℕ) (w : Wall) :
    Keep 0xa0000000000060000000003 w (portWord p o v w) := by
  unfold portWord
  try dsimp only
  repeat' first
    | with_reducible apply Keep.refl
    | (with_reducible apply Keep.step _ (shaperApplyWin_keep ..) _; on_goal 2 => decide)
    | (with_reducible apply Keep.step _ (setWin_keep ..) _; on_goal 2 => decide)
    | (with_reducible apply Keep.step _ (pendingWord_keep ..) _; on_goal 2 => decide)
    | (with_reducible apply Keep.step _ (queueDropsClear_keep ..) _; on_goal 2 => decide)
    | (with_reducible apply Keep.ite <;> intro _)

theorem windowWord_keep (o : ℕ) (v : ℕ) (w : Wall) :
    Keep 0x30004b0000000010a207c0000000f1004000003 w (windowWord o v w) := by
  unfold windowWord
  try dsimp only
  repeat' first
    | with_reducible apply Keep.refl
    | (with_reducible apply Keep.step _ (hostClear_keep ..) _; on_goal 2 => decide)
    | (with_reducible apply Keep.step _ (badWindow_keep ..) _; on_goal 2 => decide)
    | (with_reducible apply Keep.step _ (dayWord_keep ..) _; on_goal 2 => decide)
    | (with_reducible apply Keep.step _ (mbxWord_keep ..) _; on_goal 2 => decide)
    | (with_reducible apply Keep.step _ (ringWord_keep ..) _; on_goal 2 => decide)
    | (with_reducible apply Keep.step _ (brickWord_keep ..) _; on_goal 2 => decide)
    | (with_reducible apply Keep.step _ (hostEnable_keep ..) _; on_goal 2 => decide)
    | (with_reducible apply Keep.step _ (portWord_keep ..) _; on_goal 2 => decide)
    | (with_reducible apply Keep.ite <;> intro _)

theorem windowWrite_keep (o : ℕ) (size : ℕ) (v : ℕ) (w : Wall) :
    Keep 0x30004b0000000010a207c0000000f1004000003 w (windowWrite o size v w) := by
  unfold windowWrite
  try dsimp only
  repeat' first
    | with_reducible apply Keep.refl
    | (with_reducible apply Keep.step _ (badWindow_keep ..) _; on_goal 2 => decide)
    | (with_reducible apply Keep.step _ (dbAck_keep ..) _; on_goal 2 => decide)
    | (with_reducible apply Keep.step _ (windowWord_keep ..) _; on_goal 2 => decide)
    | (with_reducible apply Keep.ite <;> intro _)

theorem targetWrite_keep (o : ℕ) (size : ℕ) (v : ℕ) (m : Mode) (w : Wall) :
    Keep 0x30004b0000000010a207c0000000f1004000003 w (targetWrite o size v m w) := by
  unfold targetWrite
  try dsimp only
  repeat' first
    | with_reducible apply Keep.refl
    | (with_reducible apply Keep.step _ (accessError_keep ..) _; on_goal 2 => decide)
    | (with_reducible apply Keep.step _ (windowWrite_keep ..) _; on_goal 2 => decide)
    | (with_reducible apply Keep.ite <;> intro _)

theorem unmapped_keep (o : ℕ) (m : Mode) (w : Wall) :
    Keep 0x1 w (unmapped o m w) := by
  unfold unmapped
  try dsimp only
  repeat' first
    | with_reducible apply Keep.refl
    | (with_reducible apply Keep.step _ (badWindow_keep ..) _; on_goal 2 => decide)
    | (with_reducible apply Keep.ite <;> intro _)

end Sys2Proof.Machine
end

