-- ==== Sys2Proof/Laws/KeepDvor.lean ====
section
/-! SUPPORT. What each operation of Machine/Dvor.lean may change. -/

set_option linter.unusedTactic false
set_option linter.unreachableTactic false

open Sys2Proof

namespace Sys2Proof.Machine

theorem setDrbg_room {n : Nat} {w : Wall} (h : w.led.handshakes.length < 4) :
    (setDrbg n w).led.handshakes.length < 4 := h

theorem datagram_keep (p : Path) (w : Wall) :
    Keep 0x42000000000000000000000000000000001 w (datagram p w) := by
  unfold datagram
  try dsimp only
  repeat' first
    | with_reducible apply Keep.refl
    | (with_reducible apply Keep.step _ (pulse_keep ..) _; on_goal 2 => decide)

theorem authFail_keep (w : Wall) :
    Keep 0x1 w (authFail w) := by
  unfold authFail
  try dsimp only
  repeat' first
    | with_reducible apply Keep.refl
    | (with_reducible apply Keep.step _ (bump_keep ..) _; on_goal 2 => decide)

theorem fieldOther_keep (p : Path) (w : Wall) :
    Keep 0x1 w (fieldOther p w) := by
  unfold fieldOther
  try dsimp only
  repeat' first
    | with_reducible apply Keep.refl
    | (with_reducible apply Keep.step _ (bump_keep ..) _; on_goal 2 => decide)
    | (with_reducible apply Keep.ite <;> intro _)

theorem limitedReply_keep (p : Path) (o : Out) (w : Wall) :
    Keep 0x200000000000000000000000003000000000001 w (limitedReply p o w) := by
  unfold limitedReply
  try dsimp only
  repeat' first
    | with_reducible apply Keep.refl
    | with_reducible assumption
    | (with_reducible apply Keep.step _ (fieldOther_keep ..) _; on_goal 2 => decide)
    | (with_reducible apply Keep.step _ (emit_keep ..) _; on_goal 2 => decide)
    | (with_reducible apply Keep.ledU; on_goal 2 => (generalize Wall.led _ = z; revert z; refine id ?_; intro z; refine LedgerSt.Keep.mk .refl .refl .refl .refl .refl .refl .refl .refl .refl .refl .refl .refl (.free (by decide)) (.free (by decide)) .refl .refl .refl (fun ⟨k0, k1, k2, k3, k4, k5⟩ => ?_); constructor <;> dsimp only))
    | (with_reducible apply Keep.ite <;> intro _)

theorem icmpv6_keep (p : Path) (echo : Bool) (w : Wall) :
    Keep 0x200042000000000000000000003000000000001 w (icmpv6 p echo w) := by
  unfold icmpv6
  try dsimp only
  repeat' first
    | with_reducible apply Keep.refl
    | (with_reducible apply Keep.step _ (datagram_keep ..) _; on_goal 2 => decide)
    | (with_reducible apply Keep.step _ (limitedReply_keep ..) _; on_goal 2 => decide)
    | (with_reducible apply Keep.ite <;> intro _)

theorem badDatagram_keep (p : Path) (why : BadDatagram) (m : Mode) (w : Wall) :
    Keep 0x42000000000000000000000000000000001 w (badDatagram p why m w) := by
  unfold badDatagram
  try dsimp only
  repeat' first
    | with_reducible apply Keep.refl
    | (with_reducible apply Keep.step _ (datagram_keep ..) _; on_goal 2 => decide)
    | (with_reducible apply Keep.step _ (fieldOther_keep ..) _; on_goal 2 => decide)
    | (with_reducible apply Keep.step _ (authFail_keep ..) _; on_goal 2 => decide)
    | (with_reducible apply Keep.ite <;> intro _)
    | split

theorem setDrbg_keep (n : ℕ) (w : Wall) :
    Keep 0x800000000000000000000000000 w (setDrbg n w) := by
  unfold setDrbg
  try dsimp only
  repeat' first
    | with_reducible apply Keep.refl
    | with_reducible assumption
    | (with_reducible apply Keep.secU; on_goal 2 => (generalize Wall.sec _ = z; revert z; refine id ?_; intro z; refine SecSt.Keep.mk .refl .refl .refl .refl .refl .refl (.free (by decide)) .refl .refl .refl (fun ⟨k0, k1, k2, k3, k4⟩ => ?_); constructor <;> dsimp only))

theorem addHandshake_keep (h : Handshake) (w : Wall) (hl : w.led.handshakes.length < 4) :
    Keep 0x100000000000 w (addHandshake h w) := by
  unfold addHandshake
  try dsimp only
  repeat' first
    | with_reducible apply Keep.refl
    | with_reducible assumption
    | (with_reducible apply Keep.ledU; on_goal 2 => (refine LedgerSt.Keep.mk .refl .refl .refl .refl .refl .refl .refl .refl (.free (by decide)) .refl .refl .refl .refl .refl .refl .refl .refl (fun ⟨k0, k1, k2, k3, k4, k5⟩ => ?_); constructor <;> dsimp only))
    | (simp only [List.length_append, List.length_singleton]; omega)
    | (simp only [List.length_append, List.length_singleton]; omega)

theorem startHandshake_keep (o : DvorOpen) (w : Wall) (hl : w.led.handshakes.length < 4) :
    Keep 0x200000000000800000000000000100000000000 w (startHandshake o w) := by
  unfold startHandshake
  try dsimp only
  repeat' first
    | with_reducible apply Keep.refl
    | (with_reducible apply Keep.step _ (emit_keep ..) _; on_goal 2 => decide)
    | (with_reducible apply Keep.step _ (setDrbg_keep ..) _; on_goal 2 => decide)
    | (with_reducible apply Keep.step _ (addHandshake_keep _ _ (setDrbg_room hl)) _; on_goal 2 => decide)

theorem dvorOpen_keep (o : DvorOpen) (m : Mode) (w : Wall) :
    Keep 0x200042000000800000000000003100000000001 w (dvorOpen o m w) := by
  unfold dvorOpen
  try dsimp only
  repeat' first
    | with_reducible apply Keep.refl
    | (with_reducible apply Keep.step _ (limitedReply_keep ..) _; on_goal 2 => decide)
    | (with_reducible apply Keep.step _ (datagram_keep ..) _; on_goal 2 => decide)
    | (with_reducible apply Keep.step _ (bump_keep ..) _; on_goal 2 => decide)
    | (with_reducible apply Keep.step _ (emit_keep ..) _; on_goal 2 => decide)
    | (with_reducible apply Keep.step _ (authFail_keep ..) _; on_goal 2 => decide)
    | (with_reducible apply Keep.step _ (startHandshake_keep _ _ (Nat.lt_of_not_le ‹_›)) _; on_goal 2 => decide)
    | (with_reducible apply Keep.ite <;> intro _)
    | split

theorem dropHandshake_keep (id : ℕ) (w : Wall) :
    Keep 0x100000000000 w (dropHandshake id w) := by
  unfold dropHandshake
  try dsimp only
  repeat' first
    | with_reducible apply Keep.refl
    | with_reducible assumption
    | (with_reducible apply Keep.ledU; on_goal 2 => (refine LedgerSt.Keep.mk .refl .refl .refl .refl .refl .refl .refl .refl (.free (by decide)) .refl .refl .refl .refl .refl .refl .refl .refl (fun ⟨k0, k1, k2, k3, k4, k5⟩ => ?_); constructor <;> dsimp only))
    | exact (List.length_filter_le ..).trans (by assumption)

theorem enrol_keep (point : ℕ) (w : Wall) :
    Keep 0x200602000b00000000000000000090000000001 w (enrol point w) := by
  unfold enrol
  try dsimp only
  repeat' first
    | with_reducible apply Keep.refl
    | (with_reducible apply Keep.step _ (raise_keep ..) _; on_goal 2 => decide)
    | (with_reducible apply Keep.step _ (commitReg_keep ..) _; on_goal 2 => decide)
    | (with_reducible apply Keep.step _ (askLedger_keep ..) _; on_goal 2 => decide)
    | (with_reducible apply Keep.step _ (set_keep ..) _; on_goal 2 => decide)
    | (with_reducible apply Keep.ite <;> intro _)

theorem resendCached_keep (slot : ℕ) (peer : Peer) (s : Session) (seq : ℕ) (w : Wall) :
    Keep 0x200000000000000000000000000000000000000 w (resendCached slot peer s seq w) := by
  unfold resendCached
  try dsimp only
  repeat' first
    | with_reducible apply Keep.refl
    | (with_reducible apply Keep.step _ (emit_keep ..) _; on_goal 2 => decide)
    | split

theorem establish_keep (slot : ℕ) (h : Handshake) (peer : Peer) (w : Wall) :
    Keep 0x200602000b00000000000000000190000000001 w (establish slot h peer w) := by
  unfold establish
  try dsimp only
  repeat' first
    | with_reducible apply Keep.refl
    | with_reducible assumption
    | (with_reducible apply Keep.step _ (putSession_keep ..) _; on_goal 2 => decide)
    | (with_reducible apply Keep.step _ (sessionRespond_keep ..) _; on_goal 2 => decide)
    | (with_reducible apply Keep.step _ (dropHandshake_keep ..) _; on_goal 2 => decide)
    | (with_reducible apply Keep.step _ (enrol_keep ..) _; on_goal 2 => decide)
    | (with_reducible apply Keep.when; on_goal 2 => intro _ _)

theorem dvorConfirm_keep (peer : Peer) (session : ℕ) (sig : ℕ) (m : Mode) (w : Wall) :
    Keep 0x200642000b00000000000000000190000000001 w (dvorConfirm peer session sig m w) := by
  unfold dvorConfirm
  try dsimp only
  repeat' first
    | with_reducible apply Keep.refl
    | (with_reducible apply Keep.step _ (resendCached_keep ..) _; on_goal 2 => decide)
    | (with_reducible apply Keep.step _ (dropHandshake_keep ..) _; on_goal 2 => decide)
    | (with_reducible apply Keep.step _ (datagram_keep ..) _; on_goal 2 => decide)
    | (with_reducible apply Keep.step _ (authFail_keep ..) _; on_goal 2 => decide)
    | (with_reducible apply Keep.step _ (establish_keep ..) _; on_goal 2 => decide)
    | (with_reducible apply Keep.ite <;> intro _)
    | split

theorem handshakeTimeout_keep (place : ℕ) (w : Wall) :
    Keep 0x100000000000 w (handshakeTimeout place w) := by
  unfold handshakeTimeout
  try dsimp only
  repeat' first
    | with_reducible apply Keep.refl
    | (with_reducible apply Keep.step _ (dropHandshake_keep ..) _; on_goal 2 => decide)
    | split

theorem sessionRequest_keep {M : Nat} {v : Wall} (r : DvorReq) (m : Mode) (f : Session → Wall → Wall) (w : Wall) (h : Keep M v w)
    (hf : ∀ s y, Keep M v y → Keep M v (f s y)) (hm : M ||| 0x200042000000000000000000000090000000001 = M) : Keep M v (sessionRequest r m f w) := by
  unfold sessionRequest
  refine Keep.ite (fun _ => h) (fun _ => ?_)
  split
  · exact h
  · rename_i s _
    dsimp only
    have k : Keep 0x200042000000000000000000000090000000001 w (putSession r.slot (heard r.peer (datagram r.peer.path w) s) (datagram r.peer.path w)) :=
      Keep.step (Keep.step .refl (datagram_keep ..) (by decide)) (putSession_keep ..) (by decide)
    split
    · exact Keep.step h (Keep.step k (resendCached_keep ..) (by decide)) hm
    · exact Keep.step h k hm
    · exact Keep.step h (Keep.step k (bump_keep ..) (by decide)) hm
    · exact Keep.step h (Keep.step k (bump_keep ..) (by decide)) hm
    · exact Keep.step h (Keep.step k (sessionRespond_keep ..) (by decide)) hm
    · exact hf _ _ (Keep.step h k hm)

theorem queueRequest_keep (r : DvorReq) (op : LOp) (s : Session) (w : Wall) :
    Keep 0x200042000000000000000000000091000000003 w (queueRequest r op s w) := by
  unfold queueRequest
  try dsimp only
  repeat' first
    | with_reducible apply Keep.refl
    | (with_reducible apply Keep.step _ (putSession_keep ..) _; on_goal 2 => decide)
    | (with_reducible apply Keep.step _ (arrive_keep ..) _; on_goal 2 => decide)
    | (with_reducible apply Keep.ite <;> intro _)

theorem dvorRequest_keep (r : DvorReq) (op : LOp) (m : Mode) (w : Wall) :
    Keep 0x200042000000000000000000000091000000003 w (dvorRequest r op m w) := by
  unfold dvorRequest
  try dsimp only
  repeat' first
    | with_reducible apply Keep.refl
    | with_reducible assumption
    | (with_reducible apply sessionRequest_keep; (on_goal 3 => decide); (on_goal 2 => (intros; try dsimp only)))
    | (with_reducible apply Keep.step _ (queueRequest_keep ..) _; on_goal 2 => decide)

theorem takeSeq_keep (r : DvorReq) (f : Session → Session) (s : Session) (w : Wall) :
    Keep 0x80000000000 w (takeSeq r f s w) := by
  unfold takeSeq
  try dsimp only
  repeat' first
    | with_reducible apply Keep.refl
    | (with_reducible apply Keep.step _ (putSession_keep ..) _; on_goal 2 => decide)

theorem eventAck_keep (r : DvorReq) (events : List ℕ) (m : Mode) (w : Wall) :
    Keep 0x200042000000000000000000000090000000001 w (eventAck r events m w) := by
  unfold eventAck
  try dsimp only
  repeat' first
    | with_reducible apply Keep.refl
    | with_reducible assumption
    | (with_reducible apply sessionRequest_keep; (on_goal 3 => decide); (on_goal 2 => (intros; try dsimp only)))
    | (with_reducible apply Keep.step _ (takeSeq_keep ..) _; on_goal 2 => decide)

theorem keepalive_keep (r : DvorReq) (m : Mode) (w : Wall) :
    Keep 0x200042000000000000000000000090000000001 w (keepalive r m w) := by
  unfold keepalive
  try dsimp only
  repeat' first
    | with_reducible apply Keep.refl
    | with_reducible assumption
    | (with_reducible apply sessionRequest_keep; (on_goal 3 => decide); (on_goal 2 => (intros; try dsimp only)))
    | (with_reducible apply Keep.step _ (takeSeq_keep ..) _; on_goal 2 => decide)

theorem dvorClose_keep (slot : ℕ) (w : Wall) :
    Keep 0x200000000000000000000000000090000000000 w (dvorClose slot w) := by
  unfold dvorClose
  try dsimp only
  repeat' first
    | with_reducible apply Keep.refl
    | (with_reducible apply Keep.step _ (closeSession_keep ..) _; on_goal 2 => decide)

theorem eventRetransmit_keep (slot : ℕ) (event : ℕ) (w : Wall) :
    Keep 0x200000000000000000000000000080000000000 w (eventRetransmit slot event w) := by
  unfold eventRetransmit
  try dsimp only
  repeat' first
    | with_reducible apply Keep.refl
    | (with_reducible apply Keep.step _ (putSession_keep ..) _; on_goal 2 => decide)
    | (with_reducible apply Keep.step _ (emit_keep ..) _; on_goal 2 => decide)
    | split

theorem sendInband_keep (w : Wall) :
    Keep 0x300003000000005c60000002000000000000003 w (sendInband w) := by
  unfold sendInband
  try dsimp only
  repeat' first
    | with_reducible apply Keep.refl
    | (with_reducible apply Keep.step _ (took_keep ..) _; on_goal 2 => decide)
    | (with_reducible apply Keep.step _ (linkOwned_keep ..) _; on_goal 2 => decide)
    | (with_reducible apply Keep.ite <;> intro _)

theorem inbandTick_keep (w : Wall) :
    Keep 0x300003000000005c60000002010000000000003 w (inbandTick w) := by
  unfold inbandTick
  try dsimp only
  repeat' first
    | with_reducible apply Keep.refl
    | with_reducible assumption
    | (with_reducible apply Keep.step _ (sendInband_keep ..) _; on_goal 2 => decide)
    | (with_reducible apply Keep.foldl; on_goal 2 => intro _ _ _)
    | (with_reducible apply Keep.ledU; on_goal 2 => (generalize Wall.led _ = z; revert z; refine id ?_; intro z; refine LedgerSt.Keep.mk .refl .refl .refl .refl .refl .refl .refl .refl .refl .refl .refl .refl .refl .refl .refl .refl (.free (by decide)) (fun ⟨k0, k1, k2, k3, k4, k5⟩ => ?_); constructor <;> dsimp only))

end Sys2Proof.Machine
end

