-- ==== Sys2Proof/Laws/KeepModes.lean ====
section
/-! SUPPORT. What each operation of Machine/Modes.lean may change. -/

set_option linter.unusedTactic false
set_option linter.unreachableTactic false

open Sys2Proof

namespace Sys2Proof.Machine

theorem noteMove_keep (old : ℕ) (new : ℕ) (cause : ℕ) (w : Wall) :
    Keep 0x602000000000000000000000000000000001 w (noteMove old new cause w) := by
  unfold noteMove
  try dsimp only
  repeat' first
    | with_reducible apply Keep.refl
    | (with_reducible apply Keep.step _ (daybook_keep ..) _; on_goal 2 => decide)
    | (with_reducible apply Keep.step _ (latch_keep ..) _; on_goal 2 => decide)
    | (with_reducible apply Keep.step _ (set_keep ..) _; on_goal 2 => decide)

theorem stopPort_keep (reason : ℕ) (sp : ℕ) (w : Wall) :
    Keep 0x204603000000005f6038031c6a0090000000003 w (stopPort reason sp w) := by
  unfold stopPort
  try dsimp only
  repeat' first
    | with_reducible apply Keep.refl
    | (with_reducible apply Keep.step _ (setSpGroup_keep ..) _; on_goal 2 => decide)
    | (with_reducible apply Keep.step _ (downOff_keep ..) _; on_goal 2 => decide)
    | (with_reducible apply Keep.ite <;> intro _)

theorem stopPorts_keep (reason : ℕ) (w : Wall) :
    Keep 0x204603000000005f6038031c6a0090000000003 w (stopPorts reason w) := by
  unfold stopPorts
  try dsimp only
  repeat' first
    | with_reducible apply Keep.refl
    | with_reducible assumption
    | (with_reducible apply Keep.step _ (stopPort_keep ..) _; on_goal 2 => decide)
    | (with_reducible apply Keep.upTo; on_goal 2 => intro _ _ _)

theorem closeAll_keep (reason : ℕ) (w : Wall) :
    Keep 0x200000000000000000000000000190000000000 w (closeAll reason w) := by
  unfold closeAll
  try dsimp only
  repeat' first
    | with_reducible apply Keep.refl
    | with_reducible assumption
    | (with_reducible apply Keep.step _ (closeSession_keep ..) _; on_goal 2 => decide)
    | (with_reducible apply Keep.upTo; on_goal 2 => intro _ _ _)
    | (with_reducible apply Keep.ledU; on_goal 2 => (generalize Wall.led _ = z; revert z; refine id ?_; intro z; refine LedgerSt.Keep.mk .refl .refl .refl .refl (.free (by decide)) .refl .refl (.free (by decide)) (.free (by decide)) .refl .refl .refl .refl .refl .refl .refl .refl (fun ⟨k0, k1, k2, k3, k4, k5⟩ => ?_); constructor <;> dsimp only))
    | apply Nat.zero_le

theorem stopStewards_keep (w : Wall) :
    Keep 0x1 w (stopStewards w) := by
  unfold stopStewards
  try dsimp only
  repeat' first
    | with_reducible apply Keep.refl
    | with_reducible assumption
    | (with_reducible apply Keep.step _ (set_keep ..) _; on_goal 2 => decide)
    | (with_reducible apply Keep.upTo; on_goal 2 => intro _ _ _)

theorem releaseSteward_keep (n : ℕ) (w : Wall) :
    Keep 0x10000000000000000000000000000000001 w (releaseSteward n w) := by
  unfold releaseSteward
  try dsimp only
  repeat' first
    | with_reducible apply Keep.refl
    | (with_reducible apply Keep.step _ (setSeq_keep ..) _; on_goal 2 => decide)
    | (with_reducible apply Keep.step _ (set_keep ..) _; on_goal 2 => decide)

theorem commitAll_keep (w : Wall) :
    Keep 0x2006023d2ff80000000000000000b0000000001 w (commitAll w) := by
  unfold commitAll
  try dsimp only
  repeat' first
    | with_reducible apply Keep.refl
    | with_reducible assumption
    | (with_reducible apply Keep.step _ (commitOne_keep ..) _; on_goal 2 => decide)
    | (with_reducible apply Keep.upTo; on_goal 2 => intro _ _ _)
    | (with_reducible apply Keep.ite <;> intro _)

theorem askMarks_keep (w : Wall) :
    Keep 0xb00000000000000000000000000001 w (askMarks w) := by
  unfold askMarks
  try dsimp only
  repeat' first
    | with_reducible apply Keep.refl
    | with_reducible assumption
    | (with_reducible apply Keep.step _ (askRecord_keep ..) _; on_goal 2 => decide)
    | (with_reducible apply Keep.step _ (set_keep ..) _; on_goal 2 => decide)
    | (with_reducible apply Keep.foldl; on_goal 2 => intro _ _ _)
    | (with_reducible apply Keep.ite <;> intro _)

theorem freshState_keep (w : Wall) : Keep 0xfffff7e9f877ffffffffffffffffffdc041ff3 w (freshState w) := by
  have htime : TimeSt.Keep 0xfffff7e9f877ffffffffffffffffffdc041ff3 w.time (freshState w).time := by
    refine ⟨.refl, .refl, .free (by decide), .free (by decide), .free (by decide), .free (by decide), .free (by decide), .free (by decide), fun k => ?_⟩
    constructor <;> first | rfl | exact Nat.zero_le _ | exact k.bank0 | exact k.bank1 | exact k.shelf | exact k.digest_le | exact k.waiting | (intro e he; cases he)
  have hbnd : BoundarySt.Keep 0xfffff7e9f877ffffffffffffffffffdc041ff3 w.bnd (freshState w).bnd := by
    refine ⟨.free (by decide), .free (by decide), .free (by decide), .refl, .refl, .refl, .refl, .refl, .free (by decide), .refl, .refl, .refl, .refl, .refl, .refl, .refl, .free (by decide), .free (by decide), .free (by decide), .refl, .free (by decide), .free (by decide), .free (by decide), .free (by decide), .free (by decide), .free (by decide), fun k => ?_⟩
    constructor <;> first | rfl | exact Nat.zero_le _ | exact k.bank0 | exact k.bank1 | exact k.shelf | exact k.digest_le | exact k.waiting | (intro e he; cases he)
  have hled : LedgerSt.Keep 0xfffff7e9f877ffffffffffffffffffdc041ff3 w.led (freshState w).led := by
    refine ⟨.free (by decide), .free (by decide), .free (by decide), .free (by decide), .free (by decide), .free (by decide), .free (by decide), .free (by decide), .free (by decide), .free (by decide), .free (by decide), .free (by decide), .free (by decide), .free (by decide), .free (by decide), .free (by decide), .free (by decide), fun k => ?_⟩
    constructor <;> first | rfl | exact Nat.zero_le _ | exact k.bank0 | exact k.bank1 | exact k.shelf | exact k.digest_le | exact k.waiting | (intro e he; cases he)
  have hlan : LaneSt.Keep 0xfffff7e9f877ffffffffffffffffffdc041ff3 w.lan (freshState w).lan := by
    refine ⟨.free (by decide), .free (by decide), .free (by decide), .free (by decide), .free (by decide), .free (by decide), .free (by decide), .free (by decide), fun k => ?_⟩
    constructor <;> first | rfl | exact Nat.zero_le _ | exact k.bank0 | exact k.bank1 | exact k.shelf | exact k.digest_le | exact k.waiting | (intro e he; cases he)
  have hprt : PortSt.Keep 0xfffff7e9f877ffffffffffffffffffdc041ff3 w.prt (freshState w).prt := by
    refine ⟨.free (by decide), .free (by decide), .free (by decide), .free (by decide), .free (by decide), .free (by decide), .free (by decide), fun k => ?_⟩
    constructor <;> first | rfl | exact Nat.zero_le _ | exact k.bank0 | exact k.bank1 | exact k.shelf | exact k.digest_le | exact k.waiting | (intro e he; cases he)
  have hing : IngressSt.Keep 0xfffff7e9f877ffffffffffffffffffdc041ff3 w.ing (freshState w).ing := by
    refine ⟨.free (by decide), .free (by decide), .free (by decide), .free (by decide), .free (by decide), .free (by decide), .free (by decide), .free (by decide), .free (by decide), .free (by decide), .free (by decide), .free (by decide), .free (by decide), .free (by decide), .free (by decide), .free (by decide), .free (by decide), .free (by decide), .free (by decide), .free (by decide), .free (by decide), fun k => ?_⟩
    constructor <;> first | rfl | exact Nat.zero_le _ | exact k.bank0 | exact k.bank1 | exact k.shelf | exact k.digest_le | exact k.waiting | (intro e he; cases he)
  have hegr : EgressSt.Keep 0xfffff7e9f877ffffffffffffffffffdc041ff3 w.egr (freshState w).egr := by
    refine ⟨.free (by decide), .free (by decide), .free (by decide), .free (by decide), .free (by decide), .free (by decide), .free (by decide), .free (by decide), .free (by decide), .free (by decide), .free (by decide), .free (by decide), fun k => ?_⟩
    constructor <;> first | rfl | exact Nat.zero_le _ | exact k.bank0 | exact k.bank1 | exact k.shelf | exact k.digest_le | exact k.waiting | (intro e he; cases he)
  have hsec : SecSt.Keep 0xfffff7e9f877ffffffffffffffffffdc041ff3 w.sec (freshState w).sec := by
    refine ⟨.free (by decide), .free (by decide), .free (by decide), .free (by decide), .free (by decide), .free (by decide), .refl, .free (by decide), .free (by decide), .free (by decide), fun k => ?_⟩
    constructor <;> first | rfl | exact Nat.zero_le _ | exact k.bank0 | exact k.bank1 | exact k.shelf | exact k.digest_le | exact k.waiting | (intro e he; cases he)
  have hgra : GranarySt.Keep 0xfffff7e9f877ffffffffffffffffffdc041ff3 w.gra (freshState w).gra := by
    refine ⟨.refl, .refl, .refl, .refl, .free (by decide), .free (by decide), .free (by decide), .free (by decide), .free (by decide), .free (by decide), .refl, .refl, .free (by decide), .refl, .free (by decide), .free (by decide), .free (by decide), .free (by decide), .free (by decide), .free (by decide), .refl, fun k => ?_⟩
    constructor <;> first | rfl | exact Nat.zero_le _ | exact k.bank0 | exact k.bank1 | exact k.shelf | exact k.digest_le | exact k.waiting | (intro e he; cases he)
  have hhst : HostSt.Keep 0xfffff7e9f877ffffffffffffffffffdc041ff3 w.hst (freshState w).hst := by
    refine ⟨.free (by decide), .free (by decide), .free (by decide), .free (by decide), fun k => ?_⟩
    constructor <;> first | rfl | exact Nat.zero_le _ | exact k.bank0 | exact k.bank1 | exact k.shelf | exact k.digest_le | exact k.waiting | (intro e he; cases he)
  have hstw : StewardSt.Keep 0xfffff7e9f877ffffffffffffffffffdc041ff3 w.stw (freshState w).stw := by
    refine ⟨.free (by decide), .free (by decide), .free (by decide), .free (by decide), .free (by decide), fun k => ?_⟩
    constructor <;> first | rfl | exact Nat.zero_le _ | exact k.bank0 | exact k.bank1 | exact k.shelf | exact k.digest_le | exact k.waiting | (intro e he; cases he)
  have hobs : ObsSt.Keep 0xfffff7e9f877ffffffffffffffffffdc041ff3 w.obs (freshState w).obs := by
    refine ⟨.free (by decide), .free (by decide), .free (by decide), .free (by decide), .free (by decide), .free (by decide), .free (by decide), .free (by decide), .free (by decide), .free (by decide), .free (by decide), fun k => ?_⟩
    constructor <;> first | rfl | exact Nat.zero_le _ | exact k.bank0 | exact k.bank1 | exact k.shelf | exact k.digest_le | exact k.waiting | (intro e he; cases he)
  exact ⟨.free (by decide), fun _ => rfl, .free (by decide), fun _ => rfl, htime, hbnd, hled, hlan, hprt, hing, hegr, hsec, hgra, hhst, hstw, hobs, .refl, .refl⟩

theorem freshWall_keep (w : Wall) :
    Keep 0xfffff7e9f877ffffffffffffffffffdc041ff3 w (freshWall w) := by
  unfold freshWall
  try dsimp only
  repeat' first
    | with_reducible apply Keep.refl
    | with_reducible assumption
    | (with_reducible apply Keep.step _ (level_keep ..) _; on_goal 2 => decide)
    | (with_reducible apply Keep.step _ (freshState_keep ..) _; on_goal 2 => decide)
    | (with_reducible apply Keep.step _ (set_keep ..) _; on_goal 2 => decide)
    | (with_reducible apply Keep.upTo; on_goal 2 => intro _ _ _)

theorem powerGood_keep (reflanes : ℕ) (m : Mode) (w : Wall) :
    Keep 0xfffff7e9f877ffffffffffffffffffde3ffff3 w (powerGood reflanes m w).2 := by
  unfold powerGood
  try dsimp only
  repeat' first
    | with_reducible apply Keep.refl
    | with_reducible assumption
    | (with_reducible apply Keep.step _ (freshWall_keep ..) _; on_goal 2 => decide)
    | (with_reducible apply Keep.step _ (set_keep ..) _; on_goal 2 => decide)
    | (with_reducible apply modBnd_keep; on_goal 2 => (intro b; refine BoundarySt.Keep.mk (.free (by decide)) (.free (by decide)) (.free (by decide)) (.free (by decide)) (.free (by decide)) (.free (by decide)) (.free (by decide)) (.free (by decide)) (.free (by decide)) (.free (by decide)) (.free (by decide)) (.free (by decide)) .refl .refl .refl (.free (by decide)) (.free (by decide)) (.free (by decide)) (.free (by decide)) .refl (.free (by decide)) (.free (by decide)) (.free (by decide)) (.free (by decide)) (.free (by decide)) (.free (by decide)) (fun ⟨k0, k1, k2⟩ => ?_); constructor <;> dsimp only))
    | split

theorem vcoreRemoved_keep (m : Mode) (w : Wall) :
    Keep 0xffffffe9f877ffffffffffffffffffdc041ff3 w (vcoreRemoved m w).2 := by
  unfold vcoreRemoved
  try dsimp only
  repeat' first
    | with_reducible apply Keep.refl
    | with_reducible assumption
    | (with_reducible apply Keep.step _ (freshWall_keep ..) _; on_goal 2 => decide)
    | (with_reducible apply Keep.graU; on_goal 2 => (generalize Wall.gra _ = z; revert z; refine id ?_; intro z; refine GranarySt.Keep.mk .refl .refl .refl .refl (.free (by decide)) (.free (by decide)) (.free (by decide)) (.free (by decide)) (.free (by decide)) (.free (by decide)) .refl .refl (.free (by decide)) .refl (.free (by decide)) (.free (by decide)) (.free (by decide)) (.free (by decide)) (.free (by decide)) (.free (by decide)) (.free (by decide)) (fun ⟨k0, k1, k2, k3, k4, k5, k6, k7, k8⟩ => ?_); constructor <;> dsimp only))
    | split

theorem vembRemoved_keep (a0 : Mode) (w : Wall) :
    Keep 0xffffffe9f877ffffffffffffffffffdcf41ff3 w (vembRemoved a0 w).2 := by
  unfold vembRemoved
  try dsimp only
  repeat' first
    | with_reducible apply Keep.refl
    | with_reducible assumption
    | (with_reducible apply Keep.step _ (freshWall_keep ..) _; on_goal 2 => decide)
    | (with_reducible apply modBnd_keep; on_goal 2 => (intro b; refine BoundarySt.Keep.mk (.free (by decide)) (.free (by decide)) (.free (by decide)) .refl .refl .refl .refl .refl (.free (by decide)) .refl (.free (by decide)) (.free (by decide)) (.free (by decide)) (.free (by decide)) .refl .refl (.free (by decide)) (.free (by decide)) (.free (by decide)) .refl (.free (by decide)) (.free (by decide)) (.free (by decide)) (.free (by decide)) (.free (by decide)) (.free (by decide)) (fun ⟨k0, k1, k2⟩ => ?_); constructor <;> dsimp only))
    | (with_reducible apply Keep.graU; on_goal 2 => (generalize Wall.gra _ = z; revert z; refine id ?_; intro z; refine GranarySt.Keep.mk .refl .refl .refl .refl (.free (by decide)) (.free (by decide)) (.free (by decide)) (.free (by decide)) (.free (by decide)) (.free (by decide)) .refl .refl (.free (by decide)) .refl (.free (by decide)) (.free (by decide)) (.free (by decide)) (.free (by decide)) (.free (by decide)) (.free (by decide)) (.free (by decide)) (fun ⟨k0, k1, k2, k3, k4, k5, k6, k7, k8⟩ => ?_); constructor <;> dsimp only))

theorem wakeAccept_keep (m : Mode) (w : Wall) :
    Keep 0x200000000000000000000000000000000200000 w (wakeAccept m w) := by
  unfold wakeAccept
  try dsimp only
  repeat' first
    | with_reducible apply Keep.refl
    | with_reducible assumption
    | (with_reducible apply Keep.step _ (emit_keep ..) _; on_goal 2 => decide)
    | (with_reducible apply modBnd_keep; on_goal 2 => (intro b; refine BoundarySt.Keep.mk .refl .refl .refl .refl .refl .refl .refl .refl .refl .refl .refl (.free (by decide)) .refl .refl .refl .refl .refl .refl .refl .refl .refl .refl .refl .refl .refl .refl (fun ⟨k0, k1, k2⟩ => ?_); constructor <;> dsimp only))
    | (with_reducible apply Keep.ite <;> intro _)

theorem emberStart_keep (w : Wall) :
    Keep 0x204647800b00005f6038031c6a0193200000003 w (emberStart w) := by
  unfold emberStart
  try dsimp only
  repeat' first
    | with_reducible apply Keep.refl
    | with_reducible assumption
    | (with_reducible apply Keep.step _ (askMarks_keep ..) _; on_goal 2 => decide)
    | (with_reducible apply Keep.step _ (dropRings_keep ..) _; on_goal 2 => decide)
    | (with_reducible apply Keep.step _ (respondG_keep ..) _; on_goal 2 => decide)
    | (with_reducible apply Keep.step _ (stopPorts_keep ..) _; on_goal 2 => decide)
    | (with_reducible apply Keep.step _ (stopStewards_keep ..) _; on_goal 2 => decide)
    | (with_reducible apply Keep.step _ (queueLevel_keep ..) _; on_goal 2 => decide)
    | (with_reducible apply Keep.step _ (closeAll_keep ..) _; on_goal 2 => decide)
    | (with_reducible apply Keep.foldl; on_goal 2 => intro _ _ _)
    | (with_reducible apply Keep.ledU; on_goal 2 => (generalize Wall.led _ = z; revert z; refine id ?_; intro z; refine LedgerSt.Keep.mk (.free (by decide)) (.free (by decide)) .refl .refl (.free (by decide)) .refl .refl (.free (by decide)) (.free (by decide)) .refl .refl .refl .refl .refl .refl .refl .refl (fun ⟨k0, k1, k2, k3, k4, k5⟩ => ?_); constructor <;> dsimp only))
    | (with_reducible apply Keep.graU; on_goal 2 => (generalize Wall.gra _ = z; revert z; refine id ?_; intro z; refine GranarySt.Keep.mk .refl .refl .refl .refl .refl (.free (by decide)) (.free (by decide)) .refl (.free (by decide)) .refl .refl .refl .refl .refl .refl .refl .refl .refl .refl .refl (.free (by decide)) (fun ⟨k0, k1, k2, k3, k4, k5, k6, k7, k8⟩ => ?_); constructor <;> dsimp only))
    | (with_reducible apply modBnd_keep; on_goal 2 => (intro b; refine BoundarySt.Keep.mk .refl .refl .refl .refl .refl .refl .refl .refl .refl .refl .refl .refl .refl .refl .refl .refl .refl .refl .refl .refl .refl .refl .refl (.free (by decide)) .refl .refl (fun ⟨k0, k1, k2⟩ => ?_); constructor <;> dsimp only))
    | apply Nat.zero_le

theorem emberDrained_keep (m : Mode) (w : Wall) :
    Keep 0x2fffff7fbfff7ffffffffffffffffffdd2c1ff3 w (emberDrained m w).2 := by
  unfold emberDrained
  try dsimp only
  repeat' first
    | with_reducible apply Keep.refl
    | with_reducible assumption
    | (with_reducible apply Keep.step _ (freshWall_keep ..) _; on_goal 2 => decide)
    | (with_reducible apply Keep.step _ (commitAll_keep ..) _; on_goal 2 => decide)
    | (with_reducible apply Keep.step _ (emit_keep ..) _; on_goal 2 => decide)
    | (with_reducible apply Keep.step _ (noteMove_keep ..) _; on_goal 2 => decide)
    | (with_reducible apply Keep.step _ (setInhibit_keep ..) _; on_goal 2 => decide)
    | (with_reducible apply modBnd_keep; on_goal 2 => (intro b; refine BoundarySt.Keep.mk (.free (by decide)) (.free (by decide)) (.free (by decide)) .refl .refl .refl .refl .refl (.free (by decide)) (.free (by decide)) .refl (.free (by decide)) .refl .refl (.free (by decide)) .refl (.free (by decide)) (.free (by decide)) (.free (by decide)) .refl (.free (by decide)) (.free (by decide)) (.free (by decide)) (.free (by decide)) (.free (by decide)) (.free (by decide)) (fun ⟨k0, k1, k2⟩ => ?_); constructor <;> dsimp only))
    | (with_reducible apply Keep.ite <;> intro _)
    | split

theorem dropWaitingSheaves_keep (w : Wall) :
    Keep 0x200000000000000000000000000000 w (dropWaitingSheaves w) := by
  unfold dropWaitingSheaves
  try dsimp only
  repeat' first
    | with_reducible apply Keep.refl
    | with_reducible assumption
    | (with_reducible apply Keep.graU; on_goal 2 => (generalize Wall.gra _ = z; revert z; refine id ?_; intro z; refine GranarySt.Keep.mk .refl .refl .refl .refl .refl .refl (.free (by decide)) .refl .refl .refl .refl .refl .refl .refl .refl .refl .refl .refl .refl .refl .refl (fun ⟨k0, k1, k2, k3, k4, k5, k6, k7, k8⟩ => ?_); constructor <;> dsimp only))

theorem clockLossCommit_keep (m : Mode) (w : Wall) :
    Keep 0x2006023d2ff80000000000000000b0000040001 w (clockLossCommit m w) := by
  unfold clockLossCommit
  try dsimp only
  repeat' first
    | with_reducible apply Keep.refl
    | with_reducible assumption
    | (with_reducible apply Keep.step _ (drainQueue_keep ..) _; on_goal 2 => decide)
    | (with_reducible apply Keep.step _ (dropWaitingSheaves_keep ..) _; on_goal 2 => decide)
    | (with_reducible apply Keep.step _ (setShut_keep ..) _; on_goal 2 => decide)
    | (with_reducible apply Keep.step _ (bump_keep ..) _; on_goal 2 => decide)
    | (with_reducible apply Keep.step _ (digestEntry_keep ..) _; on_goal 2 => decide)
    | (with_reducible apply Keep.step _ (commitReg_keep ..) _; on_goal 2 => decide)
    | (with_reducible apply Keep.graU; on_goal 2 => (generalize Wall.gra _ = z; revert z; refine id ?_; intro z; refine GranarySt.Keep.mk (.free (by decide)) (.free (by decide)) (.free (by decide)) (.free (by decide)) (.free (by decide)) (.free (by decide)) (.free (by decide)) (.free (by decide)) (.free (by decide)) .refl (.free (by decide)) .refl .refl (.free (by decide)) .refl (.free (by decide)) (.free (by decide)) (.free (by decide)) (.free (by decide)) .refl .refl (fun ⟨k0, k1, k2, k3, k4, k5, k6, k7, k8⟩ => ?_); constructor <;> dsimp only))
    | (with_reducible apply Keep.ite <;> intro _)

theorem refcoreLoss_keep (m : Mode) (w : Wall) :
    Keep 0x2046033d2ff8005f6038031c6a00b0200043803 w (refcoreLoss m w).2 := by
  unfold refcoreLoss
  try dsimp only
  repeat' first
    | with_reducible apply Keep.refl
    | with_reducible assumption
    | (with_reducible apply Keep.step _ (stopPorts_keep ..) _; on_goal 2 => decide)
    | (with_reducible apply Keep.step _ (clockLossCommit_keep ..) _; on_goal 2 => decide)
    | (with_reducible apply Keep.step _ (latch_keep ..) _; on_goal 2 => decide)
    | (with_reducible apply modBnd_keep; on_goal 2 => (intro b; refine BoundarySt.Keep.mk .refl (.free (by decide)) (.free (by decide)) (.free (by decide)) .refl .refl .refl .refl (.free (by decide)) .refl .refl .refl .refl .refl .refl .refl .refl .refl .refl .refl .refl .refl .refl (.free (by decide)) .refl .refl (fun ⟨k0, k1, k2⟩ => ?_); constructor <;> dsimp only))
    | split

theorem refcoreRestored_keep (m : Mode) (w : Wall) :
    Keep 0x762660000000000000000000041801 w (refcoreRestored m w) := by
  unfold refcoreRestored
  try dsimp only
  repeat' first
    | with_reducible apply Keep.refl
    | with_reducible assumption
    | (with_reducible apply Keep.step _ (zeroiseEngines_keep ..) _; on_goal 2 => decide)
    | (with_reducible apply Keep.step _ (pumpQueue_keep ..) _; on_goal 2 => decide)
    | (with_reducible apply Keep.step _ (setShut_keep ..) _; on_goal 2 => decide)
    | (with_reducible apply modBnd_keep; on_goal 2 => (intro b; refine BoundarySt.Keep.mk .refl (.free (by decide)) (.free (by decide)) .refl .refl .refl .refl .refl (.free (by decide)) .refl .refl .refl .refl .refl .refl .refl .refl .refl .refl .refl .refl .refl .refl .refl .refl .refl (fun ⟨k0, k1, k2⟩ => ?_); constructor <;> dsimp only))
    | (with_reducible apply Keep.ite <;> intro _)

theorem dropRequests_keep (w : Wall) :
    Keep 0x81f000000000 w (dropRequests w) := by
  unfold dropRequests
  try dsimp only
  repeat' first
    | with_reducible apply Keep.refl
    | with_reducible assumption
    | (with_reducible apply Keep.ledU; on_goal 2 => (generalize Wall.led _ = z; revert z; refine id ?_; intro z; refine LedgerSt.Keep.mk (.free (by decide)) (.free (by decide)) (.free (by decide)) (.free (by decide)) (.free (by decide)) .refl .refl .refl .refl .refl .refl (.free (by decide)) .refl .refl .refl .refl .refl (fun ⟨k0, k1, k2, k3, k4, k5⟩ => ?_); constructor <;> dsimp only))
    | with_reducible apply twf_nil
    | apply Nat.zero_le

theorem clearReeveFault_keep (w : Wall) :
    Keep 0x100000000000000000000000000000000000 w (clearReeveFault w) := by
  unfold clearReeveFault
  try dsimp only
  repeat' first
    | with_reducible apply Keep.refl
    | with_reducible assumption
    | (with_reducible apply Keep.stwU; on_goal 2 => (generalize Wall.stw _ = z; revert z; refine id ?_; intro z; refine StewardSt.Keep.mk .refl .refl .refl .refl (.free (by decide)) (fun ⟨k0, k1, k2, k3⟩ => ?_); constructor <;> dsimp only))

theorem restart_keep (cause : ℕ) (m : Mode) (w : Wall) :
    Keep 0x2047073d2ff8005f6038031c6a09bf200003003 w (restart cause m w).2 := by
  unfold restart
  try dsimp only
  repeat' first
    | with_reducible apply Keep.refl
    | with_reducible assumption
    | (with_reducible apply Keep.step _ (dropRequests_keep ..) _; on_goal 2 => decide)
    | (with_reducible apply Keep.step _ (stopPorts_keep ..) _; on_goal 2 => decide)
    | (with_reducible apply Keep.step _ (askMarks_keep ..) _; on_goal 2 => decide)
    | (with_reducible apply Keep.step _ (dropWaitingSheaves_keep ..) _; on_goal 2 => decide)
    | (with_reducible apply Keep.step _ (stopStewards_keep ..) _; on_goal 2 => decide)
    | (with_reducible apply Keep.step _ (commitAll_keep ..) _; on_goal 2 => decide)
    | (with_reducible apply Keep.step _ (set_keep ..) _; on_goal 2 => decide)
    | (with_reducible apply Keep.step _ (clearReeveFault_keep ..) _; on_goal 2 => decide)
    | (with_reducible apply Keep.step _ (closeAll_keep ..) _; on_goal 2 => decide)
    | (with_reducible apply Keep.step _ (dropRings_keep ..) _; on_goal 2 => decide)
    | (with_reducible apply modBnd_keep; on_goal 2 => (intro b; refine BoundarySt.Keep.mk .refl .refl (.free (by decide)) (.free (by decide)) .refl .refl .refl .refl .refl .refl .refl .refl .refl .refl .refl .refl .refl .refl .refl .refl .refl .refl .refl (.free (by decide)) .refl .refl (fun ⟨k0, k1, k2⟩ => ?_); constructor <;> dsimp only))
    | (with_reducible apply Keep.ite <;> intro _)

theorem reeveRestart_keep (m : Mode) (w : Wall) :
    Keep 0x2047073d2ff8005f6038031c6a09bf200003003 w (reeveRestart m w).2 := by
  unfold reeveRestart
  try dsimp only
  repeat' first
    | with_reducible apply Keep.refl
    | (with_reducible apply Keep.step _ (restart_keep ..) _; on_goal 2 => decide)
    | split

theorem sealWall_keep (old : Mode) (cause : ℕ) (last : ℕ) (w : Wall) :
    Keep 0x2046070c2b00005f6038031c6a099e200001003 w (sealWall old cause last w) := by
  unfold sealWall
  try dsimp only
  repeat' first
    | with_reducible apply Keep.refl
    | with_reducible assumption
    | (with_reducible apply Keep.step _ (respond_keep ..) _; on_goal 2 => decide)
    | (with_reducible apply Keep.step _ (digestEntry_keep ..) _; on_goal 2 => decide)
    | (with_reducible apply Keep.step _ (dropRings_keep ..) _; on_goal 2 => decide)
    | (with_reducible apply Keep.step _ (stopPorts_keep ..) _; on_goal 2 => decide)
    | (with_reducible apply Keep.step _ (stopStewards_keep ..) _; on_goal 2 => decide)
    | (with_reducible apply Keep.step _ (set_keep ..) _; on_goal 2 => decide)
    | (with_reducible apply Keep.step _ (closeAll_keep ..) _; on_goal 2 => decide)
    | (with_reducible apply Keep.step _ (noteMove_keep ..) _; on_goal 2 => decide)
    | (with_reducible apply Keep.foldl; on_goal 2 => intro _ _ _)
    | (with_reducible apply Keep.ledU; on_goal 2 => (generalize Wall.led _ = z; revert z; refine id ?_; intro z; refine LedgerSt.Keep.mk .refl (.free (by decide)) (.free (by decide)) (.free (by decide)) (.free (by decide)) .refl .refl (.free (by decide)) (.free (by decide)) .refl .refl (.free (by decide)) .refl .refl .refl .refl .refl (fun ⟨k0, k1, k2, k3, k4, k5⟩ => ?_); constructor <;> dsimp only))
    | (with_reducible apply modBnd_keep; on_goal 2 => (intro b; refine BoundarySt.Keep.mk .refl .refl (.free (by decide)) .refl .refl .refl .refl .refl .refl .refl .refl .refl .refl .refl .refl .refl .refl .refl .refl .refl .refl .refl .refl (.free (by decide)) .refl .refl (fun ⟨k0, k1, k2⟩ => ?_); constructor <;> dsimp only))
    | with_reducible apply twf_nil

theorem sealNow_keep (cause : ℕ) (last : ℕ) (m : Mode) (w : Wall) :
    Keep 0x2046070c2f62665f6038031c6a099e200001003 w (sealNow cause last m w).2 := by
  unfold sealNow
  try dsimp only
  repeat' first
    | with_reducible apply Keep.refl
    | (with_reducible apply Keep.step _ (sealWall_keep ..) _; on_goal 2 => decide)
    | (with_reducible apply Keep.step _ (zeroiseEngines_keep ..) _; on_goal 2 => decide)
    | split

theorem continuousFail_keep (m : Mode) (w : Wall) :
    Keep 0x2046070c2f62665f6038031c6a099e200001003 w (continuousFail m w).2 := by
  unfold continuousFail
  try dsimp only
  repeat' first
    | with_reducible apply Keep.refl
    | (with_reducible apply Keep.step _ (sealNow_keep ..) _; on_goal 2 => decide)
    | (with_reducible apply Keep.step _ (latch_keep ..) _; on_goal 2 => decide)
    | (with_reducible apply Keep.ite <;> intro _)

theorem tamper_keep (m : Mode) (w : Wall) :
    Keep 0x2046070c2f62665f6038031c6a099e200001003 w (tamper m w).2 := by
  unfold tamper
  try dsimp only
  repeat' first
    | with_reducible apply Keep.refl
    | (with_reducible apply Keep.step _ (sealNow_keep ..) _; on_goal 2 => decide)
    | (with_reducible apply Keep.step _ (latch_keep ..) _; on_goal 2 => decide)
    | (with_reducible apply Keep.ite <;> intro _)

theorem zeroiseStart_keep (w : Wall) :
    Keep 0x204603000000005f6038031c6a0190000000003 w (zeroiseStart w) := by
  unfold zeroiseStart
  try dsimp only
  repeat' first
    | with_reducible apply Keep.refl
    | (with_reducible apply Keep.step _ (stopPorts_keep ..) _; on_goal 2 => decide)
    | (with_reducible apply Keep.step _ (closeAll_keep ..) _; on_goal 2 => decide)

theorem zeroiseAccept_keep (m : Mode) (w : Wall) :
    Keep 0x204603000762665f6038031c6a0190000600003 w (zeroiseAccept m w) := by
  unfold zeroiseAccept
  try dsimp only
  repeat' first
    | with_reducible apply Keep.refl
    | with_reducible assumption
    | (with_reducible apply Keep.step _ (zeroiseEngines_keep ..) _; on_goal 2 => decide)
    | (with_reducible apply Keep.step _ (zeroiseStart_keep ..) _; on_goal 2 => decide)
    | (with_reducible apply Keep.step _ (emit_keep ..) _; on_goal 2 => decide)
    | (with_reducible apply modBnd_keep; on_goal 2 => (intro b; refine BoundarySt.Keep.mk .refl .refl .refl .refl .refl .refl .refl .refl .refl .refl .refl (.free (by decide)) (.free (by decide)) .refl .refl .refl .refl .refl .refl .refl .refl .refl .refl .refl .refl .refl (fun ⟨k0, k1, k2⟩ => ?_); constructor <;> dsimp only))
    | (with_reducible apply Keep.ite <;> intro _)
    | split

theorem zeroisationComplete_keep (m : Mode) (w : Wall) :
    Keep 0x2046070c2ffa0a5f6038031c6a099e200401003 w (zeroisationComplete m w).2 := by
  unfold zeroisationComplete
  try dsimp only
  repeat' first
    | with_reducible apply Keep.refl
    | (with_reducible apply Keep.step _ (zeroiseGranary_keep ..) _; on_goal 2 => decide)
    | (with_reducible apply Keep.step _ (sealWall_keep ..) _; on_goal 2 => decide)
    | (with_reducible apply Keep.step _ (settle_keep ..) _; on_goal 2 => decide)
    | split

theorem dozePort_keep (p : ℕ) (w : Wall) :
    Keep 0x204603000000005f6038031e6a0090000000003 w (dozePort p w) := by
  unfold dozePort
  try dsimp only
  repeat' first
    | with_reducible apply Keep.refl
    | (with_reducible apply Keep.step _ (setQuiet_keep ..) _; on_goal 2 => decide)
    | (with_reducible apply Keep.step _ (quietRetry_keep ..) _; on_goal 2 => decide)
    | (with_reducible apply Keep.step _ (dozeDown_keep ..) _; on_goal 2 => decide)
    | (with_reducible apply Keep.ite <;> intro _)

theorem dozeEnter_keep (w : Wall) :
    Keep 0x204603000000005f6038031e6a0090200000003 w (dozeEnter w) := by
  unfold dozeEnter
  try dsimp only
  repeat' first
    | with_reducible apply Keep.refl
    | with_reducible assumption
    | (with_reducible apply Keep.step _ (endSurvey_keep ..) _; on_goal 2 => decide)
    | (with_reducible apply Keep.step _ (stopStewards_keep ..) _; on_goal 2 => decide)
    | (with_reducible apply Keep.step _ (panicEval_keep ..) _; on_goal 2 => decide)
    | (with_reducible apply Keep.step _ (noteMove_keep ..) _; on_goal 2 => decide)
    | (with_reducible apply Keep.step _ (dozePort_keep ..) _; on_goal 2 => decide)
    | (with_reducible apply Keep.step _ (downOff_keep ..) _; on_goal 2 => decide)
    | (with_reducible apply Keep.upTo; on_goal 2 => intro _ _ _)
    | (with_reducible apply Keep.foldl; on_goal 2 => intro _ _ _)
    | (with_reducible apply modBnd_keep; on_goal 2 => (intro b; refine BoundarySt.Keep.mk .refl .refl .refl .refl .refl .refl .refl .refl .refl .refl .refl .refl .refl .refl .refl .refl .refl .refl .refl .refl .refl .refl .refl (.free (by decide)) .refl .refl (fun ⟨k0, k1, k2⟩ => ?_); constructor <;> dsimp only))
    | (with_reducible apply Keep.ite <;> intro _)

theorem dozeExit_keep (cause : ℕ) (wake : ℕ) (w : Wall) :
    Keep 0x30461b000000005000000002060000204000003 w (dozeExit cause wake w) := by
  unfold dozeExit
  try dsimp only
  repeat' first
    | with_reducible apply Keep.refl
    | with_reducible assumption
    | (with_reducible apply Keep.step _ (ringDoorbell_keep ..) _; on_goal 2 => decide)
    | (with_reducible apply Keep.step _ (pumpRings_keep ..) _; on_goal 2 => decide)
    | (with_reducible apply Keep.step _ (enterDetect_keep ..) _; on_goal 2 => decide)
    | (with_reducible apply Keep.step _ (set_keep ..) _; on_goal 2 => decide)
    | (with_reducible apply Keep.step _ (releaseSteward_keep ..) _; on_goal 2 => decide)
    | (with_reducible apply Keep.step _ (grant_keep ..) _; on_goal 2 => decide)
    | (with_reducible apply Keep.step _ (wakePort_keep ..) _; on_goal 2 => decide)
    | (with_reducible apply Keep.step _ (setRing_keep ..) _; on_goal 2 => decide)
    | (with_reducible apply Keep.step _ (panicEval_keep ..) _; on_goal 2 => decide)
    | (with_reducible apply Keep.step _ (noteMove_keep ..) _; on_goal 2 => decide)
    | (with_reducible apply Keep.upTo; on_goal 2 => intro _ _ _)
    | (with_reducible apply Keep.foldl; on_goal 2 => intro _ _ _)
    | (with_reducible apply modBnd_keep; on_goal 2 => (intro b; refine BoundarySt.Keep.mk .refl .refl .refl .refl .refl .refl .refl .refl .refl .refl .refl .refl .refl .refl .refl .refl (.free (by decide)) .refl .refl .refl .refl .refl .refl (.free (by decide)) .refl .refl (fun ⟨k0, k1, k2⟩ => ?_); constructor <;> dsimp only))
    | (with_reducible apply Keep.ite <;> intro _)

theorem dozeWake_keep (p : Path) (frame : List Byte) (m : Mode) (w : Wall) :
    Keep 0x30461b000000005000000002060000204000003 w (dozeWake p frame m w).2 := by
  unfold dozeWake
  try dsimp only
  repeat' first
    | with_reducible apply Keep.refl
    | (with_reducible apply Keep.step _ (dozeExit_keep ..) _; on_goal 2 => decide)
    | (with_reducible apply Keep.step _ (fieldOther_keep ..) _; on_goal 2 => decide)
    | split

theorem dueMove_keep (m : Mode) (w : Wall) :
    Keep 0x30475fbd2ff8005f6038031e6e09bf204003003 w (dueMove m w).2 := by
  unfold dueMove
  try dsimp only
  repeat' first
    | with_reducible apply Keep.refl
    | with_reducible assumption
    | (with_reducible apply Keep.step _ (dozeEnter_keep ..) _; on_goal 2 => decide)
    | (with_reducible apply Keep.step _ (emberStart_keep ..) _; on_goal 2 => decide)
    | (with_reducible apply Keep.step _ (dozeExit_keep ..) _; on_goal 2 => decide)
    | (with_reducible apply Keep.step _ (restart_keep ..) _; on_goal 2 => decide)
    | (with_reducible apply Keep.ledU; on_goal 2 => (generalize Wall.led _ = z; revert z; refine id ?_; intro z; refine LedgerSt.Keep.mk (.free (by decide)) (.free (by decide)) (.free (by decide)) (.free (by decide)) (.free (by decide)) (.free (by decide)) .refl (.free (by decide)) (.free (by decide)) .refl .refl (.free (by decide)) .refl .refl .refl .refl .refl (fun ⟨k0, k1, k2, k3, k4, k5⟩ => ?_); constructor <;> dsimp only))
    | split

end Sys2Proof.Machine
end

