-- ==== Sys2Proof/Laws/KeepReplay.lean ====
section
/-! SUPPORT. What each operation of Machine/Replay.lean may change. -/

set_option linter.unusedTactic false
set_option linter.unreachableTactic false

open Sys2Proof

namespace Sys2Proof.Machine

theorem twf_tableOf (n : Nat) (f : Nat → Nat × Nat) : twf (tableOf n f) = true :=
  foldl_keeps (fun t => twf t = true) _ _ _ twf_nil fun _ _ h => twf_tputD h

/-- A table listed by rising key is in canonical form. -/
theorem twf_listed {α : Type} (n : Nat) (f : Nat → Option α) :
    twf ((List.range n).filterMap fun r => (f r).map fun x => (r, x)) = true := by
  rw [twf_iff, List.pairwise_filterMap]
  refine List.pairwise_lt_range.imp fun {a b} hab e he e' he' => ?_
  obtain ⟨x, _, rfl⟩ := Option.map_eq_some_iff.mp he
  obtain ⟨y, _, rfl⟩ := Option.map_eq_some_iff.mp he'
  exact hab

theorem replayView_keep (w : Wall) :
    Keep 0x1 w (replayView w) := by
  unfold replayView
  try dsimp only
  repeat' first
    | with_reducible apply Keep.refl
    | (with_reducible apply Keep.step _ (clrBitR_keep ..) _; on_goal 2 => decide)
    | (with_reducible apply Keep.ite <;> intro _)
    | split

theorem rebuildRows_keep (w : Wall) :
    Keep 0x880000000000000000000000000001 w (rebuildRows w) := by
  unfold rebuildRows
  try dsimp only
  repeat' first
    | with_reducible apply Keep.refl
    | with_reducible assumption
    | (with_reducible apply Keep.step _ (set_keep ..) _; on_goal 2 => decide)
    | (with_reducible apply Keep.graU; on_goal 2 => (generalize Wall.gra _ = z; revert z; refine id ?_; intro z; refine GranarySt.Keep.mk .refl .refl .refl .refl (.free (by decide)) .refl .refl .refl (.free (by decide)) .refl .refl .refl .refl .refl .refl .refl .refl .refl .refl .refl .refl (fun ⟨k0, k1, k2, k3, k4, k5, k6, k7, k8⟩ => ?_); constructor <;> dsimp only))
    | apply twf_listed
    | split

theorem replayValue_keep (index : ℕ) (sub : ℕ) (l : List Byte) (w : Wall) :
    Keep 0x400020000006c000000060000000001 w (replayValue index sub l w) := by
  unfold replayValue
  try dsimp only
  repeat' first
    | with_reducible apply Keep.refl
    | with_reducible assumption
    | (with_reducible apply Keep.step _ (set_keep ..) _; on_goal 2 => decide)
    | (with_reducible apply Keep.step _ (bump_keep ..) _; on_goal 2 => decide)
    | (with_reducible apply Keep.step _ (WRes.Keep.of_ok (effectDom_keep ..) ‹_›) _; on_goal 2 => decide)
    | (with_reducible apply Keep.secU; on_goal 2 => (generalize Wall.sec _ = z; revert z; refine id ?_; intro z; refine SecSt.Keep.mk .refl .refl .refl .refl (.free (by decide)) .refl .refl .refl .refl .refl (fun ⟨k0, k1, k2, k3, k4⟩ => ?_); constructor <;> dsimp only))
    | with_reducible apply twf_tput
    | (with_reducible apply Keep.ite <;> intro _)
    | split

theorem replayValues_keep (all : List (ℕ × Sheaf)) (sus : List (ℕ × ℕ × ℕ)) (w : Wall) :
    Keep 0x400020000006c000000060000000001 w (replayValues all sus w) := by
  unfold replayValues
  try dsimp only
  repeat' first
    | with_reducible apply Keep.refl
    | with_reducible assumption
    | (with_reducible apply Keep.step _ (replayValue_keep ..) _; on_goal 2 => decide)
    | (with_reducible apply Keep.foldl; on_goal 2 => intro _ _ _)
    | split

theorem replayAlmanac_keep (all : List (ℕ × Sheaf)) (sus : List (ℕ × ℕ × ℕ)) (w : Wall) :
    Keep 0x1000000000000001 w (replayAlmanac all sus w) := by
  unfold replayAlmanac
  try dsimp only
  repeat' first
    | with_reducible apply Keep.refl
    | with_reducible assumption
    | (with_reducible apply Keep.step _ (set_keep ..) _; on_goal 2 => decide)
    | (with_reducible apply Keep.foldl; on_goal 2 => intro _ _ _)
    | (with_reducible apply Keep.lanU; on_goal 2 => (generalize Wall.lan _ = z; revert z; refine id ?_; intro z; refine LaneSt.Keep.mk .refl .refl .refl .refl .refl .refl .refl (.free (by decide)) (fun ⟨k0, k1, k2, k3, k4, k5, k6⟩ => ?_); constructor <;> dsimp only))
    | with_reducible apply twf_tput

theorem replayKis_keep (all : List (ℕ × Sheaf)) (sus : List (ℕ × ℕ × ℕ)) (w : Wall) :
    Keep 0xb00180000000000000000000000001 w (replayKis all sus w) := by
  unfold replayKis
  try dsimp only
  repeat' first
    | with_reducible apply Keep.refl
    | with_reducible assumption
    | (with_reducible apply Keep.step _ (keepKi_keep ..) _; on_goal 2 => decide)
    | (with_reducible apply Keep.step _ (set_keep ..) _; on_goal 2 => decide)
    | (with_reducible apply Keep.foldl; on_goal 2 => intro _ _ _)
    | (with_reducible apply Keep.secU; on_goal 2 => (generalize Wall.sec _ = z; revert z; refine id ?_; intro z; refine SecSt.Keep.mk .refl .refl (.free (by decide)) (.free (by decide)) .refl .refl .refl .refl .refl .refl (fun ⟨k0, k1, k2, k3, k4⟩ => ?_); constructor <;> dsimp only))
    | with_reducible apply twf_tput
    | (with_reducible apply Keep.ite <;> intro _)
    | split

theorem replayDeviceKey_keep (all : List (ℕ × Sheaf)) (sus : List (ℕ × ℕ × ℕ)) (w : Wall) :
    Keep 0x200000000b00c00000000000000000000000001 w (replayDeviceKey all sus w) := by
  unfold replayDeviceKey
  try dsimp only
  repeat' first
    | with_reducible apply Keep.refl
    | with_reducible assumption
    | (with_reducible apply Keep.step _ (set_keep ..) _; on_goal 2 => decide)
    | (with_reducible apply Keep.step _ (emit_keep ..) _; on_goal 2 => decide)
    | (with_reducible apply Keep.step _ (askRecord_keep ..) _; on_goal 2 => decide)
    | (with_reducible apply Keep.secU; on_goal 2 => (generalize Wall.sec _ = z; revert z; refine id ?_; intro z; refine SecSt.Keep.mk .refl .refl .refl .refl .refl (.free (by decide)) (.free (by decide)) .refl .refl .refl (fun ⟨k0, k1, k2, k3, k4⟩ => ?_); constructor <;> dsimp only))
    | split

theorem resumeSa_keep (all : List (ℕ × Sheaf)) (sus : List (ℕ × ℕ × ℕ)) (key : ℕ) (w : Wall) :
    Keep 0x42000900020000000000000000000000001 w (resumeSa all sus key w) := by
  unfold resumeSa
  try dsimp only
  repeat' first
    | with_reducible apply Keep.refl
    | (with_reducible apply Keep.step _ (requestIfLow_keep ..) _; on_goal 2 => decide)
    | (with_reducible apply Keep.step _ (showSa_keep ..) _; on_goal 2 => decide)
    | (with_reducible apply Keep.step _ (set_keep ..) _; on_goal 2 => decide)
    | (with_reducible apply Keep.step _ (putSa_keep ..) _; on_goal 2 => decide)
    | (with_reducible apply Keep.ite <;> intro _)
    | split

theorem resumeSas_keep (all : List (ℕ × Sheaf)) (sus : List (ℕ × ℕ × ℕ)) (w : Wall) :
    Keep 0x200642000900020000000000000090000000001 w (resumeSas all sus w) := by
  unfold resumeSas
  try dsimp only
  repeat' first
    | with_reducible apply Keep.refl
    | with_reducible assumption
    | (with_reducible apply Keep.step _ (resumeSa_keep ..) _; on_goal 2 => decide)
    | (with_reducible apply Keep.step _ (set_keep ..) _; on_goal 2 => decide)
    | (with_reducible apply Keep.step _ (raise_keep ..) _; on_goal 2 => decide)
    | (with_reducible apply Keep.upTo; on_goal 2 => intro _ _ _)
    | (with_reducible apply Keep.foldl; on_goal 2 => intro _ _ _)
    | (with_reducible apply Keep.ite <;> intro _)

theorem loadVendor_keep (kind : ℕ) (u : ℕ) (l : List Byte) (w : Wall) :
    Keep 0x10000000000000000000000000000000000 w (loadVendor kind u l w) := by
  unfold loadVendor
  try dsimp only
  repeat' first
    | with_reducible apply Keep.refl
    | (with_reducible apply Keep.step _ (setSeq_keep ..) _; on_goal 2 => decide)

theorem loadCustomer_keep (u : ℕ) (l : List Byte) (w : Wall) :
    Keep 0x10000000000000000000000000000000000 w (loadCustomer u l w) := by
  unfold loadCustomer
  try dsimp only
  repeat' first
    | with_reducible apply Keep.refl
    | (with_reducible apply Keep.step _ (setSeq_keep ..) _; on_goal 2 => decide)

theorem customerLoad_keep (w : Wall) :
    Keep 0x30008000000000000000000000000000001 w (customerLoad w) := by
  unfold customerLoad
  try dsimp only
  repeat' first
    | with_reducible apply Keep.refl
    | with_reducible assumption
    | (with_reducible apply Keep.step _ (setBitR_keep ..) _; on_goal 2 => decide)
    | (with_reducible apply Keep.step _ (set_keep ..) _; on_goal 2 => decide)
    | (with_reducible apply Keep.step _ (loadCustomer_keep ..) _; on_goal 2 => decide)
    | (with_reducible apply Keep.upTo; on_goal 2 => intro _ _ _)
    | (with_reducible apply Keep.stwU; on_goal 2 => (generalize Wall.stw _ = z; revert z; refine id ?_; intro z; refine StewardSt.Keep.mk (.free (by decide)) (.free (by decide)) .refl .refl .refl (fun ⟨k0, k1, k2, k3⟩ => ?_); constructor <;> dsimp only))
    | (with_reducible apply Keep.graU; on_goal 2 => (generalize Wall.gra _ = z; revert z; refine id ?_; intro z; refine GranarySt.Keep.mk .refl .refl .refl .refl .refl .refl .refl .refl .refl .refl .refl .refl (.free (by decide)) .refl .refl .refl .refl .refl .refl .refl .refl (fun ⟨k0, k1, k2, k3, k4, k5, k6, k7, k8⟩ => ?_); constructor <;> dsimp only))
    | with_reducible apply twf_tput
    | (with_reducible apply twf_tableOf)
    | (with_reducible apply Keep.ite <;> intro _)
    | split

theorem loadImages_keep (f : Found) (w : Wall) :
    Keep 0x30008000000000000000000000000000001 w (loadImages f w) := by
  unfold loadImages
  try dsimp only
  repeat' first
    | with_reducible apply Keep.refl
    | with_reducible assumption
    | (with_reducible apply Keep.step _ (customerLoad_keep ..) _; on_goal 2 => decide)
    | (with_reducible apply Keep.step _ (set_keep ..) _; on_goal 2 => decide)
    | (with_reducible apply Keep.step _ (loadVendor_keep ..) _; on_goal 2 => decide)
    | (with_reducible apply Keep.upTo; on_goal 2 => intro _ _ _)
    | (with_reducible apply Keep.graU; on_goal 2 => (generalize Wall.gra _ = z; revert z; refine id ?_; intro z; refine GranarySt.Keep.mk .refl .refl .refl .refl .refl .refl .refl .refl .refl .refl .refl .refl (.free (by decide)) .refl .refl .refl .refl .refl .refl .refl .refl (fun ⟨k0, k1, k2, k3, k4, k5, k6, k7, k8⟩ => ?_); constructor <;> dsimp only))
    | with_reducible apply twf_tput
    | split

theorem kindleStart_keep (w : Wall) :
    Keep 0xfffff7e9f877ffffffffffffffffffdc041ff3 w (kindleStart w) := by
  unfold kindleStart
  try dsimp only
  repeat' first
    | with_reducible apply Keep.refl
    | (with_reducible apply Keep.step _ (freshWall_keep ..) _; on_goal 2 => decide)
    | (with_reducible apply Keep.step _ (noteMove_keep ..) _; on_goal 2 => decide)
    | (with_reducible apply Keep.step _ (set_keep ..) _; on_goal 2 => decide)

theorem readBanks_keep (i : KindleIn) (w : Wall) :
    Keep 0x2006020c2f98000000000000000090000000001 w (readBanks i w) := by
  unfold readBanks
  try dsimp only
  repeat' first
    | with_reducible apply Keep.refl
    | (with_reducible apply Keep.step _ (bankFail_keep ..) _; on_goal 2 => decide)
    | (with_reducible apply Keep.step _ (rebuildRows_keep ..) _; on_goal 2 => decide)
    | (with_reducible apply Keep.step _ (applyDamage_keep ..) _; on_goal 2 => decide)
    | (with_reducible apply Keep.ite <;> intro _)

theorem zeroiseKindle_keep (cause : ℕ) (w : Wall) :
    Keep 0x2046070c2ffa6e5f6038031c6a099e200401003 w (zeroiseKindle cause w).2 := by
  unfold zeroiseKindle
  try dsimp only
  repeat' first
    | with_reducible apply Keep.refl
    | (with_reducible apply Keep.step _ (sealWall_keep ..) _; on_goal 2 => decide)
    | (with_reducible apply Keep.step _ (zeroiseGranary_keep ..) _; on_goal 2 => decide)
    | (with_reducible apply Keep.step _ (zeroiseEngines_keep ..) _; on_goal 2 => decide)
    | split

theorem restoreRetention_keep (crcOk : Bool) (w : Wall) :
    Keep 0x12800000000000000000000000000000001 w (restoreRetention crcOk w) := by
  unfold restoreRetention
  try dsimp only
  repeat' first
    | with_reducible apply Keep.refl
    | with_reducible assumption
    | (with_reducible apply Keep.step _ (setSeq_keep ..) _; on_goal 2 => decide)
    | (with_reducible apply Keep.step _ (set_keep ..) _; on_goal 2 => decide)
    | (with_reducible apply Keep.step _ (latch_keep ..) _; on_goal 2 => decide)
    | (with_reducible apply Keep.foldl; on_goal 2 => intro _ _ _)
    | (with_reducible apply Keep.graU; on_goal 2 => (generalize Wall.gra _ = z; revert z; refine id ?_; intro z; refine GranarySt.Keep.mk .refl .refl .refl .refl .refl .refl .refl .refl .refl .refl .refl .refl .refl .refl .refl .refl .refl .refl .refl .refl (.free (by decide)) (fun ⟨k0, k1, k2, k3, k4, k5, k6, k7, k8⟩ => ?_); constructor <;> dsimp only))
    | (with_reducible apply Keep.ite <;> intro _)

theorem judgeLayout_keep (layoutMax : ℕ) (w : Wall) :
    Keep 0x60000000000000000000000000001 w (judgeLayout layoutMax w) := by
  unfold judgeLayout
  try dsimp only
  repeat' first
    | with_reducible apply Keep.refl
    | (with_reducible apply Keep.step _ (writeHeaders_keep ..) _; on_goal 2 => decide)
    | (with_reducible apply Keep.step _ (set_keep ..) _; on_goal 2 => decide)
    | (with_reducible apply Keep.ite <;> intro _)

theorem replayCounts_keep (all : List (ℕ × Sheaf)) (sus : List (ℕ × ℕ × ℕ)) (w : Wall) :
    Keep 0xc2b00000000000000000000000000001 w (replayCounts all sus w) := by
  unfold replayCounts
  try dsimp only
  repeat' first
    | with_reducible apply Keep.refl
    | with_reducible assumption
    | (with_reducible apply Keep.step _ (pumpQueue_keep ..) _; on_goal 2 => decide)
    | (with_reducible apply Keep.step _ (pfailGroup_keep ..) _; on_goal 2 => decide)
    | (with_reducible apply Keep.step _ (bump_keep ..) _; on_goal 2 => decide)
    | (with_reducible apply Keep.step _ (digestEntry_keep ..) _; on_goal 2 => decide)
    | (with_reducible apply Keep.step _ (commitReg_keep ..) _; on_goal 2 => decide)
    | (with_reducible apply Keep.when; on_goal 2 => intro _ _)
    | (with_reducible apply Keep.ite <;> intro _)

theorem commitPads_keep (pads : List (Sheaf × ℕ)) (b : ℕ) (w : Wall) :
    Keep 0x200602000b00000000000000000090000000001 w (commitPads pads b w) := by
  unfold commitPads
  try dsimp only
  repeat' first
    | with_reducible apply Keep.refl
    | with_reducible assumption
    | (with_reducible apply Keep.step _ (bump_keep ..) _; on_goal 2 => decide)
    | (with_reducible apply Keep.step _ (askRecord_keep ..) _; on_goal 2 => decide)
    | (with_reducible apply Keep.step _ (raise_keep ..) _; on_goal 2 => decide)
    | (with_reducible apply Keep.foldl; on_goal 2 => intro _ _ _)
    | (with_reducible apply Keep.ite <;> intro _)

theorem kindleWidths_keep (p : ℕ) (w : Wall) :
    Keep 0x602000000000000000000000000000000001 w (kindleWidths p w) := by
  unfold kindleWidths
  try dsimp only
  repeat' first
    | with_reducible apply Keep.refl
    | with_reducible assumption
    | (with_reducible apply Keep.step _ (daybook_keep ..) _; on_goal 2 => decide)
    | (with_reducible apply Keep.step _ (set_keep ..) _; on_goal 2 => decide)
    | (with_reducible apply Keep.upTo; on_goal 2 => intro _ _ _)
    | (with_reducible apply Keep.ite <;> intro _)

theorem hostChunksInForce_keep (p : ℕ) (h : ℕ) (w : Wall) :
    Keep 0x2000000000000000000000000 w (hostChunksInForce p h w) := by
  unfold hostChunksInForce
  try dsimp only
  repeat' first
    | with_reducible apply Keep.refl
    | with_reducible assumption
    | (with_reducible apply Keep.egrU; on_goal 2 => (generalize Wall.egr _ = z; revert z; refine id ?_; intro z; refine EgressSt.Keep.mk .refl .refl .refl .refl .refl .refl .refl .refl (.free (by decide)) .refl .refl .refl (fun ⟨k0, k1, k2, k3, k4, k5, k6, k7, k8, k9, k10⟩ => ?_); constructor <;> dsimp only))
    | with_reducible apply twf_tputD

theorem kindleObjects_keep (w : Wall) :
    Keep 0x602000000002080000020020000000000003 w (kindleObjects w) := by
  unfold kindleObjects
  try dsimp only
  repeat' first
    | with_reducible apply Keep.refl
    | with_reducible assumption
    | (with_reducible apply Keep.step _ (setUse_keep ..) _; on_goal 2 => decide)
    | (with_reducible apply Keep.step _ (setLaneSt_keep ..) _; on_goal 2 => decide)
    | (with_reducible apply Keep.step _ (fecInForce_keep ..) _; on_goal 2 => decide)
    | (with_reducible apply Keep.step _ (applyShaper_keep ..) _; on_goal 2 => decide)
    | (with_reducible apply Keep.step _ (kindleWidths_keep ..) _; on_goal 2 => decide)
    | (with_reducible apply Keep.step _ (hostChunksInForce_keep ..) _; on_goal 2 => decide)
    | (with_reducible apply Keep.step _ (set_keep ..) _; on_goal 2 => decide)
    | (with_reducible apply Keep.upTo; on_goal 2 => intro _ _ _)
    | (with_reducible apply Keep.foldl; on_goal 2 => intro _ _ _)
    | (with_reducible apply Keep.ite <;> intro _)

theorem checkUnits_keep (i : KindleIn) (w : Wall) :
    Keep 0xc2b00000000000000000000400000001 w (checkUnits i w) := by
  unfold checkUnits
  try dsimp only
  repeat' first
    | with_reducible apply Keep.refl
    | with_reducible assumption
    | (with_reducible apply Keep.step _ (digestEntry_keep ..) _; on_goal 2 => decide)
    | (with_reducible apply Keep.foldl; on_goal 2 => intro _ _ _)
    | (with_reducible apply modBnd_keep; on_goal 2 => (intro b; refine BoundarySt.Keep.mk .refl .refl .refl .refl .refl .refl .refl .refl .refl .refl .refl .refl .refl .refl .refl .refl .refl .refl .refl .refl .refl .refl .refl .refl (.free (by decide)) .refl (fun ⟨k0, k1, k2⟩ => ?_); constructor <;> dsimp only))

theorem bringUp_keep (w : Wall) :
    Keep 0x304607000000005f6038031c6e0090000000003 w (bringUp w) := by
  unfold bringUp
  try dsimp only
  repeat' first
    | with_reducible apply Keep.refl
    | with_reducible assumption
    | (with_reducible apply Keep.step _ (detectAlone_keep ..) _; on_goal 2 => decide)
    | (with_reducible apply Keep.step _ (grant_keep ..) _; on_goal 2 => decide)
    | (with_reducible apply Keep.step _ (setReason_keep ..) _; on_goal 2 => decide)
    | (with_reducible apply Keep.step _ (enterMill_keep ..) _; on_goal 2 => decide)
    | (with_reducible apply Keep.step _ (enterDetect_keep ..) _; on_goal 2 => decide)
    | (with_reducible apply Keep.upTo; on_goal 2 => intro _ _ _)
    | (with_reducible apply Keep.ite <;> intro _)

theorem kindleService_keep (i : KindleIn) (w : Wall) :
    Keep 0x3046770cff62fe7fe03ec33d6e09fe680001003 w (kindleService i w).2 := by
  unfold kindleService
  try dsimp only
  repeat' first
    | with_reducible apply Keep.refl
    | with_reducible assumption
    | (with_reducible apply Keep.step _ (loadImages_keep ..) _; on_goal 2 => decide)
    | (with_reducible apply Keep.step _ (setSeq_keep ..) _; on_goal 2 => decide)
    | (with_reducible apply Keep.step _ (actJudge_keep ..) _; on_goal 2 => decide)
    | (with_reducible apply Keep.step _ (replayAlmanac_keep ..) _; on_goal 2 => decide)
    | (with_reducible apply Keep.step _ (replayCounts_keep ..) _; on_goal 2 => decide)
    | (with_reducible apply Keep.step _ (sealNow_keep ..) _; on_goal 2 => decide)
    | (with_reducible apply Keep.step _ (replayValues_keep ..) _; on_goal 2 => decide)
    | (with_reducible apply Keep.step _ (kindleObjects_keep ..) _; on_goal 2 => decide)
    | (with_reducible apply Keep.step _ (checkUnits_keep ..) _; on_goal 2 => decide)
    | (with_reducible apply Keep.step _ (set_keep ..) _; on_goal 2 => decide)
    | (with_reducible apply Keep.step _ (releaseSteward_keep ..) _; on_goal 2 => decide)
    | (with_reducible apply Keep.step _ (replayDeviceKey_keep ..) _; on_goal 2 => decide)
    | (with_reducible apply Keep.step _ (noteMove_keep ..) _; on_goal 2 => decide)
    | (with_reducible apply Keep.step _ (resumeSas_keep ..) _; on_goal 2 => decide)
    | (with_reducible apply Keep.step _ (replayKis_keep ..) _; on_goal 2 => decide)
    | (with_reducible apply Keep.step _ (latch_keep ..) _; on_goal 2 => decide)
    | (with_reducible apply Keep.step _ (commitPads_keep ..) _; on_goal 2 => decide)
    | (with_reducible apply Keep.step _ (judgeLayout_keep ..) _; on_goal 2 => decide)
    | (with_reducible apply Keep.step _ (bringUp_keep ..) _; on_goal 2 => decide)
    | (with_reducible apply Keep.upTo; on_goal 2 => intro _ _ _)
    | (with_reducible apply Keep.foldl; on_goal 2 => intro _ _ _)
    | (with_reducible apply modBnd_keep; on_goal 2 => (intro b; refine BoundarySt.Keep.mk .refl .refl (.free (by decide)) .refl .refl .refl .refl .refl .refl .refl .refl .refl .refl .refl .refl .refl .refl .refl .refl .refl .refl (.free (by decide)) .refl (.free (by decide)) (.free (by decide)) .refl (fun ⟨k0, k1, k2⟩ => ?_); constructor <;> dsimp only))
    | (with_reducible apply Keep.ite <;> intro _)
    | split

theorem kindle_keep (i : KindleIn) (w : Wall) :
    Keep 0x3ffffffefffffffffffffffffffffffdc441ff3 w (kindle i w).2 := by
  unfold kindle
  try dsimp only
  repeat' first
    | with_reducible apply Keep.refl
    | with_reducible assumption
    | (with_reducible apply Keep.step _ (zeroiseKindle_keep ..) _; on_goal 2 => decide)
    | (with_reducible apply Keep.step _ (zeroiseEngines_keep ..) _; on_goal 2 => decide)
    | (with_reducible apply Keep.step _ (restoreRetention_keep ..) _; on_goal 2 => decide)
    | (with_reducible apply Keep.step _ (kindleStart_keep ..) _; on_goal 2 => decide)
    | (with_reducible apply Keep.step _ (kindleService_keep ..) _; on_goal 2 => decide)
    | (with_reducible apply Keep.step _ (readBanks_keep ..) _; on_goal 2 => decide)
    | (with_reducible apply Keep.step _ (set_keep ..) _; on_goal 2 => decide)
    | (with_reducible apply Keep.step _ (sealWall_keep ..) _; on_goal 2 => decide)
    | (with_reducible apply Keep.secU; on_goal 2 => (generalize Wall.sec _ = z; revert z; refine id ?_; intro z; refine SecSt.Keep.mk (.free (by decide)) (.free (by decide)) (.free (by decide)) (.free (by decide)) (.free (by decide)) (.free (by decide)) (.free (by decide)) (.free (by decide)) (.free (by decide)) (.free (by decide)) (fun ⟨k0, k1, k2, k3, k4⟩ => ?_); constructor <;> dsimp only))
    | (with_reducible apply modBnd_keep; on_goal 2 => (intro b; refine BoundarySt.Keep.mk (.free (by decide)) (.free (by decide)) (.free (by decide)) .refl .refl .refl .refl .refl (.free (by decide)) .refl .refl .refl (.free (by decide)) .refl .refl .refl (.free (by decide)) (.free (by decide)) (.free (by decide)) .refl (.free (by decide)) (.free (by decide)) (.free (by decide)) (.free (by decide)) (.free (by decide)) (.free (by decide)) (fun ⟨k0, k1, k2⟩ => ?_); constructor <;> dsimp only))
    | split

theorem rootPllLock_keep (i : KindleIn) (m : Mode) (w : Wall) :
    Keep 0x3ffffffefffffffffffffffffffffffdc441ff3 w (rootPllLock i m w).2 := by
  unfold rootPllLock
  try dsimp only
  repeat' first
    | with_reducible apply Keep.refl
    | with_reducible assumption
    | (with_reducible apply Keep.step _ (kindle_keep ..) _; on_goal 2 => decide)
    | (with_reducible apply modBnd_keep; on_goal 2 => (intro b; refine BoundarySt.Keep.mk (.free (by decide)) (.free (by decide)) (.free (by decide)) .refl .refl .refl .refl .refl (.free (by decide)) .refl .refl .refl (.free (by decide)) .refl .refl .refl (.free (by decide)) (.free (by decide)) (.free (by decide)) .refl (.free (by decide)) (.free (by decide)) (.free (by decide)) (.free (by decide)) (.free (by decide)) (.free (by decide)) (fun ⟨k0, k1, k2⟩ => ?_); constructor <;> dsimp only))
    | split

theorem rebuildSteward_keep (n : ℕ) (w : Wall) :
    Keep 0x3046020000000000000000006e0090000000001 w (rebuildSteward n w) := by
  unfold rebuildSteward
  try dsimp only
  repeat' first
    | with_reducible apply Keep.refl
    | with_reducible assumption
    | (with_reducible apply Keep.step _ (endSurvey_keep ..) _; on_goal 2 => decide)
    | (with_reducible apply Keep.step _ (abandon_keep ..) _; on_goal 2 => decide)
    | (with_reducible apply Keep.step _ (enterDetect_keep ..) _; on_goal 2 => decide)
    | (with_reducible apply Keep.foldl; on_goal 2 => intro _ _ _)
    | (with_reducible apply Keep.ite <;> intro _)
    | split

theorem forgetRestart_keep (n : ℕ) (w : Wall) :
    Keep 0x80000000000000000000000000000000000 w (forgetRestart n w) := by
  unfold forgetRestart
  try dsimp only
  repeat' first
    | with_reducible apply Keep.refl
    | with_reducible assumption
    | (with_reducible apply Keep.stwU; on_goal 2 => (generalize Wall.stw _ = z; revert z; refine id ?_; intro z; refine StewardSt.Keep.mk .refl .refl .refl (.free (by decide)) .refl (fun ⟨k0, k1, k2, k3⟩ => ?_); constructor <;> dsimp only))
    | with_reducible apply twf_tdel

theorem forgetSeq_keep (n : ℕ) (w : Wall) :
    Keep 0x400000000000000000000000000000000000 w (forgetSeq n w) := by
  unfold forgetSeq
  try dsimp only
  repeat' first
    | with_reducible apply Keep.refl
    | with_reducible assumption
    | (with_reducible apply Keep.obsU; on_goal 2 => (generalize Wall.obs _ = z; revert z; refine id ?_; intro z; refine ObsSt.Keep.mk .refl (.free (by decide)) .refl .refl .refl .refl .refl .refl .refl .refl .refl (fun ⟨k0, k1, k2, k3, k4, k5, k6, k7, k8⟩ => ?_); constructor <;> dsimp only))
    | with_reducible apply twf_tdel

theorem forgetImage_keep (n : ℕ) (w : Wall) :
    Keep 0x8000000000000000000000000000000 w (forgetImage n w) := by
  unfold forgetImage
  try dsimp only
  repeat' first
    | with_reducible apply Keep.refl
    | with_reducible assumption
    | (with_reducible apply Keep.graU; on_goal 2 => (generalize Wall.gra _ = z; revert z; refine id ?_; intro z; refine GranarySt.Keep.mk .refl .refl .refl .refl .refl .refl .refl .refl .refl .refl .refl .refl (.free (by decide)) .refl .refl .refl .refl .refl .refl .refl .refl (fun ⟨k0, k1, k2, k3, k4, k5, k6, k7, k8⟩ => ?_); constructor <;> dsimp only))
    | with_reducible apply twf_tput

theorem restartLoads_keep (n : ℕ) (cause : ℕ) (w : Wall) :
    Keep 0x490008000000000000000000000000000000 w (restartLoads n cause w) := by
  unfold restartLoads
  try dsimp only
  repeat' first
    | with_reducible apply Keep.refl
    | (with_reducible apply Keep.step _ (forgetRestart_keep ..) _; on_goal 2 => decide)
    | (with_reducible apply Keep.step _ (setSeq_keep ..) _; on_goal 2 => decide)
    | (with_reducible apply Keep.step _ (forgetSeq_keep ..) _; on_goal 2 => decide)
    | (with_reducible apply Keep.step _ (forgetImage_keep ..) _; on_goal 2 => decide)
    | (with_reducible apply Keep.step _ (loadVendor_keep ..) _; on_goal 2 => decide)
    | (with_reducible apply Keep.ite <;> intro _)
    | split

theorem stewardRestartDone_keep (n : ℕ) (w : Wall) :
    Keep 0x3046920080000000000000006e0090000000001 w (stewardRestartDone n w) := by
  unfold stewardRestartDone
  try dsimp only
  repeat' first
    | with_reducible apply Keep.refl
    | (with_reducible apply Keep.step _ (releaseSteward_keep ..) _; on_goal 2 => decide)
    | (with_reducible apply Keep.step _ (bump_keep ..) _; on_goal 2 => decide)
    | (with_reducible apply Keep.step _ (restartLoads_keep ..) _; on_goal 2 => decide)
    | (with_reducible apply Keep.step _ (rebuildSteward_keep ..) _; on_goal 2 => decide)
    | (with_reducible apply Keep.step _ (raise_keep ..) _; on_goal 2 => decide)
    | (with_reducible apply Keep.step _ (set_keep ..) _; on_goal 2 => decide)
    | split

end Sys2Proof.Machine
end

