-- ==== Sys2Proof/Laws/KeepEvents.lean ====
section
/-! SUPPORT. What each operation of Machine/Events.lean may change. -/

set_option linter.unusedTactic false
set_option linter.unreachableTactic false

open Sys2Proof

namespace Sys2Proof.Machine

theorem settleFault_keep (m : Mode) (w : Wall) :
    Keep 0x2047073d2ff8005f6038031c6a09bf200003003 w (settleFault m w).2 := by
  unfold settleFault
  try dsimp only
  repeat' first
    | with_reducible apply Keep.refl
    | with_reducible assumption
    | (with_reducible apply Keep.step _ (reeveRestart_keep ..) _; on_goal 2 => decide)
    | (with_reducible apply Keep.stwU; on_goal 2 => (generalize Wall.stw _ = z; revert z; refine id ?_; intro z; refine StewardSt.Keep.mk .refl .refl .refl .refl (.free (by decide)) (fun ⟨k0, k1, k2, k3⟩ => ?_); constructor <;> dsimp only))
    | split

theorem reflanePin_keep (b : ℕ) (present : Bool) (w : Wall) :
    Keep 0x2000001 w (reflanePin b present w) := by
  unfold reflanePin
  try dsimp only
  repeat' first
    | with_reducible apply Keep.refl
    | with_reducible assumption
    | (with_reducible apply Keep.step _ (set_keep ..) _; on_goal 2 => decide)
    | (with_reducible apply modBnd_keep; on_goal 2 => (intro b; refine BoundarySt.Keep.mk .refl .refl .refl .refl .refl .refl .refl .refl .refl .refl .refl .refl .refl .refl .refl (.free (by decide)) .refl .refl .refl .refl .refl .refl .refl .refl .refl .refl (fun ⟨k0, k1, k2⟩ => ?_); constructor <;> dsimp only))

theorem reflaneEvent_keep (b : ℕ) (present : Bool) (m : Mode) (w : Wall) :
    Keep 0x304603000000005f6038031c6e0090002000003 w (reflaneEvent b present m w) := by
  unfold reflaneEvent
  try dsimp only
  repeat' first
    | with_reducible apply Keep.refl
    | (with_reducible apply Keep.step _ (reflaneRestored_keep ..) _; on_goal 2 => decide)
    | (with_reducible apply Keep.step _ (reflaneLoss_keep ..) _; on_goal 2 => decide)
    | (with_reducible apply Keep.step _ (reflanePin_keep ..) _; on_goal 2 => decide)
    | (with_reducible apply Keep.ite <;> intro _)

theorem pfailEvent_keep (m : Mode) (w : Wall) :
    Keep 0x60200090000000000000000000004004c001 w (pfailEvent m w) := by
  unfold pfailEvent
  try dsimp only
  repeat' first
    | with_reducible apply Keep.refl
    | with_reducible assumption
    | (with_reducible apply Keep.step _ (setShut_keep ..) _; on_goal 2 => decide)
    | (with_reducible apply Keep.step _ (pfailAccept_keep ..) _; on_goal 2 => decide)
    | (with_reducible apply modBnd_keep; on_goal 2 => (intro b; refine BoundarySt.Keep.mk .refl .refl .refl .refl (.free (by decide)) (.free (by decide)) .refl .refl (.free (by decide)) .refl .refl .refl .refl .refl .refl .refl .refl .refl .refl .refl (.free (by decide)) .refl .refl .refl .refl .refl (fun ⟨k0, k1, k2⟩ => ?_); constructor <;> dsimp only))
    | (with_reducible apply Keep.ite <;> intro _)

theorem pfailDrainEvent_keep (m : Mode) (w : Wall) :
    Keep 0x2006023d2ff80000000000000000b0000080001 w (pfailDrainEvent m w) := by
  unfold pfailDrainEvent
  try dsimp only
  repeat' first
    | with_reducible apply Keep.refl
    | (with_reducible apply Keep.step _ (pfailDrained_keep ..) _; on_goal 2 => decide)
    | (with_reducible apply Keep.step _ (setInhibit_keep ..) _; on_goal 2 => decide)
    | (with_reducible apply Keep.ite <;> intro _)

theorem pfailReopenEvent_keep (m : Mode) (w : Wall) :
    Keep 0xb000000000000000000000000cc000 w (pfailReopenEvent m w) := by
  unfold pfailReopenEvent
  try dsimp only
  repeat' first
    | with_reducible apply Keep.refl
    | with_reducible assumption
    | (with_reducible apply Keep.step _ (setShut_keep ..) _; on_goal 2 => decide)
    | (with_reducible apply Keep.step _ (pfailReopen_keep ..) _; on_goal 2 => decide)
    | (with_reducible apply Keep.step _ (setInhibit_keep ..) _; on_goal 2 => decide)
    | (with_reducible apply modBnd_keep; on_goal 2 => (intro b; refine BoundarySt.Keep.mk .refl .refl .refl .refl (.free (by decide)) (.free (by decide)) .refl .refl (.free (by decide)) (.free (by decide)) .refl .refl .refl .refl .refl .refl .refl .refl .refl .refl .refl .refl .refl .refl .refl .refl (fun ⟨k0, k1, k2⟩ => ?_); constructor <;> dsimp only))
    | (with_reducible apply Keep.ite <;> intro _)

theorem cdrLock_keep (l : Lane) (w : Wall) :
    Keep 0x20000000000001 w (cdrLock l w) := by
  unfold cdrLock
  try dsimp only
  repeat' first
    | with_reducible apply Keep.refl
    | (with_reducible apply Keep.step _ (modLane_keep ..) _; on_goal 2 => decide)
    | (with_reducible apply Keep.step _ (setB_keep ..) _; on_goal 2 => decide)

theorem lostLane_keep (l : Lane) (w : Wall) :
    Keep 0x304643000000005f6038031c7e0090000000003 w (lostLane l w) := by
  unfold lostLane
  try dsimp only
  repeat' first
    | with_reducible apply Keep.refl
    | (with_reducible apply Keep.step _ (laneFault_keep ..) _; on_goal 2 => decide)
    | (with_reducible apply Keep.ite <;> intro _)

theorem cdrLockLoss_keep (l : Lane) (slip : Bool) (w : Wall) :
    Keep 0x304643000000005f6038031c7e0090000000003 w (cdrLockLoss l slip w) := by
  unfold cdrLockLoss
  try dsimp only
  repeat' first
    | with_reducible apply Keep.refl
    | with_reducible assumption
    | (with_reducible apply Keep.step _ (bump_keep ..) _; on_goal 2 => decide)
    | (with_reducible apply Keep.step _ (lostLane_keep ..) _; on_goal 2 => decide)
    | (with_reducible apply Keep.step _ (fail_keep ..) _; on_goal 2 => decide)
    | (with_reducible apply Keep.step _ (setB_keep ..) _; on_goal 2 => decide)
    | (with_reducible apply Keep.step _ (eyeSuspend_keep ..) _; on_goal 2 => decide)
    | (with_reducible apply Keep.when; on_goal 2 => intro _ _)
    | (with_reducible apply Keep.ite <;> intro _)
    | split

theorem signalLoss_keep (l : Lane) (w : Wall) :
    Keep 0x304643000000005f6038031c7e0090000000003 w (signalLoss l w) := by
  unfold signalLoss
  try dsimp only
  repeat' first
    | with_reducible apply Keep.refl
    | (with_reducible apply Keep.step _ (fail_keep ..) _; on_goal 2 => decide)
    | (with_reducible apply Keep.step _ (setB_keep ..) _; on_goal 2 => decide)
    | (with_reducible apply Keep.step _ (lostLane_keep ..) _; on_goal 2 => decide)
    | (with_reducible apply Keep.ite <;> intro _)

theorem gossipBad_keep (l : Lane) (w : Wall) :
    Keep 0x1802000000000000000000000000000000001 w (gossipBad l w) := by
  unfold gossipBad
  try dsimp only
  repeat' first
    | with_reducible apply Keep.refl
    | (with_reducible apply Keep.step _ (bump_keep ..) _; on_goal 2 => decide)
    | (with_reducible apply Keep.step _ (pcCount_keep ..) _; on_goal 2 => decide)

theorem gossipLoss_keep (l : Lane) (w : Wall) :
    Keep 0x304643000000005f6038031c7e0090000000003 w (gossipLoss l w) := by
  unfold gossipLoss
  try dsimp only
  repeat' first
    | with_reducible apply Keep.refl
    | (with_reducible apply Keep.step _ (laneFault_keep ..) _; on_goal 2 => decide)
    | (with_reducible apply Keep.ite <;> intro _)

theorem fecWindow_keep (sp : SubPort) (roleCorrected : List ℕ) (codewords : ℕ) (corrected : ℕ) (uncorrectable : ℕ) (w : Wall) :
    Keep 0x305e43000000005f6038031c7e0090000000003 w (fecWindow sp roleCorrected codewords corrected uncorrectable w) := by
  unfold fecWindow
  try dsimp only
  repeat' first
    | with_reducible apply Keep.refl
    | with_reducible assumption
    | (with_reducible apply Keep.step _ (laneFault_keep ..) _; on_goal 2 => decide)
    | (with_reducible apply Keep.step _ (fecCount_keep ..) _; on_goal 2 => decide)
    | (with_reducible apply Keep.step _ (latch_keep ..) _; on_goal 2 => decide)
    | (with_reducible apply Keep.foldl; on_goal 2 => intro _ _ _)
    | (with_reducible apply Keep.ite <;> intro _)
    | split

theorem headerTimeout_keep (sp : ℕ) (w : Wall) :
    Keep 0x304603000000005f6038031c6e0090000000003 w (headerTimeout sp w) := by
  unfold headerTimeout
  try dsimp only
  repeat' first
    | with_reducible apply Keep.refl
    | (with_reducible apply Keep.step _ (headerLockBack_keep ..) _; on_goal 2 => decide)
    | (with_reducible apply Keep.step _ (downRetrain_keep ..) _; on_goal 2 => decide)
    | (with_reducible apply Keep.ite <;> intro _)

theorem hiBer_keep (sp : ℕ) (w : Wall) :
    Keep 0x304603000000005f6038031c6e0090000000003 w (hiBer sp w) := by
  unfold hiBer
  try dsimp only
  repeat' first
    | with_reducible apply Keep.refl
    | (with_reducible apply Keep.step _ (downRetrain_keep ..) _; on_goal 2 => decide)
    | (with_reducible apply Keep.ite <;> intro _)

theorem partnerTimeout_keep (p : ℕ) (w : Wall) :
    Keep 0x304603000000005f6038031e6e0090000000003 w (partnerTimeout p w) := by
  unfold partnerTimeout
  try dsimp only
  repeat' first
    | with_reducible apply Keep.refl
    | with_reducible assumption
    | (with_reducible apply Keep.step _ (setQuiet_keep ..) _; on_goal 2 => decide)
    | (with_reducible apply Keep.step _ (downRetrain_keep ..) _; on_goal 2 => decide)
    | (with_reducible apply Keep.foldl; on_goal 2 => intro _ _ _)
    | (with_reducible apply Keep.ite <;> intro _)

theorem roundPeriod_keep (w : Wall) :
    Keep 0xa00000000000001 w (roundPeriod w) := by
  unfold roundPeriod
  try dsimp only
  repeat' first
    | with_reducible apply Keep.refl
    | (with_reducible apply Keep.step _ (startRound_keep ..) _; on_goal 2 => decide)
    | (with_reducible apply Keep.ite <;> intro _)

theorem changeCommit_keep (index : ℕ) (sub : ℕ) (w : Wall) :
    Keep 0xb00000000000000000000000000000 w (changeCommit index sub w) := by
  unfold changeCommit
  try dsimp only
  repeat' first
    | with_reducible apply Keep.refl
    | (with_reducible apply Keep.step _ (askLedger_keep ..) _; on_goal 2 => decide)
    | (with_reducible apply Keep.ite <;> intro _)
    | split

theorem selftestHead_keep (failedRow : ℕ) (m : Mode) (w : Wall) :
    Keep 0x33cedf0c6f626edfe23ee33eee0fffa04001283 w (selftestHead failedRow m w).2 := by
  unfold selftestHead
  try dsimp only
  repeat' first
    | with_reducible apply Keep.refl
    | (with_reducible apply Keep.step _ (sealNow_keep ..) _; on_goal 2 => decide)
    | (with_reducible apply Keep.step _ (serveIf_keep ..) _; on_goal 2 => decide)
    | (with_reducible apply Keep.step _ (set_keep ..) _; on_goal 2 => decide)
    | split

theorem zeroiseHead_keep (m : Mode) (w : Wall) :
    Keep 0x33cedf004f626edfe23ee33eee0ffd804000283 w (zeroiseHead m w) := by
  unfold zeroiseHead
  try dsimp only
  repeat' first
    | with_reducible apply Keep.refl
    | (with_reducible apply Keep.step _ (zeroiseStart_keep ..) _; on_goal 2 => decide)
    | (with_reducible apply Keep.step _ (serveOwn_keep ..) _; on_goal 2 => decide)
    | (with_reducible apply Keep.ite <;> intro _)

theorem modeHead_keep (o : Own) (m : Mode) (w : Wall) :
    Keep 0x33cfdfbd6ffa6edfe23ee33eee0fffa04003283 w (modeHead o m w).2 := by
  unfold modeHead
  try dsimp only
  repeat' first
    | with_reducible apply Keep.refl
    | (with_reducible apply Keep.step _ (dueMove_keep ..) _; on_goal 2 => decide)
    | (with_reducible apply Keep.step _ (serveOwn_keep ..) _; on_goal 2 => decide)

theorem commitEvent_keep (bad : Option (Fin 2)) (m : Mode) (w : Wall) :
    Keep 0x2006023d2ff80200000000000000b4000000003 w (commitEvent bad m w) := by
  unfold commitEvent
  try dsimp only
  repeat' first
    | with_reducible apply Keep.refl
    | (with_reducible apply Keep.step _ (settle_keep ..) _; on_goal 2 => decide)
    | (with_reducible apply Keep.step _ (sheafCommit_keep ..) _; on_goal 2 => decide)

theorem dclkCounts_keep (b : ℕ) (w : Wall) :
    Keep 0x1802000000000000000000000000000000001 w (dclkCounts b w) := by
  unfold dclkCounts
  try dsimp only
  repeat' first
    | with_reducible apply Keep.refl
    | with_reducible assumption
    | (with_reducible apply Keep.step _ (pcAdd_keep ..) _; on_goal 2 => decide)
    | (with_reducible apply Keep.upTo; on_goal 2 => intro _ _ _)
    | (with_reducible apply Keep.ite <;> intro _)

theorem secondTick_keep (w : Wall) :
    Keep 0x1 w (secondTick w) := by
  unfold secondTick
  try dsimp only
  repeat' first
    | with_reducible apply Keep.refl
    | (with_reducible apply Keep.step _ (bump_keep ..) _; on_goal 2 => decide)
    | (with_reducible apply Keep.step _ (set_keep ..) _; on_goal 2 => decide)

theorem tick_keep (m : Mode) (w : Wall) :
    Keep 0x301803000000005c6000000201000000080001f w (tick m w) := by
  unfold tick
  try dsimp only
  repeat' first
    | with_reducible apply Keep.refl
    | with_reducible assumption
    | (with_reducible apply Keep.step _ (inbandTick_keep ..) _; on_goal 2 => decide)
    | (with_reducible apply Keep.step _ (secondTick_keep ..) _; on_goal 2 => decide)
    | (with_reducible apply Keep.step _ (tickTime_keep ..) _; on_goal 2 => decide)
    | (with_reducible apply Keep.step _ (dclkCounts_keep ..) _; on_goal 2 => decide)
    | (with_reducible apply Keep.upTo; on_goal 2 => intro _ _ _)
    | (with_reducible apply modBnd_keep; on_goal 2 => (intro b; refine BoundarySt.Keep.mk .refl .refl .refl .refl .refl .refl .refl .refl .refl .refl .refl .refl .refl (.free (by decide)) .refl .refl .refl .refl .refl .refl .refl .refl .refl .refl .refl .refl (fun ⟨k0, k1, k2⟩ => ?_); constructor <;> dsimp only))
    | (with_reducible apply Keep.timeU; on_goal 2 => (generalize Wall.time _ = z; revert z; refine id ?_; intro z; refine TimeSt.Keep.mk (.free (by decide)) (.free (by decide)) (.free (by decide)) .refl .refl .refl .refl .refl (fun ⟨k0, k1, k2⟩ => ?_); constructor <;> dsimp only))
    | (with_reducible apply Keep.ite <;> intro _)

end Sys2Proof.Machine
end

