-- ==== Sys2Proof/Laws/KeepCmdWall.lean ====
section
/-! SUPPORT. What each command of Machine/CmdWall.lean may change. -/

set_option linter.unusedTactic false
set_option linter.unreachableTactic false

open Sys2Proof

namespace Sys2Proof.Machine

/-- A command's outcome: a next state that keeps the queue, changes the wall inside a mask only, and keeps the mode
unless the command is one that may move it. -/
def Confined (mv : Bool) (m : Nat) (s : State) (o : Outcome) : Prop :=
  ∃ t, o = .next t ∧ t.pending = s.pending ∧ (mv = false → t.mode = s.mode) ∧ Keep m s.w t.w

theorem act_kept {m : Nat} {f : Wall → Wall} {s : State} (h : Keep m s.w (f s.w)) : Confined false m s (act f s) :=
  ⟨_, rfl, rfl, fun _ => rfl, h⟩
theorem actM_kept {m : Nat} {f : Mode → Wall → Wall} {s : State} (h : Keep m s.w (f s.mode s.w)) :
    Confined false m s (actM f s) := ⟨_, rfl, rfl, fun _ => rfl, h⟩
theorem actIf_kept {m : Nat} {g : Mode → Wall → Bool} {f : Wall → Wall} {s : State} (h : Keep m s.w (f s.w)) :
    Confined false m s (actIf g f s) := ⟨_, rfl, rfl, fun _ => rfl, Keep.ite (fun _ => h) (fun _ => .refl)⟩
theorem actIfM_kept {m : Nat} {g : Mode → Wall → Bool} {f : Mode → Wall → Wall} {s : State}
    (h : Keep m s.w (f s.mode s.w)) : Confined false m s (actIfM g f s) :=
  ⟨_, rfl, rfl, fun _ => rfl, Keep.ite (fun _ => h) (fun _ => .refl)⟩
theorem actSeq_kept {m : Nat} {f : Mode → Wall → Wall} {s : State} (h : Keep m s.w (f s.mode s.w)) :
    Confined false m s (actSeq f s) := actIfM_kept h
theorem actMove_kept {m : Nat} {f : Mode → Wall → Mode × Wall} {s : State} (h : Keep m s.w (f s.mode s.w).2) :
    Confined true m s (actMove f s) := ⟨_, rfl, rfl, fun e => absurd e (by decide), h⟩
theorem actSeqF_kept {m : Nat} {f : Mode → Wall → Wall} {s : State}
    (h : Keep m s.w (settleFault s.mode (f s.mode s.w)).2) : Confined true m s (actSeqF f s) := by
  refine ⟨_, rfl, rfl, fun e => absurd e (by decide), ?_⟩
  dsimp only
  split
  · exact h
  · exact .refl

theorem execPowerGood_kept (reflanes : ℕ) (s : State) :
    Confined true 0xfffff7e9f877ffffffffffffffffffde3ffff3 s (execPowerGood reflanes s) := by
  unfold execPowerGood
  apply actMove_kept
  try dsimp only
  repeat' first
    | with_reducible apply Keep.refl
    | with_reducible assumption
    | (with_reducible apply Keep.step _ (powerGood_keep ..) _; on_goal 2 => decide)
    | (with_reducible apply Keep.ite <;> intro _)
    | split

theorem execRootPllLock_kept (k : KindleIn) (s : State) :
    Confined true 0x3ffffffefffffffffffffffffffffffdc441ff3 s (execRootPllLock k s) := by
  unfold execRootPllLock
  apply actMove_kept
  try dsimp only
  repeat' first
    | with_reducible apply Keep.refl
    | with_reducible assumption
    | (with_reducible apply Keep.step _ (rootPllLock_keep ..) _; on_goal 2 => decide)
    | (with_reducible apply Keep.ite <;> intro _)
    | split

theorem execRefcoreLoss_kept (s : State) :
    Confined true 0x2046033d2ff8005f6038031c6a00b0200043803 s (execRefcoreLoss s) := by
  unfold execRefcoreLoss
  apply actMove_kept
  try dsimp only
  repeat' first
    | with_reducible apply Keep.refl
    | with_reducible assumption
    | (with_reducible apply Keep.step _ (refcoreLoss_keep ..) _; on_goal 2 => decide)
    | (with_reducible apply Keep.ite <;> intro _)
    | split

theorem execRefcoreRestored_kept (s : State) :
    Confined false 0x762660000000000000000000041801 s (execRefcoreRestored s) := by
  unfold execRefcoreRestored
  apply actM_kept
  try dsimp only
  repeat' first
    | with_reducible apply Keep.refl
    | with_reducible assumption
    | (with_reducible apply Keep.step _ (refcoreRestored_keep ..) _; on_goal 2 => decide)
    | (with_reducible apply Keep.ite <;> intro _)
    | split

theorem execReflaneLoss_kept (b : Brick) (s : State) :
    Confined false 0x304603000000005f6038031c6e0090002000003 s (execReflaneLoss b s) := by
  unfold execReflaneLoss
  apply actM_kept
  try dsimp only
  repeat' first
    | with_reducible apply Keep.refl
    | with_reducible assumption
    | (with_reducible apply Keep.step _ (reflaneEvent_keep ..) _; on_goal 2 => decide)
    | (with_reducible apply Keep.ite <;> intro _)
    | split

theorem execReflaneRestored_kept (b : Brick) (s : State) :
    Confined false 0x304603000000005f6038031c6e0090002000003 s (execReflaneRestored b s) := by
  unfold execReflaneRestored
  apply actM_kept
  try dsimp only
  repeat' first
    | with_reducible apply Keep.refl
    | with_reducible assumption
    | (with_reducible apply Keep.step _ (reflaneEvent_keep ..) _; on_goal 2 => decide)
    | (with_reducible apply Keep.ite <;> intro _)
    | split

theorem execPfailAccept_kept (s : State) :
    Confined false 0x60200090000000000000000000004004c001 s (execPfailAccept s) := by
  unfold execPfailAccept
  apply actM_kept
  try dsimp only
  repeat' first
    | with_reducible apply Keep.refl
    | with_reducible assumption
    | (with_reducible apply Keep.step _ (pfailEvent_keep ..) _; on_goal 2 => decide)
    | (with_reducible apply Keep.ite <;> intro _)
    | split

theorem execPfailDrainDone_kept (s : State) :
    Confined false 0x2006023d2ff80000000000000000b0000080001 s (execPfailDrainDone s) := by
  unfold execPfailDrainDone
  apply actM_kept
  try dsimp only
  repeat' first
    | with_reducible apply Keep.refl
    | with_reducible assumption
    | (with_reducible apply Keep.step _ (pfailDrainEvent_keep ..) _; on_goal 2 => decide)
    | (with_reducible apply Keep.ite <;> intro _)
    | split

theorem execPfailNRise_kept (s : State) :
    Confined false 0x8000 s (execPfailNRise s) := by
  unfold execPfailNRise
  apply actIf_kept
  try dsimp only
  repeat' first
    | with_reducible apply Keep.refl
    | with_reducible assumption
    | (with_reducible apply Keep.step _ (pfailRise_keep ..) _; on_goal 2 => decide)
    | (with_reducible apply Keep.ite <;> intro _)
    | split

theorem execPfailReopen_kept (s : State) :
    Confined false 0xb000000000000000000000000cc000 s (execPfailReopen s) := by
  unfold execPfailReopen
  apply actM_kept
  try dsimp only
  repeat' first
    | with_reducible apply Keep.refl
    | with_reducible assumption
    | (with_reducible apply Keep.step _ (pfailReopenEvent_keep ..) _; on_goal 2 => decide)
    | (with_reducible apply Keep.ite <;> intro _)
    | split

theorem execWakeAccept_kept (s : State) :
    Confined false 0x200000000000000000000000000000000200000 s (execWakeAccept s) := by
  unfold execWakeAccept
  apply actM_kept
  try dsimp only
  repeat' first
    | with_reducible apply Keep.refl
    | with_reducible assumption
    | (with_reducible apply Keep.step _ (wakeAccept_keep ..) _; on_goal 2 => decide)
    | (with_reducible apply Keep.ite <;> intro _)
    | split

theorem execZeroiseAccept_kept (s : State) :
    Confined false 0x204603000762665f6038031c6a0190000600003 s (execZeroiseAccept s) := by
  unfold execZeroiseAccept
  apply actM_kept
  try dsimp only
  repeat' first
    | with_reducible apply Keep.refl
    | with_reducible assumption
    | (with_reducible apply Keep.step _ (zeroiseAccept_keep ..) _; on_goal 2 => decide)
    | (with_reducible apply Keep.ite <;> intro _)
    | split

theorem execVcoreRemoved_kept (s : State) :
    Confined true 0xffffffe9f877ffffffffffffffffffdc041ff3 s (execVcoreRemoved s) := by
  unfold execVcoreRemoved
  apply actMove_kept
  try dsimp only
  repeat' first
    | with_reducible apply Keep.refl
    | with_reducible assumption
    | (with_reducible apply Keep.step _ (vcoreRemoved_keep ..) _; on_goal 2 => decide)
    | (with_reducible apply Keep.ite <;> intro _)
    | split

theorem execTargetAccessError_kept (offset : ℕ) (size : ℕ) (s : State) :
    Confined false 0x200000000000000000000000000000000000000 s (execTargetAccessError offset size s) := by
  unfold execTargetAccessError
  apply actM_kept
  try dsimp only
  repeat' first
    | with_reducible apply Keep.refl
    | with_reducible assumption
    | (with_reducible apply Keep.step _ (accessError_keep ..) _; on_goal 2 => decide)
    | (with_reducible apply Keep.ite <;> intro _)
    | split

theorem execUnmappedAccess_kept (a0 : Bool) (offset : ℕ) (s : State) :
    Confined false 0x1 s (execUnmappedAccess a0 offset s) := by
  unfold execUnmappedAccess
  apply actM_kept
  try dsimp only
  repeat' first
    | with_reducible apply Keep.refl
    | with_reducible assumption
    | (with_reducible apply Keep.step _ (unmapped_keep ..) _; on_goal 2 => decide)
    | (with_reducible apply Keep.ite <;> intro _)
    | split

theorem execHostWindowWrite_kept (offset : ℕ) (size : ℕ) (value : ℕ) (s : State) :
    Confined false 0x30004b0000000010a207c0000000f1004000003 s (execHostWindowWrite offset size value s) := by
  unfold execHostWindowWrite
  apply actM_kept
  try dsimp only
  repeat' first
    | with_reducible apply Keep.refl
    | with_reducible assumption
    | (with_reducible apply Keep.step _ (targetWrite_keep ..) _; on_goal 2 => decide)
    | (with_reducible apply Keep.ite <;> intro _)
    | split

theorem execReadCompletion_kept (tag : Fin 512) (s : State) :
    Confined false 0x20000b000000001000000000000000004000003 s (execReadCompletion tag s) := by
  unfold execReadCompletion
  apply actIf_kept
  try dsimp only
  repeat' first
    | with_reducible apply Keep.refl
    | with_reducible assumption
    | (with_reducible apply Keep.step _ (readCompletion_keep ..) _; on_goal 2 => decide)
    | (with_reducible apply Keep.ite <;> intro _)
    | split

theorem execReadTagTimeout_kept (tag : Fin 512) (s : State) :
    Confined false 0x200007000000001000000000000000004000003 s (execReadTagTimeout tag s) := by
  unfold execReadTagTimeout
  apply actIf_kept
  try dsimp only
  repeat' first
    | with_reducible apply Keep.refl
    | with_reducible assumption
    | (with_reducible apply Keep.step _ (tagTimeout_keep ..) _; on_goal 2 => decide)
    | (with_reducible apply Keep.ite <;> intro _)
    | split

theorem execTagQuarantineEnd_kept (tag : Fin 512) (s : State) :
    Confined false 0x20000b000000001000000000000000004000003 s (execTagQuarantineEnd tag s) := by
  unfold execTagQuarantineEnd
  apply actIf_kept
  try dsimp only
  repeat' first
    | with_reducible apply Keep.refl
    | with_reducible assumption
    | (with_reducible apply Keep.step _ (quarantineEnd_keep ..) _; on_goal 2 => decide)
    | (with_reducible apply Keep.ite <;> intro _)
    | split

theorem execCreditReturn_kept (c : Course) (n : ℕ) (s : State) :
    Confined false 0x602000000000000000000000000010000001 s (execCreditReturn c n s) := by
  unfold execCreditReturn
  apply actIf_kept
  try dsimp only
  repeat' first
    | with_reducible apply Keep.refl
    | with_reducible assumption
    | (with_reducible apply Keep.step _ (creditReturn_keep ..) _; on_goal 2 => decide)
    | (with_reducible apply Keep.ite <;> intro _)
    | split

theorem execCreditInit_kept (c : Course) (value : ℕ) (s : State) :
    Confined false 0x602000000000000000000000000018000001 s (execCreditInit c value s) := by
  unfold execCreditInit
  apply actIf_kept
  try dsimp only
  repeat' first
    | with_reducible apply Keep.refl
    | with_reducible assumption
    | (with_reducible apply Keep.step _ (creditInit_keep ..) _; on_goal 2 => decide)
    | (with_reducible apply Keep.ite <;> intro _)
    | split

theorem execCreditWordInvalid_kept (c : Course) (value : ℕ) (s : State) :
    Confined false 0x602000000000000000000000000000000001 s (execCreditWordInvalid c value s) := by
  unfold execCreditWordInvalid
  apply actIf_kept
  try dsimp only
  repeat' first
    | with_reducible apply Keep.refl
    | with_reducible assumption
    | (with_reducible apply Keep.step _ (creditLog_keep ..) _; on_goal 2 => decide)
    | (with_reducible apply Keep.ite <;> intro _)
    | split

theorem execEgressCell_kept (p : Port) (cell : PipeCell) (s : State) :
    Confined false 0x300603000000005f70001002000090000000003 s (execEgressCell p cell s) := by
  unfold execEgressCell
  apply actIf_kept
  try dsimp only
  repeat' first
    | with_reducible apply Keep.refl
    | with_reducible assumption
    | (with_reducible apply Keep.step _ (egressCell_keep ..) _; on_goal 2 => decide)
    | (with_reducible apply Keep.ite <;> intro _)
    | split

theorem execDecisionArrive_kept (b : Brick) (handle : ℕ) (result : ℕ) (status : ℕ) (s : State) :
    Confined false 0x1e03000000000010800200000000000000001 s (execDecisionArrive b handle result status s) := by
  unfold execDecisionArrive
  apply actIf_kept
  try dsimp only
  repeat' first
    | with_reducible apply Keep.refl
    | with_reducible assumption
    | (with_reducible apply Keep.step _ (decisionArrive_keep ..) _; on_goal 2 => decide)
    | (with_reducible apply Keep.ite <;> intro _)
    | split

theorem execDecisionTimeout_kept (b : Brick) (handle : ℕ) (s : State) :
    Confined false 0x1000000000001000200000000000000001 s (execDecisionTimeout b handle s) := by
  unfold execDecisionTimeout
  apply actIf_kept
  try dsimp only
  repeat' first
    | with_reducible apply Keep.refl
    | with_reducible assumption
    | (with_reducible apply Keep.step _ (decisionTimeout_keep ..) _; on_goal 2 => decide)
    | (with_reducible apply Keep.ite <;> intro _)
    | split

theorem execFlushSpIssue_kept (b : Brick) (s : State) :
    Confined false 0x200000000000000000380000000000000000000 s (execFlushSpIssue b s) := by
  unfold execFlushSpIssue
  apply actIf_kept
  try dsimp only
  repeat' first
    | with_reducible apply Keep.refl
    | with_reducible assumption
    | (with_reducible apply Keep.step _ (flushIssue_keep ..) _; on_goal 2 => decide)
    | (with_reducible apply Keep.ite <;> intro _)
    | split

theorem execFlushSpComplete_kept (b : Brick) (tag : ℕ) (s : State) :
    Confined false 0x200000000000000000380000000000000000000 s (execFlushSpComplete b tag s) := by
  unfold execFlushSpComplete
  apply actIf_kept
  try dsimp only
  repeat' first
    | with_reducible apply Keep.refl
    | with_reducible assumption
    | (with_reducible apply Keep.step _ (flushComplete_keep ..) _; on_goal 2 => decide)
    | (with_reducible apply Keep.ite <;> intro _)
    | split

theorem execFlushSpOverdue_kept (b : Brick) (tag : ℕ) (s : State) :
    Confined false 0x602000000000000000000000000000000001 s (execFlushSpOverdue b tag s) := by
  unfold execFlushSpOverdue
  apply actIf_kept
  try dsimp only
  repeat' first
    | with_reducible apply Keep.refl
    | with_reducible assumption
    | (with_reducible apply Keep.step _ (flushOverdue_keep ..) _; on_goal 2 => decide)
    | (with_reducible apply Keep.ite <;> intro _)
    | split

theorem execLookupSearch_kept (s : State) :
    Confined false 0x33cedf004f626edfe23ee33eee0efd804000283 s (execLookupSearch s) := by
  unfold execLookupSearch
  apply actM_kept
  try dsimp only
  repeat' first
    | with_reducible apply Keep.refl
    | with_reducible assumption
    | (with_reducible apply Keep.step _ (serveOwn_keep ..) _; on_goal 2 => decide)
    | (with_reducible apply Keep.ite <;> intro _)
    | split

theorem execLookupNext_kept (s : State) :
    Confined false 0x33cedf004f626edfe23ee33eee0efd804000283 s (execLookupNext s) := by
  unfold execLookupNext
  apply actM_kept
  try dsimp only
  repeat' first
    | with_reducible apply Keep.refl
    | with_reducible assumption
    | (with_reducible apply Keep.step _ (serveOwn_keep ..) _; on_goal 2 => decide)
    | (with_reducible apply Keep.ite <;> intro _)
    | split

theorem execLookupComplete_kept (b : Brick) (tag : ℕ) (hit : Bool) (answer : ℕ) (s : State) :
    Confined false 0x200002000000000000380000000094000000003 s (execLookupComplete b tag hit answer s) := by
  unfold execLookupComplete
  apply actIf_kept
  try dsimp only
  repeat' first
    | with_reducible apply Keep.refl
    | with_reducible assumption
    | (with_reducible apply Keep.step _ (lookupComplete_keep ..) _; on_goal 2 => decide)
    | (with_reducible apply Keep.ite <;> intro _)
    | split

theorem execLookupTimeout_kept (b : Brick) (tag : ℕ) (s : State) :
    Confined false 0x200002000000000000080000000094000000003 s (execLookupTimeout b tag s) := by
  unfold execLookupTimeout
  apply actIf_kept
  try dsimp only
  repeat' first
    | with_reducible apply Keep.refl
    | with_reducible assumption
    | (with_reducible apply Keep.step _ (lookupTimeout_keep ..) _; on_goal 2 => decide)
    | (with_reducible apply Keep.ite <;> intro _)
    | split

theorem execWaitingChange_kept (p : Port) (level : Bool) (s : State) :
    Confined false 0x20000001 s (execWaitingChange p level s) := by
  unfold execWaitingChange
  apply actIf_kept
  try dsimp only
  repeat' first
    | with_reducible apply Keep.refl
    | with_reducible assumption
    | (with_reducible apply Keep.step _ (waitingChange_keep ..) _; on_goal 2 => decide)
    | (with_reducible apply Keep.ite <;> intro _)
    | split

theorem execAvsStep_kept (s : State) :
    Confined false 0x2000000000000000000000000000000c0000000 s (execAvsStep s) := by
  unfold execAvsStep
  apply actIfM_kept
  try dsimp only
  repeat' first
    | with_reducible apply Keep.refl
    | with_reducible assumption
    | (with_reducible apply Keep.step _ (avsStep_keep ..) _; on_goal 2 => decide)
    | (with_reducible apply Keep.ite <;> intro _)
    | split

theorem execAvsAnswer_kept (ack : Bool) (s : State) :
    Confined false 0x2000b000000000000000000001c0000001 s (execAvsAnswer ack s) := by
  unfold execAvsAnswer
  apply actIf_kept
  try dsimp only
  repeat' first
    | with_reducible apply Keep.refl
    | with_reducible assumption
    | (with_reducible apply Keep.step _ (avsAnswer_keep ..) _; on_goal 2 => decide)
    | (with_reducible apply Keep.ite <;> intro _)
    | split

theorem execAvsAnswerTimeout_kept (s : State) :
    Confined false 0x6020000000000000000000000001c0000001 s (execAvsAnswerTimeout s) := by
  unfold execAvsAnswerTimeout
  apply actIf_kept
  try dsimp only
  repeat' first
    | with_reducible apply Keep.refl
    | with_reducible assumption
    | (with_reducible apply Keep.step _ (avsTimeout_keep ..) _; on_goal 2 => decide)
    | (with_reducible apply Keep.ite <;> intro _)
    | split

theorem execTjAlarm_kept (sensor : Fin 5) (reading : ℤ) (s : State) :
    Confined false 0x42000000000000000000000000000000001 s (execTjAlarm sensor reading s) := by
  unfold execTjAlarm
  apply actIf_kept
  try dsimp only
  repeat' first
    | with_reducible apply Keep.refl
    | with_reducible assumption
    | (with_reducible apply Keep.step _ (tempReading_keep ..) _; on_goal 2 => decide)
    | (with_reducible apply Keep.ite <;> intro _)
    | split

theorem execThermalShutdown_kept (sensor : Fin 5) (reading : ℤ) (s : State) :
    Confined false 0x2046430c2b00005f6038031c6a0090800000003 s (execThermalShutdown sensor reading s) := by
  unfold execThermalShutdown
  apply actIfM_kept
  try dsimp only
  repeat' first
    | with_reducible apply Keep.refl
    | with_reducible assumption
    | (with_reducible apply Keep.step _ (thermalDown_keep ..) _; on_goal 2 => decide)
    | (with_reducible apply Keep.step _ (tempReading_keep ..) _; on_goal 2 => decide)
    | (with_reducible apply Keep.ite <;> intro _)
    | split

theorem execVcoreToleranceChange_kept (inBand : Bool) (s : State) :
    Confined false 0x98000 s (execVcoreToleranceChange inBand s) := by
  unfold execVcoreToleranceChange
  apply actIf_kept
  try dsimp only
  repeat' first
    | with_reducible apply Keep.refl
    | with_reducible assumption
    | (with_reducible apply Keep.step _ (vcoreTolerance_keep ..) _; on_goal 2 => decide)
    | (with_reducible apply Keep.ite <;> intro _)
    | split

theorem execVembRemoved_kept (s : State) :
    Confined true 0xffffffe9f877ffffffffffffffffffdcf41ff3 s (execVembRemoved s) := by
  unfold execVembRemoved
  apply actMove_kept
  try dsimp only
  repeat' first
    | with_reducible apply Keep.refl
    | with_reducible assumption
    | (with_reducible apply Keep.step _ (vembRemoved_keep ..) _; on_goal 2 => decide)
    | (with_reducible apply Keep.ite <;> intro _)
    | split

theorem execMbxRead_kept (s : State) :
    Confined false 0x200042000000000000000000000091000000003 s (execMbxRead s) := by
  unfold execMbxRead
  apply actIf_kept
  try dsimp only
  repeat' first
    | with_reducible apply Keep.refl
    | with_reducible assumption
    | (with_reducible apply Keep.step _ (mbxGo_keep ..) _; on_goal 2 => decide)
    | (with_reducible apply Keep.ite <;> intro _)
    | split

theorem execMbxWrite_kept (s : State) :
    Confined false 0x200042000000000000000000000091000000003 s (execMbxWrite s) := by
  unfold execMbxWrite
  apply actIf_kept
  try dsimp only
  repeat' first
    | with_reducible apply Keep.refl
    | with_reducible assumption
    | (with_reducible apply Keep.step _ (mbxGo_keep ..) _; on_goal 2 => decide)
    | (with_reducible apply Keep.ite <;> intro _)
    | split

theorem execMbxSegRead_kept (s : State) :
    Confined false 0x200042000000000000000000000091000000003 s (execMbxSegRead s) := by
  unfold execMbxSegRead
  apply actIf_kept
  try dsimp only
  repeat' first
    | with_reducible apply Keep.refl
    | with_reducible assumption
    | (with_reducible apply Keep.step _ (mbxGo_keep ..) _; on_goal 2 => decide)
    | (with_reducible apply Keep.ite <;> intro _)
    | split

theorem execMbxSegWrite_kept (last : Bool) (s : State) :
    Confined false 0x200042000000000000000000000091000000003 s (execMbxSegWrite last s) := by
  unfold execMbxSegWrite
  apply actIf_kept
  try dsimp only
  repeat' first
    | with_reducible apply Keep.refl
    | with_reducible assumption
    | (with_reducible apply Keep.step _ (mbxGo_keep ..) _; on_goal 2 => decide)
    | (with_reducible apply Keep.ite <;> intro _)
    | split

theorem execLedgerRead_kept (s : State) :
    Confined false 0x33cedf004f626edfe23ee33eee0efd804000283 s (execLedgerRead s) := by
  unfold execLedgerRead
  apply actM_kept
  try dsimp only
  repeat' first
    | with_reducible apply Keep.refl
    | with_reducible assumption
    | (with_reducible apply Keep.step _ (serveIf_keep ..) _; on_goal 2 => decide)
    | (with_reducible apply Keep.ite <;> intro _)
    | split

theorem execLedgerWrite_kept (s : State) :
    Confined false 0x33cedf004f626edfe23ee33eee0efd804000283 s (execLedgerWrite s) := by
  unfold execLedgerWrite
  apply actM_kept
  try dsimp only
  repeat' first
    | with_reducible apply Keep.refl
    | with_reducible assumption
    | (with_reducible apply Keep.step _ (serveIf_keep ..) _; on_goal 2 => decide)
    | (with_reducible apply Keep.ite <;> intro _)
    | split

theorem execLedgerSegRead_kept (s : State) :
    Confined false 0x33cedf004f626edfe23ee33eee0efd804000283 s (execLedgerSegRead s) := by
  unfold execLedgerSegRead
  apply actM_kept
  try dsimp only
  repeat' first
    | with_reducible apply Keep.refl
    | with_reducible assumption
    | (with_reducible apply Keep.step _ (serveIf_keep ..) _; on_goal 2 => decide)
    | (with_reducible apply Keep.ite <;> intro _)
    | split

theorem execLedgerSegWrite_kept (s : State) :
    Confined false 0x33cedf004f626edfe23ee33eee0efd804000283 s (execLedgerSegWrite s) := by
  unfold execLedgerSegWrite
  apply actM_kept
  try dsimp only
  repeat' first
    | with_reducible apply Keep.refl
    | with_reducible assumption
    | (with_reducible apply Keep.step _ (serveIf_keep ..) _; on_goal 2 => decide)
    | (with_reducible apply Keep.ite <;> intro _)
    | split

theorem execDvorOpen_kept (o : DvorOpen) (s : State) :
    Confined false 0x200042000000800000000000003100000000001 s (execDvorOpen o s) := by
  unfold execDvorOpen
  apply actIfM_kept
  try dsimp only
  repeat' first
    | with_reducible apply Keep.refl
    | with_reducible assumption
    | (with_reducible apply Keep.step _ (dvorOpen_keep ..) _; on_goal 2 => decide)
    | (with_reducible apply Keep.ite <;> intro _)
    | split

theorem execDvorOpenConfirm_kept (peer : Peer) (session : ℕ) (sig : ℕ) (s : State) :
    Confined false 0x200642000b00000000000000000190000000001 s (execDvorOpenConfirm peer session sig s) := by
  unfold execDvorOpenConfirm
  apply actIfM_kept
  try dsimp only
  repeat' first
    | with_reducible apply Keep.refl
    | with_reducible assumption
    | (with_reducible apply Keep.step _ (dvorConfirm_keep ..) _; on_goal 2 => decide)
    | (with_reducible apply Keep.ite <;> intro _)
    | split

theorem execDvorClose_kept (slot : Fin 8) (s : State) :
    Confined false 0x200000000000000000000000000090000000000 s (execDvorClose slot s) := by
  unfold execDvorClose
  apply actIf_kept
  try dsimp only
  repeat' first
    | with_reducible apply Keep.refl
    | with_reducible assumption
    | (with_reducible apply Keep.step _ (dvorClose_keep ..) _; on_goal 2 => decide)
    | (with_reducible apply Keep.ite <;> intro _)
    | split

theorem execDvorRead_kept (r : DvorReq) (s : State) :
    Confined false 0x200042000000000000000000000091000000003 s (execDvorRead r s) := by
  unfold execDvorRead
  apply actIfM_kept
  try dsimp only
  repeat' first
    | with_reducible apply Keep.refl
    | with_reducible assumption
    | (with_reducible apply Keep.step _ (dvorRequest_keep ..) _; on_goal 2 => decide)
    | (with_reducible apply Keep.ite <;> intro _)
    | split

theorem execDvorWrite_kept (r : DvorReq) (data : List Byte) (s : State) :
    Confined false 0x200042000000000000000000000091000000003 s (execDvorWrite r data s) := by
  unfold execDvorWrite
  apply actIfM_kept
  try dsimp only
  repeat' first
    | with_reducible apply Keep.refl
    | with_reducible assumption
    | (with_reducible apply Keep.step _ (dvorRequest_keep ..) _; on_goal 2 => decide)
    | (with_reducible apply Keep.ite <;> intro _)
    | split

theorem execDvorSegRead_kept (r : DvorReq) (offset : ℕ) (gen : ℕ) (len : ℕ) (s : State) :
    Confined false 0x200042000000000000000000000091000000003 s (execDvorSegRead r offset gen len s) := by
  unfold execDvorSegRead
  apply actIfM_kept
  try dsimp only
  repeat' first
    | with_reducible apply Keep.refl
    | with_reducible assumption
    | (with_reducible apply Keep.step _ (dvorRequest_keep ..) _; on_goal 2 => decide)
    | (with_reducible apply Keep.ite <;> intro _)
    | split

theorem execDvorSegWrite_kept (r : DvorReq) (offset : ℕ) (gen : ℕ) (last : Bool) (data : List Byte) (s : State) :
    Confined false 0x200042000000000000000000000091000000003 s (execDvorSegWrite r offset gen last data s) := by
  unfold execDvorSegWrite
  apply actIfM_kept
  try dsimp only
  repeat' first
    | with_reducible apply Keep.refl
    | with_reducible assumption
    | (with_reducible apply Keep.step _ (dvorRequest_keep ..) _; on_goal 2 => decide)
    | (with_reducible apply Keep.ite <;> intro _)
    | split

theorem execDvorEventAck_kept (r : DvorReq) (events : List ℕ) (s : State) :
    Confined false 0x200042000000000000000000000090000000001 s (execDvorEventAck r events s) := by
  unfold execDvorEventAck
  apply actIfM_kept
  try dsimp only
  repeat' first
    | with_reducible apply Keep.refl
    | with_reducible assumption
    | (with_reducible apply Keep.step _ (eventAck_keep ..) _; on_goal 2 => decide)
    | (with_reducible apply Keep.ite <;> intro _)
    | split

theorem execDvorKeepalive_kept (r : DvorReq) (s : State) :
    Confined false 0x200042000000000000000000000090000000001 s (execDvorKeepalive r s) := by
  unfold execDvorKeepalive
  apply actIfM_kept
  try dsimp only
  repeat' first
    | with_reducible apply Keep.refl
    | with_reducible assumption
    | (with_reducible apply Keep.step _ (keepalive_keep ..) _; on_goal 2 => decide)
    | (with_reducible apply Keep.ite <;> intro _)
    | split

theorem execDvorDatagramBad_kept (path : Path) (why : BadDatagram) (s : State) :
    Confined false 0x42000000000000000000000000000000001 s (execDvorDatagramBad path why s) := by
  unfold execDvorDatagramBad
  apply actIfM_kept
  try dsimp only
  repeat' first
    | with_reducible apply Keep.refl
    | with_reducible assumption
    | (with_reducible apply Keep.step _ (badDatagram_keep ..) _; on_goal 2 => decide)
    | (with_reducible apply Keep.ite <;> intro _)
    | split

theorem execIcmpv6Request_kept (path : Path) (echo : Bool) (s : State) :
    Confined false 0x200042000000000000000000003000000000001 s (execIcmpv6Request path echo s) := by
  unfold execIcmpv6Request
  apply actIf_kept
  try dsimp only
  repeat' first
    | with_reducible apply Keep.refl
    | with_reducible assumption
    | (with_reducible apply Keep.step _ (icmpv6_keep ..) _; on_goal 2 => decide)
    | (with_reducible apply Keep.ite <;> intro _)
    | split

theorem execFieldFrameOther_kept (path : Path) (s : State) :
    Confined false 0x1 s (execFieldFrameOther path s) := by
  unfold execFieldFrameOther
  apply actIf_kept
  try dsimp only
  repeat' first
    | with_reducible apply Keep.refl
    | with_reducible assumption
    | (with_reducible apply Keep.step _ (fieldOther_keep ..) _; on_goal 2 => decide)
    | (with_reducible apply Keep.ite <;> intro _)
    | split

theorem execDozeWakeFrame_kept (path : Path) (frame : List Byte) (s : State) :
    Confined true 0x30461b000000005000000002060000204000003 s (execDozeWakeFrame path frame s) := by
  unfold execDozeWakeFrame
  apply actMove_kept
  try dsimp only
  repeat' first
    | with_reducible apply Keep.refl
    | with_reducible assumption
    | (with_reducible apply Keep.step _ (dozeWake_keep ..) _; on_goal 2 => decide)
    | (with_reducible apply Keep.ite <;> intro _)
    | split

theorem execHandshakeTimeout_kept (place : Fin 4) (s : State) :
    Confined false 0x100000000000 s (execHandshakeTimeout place s) := by
  unfold execHandshakeTimeout
  apply actIf_kept
  try dsimp only
  repeat' first
    | with_reducible apply Keep.refl
    | with_reducible assumption
    | (with_reducible apply Keep.step _ (handshakeTimeout_keep ..) _; on_goal 2 => decide)
    | (with_reducible apply Keep.ite <;> intro _)
    | split

theorem execSessionIdleTimeout_kept (slot : Fin 8) (s : State) :
    Confined false 0x200000000000000000000000000090000000000 s (execSessionIdleTimeout slot s) := by
  unfold execSessionIdleTimeout
  apply actIf_kept
  try dsimp only
  repeat' first
    | with_reducible apply Keep.refl
    | with_reducible assumption
    | (with_reducible apply Keep.step _ (closeSession_keep ..) _; on_goal 2 => decide)
    | (with_reducible apply Keep.ite <;> intro _)
    | split

theorem execSegTransferTimeout_kept (index : ℕ) (sub : ℕ) (s : State) :
    Confined false 0x10000000000 s (execSegTransferTimeout index sub s) := by
  unfold execSegTransferTimeout
  apply actIf_kept
  try dsimp only
  repeat' first
    | with_reducible apply Keep.refl
    | with_reducible assumption
    | (with_reducible apply Keep.step _ (transferTimeout_keep ..) _; on_goal 2 => decide)
    | (with_reducible apply Keep.ite <;> intro _)
    | split

theorem execEventRetransmit_kept (slot : Fin 8) (event : ℕ) (s : State) :
    Confined false 0x200000000000000000000000000080000000000 s (execEventRetransmit slot event s) := by
  unfold execEventRetransmit
  apply actIf_kept
  try dsimp only
  repeat' first
    | with_reducible apply Keep.refl
    | with_reducible assumption
    | (with_reducible apply Keep.step _ (eventRetransmit_keep ..) _; on_goal 2 => decide)
    | (with_reducible apply Keep.ite <;> intro _)
    | split

theorem execStoreRange_kept (s : State) :
    Confined false 0x33cedf004f626edfe23ee33eee0efd804000283 s (execStoreRange s) := by
  unfold execStoreRange
  apply actM_kept
  try dsimp only
  repeat' first
    | with_reducible apply Keep.refl
    | with_reducible assumption
    | (with_reducible apply Keep.step _ (serveOwn_keep ..) _; on_goal 2 => decide)
    | (with_reducible apply Keep.ite <;> intro _)
    | split

theorem execRestoreRange_kept (s : State) :
    Confined false 0x33cedf004f626edfe23ee33eee0efd804000283 s (execRestoreRange s) := by
  unfold execRestoreRange
  apply actM_kept
  try dsimp only
  repeat' first
    | with_reducible apply Keep.refl
    | with_reducible assumption
    | (with_reducible apply Keep.step _ (serveOwn_keep ..) _; on_goal 2 => decide)
    | (with_reducible apply Keep.ite <;> intro _)
    | split

theorem execDefaultRange_kept (s : State) :
    Confined false 0x33cedf004f626edfe23ee33eee0efd804000283 s (execDefaultRange s) := by
  unfold execDefaultRange
  apply actM_kept
  try dsimp only
  repeat' first
    | with_reducible apply Keep.refl
    | with_reducible assumption
    | (with_reducible apply Keep.step _ (serveOwn_keep ..) _; on_goal 2 => decide)
    | (with_reducible apply Keep.ite <;> intro _)
    | split

theorem execStoreComplete_kept (s : State) :
    Confined true 0x30475fbd2ff8005f6038031e6e09bf204003003 s (execStoreComplete s) := by
  unfold execStoreComplete
  apply actMove_kept
  try dsimp only
  repeat' first
    | with_reducible apply Keep.refl
    | with_reducible assumption
    | (with_reducible apply Keep.step _ (dueMove_keep ..) _; on_goal 2 => decide)
    | (with_reducible apply Keep.step _ (storeComplete_keep ..) _; on_goal 2 => decide)
    | (with_reducible apply Keep.ite <;> intro _)
    | split

theorem execModeRequestEmber_kept (s : State) :
    Confined true 0x33cfdfbd6ffa6edfe23ee33eee0fffa04003283 s (execModeRequestEmber s) := by
  unfold execModeRequestEmber
  apply actMove_kept
  try dsimp only
  repeat' first
    | with_reducible apply Keep.refl
    | with_reducible assumption
    | (with_reducible apply Keep.step _ (modeHead_keep ..) _; on_goal 2 => decide)
    | (with_reducible apply Keep.ite <;> intro _)
    | split

theorem execEmberDrained_kept (s : State) :
    Confined true 0x2fffff7fbfff7ffffffffffffffffffdd2c1ff3 s (execEmberDrained s) := by
  unfold execEmberDrained
  apply actMove_kept
  try dsimp only
  repeat' first
    | with_reducible apply Keep.refl
    | with_reducible assumption
    | (with_reducible apply Keep.step _ (emberDrained_keep ..) _; on_goal 2 => decide)
    | (with_reducible apply Keep.ite <;> intro _)
    | split

theorem execModeRequestKindle_kept (s : State) :
    Confined true 0x33cfdfbd6ffa6edfe23ee33eee0fffa04003283 s (execModeRequestKindle s) := by
  unfold execModeRequestKindle
  apply actMove_kept
  try dsimp only
  repeat' first
    | with_reducible apply Keep.refl
    | with_reducible assumption
    | (with_reducible apply Keep.step _ (modeHead_keep ..) _; on_goal 2 => decide)
    | (with_reducible apply Keep.ite <;> intro _)
    | split

theorem execModeRequestService_kept (s : State) :
    Confined true 0x33cfdfbd6ffa6edfe23ee33eee0fffa04003283 s (execModeRequestService s) := by
  unfold execModeRequestService
  apply actMove_kept
  try dsimp only
  repeat' first
    | with_reducible apply Keep.refl
    | with_reducible assumption
    | (with_reducible apply Keep.step _ (modeHead_keep ..) _; on_goal 2 => decide)
    | (with_reducible apply Keep.ite <;> intro _)
    | split

theorem execModeRequestDoze_kept (s : State) :
    Confined true 0x33cfdfbd6ffa6edfe23ee33eee0fffa04003283 s (execModeRequestDoze s) := by
  unfold execModeRequestDoze
  apply actMove_kept
  try dsimp only
  repeat' first
    | with_reducible apply Keep.refl
    | with_reducible assumption
    | (with_reducible apply Keep.step _ (modeHead_keep ..) _; on_goal 2 => decide)
    | (with_reducible apply Keep.ite <;> intro _)
    | split

theorem execReeveWatchdog_kept (s : State) :
    Confined true 0x2047073d2ff8005f6038031c6a09bf200003003 s (execReeveWatchdog s) := by
  unfold execReeveWatchdog
  apply actMove_kept
  try dsimp only
  repeat' first
    | with_reducible apply Keep.refl
    | with_reducible assumption
    | (with_reducible apply Keep.step _ (reeveRestart_keep ..) _; on_goal 2 => decide)
    | (with_reducible apply Keep.ite <;> intro _)
    | split

end Sys2Proof.Machine
end

