-- ==== Sys2Proof/Laws/KeepCmdFrames.lean ====
section
/-! SUPPORT. What each command of Machine/CmdFrames.lean may change. -/

set_option linter.unusedTactic false
set_option linter.unreachableTactic false

open Sys2Proof

namespace Sys2Proof.Machine

theorem execCellIdleClose_kept (sp : SubPort) (s : State) :
    Confined false 0x100000000000000000 s (execCellIdleClose sp s) := by
  unfold execCellIdleClose
  apply actIf_kept
  try dsimp only
  repeat' first
    | with_reducible apply Keep.refl
    | with_reducible assumption
    | (with_reducible apply Keep.step _ (closeCell_keep ..) _; on_goal 2 => decide)
    | (with_reducible apply Keep.ite <;> intro _)
    | split

theorem execCellSend_kept (b : Brick) (s : State) :
    Confined false 0x20180200000000000c000308000000010000001 s (execCellSend b s) := by
  unfold execCellSend
  apply actIf_kept
  try dsimp only
  repeat' first
    | with_reducible apply Keep.refl
    | with_reducible assumption
    | (with_reducible apply Keep.step _ (cellSend_keep ..) _; on_goal 2 => decide)
    | (with_reducible apply Keep.ite <;> intro _)
    | split

theorem execCreditStall_kept (b : Brick) (us : ℕ) (s : State) :
    Confined false 0x200602000000000008000000000090000000001 s (execCreditStall b us s) := by
  unfold execCreditStall
  apply actIf_kept
  try dsimp only
  repeat' first
    | with_reducible apply Keep.refl
    | with_reducible assumption
    | (with_reducible apply Keep.step _ (creditStall_keep ..) _; on_goal 2 => decide)
    | (with_reducible apply Keep.ite <;> intro _)
    | split

theorem execGleanerExpiry_kept (b : Brick) (entry : Fin 1024) (s : State) :
    Confined false 0x2000000000000000001 s (execGleanerExpiry b entry s) := by
  unfold execGleanerExpiry
  apply actIf_kept
  try dsimp only
  repeat' first
    | with_reducible apply Keep.refl
    | with_reducible assumption
    | (with_reducible apply Keep.step _ (gleanExpire_keep ..) _; on_goal 2 => decide)
    | (with_reducible apply Keep.ite <;> intro _)
    | split

theorem execGleanFlush_kept (s : State) :
    Confined false 0x33cedf004f626edfe23ee33eee0efd804000283 s (execGleanFlush s) := by
  unfold execGleanFlush
  apply actM_kept
  try dsimp only
  repeat' first
    | with_reducible apply Keep.refl
    | with_reducible assumption
    | (with_reducible apply Keep.step _ (serveOwn_keep ..) _; on_goal 2 => decide)
    | (with_reducible apply Keep.ite <;> intro _)
    | split

theorem execSieveWriteShadow_kept (b : Brick) (index : Fin 8192) (s : State) :
    Confined false 0xc000000020000000002 s (execSieveWriteShadow b index s) := by
  unfold execSieveWriteShadow
  apply actIf_kept
  try dsimp only
  repeat' first
    | with_reducible apply Keep.refl
    | with_reducible assumption
    | (with_reducible apply Keep.step _ (sieveWriteShadow_keep ..) _; on_goal 2 => decide)
    | (with_reducible apply Keep.ite <;> intro _)
    | split

theorem execSieveWriteBoth_kept (b : Brick) (index : Fin 8192) (s : State) :
    Confined false 0xc000000020000000002 s (execSieveWriteBoth b index s) := by
  unfold execSieveWriteBoth
  apply actIf_kept
  try dsimp only
  repeat' first
    | with_reducible apply Keep.refl
    | with_reducible assumption
    | (with_reducible apply Keep.step _ (sieveWriteBoth_keep ..) _; on_goal 2 => decide)
    | (with_reducible apply Keep.ite <;> intro _)
    | split

theorem execSieveReadShadow_kept (b : Brick) (index : Fin 8192) (s : State) :
    Confined false 0x2 s (execSieveReadShadow b index s) := by
  unfold execSieveReadShadow
  apply actIf_kept
  try dsimp only
  repeat' first
    | with_reducible apply Keep.refl
    | with_reducible assumption
    | (with_reducible apply Keep.step _ (sieveReadShadow_keep ..) _; on_goal 2 => decide)
    | (with_reducible apply Keep.ite <;> intro _)
    | split

theorem execSieveReadActive_kept (b : Brick) (index : Fin 8192) (s : State) :
    Confined false 0x2 s (execSieveReadActive b index s) := by
  unfold execSieveReadActive
  apply actIf_kept
  try dsimp only
  repeat' first
    | with_reducible apply Keep.refl
    | with_reducible assumption
    | (with_reducible apply Keep.step _ (sieveReadActive_keep ..) _; on_goal 2 => decide)
    | (with_reducible apply Keep.ite <;> intro _)
    | split

theorem execSieveInvalidateShadow_kept (b : Brick) (index : Fin 8192) (s : State) :
    Confined false 0xc000000020000000002 s (execSieveInvalidateShadow b index s) := by
  unfold execSieveInvalidateShadow
  apply actIf_kept
  try dsimp only
  repeat' first
    | with_reducible apply Keep.refl
    | with_reducible assumption
    | (with_reducible apply Keep.step _ (sieveInvalidateShadow_keep ..) _; on_goal 2 => decide)
    | (with_reducible apply Keep.ite <;> intro _)
    | split

theorem execSieveInvalidateBoth_kept (b : Brick) (index : Fin 8192) (s : State) :
    Confined false 0xc000000020000000002 s (execSieveInvalidateBoth b index s) := by
  unfold execSieveInvalidateBoth
  apply actIf_kept
  try dsimp only
  repeat' first
    | with_reducible apply Keep.refl
    | with_reducible assumption
    | (with_reducible apply Keep.step _ (sieveInvalidateBoth_keep ..) _; on_goal 2 => decide)
    | (with_reducible apply Keep.ite <;> intro _)
    | split

theorem execSieveSwap_kept (window : Option Brick) (s : State) :
    Confined false 0x33cedf004f626edfe23ee33eee0efd804000283 s (execSieveSwap window s) := by
  unfold execSieveSwap
  split
  · apply actM_kept
    exact Keep.step .refl (serveOwn_keep ..) (by decide)
  · apply actIf_kept
    exact Keep.step .refl (swapWindow_keep ..) (by decide)

theorem execSieveSwapDone_kept (b : Brick) (s : State) :
    Confined false 0x20000200000000000000c0000000b4000000003 s (execSieveSwapDone b s) := by
  unfold execSieveSwapDone
  apply actIf_kept
  try dsimp only
  repeat' first
    | with_reducible apply Keep.refl
    | with_reducible assumption
    | (with_reducible apply Keep.step _ (swapDone_keep ..) _; on_goal 2 => decide)
    | (with_reducible apply Keep.ite <;> intro _)
    | split

theorem execSieveScrubCompare_kept (b : Brick) (bank : Fin 2) (index : Fin 8192) (m : Master) (forced : Bool) (s : State) :
    Confined false 0x201e0200000000000000c0000000b0000000001 s (execSieveScrubCompare b bank index m forced s) := by
  unfold execSieveScrubCompare
  apply actIf_kept
  try dsimp only
  repeat' first
    | with_reducible apply Keep.refl
    | with_reducible assumption
    | (with_reducible apply Keep.step _ (scrubCompare_keep ..) _; on_goal 2 => decide)
    | (with_reducible apply Keep.ite <;> intro _)
    | split

theorem execHitCountClear_kept (b : Brick) (index : Fin 8192) (s : State) :
    Confined false 0x10000000000000000000 s (execHitCountClear b index s) := by
  unfold execHitCountClear
  apply actIf_kept
  try dsimp only
  repeat' first
    | with_reducible apply Keep.refl
    | with_reducible assumption
    | (with_reducible apply Keep.step _ (hitClear_keep ..) _; on_goal 2 => decide)
    | (with_reducible apply Keep.ite <;> intro _)
    | split

theorem execPolicerApply_kept (b : Brick) (index : Fin 1024) (value : ℕ) (s : State) :
    Confined false 0x40000000020000000003 s (execPolicerApply b index value s) := by
  unfold execPolicerApply
  apply actIf_kept
  try dsimp only
  repeat' first
    | with_reducible apply Keep.refl
    | with_reducible assumption
    | (with_reducible apply Keep.step _ (policerApply_keep ..) _; on_goal 2 => decide)
    | (with_reducible apply Keep.ite <;> intro _)
    | split

theorem execSchedulerSelect_kept (sp : SubPort) (s : State) :
    Confined false 0x305e43000904025e60000008000090000000003 s (execSchedulerSelect sp s) := by
  unfold execSchedulerSelect
  apply actIf_kept
  try dsimp only
  repeat' first
    | with_reducible apply Keep.refl
    | with_reducible assumption
    | (with_reducible apply Keep.step _ (schedulerSelect_keep ..) _; on_goal 2 => decide)
    | (with_reducible apply Keep.ite <;> intro _)
    | split

theorem execTxFrameDone_kept (sp : SubPort) (departure : ℕ) (s : State) :
    Confined false 0x20584b000000005ee0000002000000004000203 s (execTxFrameDone sp departure s) := by
  unfold execTxFrameDone
  apply actIf_kept
  try dsimp only
  repeat' first
    | with_reducible apply Keep.refl
    | with_reducible assumption
    | (with_reducible apply Keep.step _ (txFrameDone_keep ..) _; on_goal 2 => decide)
    | (with_reducible apply Keep.ite <;> intro _)
    | split

theorem execCalendarRelease_kept (p : Port) (shaper : Fin 128) (s : State) :
    Confined false 0x1802000000000080000000000000000000001 s (execCalendarRelease p shaper s) := by
  unfold execCalendarRelease
  apply actIf_kept
  try dsimp only
  repeat' first
    | with_reducible apply Keep.refl
    | with_reducible assumption
    | (with_reducible apply Keep.step _ (calendarRelease_keep ..) _; on_goal 2 => decide)
    | (with_reducible apply Keep.ite <;> intro _)
    | split

theorem execGateEntryChange_kept (sp : SubPort) (s : State) :
    Confined false 0x8000000000000000000000000 s (execGateEntryChange sp s) := by
  unfold execGateEntryChange
  apply actIf_kept
  try dsimp only
  repeat' first
    | with_reducible apply Keep.refl
    | with_reducible assumption
    | (with_reducible apply Keep.step _ (gateEntryChange_keep ..) _; on_goal 2 => decide)
    | (with_reducible apply Keep.ite <;> intro _)
    | split

theorem execGateConfigChange_kept (sp : SubPort) (s : State) :
    Confined false 0x8000000000000060000000001 s (execGateConfigChange sp s) := by
  unfold execGateConfigChange
  apply actIf_kept
  try dsimp only
  repeat' first
    | with_reducible apply Keep.refl
    | with_reducible assumption
    | (with_reducible apply Keep.step _ (gateConfigChange_keep ..) _; on_goal 2 => decide)
    | (with_reducible apply Keep.ite <;> intro _)
    | split

theorem execGateSchedule_kept (s : State) :
    Confined false 0x33cedf004f626edfe23ee33eee0efd804000283 s (execGateSchedule s) := by
  unfold execGateSchedule
  apply actM_kept
  try dsimp only
  repeat' first
    | with_reducible apply Keep.refl
    | with_reducible assumption
    | (with_reducible apply Keep.step _ (serveOwn_keep ..) _; on_goal 2 => decide)
    | (with_reducible apply Keep.ite <;> intro _)
    | split

theorem execGateCancel_kept (s : State) :
    Confined false 0x33cedf004f626edfe23ee33eee0efd804000283 s (execGateCancel s) := by
  unfold execGateCancel
  apply actM_kept
  try dsimp only
  repeat' first
    | with_reducible apply Keep.refl
    | with_reducible assumption
    | (with_reducible apply Keep.step _ (serveOwn_keep ..) _; on_goal 2 => decide)
    | (with_reducible apply Keep.ite <;> intro _)
    | split

theorem execQueueDropsClear_kept (p : Port) (q : Fin 64) (s : State) :
    Confined false 0x20000000000000000000000 s (execQueueDropsClear p q s) := by
  unfold execQueueDropsClear
  apply actIf_kept
  try dsimp only
  repeat' first
    | with_reducible apply Keep.refl
    | with_reducible assumption
    | (with_reducible apply Keep.step _ (queueDropsClear_keep ..) _; on_goal 2 => decide)
    | (with_reducible apply Keep.ite <;> intro _)
    | split

theorem execShaperApply_kept (p : Port) (shaper : Fin 128) (a2 : ℕ) (s : State) :
    Confined false 0x80000000000000000000003 s (execShaperApply p shaper a2 s) := by
  unfold execShaperApply
  apply actIf_kept
  try dsimp only
  repeat' first
    | with_reducible apply Keep.refl
    | with_reducible assumption
    | (with_reducible apply Keep.step _ (shaperApplyWin_keep ..) _; on_goal 2 => decide)
    | (with_reducible apply Keep.ite <;> intro _)
    | split

theorem execTimeResync_kept (s : State) :
    Confined false 0x2000020000000000000000000000900000001e3 s (execTimeResync s) := by
  unfold execTimeResync
  apply actIf_kept
  try dsimp only
  repeat' first
    | with_reducible apply Keep.refl
    | with_reducible assumption
    | (with_reducible apply Keep.step _ (resync_keep ..) _; on_goal 2 => decide)
    | (with_reducible apply Keep.ite <;> intro _)
    | split

theorem execTimeSet_kept (s : State) :
    Confined false 0x33cedf004f626edfe23ee33eee0efd804000283 s (execTimeSet s) := by
  unfold execTimeSet
  apply actM_kept
  try dsimp only
  repeat' first
    | with_reducible apply Keep.refl
    | with_reducible assumption
    | (with_reducible apply Keep.step _ (serveOwn_keep ..) _; on_goal 2 => decide)
    | (with_reducible apply Keep.ite <;> intro _)
    | split

theorem execTimeStep_kept (s : State) :
    Confined false 0x33cedf004f626edfe23ee33eee0efd804000283 s (execTimeStep s) := by
  unfold execTimeStep
  apply actM_kept
  try dsimp only
  repeat' first
    | with_reducible apply Keep.refl
    | with_reducible assumption
    | (with_reducible apply Keep.step _ (serveOwn_keep ..) _; on_goal 2 => decide)
    | (with_reducible apply Keep.ite <;> intro _)
    | split

theorem execFreqAdjWrite_kept (s : State) :
    Confined false 0x33cedf004f626edfe23ee33eee0efd804000283 s (execFreqAdjWrite s) := by
  unfold execFreqAdjWrite
  apply actM_kept
  try dsimp only
  repeat' first
    | with_reducible apply Keep.refl
    | with_reducible assumption
    | (with_reducible apply Keep.step _ (serveOwn_keep ..) _; on_goal 2 => decide)
    | (with_reducible apply Keep.ite <;> intro _)
    | split

theorem execTxStampNextRead_kept (s : State) :
    Confined false 0x33cedf004f626edfe23ee33eee0efd804000283 s (execTxStampNextRead s) := by
  unfold execTxStampNextRead
  apply actM_kept
  try dsimp only
  repeat' first
    | with_reducible apply Keep.refl
    | with_reducible assumption
    | (with_reducible apply Keep.step _ (serveOwn_keep ..) _; on_goal 2 => decide)
    | (with_reducible apply Keep.ite <;> intro _)
    | split

end Sys2Proof.Machine
end

