-- ==== Sys2Proof/Laws/KeepCmdLanes.lean ====
section
/-! SUPPORT. What each command of Machine/CmdLanes.lean may change. -/

set_option linter.unusedTactic false
set_option linter.unreachableTactic false

open Sys2Proof

namespace Sys2Proof.Machine

theorem onLaneSp_keep {M : Nat} {v : Wall} (l : Lane) (f : Nat → Wall → Wall) (w : Wall) (h : Keep M v w)
    (hf : ∀ sp y, Keep M v y → Keep M v (f sp y)) (hm : M ||| 0x0 = M) : Keep M v (onLaneSp l f w) := by
  unfold onLaneSp
  split
  · exact hf _ _ h
  · exact h

theorem execDetectDone_kept (g : Group) (s : State) :
    Confined false 0x200002000000000000000000060000000000001 s (execDetectDone g s) := by
  unfold execDetectDone
  apply actIf_kept
  try dsimp only
  repeat' first
    | with_reducible apply Keep.refl
    | with_reducible assumption
    | (with_reducible apply Keep.step _ (detectDone_keep ..) _; on_goal 2 => decide)
    | (with_reducible apply Keep.ite <;> intro _)
    | split

theorem execDetectTimeout_kept (g : Group) (s : State) :
    Confined false 0x204603000000005f6038031c6e0090000000003 s (execDetectTimeout g s) := by
  unfold execDetectTimeout
  apply actIf_kept
  try dsimp only
  repeat' first
    | with_reducible apply Keep.refl
    | with_reducible assumption
    | (with_reducible apply Keep.step _ (detectTimeout_keep ..) _; on_goal 2 => decide)
    | (with_reducible apply Keep.ite <;> intro _)
    | split

theorem execPam2Timeout_kept (g : Group) (s : State) :
    Confined false 0x204603000000005f6038031c6e0090000000003 s (execPam2Timeout g s) := by
  unfold execPam2Timeout
  apply actIf_kept
  try dsimp only
  repeat' first
    | with_reducible apply Keep.refl
    | with_reducible assumption
    | (with_reducible apply Keep.step _ (pam2Timeout_keep ..) _; on_goal 2 => decide)
    | (with_reducible apply Keep.ite <;> intro _)
    | split

theorem execTrainingTimeout_kept (g : Group) (s : State) :
    Confined false 0x204603000000005f6038031c6e0090000000003 s (execTrainingTimeout g s) := by
  unfold execTrainingTimeout
  apply actIf_kept
  try dsimp only
  repeat' first
    | with_reducible apply Keep.refl
    | with_reducible assumption
    | (with_reducible apply Keep.step _ (trainingTimeout_keep ..) _; on_goal 2 => decide)
    | (with_reducible apply Keep.ite <;> intro _)
    | split

theorem execExchangeTimeout_kept (g : Group) (s : State) :
    Confined false 0x204603000000005f6038031c6e0090000000003 s (execExchangeTimeout g s) := by
  unfold execExchangeTimeout
  apply actIf_kept
  try dsimp only
  repeat' first
    | with_reducible apply Keep.refl
    | with_reducible assumption
    | (with_reducible apply Keep.step _ (exchangeTimeout_keep ..) _; on_goal 2 => decide)
    | (with_reducible apply Keep.ite <;> intro _)
    | split

theorem execBackoffExpiry_kept (g : Group) (s : State) :
    Confined false 0x304002000000000000000000060000000000001 s (execBackoffExpiry g s) := by
  unfold execBackoffExpiry
  apply actIf_kept
  try dsimp only
  repeat' first
    | with_reducible apply Keep.refl
    | with_reducible assumption
    | (with_reducible apply Keep.step _ (backoffExpiry_keep ..) _; on_goal 2 => decide)
    | (with_reducible apply Keep.ite <;> intro _)
    | split

theorem execListeningBurst_kept (g : Group) (s : State) :
    Confined false 0x200000000000000000000000000000000000000 s (execListeningBurst g s) := by
  unfold execListeningBurst
  apply actIf_kept
  try dsimp only
  repeat' first
    | with_reducible apply Keep.refl
    | with_reducible assumption
    | (with_reducible apply Keep.step _ (listeningBurst_keep ..) _; on_goal 2 => decide)
    | (with_reducible apply Keep.ite <;> intro _)
    | split

theorem execActiveHoldExpiry_kept (sp : SubPort) (s : State) :
    Confined false 0x40000000000001 s (execActiveHoldExpiry sp s) := by
  unfold execActiveHoldExpiry
  apply actIf_kept
  try dsimp only
  repeat' first
    | with_reducible apply Keep.refl
    | with_reducible assumption
    | (with_reducible apply Keep.step _ (activeHold_keep ..) _; on_goal 2 => decide)
    | (with_reducible apply Keep.ite <;> intro _)
    | split

theorem execTrainRestart_kept (s : State) :
    Confined false 0x33cedf004f626edfe23ee33eee0efd804000283 s (execTrainRestart s) := by
  unfold execTrainRestart
  apply actM_kept
  try dsimp only
  repeat' first
    | with_reducible apply Keep.refl
    | with_reducible assumption
    | (with_reducible apply Keep.step _ (serveOwn_keep ..) _; on_goal 2 => decide)
    | (with_reducible apply Keep.ite <;> intro _)
    | split

theorem execTrainingFrame_kept (l : Lane) (good : Bool) (msg : List Byte) (invertedOnly : Bool) (s : State) :
    Confined false 0x304002000000000000000000060000000000001 s (execTrainingFrame l good msg invertedOnly s) := by
  unfold execTrainingFrame
  apply actIf_kept
  try dsimp only
  repeat' first
    | with_reducible apply Keep.refl
    | with_reducible assumption
    | (with_reducible apply Keep.step _ (trainingFrame_keep ..) _; on_goal 2 => decide)
    | (with_reducible apply Keep.ite <;> intro _)
    | split

theorem execHello_kept (l : Lane) (rates : ℕ) (role : ℕ) (seed : ℕ) (s : State) :
    Confined false 0x304603000000005f6038031c6e0090000000003 s (execHello l rates role seed s) := by
  unfold execHello
  apply actIf_kept
  try dsimp only
  repeat' first
    | with_reducible apply Keep.refl
    | with_reducible assumption
    | (with_reducible apply Keep.step _ (helloHeard_keep ..) _; on_goal 2 => decide)
    | (with_reducible apply Keep.ite <;> intro _)
    | split

theorem execTrainingReady_kept (l : Lane) (count : ℕ) (s : State) :
    Confined false 0x20000000000000 s (execTrainingReady l count s) := by
  unfold execTrainingReady
  apply actIf_kept
  try dsimp only
  repeat' first
    | with_reducible apply Keep.refl
    | with_reducible assumption
    | (with_reducible apply Keep.step _ (readyHeard_keep ..) _; on_goal 2 => decide)
    | (with_reducible apply Keep.ite <;> intro _)
    | split

theorem execReadyCountdownEnd_kept (l : Lane) (s : State) :
    Confined false 0x2000000000000000000020000000000001 s (execReadyCountdownEnd l s) := by
  unfold execReadyCountdownEnd
  apply actIf_kept
  try dsimp only
  repeat' first
    | with_reducible apply Keep.refl
    | with_reducible assumption
    | (with_reducible apply Keep.step _ (readyEnd_keep ..) _; on_goal 2 => decide)
    | (with_reducible apply Keep.ite <;> intro _)
    | split

theorem execRxReady_kept (l : Lane) (coarse : List ℕ) (fine : List ℕ) (s : State) :
    Confined false 0x2000000000000000000020000000000001 s (execRxReady l coarse fine s) := by
  unfold execRxReady
  apply actIf_kept
  try dsimp only
  repeat' first
    | with_reducible apply Keep.refl
    | with_reducible assumption
    | (with_reducible apply Keep.step _ (rxReadySet_keep ..) _; on_goal 2 => decide)
    | (with_reducible apply Keep.ite <;> intro _)
    | split

theorem execTrainingCountdownEnd_kept (l : Lane) (s : State) :
    Confined false 0x2000000000000000000060000000000001 s (execTrainingCountdownEnd l s) := by
  unfold execTrainingCountdownEnd
  apply actIf_kept
  try dsimp only
  repeat' first
    | with_reducible apply Keep.refl
    | with_reducible assumption
    | (with_reducible apply Keep.step _ (trainingEnd_keep ..) _; on_goal 2 => decide)
    | (with_reducible apply Keep.ite <;> intro _)
    | split

theorem execBlockLock_kept (g : Group) (s : State) :
    Confined false 0x204602000000000000001008060090000000001 s (execBlockLock g s) := by
  unfold execBlockLock
  apply actIf_kept
  try dsimp only
  repeat' first
    | with_reducible apply Keep.refl
    | with_reducible assumption
    | (with_reducible apply Keep.step _ (blockLock_keep ..) _; on_goal 2 => decide)
    | (with_reducible apply Keep.ite <;> intro _)
    | split

theorem execCdrLock_kept (l : Lane) (s : State) :
    Confined false 0x20000000000001 s (execCdrLock l s) := by
  unfold execCdrLock
  apply actIf_kept
  try dsimp only
  repeat' first
    | with_reducible apply Keep.refl
    | with_reducible assumption
    | (with_reducible apply Keep.step _ (cdrLock_keep ..) _; on_goal 2 => decide)
    | (with_reducible apply Keep.ite <;> intro _)
    | split

theorem execCdrLockLoss_kept (l : Lane) (slip : Bool) (s : State) :
    Confined false 0x304643000000005f6038031c7e0090000000003 s (execCdrLockLoss l slip s) := by
  unfold execCdrLockLoss
  apply actIf_kept
  try dsimp only
  repeat' first
    | with_reducible apply Keep.refl
    | with_reducible assumption
    | (with_reducible apply Keep.step _ (cdrLockLoss_keep ..) _; on_goal 2 => decide)
    | (with_reducible apply Keep.ite <;> intro _)
    | split

theorem execSignalDetectLoss_kept (l : Lane) (s : State) :
    Confined false 0x304643000000005f6038031c7e0090000000003 s (execSignalDetectLoss l s) := by
  unfold execSignalDetectLoss
  apply actIf_kept
  try dsimp only
  repeat' first
    | with_reducible apply Keep.refl
    | with_reducible assumption
    | (with_reducible apply Keep.step _ (signalLoss_keep ..) _; on_goal 2 => decide)
    | (with_reducible apply Keep.ite <;> intro _)
    | split

theorem execGossipStatus_kept (l : Lane) (exch : ℕ) (payload : ℕ) (s : State) :
    Confined false 0x204602000000000000001008060090000000001 s (execGossipStatus l exch payload s) := by
  unfold execGossipStatus
  apply actIf_kept
  try dsimp only
  repeat' first
    | with_reducible apply Keep.refl
    | with_reducible assumption
    | (with_reducible apply Keep.step _ (statusHeard_keep ..) _; on_goal 2 => decide)
    | (with_reducible apply Keep.ite <;> intro _)
    | split

theorem execGossipOffer_kept (l : Lane) (exch : ℕ) (payload : ℕ) (s : State) :
    Confined false 0x200000000000000000000000040000000000000 s (execGossipOffer l exch payload s) := by
  unfold execGossipOffer
  apply actIf_kept
  try dsimp only
  repeat' first
    | with_reducible apply Keep.refl
    | with_reducible assumption
    | (with_reducible apply Keep.step _ (offerHeard_keep ..) _; on_goal 2 => decide)
    | (with_reducible apply onLaneSp_keep; (on_goal 3 => decide); (on_goal 2 => (intros; try dsimp only)))
    | (with_reducible apply Keep.ite <;> intro _)
    | split

theorem execGossipAccept_kept (l : Lane) (exch : ℕ) (payload : ℕ) (s : State) :
    Confined false 0x200000000000000000000000040000000000000 s (execGossipAccept l exch payload s) := by
  unfold execGossipAccept
  apply actIf_kept
  try dsimp only
  repeat' first
    | with_reducible apply Keep.refl
    | with_reducible assumption
    | (with_reducible apply Keep.step _ (acceptHeard_keep ..) _; on_goal 2 => decide)
    | (with_reducible apply onLaneSp_keep; (on_goal 3 => decide); (on_goal 2 => (intros; try dsimp only)))
    | (with_reducible apply Keep.ite <;> intro _)
    | split

theorem execGossipConfirm_kept (l : Lane) (exch : ℕ) (a2 : ℕ) (s : State) :
    Confined false 0x204602000000000000001008060090000000001 s (execGossipConfirm l exch a2 s) := by
  unfold execGossipConfirm
  apply actIf_kept
  try dsimp only
  repeat' first
    | with_reducible apply Keep.refl
    | with_reducible assumption
    | (with_reducible apply Keep.step _ (confirmHeard_keep ..) _; on_goal 2 => decide)
    | (with_reducible apply onLaneSp_keep; (on_goal 3 => decide); (on_goal 2 => (intros; try dsimp only)))
    | (with_reducible apply Keep.ite <;> intro _)
    | split

theorem execGossipSpare_kept (l : Lane) (payload : ℕ) (s : State) :
    Confined false 0x304002000000000000000000060000000000001 s (execGossipSpare l payload s) := by
  unfold execGossipSpare
  apply actIf_kept
  try dsimp only
  repeat' first
    | with_reducible apply Keep.refl
    | with_reducible assumption
    | (with_reducible apply Keep.step _ (spareHeard_keep ..) _; on_goal 2 => decide)
    | (with_reducible apply Keep.ite <;> intro _)
    | split

theorem execGossipPrepare_kept (l : Lane) (exch : ℕ) (payload : ℕ) (s : State) :
    Confined false 0x2006020000000000000000000a0090000000001 s (execGossipPrepare l exch payload s) := by
  unfold execGossipPrepare
  apply actIf_kept
  try dsimp only
  repeat' first
    | with_reducible apply Keep.refl
    | with_reducible assumption
    | (with_reducible apply Keep.step _ (prepareHeard_keep ..) _; on_goal 2 => decide)
    | (with_reducible apply Keep.ite <;> intro _)
    | split

theorem execGossipReady_kept (l : Lane) (exch : ℕ) (payload : ℕ) (s : State) :
    Confined false 0x2000020000000000000000000a0000000000001 s (execGossipReady l exch payload s) := by
  unfold execGossipReady
  apply actIf_kept
  try dsimp only
  repeat' first
    | with_reducible apply Keep.refl
    | with_reducible assumption
    | (with_reducible apply Keep.step _ (exchReady_keep ..) _; on_goal 2 => decide)
    | (with_reducible apply Keep.ite <;> intro _)
    | split

theorem execGossipRoll_kept (l : Lane) (exch : ℕ) (payload : ℕ) (codeword : ℕ) (s : State) :
    Confined false 0x80000000000000 s (execGossipRoll l exch payload codeword s) := by
  unfold execGossipRoll
  apply actIf_kept
  try dsimp only
  repeat' first
    | with_reducible apply Keep.refl
    | with_reducible assumption
    | (with_reducible apply Keep.step _ (rollHeard_keep ..) _; on_goal 2 => decide)
    | (with_reducible apply Keep.ite <;> intro _)
    | split

theorem execGossipRolled_kept (l : Lane) (exch : ℕ) (payload : ℕ) (s : State) :
    Confined false 0x2046020000000000000000027a0090000000001 s (execGossipRolled l exch payload s) := by
  unfold execGossipRolled
  apply actIf_kept
  try dsimp only
  repeat' first
    | with_reducible apply Keep.refl
    | with_reducible assumption
    | (with_reducible apply Keep.step _ (rolledHeard_keep ..) _; on_goal 2 => decide)
    | (with_reducible apply Keep.ite <;> intro _)
    | split

theorem execGossipRefuse_kept (l : Lane) (exch : ℕ) (payload : ℕ) (s : State) :
    Confined false 0x304603000000005f6038031c6e0090000000003 s (execGossipRefuse l exch payload s) := by
  unfold execGossipRefuse
  apply actIf_kept
  try dsimp only
  repeat' first
    | with_reducible apply Keep.refl
    | with_reducible assumption
    | (with_reducible apply Keep.step _ (refuseHeard_keep ..) _; on_goal 2 => decide)
    | (with_reducible apply Keep.ite <;> intro _)
    | split

theorem execGossipSurvey_kept (l : Lane) (a1 : ℕ) (payload : ℕ) (s : State) :
    Confined false 0x400000000000000 s (execGossipSurvey l a1 payload s) := by
  unfold execGossipSurvey
  apply actIf_kept
  try dsimp only
  repeat' first
    | with_reducible apply Keep.refl
    | with_reducible assumption
    | (with_reducible apply Keep.step _ (surveyHeard_keep ..) _; on_goal 2 => decide)
    | (with_reducible apply Keep.ite <;> intro _)
    | split

theorem execGossipRetire_kept (l : Lane) (payload : ℕ) (s : State) :
    Confined false 0x200602000000000000000000620090000000001 s (execGossipRetire l payload s) := by
  unfold execGossipRetire
  apply actIf_kept
  try dsimp only
  repeat' first
    | with_reducible apply Keep.refl
    | with_reducible assumption
    | (with_reducible apply Keep.step _ (retireHeard_keep ..) _; on_goal 2 => decide)
    | (with_reducible apply Keep.ite <;> intro _)
    | split

theorem execGossipBadWord_kept (l : Lane) (s : State) :
    Confined false 0x1802000000000000000000000000000000001 s (execGossipBadWord l s) := by
  unfold execGossipBadWord
  apply actIf_kept
  try dsimp only
  repeat' first
    | with_reducible apply Keep.refl
    | with_reducible assumption
    | (with_reducible apply Keep.step _ (gossipBad_keep ..) _; on_goal 2 => decide)
    | (with_reducible apply Keep.ite <;> intro _)
    | split

theorem execGossipLoss_kept (l : Lane) (s : State) :
    Confined false 0x304643000000005f6038031c7e0090000000003 s (execGossipLoss l s) := by
  unfold execGossipLoss
  apply actIf_kept
  try dsimp only
  repeat' first
    | with_reducible apply Keep.refl
    | with_reducible assumption
    | (with_reducible apply Keep.step _ (gossipLoss_keep ..) _; on_goal 2 => decide)
    | (with_reducible apply Keep.ite <;> intro _)
    | split

theorem execFecWindowEnd_kept (sp : SubPort) (roleCorrected : List ℕ) (codewords : ℕ) (corrected : ℕ) (uncorrectable : ℕ) (s : State) :
    Confined false 0x305e43000000005f6038031c7e0090000000003 s (execFecWindowEnd sp roleCorrected codewords corrected uncorrectable s) := by
  unfold execFecWindowEnd
  apply actIf_kept
  try dsimp only
  repeat' first
    | with_reducible apply Keep.refl
    | with_reducible assumption
    | (with_reducible apply Keep.step _ (fecWindow_keep ..) _; on_goal 2 => decide)
    | (with_reducible apply Keep.ite <;> intro _)
    | split

theorem execLaneTestStart_kept (s : State) :
    Confined false 0x33cedf004f626edfe23ee33eee0efd804000283 s (execLaneTestStart s) := by
  unfold execLaneTestStart
  apply actM_kept
  try dsimp only
  repeat' first
    | with_reducible apply Keep.refl
    | with_reducible assumption
    | (with_reducible apply Keep.step _ (serveOwn_keep ..) _; on_goal 2 => decide)
    | (with_reducible apply Keep.ite <;> intro _)
    | split

theorem execLaneTestStop_kept (s : State) :
    Confined false 0x33cedf004f626edfe23ee33eee0efd804000283 s (execLaneTestStop s) := by
  unfold execLaneTestStop
  apply actM_kept
  try dsimp only
  repeat' first
    | with_reducible apply Keep.refl
    | with_reducible assumption
    | (with_reducible apply Keep.step _ (serveOwn_keep ..) _; on_goal 2 => decide)
    | (with_reducible apply Keep.ite <;> intro _)
    | split

theorem execPrbsClear_kept (s : State) :
    Confined false 0x33cedf004f626edfe23ee33eee0efd804000283 s (execPrbsClear s) := by
  unfold execPrbsClear
  apply actM_kept
  try dsimp only
  repeat' first
    | with_reducible apply Keep.refl
    | with_reducible assumption
    | (with_reducible apply Keep.step _ (serveOwn_keep ..) _; on_goal 2 => decide)
    | (with_reducible apply Keep.ite <;> intro _)
    | split

theorem execPrbsCheckerLock_kept (l : Lane) (gained : Bool) (bits : ℕ) (errors : ℕ) (s : State) :
    Confined false 0x1 s (execPrbsCheckerLock l gained bits errors s) := by
  unfold execPrbsCheckerLock
  apply actIf_kept
  try dsimp only
  repeat' first
    | with_reducible apply Keep.refl
    | with_reducible assumption
    | (with_reducible apply Keep.step _ (prbsCheck_keep ..) _; on_goal 2 => decide)
    | (with_reducible apply Keep.ite <;> intro _)
    | split

theorem execEyeScanStart_kept (s : State) :
    Confined false 0x33cedf004f626edfe23ee33eee0efd804000283 s (execEyeScanStart s) := by
  unfold execEyeScanStart
  apply actM_kept
  try dsimp only
  repeat' first
    | with_reducible apply Keep.refl
    | with_reducible assumption
    | (with_reducible apply Keep.step _ (serveOwn_keep ..) _; on_goal 2 => decide)
    | (with_reducible apply Keep.ite <;> intro _)
    | split

theorem execEyeScanDone_kept (l : Lane) (counts : List ℕ) (s : State) :
    Confined false 0x2000000000000000000000060000000001 s (execEyeScanDone l counts s) := by
  unfold execEyeScanDone
  apply actIf_kept
  try dsimp only
  repeat' first
    | with_reducible apply Keep.refl
    | with_reducible assumption
    | (with_reducible apply Keep.step _ (eyeDone_keep ..) _; on_goal 2 => decide)
    | (with_reducible apply Keep.ite <;> intro _)
    | split

theorem execEyeScanResume_kept (l : Lane) (s : State) :
    Confined false 0x1 s (execEyeScanResume l s) := by
  unfold execEyeScanResume
  apply actIf_kept
  try dsimp only
  repeat' first
    | with_reducible apply Keep.refl
    | with_reducible assumption
    | (with_reducible apply Keep.step _ (eyeResume_keep ..) _; on_goal 2 => decide)
    | (with_reducible apply Keep.ite <;> intro _)
    | split

theorem execEyeScanAbort_kept (l : Lane) (s : State) :
    Confined false 0x2000000000000000000000000000000001 s (execEyeScanAbort l s) := by
  unfold execEyeScanAbort
  apply actIf_kept
  try dsimp only
  repeat' first
    | with_reducible apply Keep.refl
    | with_reducible assumption
    | (with_reducible apply Keep.step _ (eyeAbort_keep ..) _; on_goal 2 => decide)
    | (with_reducible apply Keep.ite <;> intro _)
    | split

theorem execFieldLaneUp_kept (f : Fin 2) (s : State) :
    Confined false 0x602000000000000000000000000000000001 s (execFieldLaneUp f s) := by
  unfold execFieldLaneUp
  apply actIfM_kept
  try dsimp only
  repeat' first
    | with_reducible apply Keep.refl
    | with_reducible assumption
    | (with_reducible apply Keep.step _ (fieldUp_keep ..) _; on_goal 2 => decide)
    | (with_reducible apply Keep.ite <;> intro _)
    | split

theorem execFieldLaneDown_kept (f : Fin 2) (s : State) :
    Confined false 0x602000000000000000000000000000000001 s (execFieldLaneDown f s) := by
  unfold execFieldLaneDown
  apply actIf_kept
  try dsimp only
  repeat' first
    | with_reducible apply Keep.refl
    | with_reducible assumption
    | (with_reducible apply Keep.step _ (fieldDown_keep ..) _; on_goal 2 => decide)
    | (with_reducible apply Keep.ite <;> intro _)
    | split

theorem execFieldLaneRetry_kept (a0 : Fin 2) (s : State) :
    Confined false 0x0 s (execFieldLaneRetry a0 s) := by
  unfold execFieldLaneRetry
  apply act_kept
  try dsimp only
  repeat' first
    | with_reducible apply Keep.refl
    | with_reducible assumption
    | (with_reducible apply Keep.ite <;> intro _)
    | split
    | exact Keep.refl

theorem execFieldLaneConfigWrite_kept (s : State) :
    Confined false 0x33cedf004f626edfe23ee33eee0efd804000283 s (execFieldLaneConfigWrite s) := by
  unfold execFieldLaneConfigWrite
  apply actM_kept
  try dsimp only
  repeat' first
    | with_reducible apply Keep.refl
    | with_reducible assumption
    | (with_reducible apply Keep.step _ (serveOwn_keep ..) _; on_goal 2 => decide)
    | (with_reducible apply Keep.ite <;> intro _)
    | split

theorem execSpareBurst_kept (l : Lane) (s : State) :
    Confined false 0x200000000000000000000000000000000000000 s (execSpareBurst l s) := by
  unfold execSpareBurst
  apply actIf_kept
  try dsimp only
  repeat' first
    | with_reducible apply Keep.refl
    | with_reducible assumption
    | (with_reducible apply Keep.step _ (spareBurst_keep ..) _; on_goal 2 => decide)
    | (with_reducible apply Keep.ite <;> intro _)
    | split

theorem execSpareFault_kept (l : Lane) (s : State) :
    Confined false 0x2006020000000000000000006a0090000000001 s (execSpareFault l s) := by
  unfold execSpareFault
  apply actIf_kept
  try dsimp only
  repeat' first
    | with_reducible apply Keep.refl
    | with_reducible assumption
    | (with_reducible apply Keep.step _ (spareFault_keep ..) _; on_goal 2 => decide)
    | (with_reducible apply Keep.ite <;> intro _)
    | split

theorem execBridgeCompareDone_kept (p : Port) (role : Reg4) (s : State) :
    Confined false 0x200000000000000000000000080000000000000 s (execBridgeCompareDone p role s) := by
  unfold execBridgeCompareDone
  apply actIf_kept
  try dsimp only
  repeat' first
    | with_reducible apply Keep.refl
    | with_reducible assumption
    | (with_reducible apply Keep.step _ (bridgeDone_keep ..) _; on_goal 2 => decide)
    | (with_reducible apply Keep.ite <;> intro _)
    | split

theorem execRollCodeword_kept (p : Port) (role : Reg4) (shift : ℤ) (s : State) :
    Confined false 0x2046020000000000000000027a0090000000001 s (execRollCodeword p role shift s) := by
  unfold execRollCodeword
  apply actIf_kept
  try dsimp only
  repeat' first
    | with_reducible apply Keep.refl
    | with_reducible assumption
    | (with_reducible apply Keep.step _ (rollCodeword_keep ..) _; on_goal 2 => decide)
    | (with_reducible apply Keep.ite <;> intro _)
    | split

theorem execRollTimeout_kept (p : Port) (role : Reg4) (s : State) :
    Confined false 0x2006020000000000000000000a0090000000001 s (execRollTimeout p role s) := by
  unfold execRollTimeout
  apply actIf_kept
  try dsimp only
  repeat' first
    | with_reducible apply Keep.refl
    | with_reducible assumption
    | (with_reducible apply Keep.step _ (rollTimeout_keep ..) _; on_goal 2 => decide)
    | (with_reducible apply Keep.ite <;> intro _)
    | split

theorem execSpareDeskewed_kept (p : Port) (role : Reg4) (shift : ℤ) (interruptNs : ℕ) (s : State) :
    Confined false 0x2046020000000000000000027a0090000000001 s (execSpareDeskewed p role shift interruptNs s) := by
  unfold execSpareDeskewed
  apply actIf_kept
  try dsimp only
  repeat' first
    | with_reducible apply Keep.refl
    | with_reducible assumption
    | (with_reducible apply Keep.step _ (spareDeskewed_keep ..) _; on_goal 2 => decide)
    | (with_reducible apply Keep.ite <;> intro _)
    | split

theorem execRetestStart_kept (l : Lane) (s : State) :
    Confined false 0x300002000000000000000000020000000000001 s (execRetestStart l s) := by
  unfold execRetestStart
  apply actIf_kept
  try dsimp only
  repeat' first
    | with_reducible apply Keep.refl
    | with_reducible assumption
    | (with_reducible apply Keep.step _ (retestStart_keep ..) _; on_goal 2 => decide)
    | (with_reducible apply Keep.ite <;> intro _)
    | split

theorem execRetestMeasured_kept (l : Lane) (m : SurveyMeas) (s : State) :
    Confined false 0x300602000000000000000000020090000000001 s (execRetestMeasured l m s) := by
  unfold execRetestMeasured
  apply actIf_kept
  try dsimp only
  repeat' first
    | with_reducible apply Keep.refl
    | with_reducible assumption
    | (with_reducible apply Keep.step _ (retestMeasured_keep ..) _; on_goal 2 => decide)
    | (with_reducible apply Keep.ite <;> intro _)
    | split

theorem execRetireClear_kept (s : State) :
    Confined false 0x33cedf004f626edfe23ee33eee0efd804000283 s (execRetireClear s) := by
  unfold execRetireClear
  apply actM_kept
  try dsimp only
  repeat' first
    | with_reducible apply Keep.refl
    | with_reducible assumption
    | (with_reducible apply Keep.step _ (serveOwn_keep ..) _; on_goal 2 => decide)
    | (with_reducible apply Keep.ite <;> intro _)
    | split

theorem execRoundNow_kept (s : State) :
    Confined false 0x33cedf004f626edfe23ee33eee0efd804000283 s (execRoundNow s) := by
  unfold execRoundNow
  apply actM_kept
  try dsimp only
  repeat' first
    | with_reducible apply Keep.refl
    | with_reducible assumption
    | (with_reducible apply Keep.step _ (serveOwn_keep ..) _; on_goal 2 => decide)
    | (with_reducible apply Keep.ite <;> intro _)
    | split

theorem execRoundPeriodExpiry_kept (s : State) :
    Confined false 0xa00000000000001 s (execRoundPeriodExpiry s) := by
  unfold execRoundPeriodExpiry
  apply actIf_kept
  try dsimp only
  repeat' first
    | with_reducible apply Keep.refl
    | with_reducible assumption
    | (with_reducible apply Keep.step _ (roundPeriod_keep ..) _; on_goal 2 => decide)
    | (with_reducible apply Keep.ite <;> intro _)
    | split

theorem execSurveyStart_kept (b : Brick) (s : State) :
    Confined false 0x200602000b000000000000017a00b0100000001 s (execSurveyStart b s) := by
  unfold execSurveyStart
  apply actIf_kept
  try dsimp only
  repeat' first
    | with_reducible apply Keep.refl
    | with_reducible assumption
    | (with_reducible apply Keep.step _ (surveyStart_keep ..) _; on_goal 2 => decide)
    | (with_reducible apply Keep.ite <;> intro _)
    | split

theorem execSurveyPrbsEnd_kept (b : Brick) (m : SurveyMeas) (remeasured : Option SurveyMeas) (again : Option SurveyMeas) (s : State) :
    Confined false 0x304602000b000000000000017a00b0000000001 s (execSurveyPrbsEnd b m remeasured again s) := by
  unfold execSurveyPrbsEnd
  apply actIf_kept
  try dsimp only
  repeat' first
    | with_reducible apply Keep.refl
    | with_reducible assumption
    | (with_reducible apply Keep.step _ (surveyPrbsEnd_keep ..) _; on_goal 2 => decide)
    | (with_reducible apply Keep.ite <;> intro _)
    | split

theorem execSurveyNow_kept (s : State) :
    Confined false 0x33cedf004f626edfe23ee33eee0efd804000283 s (execSurveyNow s) := by
  unfold execSurveyNow
  apply actM_kept
  try dsimp only
  repeat' first
    | with_reducible apply Keep.refl
    | with_reducible assumption
    | (with_reducible apply Keep.step _ (serveOwn_keep ..) _; on_goal 2 => decide)
    | (with_reducible apply Keep.ite <;> intro _)
    | split

theorem execTelltaleMeasure_kept (stressed : List ℕ) (reference : List ℕ) (s : State) :
    Confined false 0x2000000000000000000000000000000001 s (execTelltaleMeasure stressed reference s) := by
  unfold execTelltaleMeasure
  apply actIf_kept
  try dsimp only
  repeat' first
    | with_reducible apply Keep.refl
    | with_reducible assumption
    | (with_reducible apply Keep.step _ (telltale_keep ..) _; on_goal 2 => decide)
    | (with_reducible apply Keep.ite <;> intro _)
    | split

theorem execServiceSHourly_kept (s : State) :
    Confined false 0xb00000000000000000000000000000 s (execServiceSHourly s) := by
  unfold execServiceSHourly
  apply actIf_kept
  try dsimp only
  repeat' first
    | with_reducible apply Keep.refl
    | with_reducible assumption
    | (with_reducible apply Keep.step _ (serviceGroup_keep ..) _; on_goal 2 => decide)
    | (with_reducible apply Keep.ite <;> intro _)
    | split

theorem execSpareRateWrite_kept (s : State) :
    Confined false 0x33cedf004f626edfe23ee33eee0efd804000283 s (execSpareRateWrite s) := by
  unfold execSpareRateWrite
  apply actM_kept
  try dsimp only
  repeat' first
    | with_reducible apply Keep.refl
    | with_reducible assumption
    | (with_reducible apply Keep.step _ (serveOwn_keep ..) _; on_goal 2 => decide)
    | (with_reducible apply Keep.ite <;> intro _)
    | split

theorem execPortRestart_kept (s : State) :
    Confined false 0x33cedf004f626edfe23ee33eee0efd804000283 s (execPortRestart s) := by
  unfold execPortRestart
  apply actM_kept
  try dsimp only
  repeat' first
    | with_reducible apply Keep.refl
    | with_reducible assumption
    | (with_reducible apply Keep.step _ (serveOwn_keep ..) _; on_goal 2 => decide)
    | (with_reducible apply Keep.ite <;> intro _)
    | split

theorem execSpAdminWrite_kept (s : State) :
    Confined false 0x33cedf004f626edfe23ee33eee0efd804000283 s (execSpAdminWrite s) := by
  unfold execSpAdminWrite
  apply actM_kept
  try dsimp only
  repeat' first
    | with_reducible apply Keep.refl
    | with_reducible assumption
    | (with_reducible apply Keep.step _ (serveOwn_keep ..) _; on_goal 2 => decide)
    | (with_reducible apply Keep.ite <;> intro _)
    | split

theorem execHeaderLockLoss_kept (sp : SubPort) (s : State) :
    Confined false 0x2000000000000000010000000000000001 s (execHeaderLockLoss sp s) := by
  unfold execHeaderLockLoss
  apply actIf_kept
  try dsimp only
  repeat' first
    | with_reducible apply Keep.refl
    | with_reducible assumption
    | (with_reducible apply Keep.step _ (headerLockLoss_keep ..) _; on_goal 2 => decide)
    | (with_reducible apply Keep.ite <;> intro _)
    | split

theorem execHeaderLockTimeout_kept (sp : SubPort) (s : State) :
    Confined false 0x304603000000005f6038031c6e0090000000003 s (execHeaderLockTimeout sp s) := by
  unfold execHeaderLockTimeout
  apply actIf_kept
  try dsimp only
  repeat' first
    | with_reducible apply Keep.refl
    | with_reducible assumption
    | (with_reducible apply Keep.step _ (headerTimeout_keep ..) _; on_goal 2 => decide)
    | (with_reducible apply Keep.ite <;> intro _)
    | split

theorem execHeaderLockRegained_kept (sp : SubPort) (s : State) :
    Confined false 0x10000000000000000 s (execHeaderLockRegained sp s) := by
  unfold execHeaderLockRegained
  apply actIf_kept
  try dsimp only
  repeat' first
    | with_reducible apply Keep.refl
    | with_reducible assumption
    | (with_reducible apply Keep.step _ (headerLockBack_keep ..) _; on_goal 2 => decide)
    | (with_reducible apply Keep.ite <;> intro _)
    | split

theorem execHiBer_kept (sp : SubPort) (s : State) :
    Confined false 0x304603000000005f6038031c6e0090000000003 s (execHiBer sp s) := by
  unfold execHiBer
  apply actIf_kept
  try dsimp only
  repeat' first
    | with_reducible apply Keep.refl
    | with_reducible assumption
    | (with_reducible apply Keep.step _ (hiBer_keep ..) _; on_goal 2 => decide)
    | (with_reducible apply Keep.ite <;> intro _)
    | split

theorem execRxFrame_kept (f : RxFrame) (s : State) :
    Confined false 0x205e03000b00020010452f4e00c090000000001 s (execRxFrame f s) := by
  unfold execRxFrame
  apply actIf_kept
  try dsimp only
  repeat' first
    | with_reducible apply Keep.refl
    | with_reducible assumption
    | (with_reducible apply Keep.step _ (rxFrame_keep ..) _; on_goal 2 => decide)
    | (with_reducible apply Keep.ite <;> intro _)
    | split

theorem execPauseFrameRx_kept (sp : SubPort) (quanta : ℕ) (s : State) :
    Confined false 0x5802000000000000000004000000000000001 s (execPauseFrameRx sp quanta s) := by
  unfold execPauseFrameRx
  apply actIf_kept
  try dsimp only
  repeat' first
    | with_reducible apply Keep.refl
    | with_reducible assumption
    | (with_reducible apply Keep.step _ (pauseRx_keep ..) _; on_goal 2 => decide)
    | (with_reducible apply Keep.ite <;> intro _)
    | split

theorem execPfcFrameRx_kept (sp : SubPort) (enable : ℕ) (times : List ℕ) (s : State) :
    Confined false 0x5802000000000000000004000000000000001 s (execPfcFrameRx sp enable times s) := by
  unfold execPfcFrameRx
  apply actIf_kept
  try dsimp only
  repeat' first
    | with_reducible apply Keep.refl
    | with_reducible assumption
    | (with_reducible apply Keep.step _ (pfcRx_keep ..) _; on_goal 2 => decide)
    | (with_reducible apply Keep.ite <;> intro _)
    | split

theorem execPauseExpiry_kept (sp : SubPort) (tc : Fin 8) (s : State) :
    Confined false 0x4000000000000001 s (execPauseExpiry sp tc s) := by
  unfold execPauseExpiry
  apply actIf_kept
  try dsimp only
  repeat' first
    | with_reducible apply Keep.refl
    | with_reducible assumption
    | (with_reducible apply Keep.step _ (pauseExpiry_keep ..) _; on_goal 2 => decide)
    | (with_reducible apply Keep.ite <;> intro _)
    | split

theorem execPfcRefresh_kept (sp : SubPort) (tc : Fin 8) (s : State) :
    Confined false 0x8000000000000000 s (execPfcRefresh sp tc s) := by
  unfold execPfcRefresh
  apply actIf_kept
  try dsimp only
  repeat' first
    | with_reducible apply Keep.refl
    | with_reducible assumption
    | (with_reducible apply Keep.step _ (pfcRefresh_keep ..) _; on_goal 2 => decide)
    | (with_reducible apply Keep.ite <;> intro _)
    | split

theorem execQuietIdleExpiry_kept (p : Port) (s : State) :
    Confined false 0x200000000000000000000002000000000000000 s (execQuietIdleExpiry p s) := by
  unfold execQuietIdleExpiry
  apply actIf_kept
  try dsimp only
  repeat' first
    | with_reducible apply Keep.refl
    | with_reducible assumption
    | (with_reducible apply Keep.step _ (quietIdle_keep ..) _; on_goal 2 => decide)
    | (with_reducible apply Keep.ite <;> intro _)
    | split

theorem execLpiReceived_kept (p : Port) (s : State) :
    Confined false 0x204002000000000000000002020000000000001 s (execLpiReceived p s) := by
  unfold execLpiReceived
  apply actIf_kept
  try dsimp only
  repeat' first
    | with_reducible apply Keep.refl
    | with_reducible assumption
    | (with_reducible apply Keep.step _ (lpiReceived_keep ..) _; on_goal 2 => decide)
    | (with_reducible apply Keep.ite <;> intro _)
    | split

theorem execQuietHandshakeTimeout_kept (p : Port) (s : State) :
    Confined false 0x204603000000005f6038031e6a0090000000003 s (execQuietHandshakeTimeout p s) := by
  unfold execQuietHandshakeTimeout
  apply actIf_kept
  try dsimp only
  repeat' first
    | with_reducible apply Keep.refl
    | with_reducible assumption
    | (with_reducible apply Keep.step _ (quietTimeout_keep ..) _; on_goal 2 => decide)
    | (with_reducible apply Keep.ite <;> intro _)
    | split

theorem execIdleAfterLpi_kept (p : Port) (s : State) :
    Confined false 0x204603000000005f6038031e6a0090000000003 s (execIdleAfterLpi p s) := by
  unfold execIdleAfterLpi
  apply actIf_kept
  try dsimp only
  repeat' first
    | with_reducible apply Keep.refl
    | with_reducible assumption
    | (with_reducible apply Keep.step _ (idleAfterLpi_keep ..) _; on_goal 2 => decide)
    | (with_reducible apply Keep.ite <;> intro _)
    | split

theorem execPartnerWakeBurst_kept (p : Port) (s : State) :
    Confined false 0x200000000000000000000002000000000000000 s (execPartnerWakeBurst p s) := by
  unfold execPartnerWakeBurst
  apply actIf_kept
  try dsimp only
  repeat' first
    | with_reducible apply Keep.refl
    | with_reducible assumption
    | (with_reducible apply Keep.step _ (partnerBurst_keep ..) _; on_goal 2 => decide)
    | (with_reducible apply Keep.ite <;> intro _)
    | split

theorem execQuietWakeComplete_kept (p : Port) (s : State) :
    Confined false 0x4002000000000000000002020000000000001 s (execQuietWakeComplete p s) := by
  unfold execQuietWakeComplete
  apply actIf_kept
  try dsimp only
  repeat' first
    | with_reducible apply Keep.refl
    | with_reducible assumption
    | (with_reducible apply Keep.step _ (wakeComplete_keep ..) _; on_goal 2 => decide)
    | (with_reducible apply Keep.ite <;> intro _)
    | split

theorem execPartnerWakeTimeout_kept (p : Port) (s : State) :
    Confined false 0x304603000000005f6038031e6e0090000000003 s (execPartnerWakeTimeout p s) := by
  unfold execPartnerWakeTimeout
  apply actIf_kept
  try dsimp only
  repeat' first
    | with_reducible apply Keep.refl
    | with_reducible assumption
    | (with_reducible apply Keep.step _ (partnerTimeout_keep ..) _; on_goal 2 => decide)
    | (with_reducible apply Keep.ite <;> intro _)
    | split

end Sys2Proof.Machine
end

