-- ==== Sys2Proof/Laws/KeepCmdStores.lean ====
section
/-! SUPPORT. What each command of Machine/CmdStores.lean may change. -/

set_option linter.unusedTactic false
set_option linter.unreachableTactic false

open Sys2Proof

namespace Sys2Proof.Machine

theorem execSaInstall_kept (s : State) :
    Confined false 0x33cedf004f626edfe23ee33eee0efd804000283 s (execSaInstall s) := by
  unfold execSaInstall
  apply actM_kept
  try dsimp only
  repeat' first
    | with_reducible apply Keep.refl
    | with_reducible assumption
    | (with_reducible apply Keep.step _ (serveOwn_keep ..) _; on_goal 2 => decide)
    | (with_reducible apply Keep.ite <;> intro _)
    | split

theorem execSaRemove_kept (s : State) :
    Confined false 0x33cedf004f626edfe23ee33eee0efd804000283 s (execSaRemove s) := by
  unfold execSaRemove
  apply actM_kept
  try dsimp only
  repeat' first
    | with_reducible apply Keep.refl
    | with_reducible assumption
    | (with_reducible apply Keep.step _ (serveOwn_keep ..) _; on_goal 2 => decide)
    | (with_reducible apply Keep.ite <;> intro _)
    | split

theorem execEncodingAnWrite_kept (s : State) :
    Confined false 0x33cedf004f626edfe23ee33eee0efd804000283 s (execEncodingAnWrite s) := by
  unfold execEncodingAnWrite
  apply actM_kept
  try dsimp only
  repeat' first
    | with_reducible apply Keep.refl
    | with_reducible assumption
    | (with_reducible apply Keep.step _ (serveOwn_keep ..) _; on_goal 2 => decide)
    | (with_reducible apply Keep.ite <;> intro _)
    | split

theorem execPnReservationCommit_kept (sp : SubPort) (an : Fin 4) (s : State) :
    Confined false 0x200042000d001a0000000000000094000000003 s (execPnReservationCommit sp an s) := by
  unfold execPnReservationCommit
  apply actIf_kept
  try dsimp only
  repeat' first
    | with_reducible apply Keep.refl
    | with_reducible assumption
    | (with_reducible apply Keep.step _ (reservationCommit_keep ..) _; on_goal 2 => decide)
    | (with_reducible apply Keep.ite <;> intro _)
    | split

theorem execPnReservationRetry_kept (sp : SubPort) (an : Fin 4) (s : State) :
    Confined false 0x42000900020000000000000000000000001 s (execPnReservationRetry sp an s) := by
  unfold execPnReservationRetry
  apply actIf_kept
  try dsimp only
  repeat' first
    | with_reducible apply Keep.refl
    | with_reducible assumption
    | (with_reducible apply Keep.step _ (reservationRetry_keep ..) _; on_goal 2 => decide)
    | (with_reducible apply Keep.ite <;> intro _)
    | split

theorem execKekInstall_kept (s : State) :
    Confined false 0x33cedf004f626edfe23ee33eee0efd804000283 s (execKekInstall s) := by
  unfold execKekInstall
  apply actM_kept
  try dsimp only
  repeat' first
    | with_reducible apply Keep.refl
    | with_reducible assumption
    | (with_reducible apply Keep.step _ (serveOwn_keep ..) _; on_goal 2 => decide)
    | (with_reducible apply Keep.ite <;> intro _)
    | split

theorem execKekClear_kept (s : State) :
    Confined false 0x33cedf004f626edfe23ee33eee0efd804000283 s (execKekClear s) := by
  unfold execKekClear
  apply actM_kept
  try dsimp only
  repeat' first
    | with_reducible apply Keep.refl
    | with_reducible assumption
    | (with_reducible apply Keep.step _ (serveOwn_keep ..) _; on_goal 2 => decide)
    | (with_reducible apply Keep.ite <;> intro _)
    | split

theorem execKiForget_kept (s : State) :
    Confined false 0x33cedf004f626edfe23ee33eee0efd804000283 s (execKiForget s) := by
  unfold execKiForget
  apply actM_kept
  try dsimp only
  repeat' first
    | with_reducible apply Keep.refl
    | with_reducible assumption
    | (with_reducible apply Keep.step _ (serveOwn_keep ..) _; on_goal 2 => decide)
    | (with_reducible apply Keep.ite <;> intro _)
    | split

theorem execSelftestNow_kept (failedRow : ℕ) (s : State) :
    Confined true 0x33cedf0c6f626edfe23ee33eee0fffa04001283 s (execSelftestNow failedRow s) := by
  unfold execSelftestNow
  apply actMove_kept
  try dsimp only
  repeat' first
    | with_reducible apply Keep.refl
    | with_reducible assumption
    | (with_reducible apply Keep.step _ (selftestHead_keep ..) _; on_goal 2 => decide)
    | (with_reducible apply Keep.ite <;> intro _)
    | split

theorem execZeroiseNow_kept (s : State) :
    Confined false 0x33cedf004f626edfe23ee33eee0ffd804000283 s (execZeroiseNow s) := by
  unfold execZeroiseNow
  apply actM_kept
  try dsimp only
  repeat' first
    | with_reducible apply Keep.refl
    | with_reducible assumption
    | (with_reducible apply Keep.step _ (zeroiseHead_keep ..) _; on_goal 2 => decide)
    | (with_reducible apply Keep.ite <;> intro _)
    | split

theorem execZeroisationComplete_kept (s : State) :
    Confined true 0x2046070c2ffa0a5f6038031c6a099e200401003 s (execZeroisationComplete s) := by
  unfold execZeroisationComplete
  apply actMove_kept
  try dsimp only
  repeat' first
    | with_reducible apply Keep.refl
    | with_reducible assumption
    | (with_reducible apply Keep.step _ (zeroisationComplete_keep ..) _; on_goal 2 => decide)
    | (with_reducible apply Keep.ite <;> intro _)
    | split

theorem execHostOfficerSWrite_kept (s : State) :
    Confined false 0x33cedf004f626edfe23ee33eee0efd804000283 s (execHostOfficerSWrite s) := by
  unfold execHostOfficerSWrite
  apply actM_kept
  try dsimp only
  repeat' first
    | with_reducible apply Keep.refl
    | with_reducible assumption
    | (with_reducible apply Keep.step _ (serveOwn_keep ..) _; on_goal 2 => decide)
    | (with_reducible apply Keep.ite <;> intro _)
    | split

theorem execHostOfficerExpiry_kept (s : State) :
    Confined false 0x1 s (execHostOfficerExpiry s) := by
  unfold execHostOfficerExpiry
  apply actIf_kept
  try dsimp only
  repeat' first
    | with_reducible apply Keep.refl
    | with_reducible assumption
    | (with_reducible apply Keep.step _ (set_keep ..) _; on_goal 2 => decide)
    | (with_reducible apply Keep.ite <;> intro _)
    | split

theorem execMacsecKatDaily_kept (a0 : Port) (ok : Bool) (s : State) :
    Confined true 0x2046070c2f62665f6038031c6a099e200001003 s (execMacsecKatDaily a0 ok s) := by
  unfold execMacsecKatDaily
  apply actMove_kept
  try dsimp only
  repeat' first
    | with_reducible apply Keep.refl
    | with_reducible assumption
    | (with_reducible apply Keep.step _ (continuousFail_keep ..) _; on_goal 2 => decide)
    | (with_reducible apply Keep.ite <;> intro _)
    | split

theorem execContinuousTestFail_kept (s : State) :
    Confined true 0x2046070c2f62665f6038031c6a099e200001003 s (execContinuousTestFail s) := by
  unfold execContinuousTestFail
  apply actMove_kept
  try dsimp only
  repeat' first
    | with_reducible apply Keep.refl
    | with_reducible assumption
    | (with_reducible apply Keep.step _ (continuousFail_keep ..) _; on_goal 2 => decide)
    | (with_reducible apply Keep.ite <;> intro _)
    | split

theorem execTamperEvent_kept (s : State) :
    Confined true 0x2046070c2f62665f6038031c6a099e200001003 s (execTamperEvent s) := by
  unfold execTamperEvent
  apply actMove_kept
  try dsimp only
  repeat' first
    | with_reducible apply Keep.refl
    | with_reducible assumption
    | (with_reducible apply Keep.step _ (tamper_keep ..) _; on_goal 2 => decide)
    | (with_reducible apply Keep.ite <;> intro _)
    | split

theorem execSheafCommit_kept (readbackBad : Option (Fin 2)) (s : State) :
    Confined false 0x2006023d2ff80200000000000000b4000000003 s (execSheafCommit readbackBad s) := by
  unfold execSheafCommit
  apply actIfM_kept
  try dsimp only
  repeat' first
    | with_reducible apply Keep.refl
    | with_reducible assumption
    | (with_reducible apply Keep.step _ (commitEvent_keep ..) _; on_goal 2 => decide)
    | (with_reducible apply Keep.ite <;> intro _)
    | split

theorem execWearProjection_kept (s : State) :
    Confined false 0x2006024c2b00000000000000000090000000001 s (execWearProjection s) := by
  unfold execWearProjection
  apply actIf_kept
  try dsimp only
  repeat' first
    | with_reducible apply Keep.refl
    | with_reducible assumption
    | (with_reducible apply Keep.step _ (wearProjection_keep ..) _; on_goal 2 => decide)
    | (with_reducible apply Keep.ite <;> intro _)
    | split

theorem execGranaryScrubRead_kept (slot : ℕ) (damage : List Damage) (s : State) :
    Confined false 0x200602001318000000000000000090000000001 s (execGranaryScrubRead slot damage s) := by
  unfold execGranaryScrubRead
  apply actIfM_kept
  try dsimp only
  repeat' first
    | with_reducible apply Keep.refl
    | with_reducible assumption
    | (with_reducible apply Keep.step _ (scrubRead_keep ..) _; on_goal 2 => decide)
    | (with_reducible apply Keep.ite <;> intro _)
    | split

theorem execVgranLoss_kept (s : State) :
    Confined false 0x420000000000000000000000000000e0001 s (execVgranLoss s) := by
  unfold execVgranLoss
  apply actM_kept
  try dsimp only
  repeat' first
    | with_reducible apply Keep.refl
    | with_reducible assumption
    | (with_reducible apply Keep.step _ (vgranLoss_keep ..) _; on_goal 2 => decide)
    | (with_reducible apply Keep.ite <;> intro _)
    | split

theorem execVgranRestored_kept (s : State) :
    Confined false 0x420003000000000000000000000000e0001 s (execVgranRestored s) := by
  unfold execVgranRestored
  apply actM_kept
  try dsimp only
  repeat' first
    | with_reducible apply Keep.refl
    | with_reducible assumption
    | (with_reducible apply Keep.step _ (vgranRestored_keep ..) _; on_goal 2 => decide)
    | (with_reducible apply Keep.ite <;> intro _)
    | split

theorem execVgranFailTimeout_kept (s : State) :
    Confined false 0x2006020c2f00020000000000000094000000003 s (execVgranFailTimeout s) := by
  unfold execVgranFailTimeout
  apply actM_kept
  try dsimp only
  repeat' first
    | with_reducible apply Keep.refl
    | with_reducible assumption
    | (with_reducible apply Keep.step _ (vgranFailTimeout_keep ..) _; on_goal 2 => decide)
    | (with_reducible apply Keep.step _ (settle_keep ..) _; on_goal 2 => decide)
    | (with_reducible apply Keep.ite <;> intro _)
    | split

theorem execChangeCommitTimer_kept (index : ℕ) (sub : ℕ) (s : State) :
    Confined false 0xb00000000000000000000000000000 s (execChangeCommitTimer index sub s) := by
  unfold execChangeCommitTimer
  apply actIf_kept
  try dsimp only
  repeat' first
    | with_reducible apply Keep.refl
    | with_reducible assumption
    | (with_reducible apply Keep.step _ (changeCommit_keep ..) _; on_goal 2 => decide)
    | (with_reducible apply Keep.ite <;> intro _)
    | split

theorem execAllowanceRefill_kept (s : State) :
    Confined false 0x1 s (execAllowanceRefill s) := by
  unfold execAllowanceRefill
  apply actIf_kept
  try dsimp only
  repeat' first
    | with_reducible apply Keep.refl
    | with_reducible assumption
    | (with_reducible apply Keep.step _ (allowanceRefill_keep ..) _; on_goal 2 => decide)
    | (with_reducible apply Keep.ite <;> intro _)
    | split

theorem execDigestBucketRefill_kept (s : State) :
    Confined false 0x40000000000000000000000000000000 s (execDigestBucketRefill s) := by
  unfold execDigestBucketRefill
  apply actIf_kept
  try dsimp only
  repeat' first
    | with_reducible apply Keep.refl
    | with_reducible assumption
    | (with_reducible apply Keep.step _ (digestRefill_keep ..) _; on_goal 2 => decide)
    | (with_reducible apply Keep.ite <;> intro _)
    | split

theorem execShelfRollback_kept (s : State) :
    Confined false 0x33cedf004f626edfe23ee33eee0efd804000283 s (execShelfRollback s) := by
  unfold execShelfRollback
  apply actM_kept
  try dsimp only
  repeat' first
    | with_reducible apply Keep.refl
    | with_reducible assumption
    | (with_reducible apply Keep.step _ (serveOwn_keep ..) _; on_goal 2 => decide)
    | (with_reducible apply Keep.ite <;> intro _)
    | split

theorem execRingDoorbell_kept (d : RingDir) (i : RingNo) (value : ℕ) (s : State) :
    Confined false 0x20000b000000001000000000000000004000003 s (execRingDoorbell d i value s) := by
  unfold execRingDoorbell
  apply actIf_kept
  try dsimp only
  repeat' first
    | with_reducible apply Keep.refl
    | with_reducible assumption
    | (with_reducible apply Keep.step _ (ringDoorbell_keep ..) _; on_goal 2 => decide)
    | (with_reducible apply Keep.ite <;> intro _)
    | split

theorem execRingEnable_kept (d : RingDir) (i : RingNo) (ctrl : ℕ) (s : State) :
    Confined false 0x3000000000000000000000000000000003 s (execRingEnable d i ctrl s) := by
  unfold execRingEnable
  apply actIf_kept
  try dsimp only
  repeat' first
    | with_reducible apply Keep.refl
    | with_reducible assumption
    | (with_reducible apply Keep.step _ (ringCtrlAny_keep ..) _; on_goal 2 => decide)
    | (with_reducible apply Keep.ite <;> intro _)
    | split

theorem execRingDisable_kept (d : RingDir) (i : RingNo) (ctrl : ℕ) (s : State) :
    Confined false 0x3000000000000000000000000000000003 s (execRingDisable d i ctrl s) := by
  unfold execRingDisable
  apply actIf_kept
  try dsimp only
  repeat' first
    | with_reducible apply Keep.refl
    | with_reducible assumption
    | (with_reducible apply Keep.step _ (ringCtrlAny_keep ..) _; on_goal 2 => decide)
    | (with_reducible apply Keep.ite <;> intro _)
    | split

theorem execRingStopped_kept (d : RingDir) (i : RingNo) (s : State) :
    Confined false 0x2 s (execRingStopped d i s) := by
  unfold execRingStopped
  apply actIf_kept
  try dsimp only
  repeat' first
    | with_reducible apply Keep.refl
    | with_reducible assumption
    | (with_reducible apply Keep.step _ (ringStopped_keep ..) _; on_goal 2 => decide)
    | (with_reducible apply Keep.ite <;> intro _)
    | split

theorem execDescriptorFetchDone_kept (d : RingDir) (i : RingNo) (descs : List ℕ) (s : State) :
    Confined false 0x20000b000000001000000000000000004000003 s (execDescriptorFetchDone d i descs s) := by
  unfold execDescriptorFetchDone
  apply actIf_kept
  try dsimp only
  repeat' first
    | with_reducible apply Keep.refl
    | with_reducible assumption
    | (with_reducible apply Keep.step _ (descDone_keep ..) _; on_goal 2 => decide)
    | (with_reducible apply Keep.ite <;> intro _)
    | split

theorem execTxDataReadDone_kept (i : RingNo) (data : List Byte) (s : State) :
    Confined false 0x20000f000000005c60000002000000004000003 s (execTxDataReadDone i data s) := by
  unfold execTxDataReadDone
  apply actIf_kept
  try dsimp only
  repeat' first
    | with_reducible apply Keep.refl
    | with_reducible assumption
    | (with_reducible apply Keep.step _ (txDataDone_keep ..) _; on_goal 2 => decide)
    | (with_reducible apply Keep.ite <;> intro _)
    | split

theorem execRxRingDeliver_kept (i : RingNo) (s : State) :
    Confined false 0x20000f000000001000000308000000004000003 s (execRxRingDeliver i s) := by
  unfold execRxRingDeliver
  apply actIf_kept
  try dsimp only
  repeat' first
    | with_reducible apply Keep.refl
    | with_reducible assumption
    | (with_reducible apply Keep.step _ (rxDeliver_keep ..) _; on_goal 2 => decide)
    | (with_reducible apply Keep.ite <;> intro _)
    | split

theorem execVectorDelivery_kept (v : Fin 256) (s : State) :
    Confined false 0x200002000000000000000000000000000000001 s (execVectorDelivery v s) := by
  unfold execVectorDelivery
  apply actIf_kept
  try dsimp only
  repeat' first
    | with_reducible apply Keep.refl
    | with_reducible assumption
    | (with_reducible apply Keep.step _ (vectorDeliver_keep ..) _; on_goal 2 => decide)
    | (with_reducible apply Keep.ite <;> intro _)
    | split

theorem execMillEnable_kept (s : State) :
    Confined false 0x33cedf004f626edfe23ee33eee0efd804000283 s (execMillEnable s) := by
  unfold execMillEnable
  apply actM_kept
  try dsimp only
  repeat' first
    | with_reducible apply Keep.refl
    | with_reducible assumption
    | (with_reducible apply Keep.step _ (serveOwn_keep ..) _; on_goal 2 => decide)
    | (with_reducible apply Keep.ite <;> intro _)
    | split

theorem execMillDisable_kept (s : State) :
    Confined false 0x33cedf004f626edfe23ee33eee0efd804000283 s (execMillDisable s) := by
  unfold execMillDisable
  apply actM_kept
  try dsimp only
  repeat' first
    | with_reducible apply Keep.refl
    | with_reducible assumption
    | (with_reducible apply Keep.step _ (serveOwn_keep ..) _; on_goal 2 => decide)
    | (with_reducible apply Keep.ite <;> intro _)
    | split

theorem execMillDrained_kept (sp : SubPort) (s : State) :
    Confined false 0x304002000000000000000000060000000000001 s (execMillDrained sp s) := by
  unfold execMillDrained
  apply actIf_kept
  try dsimp only
  repeat' first
    | with_reducible apply Keep.refl
    | with_reducible assumption
    | (with_reducible apply Keep.step _ (millDrained_keep ..) _; on_goal 2 => decide)
    | (with_reducible apply Keep.ite <;> intro _)
    | split

theorem execMillFrame_kept (b : Brick) (s : State) :
    Confined false 0x20000f000000001000000000000000004000003 s (execMillFrame b s) := by
  unfold execMillFrame
  apply actIf_kept
  try dsimp only
  repeat' first
    | with_reducible apply Keep.refl
    | with_reducible assumption
    | (with_reducible apply Keep.step _ (millFrame_keep ..) _; on_goal 2 => decide)
    | (with_reducible apply Keep.ite <;> intro _)
    | split

theorem execMillOversize_kept (b : Brick) (s : State) :
    Confined false 0x200006000000000000000000000000000000003 s (execMillOversize b s) := by
  unfold execMillOversize
  apply actIf_kept
  try dsimp only
  repeat' first
    | with_reducible apply Keep.refl
    | with_reducible assumption
    | (with_reducible apply Keep.step _ (millOversize_keep ..) _; on_goal 2 => decide)
    | (with_reducible apply Keep.ite <;> intro _)
    | split

theorem execHostBhEnableWrite_kept (hi : Bool) (value : ℕ) (s : State) :
    Confined false 0x2000000000000000000000000000000001 s (execHostBhEnableWrite hi value s) := by
  unfold execHostBhEnableWrite
  apply actIf_kept
  try dsimp only
  repeat' first
    | with_reducible apply Keep.refl
    | with_reducible assumption
    | (with_reducible apply Keep.step _ (hostEnable_keep ..) _; on_goal 2 => decide)
    | (with_reducible apply Keep.ite <;> intro _)
    | split

theorem execHostBhClear_kept (hi : Bool) (value : ℕ) (s : State) :
    Confined false 0x2000000000000000000000000000000001 s (execHostBhClear hi value s) := by
  unfold execHostBhClear
  apply actIf_kept
  try dsimp only
  repeat' first
    | with_reducible apply Keep.refl
    | with_reducible assumption
    | (with_reducible apply Keep.step _ (hostClear_keep ..) _; on_goal 2 => decide)
    | (with_reducible apply Keep.ite <;> intro _)
    | split

end Sys2Proof.Machine
end

