-- ==== Sys2Proof/Laws/KeepCmdUnits.lean ====
section
/-! SUPPORT. What each command of Machine/CmdUnits.lean may change. -/

set_option linter.unusedTactic false
set_option linter.unreachableTactic false

open Sys2Proof

namespace Sys2Proof.Machine

theorem execMNop_kept (u : Seqr) (s : State) :
    Confined false 0x1812000000000000000000000000000000001 s (execMNop u s) := by
  unfold execMNop
  apply actSeq_kept
  try dsimp only
  repeat' first
    | with_reducible apply Keep.refl
    | with_reducible assumption
    | (with_reducible apply Keep.step _ (mNop_keep ..) _; on_goal 2 => decide)
    | (with_reducible apply Keep.ite <;> intro _)
    | split

theorem execMMov_kept (u : Seqr) (d : Reg4) (a2 : Reg4) (s : State) :
    Confined false 0x1812000000000000000000000000000000001 s (execMMov u d a2 s) := by
  unfold execMMov
  apply actSeq_kept
  try dsimp only
  repeat' first
    | with_reducible apply Keep.refl
    | with_reducible assumption
    | (with_reducible apply Keep.step _ (mMov_keep ..) _; on_goal 2 => decide)
    | (with_reducible apply Keep.ite <;> intro _)
    | split

theorem execMLdi_kept (u : Seqr) (imm : Byte) (s : State) :
    Confined false 0x1812000000000000000000000000000000001 s (execMLdi u imm s) := by
  unfold execMLdi
  apply actSeq_kept
  try dsimp only
  repeat' first
    | with_reducible apply Keep.refl
    | with_reducible assumption
    | (with_reducible apply Keep.step _ (mLdi_keep ..) _; on_goal 2 => decide)
    | (with_reducible apply Keep.ite <;> intro _)
    | split

theorem execMLdh_kept (u : Seqr) (imm : Byte) (s : State) :
    Confined false 0x1812000000000000000000000000000000001 s (execMLdh u imm s) := by
  unfold execMLdh
  apply actSeq_kept
  try dsimp only
  repeat' first
    | with_reducible apply Keep.refl
    | with_reducible assumption
    | (with_reducible apply Keep.step _ (mLdh_keep ..) _; on_goal 2 => decide)
    | (with_reducible apply Keep.ite <;> intro _)
    | split

theorem execMAdd_kept (u : Seqr) (d : Reg4) (a2 : Reg4) (s : State) :
    Confined false 0x1812000000000000000000000000000000001 s (execMAdd u d a2 s) := by
  unfold execMAdd
  apply actSeq_kept
  try dsimp only
  repeat' first
    | with_reducible apply Keep.refl
    | with_reducible assumption
    | (with_reducible apply Keep.step _ (mAdd_keep ..) _; on_goal 2 => decide)
    | (with_reducible apply Keep.ite <;> intro _)
    | split

theorem execMSub_kept (u : Seqr) (d : Reg4) (a2 : Reg4) (s : State) :
    Confined false 0x1812000000000000000000000000000000001 s (execMSub u d a2 s) := by
  unfold execMSub
  apply actSeq_kept
  try dsimp only
  repeat' first
    | with_reducible apply Keep.refl
    | with_reducible assumption
    | (with_reducible apply Keep.step _ (mSub_keep ..) _; on_goal 2 => decide)
    | (with_reducible apply Keep.ite <;> intro _)
    | split

theorem execMAnd_kept (u : Seqr) (d : Reg4) (a2 : Reg4) (s : State) :
    Confined false 0x1812000000000000000000000000000000001 s (execMAnd u d a2 s) := by
  unfold execMAnd
  apply actSeq_kept
  try dsimp only
  repeat' first
    | with_reducible apply Keep.refl
    | with_reducible assumption
    | (with_reducible apply Keep.step _ (mAnd_keep ..) _; on_goal 2 => decide)
    | (with_reducible apply Keep.ite <;> intro _)
    | split

theorem execMOr_kept (u : Seqr) (d : Reg4) (a2 : Reg4) (s : State) :
    Confined false 0x1812000000000000000000000000000000001 s (execMOr u d a2 s) := by
  unfold execMOr
  apply actSeq_kept
  try dsimp only
  repeat' first
    | with_reducible apply Keep.refl
    | with_reducible assumption
    | (with_reducible apply Keep.step _ (mOr_keep ..) _; on_goal 2 => decide)
    | (with_reducible apply Keep.ite <;> intro _)
    | split

theorem execMXor_kept (u : Seqr) (d : Reg4) (a2 : Reg4) (s : State) :
    Confined false 0x1812000000000000000000000000000000001 s (execMXor u d a2 s) := by
  unfold execMXor
  apply actSeq_kept
  try dsimp only
  repeat' first
    | with_reducible apply Keep.refl
    | with_reducible assumption
    | (with_reducible apply Keep.step _ (mXor_keep ..) _; on_goal 2 => decide)
    | (with_reducible apply Keep.ite <;> intro _)
    | split

theorem execMShl_kept (u : Seqr) (d : Reg4) (a2 : Reg4) (s : State) :
    Confined false 0x1812000000000000000000000000000000001 s (execMShl u d a2 s) := by
  unfold execMShl
  apply actSeq_kept
  try dsimp only
  repeat' first
    | with_reducible apply Keep.refl
    | with_reducible assumption
    | (with_reducible apply Keep.step _ (mShl_keep ..) _; on_goal 2 => decide)
    | (with_reducible apply Keep.ite <;> intro _)
    | split

theorem execMShr_kept (u : Seqr) (d : Reg4) (a2 : Reg4) (s : State) :
    Confined false 0x1812000000000000000000000000000000001 s (execMShr u d a2 s) := by
  unfold execMShr
  apply actSeq_kept
  try dsimp only
  repeat' first
    | with_reducible apply Keep.refl
    | with_reducible assumption
    | (with_reducible apply Keep.step _ (mShr_keep ..) _; on_goal 2 => decide)
    | (with_reducible apply Keep.ite <;> intro _)
    | split

theorem execMCmp_kept (u : Seqr) (d : Reg4) (a2 : Reg4) (s : State) :
    Confined false 0x1812000000000000000000000000000000001 s (execMCmp u d a2 s) := by
  unfold execMCmp
  apply actSeq_kept
  try dsimp only
  repeat' first
    | with_reducible apply Keep.refl
    | with_reducible assumption
    | (with_reducible apply Keep.step _ (mCmp_keep ..) _; on_goal 2 => decide)
    | (with_reducible apply Keep.ite <;> intro _)
    | split

theorem execMAddq_kept (u : Seqr) (d : Reg4) (imm : Fin 16) (s : State) :
    Confined false 0x1812000000000000000000000000000000001 s (execMAddq u d imm s) := by
  unfold execMAddq
  apply actSeq_kept
  try dsimp only
  repeat' first
    | with_reducible apply Keep.refl
    | with_reducible assumption
    | (with_reducible apply Keep.step _ (mAddq_keep ..) _; on_goal 2 => decide)
    | (with_reducible apply Keep.ite <;> intro _)
    | split

theorem execMSubq_kept (u : Seqr) (d : Reg4) (imm : Fin 16) (s : State) :
    Confined false 0x1812000000000000000000000000000000001 s (execMSubq u d imm s) := by
  unfold execMSubq
  apply actSeq_kept
  try dsimp only
  repeat' first
    | with_reducible apply Keep.refl
    | with_reducible assumption
    | (with_reducible apply Keep.step _ (mSubq_keep ..) _; on_goal 2 => decide)
    | (with_reducible apply Keep.ite <;> intro _)
    | split

theorem execMLd_kept (u : Seqr) (d : Reg4) (a2 : Reg4) (s : State) :
    Confined true 0x205f973d2ff8005f6038031c6a09bf200003003 s (execMLd u d a2 s) := by
  unfold execMLd
  apply actSeqF_kept
  try dsimp only
  repeat' first
    | with_reducible apply Keep.refl
    | with_reducible assumption
    | (with_reducible apply Keep.step _ (mLd_keep ..) _; on_goal 2 => decide)
    | (with_reducible apply Keep.step _ (settleFault_keep ..) _; on_goal 2 => decide)
    | (with_reducible apply Keep.ite <;> intro _)
    | split

theorem execMSt_kept (u : Seqr) (d : Reg4) (a2 : Reg4) (s : State) :
    Confined true 0x205f973d2ff8005f6038031c6a09bf200003003 s (execMSt u d a2 s) := by
  unfold execMSt
  apply actSeqF_kept
  try dsimp only
  repeat' first
    | with_reducible apply Keep.refl
    | with_reducible assumption
    | (with_reducible apply Keep.step _ (mSt_keep ..) _; on_goal 2 => decide)
    | (with_reducible apply Keep.step _ (settleFault_keep ..) _; on_goal 2 => decide)
    | (with_reducible apply Keep.ite <;> intro _)
    | split

theorem execMIn_kept (u : Seqr) (d : Reg4) (a2 : Reg4) (s : State) :
    Confined false 0x101812000000000000000000000000000000001 s (execMIn u d a2 s) := by
  unfold execMIn
  apply actSeq_kept
  try dsimp only
  repeat' first
    | with_reducible apply Keep.refl
    | with_reducible assumption
    | (with_reducible apply Keep.step _ (mIn_keep ..) _; on_goal 2 => decide)
    | (with_reducible apply Keep.ite <;> intro _)
    | split

theorem execMOut_kept (u : Seqr) (d : Reg4) (a2 : Reg4) (s : State) :
    Confined false 0x201e12000000000000000000000090000000001 s (execMOut u d a2 s) := by
  unfold execMOut
  apply actSeq_kept
  try dsimp only
  repeat' first
    | with_reducible apply Keep.refl
    | with_reducible assumption
    | (with_reducible apply Keep.step _ (mOut_keep ..) _; on_goal 2 => decide)
    | (with_reducible apply Keep.ite <;> intro _)
    | split

theorem execMBr_kept (u : Seqr) (off : Byte) (s : State) :
    Confined false 0x1812000000000000000000000000000000001 s (execMBr u off s) := by
  unfold execMBr
  apply actSeq_kept
  try dsimp only
  repeat' first
    | with_reducible apply Keep.refl
    | with_reducible assumption
    | (with_reducible apply Keep.step _ (mBr_keep ..) _; on_goal 2 => decide)
    | (with_reducible apply Keep.ite <;> intro _)
    | split

theorem execMBz_kept (u : Seqr) (off : Byte) (s : State) :
    Confined false 0x1812000000000000000000000000000000001 s (execMBz u off s) := by
  unfold execMBz
  apply actSeq_kept
  try dsimp only
  repeat' first
    | with_reducible apply Keep.refl
    | with_reducible assumption
    | (with_reducible apply Keep.step _ (mBz_keep ..) _; on_goal 2 => decide)
    | (with_reducible apply Keep.ite <;> intro _)
    | split

theorem execMBnz_kept (u : Seqr) (off : Byte) (s : State) :
    Confined false 0x1812000000000000000000000000000000001 s (execMBnz u off s) := by
  unfold execMBnz
  apply actSeq_kept
  try dsimp only
  repeat' first
    | with_reducible apply Keep.refl
    | with_reducible assumption
    | (with_reducible apply Keep.step _ (mBnz_keep ..) _; on_goal 2 => decide)
    | (with_reducible apply Keep.ite <;> intro _)
    | split

theorem execMBn_kept (u : Seqr) (off : Byte) (s : State) :
    Confined false 0x1812000000000000000000000000000000001 s (execMBn u off s) := by
  unfold execMBn
  apply actSeq_kept
  try dsimp only
  repeat' first
    | with_reducible apply Keep.refl
    | with_reducible assumption
    | (with_reducible apply Keep.step _ (mBn_keep ..) _; on_goal 2 => decide)
    | (with_reducible apply Keep.ite <;> intro _)
    | split

theorem execMBc_kept (u : Seqr) (off : Byte) (s : State) :
    Confined false 0x1812000000000000000000000000000000001 s (execMBc u off s) := by
  unfold execMBc
  apply actSeq_kept
  try dsimp only
  repeat' first
    | with_reducible apply Keep.refl
    | with_reducible assumption
    | (with_reducible apply Keep.step _ (mBc_keep ..) _; on_goal 2 => decide)
    | (with_reducible apply Keep.ite <;> intro _)
    | split

theorem execMCall_kept (u : Seqr) (off : Byte) (s : State) :
    Confined true 0x205f973d2ff8005f6038031c6a09bf200003003 s (execMCall u off s) := by
  unfold execMCall
  apply actSeqF_kept
  try dsimp only
  repeat' first
    | with_reducible apply Keep.refl
    | with_reducible assumption
    | (with_reducible apply Keep.step _ (mCall_keep ..) _; on_goal 2 => decide)
    | (with_reducible apply Keep.step _ (settleFault_keep ..) _; on_goal 2 => decide)
    | (with_reducible apply Keep.ite <;> intro _)
    | split

theorem execMRet_kept (u : Seqr) (s : State) :
    Confined true 0x205f973d2ff8005f6038031c6a09bf200003003 s (execMRet u s) := by
  unfold execMRet
  apply actSeqF_kept
  try dsimp only
  repeat' first
    | with_reducible apply Keep.refl
    | with_reducible assumption
    | (with_reducible apply Keep.step _ (mRet_keep ..) _; on_goal 2 => decide)
    | (with_reducible apply Keep.step _ (settleFault_keep ..) _; on_goal 2 => decide)
    | (with_reducible apply Keep.ite <;> intro _)
    | split

theorem execMJr_kept (u : Seqr) (d : Reg4) (a2 : Reg4) (s : State) :
    Confined false 0x1812000000000000000000000000000000001 s (execMJr u d a2 s) := by
  unfold execMJr
  apply actSeq_kept
  try dsimp only
  repeat' first
    | with_reducible apply Keep.refl
    | with_reducible assumption
    | (with_reducible apply Keep.step _ (mJr_keep ..) _; on_goal 2 => decide)
    | (with_reducible apply Keep.ite <;> intro _)
    | split

theorem execMWait_kept (u : Seqr) (s : State) :
    Confined false 0x1812000000000000000000000000000000001 s (execMWait u s) := by
  unfold execMWait
  apply actSeq_kept
  try dsimp only
  repeat' first
    | with_reducible apply Keep.refl
    | with_reducible assumption
    | (with_reducible apply Keep.step _ (mWait_keep ..) _; on_goal 2 => decide)
    | (with_reducible apply Keep.ite <;> intro _)
    | split

theorem execMReti_kept (u : Seqr) (s : State) :
    Confined true 0x205f973d2ff8005f6038031c6a09bf200003003 s (execMReti u s) := by
  unfold execMReti
  apply actSeqF_kept
  try dsimp only
  repeat' first
    | with_reducible apply Keep.refl
    | with_reducible assumption
    | (with_reducible apply Keep.step _ (mReti_keep ..) _; on_goal 2 => decide)
    | (with_reducible apply Keep.step _ (settleFault_keep ..) _; on_goal 2 => decide)
    | (with_reducible apply Keep.ite <;> intro _)
    | split

theorem execMDi_kept (u : Seqr) (s : State) :
    Confined false 0x1812000000000000000000000000000000001 s (execMDi u s) := by
  unfold execMDi
  apply actSeq_kept
  try dsimp only
  repeat' first
    | with_reducible apply Keep.refl
    | with_reducible assumption
    | (with_reducible apply Keep.step _ (mDi_keep ..) _; on_goal 2 => decide)
    | (with_reducible apply Keep.ite <;> intro _)
    | split

theorem execMEi_kept (u : Seqr) (s : State) :
    Confined false 0x1812000000000000000000000000000000001 s (execMEi u s) := by
  unfold execMEi
  apply actSeq_kept
  try dsimp only
  repeat' first
    | with_reducible apply Keep.refl
    | with_reducible assumption
    | (with_reducible apply Keep.step _ (mEi_keep ..) _; on_goal 2 => decide)
    | (with_reducible apply Keep.ite <;> intro _)
    | split

theorem execMHook_kept (u : Seqr) (n : Byte) (s : State) :
    Confined true 0x305f173d2ff8005f6038031c6a09bf200003003 s (execMHook u n s) := by
  unfold execMHook
  apply actSeqF_kept
  try dsimp only
  repeat' first
    | with_reducible apply Keep.refl
    | with_reducible assumption
    | (with_reducible apply Keep.step _ (mHook_keep ..) _; on_goal 2 => decide)
    | (with_reducible apply Keep.step _ (settleFault_keep ..) _; on_goal 2 => decide)
    | (with_reducible apply Keep.ite <;> intro _)
    | split

theorem execMKick_kept (u : Seqr) (s : State) :
    Confined false 0x1812000000000000000000000000000000001 s (execMKick u s) := by
  unfold execMKick
  apply actSeq_kept
  try dsimp only
  repeat' first
    | with_reducible apply Keep.refl
    | with_reducible assumption
    | (with_reducible apply Keep.step _ (mKick_keep ..) _; on_goal 2 => decide)
    | (with_reducible apply Keep.ite <;> intro _)
    | split

theorem execMTrap_kept (u : Seqr) (code : Byte) (s : State) :
    Confined false 0x1812000000000000000000000000000000001 s (execMTrap u code s) := by
  unfold execMTrap
  apply actSeq_kept
  try dsimp only
  repeat' first
    | with_reducible apply Keep.refl
    | with_reducible assumption
    | (with_reducible apply Keep.step _ (mTrap_keep ..) _; on_goal 2 => decide)
    | (with_reducible apply Keep.ite <;> intro _)
    | split

theorem execVendorOpcode_kept (u : Seqr) (op : Byte) (opr : Byte) (s : State) :
    Confined true 0x305f973d2ff8005f6038031c6a09bf200003003 s (execVendorOpcode u op opr s) := by
  unfold execVendorOpcode
  apply actSeqF_kept
  try dsimp only
  repeat' first
    | with_reducible apply Keep.refl
    | with_reducible assumption
    | (with_reducible apply Keep.step _ (vendorOpcode_keep ..) _; on_goal 2 => decide)
    | (with_reducible apply Keep.step _ (settleFault_keep ..) _; on_goal 2 => decide)
    | (with_reducible apply Keep.ite <;> intro _)
    | split

theorem execIllegalOpcode_kept (u : Seqr) (op : Byte) (opr : Byte) (s : State) :
    Confined false 0x201e12000000000000000000000090000000001 s (execIllegalOpcode u op opr s) := by
  unfold execIllegalOpcode
  apply actSeq_kept
  try dsimp only
  repeat' first
    | with_reducible apply Keep.refl
    | with_reducible assumption
    | (with_reducible apply Keep.step _ (illegalOpcode_keep ..) _; on_goal 2 => decide)
    | (with_reducible apply Keep.ite <;> intro _)
    | split

theorem execBellhouseTake_kept (u : Seqr) (s : State) :
    Confined true 0x305f973d2ff8005f6038031c6a09bf200003003 s (execBellhouseTake u s) := by
  unfold execBellhouseTake
  apply actSeqF_kept
  try dsimp only
  repeat' first
    | with_reducible apply Keep.refl
    | with_reducible assumption
    | (with_reducible apply Keep.step _ (bellhouseTake_keep ..) _; on_goal 2 => decide)
    | (with_reducible apply Keep.step _ (settleFault_keep ..) _; on_goal 2 => decide)
    | (with_reducible apply Keep.ite <;> intro _)
    | split

theorem execHoldoffExpiry_kept (u : Seqr) (g : Fin 8) (s : State) :
    Confined false 0x10000000000000000000000000000000000 s (execHoldoffExpiry u g s) := by
  unfold execHoldoffExpiry
  apply actIf_kept
  try dsimp only
  repeat' first
    | with_reducible apply Keep.refl
    | with_reducible assumption
    | (with_reducible apply Keep.step _ (holdoffExpiry_keep ..) _; on_goal 2 => decide)
    | (with_reducible apply Keep.ite <;> intro _)
    | split

theorem execRoutineOverrun_kept (u : Seqr) (s : State) :
    Confined true 0x2047973d2ff8005f6038031c6a09bf200003003 s (execRoutineOverrun u s) := by
  unfold execRoutineOverrun
  apply actSeqF_kept
  try dsimp only
  repeat' first
    | with_reducible apply Keep.refl
    | with_reducible assumption
    | (with_reducible apply Keep.step _ (routineOverrun_keep ..) _; on_goal 2 => decide)
    | (with_reducible apply Keep.step _ (settleFault_keep ..) _; on_goal 2 => decide)
    | (with_reducible apply Keep.ite <;> intro _)
    | split

theorem execStewardWatchdog_kept (n : Fin 16) (s : State) :
    Confined false 0x92000000000000000000000000000000001 s (execStewardWatchdog n s) := by
  unfold execStewardWatchdog
  apply actSeq_kept
  try dsimp only
  repeat' first
    | with_reducible apply Keep.refl
    | with_reducible assumption
    | (with_reducible apply Keep.step _ (stewardWatchdog_keep ..) _; on_goal 2 => decide)
    | (with_reducible apply Keep.ite <;> intro _)
    | split

theorem execStewardRestart_kept (s : State) :
    Confined false 0x33cedf004f626edfe23ee33eee0efd804000283 s (execStewardRestart s) := by
  unfold execStewardRestart
  apply actM_kept
  try dsimp only
  repeat' first
    | with_reducible apply Keep.refl
    | with_reducible assumption
    | (with_reducible apply Keep.step _ (serveOwn_keep ..) _; on_goal 2 => decide)
    | (with_reducible apply Keep.ite <;> intro _)
    | split

theorem execStewardRestartDone_kept (n : Fin 16) (s : State) :
    Confined false 0x3046920080000000000000006e0090000000001 s (execStewardRestartDone n s) := by
  unfold execStewardRestartDone
  apply actIf_kept
  try dsimp only
  repeat' first
    | with_reducible apply Keep.refl
    | with_reducible assumption
    | (with_reducible apply Keep.step _ (stewardRestartDone_keep ..) _; on_goal 2 => decide)
    | (with_reducible apply Keep.ite <;> intro _)
    | split

theorem execSequencerTimerExpiry_kept (u : Seqr) (t : Fin 8) (s : State) :
    Confined false 0x2000000000000000000000000000000001 s (execSequencerTimerExpiry u t s) := by
  unfold execSequencerTimerExpiry
  apply actSeq_kept
  try dsimp only
  repeat' first
    | with_reducible apply Keep.refl
    | with_reducible assumption
    | (with_reducible apply Keep.step _ (sequencerTimer_keep ..) _; on_goal 2 => decide)
    | (with_reducible apply Keep.ite <;> intro _)
    | split

theorem execDrbgReseedDue_kept (s : State) :
    Confined false 0x2000000000000000000000000000000001 s (execDrbgReseedDue s) := by
  unfold execDrbgReseedDue
  apply actIf_kept
  try dsimp only
  repeat' first
    | with_reducible apply Keep.refl
    | with_reducible assumption
    | (with_reducible apply Keep.step _ (latch_keep ..) _; on_goal 2 => decide)
    | (with_reducible apply Keep.ite <;> intro _)
    | split

theorem execCounterWrap_kept (b : Brick) (k : Fin 32) (s : State) :
    Confined false 0x1802000000000000000000000000000000001 s (execCounterWrap b k s) := by
  unfold execCounterWrap
  apply actIf_kept
  try dsimp only
  repeat' first
    | with_reducible apply Keep.refl
    | with_reducible assumption
    | (with_reducible apply Keep.step _ (counterWrap_keep ..) _; on_goal 2 => decide)
    | (with_reducible apply Keep.ite <;> intro _)
    | split

theorem execPcValueRead_kept (b : Brick) (k : Fin 32) (s : State) :
    Confined false 0x2 s (execPcValueRead b k s) := by
  unfold execPcValueRead
  apply actIf_kept
  try dsimp only
  repeat' first
    | with_reducible apply Keep.refl
    | with_reducible assumption
    | (with_reducible apply Keep.step _ (pcValueRead_keep ..) _; on_goal 2 => decide)
    | (with_reducible apply Keep.ite <;> intro _)
    | split

theorem execPcClearAll_kept (s : State) :
    Confined false 0x33cedf004f626edfe23ee33eee0efd804000283 s (execPcClearAll s) := by
  unfold execPcClearAll
  apply actM_kept
  try dsimp only
  repeat' first
    | with_reducible apply Keep.refl
    | with_reducible assumption
    | (with_reducible apply Keep.step _ (serveOwn_keep ..) _; on_goal 2 => decide)
    | (with_reducible apply Keep.ite <;> intro _)
    | split

theorem execTallyWindowEnd_kept (p : Port) (s : State) :
    Confined false 0x1c000000000000000000000000000000000001 s (execTallyWindowEnd p s) := by
  unfold execTallyWindowEnd
  apply actIf_kept
  try dsimp only
  repeat' first
    | with_reducible apply Keep.refl
    | with_reducible assumption
    | (with_reducible apply Keep.step _ (tallyEnd_keep ..) _; on_goal 2 => decide)
    | (with_reducible apply Keep.ite <;> intro _)
    | split

theorem execTallyUsWrite_kept (s : State) :
    Confined false 0x33cedf004f626edfe23ee33eee0efd804000283 s (execTallyUsWrite s) := by
  unfold execTallyUsWrite
  apply actM_kept
  try dsimp only
  repeat' first
    | with_reducible apply Keep.refl
    | with_reducible assumption
    | (with_reducible apply Keep.step _ (serveOwn_keep ..) _; on_goal 2 => decide)
    | (with_reducible apply Keep.ite <;> intro _)
    | split

theorem execSampleNextRead_kept (s : State) :
    Confined false 0x33cedf004f626edfe23ee33eee0efd804000283 s (execSampleNextRead s) := by
  unfold execSampleNextRead
  apply actM_kept
  try dsimp only
  repeat' first
    | with_reducible apply Keep.refl
    | with_reducible assumption
    | (with_reducible apply Keep.step _ (serveOwn_keep ..) _; on_goal 2 => decide)
    | (with_reducible apply Keep.ite <;> intro _)
    | split

theorem execBooksRun_kept (s : State) :
    Confined false 0x33cedf004f626edfe23ee33eee0efd804000283 s (execBooksRun s) := by
  unfold execBooksRun
  apply actM_kept
  try dsimp only
  repeat' first
    | with_reducible apply Keep.refl
    | with_reducible assumption
    | (with_reducible apply Keep.step _ (serveOwn_keep ..) _; on_goal 2 => decide)
    | (with_reducible apply Keep.ite <;> intro _)
    | split

theorem execBooksPeriodDue_kept (s : State) :
    Confined false 0x60000000000000000000000000000000000001 s (execBooksPeriodDue s) := by
  unfold execBooksPeriodDue
  apply actIf_kept
  try dsimp only
  repeat' first
    | with_reducible apply Keep.refl
    | with_reducible assumption
    | (with_reducible apply Keep.step _ (booksPeriod_keep ..) _; on_goal 2 => decide)
    | (with_reducible apply Keep.ite <;> intro _)
    | split

theorem execBooksComplete_kept (s : State) :
    Confined false 0x260602000000000000000000000090000000001 s (execBooksComplete s) := by
  unfold execBooksComplete
  apply actIf_kept
  try dsimp only
  repeat' first
    | with_reducible apply Keep.refl
    | with_reducible assumption
    | (with_reducible apply Keep.step _ (booksDone_keep ..) _; on_goal 2 => decide)
    | (with_reducible apply Keep.ite <;> intro _)
    | split

end Sys2Proof.Machine
end

