-- ==== Sys2Proof/Laws/KeepExec.lean ====
section
/-! SUPPORT. What every command and every step may change. -/

namespace Sys2Proof.Machine

/-- The fields of the wall that a command may change. -/
def touch : Instr → Nat
  | .powerGood _ => 0xfffff7e9f877ffffffffffffffffffde3ffff3
  | .rootPllLock _ => 0x3ffffffefffffffffffffffffffffffdc441ff3
  | .refcoreLoss => 0x2046033d2ff8005f6038031c6a00b0200043803
  | .refcoreRestored => 0x762660000000000000000000041801
  | .reflaneLoss _ => 0x304603000000005f6038031c6e0090002000003
  | .reflaneRestored _ => 0x304603000000005f6038031c6e0090002000003
  | .pfailAccept => 0x60200090000000000000000000004004c001
  | .pfailDrainDone => 0x2006023d2ff80000000000000000b0000080001
  | .pfailNRise => 0x8000
  | .pfailReopen => 0xb000000000000000000000000cc000
  | .wakeAccept => 0x200000000000000000000000000000000200000
  | .zeroiseAccept => 0x204603000762665f6038031c6a0190000600003
  | .vcoreRemoved => 0xffffffe9f877ffffffffffffffffffdc041ff3
  | .targetAccessError _ _ => 0x200000000000000000000000000000000000000
  | .unmappedAccess _ _ => 0x1
  | .hostWindowWrite _ _ _ => 0x30004b0000000010a207c0000000f1004000003
  | .readCompletion _ => 0x20000b000000001000000000000000004000003
  | .readTagTimeout _ => 0x200007000000001000000000000000004000003
  | .tagQuarantineEnd _ => 0x20000b000000001000000000000000004000003
  | .creditReturn _ _ => 0x602000000000000000000000000010000001
  | .creditInit _ _ => 0x602000000000000000000000000018000001
  | .creditWordInvalid _ _ => 0x602000000000000000000000000000000001
  | .egressCell _ _ => 0x300603000000005f70001002000090000000003
  | .decisionArrive _ _ _ _ => 0x1e03000000000010800200000000000000001
  | .decisionTimeout _ _ => 0x1000000000001000200000000000000001
  | .flushSpIssue _ => 0x200000000000000000380000000000000000000
  | .flushSpComplete _ _ => 0x200000000000000000380000000000000000000
  | .flushSpOverdue _ _ => 0x602000000000000000000000000000000001
  | .lookupSearch => 0x33cedf004f626edfe23ee33eee0efd804000283
  | .lookupNext => 0x33cedf004f626edfe23ee33eee0efd804000283
  | .lookupComplete _ _ _ _ => 0x200002000000000000380000000094000000003
  | .lookupTimeout _ _ => 0x200002000000000000080000000094000000003
  | .waitingChange _ _ => 0x20000001
  | .avsStep => 0x2000000000000000000000000000000c0000000
  | .avsAnswer _ => 0x2000b000000000000000000001c0000001
  | .avsAnswerTimeout => 0x6020000000000000000000000001c0000001
  | .tjAlarm _ _ => 0x42000000000000000000000000000000001
  | .thermalShutdown _ _ => 0x2046430c2b00005f6038031c6a0090800000003
  | .mbxRead => 0x200042000000000000000000000091000000003
  | .mbxWrite => 0x200042000000000000000000000091000000003
  | .mbxSegRead => 0x200042000000000000000000000091000000003
  | .mbxSegWrite _ => 0x200042000000000000000000000091000000003
  | .ledgerRead => 0x33cedf004f626edfe23ee33eee0efd804000283
  | .ledgerWrite => 0x33cedf004f626edfe23ee33eee0efd804000283
  | .ledgerSegRead => 0x33cedf004f626edfe23ee33eee0efd804000283
  | .ledgerSegWrite => 0x33cedf004f626edfe23ee33eee0efd804000283
  | .dvorOpen _ => 0x200042000000800000000000003100000000001
  | .dvorOpenConfirm _ _ _ => 0x200642000b00000000000000000190000000001
  | .dvorClose _ => 0x200000000000000000000000000090000000000
  | .dvorRead _ => 0x200042000000000000000000000091000000003
  | .dvorWrite _ _ => 0x200042000000000000000000000091000000003
  | .dvorSegRead _ _ _ _ => 0x200042000000000000000000000091000000003
  | .dvorSegWrite _ _ _ _ _ => 0x200042000000000000000000000091000000003
  | .dvorEventAck _ _ => 0x200042000000000000000000000090000000001
  | .dvorKeepalive _ => 0x200042000000000000000000000090000000001
  | .dvorDatagramBad _ _ => 0x42000000000000000000000000000000001
  | .icmpv6Request _ _ => 0x200042000000000000000000003000000000001
  | .fieldFrameOther _ => 0x1
  | .dozeWakeFrame _ _ => 0x30461b000000005000000002060000204000003
  | .handshakeTimeout _ => 0x100000000000
  | .sessionIdleTimeout _ => 0x200000000000000000000000000090000000000
  | .segTransferTimeout _ _ => 0x10000000000
  | .eventRetransmit _ _ => 0x200000000000000000000000000080000000000
  | .storeRange => 0x33cedf004f626edfe23ee33eee0efd804000283
  | .restoreRange => 0x33cedf004f626edfe23ee33eee0efd804000283
  | .defaultRange => 0x33cedf004f626edfe23ee33eee0efd804000283
  | .storeComplete => 0x30475fbd2ff8005f6038031e6e09bf204003003
  | .modeRequestEmber => 0x33cfdfbd6ffa6edfe23ee33eee0fffa04003283
  | .emberDrained => 0x2fffff7fbfff7ffffffffffffffffffdd2c1ff3
  | .modeRequestKindle => 0x33cfdfbd6ffa6edfe23ee33eee0fffa04003283
  | .modeRequestService => 0x33cfdfbd6ffa6edfe23ee33eee0fffa04003283
  | .modeRequestDoze => 0x33cfdfbd6ffa6edfe23ee33eee0fffa04003283
  | .reeveWatchdog => 0x2047073d2ff8005f6038031c6a09bf200003003
  | .detectDone _ => 0x200002000000000000000000060000000000001
  | .detectTimeout _ => 0x204603000000005f6038031c6e0090000000003
  | .pam2Timeout _ => 0x204603000000005f6038031c6e0090000000003
  | .trainingTimeout _ => 0x204603000000005f6038031c6e0090000000003
  | .exchangeTimeout _ => 0x204603000000005f6038031c6e0090000000003
  | .backoffExpiry _ => 0x304002000000000000000000060000000000001
  | .listeningBurst _ => 0x200000000000000000000000000000000000000
  | .activeHoldExpiry _ => 0x40000000000001
  | .trainRestart => 0x33cedf004f626edfe23ee33eee0efd804000283
  | .trainingFrame _ _ _ _ => 0x304002000000000000000000060000000000001
  | .hello _ _ _ _ => 0x304603000000005f6038031c6e0090000000003
  | .trainingReady _ _ => 0x20000000000000
  | .readyCountdownEnd _ => 0x2000000000000000000020000000000001
  | .rxReady _ _ _ => 0x2000000000000000000020000000000001
  | .trainingCountdownEnd _ => 0x2000000000000000000060000000000001
  | .blockLock _ => 0x204602000000000000001008060090000000001
  | .cdrLock _ => 0x20000000000001
  | .cdrLockLoss _ _ => 0x304643000000005f6038031c7e0090000000003
  | .signalDetectLoss _ => 0x304643000000005f6038031c7e0090000000003
  | .gossipStatus _ _ _ => 0x204602000000000000001008060090000000001
  | .gossipOffer _ _ _ => 0x200000000000000000000000040000000000000
  | .gossipAccept _ _ _ => 0x200000000000000000000000040000000000000
  | .gossipConfirm _ _ _ => 0x204602000000000000001008060090000000001
  | .gossipSpare _ _ => 0x304002000000000000000000060000000000001
  | .gossipPrepare _ _ _ => 0x2006020000000000000000000a0090000000001
  | .gossipReady _ _ _ => 0x2000020000000000000000000a0000000000001
  | .gossipRoll _ _ _ _ => 0x80000000000000
  | .gossipRolled _ _ _ => 0x2046020000000000000000027a0090000000001
  | .gossipRefuse _ _ _ => 0x304603000000005f6038031c6e0090000000003
  | .gossipSurvey _ _ _ => 0x400000000000000
  | .gossipRetire _ _ => 0x200602000000000000000000620090000000001
  | .gossipBadWord _ => 0x1802000000000000000000000000000000001
  | .gossipLoss _ => 0x304643000000005f6038031c7e0090000000003
  | .fecWindowEnd _ _ _ _ _ => 0x305e43000000005f6038031c7e0090000000003
  | .laneTestStart => 0x33cedf004f626edfe23ee33eee0efd804000283
  | .laneTestStop => 0x33cedf004f626edfe23ee33eee0efd804000283
  | .prbsClear => 0x33cedf004f626edfe23ee33eee0efd804000283
  | .prbsCheckerLock _ _ _ _ => 0x1
  | .eyeScanStart => 0x33cedf004f626edfe23ee33eee0efd804000283
  | .eyeScanDone _ _ => 0x2000000000000000000000060000000001
  | .eyeScanResume _ => 0x1
  | .eyeScanAbort _ => 0x2000000000000000000000000000000001
  | .fieldLaneUp _ => 0x602000000000000000000000000000000001
  | .fieldLaneDown _ => 0x602000000000000000000000000000000001
  | .fieldLaneRetry _ => 0x0
  | .fieldLaneConfigWrite => 0x33cedf004f626edfe23ee33eee0efd804000283
  | .spareBurst _ => 0x200000000000000000000000000000000000000
  | .spareFault _ => 0x2006020000000000000000006a0090000000001
  | .bridgeCompareDone _ _ => 0x200000000000000000000000080000000000000
  | .rollCodeword _ _ _ => 0x2046020000000000000000027a0090000000001
  | .rollTimeout _ _ => 0x2006020000000000000000000a0090000000001
  | .spareDeskewed _ _ _ _ => 0x2046020000000000000000027a0090000000001
  | .retestStart _ => 0x300002000000000000000000020000000000001
  | .retestMeasured _ _ => 0x300602000000000000000000020090000000001
  | .retireClear => 0x33cedf004f626edfe23ee33eee0efd804000283
  | .roundNow => 0x33cedf004f626edfe23ee33eee0efd804000283
  | .roundPeriodExpiry => 0xa00000000000001
  | .surveyStart _ => 0x200602000b000000000000017a00b0100000001
  | .surveyPrbsEnd _ _ _ _ => 0x304602000b000000000000017a00b0000000001
  | .surveyNow => 0x33cedf004f626edfe23ee33eee0efd804000283
  | .telltaleMeasure _ _ => 0x2000000000000000000000000000000001
  | .serviceSHourly => 0xb00000000000000000000000000000
  | .spareRateWrite => 0x33cedf004f626edfe23ee33eee0efd804000283
  | .portRestart => 0x33cedf004f626edfe23ee33eee0efd804000283
  | .spAdminWrite => 0x33cedf004f626edfe23ee33eee0efd804000283
  | .headerLockLoss _ => 0x2000000000000000010000000000000001
  | .headerLockTimeout _ => 0x304603000000005f6038031c6e0090000000003
  | .hiBer _ => 0x304603000000005f6038031c6e0090000000003
  | .rxFrame _ => 0x205e03000b00020010452f4e00c090000000001
  | .pauseFrameRx _ _ => 0x5802000000000000000004000000000000001
  | .pfcFrameRx _ _ _ => 0x5802000000000000000004000000000000001
  | .pauseExpiry _ _ => 0x4000000000000001
  | .pfcRefresh _ _ => 0x8000000000000000
  | .quietIdleExpiry _ => 0x200000000000000000000002000000000000000
  | .lpiReceived _ => 0x204002000000000000000002020000000000001
  | .quietHandshakeTimeout _ => 0x204603000000005f6038031e6a0090000000003
  | .partnerWakeBurst _ => 0x200000000000000000000002000000000000000
  | .quietWakeComplete _ => 0x4002000000000000000002020000000000001
  | .partnerWakeTimeout _ => 0x304603000000005f6038031e6e0090000000003
  | .cellIdleClose _ => 0x100000000000000000
  | .cellSend _ => 0x20180200000000000c000308000000010000001
  | .creditStall _ _ => 0x200602000000000008000000000090000000001
  | .gleanerExpiry _ _ => 0x2000000000000000001
  | .gleanFlush => 0x33cedf004f626edfe23ee33eee0efd804000283
  | .sieveWriteShadow _ _ => 0xc000000020000000002
  | .sieveWriteBoth _ _ => 0xc000000020000000002
  | .sieveReadShadow _ _ => 0x2
  | .sieveReadActive _ _ => 0x2
  | .sieveInvalidateShadow _ _ => 0xc000000020000000002
  | .sieveInvalidateBoth _ _ => 0xc000000020000000002
  | .sieveSwap _ => 0x33cedf004f626edfe23ee33eee0efd804000283
  | .sieveSwapDone _ => 0x20000200000000000000c0000000b4000000003
  | .sieveScrubCompare _ _ _ _ _ => 0x201e0200000000000000c0000000b0000000001
  | .hitCountClear _ _ => 0x10000000000000000000
  | .policerApply _ _ _ => 0x40000000020000000003
  | .schedulerSelect _ => 0x305e43000904025e60000008000090000000003
  | .txFrameDone _ _ => 0x20584b000000005ee0000002000000004000203
  | .calendarRelease _ _ => 0x1802000000000080000000000000000000001
  | .gateEntryChange _ => 0x8000000000000000000000000
  | .gateConfigChange _ => 0x8000000000000060000000001
  | .gateSchedule => 0x33cedf004f626edfe23ee33eee0efd804000283
  | .gateCancel => 0x33cedf004f626edfe23ee33eee0efd804000283
  | .queueDropsClear _ _ => 0x20000000000000000000000
  | .shaperApply _ _ _ => 0x80000000000000000000003
  | .timeResync => 0x2000020000000000000000000000900000001e3
  | .timeSet => 0x33cedf004f626edfe23ee33eee0efd804000283
  | .timeStep => 0x33cedf004f626edfe23ee33eee0efd804000283
  | .freqAdjWrite => 0x33cedf004f626edfe23ee33eee0efd804000283
  | .txStampNextRead => 0x33cedf004f626edfe23ee33eee0efd804000283
  | .saInstall => 0x33cedf004f626edfe23ee33eee0efd804000283
  | .saRemove => 0x33cedf004f626edfe23ee33eee0efd804000283
  | .encodingAnWrite => 0x33cedf004f626edfe23ee33eee0efd804000283
  | .pnReservationCommit _ _ => 0x200042000d001a0000000000000094000000003
  | .pnReservationRetry _ _ => 0x42000900020000000000000000000000001
  | .kekInstall => 0x33cedf004f626edfe23ee33eee0efd804000283
  | .kekClear => 0x33cedf004f626edfe23ee33eee0efd804000283
  | .kiForget => 0x33cedf004f626edfe23ee33eee0efd804000283
  | .selftestNow _ => 0x33cedf0c6f626edfe23ee33eee0fffa04001283
  | .zeroiseNow => 0x33cedf004f626edfe23ee33eee0ffd804000283
  | .zeroisationComplete => 0x2046070c2ffa0a5f6038031c6a099e200401003
  | .hostOfficerSWrite => 0x33cedf004f626edfe23ee33eee0efd804000283
  | .hostOfficerExpiry => 0x1
  | .macsecKatDaily _ _ => 0x2046070c2f62665f6038031c6a099e200001003
  | .continuousTestFail => 0x2046070c2f62665f6038031c6a099e200001003
  | .tamperEvent => 0x2046070c2f62665f6038031c6a099e200001003
  | .sheafCommit _ => 0x2006023d2ff80200000000000000b4000000003
  | .wearProjection => 0x2006024c2b00000000000000000090000000001
  | .granaryScrubRead _ _ => 0x200602001318000000000000000090000000001
  | .vgranLoss => 0x420000000000000000000000000000e0001
  | .vgranRestored => 0x420003000000000000000000000000e0001
  | .vgranFailTimeout => 0x2006020c2f00020000000000000094000000003
  | .changeCommitTimer _ _ => 0xb00000000000000000000000000000
  | .allowanceRefill => 0x1
  | .digestBucketRefill => 0x40000000000000000000000000000000
  | .shelfRollback => 0x33cedf004f626edfe23ee33eee0efd804000283
  | .ringDoorbell _ _ _ => 0x20000b000000001000000000000000004000003
  | .ringEnable _ _ _ => 0x3000000000000000000000000000000003
  | .ringDisable _ _ _ => 0x3000000000000000000000000000000003
  | .ringStopped _ _ => 0x2
  | .descriptorFetchDone _ _ _ => 0x20000b000000001000000000000000004000003
  | .txDataReadDone _ _ => 0x20000f000000005c60000002000000004000003
  | .rxRingDeliver _ => 0x20000f000000001000000308000000004000003
  | .vectorDelivery _ => 0x200002000000000000000000000000000000001
  | .millEnable => 0x33cedf004f626edfe23ee33eee0efd804000283
  | .millDisable => 0x33cedf004f626edfe23ee33eee0efd804000283
  | .millDrained _ => 0x304002000000000000000000060000000000001
  | .millFrame _ => 0x20000f000000001000000000000000004000003
  | .millOversize _ => 0x200006000000000000000000000000000000003
  | .hostBhEnableWrite _ _ => 0x2000000000000000000000000000000001
  | .hostBhClear _ _ => 0x2000000000000000000000000000000001
  | .mNop _ => 0x1812000000000000000000000000000000001
  | .mMov _ _ _ => 0x1812000000000000000000000000000000001
  | .mLdi _ _ => 0x1812000000000000000000000000000000001
  | .mLdh _ _ => 0x1812000000000000000000000000000000001
  | .mAdd _ _ _ => 0x1812000000000000000000000000000000001
  | .mSub _ _ _ => 0x1812000000000000000000000000000000001
  | .mAnd _ _ _ => 0x1812000000000000000000000000000000001
  | .mOr _ _ _ => 0x1812000000000000000000000000000000001
  | .mXor _ _ _ => 0x1812000000000000000000000000000000001
  | .mShl _ _ _ => 0x1812000000000000000000000000000000001
  | .mShr _ _ _ => 0x1812000000000000000000000000000000001
  | .mCmp _ _ _ => 0x1812000000000000000000000000000000001
  | .mAddq _ _ _ => 0x1812000000000000000000000000000000001
  | .mSubq _ _ _ => 0x1812000000000000000000000000000000001
  | .mLd _ _ _ => 0x205f973d2ff8005f6038031c6a09bf200003003
  | .mSt _ _ _ => 0x205f973d2ff8005f6038031c6a09bf200003003
  | .mIn _ _ _ => 0x101812000000000000000000000000000000001
  | .mOut _ _ _ => 0x201e12000000000000000000000090000000001
  | .mBr _ _ => 0x1812000000000000000000000000000000001
  | .mBz _ _ => 0x1812000000000000000000000000000000001
  | .mBnz _ _ => 0x1812000000000000000000000000000000001
  | .mBn _ _ => 0x1812000000000000000000000000000000001
  | .mBc _ _ => 0x1812000000000000000000000000000000001
  | .mCall _ _ => 0x205f973d2ff8005f6038031c6a09bf200003003
  | .mRet _ => 0x205f973d2ff8005f6038031c6a09bf200003003
  | .mJr _ _ _ => 0x1812000000000000000000000000000000001
  | .mWait _ => 0x1812000000000000000000000000000000001
  | .mReti _ => 0x205f973d2ff8005f6038031c6a09bf200003003
  | .mDi _ => 0x1812000000000000000000000000000000001
  | .mEi _ => 0x1812000000000000000000000000000000001
  | .mHook _ _ => 0x305f173d2ff8005f6038031c6a09bf200003003
  | .mKick _ => 0x1812000000000000000000000000000000001
  | .mTrap _ _ => 0x1812000000000000000000000000000000001
  | .vendorOpcode _ _ _ => 0x305f973d2ff8005f6038031c6a09bf200003003
  | .illegalOpcode _ _ _ => 0x201e12000000000000000000000090000000001
  | .bellhouseTake _ => 0x305f973d2ff8005f6038031c6a09bf200003003
  | .holdoffExpiry _ _ => 0x10000000000000000000000000000000000
  | .routineOverrun _ => 0x2047973d2ff8005f6038031c6a09bf200003003
  | .stewardWatchdog _ => 0x92000000000000000000000000000000001
  | .stewardRestart => 0x33cedf004f626edfe23ee33eee0efd804000283
  | .stewardRestartDone _ => 0x3046920080000000000000006e0090000000001
  | .counterWrap _ _ => 0x1802000000000000000000000000000000001
  | .pcValueRead _ _ => 0x2
  | .pcClearAll => 0x33cedf004f626edfe23ee33eee0efd804000283
  | .tallyWindowEnd _ => 0x1c000000000000000000000000000000000001
  | .tallyUsWrite => 0x33cedf004f626edfe23ee33eee0efd804000283
  | .sampleNextRead => 0x33cedf004f626edfe23ee33eee0efd804000283
  | .booksRun => 0x33cedf004f626edfe23ee33eee0efd804000283
  | .booksPeriodDue => 0x60000000000000000000000000000000000001
  | .booksComplete => 0x260602000000000000000000000090000000001
  | .headerLockRegained _ => 0x10000000000000000
  | .vcoreToleranceChange _ => 0x98000
  | .vembRemoved => 0xffffffe9f877ffffffffffffffffffdcf41ff3
  | .idleAfterLpi _ => 0x204603000000005f6038031e6a0090000000003
  | .sequencerTimerExpiry _ _ => 0x2000000000000000000000000000000001
  | .drbgReseedDue => 0x2000000000000000000000000000000001

/-- The commands that may move the mode. -/
def mayMoveMode : Instr → Bool
  | .powerGood _ => true
  | .rootPllLock _ => true
  | .refcoreLoss => true
  | .vcoreRemoved => true
  | .dozeWakeFrame _ _ => true
  | .storeComplete => true
  | .modeRequestEmber => true
  | .emberDrained => true
  | .modeRequestKindle => true
  | .modeRequestService => true
  | .modeRequestDoze => true
  | .reeveWatchdog => true
  | .selftestNow _ => true
  | .zeroisationComplete => true
  | .macsecKatDaily _ _ => true
  | .continuousTestFail => true
  | .tamperEvent => true
  | .mLd _ _ _ => true
  | .mSt _ _ _ => true
  | .mCall _ _ => true
  | .mRet _ => true
  | .mReti _ => true
  | .mHook _ _ => true
  | .vendorOpcode _ _ _ => true
  | .bellhouseTake _ => true
  | .routineOverrun _ => true
  | .vembRemoved => true
  | _ => false

theorem exec_kept : ∀ (c : Instr) (s : State), Confined (mayMoveMode c) (touch c) s (exec c s)
  | .powerGood reflanes, s => execPowerGood_kept reflanes s
  | .rootPllLock k, s => execRootPllLock_kept k s
  | .refcoreLoss, s => execRefcoreLoss_kept s
  | .refcoreRestored, s => execRefcoreRestored_kept s
  | .reflaneLoss b, s => execReflaneLoss_kept b s
  | .reflaneRestored b, s => execReflaneRestored_kept b s
  | .pfailAccept, s => execPfailAccept_kept s
  | .pfailDrainDone, s => execPfailDrainDone_kept s
  | .pfailNRise, s => execPfailNRise_kept s
  | .pfailReopen, s => execPfailReopen_kept s
  | .wakeAccept, s => execWakeAccept_kept s
  | .zeroiseAccept, s => execZeroiseAccept_kept s
  | .vcoreRemoved, s => execVcoreRemoved_kept s
  | .targetAccessError offset size, s => execTargetAccessError_kept offset size s
  | .unmappedAccess write offset, s => execUnmappedAccess_kept write offset s
  | .hostWindowWrite offset size value, s => execHostWindowWrite_kept offset size value s
  | .readCompletion tag, s => execReadCompletion_kept tag s
  | .readTagTimeout tag, s => execReadTagTimeout_kept tag s
  | .tagQuarantineEnd tag, s => execTagQuarantineEnd_kept tag s
  | .creditReturn c n, s => execCreditReturn_kept c n s
  | .creditInit c value, s => execCreditInit_kept c value s
  | .creditWordInvalid c value, s => execCreditWordInvalid_kept c value s
  | .egressCell p cell, s => execEgressCell_kept p cell s
  | .decisionArrive b handle result status, s => execDecisionArrive_kept b handle result status s
  | .decisionTimeout b handle, s => execDecisionTimeout_kept b handle s
  | .flushSpIssue b, s => execFlushSpIssue_kept b s
  | .flushSpComplete b tag, s => execFlushSpComplete_kept b tag s
  | .flushSpOverdue b tag, s => execFlushSpOverdue_kept b tag s
  | .lookupSearch, s => execLookupSearch_kept s
  | .lookupNext, s => execLookupNext_kept s
  | .lookupComplete b tag hit answer, s => execLookupComplete_kept b tag hit answer s
  | .lookupTimeout b tag, s => execLookupTimeout_kept b tag s
  | .waitingChange p level, s => execWaitingChange_kept p level s
  | .avsStep, s => execAvsStep_kept s
  | .avsAnswer ack, s => execAvsAnswer_kept ack s
  | .avsAnswerTimeout, s => execAvsAnswerTimeout_kept s
  | .tjAlarm sensor reading, s => execTjAlarm_kept sensor reading s
  | .thermalShutdown sensor reading, s => execThermalShutdown_kept sensor reading s
  | .mbxRead, s => execMbxRead_kept s
  | .mbxWrite, s => execMbxWrite_kept s
  | .mbxSegRead, s => execMbxSegRead_kept s
  | .mbxSegWrite last, s => execMbxSegWrite_kept last s
  | .ledgerRead, s => execLedgerRead_kept s
  | .ledgerWrite, s => execLedgerWrite_kept s
  | .ledgerSegRead, s => execLedgerSegRead_kept s
  | .ledgerSegWrite, s => execLedgerSegWrite_kept s
  | .dvorOpen o, s => execDvorOpen_kept o s
  | .dvorOpenConfirm peer session sig, s => execDvorOpenConfirm_kept peer session sig s
  | .dvorClose slot, s => execDvorClose_kept slot s
  | .dvorRead r, s => execDvorRead_kept r s
  | .dvorWrite r data, s => execDvorWrite_kept r data s
  | .dvorSegRead r offset gen len, s => execDvorSegRead_kept r offset gen len s
  | .dvorSegWrite r offset gen last data, s => execDvorSegWrite_kept r offset gen last data s
  | .dvorEventAck r events, s => execDvorEventAck_kept r events s
  | .dvorKeepalive r, s => execDvorKeepalive_kept r s
  | .dvorDatagramBad path why, s => execDvorDatagramBad_kept path why s
  | .icmpv6Request path echo, s => execIcmpv6Request_kept path echo s
  | .fieldFrameOther path, s => execFieldFrameOther_kept path s
  | .dozeWakeFrame path frame, s => execDozeWakeFrame_kept path frame s
  | .handshakeTimeout place, s => execHandshakeTimeout_kept place s
  | .sessionIdleTimeout slot, s => execSessionIdleTimeout_kept slot s
  | .segTransferTimeout index sub, s => execSegTransferTimeout_kept index sub s
  | .eventRetransmit slot event, s => execEventRetransmit_kept slot event s
  | .storeRange, s => execStoreRange_kept s
  | .restoreRange, s => execRestoreRange_kept s
  | .defaultRange, s => execDefaultRange_kept s
  | .storeComplete, s => execStoreComplete_kept s
  | .modeRequestEmber, s => execModeRequestEmber_kept s
  | .emberDrained, s => execEmberDrained_kept s
  | .modeRequestKindle, s => execModeRequestKindle_kept s
  | .modeRequestService, s => execModeRequestService_kept s
  | .modeRequestDoze, s => execModeRequestDoze_kept s
  | .reeveWatchdog, s => execReeveWatchdog_kept s
  | .detectDone g, s => execDetectDone_kept g s
  | .detectTimeout g, s => execDetectTimeout_kept g s
  | .pam2Timeout g, s => execPam2Timeout_kept g s
  | .trainingTimeout g, s => execTrainingTimeout_kept g s
  | .exchangeTimeout g, s => execExchangeTimeout_kept g s
  | .backoffExpiry g, s => execBackoffExpiry_kept g s
  | .listeningBurst g, s => execListeningBurst_kept g s
  | .activeHoldExpiry sp, s => execActiveHoldExpiry_kept sp s
  | .trainRestart, s => execTrainRestart_kept s
  | .trainingFrame l good msg invertedOnly, s => execTrainingFrame_kept l good msg invertedOnly s
  | .hello l rates role seed, s => execHello_kept l rates role seed s
  | .trainingReady l count, s => execTrainingReady_kept l count s
  | .readyCountdownEnd l, s => execReadyCountdownEnd_kept l s
  | .rxReady l coarse fine, s => execRxReady_kept l coarse fine s
  | .trainingCountdownEnd l, s => execTrainingCountdownEnd_kept l s
  | .blockLock g, s => execBlockLock_kept g s
  | .cdrLock l, s => execCdrLock_kept l s
  | .cdrLockLoss l slip, s => execCdrLockLoss_kept l slip s
  | .signalDetectLoss l, s => execSignalDetectLoss_kept l s
  | .gossipStatus l exch payload, s => execGossipStatus_kept l exch payload s
  | .gossipOffer l exch payload, s => execGossipOffer_kept l exch payload s
  | .gossipAccept l exch payload, s => execGossipAccept_kept l exch payload s
  | .gossipConfirm l exch payload, s => execGossipConfirm_kept l exch payload s
  | .gossipSpare l payload, s => execGossipSpare_kept l payload s
  | .gossipPrepare l exch payload, s => execGossipPrepare_kept l exch payload s
  | .gossipReady l exch payload, s => execGossipReady_kept l exch payload s
  | .gossipRoll l exch payload codeword, s => execGossipRoll_kept l exch payload codeword s
  | .gossipRolled l exch payload, s => execGossipRolled_kept l exch payload s
  | .gossipRefuse l exch payload, s => execGossipRefuse_kept l exch payload s
  | .gossipSurvey l exch payload, s => execGossipSurvey_kept l exch payload s
  | .gossipRetire l payload, s => execGossipRetire_kept l payload s
  | .gossipBadWord l, s => execGossipBadWord_kept l s
  | .gossipLoss l, s => execGossipLoss_kept l s
  | .fecWindowEnd sp roleCorrected codewords corrected uncorrectable, s => execFecWindowEnd_kept sp roleCorrected codewords corrected uncorrectable s
  | .laneTestStart, s => execLaneTestStart_kept s
  | .laneTestStop, s => execLaneTestStop_kept s
  | .prbsClear, s => execPrbsClear_kept s
  | .prbsCheckerLock l gained bits errors, s => execPrbsCheckerLock_kept l gained bits errors s
  | .eyeScanStart, s => execEyeScanStart_kept s
  | .eyeScanDone l counts, s => execEyeScanDone_kept l counts s
  | .eyeScanResume l, s => execEyeScanResume_kept l s
  | .eyeScanAbort l, s => execEyeScanAbort_kept l s
  | .fieldLaneUp f, s => execFieldLaneUp_kept f s
  | .fieldLaneDown f, s => execFieldLaneDown_kept f s
  | .fieldLaneRetry f, s => execFieldLaneRetry_kept f s
  | .fieldLaneConfigWrite, s => execFieldLaneConfigWrite_kept s
  | .spareBurst l, s => execSpareBurst_kept l s
  | .spareFault l, s => execSpareFault_kept l s
  | .bridgeCompareDone p role, s => execBridgeCompareDone_kept p role s
  | .rollCodeword p role shift, s => execRollCodeword_kept p role shift s
  | .rollTimeout p role, s => execRollTimeout_kept p role s
  | .spareDeskewed p role shift interruptNs, s => execSpareDeskewed_kept p role shift interruptNs s
  | .retestStart l, s => execRetestStart_kept l s
  | .retestMeasured l m, s => execRetestMeasured_kept l m s
  | .retireClear, s => execRetireClear_kept s
  | .roundNow, s => execRoundNow_kept s
  | .roundPeriodExpiry, s => execRoundPeriodExpiry_kept s
  | .surveyStart b, s => execSurveyStart_kept b s
  | .surveyPrbsEnd b m remeasured again, s => execSurveyPrbsEnd_kept b m remeasured again s
  | .surveyNow, s => execSurveyNow_kept s
  | .telltaleMeasure stressed reference, s => execTelltaleMeasure_kept stressed reference s
  | .serviceSHourly, s => execServiceSHourly_kept s
  | .spareRateWrite, s => execSpareRateWrite_kept s
  | .portRestart, s => execPortRestart_kept s
  | .spAdminWrite, s => execSpAdminWrite_kept s
  | .headerLockLoss sp, s => execHeaderLockLoss_kept sp s
  | .headerLockTimeout sp, s => execHeaderLockTimeout_kept sp s
  | .hiBer sp, s => execHiBer_kept sp s
  | .rxFrame f, s => execRxFrame_kept f s
  | .pauseFrameRx sp quanta, s => execPauseFrameRx_kept sp quanta s
  | .pfcFrameRx sp enable times, s => execPfcFrameRx_kept sp enable times s
  | .pauseExpiry sp tc, s => execPauseExpiry_kept sp tc s
  | .pfcRefresh sp tc, s => execPfcRefresh_kept sp tc s
  | .quietIdleExpiry p, s => execQuietIdleExpiry_kept p s
  | .lpiReceived p, s => execLpiReceived_kept p s
  | .quietHandshakeTimeout p, s => execQuietHandshakeTimeout_kept p s
  | .partnerWakeBurst p, s => execPartnerWakeBurst_kept p s
  | .quietWakeComplete p, s => execQuietWakeComplete_kept p s
  | .partnerWakeTimeout p, s => execPartnerWakeTimeout_kept p s
  | .cellIdleClose sp, s => execCellIdleClose_kept sp s
  | .cellSend b, s => execCellSend_kept b s
  | .creditStall b us, s => execCreditStall_kept b us s
  | .gleanerExpiry b entry, s => execGleanerExpiry_kept b entry s
  | .gleanFlush, s => execGleanFlush_kept s
  | .sieveWriteShadow b index, s => execSieveWriteShadow_kept b index s
  | .sieveWriteBoth b index, s => execSieveWriteBoth_kept b index s
  | .sieveReadShadow b index, s => execSieveReadShadow_kept b index s
  | .sieveReadActive b index, s => execSieveReadActive_kept b index s
  | .sieveInvalidateShadow b index, s => execSieveInvalidateShadow_kept b index s
  | .sieveInvalidateBoth b index, s => execSieveInvalidateBoth_kept b index s
  | .sieveSwap window, s => execSieveSwap_kept window s
  | .sieveSwapDone b, s => execSieveSwapDone_kept b s
  | .sieveScrubCompare b bank index m forced, s => execSieveScrubCompare_kept b bank index m forced s
  | .hitCountClear b index, s => execHitCountClear_kept b index s
  | .policerApply b index value, s => execPolicerApply_kept b index value s
  | .schedulerSelect sp, s => execSchedulerSelect_kept sp s
  | .txFrameDone sp departure, s => execTxFrameDone_kept sp departure s
  | .calendarRelease p shaper, s => execCalendarRelease_kept p shaper s
  | .gateEntryChange sp, s => execGateEntryChange_kept sp s
  | .gateConfigChange sp, s => execGateConfigChange_kept sp s
  | .gateSchedule, s => execGateSchedule_kept s
  | .gateCancel, s => execGateCancel_kept s
  | .queueDropsClear p q, s => execQueueDropsClear_kept p q s
  | .shaperApply p shaper value, s => execShaperApply_kept p shaper value s
  | .timeResync, s => execTimeResync_kept s
  | .timeSet, s => execTimeSet_kept s
  | .timeStep, s => execTimeStep_kept s
  | .freqAdjWrite, s => execFreqAdjWrite_kept s
  | .txStampNextRead, s => execTxStampNextRead_kept s
  | .saInstall, s => execSaInstall_kept s
  | .saRemove, s => execSaRemove_kept s
  | .encodingAnWrite, s => execEncodingAnWrite_kept s
  | .pnReservationCommit sp an, s => execPnReservationCommit_kept sp an s
  | .pnReservationRetry sp an, s => execPnReservationRetry_kept sp an s
  | .kekInstall, s => execKekInstall_kept s
  | .kekClear, s => execKekClear_kept s
  | .kiForget, s => execKiForget_kept s
  | .selftestNow failedRow, s => execSelftestNow_kept failedRow s
  | .zeroiseNow, s => execZeroiseNow_kept s
  | .zeroisationComplete, s => execZeroisationComplete_kept s
  | .hostOfficerSWrite, s => execHostOfficerSWrite_kept s
  | .hostOfficerExpiry, s => execHostOfficerExpiry_kept s
  | .macsecKatDaily p ok, s => execMacsecKatDaily_kept p ok s
  | .continuousTestFail, s => execContinuousTestFail_kept s
  | .tamperEvent, s => execTamperEvent_kept s
  | .sheafCommit readbackBad, s => execSheafCommit_kept readbackBad s
  | .wearProjection, s => execWearProjection_kept s
  | .granaryScrubRead slot damage, s => execGranaryScrubRead_kept slot damage s
  | .vgranLoss, s => execVgranLoss_kept s
  | .vgranRestored, s => execVgranRestored_kept s
  | .vgranFailTimeout, s => execVgranFailTimeout_kept s
  | .changeCommitTimer index sub, s => execChangeCommitTimer_kept index sub s
  | .allowanceRefill, s => execAllowanceRefill_kept s
  | .digestBucketRefill, s => execDigestBucketRefill_kept s
  | .shelfRollback, s => execShelfRollback_kept s
  | .ringDoorbell d n value, s => execRingDoorbell_kept d n value s
  | .ringEnable d n ctrl, s => execRingEnable_kept d n ctrl s
  | .ringDisable d n ctrl, s => execRingDisable_kept d n ctrl s
  | .ringStopped d n, s => execRingStopped_kept d n s
  | .descriptorFetchDone d n descs, s => execDescriptorFetchDone_kept d n descs s
  | .txDataReadDone n data, s => execTxDataReadDone_kept n data s
  | .rxRingDeliver n, s => execRxRingDeliver_kept n s
  | .vectorDelivery v, s => execVectorDelivery_kept v s
  | .millEnable, s => execMillEnable_kept s
  | .millDisable, s => execMillDisable_kept s
  | .millDrained sp, s => execMillDrained_kept sp s
  | .millFrame b, s => execMillFrame_kept b s
  | .millOversize b, s => execMillOversize_kept b s
  | .hostBhEnableWrite hi value, s => execHostBhEnableWrite_kept hi value s
  | .hostBhClear hi value, s => execHostBhClear_kept hi value s
  | .mNop u, s => execMNop_kept u s
  | .mMov u d r, s => execMMov_kept u d r s
  | .mLdi u imm, s => execMLdi_kept u imm s
  | .mLdh u imm, s => execMLdh_kept u imm s
  | .mAdd u d r, s => execMAdd_kept u d r s
  | .mSub u d r, s => execMSub_kept u d r s
  | .mAnd u d r, s => execMAnd_kept u d r s
  | .mOr u d r, s => execMOr_kept u d r s
  | .mXor u d r, s => execMXor_kept u d r s
  | .mShl u d r, s => execMShl_kept u d r s
  | .mShr u d r, s => execMShr_kept u d r s
  | .mCmp u d r, s => execMCmp_kept u d r s
  | .mAddq u d imm, s => execMAddq_kept u d imm s
  | .mSubq u d imm, s => execMSubq_kept u d imm s
  | .mLd u d r, s => execMLd_kept u d r s
  | .mSt u d r, s => execMSt_kept u d r s
  | .mIn u d r, s => execMIn_kept u d r s
  | .mOut u d r, s => execMOut_kept u d r s
  | .mBr u off, s => execMBr_kept u off s
  | .mBz u off, s => execMBz_kept u off s
  | .mBnz u off, s => execMBnz_kept u off s
  | .mBn u off, s => execMBn_kept u off s
  | .mBc u off, s => execMBc_kept u off s
  | .mCall u off, s => execMCall_kept u off s
  | .mRet u, s => execMRet_kept u s
  | .mJr u d r, s => execMJr_kept u d r s
  | .mWait u, s => execMWait_kept u s
  | .mReti u, s => execMReti_kept u s
  | .mDi u, s => execMDi_kept u s
  | .mEi u, s => execMEi_kept u s
  | .mHook u n, s => execMHook_kept u n s
  | .mKick u, s => execMKick_kept u s
  | .mTrap u code, s => execMTrap_kept u code s
  | .vendorOpcode u op opr, s => execVendorOpcode_kept u op opr s
  | .illegalOpcode u op opr, s => execIllegalOpcode_kept u op opr s
  | .bellhouseTake u, s => execBellhouseTake_kept u s
  | .holdoffExpiry u g, s => execHoldoffExpiry_kept u g s
  | .routineOverrun u, s => execRoutineOverrun_kept u s
  | .stewardWatchdog n, s => execStewardWatchdog_kept n s
  | .stewardRestart, s => execStewardRestart_kept s
  | .stewardRestartDone n, s => execStewardRestartDone_kept n s
  | .counterWrap b k, s => execCounterWrap_kept b k s
  | .pcValueRead b k, s => execPcValueRead_kept b k s
  | .pcClearAll, s => execPcClearAll_kept s
  | .tallyWindowEnd p, s => execTallyWindowEnd_kept p s
  | .tallyUsWrite, s => execTallyUsWrite_kept s
  | .sampleNextRead, s => execSampleNextRead_kept s
  | .booksRun, s => execBooksRun_kept s
  | .booksPeriodDue, s => execBooksPeriodDue_kept s
  | .booksComplete, s => execBooksComplete_kept s
  | .headerLockRegained sp, s => execHeaderLockRegained_kept sp s
  | .vcoreToleranceChange inBand, s => execVcoreToleranceChange_kept inBand s
  | .vembRemoved, s => execVembRemoved_kept s
  | .idleAfterLpi p, s => execIdleAfterLpi_kept p s
  | .sequencerTimerExpiry u t, s => execSequencerTimerExpiry_kept u t s
  | .drbgReseedDue, s => execDrbgReseedDue_kept s

end Sys2Proof.Machine
end

