-- ==== Sys2Proof/Laws/State.lean ====
section
/-! SUPPORT. What each plain update of the wall leaves as it was, field by field. -/

open Sys2Proof

namespace Sys2Proof.Machine

@[simp] theorem Wall.bump_win (w : Wall) (r : Reg) (n : ℕ) : (Wall.bump w r n).win = w.win := rfl
@[simp] theorem Wall.bump_time (w : Wall) (r : Reg) (n : ℕ) : (Wall.bump w r n).time = w.time := rfl
@[simp] theorem Wall.bump_bnd (w : Wall) (r : Reg) (n : ℕ) : (Wall.bump w r n).bnd = w.bnd := rfl
@[simp] theorem Wall.bump_led (w : Wall) (r : Reg) (n : ℕ) : (Wall.bump w r n).led = w.led := rfl
@[simp] theorem Wall.bump_lan (w : Wall) (r : Reg) (n : ℕ) : (Wall.bump w r n).lan = w.lan := rfl
@[simp] theorem Wall.bump_prt (w : Wall) (r : Reg) (n : ℕ) : (Wall.bump w r n).prt = w.prt := rfl
@[simp] theorem Wall.bump_ing (w : Wall) (r : Reg) (n : ℕ) : (Wall.bump w r n).ing = w.ing := rfl
@[simp] theorem Wall.bump_egr (w : Wall) (r : Reg) (n : ℕ) : (Wall.bump w r n).egr = w.egr := rfl
@[simp] theorem Wall.bump_sec (w : Wall) (r : Reg) (n : ℕ) : (Wall.bump w r n).sec = w.sec := rfl
@[simp] theorem Wall.bump_gra (w : Wall) (r : Reg) (n : ℕ) : (Wall.bump w r n).gra = w.gra := rfl
@[simp] theorem Wall.bump_hst (w : Wall) (r : Reg) (n : ℕ) : (Wall.bump w r n).hst = w.hst := rfl
@[simp] theorem Wall.bump_stw (w : Wall) (r : Reg) (n : ℕ) : (Wall.bump w r n).stw = w.stw := rfl
@[simp] theorem Wall.bump_obs (w : Wall) (r : Reg) (n : ℕ) : (Wall.bump w r n).obs = w.obs := rfl
@[simp] theorem Wall.bump_freeN (w : Wall) (r : Reg) (n : ℕ) : (Wall.bump w r n).freeN = w.freeN := rfl
@[simp] theorem Wall.bump_out (w : Wall) (r : Reg) (n : ℕ) : (Wall.bump w r n).out = w.out := rfl
@[simp] theorem Wall.bumpSat_win (w : Wall) (r : Reg) (n : ℕ) : (Wall.bumpSat w r n).win = w.win := rfl
@[simp] theorem Wall.bumpSat_time (w : Wall) (r : Reg) (n : ℕ) : (Wall.bumpSat w r n).time = w.time := rfl
@[simp] theorem Wall.bumpSat_bnd (w : Wall) (r : Reg) (n : ℕ) : (Wall.bumpSat w r n).bnd = w.bnd := rfl
@[simp] theorem Wall.bumpSat_led (w : Wall) (r : Reg) (n : ℕ) : (Wall.bumpSat w r n).led = w.led := rfl
@[simp] theorem Wall.bumpSat_lan (w : Wall) (r : Reg) (n : ℕ) : (Wall.bumpSat w r n).lan = w.lan := rfl
@[simp] theorem Wall.bumpSat_prt (w : Wall) (r : Reg) (n : ℕ) : (Wall.bumpSat w r n).prt = w.prt := rfl
@[simp] theorem Wall.bumpSat_ing (w : Wall) (r : Reg) (n : ℕ) : (Wall.bumpSat w r n).ing = w.ing := rfl
@[simp] theorem Wall.bumpSat_egr (w : Wall) (r : Reg) (n : ℕ) : (Wall.bumpSat w r n).egr = w.egr := rfl
@[simp] theorem Wall.bumpSat_sec (w : Wall) (r : Reg) (n : ℕ) : (Wall.bumpSat w r n).sec = w.sec := rfl
@[simp] theorem Wall.bumpSat_gra (w : Wall) (r : Reg) (n : ℕ) : (Wall.bumpSat w r n).gra = w.gra := rfl
@[simp] theorem Wall.bumpSat_hst (w : Wall) (r : Reg) (n : ℕ) : (Wall.bumpSat w r n).hst = w.hst := rfl
@[simp] theorem Wall.bumpSat_stw (w : Wall) (r : Reg) (n : ℕ) : (Wall.bumpSat w r n).stw = w.stw := rfl
@[simp] theorem Wall.bumpSat_obs (w : Wall) (r : Reg) (n : ℕ) : (Wall.bumpSat w r n).obs = w.obs := rfl
@[simp] theorem Wall.bumpSat_freeN (w : Wall) (r : Reg) (n : ℕ) : (Wall.bumpSat w r n).freeN = w.freeN := rfl
@[simp] theorem Wall.bumpSat_out (w : Wall) (r : Reg) (n : ℕ) : (Wall.bumpSat w r n).out = w.out := rfl
@[simp] theorem Wall.clrBitR_win (w : Wall) (r : Reg) (i : ℕ) : (Wall.clrBitR w r i).win = w.win := rfl
@[simp] theorem Wall.clrBitR_time (w : Wall) (r : Reg) (i : ℕ) : (Wall.clrBitR w r i).time = w.time := rfl
@[simp] theorem Wall.clrBitR_bnd (w : Wall) (r : Reg) (i : ℕ) : (Wall.clrBitR w r i).bnd = w.bnd := rfl
@[simp] theorem Wall.clrBitR_led (w : Wall) (r : Reg) (i : ℕ) : (Wall.clrBitR w r i).led = w.led := rfl
@[simp] theorem Wall.clrBitR_lan (w : Wall) (r : Reg) (i : ℕ) : (Wall.clrBitR w r i).lan = w.lan := rfl
@[simp] theorem Wall.clrBitR_prt (w : Wall) (r : Reg) (i : ℕ) : (Wall.clrBitR w r i).prt = w.prt := rfl
@[simp] theorem Wall.clrBitR_ing (w : Wall) (r : Reg) (i : ℕ) : (Wall.clrBitR w r i).ing = w.ing := rfl
@[simp] theorem Wall.clrBitR_egr (w : Wall) (r : Reg) (i : ℕ) : (Wall.clrBitR w r i).egr = w.egr := rfl
@[simp] theorem Wall.clrBitR_sec (w : Wall) (r : Reg) (i : ℕ) : (Wall.clrBitR w r i).sec = w.sec := rfl
@[simp] theorem Wall.clrBitR_gra (w : Wall) (r : Reg) (i : ℕ) : (Wall.clrBitR w r i).gra = w.gra := rfl
@[simp] theorem Wall.clrBitR_hst (w : Wall) (r : Reg) (i : ℕ) : (Wall.clrBitR w r i).hst = w.hst := rfl
@[simp] theorem Wall.clrBitR_stw (w : Wall) (r : Reg) (i : ℕ) : (Wall.clrBitR w r i).stw = w.stw := rfl
@[simp] theorem Wall.clrBitR_obs (w : Wall) (r : Reg) (i : ℕ) : (Wall.clrBitR w r i).obs = w.obs := rfl
@[simp] theorem Wall.clrBitR_freeN (w : Wall) (r : Reg) (i : ℕ) : (Wall.clrBitR w r i).freeN = w.freeN := rfl
@[simp] theorem Wall.clrBitR_out (w : Wall) (r : Reg) (i : ℕ) : (Wall.clrBitR w r i).out = w.out := rfl
@[simp] theorem Wall.emit_regs (w : Wall) (o : Out) : (Wall.emit w o).regs = w.regs := rfl
@[simp] theorem Wall.emit_win (w : Wall) (o : Out) : (Wall.emit w o).win = w.win := rfl
@[simp] theorem Wall.emit_time (w : Wall) (o : Out) : (Wall.emit w o).time = w.time := rfl
@[simp] theorem Wall.emit_bnd (w : Wall) (o : Out) : (Wall.emit w o).bnd = w.bnd := rfl
@[simp] theorem Wall.emit_led (w : Wall) (o : Out) : (Wall.emit w o).led = w.led := rfl
@[simp] theorem Wall.emit_lan (w : Wall) (o : Out) : (Wall.emit w o).lan = w.lan := rfl
@[simp] theorem Wall.emit_prt (w : Wall) (o : Out) : (Wall.emit w o).prt = w.prt := rfl
@[simp] theorem Wall.emit_ing (w : Wall) (o : Out) : (Wall.emit w o).ing = w.ing := rfl
@[simp] theorem Wall.emit_egr (w : Wall) (o : Out) : (Wall.emit w o).egr = w.egr := rfl
@[simp] theorem Wall.emit_sec (w : Wall) (o : Out) : (Wall.emit w o).sec = w.sec := rfl
@[simp] theorem Wall.emit_gra (w : Wall) (o : Out) : (Wall.emit w o).gra = w.gra := rfl
@[simp] theorem Wall.emit_hst (w : Wall) (o : Out) : (Wall.emit w o).hst = w.hst := rfl
@[simp] theorem Wall.emit_stw (w : Wall) (o : Out) : (Wall.emit w o).stw = w.stw := rfl
@[simp] theorem Wall.emit_obs (w : Wall) (o : Out) : (Wall.emit w o).obs = w.obs := rfl
@[simp] theorem Wall.emit_freeN (w : Wall) (o : Out) : (Wall.emit w o).freeN = w.freeN := rfl
@[simp] theorem Wall.emit_get (w : Wall) (o : Out) (r : Reg) : (Wall.emit w o).get r = w.get r := rfl
@[simp] theorem Wall.set_win (w : Wall) (r : Reg) (v : ℕ) : (Wall.set w r v).win = w.win := rfl
@[simp] theorem Wall.set_time (w : Wall) (r : Reg) (v : ℕ) : (Wall.set w r v).time = w.time := rfl
@[simp] theorem Wall.set_bnd (w : Wall) (r : Reg) (v : ℕ) : (Wall.set w r v).bnd = w.bnd := rfl
@[simp] theorem Wall.set_led (w : Wall) (r : Reg) (v : ℕ) : (Wall.set w r v).led = w.led := rfl
@[simp] theorem Wall.set_lan (w : Wall) (r : Reg) (v : ℕ) : (Wall.set w r v).lan = w.lan := rfl
@[simp] theorem Wall.set_prt (w : Wall) (r : Reg) (v : ℕ) : (Wall.set w r v).prt = w.prt := rfl
@[simp] theorem Wall.set_ing (w : Wall) (r : Reg) (v : ℕ) : (Wall.set w r v).ing = w.ing := rfl
@[simp] theorem Wall.set_egr (w : Wall) (r : Reg) (v : ℕ) : (Wall.set w r v).egr = w.egr := rfl
@[simp] theorem Wall.set_sec (w : Wall) (r : Reg) (v : ℕ) : (Wall.set w r v).sec = w.sec := rfl
@[simp] theorem Wall.set_gra (w : Wall) (r : Reg) (v : ℕ) : (Wall.set w r v).gra = w.gra := rfl
@[simp] theorem Wall.set_hst (w : Wall) (r : Reg) (v : ℕ) : (Wall.set w r v).hst = w.hst := rfl
@[simp] theorem Wall.set_stw (w : Wall) (r : Reg) (v : ℕ) : (Wall.set w r v).stw = w.stw := rfl
@[simp] theorem Wall.set_obs (w : Wall) (r : Reg) (v : ℕ) : (Wall.set w r v).obs = w.obs := rfl
@[simp] theorem Wall.set_freeN (w : Wall) (r : Reg) (v : ℕ) : (Wall.set w r v).freeN = w.freeN := rfl
@[simp] theorem Wall.set_out (w : Wall) (r : Reg) (v : ℕ) : (Wall.set w r v).out = w.out := rfl
@[simp] theorem Wall.setB_win (w : Wall) (r : Reg) (b : Bool) : (Wall.setB w r b).win = w.win := rfl
@[simp] theorem Wall.setB_time (w : Wall) (r : Reg) (b : Bool) : (Wall.setB w r b).time = w.time := rfl
@[simp] theorem Wall.setB_bnd (w : Wall) (r : Reg) (b : Bool) : (Wall.setB w r b).bnd = w.bnd := rfl
@[simp] theorem Wall.setB_led (w : Wall) (r : Reg) (b : Bool) : (Wall.setB w r b).led = w.led := rfl
@[simp] theorem Wall.setB_lan (w : Wall) (r : Reg) (b : Bool) : (Wall.setB w r b).lan = w.lan := rfl
@[simp] theorem Wall.setB_prt (w : Wall) (r : Reg) (b : Bool) : (Wall.setB w r b).prt = w.prt := rfl
@[simp] theorem Wall.setB_ing (w : Wall) (r : Reg) (b : Bool) : (Wall.setB w r b).ing = w.ing := rfl
@[simp] theorem Wall.setB_egr (w : Wall) (r : Reg) (b : Bool) : (Wall.setB w r b).egr = w.egr := rfl
@[simp] theorem Wall.setB_sec (w : Wall) (r : Reg) (b : Bool) : (Wall.setB w r b).sec = w.sec := rfl
@[simp] theorem Wall.setB_gra (w : Wall) (r : Reg) (b : Bool) : (Wall.setB w r b).gra = w.gra := rfl
@[simp] theorem Wall.setB_hst (w : Wall) (r : Reg) (b : Bool) : (Wall.setB w r b).hst = w.hst := rfl
@[simp] theorem Wall.setB_stw (w : Wall) (r : Reg) (b : Bool) : (Wall.setB w r b).stw = w.stw := rfl
@[simp] theorem Wall.setB_obs (w : Wall) (r : Reg) (b : Bool) : (Wall.setB w r b).obs = w.obs := rfl
@[simp] theorem Wall.setB_freeN (w : Wall) (r : Reg) (b : Bool) : (Wall.setB w r b).freeN = w.freeN := rfl
@[simp] theorem Wall.setB_out (w : Wall) (r : Reg) (b : Bool) : (Wall.setB w r b).out = w.out := rfl
@[simp] theorem Wall.setBitR_win (w : Wall) (r : Reg) (i : ℕ) : (Wall.setBitR w r i).win = w.win := rfl
@[simp] theorem Wall.setBitR_time (w : Wall) (r : Reg) (i : ℕ) : (Wall.setBitR w r i).time = w.time := rfl
@[simp] theorem Wall.setBitR_bnd (w : Wall) (r : Reg) (i : ℕ) : (Wall.setBitR w r i).bnd = w.bnd := rfl
@[simp] theorem Wall.setBitR_led (w : Wall) (r : Reg) (i : ℕ) : (Wall.setBitR w r i).led = w.led := rfl
@[simp] theorem Wall.setBitR_lan (w : Wall) (r : Reg) (i : ℕ) : (Wall.setBitR w r i).lan = w.lan := rfl
@[simp] theorem Wall.setBitR_prt (w : Wall) (r : Reg) (i : ℕ) : (Wall.setBitR w r i).prt = w.prt := rfl
@[simp] theorem Wall.setBitR_ing (w : Wall) (r : Reg) (i : ℕ) : (Wall.setBitR w r i).ing = w.ing := rfl
@[simp] theorem Wall.setBitR_egr (w : Wall) (r : Reg) (i : ℕ) : (Wall.setBitR w r i).egr = w.egr := rfl
@[simp] theorem Wall.setBitR_sec (w : Wall) (r : Reg) (i : ℕ) : (Wall.setBitR w r i).sec = w.sec := rfl
@[simp] theorem Wall.setBitR_gra (w : Wall) (r : Reg) (i : ℕ) : (Wall.setBitR w r i).gra = w.gra := rfl
@[simp] theorem Wall.setBitR_hst (w : Wall) (r : Reg) (i : ℕ) : (Wall.setBitR w r i).hst = w.hst := rfl
@[simp] theorem Wall.setBitR_stw (w : Wall) (r : Reg) (i : ℕ) : (Wall.setBitR w r i).stw = w.stw := rfl
@[simp] theorem Wall.setBitR_obs (w : Wall) (r : Reg) (i : ℕ) : (Wall.setBitR w r i).obs = w.obs := rfl
@[simp] theorem Wall.setBitR_freeN (w : Wall) (r : Reg) (i : ℕ) : (Wall.setBitR w r i).freeN = w.freeN := rfl
@[simp] theorem Wall.setBitR_out (w : Wall) (r : Reg) (i : ℕ) : (Wall.setBitR w r i).out = w.out := rfl
@[simp] theorem Wall.setI_win (w : Wall) (r : Reg) (i : ℤ) : (Wall.setI w r i).win = w.win := rfl
@[simp] theorem Wall.setI_time (w : Wall) (r : Reg) (i : ℤ) : (Wall.setI w r i).time = w.time := rfl
@[simp] theorem Wall.setI_bnd (w : Wall) (r : Reg) (i : ℤ) : (Wall.setI w r i).bnd = w.bnd := rfl
@[simp] theorem Wall.setI_led (w : Wall) (r : Reg) (i : ℤ) : (Wall.setI w r i).led = w.led := rfl
@[simp] theorem Wall.setI_lan (w : Wall) (r : Reg) (i : ℤ) : (Wall.setI w r i).lan = w.lan := rfl
@[simp] theorem Wall.setI_prt (w : Wall) (r : Reg) (i : ℤ) : (Wall.setI w r i).prt = w.prt := rfl
@[simp] theorem Wall.setI_ing (w : Wall) (r : Reg) (i : ℤ) : (Wall.setI w r i).ing = w.ing := rfl
@[simp] theorem Wall.setI_egr (w : Wall) (r : Reg) (i : ℤ) : (Wall.setI w r i).egr = w.egr := rfl
@[simp] theorem Wall.setI_sec (w : Wall) (r : Reg) (i : ℤ) : (Wall.setI w r i).sec = w.sec := rfl
@[simp] theorem Wall.setI_gra (w : Wall) (r : Reg) (i : ℤ) : (Wall.setI w r i).gra = w.gra := rfl
@[simp] theorem Wall.setI_hst (w : Wall) (r : Reg) (i : ℤ) : (Wall.setI w r i).hst = w.hst := rfl
@[simp] theorem Wall.setI_stw (w : Wall) (r : Reg) (i : ℤ) : (Wall.setI w r i).stw = w.stw := rfl
@[simp] theorem Wall.setI_obs (w : Wall) (r : Reg) (i : ℤ) : (Wall.setI w r i).obs = w.obs := rfl
@[simp] theorem Wall.setI_freeN (w : Wall) (r : Reg) (i : ℤ) : (Wall.setI w r i).freeN = w.freeN := rfl
@[simp] theorem Wall.setI_out (w : Wall) (r : Reg) (i : ℤ) : (Wall.setI w r i).out = w.out := rfl
@[simp] theorem Wall.setWin_regs (w : Wall) (off : ℕ) (d : ℕ) (v : ℕ) : (Wall.setWin w off d v).regs = w.regs := rfl
@[simp] theorem Wall.setWin_time (w : Wall) (off : ℕ) (d : ℕ) (v : ℕ) : (Wall.setWin w off d v).time = w.time := rfl
@[simp] theorem Wall.setWin_bnd (w : Wall) (off : ℕ) (d : ℕ) (v : ℕ) : (Wall.setWin w off d v).bnd = w.bnd := rfl
@[simp] theorem Wall.setWin_led (w : Wall) (off : ℕ) (d : ℕ) (v : ℕ) : (Wall.setWin w off d v).led = w.led := rfl
@[simp] theorem Wall.setWin_lan (w : Wall) (off : ℕ) (d : ℕ) (v : ℕ) : (Wall.setWin w off d v).lan = w.lan := rfl
@[simp] theorem Wall.setWin_prt (w : Wall) (off : ℕ) (d : ℕ) (v : ℕ) : (Wall.setWin w off d v).prt = w.prt := rfl
@[simp] theorem Wall.setWin_ing (w : Wall) (off : ℕ) (d : ℕ) (v : ℕ) : (Wall.setWin w off d v).ing = w.ing := rfl
@[simp] theorem Wall.setWin_egr (w : Wall) (off : ℕ) (d : ℕ) (v : ℕ) : (Wall.setWin w off d v).egr = w.egr := rfl
@[simp] theorem Wall.setWin_sec (w : Wall) (off : ℕ) (d : ℕ) (v : ℕ) : (Wall.setWin w off d v).sec = w.sec := rfl
@[simp] theorem Wall.setWin_gra (w : Wall) (off : ℕ) (d : ℕ) (v : ℕ) : (Wall.setWin w off d v).gra = w.gra := rfl
@[simp] theorem Wall.setWin_hst (w : Wall) (off : ℕ) (d : ℕ) (v : ℕ) : (Wall.setWin w off d v).hst = w.hst := rfl
@[simp] theorem Wall.setWin_stw (w : Wall) (off : ℕ) (d : ℕ) (v : ℕ) : (Wall.setWin w off d v).stw = w.stw := rfl
@[simp] theorem Wall.setWin_obs (w : Wall) (off : ℕ) (d : ℕ) (v : ℕ) : (Wall.setWin w off d v).obs = w.obs := rfl
@[simp] theorem Wall.setWin_freeN (w : Wall) (off : ℕ) (d : ℕ) (v : ℕ) : (Wall.setWin w off d v).freeN = w.freeN := rfl
@[simp] theorem Wall.setWin_out (w : Wall) (off : ℕ) (d : ℕ) (v : ℕ) : (Wall.setWin w off d v).out = w.out := rfl
@[simp] theorem Wall.setWin_get (w : Wall) (off : ℕ) (d : ℕ) (v : ℕ) (o : Reg) : (Wall.setWin w off d v).get o = w.get o := rfl
@[simp] theorem Wall.setWin64_regs (w : Wall) (off : ℕ) (v : ℕ) : (Wall.setWin64 w off v).regs = w.regs := rfl
@[simp] theorem Wall.setWin64_time (w : Wall) (off : ℕ) (v : ℕ) : (Wall.setWin64 w off v).time = w.time := rfl
@[simp] theorem Wall.setWin64_bnd (w : Wall) (off : ℕ) (v : ℕ) : (Wall.setWin64 w off v).bnd = w.bnd := rfl
@[simp] theorem Wall.setWin64_led (w : Wall) (off : ℕ) (v : ℕ) : (Wall.setWin64 w off v).led = w.led := rfl
@[simp] theorem Wall.setWin64_lan (w : Wall) (off : ℕ) (v : ℕ) : (Wall.setWin64 w off v).lan = w.lan := rfl
@[simp] theorem Wall.setWin64_prt (w : Wall) (off : ℕ) (v : ℕ) : (Wall.setWin64 w off v).prt = w.prt := rfl
@[simp] theorem Wall.setWin64_ing (w : Wall) (off : ℕ) (v : ℕ) : (Wall.setWin64 w off v).ing = w.ing := rfl
@[simp] theorem Wall.setWin64_egr (w : Wall) (off : ℕ) (v : ℕ) : (Wall.setWin64 w off v).egr = w.egr := rfl
@[simp] theorem Wall.setWin64_sec (w : Wall) (off : ℕ) (v : ℕ) : (Wall.setWin64 w off v).sec = w.sec := rfl
@[simp] theorem Wall.setWin64_gra (w : Wall) (off : ℕ) (v : ℕ) : (Wall.setWin64 w off v).gra = w.gra := rfl
@[simp] theorem Wall.setWin64_hst (w : Wall) (off : ℕ) (v : ℕ) : (Wall.setWin64 w off v).hst = w.hst := rfl
@[simp] theorem Wall.setWin64_stw (w : Wall) (off : ℕ) (v : ℕ) : (Wall.setWin64 w off v).stw = w.stw := rfl
@[simp] theorem Wall.setWin64_obs (w : Wall) (off : ℕ) (v : ℕ) : (Wall.setWin64 w off v).obs = w.obs := rfl
@[simp] theorem Wall.setWin64_freeN (w : Wall) (off : ℕ) (v : ℕ) : (Wall.setWin64 w off v).freeN = w.freeN := rfl
@[simp] theorem Wall.setWin64_out (w : Wall) (off : ℕ) (v : ℕ) : (Wall.setWin64 w off v).out = w.out := rfl
@[simp] theorem Wall.setWin64_get (w : Wall) (off : ℕ) (v : ℕ) (o : Reg) : (Wall.setWin64 w off v).get o = w.get o := rfl
@[simp] theorem Wall.took_regs (w : Wall) : (Wall.took w).regs = w.regs := rfl
@[simp] theorem Wall.took_win (w : Wall) : (Wall.took w).win = w.win := rfl
@[simp] theorem Wall.took_time (w : Wall) : (Wall.took w).time = w.time := rfl
@[simp] theorem Wall.took_bnd (w : Wall) : (Wall.took w).bnd = w.bnd := rfl
@[simp] theorem Wall.took_led (w : Wall) : (Wall.took w).led = w.led := rfl
@[simp] theorem Wall.took_lan (w : Wall) : (Wall.took w).lan = w.lan := rfl
@[simp] theorem Wall.took_prt (w : Wall) : (Wall.took w).prt = w.prt := rfl
@[simp] theorem Wall.took_ing (w : Wall) : (Wall.took w).ing = w.ing := rfl
@[simp] theorem Wall.took_egr (w : Wall) : (Wall.took w).egr = w.egr := rfl
@[simp] theorem Wall.took_sec (w : Wall) : (Wall.took w).sec = w.sec := rfl
@[simp] theorem Wall.took_gra (w : Wall) : (Wall.took w).gra = w.gra := rfl
@[simp] theorem Wall.took_hst (w : Wall) : (Wall.took w).hst = w.hst := rfl
@[simp] theorem Wall.took_stw (w : Wall) : (Wall.took w).stw = w.stw := rfl
@[simp] theorem Wall.took_obs (w : Wall) : (Wall.took w).obs = w.obs := rfl
@[simp] theorem Wall.took_out (w : Wall) : (Wall.took w).out = w.out := rfl
@[simp] theorem Wall.took_get (w : Wall) (o : Reg) : (Wall.took w).get o = w.get o := rfl
@[simp] theorem Wall.tookN_regs (w : Wall) (n : ℕ) : (Wall.tookN w n).regs = w.regs := rfl
@[simp] theorem Wall.tookN_win (w : Wall) (n : ℕ) : (Wall.tookN w n).win = w.win := rfl
@[simp] theorem Wall.tookN_time (w : Wall) (n : ℕ) : (Wall.tookN w n).time = w.time := rfl
@[simp] theorem Wall.tookN_bnd (w : Wall) (n : ℕ) : (Wall.tookN w n).bnd = w.bnd := rfl
@[simp] theorem Wall.tookN_led (w : Wall) (n : ℕ) : (Wall.tookN w n).led = w.led := rfl
@[simp] theorem Wall.tookN_lan (w : Wall) (n : ℕ) : (Wall.tookN w n).lan = w.lan := rfl
@[simp] theorem Wall.tookN_prt (w : Wall) (n : ℕ) : (Wall.tookN w n).prt = w.prt := rfl
@[simp] theorem Wall.tookN_ing (w : Wall) (n : ℕ) : (Wall.tookN w n).ing = w.ing := rfl
@[simp] theorem Wall.tookN_egr (w : Wall) (n : ℕ) : (Wall.tookN w n).egr = w.egr := rfl
@[simp] theorem Wall.tookN_sec (w : Wall) (n : ℕ) : (Wall.tookN w n).sec = w.sec := rfl
@[simp] theorem Wall.tookN_gra (w : Wall) (n : ℕ) : (Wall.tookN w n).gra = w.gra := rfl
@[simp] theorem Wall.tookN_hst (w : Wall) (n : ℕ) : (Wall.tookN w n).hst = w.hst := rfl
@[simp] theorem Wall.tookN_stw (w : Wall) (n : ℕ) : (Wall.tookN w n).stw = w.stw := rfl
@[simp] theorem Wall.tookN_obs (w : Wall) (n : ℕ) : (Wall.tookN w n).obs = w.obs := rfl
@[simp] theorem Wall.tookN_out (w : Wall) (n : ℕ) : (Wall.tookN w n).out = w.out := rfl
@[simp] theorem Wall.tookN_get (w : Wall) (n : ℕ) (o : Reg) : (Wall.tookN w n).get o = w.get o := rfl
@[simp] theorem modTally_regs (sp : ℕ) (f : Tally → Tally) (w : Wall) : (modTally sp f w).regs = w.regs := rfl
@[simp] theorem modTally_win (sp : ℕ) (f : Tally → Tally) (w : Wall) : (modTally sp f w).win = w.win := rfl
@[simp] theorem modTally_time (sp : ℕ) (f : Tally → Tally) (w : Wall) : (modTally sp f w).time = w.time := rfl
@[simp] theorem modTally_bnd (sp : ℕ) (f : Tally → Tally) (w : Wall) : (modTally sp f w).bnd = w.bnd := rfl
@[simp] theorem modTally_led (sp : ℕ) (f : Tally → Tally) (w : Wall) : (modTally sp f w).led = w.led := rfl
@[simp] theorem modTally_lan (sp : ℕ) (f : Tally → Tally) (w : Wall) : (modTally sp f w).lan = w.lan := rfl
@[simp] theorem modTally_prt (sp : ℕ) (f : Tally → Tally) (w : Wall) : (modTally sp f w).prt = w.prt := rfl
@[simp] theorem modTally_ing (sp : ℕ) (f : Tally → Tally) (w : Wall) : (modTally sp f w).ing = w.ing := rfl
@[simp] theorem modTally_egr (sp : ℕ) (f : Tally → Tally) (w : Wall) : (modTally sp f w).egr = w.egr := rfl
@[simp] theorem modTally_sec (sp : ℕ) (f : Tally → Tally) (w : Wall) : (modTally sp f w).sec = w.sec := rfl
@[simp] theorem modTally_gra (sp : ℕ) (f : Tally → Tally) (w : Wall) : (modTally sp f w).gra = w.gra := rfl
@[simp] theorem modTally_hst (sp : ℕ) (f : Tally → Tally) (w : Wall) : (modTally sp f w).hst = w.hst := rfl
@[simp] theorem modTally_stw (sp : ℕ) (f : Tally → Tally) (w : Wall) : (modTally sp f w).stw = w.stw := rfl
@[simp] theorem modTally_freeN (sp : ℕ) (f : Tally → Tally) (w : Wall) : (modTally sp f w).freeN = w.freeN := rfl
@[simp] theorem modTally_out (sp : ℕ) (f : Tally → Tally) (w : Wall) : (modTally sp f w).out = w.out := rfl
@[simp] theorem modTally_get (sp : ℕ) (f : Tally → Tally) (w : Wall) (o : Reg) : (modTally sp f w).get o = w.get o := rfl
@[simp] theorem newDom_regs (key : ℕ) (w : Wall) : (newDom key w).regs = w.regs := rfl
@[simp] theorem newDom_win (key : ℕ) (w : Wall) : (newDom key w).win = w.win := rfl
@[simp] theorem newDom_time (key : ℕ) (w : Wall) : (newDom key w).time = w.time := rfl
@[simp] theorem newDom_bnd (key : ℕ) (w : Wall) : (newDom key w).bnd = w.bnd := rfl
@[simp] theorem newDom_lan (key : ℕ) (w : Wall) : (newDom key w).lan = w.lan := rfl
@[simp] theorem newDom_prt (key : ℕ) (w : Wall) : (newDom key w).prt = w.prt := rfl
@[simp] theorem newDom_ing (key : ℕ) (w : Wall) : (newDom key w).ing = w.ing := rfl
@[simp] theorem newDom_egr (key : ℕ) (w : Wall) : (newDom key w).egr = w.egr := rfl
@[simp] theorem newDom_sec (key : ℕ) (w : Wall) : (newDom key w).sec = w.sec := rfl
@[simp] theorem newDom_gra (key : ℕ) (w : Wall) : (newDom key w).gra = w.gra := rfl
@[simp] theorem newDom_hst (key : ℕ) (w : Wall) : (newDom key w).hst = w.hst := rfl
@[simp] theorem newDom_stw (key : ℕ) (w : Wall) : (newDom key w).stw = w.stw := rfl
@[simp] theorem newDom_obs (key : ℕ) (w : Wall) : (newDom key w).obs = w.obs := rfl
@[simp] theorem newDom_freeN (key : ℕ) (w : Wall) : (newDom key w).freeN = w.freeN := rfl
@[simp] theorem newDom_out (key : ℕ) (w : Wall) : (newDom key w).out = w.out := rfl
@[simp] theorem newDom_get (key : ℕ) (w : Wall) (o : Reg) : (newDom key w).get o = w.get o := rfl
@[simp] theorem putDom_regs (key : ℕ) (l : List Byte) (w : Wall) : (putDom key l w).regs = w.regs := rfl
@[simp] theorem putDom_win (key : ℕ) (l : List Byte) (w : Wall) : (putDom key l w).win = w.win := rfl
@[simp] theorem putDom_time (key : ℕ) (l : List Byte) (w : Wall) : (putDom key l w).time = w.time := rfl
@[simp] theorem putDom_bnd (key : ℕ) (l : List Byte) (w : Wall) : (putDom key l w).bnd = w.bnd := rfl
@[simp] theorem putDom_lan (key : ℕ) (l : List Byte) (w : Wall) : (putDom key l w).lan = w.lan := rfl
@[simp] theorem putDom_prt (key : ℕ) (l : List Byte) (w : Wall) : (putDom key l w).prt = w.prt := rfl
@[simp] theorem putDom_ing (key : ℕ) (l : List Byte) (w : Wall) : (putDom key l w).ing = w.ing := rfl
@[simp] theorem putDom_egr (key : ℕ) (l : List Byte) (w : Wall) : (putDom key l w).egr = w.egr := rfl
@[simp] theorem putDom_sec (key : ℕ) (l : List Byte) (w : Wall) : (putDom key l w).sec = w.sec := rfl
@[simp] theorem putDom_gra (key : ℕ) (l : List Byte) (w : Wall) : (putDom key l w).gra = w.gra := rfl
@[simp] theorem putDom_hst (key : ℕ) (l : List Byte) (w : Wall) : (putDom key l w).hst = w.hst := rfl
@[simp] theorem putDom_stw (key : ℕ) (l : List Byte) (w : Wall) : (putDom key l w).stw = w.stw := rfl
@[simp] theorem putDom_obs (key : ℕ) (l : List Byte) (w : Wall) : (putDom key l w).obs = w.obs := rfl
@[simp] theorem putDom_freeN (key : ℕ) (l : List Byte) (w : Wall) : (putDom key l w).freeN = w.freeN := rfl
@[simp] theorem putDom_out (key : ℕ) (l : List Byte) (w : Wall) : (putDom key l w).out = w.out := rfl
@[simp] theorem putDom_get (key : ℕ) (l : List Byte) (w : Wall) (o : Reg) : (putDom key l w).get o = w.get o := rfl
@[simp] theorem putSession_regs (slot : ℕ) (s : Session) (w : Wall) : (putSession slot s w).regs = w.regs := rfl
@[simp] theorem putSession_win (slot : ℕ) (s : Session) (w : Wall) : (putSession slot s w).win = w.win := rfl
@[simp] theorem putSession_time (slot : ℕ) (s : Session) (w : Wall) : (putSession slot s w).time = w.time := rfl
@[simp] theorem putSession_bnd (slot : ℕ) (s : Session) (w : Wall) : (putSession slot s w).bnd = w.bnd := rfl
@[simp] theorem putSession_lan (slot : ℕ) (s : Session) (w : Wall) : (putSession slot s w).lan = w.lan := rfl
@[simp] theorem putSession_prt (slot : ℕ) (s : Session) (w : Wall) : (putSession slot s w).prt = w.prt := rfl
@[simp] theorem putSession_ing (slot : ℕ) (s : Session) (w : Wall) : (putSession slot s w).ing = w.ing := rfl
@[simp] theorem putSession_egr (slot : ℕ) (s : Session) (w : Wall) : (putSession slot s w).egr = w.egr := rfl
@[simp] theorem putSession_sec (slot : ℕ) (s : Session) (w : Wall) : (putSession slot s w).sec = w.sec := rfl
@[simp] theorem putSession_gra (slot : ℕ) (s : Session) (w : Wall) : (putSession slot s w).gra = w.gra := rfl
@[simp] theorem putSession_hst (slot : ℕ) (s : Session) (w : Wall) : (putSession slot s w).hst = w.hst := rfl
@[simp] theorem putSession_stw (slot : ℕ) (s : Session) (w : Wall) : (putSession slot s w).stw = w.stw := rfl
@[simp] theorem putSession_obs (slot : ℕ) (s : Session) (w : Wall) : (putSession slot s w).obs = w.obs := rfl
@[simp] theorem putSession_freeN (slot : ℕ) (s : Session) (w : Wall) : (putSession slot s w).freeN = w.freeN := rfl
@[simp] theorem putSession_out (slot : ℕ) (s : Session) (w : Wall) : (putSession slot s w).out = w.out := rfl
@[simp] theorem putSession_get (slot : ℕ) (s : Session) (w : Wall) (o : Reg) : (putSession slot s w).get o = w.get o := rfl
@[simp] theorem stat_win (sp : ℕ) (k : ℕ) (n : ℕ) (w : Wall) : (stat sp k n w).win = w.win := rfl
@[simp] theorem stat_time (sp : ℕ) (k : ℕ) (n : ℕ) (w : Wall) : (stat sp k n w).time = w.time := rfl
@[simp] theorem stat_bnd (sp : ℕ) (k : ℕ) (n : ℕ) (w : Wall) : (stat sp k n w).bnd = w.bnd := rfl
@[simp] theorem stat_led (sp : ℕ) (k : ℕ) (n : ℕ) (w : Wall) : (stat sp k n w).led = w.led := rfl
@[simp] theorem stat_lan (sp : ℕ) (k : ℕ) (n : ℕ) (w : Wall) : (stat sp k n w).lan = w.lan := rfl
@[simp] theorem stat_prt (sp : ℕ) (k : ℕ) (n : ℕ) (w : Wall) : (stat sp k n w).prt = w.prt := rfl
@[simp] theorem stat_ing (sp : ℕ) (k : ℕ) (n : ℕ) (w : Wall) : (stat sp k n w).ing = w.ing := rfl
@[simp] theorem stat_egr (sp : ℕ) (k : ℕ) (n : ℕ) (w : Wall) : (stat sp k n w).egr = w.egr := rfl
@[simp] theorem stat_sec (sp : ℕ) (k : ℕ) (n : ℕ) (w : Wall) : (stat sp k n w).sec = w.sec := rfl
@[simp] theorem stat_gra (sp : ℕ) (k : ℕ) (n : ℕ) (w : Wall) : (stat sp k n w).gra = w.gra := rfl
@[simp] theorem stat_hst (sp : ℕ) (k : ℕ) (n : ℕ) (w : Wall) : (stat sp k n w).hst = w.hst := rfl
@[simp] theorem stat_stw (sp : ℕ) (k : ℕ) (n : ℕ) (w : Wall) : (stat sp k n w).stw = w.stw := rfl
@[simp] theorem stat_obs (sp : ℕ) (k : ℕ) (n : ℕ) (w : Wall) : (stat sp k n w).obs = w.obs := rfl
@[simp] theorem stat_freeN (sp : ℕ) (k : ℕ) (n : ℕ) (w : Wall) : (stat sp k n w).freeN = w.freeN := rfl
@[simp] theorem stat_out (sp : ℕ) (k : ℕ) (n : ℕ) (w : Wall) : (stat sp k n w).out = w.out := rfl
@[simp] theorem Wall.setSeq_regs (w : Wall) (u : ℕ) (r : SeqRt) : (Wall.setSeq w u r).regs = w.regs := rfl
@[simp] theorem Wall.setSeq_win (w : Wall) (u : ℕ) (r : SeqRt) : (Wall.setSeq w u r).win = w.win := rfl
@[simp] theorem Wall.setSeq_time (w : Wall) (u : ℕ) (r : SeqRt) : (Wall.setSeq w u r).time = w.time := rfl
@[simp] theorem Wall.setSeq_bnd (w : Wall) (u : ℕ) (r : SeqRt) : (Wall.setSeq w u r).bnd = w.bnd := rfl
@[simp] theorem Wall.setSeq_led (w : Wall) (u : ℕ) (r : SeqRt) : (Wall.setSeq w u r).led = w.led := rfl
@[simp] theorem Wall.setSeq_lan (w : Wall) (u : ℕ) (r : SeqRt) : (Wall.setSeq w u r).lan = w.lan := rfl
@[simp] theorem Wall.setSeq_prt (w : Wall) (u : ℕ) (r : SeqRt) : (Wall.setSeq w u r).prt = w.prt := rfl
@[simp] theorem Wall.setSeq_ing (w : Wall) (u : ℕ) (r : SeqRt) : (Wall.setSeq w u r).ing = w.ing := rfl
@[simp] theorem Wall.setSeq_egr (w : Wall) (u : ℕ) (r : SeqRt) : (Wall.setSeq w u r).egr = w.egr := rfl
@[simp] theorem Wall.setSeq_sec (w : Wall) (u : ℕ) (r : SeqRt) : (Wall.setSeq w u r).sec = w.sec := rfl
@[simp] theorem Wall.setSeq_gra (w : Wall) (u : ℕ) (r : SeqRt) : (Wall.setSeq w u r).gra = w.gra := rfl
@[simp] theorem Wall.setSeq_hst (w : Wall) (u : ℕ) (r : SeqRt) : (Wall.setSeq w u r).hst = w.hst := rfl
@[simp] theorem Wall.setSeq_obs (w : Wall) (u : ℕ) (r : SeqRt) : (Wall.setSeq w u r).obs = w.obs := rfl
@[simp] theorem Wall.setSeq_freeN (w : Wall) (u : ℕ) (r : SeqRt) : (Wall.setSeq w u r).freeN = w.freeN := rfl
@[simp] theorem Wall.setSeq_out (w : Wall) (u : ℕ) (r : SeqRt) : (Wall.setSeq w u r).out = w.out := rfl
@[simp] theorem Wall.setSeq_get (w : Wall) (u : ℕ) (r : SeqRt) (o : Reg) : (Wall.setSeq w u r).get o = w.get o := rfl
@[simp] theorem setInhibit_regs (b : Bool) (w : Wall) : (setInhibit b w).regs = w.regs := rfl
@[simp] theorem setInhibit_win (b : Bool) (w : Wall) : (setInhibit b w).win = w.win := rfl
@[simp] theorem setInhibit_time (b : Bool) (w : Wall) : (setInhibit b w).time = w.time := rfl
@[simp] theorem setInhibit_led (b : Bool) (w : Wall) : (setInhibit b w).led = w.led := rfl
@[simp] theorem setInhibit_lan (b : Bool) (w : Wall) : (setInhibit b w).lan = w.lan := rfl
@[simp] theorem setInhibit_prt (b : Bool) (w : Wall) : (setInhibit b w).prt = w.prt := rfl
@[simp] theorem setInhibit_ing (b : Bool) (w : Wall) : (setInhibit b w).ing = w.ing := rfl
@[simp] theorem setInhibit_egr (b : Bool) (w : Wall) : (setInhibit b w).egr = w.egr := rfl
@[simp] theorem setInhibit_sec (b : Bool) (w : Wall) : (setInhibit b w).sec = w.sec := rfl
@[simp] theorem setInhibit_gra (b : Bool) (w : Wall) : (setInhibit b w).gra = w.gra := rfl
@[simp] theorem setInhibit_hst (b : Bool) (w : Wall) : (setInhibit b w).hst = w.hst := rfl
@[simp] theorem setInhibit_stw (b : Bool) (w : Wall) : (setInhibit b w).stw = w.stw := rfl
@[simp] theorem setInhibit_obs (b : Bool) (w : Wall) : (setInhibit b w).obs = w.obs := rfl
@[simp] theorem setInhibit_freeN (b : Bool) (w : Wall) : (setInhibit b w).freeN = w.freeN := rfl
@[simp] theorem setInhibit_out (b : Bool) (w : Wall) : (setInhibit b w).out = w.out := rfl
@[simp] theorem setInhibit_get (b : Bool) (w : Wall) (o : Reg) : (setInhibit b w).get o = w.get o := rfl
@[simp] theorem setRow_regs (r : ℕ) (x : Row) (w : Wall) : (setRow r x w).regs = w.regs := rfl
@[simp] theorem setRow_win (r : ℕ) (x : Row) (w : Wall) : (setRow r x w).win = w.win := rfl
@[simp] theorem setRow_time (r : ℕ) (x : Row) (w : Wall) : (setRow r x w).time = w.time := rfl
@[simp] theorem setRow_bnd (r : ℕ) (x : Row) (w : Wall) : (setRow r x w).bnd = w.bnd := rfl
@[simp] theorem setRow_led (r : ℕ) (x : Row) (w : Wall) : (setRow r x w).led = w.led := rfl
@[simp] theorem setRow_lan (r : ℕ) (x : Row) (w : Wall) : (setRow r x w).lan = w.lan := rfl
@[simp] theorem setRow_prt (r : ℕ) (x : Row) (w : Wall) : (setRow r x w).prt = w.prt := rfl
@[simp] theorem setRow_ing (r : ℕ) (x : Row) (w : Wall) : (setRow r x w).ing = w.ing := rfl
@[simp] theorem setRow_egr (r : ℕ) (x : Row) (w : Wall) : (setRow r x w).egr = w.egr := rfl
@[simp] theorem setRow_sec (r : ℕ) (x : Row) (w : Wall) : (setRow r x w).sec = w.sec := rfl
@[simp] theorem setRow_hst (r : ℕ) (x : Row) (w : Wall) : (setRow r x w).hst = w.hst := rfl
@[simp] theorem setRow_stw (r : ℕ) (x : Row) (w : Wall) : (setRow r x w).stw = w.stw := rfl
@[simp] theorem setRow_obs (r : ℕ) (x : Row) (w : Wall) : (setRow r x w).obs = w.obs := rfl
@[simp] theorem setRow_freeN (r : ℕ) (x : Row) (w : Wall) : (setRow r x w).freeN = w.freeN := rfl
@[simp] theorem setRow_out (r : ℕ) (x : Row) (w : Wall) : (setRow r x w).out = w.out := rfl
@[simp] theorem setRow_get (r : ℕ) (x : Row) (w : Wall) (o : Reg) : (setRow r x w).get o = w.get o := rfl
@[simp] theorem setShut_regs (b : Bool) (w : Wall) : (setShut b w).regs = w.regs := rfl
@[simp] theorem setShut_win (b : Bool) (w : Wall) : (setShut b w).win = w.win := rfl
@[simp] theorem setShut_time (b : Bool) (w : Wall) : (setShut b w).time = w.time := rfl
@[simp] theorem setShut_led (b : Bool) (w : Wall) : (setShut b w).led = w.led := rfl
@[simp] theorem setShut_lan (b : Bool) (w : Wall) : (setShut b w).lan = w.lan := rfl
@[simp] theorem setShut_prt (b : Bool) (w : Wall) : (setShut b w).prt = w.prt := rfl
@[simp] theorem setShut_ing (b : Bool) (w : Wall) : (setShut b w).ing = w.ing := rfl
@[simp] theorem setShut_egr (b : Bool) (w : Wall) : (setShut b w).egr = w.egr := rfl
@[simp] theorem setShut_sec (b : Bool) (w : Wall) : (setShut b w).sec = w.sec := rfl
@[simp] theorem setShut_gra (b : Bool) (w : Wall) : (setShut b w).gra = w.gra := rfl
@[simp] theorem setShut_hst (b : Bool) (w : Wall) : (setShut b w).hst = w.hst := rfl
@[simp] theorem setShut_stw (b : Bool) (w : Wall) : (setShut b w).stw = w.stw := rfl
@[simp] theorem setShut_obs (b : Bool) (w : Wall) : (setShut b w).obs = w.obs := rfl
@[simp] theorem setShut_freeN (b : Bool) (w : Wall) : (setShut b w).freeN = w.freeN := rfl
@[simp] theorem setShut_out (b : Bool) (w : Wall) : (setShut b w).out = w.out := rfl
@[simp] theorem setShut_get (b : Bool) (w : Wall) (o : Reg) : (setShut b w).get o = w.get o := rfl
@[simp] theorem delSa_regs (u : ℕ) (k : ℕ) (w : Wall) : (delSa u k w).regs = w.regs := rfl
@[simp] theorem delSa_win (u : ℕ) (k : ℕ) (w : Wall) : (delSa u k w).win = w.win := rfl
@[simp] theorem delSa_time (u : ℕ) (k : ℕ) (w : Wall) : (delSa u k w).time = w.time := rfl
@[simp] theorem delSa_bnd (u : ℕ) (k : ℕ) (w : Wall) : (delSa u k w).bnd = w.bnd := rfl
@[simp] theorem delSa_led (u : ℕ) (k : ℕ) (w : Wall) : (delSa u k w).led = w.led := rfl
@[simp] theorem delSa_lan (u : ℕ) (k : ℕ) (w : Wall) : (delSa u k w).lan = w.lan := rfl
@[simp] theorem delSa_prt (u : ℕ) (k : ℕ) (w : Wall) : (delSa u k w).prt = w.prt := rfl
@[simp] theorem delSa_ing (u : ℕ) (k : ℕ) (w : Wall) : (delSa u k w).ing = w.ing := rfl
@[simp] theorem delSa_egr (u : ℕ) (k : ℕ) (w : Wall) : (delSa u k w).egr = w.egr := rfl
@[simp] theorem delSa_gra (u : ℕ) (k : ℕ) (w : Wall) : (delSa u k w).gra = w.gra := rfl
@[simp] theorem delSa_hst (u : ℕ) (k : ℕ) (w : Wall) : (delSa u k w).hst = w.hst := rfl
@[simp] theorem delSa_stw (u : ℕ) (k : ℕ) (w : Wall) : (delSa u k w).stw = w.stw := rfl
@[simp] theorem delSa_obs (u : ℕ) (k : ℕ) (w : Wall) : (delSa u k w).obs = w.obs := rfl
@[simp] theorem delSa_freeN (u : ℕ) (k : ℕ) (w : Wall) : (delSa u k w).freeN = w.freeN := rfl
@[simp] theorem delSa_out (u : ℕ) (k : ℕ) (w : Wall) : (delSa u k w).out = w.out := rfl
@[simp] theorem delSa_get (u : ℕ) (k : ℕ) (w : Wall) (o : Reg) : (delSa u k w).get o = w.get o := rfl
@[simp] theorem putSa_regs (u : ℕ) (k : ℕ) (s : Sa) (w : Wall) : (putSa u k s w).regs = w.regs := rfl
@[simp] theorem putSa_win (u : ℕ) (k : ℕ) (s : Sa) (w : Wall) : (putSa u k s w).win = w.win := rfl
@[simp] theorem putSa_time (u : ℕ) (k : ℕ) (s : Sa) (w : Wall) : (putSa u k s w).time = w.time := rfl
@[simp] theorem putSa_bnd (u : ℕ) (k : ℕ) (s : Sa) (w : Wall) : (putSa u k s w).bnd = w.bnd := rfl
@[simp] theorem putSa_led (u : ℕ) (k : ℕ) (s : Sa) (w : Wall) : (putSa u k s w).led = w.led := rfl
@[simp] theorem putSa_lan (u : ℕ) (k : ℕ) (s : Sa) (w : Wall) : (putSa u k s w).lan = w.lan := rfl
@[simp] theorem putSa_prt (u : ℕ) (k : ℕ) (s : Sa) (w : Wall) : (putSa u k s w).prt = w.prt := rfl
@[simp] theorem putSa_ing (u : ℕ) (k : ℕ) (s : Sa) (w : Wall) : (putSa u k s w).ing = w.ing := rfl
@[simp] theorem putSa_egr (u : ℕ) (k : ℕ) (s : Sa) (w : Wall) : (putSa u k s w).egr = w.egr := rfl
@[simp] theorem putSa_gra (u : ℕ) (k : ℕ) (s : Sa) (w : Wall) : (putSa u k s w).gra = w.gra := rfl
@[simp] theorem putSa_hst (u : ℕ) (k : ℕ) (s : Sa) (w : Wall) : (putSa u k s w).hst = w.hst := rfl
@[simp] theorem putSa_stw (u : ℕ) (k : ℕ) (s : Sa) (w : Wall) : (putSa u k s w).stw = w.stw := rfl
@[simp] theorem putSa_obs (u : ℕ) (k : ℕ) (s : Sa) (w : Wall) : (putSa u k s w).obs = w.obs := rfl
@[simp] theorem putSa_freeN (u : ℕ) (k : ℕ) (s : Sa) (w : Wall) : (putSa u k s w).freeN = w.freeN := rfl
@[simp] theorem putSa_out (u : ℕ) (k : ℕ) (s : Sa) (w : Wall) : (putSa u k s w).out = w.out := rfl
@[simp] theorem putSa_get (u : ℕ) (k : ℕ) (s : Sa) (w : Wall) (o : Reg) : (putSa u k s w).get o = w.get o := rfl
@[simp] theorem Wall.modLane_regs (w : Wall) (l : ℕ) (f : LaneRt → LaneRt) : (Wall.modLane w l f).regs = w.regs := rfl
@[simp] theorem Wall.modLane_win (w : Wall) (l : ℕ) (f : LaneRt → LaneRt) : (Wall.modLane w l f).win = w.win := rfl
@[simp] theorem Wall.modLane_time (w : Wall) (l : ℕ) (f : LaneRt → LaneRt) : (Wall.modLane w l f).time = w.time := rfl
@[simp] theorem Wall.modLane_bnd (w : Wall) (l : ℕ) (f : LaneRt → LaneRt) : (Wall.modLane w l f).bnd = w.bnd := rfl
@[simp] theorem Wall.modLane_led (w : Wall) (l : ℕ) (f : LaneRt → LaneRt) : (Wall.modLane w l f).led = w.led := rfl
@[simp] theorem Wall.modLane_prt (w : Wall) (l : ℕ) (f : LaneRt → LaneRt) : (Wall.modLane w l f).prt = w.prt := rfl
@[simp] theorem Wall.modLane_ing (w : Wall) (l : ℕ) (f : LaneRt → LaneRt) : (Wall.modLane w l f).ing = w.ing := rfl
@[simp] theorem Wall.modLane_egr (w : Wall) (l : ℕ) (f : LaneRt → LaneRt) : (Wall.modLane w l f).egr = w.egr := rfl
@[simp] theorem Wall.modLane_sec (w : Wall) (l : ℕ) (f : LaneRt → LaneRt) : (Wall.modLane w l f).sec = w.sec := rfl
@[simp] theorem Wall.modLane_gra (w : Wall) (l : ℕ) (f : LaneRt → LaneRt) : (Wall.modLane w l f).gra = w.gra := rfl
@[simp] theorem Wall.modLane_hst (w : Wall) (l : ℕ) (f : LaneRt → LaneRt) : (Wall.modLane w l f).hst = w.hst := rfl
@[simp] theorem Wall.modLane_stw (w : Wall) (l : ℕ) (f : LaneRt → LaneRt) : (Wall.modLane w l f).stw = w.stw := rfl
@[simp] theorem Wall.modLane_obs (w : Wall) (l : ℕ) (f : LaneRt → LaneRt) : (Wall.modLane w l f).obs = w.obs := rfl
@[simp] theorem Wall.modLane_freeN (w : Wall) (l : ℕ) (f : LaneRt → LaneRt) : (Wall.modLane w l f).freeN = w.freeN := rfl
@[simp] theorem Wall.modLane_out (w : Wall) (l : ℕ) (f : LaneRt → LaneRt) : (Wall.modLane w l f).out = w.out := rfl
@[simp] theorem Wall.modLane_get (w : Wall) (l : ℕ) (f : LaneRt → LaneRt) (o : Reg) : (Wall.modLane w l f).get o = w.get o := rfl
@[simp] theorem Wall.setGrp_regs (w : Wall) (g : Group) (r : GroupRt) : (Wall.setGrp w g r).regs = w.regs := rfl
@[simp] theorem Wall.setGrp_win (w : Wall) (g : Group) (r : GroupRt) : (Wall.setGrp w g r).win = w.win := rfl
@[simp] theorem Wall.setGrp_time (w : Wall) (g : Group) (r : GroupRt) : (Wall.setGrp w g r).time = w.time := rfl
@[simp] theorem Wall.setGrp_bnd (w : Wall) (g : Group) (r : GroupRt) : (Wall.setGrp w g r).bnd = w.bnd := rfl
@[simp] theorem Wall.setGrp_led (w : Wall) (g : Group) (r : GroupRt) : (Wall.setGrp w g r).led = w.led := rfl
@[simp] theorem Wall.setGrp_prt (w : Wall) (g : Group) (r : GroupRt) : (Wall.setGrp w g r).prt = w.prt := rfl
@[simp] theorem Wall.setGrp_ing (w : Wall) (g : Group) (r : GroupRt) : (Wall.setGrp w g r).ing = w.ing := rfl
@[simp] theorem Wall.setGrp_egr (w : Wall) (g : Group) (r : GroupRt) : (Wall.setGrp w g r).egr = w.egr := rfl
@[simp] theorem Wall.setGrp_sec (w : Wall) (g : Group) (r : GroupRt) : (Wall.setGrp w g r).sec = w.sec := rfl
@[simp] theorem Wall.setGrp_gra (w : Wall) (g : Group) (r : GroupRt) : (Wall.setGrp w g r).gra = w.gra := rfl
@[simp] theorem Wall.setGrp_hst (w : Wall) (g : Group) (r : GroupRt) : (Wall.setGrp w g r).hst = w.hst := rfl
@[simp] theorem Wall.setGrp_stw (w : Wall) (g : Group) (r : GroupRt) : (Wall.setGrp w g r).stw = w.stw := rfl
@[simp] theorem Wall.setGrp_obs (w : Wall) (g : Group) (r : GroupRt) : (Wall.setGrp w g r).obs = w.obs := rfl
@[simp] theorem Wall.setGrp_freeN (w : Wall) (g : Group) (r : GroupRt) : (Wall.setGrp w g r).freeN = w.freeN := rfl
@[simp] theorem Wall.setGrp_out (w : Wall) (g : Group) (r : GroupRt) : (Wall.setGrp w g r).out = w.out := rfl
@[simp] theorem Wall.setGrp_get (w : Wall) (g : Group) (r : GroupRt) (o : Reg) : (Wall.setGrp w g r).get o = w.get o := rfl
@[simp] theorem Wall.setLane_regs (w : Wall) (l : ℕ) (r : LaneRt) : (Wall.setLane w l r).regs = w.regs := rfl
@[simp] theorem Wall.setLane_win (w : Wall) (l : ℕ) (r : LaneRt) : (Wall.setLane w l r).win = w.win := rfl
@[simp] theorem Wall.setLane_time (w : Wall) (l : ℕ) (r : LaneRt) : (Wall.setLane w l r).time = w.time := rfl
@[simp] theorem Wall.setLane_bnd (w : Wall) (l : ℕ) (r : LaneRt) : (Wall.setLane w l r).bnd = w.bnd := rfl
@[simp] theorem Wall.setLane_led (w : Wall) (l : ℕ) (r : LaneRt) : (Wall.setLane w l r).led = w.led := rfl
@[simp] theorem Wall.setLane_prt (w : Wall) (l : ℕ) (r : LaneRt) : (Wall.setLane w l r).prt = w.prt := rfl
@[simp] theorem Wall.setLane_ing (w : Wall) (l : ℕ) (r : LaneRt) : (Wall.setLane w l r).ing = w.ing := rfl
@[simp] theorem Wall.setLane_egr (w : Wall) (l : ℕ) (r : LaneRt) : (Wall.setLane w l r).egr = w.egr := rfl
@[simp] theorem Wall.setLane_sec (w : Wall) (l : ℕ) (r : LaneRt) : (Wall.setLane w l r).sec = w.sec := rfl
@[simp] theorem Wall.setLane_gra (w : Wall) (l : ℕ) (r : LaneRt) : (Wall.setLane w l r).gra = w.gra := rfl
@[simp] theorem Wall.setLane_hst (w : Wall) (l : ℕ) (r : LaneRt) : (Wall.setLane w l r).hst = w.hst := rfl
@[simp] theorem Wall.setLane_stw (w : Wall) (l : ℕ) (r : LaneRt) : (Wall.setLane w l r).stw = w.stw := rfl
@[simp] theorem Wall.setLane_obs (w : Wall) (l : ℕ) (r : LaneRt) : (Wall.setLane w l r).obs = w.obs := rfl
@[simp] theorem Wall.setLane_freeN (w : Wall) (l : ℕ) (r : LaneRt) : (Wall.setLane w l r).freeN = w.freeN := rfl
@[simp] theorem Wall.setLane_out (w : Wall) (l : ℕ) (r : LaneRt) : (Wall.setLane w l r).out = w.out := rfl
@[simp] theorem Wall.setLane_get (w : Wall) (l : ℕ) (r : LaneRt) (o : Reg) : (Wall.setLane w l r).get o = w.get o := rfl
@[simp] theorem setUse_win (l : ℕ) (c : ℕ) (w : Wall) : (setUse l c w).win = w.win := rfl
@[simp] theorem setUse_time (l : ℕ) (c : ℕ) (w : Wall) : (setUse l c w).time = w.time := rfl
@[simp] theorem setUse_bnd (l : ℕ) (c : ℕ) (w : Wall) : (setUse l c w).bnd = w.bnd := rfl
@[simp] theorem setUse_led (l : ℕ) (c : ℕ) (w : Wall) : (setUse l c w).led = w.led := rfl
@[simp] theorem setUse_lan (l : ℕ) (c : ℕ) (w : Wall) : (setUse l c w).lan = w.lan := rfl
@[simp] theorem setUse_prt (l : ℕ) (c : ℕ) (w : Wall) : (setUse l c w).prt = w.prt := rfl
@[simp] theorem setUse_ing (l : ℕ) (c : ℕ) (w : Wall) : (setUse l c w).ing = w.ing := rfl
@[simp] theorem setUse_egr (l : ℕ) (c : ℕ) (w : Wall) : (setUse l c w).egr = w.egr := rfl
@[simp] theorem setUse_sec (l : ℕ) (c : ℕ) (w : Wall) : (setUse l c w).sec = w.sec := rfl
@[simp] theorem setUse_gra (l : ℕ) (c : ℕ) (w : Wall) : (setUse l c w).gra = w.gra := rfl
@[simp] theorem setUse_hst (l : ℕ) (c : ℕ) (w : Wall) : (setUse l c w).hst = w.hst := rfl
@[simp] theorem setUse_stw (l : ℕ) (c : ℕ) (w : Wall) : (setUse l c w).stw = w.stw := rfl
@[simp] theorem setUse_obs (l : ℕ) (c : ℕ) (w : Wall) : (setUse l c w).obs = w.obs := rfl
@[simp] theorem setUse_freeN (l : ℕ) (c : ℕ) (w : Wall) : (setUse l c w).freeN = w.freeN := rfl
@[simp] theorem setUse_out (l : ℕ) (c : ℕ) (w : Wall) : (setUse l c w).out = w.out := rfl
@[simp] theorem Wall.setMill_regs (w : Wall) (b : ℕ) (r : MillRt) : (Wall.setMill w b r).regs = w.regs := rfl
@[simp] theorem Wall.setMill_win (w : Wall) (b : ℕ) (r : MillRt) : (Wall.setMill w b r).win = w.win := rfl
@[simp] theorem Wall.setMill_time (w : Wall) (b : ℕ) (r : MillRt) : (Wall.setMill w b r).time = w.time := rfl
@[simp] theorem Wall.setMill_bnd (w : Wall) (b : ℕ) (r : MillRt) : (Wall.setMill w b r).bnd = w.bnd := rfl
@[simp] theorem Wall.setMill_led (w : Wall) (b : ℕ) (r : MillRt) : (Wall.setMill w b r).led = w.led := rfl
@[simp] theorem Wall.setMill_lan (w : Wall) (b : ℕ) (r : MillRt) : (Wall.setMill w b r).lan = w.lan := rfl
@[simp] theorem Wall.setMill_prt (w : Wall) (b : ℕ) (r : MillRt) : (Wall.setMill w b r).prt = w.prt := rfl
@[simp] theorem Wall.setMill_ing (w : Wall) (b : ℕ) (r : MillRt) : (Wall.setMill w b r).ing = w.ing := rfl
@[simp] theorem Wall.setMill_egr (w : Wall) (b : ℕ) (r : MillRt) : (Wall.setMill w b r).egr = w.egr := rfl
@[simp] theorem Wall.setMill_sec (w : Wall) (b : ℕ) (r : MillRt) : (Wall.setMill w b r).sec = w.sec := rfl
@[simp] theorem Wall.setMill_gra (w : Wall) (b : ℕ) (r : MillRt) : (Wall.setMill w b r).gra = w.gra := rfl
@[simp] theorem Wall.setMill_stw (w : Wall) (b : ℕ) (r : MillRt) : (Wall.setMill w b r).stw = w.stw := rfl
@[simp] theorem Wall.setMill_obs (w : Wall) (b : ℕ) (r : MillRt) : (Wall.setMill w b r).obs = w.obs := rfl
@[simp] theorem Wall.setMill_freeN (w : Wall) (b : ℕ) (r : MillRt) : (Wall.setMill w b r).freeN = w.freeN := rfl
@[simp] theorem Wall.setMill_out (w : Wall) (b : ℕ) (r : MillRt) : (Wall.setMill w b r).out = w.out := rfl
@[simp] theorem Wall.setMill_get (w : Wall) (b : ℕ) (r : MillRt) (o : Reg) : (Wall.setMill w b r).get o = w.get o := rfl
@[simp] theorem Wall.setRing_regs (w : Wall) (k : ℕ) (r : RingRt) : (Wall.setRing w k r).regs = w.regs := rfl
@[simp] theorem Wall.setRing_win (w : Wall) (k : ℕ) (r : RingRt) : (Wall.setRing w k r).win = w.win := rfl
@[simp] theorem Wall.setRing_time (w : Wall) (k : ℕ) (r : RingRt) : (Wall.setRing w k r).time = w.time := rfl
@[simp] theorem Wall.setRing_bnd (w : Wall) (k : ℕ) (r : RingRt) : (Wall.setRing w k r).bnd = w.bnd := rfl
@[simp] theorem Wall.setRing_led (w : Wall) (k : ℕ) (r : RingRt) : (Wall.setRing w k r).led = w.led := rfl
@[simp] theorem Wall.setRing_lan (w : Wall) (k : ℕ) (r : RingRt) : (Wall.setRing w k r).lan = w.lan := rfl
@[simp] theorem Wall.setRing_prt (w : Wall) (k : ℕ) (r : RingRt) : (Wall.setRing w k r).prt = w.prt := rfl
@[simp] theorem Wall.setRing_ing (w : Wall) (k : ℕ) (r : RingRt) : (Wall.setRing w k r).ing = w.ing := rfl
@[simp] theorem Wall.setRing_egr (w : Wall) (k : ℕ) (r : RingRt) : (Wall.setRing w k r).egr = w.egr := rfl
@[simp] theorem Wall.setRing_sec (w : Wall) (k : ℕ) (r : RingRt) : (Wall.setRing w k r).sec = w.sec := rfl
@[simp] theorem Wall.setRing_gra (w : Wall) (k : ℕ) (r : RingRt) : (Wall.setRing w k r).gra = w.gra := rfl
@[simp] theorem Wall.setRing_stw (w : Wall) (k : ℕ) (r : RingRt) : (Wall.setRing w k r).stw = w.stw := rfl
@[simp] theorem Wall.setRing_obs (w : Wall) (k : ℕ) (r : RingRt) : (Wall.setRing w k r).obs = w.obs := rfl
@[simp] theorem Wall.setRing_freeN (w : Wall) (k : ℕ) (r : RingRt) : (Wall.setRing w k r).freeN = w.freeN := rfl
@[simp] theorem Wall.setRing_out (w : Wall) (k : ℕ) (r : RingRt) : (Wall.setRing w k r).out = w.out := rfl
@[simp] theorem Wall.setRing_get (w : Wall) (k : ℕ) (r : RingRt) (o : Reg) : (Wall.setRing w k r).get o = w.get o := rfl
@[simp] theorem Wall.setQueue_regs (w : Wall) (p : ℕ) (q : ℕ) (r : EQueue) : (Wall.setQueue w p q r).regs = w.regs := rfl
@[simp] theorem Wall.setQueue_win (w : Wall) (p : ℕ) (q : ℕ) (r : EQueue) : (Wall.setQueue w p q r).win = w.win := rfl
@[simp] theorem Wall.setQueue_time (w : Wall) (p : ℕ) (q : ℕ) (r : EQueue) : (Wall.setQueue w p q r).time = w.time := rfl
@[simp] theorem Wall.setQueue_bnd (w : Wall) (p : ℕ) (q : ℕ) (r : EQueue) : (Wall.setQueue w p q r).bnd = w.bnd := rfl
@[simp] theorem Wall.setQueue_led (w : Wall) (p : ℕ) (q : ℕ) (r : EQueue) : (Wall.setQueue w p q r).led = w.led := rfl
@[simp] theorem Wall.setQueue_lan (w : Wall) (p : ℕ) (q : ℕ) (r : EQueue) : (Wall.setQueue w p q r).lan = w.lan := rfl
@[simp] theorem Wall.setQueue_prt (w : Wall) (p : ℕ) (q : ℕ) (r : EQueue) : (Wall.setQueue w p q r).prt = w.prt := rfl
@[simp] theorem Wall.setQueue_ing (w : Wall) (p : ℕ) (q : ℕ) (r : EQueue) : (Wall.setQueue w p q r).ing = w.ing := rfl
@[simp] theorem Wall.setQueue_sec (w : Wall) (p : ℕ) (q : ℕ) (r : EQueue) : (Wall.setQueue w p q r).sec = w.sec := rfl
@[simp] theorem Wall.setQueue_gra (w : Wall) (p : ℕ) (q : ℕ) (r : EQueue) : (Wall.setQueue w p q r).gra = w.gra := rfl
@[simp] theorem Wall.setQueue_hst (w : Wall) (p : ℕ) (q : ℕ) (r : EQueue) : (Wall.setQueue w p q r).hst = w.hst := rfl
@[simp] theorem Wall.setQueue_stw (w : Wall) (p : ℕ) (q : ℕ) (r : EQueue) : (Wall.setQueue w p q r).stw = w.stw := rfl
@[simp] theorem Wall.setQueue_obs (w : Wall) (p : ℕ) (q : ℕ) (r : EQueue) : (Wall.setQueue w p q r).obs = w.obs := rfl
@[simp] theorem Wall.setQueue_freeN (w : Wall) (p : ℕ) (q : ℕ) (r : EQueue) : (Wall.setQueue w p q r).freeN = w.freeN := rfl
@[simp] theorem Wall.setQueue_out (w : Wall) (p : ℕ) (q : ℕ) (r : EQueue) : (Wall.setQueue w p q r).out = w.out := rfl
@[simp] theorem Wall.setQueue_get (w : Wall) (p : ℕ) (q : ℕ) (r : EQueue) (o : Reg) : (Wall.setQueue w p q r).get o = w.get o := rfl
@[simp] theorem modFrame_regs (n : ℕ) (f : IFrame → IFrame) (w : Wall) : (modFrame n f w).regs = w.regs := rfl
@[simp] theorem modFrame_win (n : ℕ) (f : IFrame → IFrame) (w : Wall) : (modFrame n f w).win = w.win := rfl
@[simp] theorem modFrame_time (n : ℕ) (f : IFrame → IFrame) (w : Wall) : (modFrame n f w).time = w.time := rfl
@[simp] theorem modFrame_bnd (n : ℕ) (f : IFrame → IFrame) (w : Wall) : (modFrame n f w).bnd = w.bnd := rfl
@[simp] theorem modFrame_led (n : ℕ) (f : IFrame → IFrame) (w : Wall) : (modFrame n f w).led = w.led := rfl
@[simp] theorem modFrame_lan (n : ℕ) (f : IFrame → IFrame) (w : Wall) : (modFrame n f w).lan = w.lan := rfl
@[simp] theorem modFrame_prt (n : ℕ) (f : IFrame → IFrame) (w : Wall) : (modFrame n f w).prt = w.prt := rfl
@[simp] theorem modFrame_egr (n : ℕ) (f : IFrame → IFrame) (w : Wall) : (modFrame n f w).egr = w.egr := rfl
@[simp] theorem modFrame_sec (n : ℕ) (f : IFrame → IFrame) (w : Wall) : (modFrame n f w).sec = w.sec := rfl
@[simp] theorem modFrame_gra (n : ℕ) (f : IFrame → IFrame) (w : Wall) : (modFrame n f w).gra = w.gra := rfl
@[simp] theorem modFrame_hst (n : ℕ) (f : IFrame → IFrame) (w : Wall) : (modFrame n f w).hst = w.hst := rfl
@[simp] theorem modFrame_stw (n : ℕ) (f : IFrame → IFrame) (w : Wall) : (modFrame n f w).stw = w.stw := rfl
@[simp] theorem modFrame_obs (n : ℕ) (f : IFrame → IFrame) (w : Wall) : (modFrame n f w).obs = w.obs := rfl
@[simp] theorem modFrame_freeN (n : ℕ) (f : IFrame → IFrame) (w : Wall) : (modFrame n f w).freeN = w.freeN := rfl
@[simp] theorem modFrame_out (n : ℕ) (f : IFrame → IFrame) (w : Wall) : (modFrame n f w).out = w.out := rfl
@[simp] theorem modFrame_get (n : ℕ) (f : IFrame → IFrame) (w : Wall) (o : Reg) : (modFrame n f w).get o = w.get o := rfl
@[simp] theorem setActive_regs (sp : ℕ) (tc : ℕ) (l : List ℕ) (w : Wall) : (setActive sp tc l w).regs = w.regs := rfl
@[simp] theorem setActive_win (sp : ℕ) (tc : ℕ) (l : List ℕ) (w : Wall) : (setActive sp tc l w).win = w.win := rfl
@[simp] theorem setActive_time (sp : ℕ) (tc : ℕ) (l : List ℕ) (w : Wall) : (setActive sp tc l w).time = w.time := rfl
@[simp] theorem setActive_bnd (sp : ℕ) (tc : ℕ) (l : List ℕ) (w : Wall) : (setActive sp tc l w).bnd = w.bnd := rfl
@[simp] theorem setActive_led (sp : ℕ) (tc : ℕ) (l : List ℕ) (w : Wall) : (setActive sp tc l w).led = w.led := rfl
@[simp] theorem setActive_lan (sp : ℕ) (tc : ℕ) (l : List ℕ) (w : Wall) : (setActive sp tc l w).lan = w.lan := rfl
@[simp] theorem setActive_prt (sp : ℕ) (tc : ℕ) (l : List ℕ) (w : Wall) : (setActive sp tc l w).prt = w.prt := rfl
@[simp] theorem setActive_ing (sp : ℕ) (tc : ℕ) (l : List ℕ) (w : Wall) : (setActive sp tc l w).ing = w.ing := rfl
@[simp] theorem setActive_sec (sp : ℕ) (tc : ℕ) (l : List ℕ) (w : Wall) : (setActive sp tc l w).sec = w.sec := rfl
@[simp] theorem setActive_gra (sp : ℕ) (tc : ℕ) (l : List ℕ) (w : Wall) : (setActive sp tc l w).gra = w.gra := rfl
@[simp] theorem setActive_hst (sp : ℕ) (tc : ℕ) (l : List ℕ) (w : Wall) : (setActive sp tc l w).hst = w.hst := rfl
@[simp] theorem setActive_stw (sp : ℕ) (tc : ℕ) (l : List ℕ) (w : Wall) : (setActive sp tc l w).stw = w.stw := rfl
@[simp] theorem setActive_obs (sp : ℕ) (tc : ℕ) (l : List ℕ) (w : Wall) : (setActive sp tc l w).obs = w.obs := rfl
@[simp] theorem setActive_freeN (sp : ℕ) (tc : ℕ) (l : List ℕ) (w : Wall) : (setActive sp tc l w).freeN = w.freeN := rfl
@[simp] theorem setActive_out (sp : ℕ) (tc : ℕ) (l : List ℕ) (w : Wall) : (setActive sp tc l w).out = w.out := rfl
@[simp] theorem setActive_get (sp : ℕ) (tc : ℕ) (l : List ℕ) (w : Wall) (o : Reg) : (setActive sp tc l w).get o = w.get o := rfl
@[simp] theorem setCells_regs (sp : ℕ) (l : List ICell) (w : Wall) : (setCells sp l w).regs = w.regs := rfl
@[simp] theorem setCells_win (sp : ℕ) (l : List ICell) (w : Wall) : (setCells sp l w).win = w.win := rfl
@[simp] theorem setCells_time (sp : ℕ) (l : List ICell) (w : Wall) : (setCells sp l w).time = w.time := rfl
@[simp] theorem setCells_bnd (sp : ℕ) (l : List ICell) (w : Wall) : (setCells sp l w).bnd = w.bnd := rfl
@[simp] theorem setCells_led (sp : ℕ) (l : List ICell) (w : Wall) : (setCells sp l w).led = w.led := rfl
@[simp] theorem setCells_lan (sp : ℕ) (l : List ICell) (w : Wall) : (setCells sp l w).lan = w.lan := rfl
@[simp] theorem setCells_prt (sp : ℕ) (l : List ICell) (w : Wall) : (setCells sp l w).prt = w.prt := rfl
@[simp] theorem setCells_egr (sp : ℕ) (l : List ICell) (w : Wall) : (setCells sp l w).egr = w.egr := rfl
@[simp] theorem setCells_sec (sp : ℕ) (l : List ICell) (w : Wall) : (setCells sp l w).sec = w.sec := rfl
@[simp] theorem setCells_gra (sp : ℕ) (l : List ICell) (w : Wall) : (setCells sp l w).gra = w.gra := rfl
@[simp] theorem setCells_hst (sp : ℕ) (l : List ICell) (w : Wall) : (setCells sp l w).hst = w.hst := rfl
@[simp] theorem setCells_stw (sp : ℕ) (l : List ICell) (w : Wall) : (setCells sp l w).stw = w.stw := rfl
@[simp] theorem setCells_obs (sp : ℕ) (l : List ICell) (w : Wall) : (setCells sp l w).obs = w.obs := rfl
@[simp] theorem setCells_freeN (sp : ℕ) (l : List ICell) (w : Wall) : (setCells sp l w).freeN = w.freeN := rfl
@[simp] theorem setCells_out (sp : ℕ) (l : List ICell) (w : Wall) : (setCells sp l w).out = w.out := rfl
@[simp] theorem setCells_get (sp : ℕ) (l : List ICell) (w : Wall) (o : Reg) : (setCells sp l w).get o = w.get o := rfl
@[simp] theorem setCoreCredits_regs (p : ℕ) (n : ℕ) (w : Wall) : (setCoreCredits p n w).regs = w.regs := rfl
@[simp] theorem setCoreCredits_win (p : ℕ) (n : ℕ) (w : Wall) : (setCoreCredits p n w).win = w.win := rfl
@[simp] theorem setCoreCredits_time (p : ℕ) (n : ℕ) (w : Wall) : (setCoreCredits p n w).time = w.time := rfl
@[simp] theorem setCoreCredits_bnd (p : ℕ) (n : ℕ) (w : Wall) : (setCoreCredits p n w).bnd = w.bnd := rfl
@[simp] theorem setCoreCredits_led (p : ℕ) (n : ℕ) (w : Wall) : (setCoreCredits p n w).led = w.led := rfl
@[simp] theorem setCoreCredits_lan (p : ℕ) (n : ℕ) (w : Wall) : (setCoreCredits p n w).lan = w.lan := rfl
@[simp] theorem setCoreCredits_prt (p : ℕ) (n : ℕ) (w : Wall) : (setCoreCredits p n w).prt = w.prt := rfl
@[simp] theorem setCoreCredits_ing (p : ℕ) (n : ℕ) (w : Wall) : (setCoreCredits p n w).ing = w.ing := rfl
@[simp] theorem setCoreCredits_sec (p : ℕ) (n : ℕ) (w : Wall) : (setCoreCredits p n w).sec = w.sec := rfl
@[simp] theorem setCoreCredits_gra (p : ℕ) (n : ℕ) (w : Wall) : (setCoreCredits p n w).gra = w.gra := rfl
@[simp] theorem setCoreCredits_hst (p : ℕ) (n : ℕ) (w : Wall) : (setCoreCredits p n w).hst = w.hst := rfl
@[simp] theorem setCoreCredits_stw (p : ℕ) (n : ℕ) (w : Wall) : (setCoreCredits p n w).stw = w.stw := rfl
@[simp] theorem setCoreCredits_obs (p : ℕ) (n : ℕ) (w : Wall) : (setCoreCredits p n w).obs = w.obs := rfl
@[simp] theorem setCoreCredits_freeN (p : ℕ) (n : ℕ) (w : Wall) : (setCoreCredits p n w).freeN = w.freeN := rfl
@[simp] theorem setCoreCredits_out (p : ℕ) (n : ℕ) (w : Wall) : (setCoreCredits p n w).out = w.out := rfl
@[simp] theorem setCoreCredits_get (p : ℕ) (n : ℕ) (w : Wall) (o : Reg) : (setCoreCredits p n w).get o = w.get o := rfl
@[simp] theorem setPipeOcc_regs (p : ℕ) (n : ℕ) (w : Wall) : (setPipeOcc p n w).regs = w.regs := rfl
@[simp] theorem setPipeOcc_win (p : ℕ) (n : ℕ) (w : Wall) : (setPipeOcc p n w).win = w.win := rfl
@[simp] theorem setPipeOcc_time (p : ℕ) (n : ℕ) (w : Wall) : (setPipeOcc p n w).time = w.time := rfl
@[simp] theorem setPipeOcc_bnd (p : ℕ) (n : ℕ) (w : Wall) : (setPipeOcc p n w).bnd = w.bnd := rfl
@[simp] theorem setPipeOcc_led (p : ℕ) (n : ℕ) (w : Wall) : (setPipeOcc p n w).led = w.led := rfl
@[simp] theorem setPipeOcc_lan (p : ℕ) (n : ℕ) (w : Wall) : (setPipeOcc p n w).lan = w.lan := rfl
@[simp] theorem setPipeOcc_prt (p : ℕ) (n : ℕ) (w : Wall) : (setPipeOcc p n w).prt = w.prt := rfl
@[simp] theorem setPipeOcc_ing (p : ℕ) (n : ℕ) (w : Wall) : (setPipeOcc p n w).ing = w.ing := rfl
@[simp] theorem setPipeOcc_sec (p : ℕ) (n : ℕ) (w : Wall) : (setPipeOcc p n w).sec = w.sec := rfl
@[simp] theorem setPipeOcc_gra (p : ℕ) (n : ℕ) (w : Wall) : (setPipeOcc p n w).gra = w.gra := rfl
@[simp] theorem setPipeOcc_hst (p : ℕ) (n : ℕ) (w : Wall) : (setPipeOcc p n w).hst = w.hst := rfl
@[simp] theorem setPipeOcc_stw (p : ℕ) (n : ℕ) (w : Wall) : (setPipeOcc p n w).stw = w.stw := rfl
@[simp] theorem setPipeOcc_obs (p : ℕ) (n : ℕ) (w : Wall) : (setPipeOcc p n w).obs = w.obs := rfl
@[simp] theorem setPipeOcc_freeN (p : ℕ) (n : ℕ) (w : Wall) : (setPipeOcc p n w).freeN = w.freeN := rfl
@[simp] theorem setPipeOcc_out (p : ℕ) (n : ℕ) (w : Wall) : (setPipeOcc p n w).out = w.out := rfl
@[simp] theorem setPipeOcc_get (p : ℕ) (n : ℕ) (w : Wall) (o : Reg) : (setPipeOcc p n w).get o = w.get o := rfl
@[simp] theorem Wall.setQuiet_regs (w : Wall) (p : ℕ) (r : QuietRt) : (Wall.setQuiet w p r).regs = w.regs := rfl
@[simp] theorem Wall.setQuiet_win (w : Wall) (p : ℕ) (r : QuietRt) : (Wall.setQuiet w p r).win = w.win := rfl
@[simp] theorem Wall.setQuiet_time (w : Wall) (p : ℕ) (r : QuietRt) : (Wall.setQuiet w p r).time = w.time := rfl
@[simp] theorem Wall.setQuiet_bnd (w : Wall) (p : ℕ) (r : QuietRt) : (Wall.setQuiet w p r).bnd = w.bnd := rfl
@[simp] theorem Wall.setQuiet_led (w : Wall) (p : ℕ) (r : QuietRt) : (Wall.setQuiet w p r).led = w.led := rfl
@[simp] theorem Wall.setQuiet_lan (w : Wall) (p : ℕ) (r : QuietRt) : (Wall.setQuiet w p r).lan = w.lan := rfl
@[simp] theorem Wall.setQuiet_ing (w : Wall) (p : ℕ) (r : QuietRt) : (Wall.setQuiet w p r).ing = w.ing := rfl
@[simp] theorem Wall.setQuiet_egr (w : Wall) (p : ℕ) (r : QuietRt) : (Wall.setQuiet w p r).egr = w.egr := rfl
@[simp] theorem Wall.setQuiet_sec (w : Wall) (p : ℕ) (r : QuietRt) : (Wall.setQuiet w p r).sec = w.sec := rfl
@[simp] theorem Wall.setQuiet_gra (w : Wall) (p : ℕ) (r : QuietRt) : (Wall.setQuiet w p r).gra = w.gra := rfl
@[simp] theorem Wall.setQuiet_hst (w : Wall) (p : ℕ) (r : QuietRt) : (Wall.setQuiet w p r).hst = w.hst := rfl
@[simp] theorem Wall.setQuiet_stw (w : Wall) (p : ℕ) (r : QuietRt) : (Wall.setQuiet w p r).stw = w.stw := rfl
@[simp] theorem Wall.setQuiet_obs (w : Wall) (p : ℕ) (r : QuietRt) : (Wall.setQuiet w p r).obs = w.obs := rfl
@[simp] theorem Wall.setQuiet_freeN (w : Wall) (p : ℕ) (r : QuietRt) : (Wall.setQuiet w p r).freeN = w.freeN := rfl
@[simp] theorem Wall.setQuiet_out (w : Wall) (p : ℕ) (r : QuietRt) : (Wall.setQuiet w p r).out = w.out := rfl
@[simp] theorem Wall.setQuiet_get (w : Wall) (p : ℕ) (r : QuietRt) (o : Reg) : (Wall.setQuiet w p r).get o = w.get o := rfl
@[simp] theorem delExch_regs (k : ℕ) (w : Wall) : (delExch k w).regs = w.regs := rfl
@[simp] theorem delExch_win (k : ℕ) (w : Wall) : (delExch k w).win = w.win := rfl
@[simp] theorem delExch_time (k : ℕ) (w : Wall) : (delExch k w).time = w.time := rfl
@[simp] theorem delExch_bnd (k : ℕ) (w : Wall) : (delExch k w).bnd = w.bnd := rfl
@[simp] theorem delExch_led (k : ℕ) (w : Wall) : (delExch k w).led = w.led := rfl
@[simp] theorem delExch_prt (k : ℕ) (w : Wall) : (delExch k w).prt = w.prt := rfl
@[simp] theorem delExch_ing (k : ℕ) (w : Wall) : (delExch k w).ing = w.ing := rfl
@[simp] theorem delExch_egr (k : ℕ) (w : Wall) : (delExch k w).egr = w.egr := rfl
@[simp] theorem delExch_sec (k : ℕ) (w : Wall) : (delExch k w).sec = w.sec := rfl
@[simp] theorem delExch_gra (k : ℕ) (w : Wall) : (delExch k w).gra = w.gra := rfl
@[simp] theorem delExch_hst (k : ℕ) (w : Wall) : (delExch k w).hst = w.hst := rfl
@[simp] theorem delExch_stw (k : ℕ) (w : Wall) : (delExch k w).stw = w.stw := rfl
@[simp] theorem delExch_obs (k : ℕ) (w : Wall) : (delExch k w).obs = w.obs := rfl
@[simp] theorem delExch_freeN (k : ℕ) (w : Wall) : (delExch k w).freeN = w.freeN := rfl
@[simp] theorem delExch_out (k : ℕ) (w : Wall) : (delExch k w).out = w.out := rfl
@[simp] theorem delExch_get (k : ℕ) (w : Wall) (o : Reg) : (delExch k w).get o = w.get o := rfl
@[simp] theorem delSurvey_regs (l : ℕ) (w : Wall) : (delSurvey l w).regs = w.regs := rfl
@[simp] theorem delSurvey_win (l : ℕ) (w : Wall) : (delSurvey l w).win = w.win := rfl
@[simp] theorem delSurvey_time (l : ℕ) (w : Wall) : (delSurvey l w).time = w.time := rfl
@[simp] theorem delSurvey_bnd (l : ℕ) (w : Wall) : (delSurvey l w).bnd = w.bnd := rfl
@[simp] theorem delSurvey_led (l : ℕ) (w : Wall) : (delSurvey l w).led = w.led := rfl
@[simp] theorem delSurvey_prt (l : ℕ) (w : Wall) : (delSurvey l w).prt = w.prt := rfl
@[simp] theorem delSurvey_ing (l : ℕ) (w : Wall) : (delSurvey l w).ing = w.ing := rfl
@[simp] theorem delSurvey_egr (l : ℕ) (w : Wall) : (delSurvey l w).egr = w.egr := rfl
@[simp] theorem delSurvey_sec (l : ℕ) (w : Wall) : (delSurvey l w).sec = w.sec := rfl
@[simp] theorem delSurvey_gra (l : ℕ) (w : Wall) : (delSurvey l w).gra = w.gra := rfl
@[simp] theorem delSurvey_hst (l : ℕ) (w : Wall) : (delSurvey l w).hst = w.hst := rfl
@[simp] theorem delSurvey_stw (l : ℕ) (w : Wall) : (delSurvey l w).stw = w.stw := rfl
@[simp] theorem delSurvey_obs (l : ℕ) (w : Wall) : (delSurvey l w).obs = w.obs := rfl
@[simp] theorem delSurvey_freeN (l : ℕ) (w : Wall) : (delSurvey l w).freeN = w.freeN := rfl
@[simp] theorem delSurvey_out (l : ℕ) (w : Wall) : (delSurvey l w).out = w.out := rfl
@[simp] theorem delSurvey_get (l : ℕ) (w : Wall) (o : Reg) : (delSurvey l w).get o = w.get o := rfl
@[simp] theorem putExch_regs (k : ℕ) (e : Exch) (w : Wall) : (putExch k e w).regs = w.regs := rfl
@[simp] theorem putExch_win (k : ℕ) (e : Exch) (w : Wall) : (putExch k e w).win = w.win := rfl
@[simp] theorem putExch_time (k : ℕ) (e : Exch) (w : Wall) : (putExch k e w).time = w.time := rfl
@[simp] theorem putExch_bnd (k : ℕ) (e : Exch) (w : Wall) : (putExch k e w).bnd = w.bnd := rfl
@[simp] theorem putExch_led (k : ℕ) (e : Exch) (w : Wall) : (putExch k e w).led = w.led := rfl
@[simp] theorem putExch_prt (k : ℕ) (e : Exch) (w : Wall) : (putExch k e w).prt = w.prt := rfl
@[simp] theorem putExch_ing (k : ℕ) (e : Exch) (w : Wall) : (putExch k e w).ing = w.ing := rfl
@[simp] theorem putExch_egr (k : ℕ) (e : Exch) (w : Wall) : (putExch k e w).egr = w.egr := rfl
@[simp] theorem putExch_sec (k : ℕ) (e : Exch) (w : Wall) : (putExch k e w).sec = w.sec := rfl
@[simp] theorem putExch_gra (k : ℕ) (e : Exch) (w : Wall) : (putExch k e w).gra = w.gra := rfl
@[simp] theorem putExch_hst (k : ℕ) (e : Exch) (w : Wall) : (putExch k e w).hst = w.hst := rfl
@[simp] theorem putExch_stw (k : ℕ) (e : Exch) (w : Wall) : (putExch k e w).stw = w.stw := rfl
@[simp] theorem putExch_obs (k : ℕ) (e : Exch) (w : Wall) : (putExch k e w).obs = w.obs := rfl
@[simp] theorem putExch_freeN (k : ℕ) (e : Exch) (w : Wall) : (putExch k e w).freeN = w.freeN := rfl
@[simp] theorem putExch_out (k : ℕ) (e : Exch) (w : Wall) : (putExch k e w).out = w.out := rfl
@[simp] theorem putExch_get (k : ℕ) (e : Exch) (w : Wall) (o : Reg) : (putExch k e w).get o = w.get o := rfl
@[simp] theorem setSpGrp_regs (sp : ℕ) (r : GroupRt) (w : Wall) : (setSpGrp sp r w).regs = w.regs := rfl
@[simp] theorem setSpGrp_win (sp : ℕ) (r : GroupRt) (w : Wall) : (setSpGrp sp r w).win = w.win := rfl
@[simp] theorem setSpGrp_time (sp : ℕ) (r : GroupRt) (w : Wall) : (setSpGrp sp r w).time = w.time := rfl
@[simp] theorem setSpGrp_bnd (sp : ℕ) (r : GroupRt) (w : Wall) : (setSpGrp sp r w).bnd = w.bnd := rfl
@[simp] theorem setSpGrp_led (sp : ℕ) (r : GroupRt) (w : Wall) : (setSpGrp sp r w).led = w.led := rfl
@[simp] theorem setSpGrp_prt (sp : ℕ) (r : GroupRt) (w : Wall) : (setSpGrp sp r w).prt = w.prt := rfl
@[simp] theorem setSpGrp_ing (sp : ℕ) (r : GroupRt) (w : Wall) : (setSpGrp sp r w).ing = w.ing := rfl
@[simp] theorem setSpGrp_egr (sp : ℕ) (r : GroupRt) (w : Wall) : (setSpGrp sp r w).egr = w.egr := rfl
@[simp] theorem setSpGrp_sec (sp : ℕ) (r : GroupRt) (w : Wall) : (setSpGrp sp r w).sec = w.sec := rfl
@[simp] theorem setSpGrp_gra (sp : ℕ) (r : GroupRt) (w : Wall) : (setSpGrp sp r w).gra = w.gra := rfl
@[simp] theorem setSpGrp_hst (sp : ℕ) (r : GroupRt) (w : Wall) : (setSpGrp sp r w).hst = w.hst := rfl
@[simp] theorem setSpGrp_stw (sp : ℕ) (r : GroupRt) (w : Wall) : (setSpGrp sp r w).stw = w.stw := rfl
@[simp] theorem setSpGrp_obs (sp : ℕ) (r : GroupRt) (w : Wall) : (setSpGrp sp r w).obs = w.obs := rfl
@[simp] theorem setSpGrp_freeN (sp : ℕ) (r : GroupRt) (w : Wall) : (setSpGrp sp r w).freeN = w.freeN := rfl
@[simp] theorem setSpGrp_out (sp : ℕ) (r : GroupRt) (w : Wall) : (setSpGrp sp r w).out = w.out := rfl
@[simp] theorem setSpGrp_get (sp : ℕ) (r : GroupRt) (w : Wall) (o : Reg) : (setSpGrp sp r w).get o = w.get o := rfl
@[simp] theorem Wall.setRound_regs (w : Wall) (b : ℕ) (r : RoundRt) : (Wall.setRound w b r).regs = w.regs := rfl
@[simp] theorem Wall.setRound_win (w : Wall) (b : ℕ) (r : RoundRt) : (Wall.setRound w b r).win = w.win := rfl
@[simp] theorem Wall.setRound_time (w : Wall) (b : ℕ) (r : RoundRt) : (Wall.setRound w b r).time = w.time := rfl
@[simp] theorem Wall.setRound_bnd (w : Wall) (b : ℕ) (r : RoundRt) : (Wall.setRound w b r).bnd = w.bnd := rfl
@[simp] theorem Wall.setRound_led (w : Wall) (b : ℕ) (r : RoundRt) : (Wall.setRound w b r).led = w.led := rfl
@[simp] theorem Wall.setRound_prt (w : Wall) (b : ℕ) (r : RoundRt) : (Wall.setRound w b r).prt = w.prt := rfl
@[simp] theorem Wall.setRound_ing (w : Wall) (b : ℕ) (r : RoundRt) : (Wall.setRound w b r).ing = w.ing := rfl
@[simp] theorem Wall.setRound_egr (w : Wall) (b : ℕ) (r : RoundRt) : (Wall.setRound w b r).egr = w.egr := rfl
@[simp] theorem Wall.setRound_sec (w : Wall) (b : ℕ) (r : RoundRt) : (Wall.setRound w b r).sec = w.sec := rfl
@[simp] theorem Wall.setRound_gra (w : Wall) (b : ℕ) (r : RoundRt) : (Wall.setRound w b r).gra = w.gra := rfl
@[simp] theorem Wall.setRound_hst (w : Wall) (b : ℕ) (r : RoundRt) : (Wall.setRound w b r).hst = w.hst := rfl
@[simp] theorem Wall.setRound_stw (w : Wall) (b : ℕ) (r : RoundRt) : (Wall.setRound w b r).stw = w.stw := rfl
@[simp] theorem Wall.setRound_obs (w : Wall) (b : ℕ) (r : RoundRt) : (Wall.setRound w b r).obs = w.obs := rfl
@[simp] theorem Wall.setRound_freeN (w : Wall) (b : ℕ) (r : RoundRt) : (Wall.setRound w b r).freeN = w.freeN := rfl
@[simp] theorem Wall.setRound_out (w : Wall) (b : ℕ) (r : RoundRt) : (Wall.setRound w b r).out = w.out := rfl
@[simp] theorem Wall.setRound_get (w : Wall) (b : ℕ) (r : RoundRt) (o : Reg) : (Wall.setRound w b r).get o = w.get o := rfl
@[simp] theorem putSurvey_regs (l : ℕ) (s : SurveyRt) (w : Wall) : (putSurvey l s w).regs = w.regs := rfl
@[simp] theorem putSurvey_win (l : ℕ) (s : SurveyRt) (w : Wall) : (putSurvey l s w).win = w.win := rfl
@[simp] theorem putSurvey_time (l : ℕ) (s : SurveyRt) (w : Wall) : (putSurvey l s w).time = w.time := rfl
@[simp] theorem putSurvey_bnd (l : ℕ) (s : SurveyRt) (w : Wall) : (putSurvey l s w).bnd = w.bnd := rfl
@[simp] theorem putSurvey_led (l : ℕ) (s : SurveyRt) (w : Wall) : (putSurvey l s w).led = w.led := rfl
@[simp] theorem putSurvey_prt (l : ℕ) (s : SurveyRt) (w : Wall) : (putSurvey l s w).prt = w.prt := rfl
@[simp] theorem putSurvey_ing (l : ℕ) (s : SurveyRt) (w : Wall) : (putSurvey l s w).ing = w.ing := rfl
@[simp] theorem putSurvey_egr (l : ℕ) (s : SurveyRt) (w : Wall) : (putSurvey l s w).egr = w.egr := rfl
@[simp] theorem putSurvey_sec (l : ℕ) (s : SurveyRt) (w : Wall) : (putSurvey l s w).sec = w.sec := rfl
@[simp] theorem putSurvey_gra (l : ℕ) (s : SurveyRt) (w : Wall) : (putSurvey l s w).gra = w.gra := rfl
@[simp] theorem putSurvey_hst (l : ℕ) (s : SurveyRt) (w : Wall) : (putSurvey l s w).hst = w.hst := rfl
@[simp] theorem putSurvey_stw (l : ℕ) (s : SurveyRt) (w : Wall) : (putSurvey l s w).stw = w.stw := rfl
@[simp] theorem putSurvey_obs (l : ℕ) (s : SurveyRt) (w : Wall) : (putSurvey l s w).obs = w.obs := rfl
@[simp] theorem putSurvey_freeN (l : ℕ) (s : SurveyRt) (w : Wall) : (putSurvey l s w).freeN = w.freeN := rfl
@[simp] theorem putSurvey_out (l : ℕ) (s : SurveyRt) (w : Wall) : (putSurvey l s w).out = w.out := rfl
@[simp] theorem putSurvey_get (l : ℕ) (s : SurveyRt) (w : Wall) (o : Reg) : (putSurvey l s w).get o = w.get o := rfl
@[simp] theorem putGlean_regs (b : ℕ) (e : ℕ) (g : Glean) (w : Wall) : (putGlean b e g w).regs = w.regs := rfl
@[simp] theorem putGlean_win (b : ℕ) (e : ℕ) (g : Glean) (w : Wall) : (putGlean b e g w).win = w.win := rfl
@[simp] theorem putGlean_time (b : ℕ) (e : ℕ) (g : Glean) (w : Wall) : (putGlean b e g w).time = w.time := rfl
@[simp] theorem putGlean_bnd (b : ℕ) (e : ℕ) (g : Glean) (w : Wall) : (putGlean b e g w).bnd = w.bnd := rfl
@[simp] theorem putGlean_led (b : ℕ) (e : ℕ) (g : Glean) (w : Wall) : (putGlean b e g w).led = w.led := rfl
@[simp] theorem putGlean_lan (b : ℕ) (e : ℕ) (g : Glean) (w : Wall) : (putGlean b e g w).lan = w.lan := rfl
@[simp] theorem putGlean_prt (b : ℕ) (e : ℕ) (g : Glean) (w : Wall) : (putGlean b e g w).prt = w.prt := rfl
@[simp] theorem putGlean_egr (b : ℕ) (e : ℕ) (g : Glean) (w : Wall) : (putGlean b e g w).egr = w.egr := rfl
@[simp] theorem putGlean_sec (b : ℕ) (e : ℕ) (g : Glean) (w : Wall) : (putGlean b e g w).sec = w.sec := rfl
@[simp] theorem putGlean_gra (b : ℕ) (e : ℕ) (g : Glean) (w : Wall) : (putGlean b e g w).gra = w.gra := rfl
@[simp] theorem putGlean_hst (b : ℕ) (e : ℕ) (g : Glean) (w : Wall) : (putGlean b e g w).hst = w.hst := rfl
@[simp] theorem putGlean_stw (b : ℕ) (e : ℕ) (g : Glean) (w : Wall) : (putGlean b e g w).stw = w.stw := rfl
@[simp] theorem putGlean_obs (b : ℕ) (e : ℕ) (g : Glean) (w : Wall) : (putGlean b e g w).obs = w.obs := rfl
@[simp] theorem putGlean_freeN (b : ℕ) (e : ℕ) (g : Glean) (w : Wall) : (putGlean b e g w).freeN = w.freeN := rfl
@[simp] theorem putGlean_out (b : ℕ) (e : ℕ) (g : Glean) (w : Wall) : (putGlean b e g w).out = w.out := rfl
@[simp] theorem putGlean_get (b : ℕ) (e : ℕ) (g : Glean) (w : Wall) (o : Reg) : (putGlean b e g w).get o = w.get o := rfl
@[simp] theorem setCredits_regs (c : ℕ) (n : ℕ) (w : Wall) : (setCredits c n w).regs = w.regs := rfl
@[simp] theorem setCredits_win (c : ℕ) (n : ℕ) (w : Wall) : (setCredits c n w).win = w.win := rfl
@[simp] theorem setCredits_time (c : ℕ) (n : ℕ) (w : Wall) : (setCredits c n w).time = w.time := rfl
@[simp] theorem setCredits_led (c : ℕ) (n : ℕ) (w : Wall) : (setCredits c n w).led = w.led := rfl
@[simp] theorem setCredits_lan (c : ℕ) (n : ℕ) (w : Wall) : (setCredits c n w).lan = w.lan := rfl
@[simp] theorem setCredits_prt (c : ℕ) (n : ℕ) (w : Wall) : (setCredits c n w).prt = w.prt := rfl
@[simp] theorem setCredits_ing (c : ℕ) (n : ℕ) (w : Wall) : (setCredits c n w).ing = w.ing := rfl
@[simp] theorem setCredits_egr (c : ℕ) (n : ℕ) (w : Wall) : (setCredits c n w).egr = w.egr := rfl
@[simp] theorem setCredits_sec (c : ℕ) (n : ℕ) (w : Wall) : (setCredits c n w).sec = w.sec := rfl
@[simp] theorem setCredits_gra (c : ℕ) (n : ℕ) (w : Wall) : (setCredits c n w).gra = w.gra := rfl
@[simp] theorem setCredits_hst (c : ℕ) (n : ℕ) (w : Wall) : (setCredits c n w).hst = w.hst := rfl
@[simp] theorem setCredits_stw (c : ℕ) (n : ℕ) (w : Wall) : (setCredits c n w).stw = w.stw := rfl
@[simp] theorem setCredits_obs (c : ℕ) (n : ℕ) (w : Wall) : (setCredits c n w).obs = w.obs := rfl
@[simp] theorem setCredits_freeN (c : ℕ) (n : ℕ) (w : Wall) : (setCredits c n w).freeN = w.freeN := rfl
@[simp] theorem setCredits_out (c : ℕ) (n : ℕ) (w : Wall) : (setCredits c n w).out = w.out := rfl
@[simp] theorem setCredits_get (c : ℕ) (n : ℕ) (w : Wall) (o : Reg) : (setCredits c n w).get o = w.get o := rfl
@[simp] theorem putGate_regs (sp : ℕ) (g : Gate) (w : Wall) : (putGate sp g w).regs = w.regs := rfl
@[simp] theorem putGate_win (sp : ℕ) (g : Gate) (w : Wall) : (putGate sp g w).win = w.win := rfl
@[simp] theorem putGate_time (sp : ℕ) (g : Gate) (w : Wall) : (putGate sp g w).time = w.time := rfl
@[simp] theorem putGate_bnd (sp : ℕ) (g : Gate) (w : Wall) : (putGate sp g w).bnd = w.bnd := rfl
@[simp] theorem putGate_led (sp : ℕ) (g : Gate) (w : Wall) : (putGate sp g w).led = w.led := rfl
@[simp] theorem putGate_lan (sp : ℕ) (g : Gate) (w : Wall) : (putGate sp g w).lan = w.lan := rfl
@[simp] theorem putGate_prt (sp : ℕ) (g : Gate) (w : Wall) : (putGate sp g w).prt = w.prt := rfl
@[simp] theorem putGate_ing (sp : ℕ) (g : Gate) (w : Wall) : (putGate sp g w).ing = w.ing := rfl
@[simp] theorem putGate_sec (sp : ℕ) (g : Gate) (w : Wall) : (putGate sp g w).sec = w.sec := rfl
@[simp] theorem putGate_gra (sp : ℕ) (g : Gate) (w : Wall) : (putGate sp g w).gra = w.gra := rfl
@[simp] theorem putGate_hst (sp : ℕ) (g : Gate) (w : Wall) : (putGate sp g w).hst = w.hst := rfl
@[simp] theorem putGate_stw (sp : ℕ) (g : Gate) (w : Wall) : (putGate sp g w).stw = w.stw := rfl
@[simp] theorem putGate_obs (sp : ℕ) (g : Gate) (w : Wall) : (putGate sp g w).obs = w.obs := rfl
@[simp] theorem putGate_freeN (sp : ℕ) (g : Gate) (w : Wall) : (putGate sp g w).freeN = w.freeN := rfl
@[simp] theorem putGate_out (sp : ℕ) (g : Gate) (w : Wall) : (putGate sp g w).out = w.out := rfl
@[simp] theorem putGate_get (sp : ℕ) (g : Gate) (w : Wall) (o : Reg) : (putGate sp g w).get o = w.get o := rfl
@[simp] theorem modBnd_regs (f : BoundarySt → BoundarySt) (w : Wall) : (modBnd f w).regs = w.regs := rfl
@[simp] theorem modBnd_win (f : BoundarySt → BoundarySt) (w : Wall) : (modBnd f w).win = w.win := rfl
@[simp] theorem modBnd_time (f : BoundarySt → BoundarySt) (w : Wall) : (modBnd f w).time = w.time := rfl
@[simp] theorem modBnd_led (f : BoundarySt → BoundarySt) (w : Wall) : (modBnd f w).led = w.led := rfl
@[simp] theorem modBnd_lan (f : BoundarySt → BoundarySt) (w : Wall) : (modBnd f w).lan = w.lan := rfl
@[simp] theorem modBnd_prt (f : BoundarySt → BoundarySt) (w : Wall) : (modBnd f w).prt = w.prt := rfl
@[simp] theorem modBnd_ing (f : BoundarySt → BoundarySt) (w : Wall) : (modBnd f w).ing = w.ing := rfl
@[simp] theorem modBnd_egr (f : BoundarySt → BoundarySt) (w : Wall) : (modBnd f w).egr = w.egr := rfl
@[simp] theorem modBnd_sec (f : BoundarySt → BoundarySt) (w : Wall) : (modBnd f w).sec = w.sec := rfl
@[simp] theorem modBnd_gra (f : BoundarySt → BoundarySt) (w : Wall) : (modBnd f w).gra = w.gra := rfl
@[simp] theorem modBnd_hst (f : BoundarySt → BoundarySt) (w : Wall) : (modBnd f w).hst = w.hst := rfl
@[simp] theorem modBnd_stw (f : BoundarySt → BoundarySt) (w : Wall) : (modBnd f w).stw = w.stw := rfl
@[simp] theorem modBnd_obs (f : BoundarySt → BoundarySt) (w : Wall) : (modBnd f w).obs = w.obs := rfl
@[simp] theorem modBnd_freeN (f : BoundarySt → BoundarySt) (w : Wall) : (modBnd f w).freeN = w.freeN := rfl
@[simp] theorem modBnd_out (f : BoundarySt → BoundarySt) (w : Wall) : (modBnd f w).out = w.out := rfl
@[simp] theorem modBnd_get (f : BoundarySt → BoundarySt) (w : Wall) (o : Reg) : (modBnd f w).get o = w.get o := rfl
@[simp] theorem setDrbg_regs (n : ℕ) (w : Wall) : (setDrbg n w).regs = w.regs := rfl
@[simp] theorem setDrbg_win (n : ℕ) (w : Wall) : (setDrbg n w).win = w.win := rfl
@[simp] theorem setDrbg_time (n : ℕ) (w : Wall) : (setDrbg n w).time = w.time := rfl
@[simp] theorem setDrbg_bnd (n : ℕ) (w : Wall) : (setDrbg n w).bnd = w.bnd := rfl
@[simp] theorem setDrbg_led (n : ℕ) (w : Wall) : (setDrbg n w).led = w.led := rfl
@[simp] theorem setDrbg_lan (n : ℕ) (w : Wall) : (setDrbg n w).lan = w.lan := rfl
@[simp] theorem setDrbg_prt (n : ℕ) (w : Wall) : (setDrbg n w).prt = w.prt := rfl
@[simp] theorem setDrbg_ing (n : ℕ) (w : Wall) : (setDrbg n w).ing = w.ing := rfl
@[simp] theorem setDrbg_egr (n : ℕ) (w : Wall) : (setDrbg n w).egr = w.egr := rfl
@[simp] theorem setDrbg_gra (n : ℕ) (w : Wall) : (setDrbg n w).gra = w.gra := rfl
@[simp] theorem setDrbg_hst (n : ℕ) (w : Wall) : (setDrbg n w).hst = w.hst := rfl
@[simp] theorem setDrbg_stw (n : ℕ) (w : Wall) : (setDrbg n w).stw = w.stw := rfl
@[simp] theorem setDrbg_obs (n : ℕ) (w : Wall) : (setDrbg n w).obs = w.obs := rfl
@[simp] theorem setDrbg_freeN (n : ℕ) (w : Wall) : (setDrbg n w).freeN = w.freeN := rfl
@[simp] theorem setDrbg_out (n : ℕ) (w : Wall) : (setDrbg n w).out = w.out := rfl
@[simp] theorem setDrbg_get (n : ℕ) (w : Wall) (o : Reg) : (setDrbg n w).get o = w.get o := rfl

end Sys2Proof.Machine
end

