-- ==== Sys2Proof/Laws/Ops.lean ====
section
/-! SUPPORT. The laws of reading and writing objects, and what each shared operation can do. -/

open Sys2Proof

namespace Sys2Proof.Machine

/-! ### Objects -/

/-- A written object reads as the value, cut to its width. -/
@[simp] theorem get_set_same (w : Wall) (r : Reg) (v : Nat) : (w.set r v).get r = v % 2 ^ r.bits :=
  tgetD_tputD_same ..

/-- Writing one object leaves every object with another key. -/
theorem get_set_other (w : Wall) (r o : Reg) (v : Nat) (h : o.key ≠ r.key) : (w.set r v).get o = w.get o :=
  tgetD_tputD_other _ _ _ _ _ _ h

theorem get_setB_same (w : Wall) (r : Reg) (b : Bool) : (w.setB r b).get r = b2n b % 2 ^ r.bits := get_set_same ..
theorem get_setB_other (w : Wall) (r o : Reg) (b : Bool) (h : o.key ≠ r.key) : (w.setB r b).get o = w.get o :=
  get_set_other _ _ _ _ h
/-- A counter counts modulo its width (R593). -/
@[simp] theorem get_bump_same (w : Wall) (r : Reg) (n : Nat) : (w.bump r n).get r = (w.get r + n) % 2 ^ r.bits :=
  get_set_same ..
theorem get_bump_other (w : Wall) (r o : Reg) (n : Nat) (h : o.key ≠ r.key) : (w.bump r n).get o = w.get o :=
  get_set_other _ _ _ _ h
theorem get_setBitR_same (w : Wall) (r : Reg) (i : Nat) : (w.setBitR r i).get r = setBit (w.get r) i % 2 ^ r.bits :=
  get_set_same ..
theorem get_setBitR_other (w : Wall) (r o : Reg) (i : Nat) (h : o.key ≠ r.key) : (w.setBitR r i).get o = w.get o :=
  get_set_other _ _ _ _ h
theorem get_clrBitR_same (w : Wall) (r : Reg) (i : Nat) : (w.clrBitR r i).get r = clrBit (w.get r) i % 2 ^ r.bits :=
  get_set_same ..
theorem get_clrBitR_other (w : Wall) (r o : Reg) (i : Nat) (h : o.key ≠ r.key) : (w.clrBitR r i).get o = w.get o :=
  get_set_other _ _ _ _ h

/-- A word of the window reads as the value written, cut to 32 bits. -/
theorem win32_setWin_same (w : Wall) (off v : Nat) : (w.setWin off 0 v).win32 off 0 = v % 2 ^ 32 := tgetD_tputD_same ..
theorem win32_setWin_other (w : Wall) (off o d e v : Nat) (h : o ≠ off) : (w.setWin off d v).win32 o e = w.win32 o e :=
  tgetD_tputD_other _ _ _ _ _ _ h

/-! ### Latches, the Daybook and events: which objects they write -/

theorem get_vecEvent (v : Nat) (w : Wall) (o : Reg) : (vecEvent v w).get o = w.get o := by
  unfold vecEvent; split <;> rfl

/-- A latch writes BH_PENDING, BH_COALESCED and, on the host side, BH_TAKEN of its Bellhouse. -/
theorem get_latch (u s : Nat) (w : Wall) (o : Reg) (h1 : o.key ≠ (Reg.bhPending u).key)
    (h2 : o.key ≠ (Reg.bhCoalesced u).key) (h3 : u = 17 → o.key ≠ (Reg.bhTaken 17).key) :
    (latch u s w).get o = w.get o := by
  unfold latch setLatch hostEvent
  split
  · exact get_bump_other _ _ _ _ h2
  · dsimp only
    unfold when
    split
    · rename_i k
      have e : u = 17 := by simp at k; exact k.1
      rw [get_vecEvent, get_bump_other _ _ _ _ (h3 e), get_setBitR_other _ _ _ _ h1]
    · exact get_setBitR_other _ _ _ _ h1

/-- The latch of a rising edge is set afterwards (R580). -/
theorem latch_pending (u s : Nat) (w : Wall) (hs : s < (Reg.bhPending u).bits)
    (h1 : (Reg.bhPending u).key ≠ (Reg.bhCoalesced u).key) (h2 : u = 17 → (Reg.bhPending u).key ≠ (Reg.bhTaken 17).key) :
    bit ((latch u s w).get (Reg.bhPending u)) s = true := by
  unfold latch setLatch hostEvent
  split
  · rw [get_bump_other _ _ _ _ h1]; assumption
  · have k : bit (setBit (w.get (Reg.bhPending u)) s % 2 ^ (Reg.bhPending u).bits) s = true := by
      simp [bit, setBit, hs]
    dsimp only
    unfold when
    split
    · rename_i j
      have e : u = 17 := by simp at j; exact j.1
      rw [get_vecEvent, get_bump_other _ _ _ _ (h2 e), get_setBitR_same]; exact k
    · rw [get_setBitR_same]; exact k

/-! ### What the shared operations leave as it was -/

@[simp] theorem latch_win (u : ℕ) (s : ℕ) (w : Wall) : (latch u s w).win = w.win := (latch_keep ..).win (by decide)
@[simp] theorem latch_freeN (u : ℕ) (s : ℕ) (w : Wall) : (latch u s w).freeN = w.freeN := (latch_keep ..).freeN (by decide)
@[simp] theorem latch_out (u : ℕ) (s : ℕ) (w : Wall) : (latch u s w).out = w.out := (latch_keep ..).out (by decide)
@[simp] theorem latch_time (u : ℕ) (s : ℕ) (w : Wall) : (latch u s w).time = w.time := (latch_keep ..).time.same (by decide)
@[simp] theorem latch_bnd (u : ℕ) (s : ℕ) (w : Wall) : (latch u s w).bnd = w.bnd := (latch_keep ..).bnd.same (by decide)
@[simp] theorem latch_led (u : ℕ) (s : ℕ) (w : Wall) : (latch u s w).led = w.led := (latch_keep ..).led.same (by decide)
@[simp] theorem latch_lan (u : ℕ) (s : ℕ) (w : Wall) : (latch u s w).lan = w.lan := (latch_keep ..).lan.same (by decide)
@[simp] theorem latch_prt (u : ℕ) (s : ℕ) (w : Wall) : (latch u s w).prt = w.prt := (latch_keep ..).prt.same (by decide)
@[simp] theorem latch_ing (u : ℕ) (s : ℕ) (w : Wall) : (latch u s w).ing = w.ing := (latch_keep ..).ing.same (by decide)
@[simp] theorem latch_egr (u : ℕ) (s : ℕ) (w : Wall) : (latch u s w).egr = w.egr := (latch_keep ..).egr.same (by decide)
@[simp] theorem latch_sec (u : ℕ) (s : ℕ) (w : Wall) : (latch u s w).sec = w.sec := (latch_keep ..).sec.same (by decide)
@[simp] theorem latch_gra (u : ℕ) (s : ℕ) (w : Wall) : (latch u s w).gra = w.gra := (latch_keep ..).gra.same (by decide)
@[simp] theorem latch_hst_rings (u : ℕ) (s : ℕ) (w : Wall) : (latch u s w).hst.rings = w.hst.rings := (latch_keep ..).hst.rings (by decide)
@[simp] theorem latch_hst_mills (u : ℕ) (s : ℕ) (w : Wall) : (latch u s w).hst.mills = w.hst.mills := (latch_keep ..).hst.mills (by decide)
@[simp] theorem latch_hst_turn (u : ℕ) (s : ℕ) (w : Wall) : (latch u s w).hst.turn = w.hst.turn := (latch_keep ..).hst.turn (by decide)
@[simp] theorem latch_stw (u : ℕ) (s : ℕ) (w : Wall) : (latch u s w).stw = w.stw := (latch_keep ..).stw.same (by decide)
@[simp] theorem latch_obs (u : ℕ) (s : ℕ) (w : Wall) : (latch u s w).obs = w.obs := (latch_keep ..).obs.same (by decide)
@[simp] theorem setLatch_win (u : ℕ) (s : ℕ) (w : Wall) : (setLatch u s w).win = w.win := (setLatch_keep ..).win (by decide)
@[simp] theorem setLatch_freeN (u : ℕ) (s : ℕ) (w : Wall) : (setLatch u s w).freeN = w.freeN := (setLatch_keep ..).freeN (by decide)
@[simp] theorem setLatch_out (u : ℕ) (s : ℕ) (w : Wall) : (setLatch u s w).out = w.out := (setLatch_keep ..).out (by decide)
@[simp] theorem setLatch_time (u : ℕ) (s : ℕ) (w : Wall) : (setLatch u s w).time = w.time := (setLatch_keep ..).time.same (by decide)
@[simp] theorem setLatch_bnd (u : ℕ) (s : ℕ) (w : Wall) : (setLatch u s w).bnd = w.bnd := (setLatch_keep ..).bnd.same (by decide)
@[simp] theorem setLatch_led (u : ℕ) (s : ℕ) (w : Wall) : (setLatch u s w).led = w.led := (setLatch_keep ..).led.same (by decide)
@[simp] theorem setLatch_lan (u : ℕ) (s : ℕ) (w : Wall) : (setLatch u s w).lan = w.lan := (setLatch_keep ..).lan.same (by decide)
@[simp] theorem setLatch_prt (u : ℕ) (s : ℕ) (w : Wall) : (setLatch u s w).prt = w.prt := (setLatch_keep ..).prt.same (by decide)
@[simp] theorem setLatch_ing (u : ℕ) (s : ℕ) (w : Wall) : (setLatch u s w).ing = w.ing := (setLatch_keep ..).ing.same (by decide)
@[simp] theorem setLatch_egr (u : ℕ) (s : ℕ) (w : Wall) : (setLatch u s w).egr = w.egr := (setLatch_keep ..).egr.same (by decide)
@[simp] theorem setLatch_sec (u : ℕ) (s : ℕ) (w : Wall) : (setLatch u s w).sec = w.sec := (setLatch_keep ..).sec.same (by decide)
@[simp] theorem setLatch_gra (u : ℕ) (s : ℕ) (w : Wall) : (setLatch u s w).gra = w.gra := (setLatch_keep ..).gra.same (by decide)
@[simp] theorem setLatch_hst_rings (u : ℕ) (s : ℕ) (w : Wall) : (setLatch u s w).hst.rings = w.hst.rings := (setLatch_keep ..).hst.rings (by decide)
@[simp] theorem setLatch_hst_mills (u : ℕ) (s : ℕ) (w : Wall) : (setLatch u s w).hst.mills = w.hst.mills := (setLatch_keep ..).hst.mills (by decide)
@[simp] theorem setLatch_hst_turn (u : ℕ) (s : ℕ) (w : Wall) : (setLatch u s w).hst.turn = w.hst.turn := (setLatch_keep ..).hst.turn (by decide)
@[simp] theorem setLatch_stw (u : ℕ) (s : ℕ) (w : Wall) : (setLatch u s w).stw = w.stw := (setLatch_keep ..).stw.same (by decide)
@[simp] theorem setLatch_obs (u : ℕ) (s : ℕ) (w : Wall) : (setLatch u s w).obs = w.obs := (setLatch_keep ..).obs.same (by decide)
@[simp] theorem hostEvent_win (s : ℕ) (w : Wall) : (hostEvent s w).win = w.win := (hostEvent_keep ..).win (by decide)
@[simp] theorem hostEvent_freeN (s : ℕ) (w : Wall) : (hostEvent s w).freeN = w.freeN := (hostEvent_keep ..).freeN (by decide)
@[simp] theorem hostEvent_out (s : ℕ) (w : Wall) : (hostEvent s w).out = w.out := (hostEvent_keep ..).out (by decide)
@[simp] theorem hostEvent_time (s : ℕ) (w : Wall) : (hostEvent s w).time = w.time := (hostEvent_keep ..).time.same (by decide)
@[simp] theorem hostEvent_bnd (s : ℕ) (w : Wall) : (hostEvent s w).bnd = w.bnd := (hostEvent_keep ..).bnd.same (by decide)
@[simp] theorem hostEvent_led (s : ℕ) (w : Wall) : (hostEvent s w).led = w.led := (hostEvent_keep ..).led.same (by decide)
@[simp] theorem hostEvent_lan (s : ℕ) (w : Wall) : (hostEvent s w).lan = w.lan := (hostEvent_keep ..).lan.same (by decide)
@[simp] theorem hostEvent_prt (s : ℕ) (w : Wall) : (hostEvent s w).prt = w.prt := (hostEvent_keep ..).prt.same (by decide)
@[simp] theorem hostEvent_ing (s : ℕ) (w : Wall) : (hostEvent s w).ing = w.ing := (hostEvent_keep ..).ing.same (by decide)
@[simp] theorem hostEvent_egr (s : ℕ) (w : Wall) : (hostEvent s w).egr = w.egr := (hostEvent_keep ..).egr.same (by decide)
@[simp] theorem hostEvent_sec (s : ℕ) (w : Wall) : (hostEvent s w).sec = w.sec := (hostEvent_keep ..).sec.same (by decide)
@[simp] theorem hostEvent_gra (s : ℕ) (w : Wall) : (hostEvent s w).gra = w.gra := (hostEvent_keep ..).gra.same (by decide)
@[simp] theorem hostEvent_hst_rings (s : ℕ) (w : Wall) : (hostEvent s w).hst.rings = w.hst.rings := (hostEvent_keep ..).hst.rings (by decide)
@[simp] theorem hostEvent_hst_mills (s : ℕ) (w : Wall) : (hostEvent s w).hst.mills = w.hst.mills := (hostEvent_keep ..).hst.mills (by decide)
@[simp] theorem hostEvent_hst_turn (s : ℕ) (w : Wall) : (hostEvent s w).hst.turn = w.hst.turn := (hostEvent_keep ..).hst.turn (by decide)
@[simp] theorem hostEvent_stw (s : ℕ) (w : Wall) : (hostEvent s w).stw = w.stw := (hostEvent_keep ..).stw.same (by decide)
@[simp] theorem hostEvent_obs (s : ℕ) (w : Wall) : (hostEvent s w).obs = w.obs := (hostEvent_keep ..).obs.same (by decide)
@[simp] theorem vecEvent_regs (v : ℕ) (w : Wall) : (vecEvent v w).regs = w.regs := (vecEvent_keep ..).regs (by decide)
@[simp] theorem vecEvent_win (v : ℕ) (w : Wall) : (vecEvent v w).win = w.win := (vecEvent_keep ..).win (by decide)
@[simp] theorem vecEvent_freeN (v : ℕ) (w : Wall) : (vecEvent v w).freeN = w.freeN := (vecEvent_keep ..).freeN (by decide)
@[simp] theorem vecEvent_out (v : ℕ) (w : Wall) : (vecEvent v w).out = w.out := (vecEvent_keep ..).out (by decide)
@[simp] theorem vecEvent_get (v : ℕ) (w : Wall) (o : Reg) : (vecEvent v w).get o = w.get o := by unfold Wall.get; rw [vecEvent_regs]
@[simp] theorem vecEvent_time (v : ℕ) (w : Wall) : (vecEvent v w).time = w.time := (vecEvent_keep ..).time.same (by decide)
@[simp] theorem vecEvent_bnd (v : ℕ) (w : Wall) : (vecEvent v w).bnd = w.bnd := (vecEvent_keep ..).bnd.same (by decide)
@[simp] theorem vecEvent_led (v : ℕ) (w : Wall) : (vecEvent v w).led = w.led := (vecEvent_keep ..).led.same (by decide)
@[simp] theorem vecEvent_lan (v : ℕ) (w : Wall) : (vecEvent v w).lan = w.lan := (vecEvent_keep ..).lan.same (by decide)
@[simp] theorem vecEvent_prt (v : ℕ) (w : Wall) : (vecEvent v w).prt = w.prt := (vecEvent_keep ..).prt.same (by decide)
@[simp] theorem vecEvent_ing (v : ℕ) (w : Wall) : (vecEvent v w).ing = w.ing := (vecEvent_keep ..).ing.same (by decide)
@[simp] theorem vecEvent_egr (v : ℕ) (w : Wall) : (vecEvent v w).egr = w.egr := (vecEvent_keep ..).egr.same (by decide)
@[simp] theorem vecEvent_sec (v : ℕ) (w : Wall) : (vecEvent v w).sec = w.sec := (vecEvent_keep ..).sec.same (by decide)
@[simp] theorem vecEvent_gra (v : ℕ) (w : Wall) : (vecEvent v w).gra = w.gra := (vecEvent_keep ..).gra.same (by decide)
@[simp] theorem vecEvent_hst_rings (v : ℕ) (w : Wall) : (vecEvent v w).hst.rings = w.hst.rings := (vecEvent_keep ..).hst.rings (by decide)
@[simp] theorem vecEvent_hst_mills (v : ℕ) (w : Wall) : (vecEvent v w).hst.mills = w.hst.mills := (vecEvent_keep ..).hst.mills (by decide)
@[simp] theorem vecEvent_hst_turn (v : ℕ) (w : Wall) : (vecEvent v w).hst.turn = w.hst.turn := (vecEvent_keep ..).hst.turn (by decide)
@[simp] theorem vecEvent_stw (v : ℕ) (w : Wall) : (vecEvent v w).stw = w.stw := (vecEvent_keep ..).stw.same (by decide)
@[simp] theorem vecEvent_obs (v : ℕ) (w : Wall) : (vecEvent v w).obs = w.obs := (vecEvent_keep ..).obs.same (by decide)
@[simp] theorem level_win (u : ℕ) (s : ℕ) (high : Bool) (w : Wall) : (level u s high w).win = w.win := (level_keep ..).win (by decide)
@[simp] theorem level_freeN (u : ℕ) (s : ℕ) (high : Bool) (w : Wall) : (level u s high w).freeN = w.freeN := (level_keep ..).freeN (by decide)
@[simp] theorem level_out (u : ℕ) (s : ℕ) (high : Bool) (w : Wall) : (level u s high w).out = w.out := (level_keep ..).out (by decide)
@[simp] theorem level_time (u : ℕ) (s : ℕ) (high : Bool) (w : Wall) : (level u s high w).time = w.time := (level_keep ..).time.same (by decide)
@[simp] theorem level_bnd (u : ℕ) (s : ℕ) (high : Bool) (w : Wall) : (level u s high w).bnd = w.bnd := (level_keep ..).bnd.same (by decide)
@[simp] theorem level_led (u : ℕ) (s : ℕ) (high : Bool) (w : Wall) : (level u s high w).led = w.led := (level_keep ..).led.same (by decide)
@[simp] theorem level_lan (u : ℕ) (s : ℕ) (high : Bool) (w : Wall) : (level u s high w).lan = w.lan := (level_keep ..).lan.same (by decide)
@[simp] theorem level_prt (u : ℕ) (s : ℕ) (high : Bool) (w : Wall) : (level u s high w).prt = w.prt := (level_keep ..).prt.same (by decide)
@[simp] theorem level_ing (u : ℕ) (s : ℕ) (high : Bool) (w : Wall) : (level u s high w).ing = w.ing := (level_keep ..).ing.same (by decide)
@[simp] theorem level_egr (u : ℕ) (s : ℕ) (high : Bool) (w : Wall) : (level u s high w).egr = w.egr := (level_keep ..).egr.same (by decide)
@[simp] theorem level_sec (u : ℕ) (s : ℕ) (high : Bool) (w : Wall) : (level u s high w).sec = w.sec := (level_keep ..).sec.same (by decide)
@[simp] theorem level_gra (u : ℕ) (s : ℕ) (high : Bool) (w : Wall) : (level u s high w).gra = w.gra := (level_keep ..).gra.same (by decide)
@[simp] theorem level_hst_rings (u : ℕ) (s : ℕ) (high : Bool) (w : Wall) : (level u s high w).hst.rings = w.hst.rings := (level_keep ..).hst.rings (by decide)
@[simp] theorem level_hst_mills (u : ℕ) (s : ℕ) (high : Bool) (w : Wall) : (level u s high w).hst.mills = w.hst.mills := (level_keep ..).hst.mills (by decide)
@[simp] theorem level_hst_turn (u : ℕ) (s : ℕ) (high : Bool) (w : Wall) : (level u s high w).hst.turn = w.hst.turn := (level_keep ..).hst.turn (by decide)
@[simp] theorem level_stw_seqs (u : ℕ) (s : ℕ) (high : Bool) (w : Wall) : (level u s high w).stw.seqs = w.stw.seqs := (level_keep ..).stw.seqs (by decide)
@[simp] theorem level_stw_hooks (u : ℕ) (s : ℕ) (high : Bool) (w : Wall) : (level u s high w).stw.hooks = w.stw.hooks := (level_keep ..).stw.hooks (by decide)
@[simp] theorem level_stw_restarting (u : ℕ) (s : ℕ) (high : Bool) (w : Wall) : (level u s high w).stw.restarting = w.stw.restarting := (level_keep ..).stw.restarting (by decide)
@[simp] theorem level_stw_reeveFault (u : ℕ) (s : ℕ) (high : Bool) (w : Wall) : (level u s high w).stw.reeveFault = w.stw.reeveFault := (level_keep ..).stw.reeveFault (by decide)
@[simp] theorem level_obs (u : ℕ) (s : ℕ) (high : Bool) (w : Wall) : (level u s high w).obs = w.obs := (level_keep ..).obs.same (by decide)
@[simp] theorem pulse_win (u : ℕ) (s : ℕ) (w : Wall) : (pulse u s w).win = w.win := (pulse_keep ..).win (by decide)
@[simp] theorem pulse_freeN (u : ℕ) (s : ℕ) (w : Wall) : (pulse u s w).freeN = w.freeN := (pulse_keep ..).freeN (by decide)
@[simp] theorem pulse_out (u : ℕ) (s : ℕ) (w : Wall) : (pulse u s w).out = w.out := (pulse_keep ..).out (by decide)
@[simp] theorem pulse_time (u : ℕ) (s : ℕ) (w : Wall) : (pulse u s w).time = w.time := (pulse_keep ..).time.same (by decide)
@[simp] theorem pulse_bnd (u : ℕ) (s : ℕ) (w : Wall) : (pulse u s w).bnd = w.bnd := (pulse_keep ..).bnd.same (by decide)
@[simp] theorem pulse_led (u : ℕ) (s : ℕ) (w : Wall) : (pulse u s w).led = w.led := (pulse_keep ..).led.same (by decide)
@[simp] theorem pulse_lan (u : ℕ) (s : ℕ) (w : Wall) : (pulse u s w).lan = w.lan := (pulse_keep ..).lan.same (by decide)
@[simp] theorem pulse_prt (u : ℕ) (s : ℕ) (w : Wall) : (pulse u s w).prt = w.prt := (pulse_keep ..).prt.same (by decide)
@[simp] theorem pulse_ing (u : ℕ) (s : ℕ) (w : Wall) : (pulse u s w).ing = w.ing := (pulse_keep ..).ing.same (by decide)
@[simp] theorem pulse_egr (u : ℕ) (s : ℕ) (w : Wall) : (pulse u s w).egr = w.egr := (pulse_keep ..).egr.same (by decide)
@[simp] theorem pulse_sec (u : ℕ) (s : ℕ) (w : Wall) : (pulse u s w).sec = w.sec := (pulse_keep ..).sec.same (by decide)
@[simp] theorem pulse_gra (u : ℕ) (s : ℕ) (w : Wall) : (pulse u s w).gra = w.gra := (pulse_keep ..).gra.same (by decide)
@[simp] theorem pulse_hst_rings (u : ℕ) (s : ℕ) (w : Wall) : (pulse u s w).hst.rings = w.hst.rings := (pulse_keep ..).hst.rings (by decide)
@[simp] theorem pulse_hst_mills (u : ℕ) (s : ℕ) (w : Wall) : (pulse u s w).hst.mills = w.hst.mills := (pulse_keep ..).hst.mills (by decide)
@[simp] theorem pulse_hst_turn (u : ℕ) (s : ℕ) (w : Wall) : (pulse u s w).hst.turn = w.hst.turn := (pulse_keep ..).hst.turn (by decide)
@[simp] theorem pulse_stw_seqs (u : ℕ) (s : ℕ) (w : Wall) : (pulse u s w).stw.seqs = w.stw.seqs := (pulse_keep ..).stw.seqs (by decide)
@[simp] theorem pulse_stw_hooks (u : ℕ) (s : ℕ) (w : Wall) : (pulse u s w).stw.hooks = w.stw.hooks := (pulse_keep ..).stw.hooks (by decide)
@[simp] theorem pulse_stw_restarting (u : ℕ) (s : ℕ) (w : Wall) : (pulse u s w).stw.restarting = w.stw.restarting := (pulse_keep ..).stw.restarting (by decide)
@[simp] theorem pulse_stw_reeveFault (u : ℕ) (s : ℕ) (w : Wall) : (pulse u s w).stw.reeveFault = w.stw.reeveFault := (pulse_keep ..).stw.reeveFault (by decide)
@[simp] theorem pulse_obs (u : ℕ) (s : ℕ) (w : Wall) : (pulse u s w).obs = w.obs := (pulse_keep ..).obs.same (by decide)
@[simp] theorem daybook_win (src : ℕ) (code : ℕ) (detail : ℕ) (w : Wall) : (daybook src code detail w).win = w.win := (daybook_keep ..).win (by decide)
@[simp] theorem daybook_freeN (src : ℕ) (code : ℕ) (detail : ℕ) (w : Wall) : (daybook src code detail w).freeN = w.freeN := (daybook_keep ..).freeN (by decide)
@[simp] theorem daybook_out (src : ℕ) (code : ℕ) (detail : ℕ) (w : Wall) : (daybook src code detail w).out = w.out := (daybook_keep ..).out (by decide)
@[simp] theorem daybook_time (src : ℕ) (code : ℕ) (detail : ℕ) (w : Wall) : (daybook src code detail w).time = w.time := (daybook_keep ..).time.same (by decide)
@[simp] theorem daybook_bnd (src : ℕ) (code : ℕ) (detail : ℕ) (w : Wall) : (daybook src code detail w).bnd = w.bnd := (daybook_keep ..).bnd.same (by decide)
@[simp] theorem daybook_led (src : ℕ) (code : ℕ) (detail : ℕ) (w : Wall) : (daybook src code detail w).led = w.led := (daybook_keep ..).led.same (by decide)
@[simp] theorem daybook_lan (src : ℕ) (code : ℕ) (detail : ℕ) (w : Wall) : (daybook src code detail w).lan = w.lan := (daybook_keep ..).lan.same (by decide)
@[simp] theorem daybook_prt (src : ℕ) (code : ℕ) (detail : ℕ) (w : Wall) : (daybook src code detail w).prt = w.prt := (daybook_keep ..).prt.same (by decide)
@[simp] theorem daybook_ing (src : ℕ) (code : ℕ) (detail : ℕ) (w : Wall) : (daybook src code detail w).ing = w.ing := (daybook_keep ..).ing.same (by decide)
@[simp] theorem daybook_egr (src : ℕ) (code : ℕ) (detail : ℕ) (w : Wall) : (daybook src code detail w).egr = w.egr := (daybook_keep ..).egr.same (by decide)
@[simp] theorem daybook_sec (src : ℕ) (code : ℕ) (detail : ℕ) (w : Wall) : (daybook src code detail w).sec = w.sec := (daybook_keep ..).sec.same (by decide)
@[simp] theorem daybook_gra (src : ℕ) (code : ℕ) (detail : ℕ) (w : Wall) : (daybook src code detail w).gra = w.gra := (daybook_keep ..).gra.same (by decide)
@[simp] theorem daybook_hst_rings (src : ℕ) (code : ℕ) (detail : ℕ) (w : Wall) : (daybook src code detail w).hst.rings = w.hst.rings := (daybook_keep ..).hst.rings (by decide)
@[simp] theorem daybook_hst_mills (src : ℕ) (code : ℕ) (detail : ℕ) (w : Wall) : (daybook src code detail w).hst.mills = w.hst.mills := (daybook_keep ..).hst.mills (by decide)
@[simp] theorem daybook_hst_turn (src : ℕ) (code : ℕ) (detail : ℕ) (w : Wall) : (daybook src code detail w).hst.turn = w.hst.turn := (daybook_keep ..).hst.turn (by decide)
@[simp] theorem daybook_stw (src : ℕ) (code : ℕ) (detail : ℕ) (w : Wall) : (daybook src code detail w).stw = w.stw := (daybook_keep ..).stw.same (by decide)
@[simp] theorem daybook_obs_samples (src : ℕ) (code : ℕ) (detail : ℕ) (w : Wall) : (daybook src code detail w).obs.samples = w.obs.samples := (daybook_keep ..).obs.samples (by decide)
@[simp] theorem daybook_obs_sampleSeq (src : ℕ) (code : ℕ) (detail : ℕ) (w : Wall) : (daybook src code detail w).obs.sampleSeq = w.obs.sampleSeq := (daybook_keep ..).obs.sampleSeq (by decide)
@[simp] theorem daybook_obs_high (src : ℕ) (code : ℕ) (detail : ℕ) (w : Wall) : (daybook src code detail w).obs.high = w.obs.high := (daybook_keep ..).obs.high (by decide)
@[simp] theorem daybook_obs_tally (src : ℕ) (code : ℕ) (detail : ℕ) (w : Wall) : (daybook src code detail w).obs.tally = w.obs.tally := (daybook_keep ..).obs.tally (by decide)
@[simp] theorem daybook_obs_tallyRecs (src : ℕ) (code : ℕ) (detail : ℕ) (w : Wall) : (daybook src code detail w).obs.tallyRecs = w.obs.tallyRecs := (daybook_keep ..).obs.tallyRecs (by decide)
@[simp] theorem daybook_obs_tallySeq (src : ℕ) (code : ℕ) (detail : ℕ) (w : Wall) : (daybook src code detail w).obs.tallySeq = w.obs.tallySeq := (daybook_keep ..).obs.tallySeq (by decide)
@[simp] theorem daybook_obs_books (src : ℕ) (code : ℕ) (detail : ℕ) (w : Wall) : (daybook src code detail w).obs.books = w.obs.books := (daybook_keep ..).obs.books (by decide)
@[simp] theorem daybook_obs_booksDue (src : ℕ) (code : ℕ) (detail : ℕ) (w : Wall) : (daybook src code detail w).obs.booksDue = w.obs.booksDue := (daybook_keep ..).obs.booksDue (by decide)
@[simp] theorem daybook_obs_illegalS (src : ℕ) (code : ℕ) (detail : ℕ) (w : Wall) : (daybook src code detail w).obs.illegalS = w.obs.illegalS := (daybook_keep ..).obs.illegalS (by decide)
@[simp] theorem dayHighWater_win (before : ℕ) (w : Wall) : (dayHighWater before w).win = w.win := (dayHighWater_keep ..).win (by decide)
@[simp] theorem dayHighWater_freeN (before : ℕ) (w : Wall) : (dayHighWater before w).freeN = w.freeN := (dayHighWater_keep ..).freeN (by decide)
@[simp] theorem dayHighWater_out (before : ℕ) (w : Wall) : (dayHighWater before w).out = w.out := (dayHighWater_keep ..).out (by decide)
@[simp] theorem dayHighWater_time (before : ℕ) (w : Wall) : (dayHighWater before w).time = w.time := (dayHighWater_keep ..).time.same (by decide)
@[simp] theorem dayHighWater_bnd (before : ℕ) (w : Wall) : (dayHighWater before w).bnd = w.bnd := (dayHighWater_keep ..).bnd.same (by decide)
@[simp] theorem dayHighWater_led (before : ℕ) (w : Wall) : (dayHighWater before w).led = w.led := (dayHighWater_keep ..).led.same (by decide)
@[simp] theorem dayHighWater_lan (before : ℕ) (w : Wall) : (dayHighWater before w).lan = w.lan := (dayHighWater_keep ..).lan.same (by decide)
@[simp] theorem dayHighWater_prt (before : ℕ) (w : Wall) : (dayHighWater before w).prt = w.prt := (dayHighWater_keep ..).prt.same (by decide)
@[simp] theorem dayHighWater_ing (before : ℕ) (w : Wall) : (dayHighWater before w).ing = w.ing := (dayHighWater_keep ..).ing.same (by decide)
@[simp] theorem dayHighWater_egr (before : ℕ) (w : Wall) : (dayHighWater before w).egr = w.egr := (dayHighWater_keep ..).egr.same (by decide)
@[simp] theorem dayHighWater_sec (before : ℕ) (w : Wall) : (dayHighWater before w).sec = w.sec := (dayHighWater_keep ..).sec.same (by decide)
@[simp] theorem dayHighWater_gra (before : ℕ) (w : Wall) : (dayHighWater before w).gra = w.gra := (dayHighWater_keep ..).gra.same (by decide)
@[simp] theorem dayHighWater_hst_rings (before : ℕ) (w : Wall) : (dayHighWater before w).hst.rings = w.hst.rings := (dayHighWater_keep ..).hst.rings (by decide)
@[simp] theorem dayHighWater_hst_mills (before : ℕ) (w : Wall) : (dayHighWater before w).hst.mills = w.hst.mills := (dayHighWater_keep ..).hst.mills (by decide)
@[simp] theorem dayHighWater_hst_turn (before : ℕ) (w : Wall) : (dayHighWater before w).hst.turn = w.hst.turn := (dayHighWater_keep ..).hst.turn (by decide)
@[simp] theorem dayHighWater_stw (before : ℕ) (w : Wall) : (dayHighWater before w).stw = w.stw := (dayHighWater_keep ..).stw.same (by decide)
@[simp] theorem dayHighWater_obs (before : ℕ) (w : Wall) : (dayHighWater before w).obs = w.obs := (dayHighWater_keep ..).obs.same (by decide)
@[simp] theorem closeSession_regs (slot : ℕ) (reason : ℕ) (send : Bool) (w : Wall) : (closeSession slot reason send w).regs = w.regs := (closeSession_keep ..).regs (by decide)
@[simp] theorem closeSession_win (slot : ℕ) (reason : ℕ) (send : Bool) (w : Wall) : (closeSession slot reason send w).win = w.win := (closeSession_keep ..).win (by decide)
@[simp] theorem closeSession_freeN (slot : ℕ) (reason : ℕ) (send : Bool) (w : Wall) : (closeSession slot reason send w).freeN = w.freeN := (closeSession_keep ..).freeN (by decide)
@[simp] theorem closeSession_get (slot : ℕ) (reason : ℕ) (send : Bool) (w : Wall) (o : Reg) : (closeSession slot reason send w).get o = w.get o := by unfold Wall.get; rw [closeSession_regs]
@[simp] theorem closeSession_time (slot : ℕ) (reason : ℕ) (send : Bool) (w : Wall) : (closeSession slot reason send w).time = w.time := (closeSession_keep ..).time.same (by decide)
@[simp] theorem closeSession_bnd (slot : ℕ) (reason : ℕ) (send : Bool) (w : Wall) : (closeSession slot reason send w).bnd = w.bnd := (closeSession_keep ..).bnd.same (by decide)
@[simp] theorem closeSession_led_queue (slot : ℕ) (reason : ℕ) (send : Bool) (w : Wall) : (closeSession slot reason send w).led.queue = w.led.queue := (closeSession_keep ..).led.queue (by decide)
@[simp] theorem closeSession_led_closed (slot : ℕ) (reason : ℕ) (send : Bool) (w : Wall) : (closeSession slot reason send w).led.closed = w.led.closed := (closeSession_keep ..).led.closed (by decide)
@[simp] theorem closeSession_led_deferred (slot : ℕ) (reason : ℕ) (send : Bool) (w : Wall) : (closeSession slot reason send w).led.deferred = w.led.deferred := (closeSession_keep ..).led.deferred (by decide)
@[simp] theorem closeSession_led_store (slot : ℕ) (reason : ℕ) (send : Bool) (w : Wall) : (closeSession slot reason send w).led.store = w.led.store := (closeSession_keep ..).led.store (by decide)
@[simp] theorem closeSession_led_domGen (slot : ℕ) (reason : ℕ) (send : Bool) (w : Wall) : (closeSession slot reason send w).led.domGen = w.led.domGen := (closeSession_keep ..).led.domGen (by decide)
@[simp] theorem closeSession_led_doms (slot : ℕ) (reason : ℕ) (send : Bool) (w : Wall) : (closeSession slot reason send w).led.doms = w.led.doms := (closeSession_keep ..).led.doms (by decide)
@[simp] theorem closeSession_led_handshakes (slot : ℕ) (reason : ℕ) (send : Bool) (w : Wall) : (closeSession slot reason send w).led.handshakes = w.led.handshakes := (closeSession_keep ..).led.handshakes (by decide)
@[simp] theorem closeSession_led_cursor (slot : ℕ) (reason : ℕ) (send : Bool) (w : Wall) : (closeSession slot reason send w).led.cursor = w.led.cursor := (closeSession_keep ..).led.cursor (by decide)
@[simp] theorem closeSession_led_indicator (slot : ℕ) (reason : ℕ) (send : Bool) (w : Wall) : (closeSession slot reason send w).led.indicator = w.led.indicator := (closeSession_keep ..).led.indicator (by decide)
@[simp] theorem closeSession_led_moveDue (slot : ℕ) (reason : ℕ) (send : Bool) (w : Wall) : (closeSession slot reason send w).led.moveDue = w.led.moveDue := (closeSession_keep ..).led.moveDue (by decide)
@[simp] theorem closeSession_led_icmpSecond (slot : ℕ) (reason : ℕ) (send : Bool) (w : Wall) : (closeSession slot reason send w).led.icmpSecond = w.led.icmpSecond := (closeSession_keep ..).led.icmpSecond (by decide)
@[simp] theorem closeSession_led_icmpCount (slot : ℕ) (reason : ℕ) (send : Bool) (w : Wall) : (closeSession slot reason send w).led.icmpCount = w.led.icmpCount := (closeSession_keep ..).led.icmpCount (by decide)
@[simp] theorem closeSession_led_inbandSecond (slot : ℕ) (reason : ℕ) (send : Bool) (w : Wall) : (closeSession slot reason send w).led.inbandSecond = w.led.inbandSecond := (closeSession_keep ..).led.inbandSecond (by decide)
@[simp] theorem closeSession_led_inbandCount (slot : ℕ) (reason : ℕ) (send : Bool) (w : Wall) : (closeSession slot reason send w).led.inbandCount = w.led.inbandCount := (closeSession_keep ..).led.inbandCount (by decide)
@[simp] theorem closeSession_led_inbandSent (slot : ℕ) (reason : ℕ) (send : Bool) (w : Wall) : (closeSession slot reason send w).led.inbandSent = w.led.inbandSent := (closeSession_keep ..).led.inbandSent (by decide)
@[simp] theorem closeSession_lan (slot : ℕ) (reason : ℕ) (send : Bool) (w : Wall) : (closeSession slot reason send w).lan = w.lan := (closeSession_keep ..).lan.same (by decide)
@[simp] theorem closeSession_prt (slot : ℕ) (reason : ℕ) (send : Bool) (w : Wall) : (closeSession slot reason send w).prt = w.prt := (closeSession_keep ..).prt.same (by decide)
@[simp] theorem closeSession_ing (slot : ℕ) (reason : ℕ) (send : Bool) (w : Wall) : (closeSession slot reason send w).ing = w.ing := (closeSession_keep ..).ing.same (by decide)
@[simp] theorem closeSession_egr (slot : ℕ) (reason : ℕ) (send : Bool) (w : Wall) : (closeSession slot reason send w).egr = w.egr := (closeSession_keep ..).egr.same (by decide)
@[simp] theorem closeSession_sec (slot : ℕ) (reason : ℕ) (send : Bool) (w : Wall) : (closeSession slot reason send w).sec = w.sec := (closeSession_keep ..).sec.same (by decide)
@[simp] theorem closeSession_gra (slot : ℕ) (reason : ℕ) (send : Bool) (w : Wall) : (closeSession slot reason send w).gra = w.gra := (closeSession_keep ..).gra.same (by decide)
@[simp] theorem closeSession_hst (slot : ℕ) (reason : ℕ) (send : Bool) (w : Wall) : (closeSession slot reason send w).hst = w.hst := (closeSession_keep ..).hst.same (by decide)
@[simp] theorem closeSession_stw (slot : ℕ) (reason : ℕ) (send : Bool) (w : Wall) : (closeSession slot reason send w).stw = w.stw := (closeSession_keep ..).stw.same (by decide)
@[simp] theorem closeSession_obs (slot : ℕ) (reason : ℕ) (send : Bool) (w : Wall) : (closeSession slot reason send w).obs = w.obs := (closeSession_keep ..).obs.same (by decide)
@[simp] theorem sendEvent_win (src : ℕ) (code : ℕ) (srcSeq : ℕ) (detail : ℕ) (cls : ℕ) (slot : ℕ) (w : Wall) : (sendEvent src code srcSeq detail cls slot w).win = w.win := (sendEvent_keep ..).win (by decide)
@[simp] theorem sendEvent_freeN (src : ℕ) (code : ℕ) (srcSeq : ℕ) (detail : ℕ) (cls : ℕ) (slot : ℕ) (w : Wall) : (sendEvent src code srcSeq detail cls slot w).freeN = w.freeN := (sendEvent_keep ..).freeN (by decide)
@[simp] theorem sendEvent_time (src : ℕ) (code : ℕ) (srcSeq : ℕ) (detail : ℕ) (cls : ℕ) (slot : ℕ) (w : Wall) : (sendEvent src code srcSeq detail cls slot w).time = w.time := (sendEvent_keep ..).time.same (by decide)
@[simp] theorem sendEvent_bnd (src : ℕ) (code : ℕ) (srcSeq : ℕ) (detail : ℕ) (cls : ℕ) (slot : ℕ) (w : Wall) : (sendEvent src code srcSeq detail cls slot w).bnd = w.bnd := (sendEvent_keep ..).bnd.same (by decide)
@[simp] theorem sendEvent_led_queue (src : ℕ) (code : ℕ) (srcSeq : ℕ) (detail : ℕ) (cls : ℕ) (slot : ℕ) (w : Wall) : (sendEvent src code srcSeq detail cls slot w).led.queue = w.led.queue := (sendEvent_keep ..).led.queue (by decide)
@[simp] theorem sendEvent_led_closed (src : ℕ) (code : ℕ) (srcSeq : ℕ) (detail : ℕ) (cls : ℕ) (slot : ℕ) (w : Wall) : (sendEvent src code srcSeq detail cls slot w).led.closed = w.led.closed := (sendEvent_keep ..).led.closed (by decide)
@[simp] theorem sendEvent_led_deferred (src : ℕ) (code : ℕ) (srcSeq : ℕ) (detail : ℕ) (cls : ℕ) (slot : ℕ) (w : Wall) : (sendEvent src code srcSeq detail cls slot w).led.deferred = w.led.deferred := (sendEvent_keep ..).led.deferred (by decide)
@[simp] theorem sendEvent_led_store (src : ℕ) (code : ℕ) (srcSeq : ℕ) (detail : ℕ) (cls : ℕ) (slot : ℕ) (w : Wall) : (sendEvent src code srcSeq detail cls slot w).led.store = w.led.store := (sendEvent_keep ..).led.store (by decide)
@[simp] theorem sendEvent_led_domGen (src : ℕ) (code : ℕ) (srcSeq : ℕ) (detail : ℕ) (cls : ℕ) (slot : ℕ) (w : Wall) : (sendEvent src code srcSeq detail cls slot w).led.domGen = w.led.domGen := (sendEvent_keep ..).led.domGen (by decide)
@[simp] theorem sendEvent_led_doms (src : ℕ) (code : ℕ) (srcSeq : ℕ) (detail : ℕ) (cls : ℕ) (slot : ℕ) (w : Wall) : (sendEvent src code srcSeq detail cls slot w).led.doms = w.led.doms := (sendEvent_keep ..).led.doms (by decide)
@[simp] theorem sendEvent_led_handshakes (src : ℕ) (code : ℕ) (srcSeq : ℕ) (detail : ℕ) (cls : ℕ) (slot : ℕ) (w : Wall) : (sendEvent src code srcSeq detail cls slot w).led.handshakes = w.led.handshakes := (sendEvent_keep ..).led.handshakes (by decide)
@[simp] theorem sendEvent_led_cursor (src : ℕ) (code : ℕ) (srcSeq : ℕ) (detail : ℕ) (cls : ℕ) (slot : ℕ) (w : Wall) : (sendEvent src code srcSeq detail cls slot w).led.cursor = w.led.cursor := (sendEvent_keep ..).led.cursor (by decide)
@[simp] theorem sendEvent_led_indicator (src : ℕ) (code : ℕ) (srcSeq : ℕ) (detail : ℕ) (cls : ℕ) (slot : ℕ) (w : Wall) : (sendEvent src code srcSeq detail cls slot w).led.indicator = w.led.indicator := (sendEvent_keep ..).led.indicator (by decide)
@[simp] theorem sendEvent_led_moveDue (src : ℕ) (code : ℕ) (srcSeq : ℕ) (detail : ℕ) (cls : ℕ) (slot : ℕ) (w : Wall) : (sendEvent src code srcSeq detail cls slot w).led.moveDue = w.led.moveDue := (sendEvent_keep ..).led.moveDue (by decide)
@[simp] theorem sendEvent_led_icmpSecond (src : ℕ) (code : ℕ) (srcSeq : ℕ) (detail : ℕ) (cls : ℕ) (slot : ℕ) (w : Wall) : (sendEvent src code srcSeq detail cls slot w).led.icmpSecond = w.led.icmpSecond := (sendEvent_keep ..).led.icmpSecond (by decide)
@[simp] theorem sendEvent_led_icmpCount (src : ℕ) (code : ℕ) (srcSeq : ℕ) (detail : ℕ) (cls : ℕ) (slot : ℕ) (w : Wall) : (sendEvent src code srcSeq detail cls slot w).led.icmpCount = w.led.icmpCount := (sendEvent_keep ..).led.icmpCount (by decide)
@[simp] theorem sendEvent_led_inbandSecond (src : ℕ) (code : ℕ) (srcSeq : ℕ) (detail : ℕ) (cls : ℕ) (slot : ℕ) (w : Wall) : (sendEvent src code srcSeq detail cls slot w).led.inbandSecond = w.led.inbandSecond := (sendEvent_keep ..).led.inbandSecond (by decide)
@[simp] theorem sendEvent_led_inbandCount (src : ℕ) (code : ℕ) (srcSeq : ℕ) (detail : ℕ) (cls : ℕ) (slot : ℕ) (w : Wall) : (sendEvent src code srcSeq detail cls slot w).led.inbandCount = w.led.inbandCount := (sendEvent_keep ..).led.inbandCount (by decide)
@[simp] theorem sendEvent_led_inbandSent (src : ℕ) (code : ℕ) (srcSeq : ℕ) (detail : ℕ) (cls : ℕ) (slot : ℕ) (w : Wall) : (sendEvent src code srcSeq detail cls slot w).led.inbandSent = w.led.inbandSent := (sendEvent_keep ..).led.inbandSent (by decide)
@[simp] theorem sendEvent_lan (src : ℕ) (code : ℕ) (srcSeq : ℕ) (detail : ℕ) (cls : ℕ) (slot : ℕ) (w : Wall) : (sendEvent src code srcSeq detail cls slot w).lan = w.lan := (sendEvent_keep ..).lan.same (by decide)
@[simp] theorem sendEvent_prt (src : ℕ) (code : ℕ) (srcSeq : ℕ) (detail : ℕ) (cls : ℕ) (slot : ℕ) (w : Wall) : (sendEvent src code srcSeq detail cls slot w).prt = w.prt := (sendEvent_keep ..).prt.same (by decide)
@[simp] theorem sendEvent_ing (src : ℕ) (code : ℕ) (srcSeq : ℕ) (detail : ℕ) (cls : ℕ) (slot : ℕ) (w : Wall) : (sendEvent src code srcSeq detail cls slot w).ing = w.ing := (sendEvent_keep ..).ing.same (by decide)
@[simp] theorem sendEvent_egr (src : ℕ) (code : ℕ) (srcSeq : ℕ) (detail : ℕ) (cls : ℕ) (slot : ℕ) (w : Wall) : (sendEvent src code srcSeq detail cls slot w).egr = w.egr := (sendEvent_keep ..).egr.same (by decide)
@[simp] theorem sendEvent_sec (src : ℕ) (code : ℕ) (srcSeq : ℕ) (detail : ℕ) (cls : ℕ) (slot : ℕ) (w : Wall) : (sendEvent src code srcSeq detail cls slot w).sec = w.sec := (sendEvent_keep ..).sec.same (by decide)
@[simp] theorem sendEvent_gra (src : ℕ) (code : ℕ) (srcSeq : ℕ) (detail : ℕ) (cls : ℕ) (slot : ℕ) (w : Wall) : (sendEvent src code srcSeq detail cls slot w).gra = w.gra := (sendEvent_keep ..).gra.same (by decide)
@[simp] theorem sendEvent_hst (src : ℕ) (code : ℕ) (srcSeq : ℕ) (detail : ℕ) (cls : ℕ) (slot : ℕ) (w : Wall) : (sendEvent src code srcSeq detail cls slot w).hst = w.hst := (sendEvent_keep ..).hst.same (by decide)
@[simp] theorem sendEvent_stw (src : ℕ) (code : ℕ) (srcSeq : ℕ) (detail : ℕ) (cls : ℕ) (slot : ℕ) (w : Wall) : (sendEvent src code srcSeq detail cls slot w).stw = w.stw := (sendEvent_keep ..).stw.same (by decide)
@[simp] theorem sendEvent_obs (src : ℕ) (code : ℕ) (srcSeq : ℕ) (detail : ℕ) (cls : ℕ) (slot : ℕ) (w : Wall) : (sendEvent src code srcSeq detail cls slot w).obs = w.obs := (sendEvent_keep ..).obs.same (by decide)
@[simp] theorem deliver_win (src : ℕ) (code : ℕ) (srcSeq : ℕ) (detail : ℕ) (cls : ℕ) (w : Wall) : (deliver src code srcSeq detail cls w).win = w.win := (deliver_keep ..).win (by decide)
@[simp] theorem deliver_freeN (src : ℕ) (code : ℕ) (srcSeq : ℕ) (detail : ℕ) (cls : ℕ) (w : Wall) : (deliver src code srcSeq detail cls w).freeN = w.freeN := (deliver_keep ..).freeN (by decide)
@[simp] theorem deliver_time (src : ℕ) (code : ℕ) (srcSeq : ℕ) (detail : ℕ) (cls : ℕ) (w : Wall) : (deliver src code srcSeq detail cls w).time = w.time := (deliver_keep ..).time.same (by decide)
@[simp] theorem deliver_bnd (src : ℕ) (code : ℕ) (srcSeq : ℕ) (detail : ℕ) (cls : ℕ) (w : Wall) : (deliver src code srcSeq detail cls w).bnd = w.bnd := (deliver_keep ..).bnd.same (by decide)
@[simp] theorem deliver_led_queue (src : ℕ) (code : ℕ) (srcSeq : ℕ) (detail : ℕ) (cls : ℕ) (w : Wall) : (deliver src code srcSeq detail cls w).led.queue = w.led.queue := (deliver_keep ..).led.queue (by decide)
@[simp] theorem deliver_led_closed (src : ℕ) (code : ℕ) (srcSeq : ℕ) (detail : ℕ) (cls : ℕ) (w : Wall) : (deliver src code srcSeq detail cls w).led.closed = w.led.closed := (deliver_keep ..).led.closed (by decide)
@[simp] theorem deliver_led_deferred (src : ℕ) (code : ℕ) (srcSeq : ℕ) (detail : ℕ) (cls : ℕ) (w : Wall) : (deliver src code srcSeq detail cls w).led.deferred = w.led.deferred := (deliver_keep ..).led.deferred (by decide)
@[simp] theorem deliver_led_store (src : ℕ) (code : ℕ) (srcSeq : ℕ) (detail : ℕ) (cls : ℕ) (w : Wall) : (deliver src code srcSeq detail cls w).led.store = w.led.store := (deliver_keep ..).led.store (by decide)
@[simp] theorem deliver_led_domGen (src : ℕ) (code : ℕ) (srcSeq : ℕ) (detail : ℕ) (cls : ℕ) (w : Wall) : (deliver src code srcSeq detail cls w).led.domGen = w.led.domGen := (deliver_keep ..).led.domGen (by decide)
@[simp] theorem deliver_led_doms (src : ℕ) (code : ℕ) (srcSeq : ℕ) (detail : ℕ) (cls : ℕ) (w : Wall) : (deliver src code srcSeq detail cls w).led.doms = w.led.doms := (deliver_keep ..).led.doms (by decide)
@[simp] theorem deliver_led_handshakes (src : ℕ) (code : ℕ) (srcSeq : ℕ) (detail : ℕ) (cls : ℕ) (w : Wall) : (deliver src code srcSeq detail cls w).led.handshakes = w.led.handshakes := (deliver_keep ..).led.handshakes (by decide)
@[simp] theorem deliver_led_cursor (src : ℕ) (code : ℕ) (srcSeq : ℕ) (detail : ℕ) (cls : ℕ) (w : Wall) : (deliver src code srcSeq detail cls w).led.cursor = w.led.cursor := (deliver_keep ..).led.cursor (by decide)
@[simp] theorem deliver_led_indicator (src : ℕ) (code : ℕ) (srcSeq : ℕ) (detail : ℕ) (cls : ℕ) (w : Wall) : (deliver src code srcSeq detail cls w).led.indicator = w.led.indicator := (deliver_keep ..).led.indicator (by decide)
@[simp] theorem deliver_led_moveDue (src : ℕ) (code : ℕ) (srcSeq : ℕ) (detail : ℕ) (cls : ℕ) (w : Wall) : (deliver src code srcSeq detail cls w).led.moveDue = w.led.moveDue := (deliver_keep ..).led.moveDue (by decide)
@[simp] theorem deliver_led_icmpSecond (src : ℕ) (code : ℕ) (srcSeq : ℕ) (detail : ℕ) (cls : ℕ) (w : Wall) : (deliver src code srcSeq detail cls w).led.icmpSecond = w.led.icmpSecond := (deliver_keep ..).led.icmpSecond (by decide)
@[simp] theorem deliver_led_icmpCount (src : ℕ) (code : ℕ) (srcSeq : ℕ) (detail : ℕ) (cls : ℕ) (w : Wall) : (deliver src code srcSeq detail cls w).led.icmpCount = w.led.icmpCount := (deliver_keep ..).led.icmpCount (by decide)
@[simp] theorem deliver_led_inbandSecond (src : ℕ) (code : ℕ) (srcSeq : ℕ) (detail : ℕ) (cls : ℕ) (w : Wall) : (deliver src code srcSeq detail cls w).led.inbandSecond = w.led.inbandSecond := (deliver_keep ..).led.inbandSecond (by decide)
@[simp] theorem deliver_led_inbandCount (src : ℕ) (code : ℕ) (srcSeq : ℕ) (detail : ℕ) (cls : ℕ) (w : Wall) : (deliver src code srcSeq detail cls w).led.inbandCount = w.led.inbandCount := (deliver_keep ..).led.inbandCount (by decide)
@[simp] theorem deliver_led_inbandSent (src : ℕ) (code : ℕ) (srcSeq : ℕ) (detail : ℕ) (cls : ℕ) (w : Wall) : (deliver src code srcSeq detail cls w).led.inbandSent = w.led.inbandSent := (deliver_keep ..).led.inbandSent (by decide)
@[simp] theorem deliver_lan (src : ℕ) (code : ℕ) (srcSeq : ℕ) (detail : ℕ) (cls : ℕ) (w : Wall) : (deliver src code srcSeq detail cls w).lan = w.lan := (deliver_keep ..).lan.same (by decide)
@[simp] theorem deliver_prt (src : ℕ) (code : ℕ) (srcSeq : ℕ) (detail : ℕ) (cls : ℕ) (w : Wall) : (deliver src code srcSeq detail cls w).prt = w.prt := (deliver_keep ..).prt.same (by decide)
@[simp] theorem deliver_ing (src : ℕ) (code : ℕ) (srcSeq : ℕ) (detail : ℕ) (cls : ℕ) (w : Wall) : (deliver src code srcSeq detail cls w).ing = w.ing := (deliver_keep ..).ing.same (by decide)
@[simp] theorem deliver_egr (src : ℕ) (code : ℕ) (srcSeq : ℕ) (detail : ℕ) (cls : ℕ) (w : Wall) : (deliver src code srcSeq detail cls w).egr = w.egr := (deliver_keep ..).egr.same (by decide)
@[simp] theorem deliver_sec (src : ℕ) (code : ℕ) (srcSeq : ℕ) (detail : ℕ) (cls : ℕ) (w : Wall) : (deliver src code srcSeq detail cls w).sec = w.sec := (deliver_keep ..).sec.same (by decide)
@[simp] theorem deliver_gra (src : ℕ) (code : ℕ) (srcSeq : ℕ) (detail : ℕ) (cls : ℕ) (w : Wall) : (deliver src code srcSeq detail cls w).gra = w.gra := (deliver_keep ..).gra.same (by decide)
@[simp] theorem deliver_hst (src : ℕ) (code : ℕ) (srcSeq : ℕ) (detail : ℕ) (cls : ℕ) (w : Wall) : (deliver src code srcSeq detail cls w).hst = w.hst := (deliver_keep ..).hst.same (by decide)
@[simp] theorem deliver_stw (src : ℕ) (code : ℕ) (srcSeq : ℕ) (detail : ℕ) (cls : ℕ) (w : Wall) : (deliver src code srcSeq detail cls w).stw = w.stw := (deliver_keep ..).stw.same (by decide)
@[simp] theorem deliver_obs (src : ℕ) (code : ℕ) (srcSeq : ℕ) (detail : ℕ) (cls : ℕ) (w : Wall) : (deliver src code srcSeq detail cls w).obs = w.obs := (deliver_keep ..).obs.same (by decide)
@[simp] theorem eventLatches_win (src : ℕ) (code : ℕ) (cls : ℕ) (w : Wall) : (eventLatches src code cls w).win = w.win := (eventLatches_keep ..).win (by decide)
@[simp] theorem eventLatches_freeN (src : ℕ) (code : ℕ) (cls : ℕ) (w : Wall) : (eventLatches src code cls w).freeN = w.freeN := (eventLatches_keep ..).freeN (by decide)
@[simp] theorem eventLatches_out (src : ℕ) (code : ℕ) (cls : ℕ) (w : Wall) : (eventLatches src code cls w).out = w.out := (eventLatches_keep ..).out (by decide)
@[simp] theorem eventLatches_time (src : ℕ) (code : ℕ) (cls : ℕ) (w : Wall) : (eventLatches src code cls w).time = w.time := (eventLatches_keep ..).time.same (by decide)
@[simp] theorem eventLatches_bnd (src : ℕ) (code : ℕ) (cls : ℕ) (w : Wall) : (eventLatches src code cls w).bnd = w.bnd := (eventLatches_keep ..).bnd.same (by decide)
@[simp] theorem eventLatches_led (src : ℕ) (code : ℕ) (cls : ℕ) (w : Wall) : (eventLatches src code cls w).led = w.led := (eventLatches_keep ..).led.same (by decide)
@[simp] theorem eventLatches_lan (src : ℕ) (code : ℕ) (cls : ℕ) (w : Wall) : (eventLatches src code cls w).lan = w.lan := (eventLatches_keep ..).lan.same (by decide)
@[simp] theorem eventLatches_prt (src : ℕ) (code : ℕ) (cls : ℕ) (w : Wall) : (eventLatches src code cls w).prt = w.prt := (eventLatches_keep ..).prt.same (by decide)
@[simp] theorem eventLatches_ing (src : ℕ) (code : ℕ) (cls : ℕ) (w : Wall) : (eventLatches src code cls w).ing = w.ing := (eventLatches_keep ..).ing.same (by decide)
@[simp] theorem eventLatches_egr (src : ℕ) (code : ℕ) (cls : ℕ) (w : Wall) : (eventLatches src code cls w).egr = w.egr := (eventLatches_keep ..).egr.same (by decide)
@[simp] theorem eventLatches_sec (src : ℕ) (code : ℕ) (cls : ℕ) (w : Wall) : (eventLatches src code cls w).sec = w.sec := (eventLatches_keep ..).sec.same (by decide)
@[simp] theorem eventLatches_gra (src : ℕ) (code : ℕ) (cls : ℕ) (w : Wall) : (eventLatches src code cls w).gra = w.gra := (eventLatches_keep ..).gra.same (by decide)
@[simp] theorem eventLatches_hst_rings (src : ℕ) (code : ℕ) (cls : ℕ) (w : Wall) : (eventLatches src code cls w).hst.rings = w.hst.rings := (eventLatches_keep ..).hst.rings (by decide)
@[simp] theorem eventLatches_hst_mills (src : ℕ) (code : ℕ) (cls : ℕ) (w : Wall) : (eventLatches src code cls w).hst.mills = w.hst.mills := (eventLatches_keep ..).hst.mills (by decide)
@[simp] theorem eventLatches_hst_turn (src : ℕ) (code : ℕ) (cls : ℕ) (w : Wall) : (eventLatches src code cls w).hst.turn = w.hst.turn := (eventLatches_keep ..).hst.turn (by decide)
@[simp] theorem eventLatches_stw (src : ℕ) (code : ℕ) (cls : ℕ) (w : Wall) : (eventLatches src code cls w).stw = w.stw := (eventLatches_keep ..).stw.same (by decide)
@[simp] theorem eventLatches_obs (src : ℕ) (code : ℕ) (cls : ℕ) (w : Wall) : (eventLatches src code cls w).obs = w.obs := (eventLatches_keep ..).obs.same (by decide)
@[simp] theorem raise_win (src : ℕ) (code : ℕ) (detail : ℕ) (cls : ℕ) (w : Wall) : (raise src code detail cls w).win = w.win := (raise_keep ..).win (by decide)
@[simp] theorem raise_freeN (src : ℕ) (code : ℕ) (detail : ℕ) (cls : ℕ) (w : Wall) : (raise src code detail cls w).freeN = w.freeN := (raise_keep ..).freeN (by decide)
@[simp] theorem raise_time (src : ℕ) (code : ℕ) (detail : ℕ) (cls : ℕ) (w : Wall) : (raise src code detail cls w).time = w.time := (raise_keep ..).time.same (by decide)
@[simp] theorem raise_bnd (src : ℕ) (code : ℕ) (detail : ℕ) (cls : ℕ) (w : Wall) : (raise src code detail cls w).bnd = w.bnd := (raise_keep ..).bnd.same (by decide)
@[simp] theorem raise_led_queue (src : ℕ) (code : ℕ) (detail : ℕ) (cls : ℕ) (w : Wall) : (raise src code detail cls w).led.queue = w.led.queue := (raise_keep ..).led.queue (by decide)
@[simp] theorem raise_led_closed (src : ℕ) (code : ℕ) (detail : ℕ) (cls : ℕ) (w : Wall) : (raise src code detail cls w).led.closed = w.led.closed := (raise_keep ..).led.closed (by decide)
@[simp] theorem raise_led_deferred (src : ℕ) (code : ℕ) (detail : ℕ) (cls : ℕ) (w : Wall) : (raise src code detail cls w).led.deferred = w.led.deferred := (raise_keep ..).led.deferred (by decide)
@[simp] theorem raise_led_store (src : ℕ) (code : ℕ) (detail : ℕ) (cls : ℕ) (w : Wall) : (raise src code detail cls w).led.store = w.led.store := (raise_keep ..).led.store (by decide)
@[simp] theorem raise_led_domGen (src : ℕ) (code : ℕ) (detail : ℕ) (cls : ℕ) (w : Wall) : (raise src code detail cls w).led.domGen = w.led.domGen := (raise_keep ..).led.domGen (by decide)
@[simp] theorem raise_led_doms (src : ℕ) (code : ℕ) (detail : ℕ) (cls : ℕ) (w : Wall) : (raise src code detail cls w).led.doms = w.led.doms := (raise_keep ..).led.doms (by decide)
@[simp] theorem raise_led_handshakes (src : ℕ) (code : ℕ) (detail : ℕ) (cls : ℕ) (w : Wall) : (raise src code detail cls w).led.handshakes = w.led.handshakes := (raise_keep ..).led.handshakes (by decide)
@[simp] theorem raise_led_cursor (src : ℕ) (code : ℕ) (detail : ℕ) (cls : ℕ) (w : Wall) : (raise src code detail cls w).led.cursor = w.led.cursor := (raise_keep ..).led.cursor (by decide)
@[simp] theorem raise_led_indicator (src : ℕ) (code : ℕ) (detail : ℕ) (cls : ℕ) (w : Wall) : (raise src code detail cls w).led.indicator = w.led.indicator := (raise_keep ..).led.indicator (by decide)
@[simp] theorem raise_led_moveDue (src : ℕ) (code : ℕ) (detail : ℕ) (cls : ℕ) (w : Wall) : (raise src code detail cls w).led.moveDue = w.led.moveDue := (raise_keep ..).led.moveDue (by decide)
@[simp] theorem raise_led_icmpSecond (src : ℕ) (code : ℕ) (detail : ℕ) (cls : ℕ) (w : Wall) : (raise src code detail cls w).led.icmpSecond = w.led.icmpSecond := (raise_keep ..).led.icmpSecond (by decide)
@[simp] theorem raise_led_icmpCount (src : ℕ) (code : ℕ) (detail : ℕ) (cls : ℕ) (w : Wall) : (raise src code detail cls w).led.icmpCount = w.led.icmpCount := (raise_keep ..).led.icmpCount (by decide)
@[simp] theorem raise_led_inbandSecond (src : ℕ) (code : ℕ) (detail : ℕ) (cls : ℕ) (w : Wall) : (raise src code detail cls w).led.inbandSecond = w.led.inbandSecond := (raise_keep ..).led.inbandSecond (by decide)
@[simp] theorem raise_led_inbandCount (src : ℕ) (code : ℕ) (detail : ℕ) (cls : ℕ) (w : Wall) : (raise src code detail cls w).led.inbandCount = w.led.inbandCount := (raise_keep ..).led.inbandCount (by decide)
@[simp] theorem raise_led_inbandSent (src : ℕ) (code : ℕ) (detail : ℕ) (cls : ℕ) (w : Wall) : (raise src code detail cls w).led.inbandSent = w.led.inbandSent := (raise_keep ..).led.inbandSent (by decide)
@[simp] theorem raise_lan (src : ℕ) (code : ℕ) (detail : ℕ) (cls : ℕ) (w : Wall) : (raise src code detail cls w).lan = w.lan := (raise_keep ..).lan.same (by decide)
@[simp] theorem raise_prt (src : ℕ) (code : ℕ) (detail : ℕ) (cls : ℕ) (w : Wall) : (raise src code detail cls w).prt = w.prt := (raise_keep ..).prt.same (by decide)
@[simp] theorem raise_ing (src : ℕ) (code : ℕ) (detail : ℕ) (cls : ℕ) (w : Wall) : (raise src code detail cls w).ing = w.ing := (raise_keep ..).ing.same (by decide)
@[simp] theorem raise_egr (src : ℕ) (code : ℕ) (detail : ℕ) (cls : ℕ) (w : Wall) : (raise src code detail cls w).egr = w.egr := (raise_keep ..).egr.same (by decide)
@[simp] theorem raise_sec (src : ℕ) (code : ℕ) (detail : ℕ) (cls : ℕ) (w : Wall) : (raise src code detail cls w).sec = w.sec := (raise_keep ..).sec.same (by decide)
@[simp] theorem raise_gra (src : ℕ) (code : ℕ) (detail : ℕ) (cls : ℕ) (w : Wall) : (raise src code detail cls w).gra = w.gra := (raise_keep ..).gra.same (by decide)
@[simp] theorem raise_hst_rings (src : ℕ) (code : ℕ) (detail : ℕ) (cls : ℕ) (w : Wall) : (raise src code detail cls w).hst.rings = w.hst.rings := (raise_keep ..).hst.rings (by decide)
@[simp] theorem raise_hst_mills (src : ℕ) (code : ℕ) (detail : ℕ) (cls : ℕ) (w : Wall) : (raise src code detail cls w).hst.mills = w.hst.mills := (raise_keep ..).hst.mills (by decide)
@[simp] theorem raise_hst_turn (src : ℕ) (code : ℕ) (detail : ℕ) (cls : ℕ) (w : Wall) : (raise src code detail cls w).hst.turn = w.hst.turn := (raise_keep ..).hst.turn (by decide)
@[simp] theorem raise_stw (src : ℕ) (code : ℕ) (detail : ℕ) (cls : ℕ) (w : Wall) : (raise src code detail cls w).stw = w.stw := (raise_keep ..).stw.same (by decide)
@[simp] theorem raise_obs_samples (src : ℕ) (code : ℕ) (detail : ℕ) (cls : ℕ) (w : Wall) : (raise src code detail cls w).obs.samples = w.obs.samples := (raise_keep ..).obs.samples (by decide)
@[simp] theorem raise_obs_sampleSeq (src : ℕ) (code : ℕ) (detail : ℕ) (cls : ℕ) (w : Wall) : (raise src code detail cls w).obs.sampleSeq = w.obs.sampleSeq := (raise_keep ..).obs.sampleSeq (by decide)
@[simp] theorem raise_obs_high (src : ℕ) (code : ℕ) (detail : ℕ) (cls : ℕ) (w : Wall) : (raise src code detail cls w).obs.high = w.obs.high := (raise_keep ..).obs.high (by decide)
@[simp] theorem raise_obs_tally (src : ℕ) (code : ℕ) (detail : ℕ) (cls : ℕ) (w : Wall) : (raise src code detail cls w).obs.tally = w.obs.tally := (raise_keep ..).obs.tally (by decide)
@[simp] theorem raise_obs_tallyRecs (src : ℕ) (code : ℕ) (detail : ℕ) (cls : ℕ) (w : Wall) : (raise src code detail cls w).obs.tallyRecs = w.obs.tallyRecs := (raise_keep ..).obs.tallyRecs (by decide)
@[simp] theorem raise_obs_tallySeq (src : ℕ) (code : ℕ) (detail : ℕ) (cls : ℕ) (w : Wall) : (raise src code detail cls w).obs.tallySeq = w.obs.tallySeq := (raise_keep ..).obs.tallySeq (by decide)
@[simp] theorem raise_obs_books (src : ℕ) (code : ℕ) (detail : ℕ) (cls : ℕ) (w : Wall) : (raise src code detail cls w).obs.books = w.obs.books := (raise_keep ..).obs.books (by decide)
@[simp] theorem raise_obs_booksDue (src : ℕ) (code : ℕ) (detail : ℕ) (cls : ℕ) (w : Wall) : (raise src code detail cls w).obs.booksDue = w.obs.booksDue := (raise_keep ..).obs.booksDue (by decide)
@[simp] theorem raise_obs_illegalS (src : ℕ) (code : ℕ) (detail : ℕ) (cls : ℕ) (w : Wall) : (raise src code detail cls w).obs.illegalS = w.obs.illegalS := (raise_keep ..).obs.illegalS (by decide)
@[simp] theorem respond_freeN (who : Who) (status : ℕ) (data : Option (List Byte)) (w : Wall) : (respond who status data w).freeN = w.freeN := (respond_keep ..).freeN (by decide)
@[simp] theorem respond_time (who : Who) (status : ℕ) (data : Option (List Byte)) (w : Wall) : (respond who status data w).time = w.time := (respond_keep ..).time.same (by decide)
@[simp] theorem respond_bnd (who : Who) (status : ℕ) (data : Option (List Byte)) (w : Wall) : (respond who status data w).bnd = w.bnd := (respond_keep ..).bnd.same (by decide)
@[simp] theorem respond_led_queue (who : Who) (status : ℕ) (data : Option (List Byte)) (w : Wall) : (respond who status data w).led.queue = w.led.queue := (respond_keep ..).led.queue (by decide)
@[simp] theorem respond_led_closed (who : Who) (status : ℕ) (data : Option (List Byte)) (w : Wall) : (respond who status data w).led.closed = w.led.closed := (respond_keep ..).led.closed (by decide)
@[simp] theorem respond_led_deferred (who : Who) (status : ℕ) (data : Option (List Byte)) (w : Wall) : (respond who status data w).led.deferred = w.led.deferred := (respond_keep ..).led.deferred (by decide)
@[simp] theorem respond_led_store (who : Who) (status : ℕ) (data : Option (List Byte)) (w : Wall) : (respond who status data w).led.store = w.led.store := (respond_keep ..).led.store (by decide)
@[simp] theorem respond_led_domGen (who : Who) (status : ℕ) (data : Option (List Byte)) (w : Wall) : (respond who status data w).led.domGen = w.led.domGen := (respond_keep ..).led.domGen (by decide)
@[simp] theorem respond_led_doms (who : Who) (status : ℕ) (data : Option (List Byte)) (w : Wall) : (respond who status data w).led.doms = w.led.doms := (respond_keep ..).led.doms (by decide)
@[simp] theorem respond_led_handshakes (who : Who) (status : ℕ) (data : Option (List Byte)) (w : Wall) : (respond who status data w).led.handshakes = w.led.handshakes := (respond_keep ..).led.handshakes (by decide)
@[simp] theorem respond_led_cursor (who : Who) (status : ℕ) (data : Option (List Byte)) (w : Wall) : (respond who status data w).led.cursor = w.led.cursor := (respond_keep ..).led.cursor (by decide)
@[simp] theorem respond_led_indicator (who : Who) (status : ℕ) (data : Option (List Byte)) (w : Wall) : (respond who status data w).led.indicator = w.led.indicator := (respond_keep ..).led.indicator (by decide)
@[simp] theorem respond_led_moveDue (who : Who) (status : ℕ) (data : Option (List Byte)) (w : Wall) : (respond who status data w).led.moveDue = w.led.moveDue := (respond_keep ..).led.moveDue (by decide)
@[simp] theorem respond_led_icmpSecond (who : Who) (status : ℕ) (data : Option (List Byte)) (w : Wall) : (respond who status data w).led.icmpSecond = w.led.icmpSecond := (respond_keep ..).led.icmpSecond (by decide)
@[simp] theorem respond_led_icmpCount (who : Who) (status : ℕ) (data : Option (List Byte)) (w : Wall) : (respond who status data w).led.icmpCount = w.led.icmpCount := (respond_keep ..).led.icmpCount (by decide)
@[simp] theorem respond_led_inbandSecond (who : Who) (status : ℕ) (data : Option (List Byte)) (w : Wall) : (respond who status data w).led.inbandSecond = w.led.inbandSecond := (respond_keep ..).led.inbandSecond (by decide)
@[simp] theorem respond_led_inbandCount (who : Who) (status : ℕ) (data : Option (List Byte)) (w : Wall) : (respond who status data w).led.inbandCount = w.led.inbandCount := (respond_keep ..).led.inbandCount (by decide)
@[simp] theorem respond_led_inbandSent (who : Who) (status : ℕ) (data : Option (List Byte)) (w : Wall) : (respond who status data w).led.inbandSent = w.led.inbandSent := (respond_keep ..).led.inbandSent (by decide)
@[simp] theorem respond_lan (who : Who) (status : ℕ) (data : Option (List Byte)) (w : Wall) : (respond who status data w).lan = w.lan := (respond_keep ..).lan.same (by decide)
@[simp] theorem respond_prt (who : Who) (status : ℕ) (data : Option (List Byte)) (w : Wall) : (respond who status data w).prt = w.prt := (respond_keep ..).prt.same (by decide)
@[simp] theorem respond_ing (who : Who) (status : ℕ) (data : Option (List Byte)) (w : Wall) : (respond who status data w).ing = w.ing := (respond_keep ..).ing.same (by decide)
@[simp] theorem respond_egr (who : Who) (status : ℕ) (data : Option (List Byte)) (w : Wall) : (respond who status data w).egr = w.egr := (respond_keep ..).egr.same (by decide)
@[simp] theorem respond_sec (who : Who) (status : ℕ) (data : Option (List Byte)) (w : Wall) : (respond who status data w).sec = w.sec := (respond_keep ..).sec.same (by decide)
@[simp] theorem respond_gra (who : Who) (status : ℕ) (data : Option (List Byte)) (w : Wall) : (respond who status data w).gra = w.gra := (respond_keep ..).gra.same (by decide)
@[simp] theorem respond_hst_rings (who : Who) (status : ℕ) (data : Option (List Byte)) (w : Wall) : (respond who status data w).hst.rings = w.hst.rings := (respond_keep ..).hst.rings (by decide)
@[simp] theorem respond_hst_mills (who : Who) (status : ℕ) (data : Option (List Byte)) (w : Wall) : (respond who status data w).hst.mills = w.hst.mills := (respond_keep ..).hst.mills (by decide)
@[simp] theorem respond_hst_turn (who : Who) (status : ℕ) (data : Option (List Byte)) (w : Wall) : (respond who status data w).hst.turn = w.hst.turn := (respond_keep ..).hst.turn (by decide)
@[simp] theorem respond_stw (who : Who) (status : ℕ) (data : Option (List Byte)) (w : Wall) : (respond who status data w).stw = w.stw := (respond_keep ..).stw.same (by decide)
@[simp] theorem respond_obs (who : Who) (status : ℕ) (data : Option (List Byte)) (w : Wall) : (respond who status data w).obs = w.obs := (respond_keep ..).obs.same (by decide)
@[simp] theorem respondG_freeN (who : Who) (status : ℕ) (gen : ℕ) (data : Option (List Byte)) (w : Wall) : (respondG who status gen data w).freeN = w.freeN := (respondG_keep ..).freeN (by decide)
@[simp] theorem respondG_time (who : Who) (status : ℕ) (gen : ℕ) (data : Option (List Byte)) (w : Wall) : (respondG who status gen data w).time = w.time := (respondG_keep ..).time.same (by decide)
@[simp] theorem respondG_bnd (who : Who) (status : ℕ) (gen : ℕ) (data : Option (List Byte)) (w : Wall) : (respondG who status gen data w).bnd = w.bnd := (respondG_keep ..).bnd.same (by decide)
@[simp] theorem respondG_led_queue (who : Who) (status : ℕ) (gen : ℕ) (data : Option (List Byte)) (w : Wall) : (respondG who status gen data w).led.queue = w.led.queue := (respondG_keep ..).led.queue (by decide)
@[simp] theorem respondG_led_closed (who : Who) (status : ℕ) (gen : ℕ) (data : Option (List Byte)) (w : Wall) : (respondG who status gen data w).led.closed = w.led.closed := (respondG_keep ..).led.closed (by decide)
@[simp] theorem respondG_led_deferred (who : Who) (status : ℕ) (gen : ℕ) (data : Option (List Byte)) (w : Wall) : (respondG who status gen data w).led.deferred = w.led.deferred := (respondG_keep ..).led.deferred (by decide)
@[simp] theorem respondG_led_store (who : Who) (status : ℕ) (gen : ℕ) (data : Option (List Byte)) (w : Wall) : (respondG who status gen data w).led.store = w.led.store := (respondG_keep ..).led.store (by decide)
@[simp] theorem respondG_led_domGen (who : Who) (status : ℕ) (gen : ℕ) (data : Option (List Byte)) (w : Wall) : (respondG who status gen data w).led.domGen = w.led.domGen := (respondG_keep ..).led.domGen (by decide)
@[simp] theorem respondG_led_doms (who : Who) (status : ℕ) (gen : ℕ) (data : Option (List Byte)) (w : Wall) : (respondG who status gen data w).led.doms = w.led.doms := (respondG_keep ..).led.doms (by decide)
@[simp] theorem respondG_led_handshakes (who : Who) (status : ℕ) (gen : ℕ) (data : Option (List Byte)) (w : Wall) : (respondG who status gen data w).led.handshakes = w.led.handshakes := (respondG_keep ..).led.handshakes (by decide)
@[simp] theorem respondG_led_cursor (who : Who) (status : ℕ) (gen : ℕ) (data : Option (List Byte)) (w : Wall) : (respondG who status gen data w).led.cursor = w.led.cursor := (respondG_keep ..).led.cursor (by decide)
@[simp] theorem respondG_led_indicator (who : Who) (status : ℕ) (gen : ℕ) (data : Option (List Byte)) (w : Wall) : (respondG who status gen data w).led.indicator = w.led.indicator := (respondG_keep ..).led.indicator (by decide)
@[simp] theorem respondG_led_moveDue (who : Who) (status : ℕ) (gen : ℕ) (data : Option (List Byte)) (w : Wall) : (respondG who status gen data w).led.moveDue = w.led.moveDue := (respondG_keep ..).led.moveDue (by decide)
@[simp] theorem respondG_led_icmpSecond (who : Who) (status : ℕ) (gen : ℕ) (data : Option (List Byte)) (w : Wall) : (respondG who status gen data w).led.icmpSecond = w.led.icmpSecond := (respondG_keep ..).led.icmpSecond (by decide)
@[simp] theorem respondG_led_icmpCount (who : Who) (status : ℕ) (gen : ℕ) (data : Option (List Byte)) (w : Wall) : (respondG who status gen data w).led.icmpCount = w.led.icmpCount := (respondG_keep ..).led.icmpCount (by decide)
@[simp] theorem respondG_led_inbandSecond (who : Who) (status : ℕ) (gen : ℕ) (data : Option (List Byte)) (w : Wall) : (respondG who status gen data w).led.inbandSecond = w.led.inbandSecond := (respondG_keep ..).led.inbandSecond (by decide)
@[simp] theorem respondG_led_inbandCount (who : Who) (status : ℕ) (gen : ℕ) (data : Option (List Byte)) (w : Wall) : (respondG who status gen data w).led.inbandCount = w.led.inbandCount := (respondG_keep ..).led.inbandCount (by decide)
@[simp] theorem respondG_led_inbandSent (who : Who) (status : ℕ) (gen : ℕ) (data : Option (List Byte)) (w : Wall) : (respondG who status gen data w).led.inbandSent = w.led.inbandSent := (respondG_keep ..).led.inbandSent (by decide)
@[simp] theorem respondG_lan (who : Who) (status : ℕ) (gen : ℕ) (data : Option (List Byte)) (w : Wall) : (respondG who status gen data w).lan = w.lan := (respondG_keep ..).lan.same (by decide)
@[simp] theorem respondG_prt (who : Who) (status : ℕ) (gen : ℕ) (data : Option (List Byte)) (w : Wall) : (respondG who status gen data w).prt = w.prt := (respondG_keep ..).prt.same (by decide)
@[simp] theorem respondG_ing (who : Who) (status : ℕ) (gen : ℕ) (data : Option (List Byte)) (w : Wall) : (respondG who status gen data w).ing = w.ing := (respondG_keep ..).ing.same (by decide)
@[simp] theorem respondG_egr (who : Who) (status : ℕ) (gen : ℕ) (data : Option (List Byte)) (w : Wall) : (respondG who status gen data w).egr = w.egr := (respondG_keep ..).egr.same (by decide)
@[simp] theorem respondG_sec (who : Who) (status : ℕ) (gen : ℕ) (data : Option (List Byte)) (w : Wall) : (respondG who status gen data w).sec = w.sec := (respondG_keep ..).sec.same (by decide)
@[simp] theorem respondG_gra (who : Who) (status : ℕ) (gen : ℕ) (data : Option (List Byte)) (w : Wall) : (respondG who status gen data w).gra = w.gra := (respondG_keep ..).gra.same (by decide)
@[simp] theorem respondG_hst_rings (who : Who) (status : ℕ) (gen : ℕ) (data : Option (List Byte)) (w : Wall) : (respondG who status gen data w).hst.rings = w.hst.rings := (respondG_keep ..).hst.rings (by decide)
@[simp] theorem respondG_hst_mills (who : Who) (status : ℕ) (gen : ℕ) (data : Option (List Byte)) (w : Wall) : (respondG who status gen data w).hst.mills = w.hst.mills := (respondG_keep ..).hst.mills (by decide)
@[simp] theorem respondG_hst_turn (who : Who) (status : ℕ) (gen : ℕ) (data : Option (List Byte)) (w : Wall) : (respondG who status gen data w).hst.turn = w.hst.turn := (respondG_keep ..).hst.turn (by decide)
@[simp] theorem respondG_stw (who : Who) (status : ℕ) (gen : ℕ) (data : Option (List Byte)) (w : Wall) : (respondG who status gen data w).stw = w.stw := (respondG_keep ..).stw.same (by decide)
@[simp] theorem respondG_obs (who : Who) (status : ℕ) (gen : ℕ) (data : Option (List Byte)) (w : Wall) : (respondG who status gen data w).obs = w.obs := (respondG_keep ..).obs.same (by decide)
@[simp] theorem releaseDeferred_freeN (on : WaitFor) (status : ℕ) (data : Option (List Byte)) (w : Wall) : (releaseDeferred on status data w).freeN = w.freeN := (releaseDeferred_keep ..).freeN (by decide)
@[simp] theorem releaseDeferred_time (on : WaitFor) (status : ℕ) (data : Option (List Byte)) (w : Wall) : (releaseDeferred on status data w).time = w.time := (releaseDeferred_keep ..).time.same (by decide)
@[simp] theorem releaseDeferred_bnd (on : WaitFor) (status : ℕ) (data : Option (List Byte)) (w : Wall) : (releaseDeferred on status data w).bnd = w.bnd := (releaseDeferred_keep ..).bnd.same (by decide)
@[simp] theorem releaseDeferred_led_queue (on : WaitFor) (status : ℕ) (data : Option (List Byte)) (w : Wall) : (releaseDeferred on status data w).led.queue = w.led.queue := (releaseDeferred_keep ..).led.queue (by decide)
@[simp] theorem releaseDeferred_led_closed (on : WaitFor) (status : ℕ) (data : Option (List Byte)) (w : Wall) : (releaseDeferred on status data w).led.closed = w.led.closed := (releaseDeferred_keep ..).led.closed (by decide)
@[simp] theorem releaseDeferred_led_store (on : WaitFor) (status : ℕ) (data : Option (List Byte)) (w : Wall) : (releaseDeferred on status data w).led.store = w.led.store := (releaseDeferred_keep ..).led.store (by decide)
@[simp] theorem releaseDeferred_led_domGen (on : WaitFor) (status : ℕ) (data : Option (List Byte)) (w : Wall) : (releaseDeferred on status data w).led.domGen = w.led.domGen := (releaseDeferred_keep ..).led.domGen (by decide)
@[simp] theorem releaseDeferred_led_doms (on : WaitFor) (status : ℕ) (data : Option (List Byte)) (w : Wall) : (releaseDeferred on status data w).led.doms = w.led.doms := (releaseDeferred_keep ..).led.doms (by decide)
@[simp] theorem releaseDeferred_led_handshakes (on : WaitFor) (status : ℕ) (data : Option (List Byte)) (w : Wall) : (releaseDeferred on status data w).led.handshakes = w.led.handshakes := (releaseDeferred_keep ..).led.handshakes (by decide)
@[simp] theorem releaseDeferred_led_cursor (on : WaitFor) (status : ℕ) (data : Option (List Byte)) (w : Wall) : (releaseDeferred on status data w).led.cursor = w.led.cursor := (releaseDeferred_keep ..).led.cursor (by decide)
@[simp] theorem releaseDeferred_led_indicator (on : WaitFor) (status : ℕ) (data : Option (List Byte)) (w : Wall) : (releaseDeferred on status data w).led.indicator = w.led.indicator := (releaseDeferred_keep ..).led.indicator (by decide)
@[simp] theorem releaseDeferred_led_moveDue (on : WaitFor) (status : ℕ) (data : Option (List Byte)) (w : Wall) : (releaseDeferred on status data w).led.moveDue = w.led.moveDue := (releaseDeferred_keep ..).led.moveDue (by decide)
@[simp] theorem releaseDeferred_led_icmpSecond (on : WaitFor) (status : ℕ) (data : Option (List Byte)) (w : Wall) : (releaseDeferred on status data w).led.icmpSecond = w.led.icmpSecond := (releaseDeferred_keep ..).led.icmpSecond (by decide)
@[simp] theorem releaseDeferred_led_icmpCount (on : WaitFor) (status : ℕ) (data : Option (List Byte)) (w : Wall) : (releaseDeferred on status data w).led.icmpCount = w.led.icmpCount := (releaseDeferred_keep ..).led.icmpCount (by decide)
@[simp] theorem releaseDeferred_led_inbandSecond (on : WaitFor) (status : ℕ) (data : Option (List Byte)) (w : Wall) : (releaseDeferred on status data w).led.inbandSecond = w.led.inbandSecond := (releaseDeferred_keep ..).led.inbandSecond (by decide)
@[simp] theorem releaseDeferred_led_inbandCount (on : WaitFor) (status : ℕ) (data : Option (List Byte)) (w : Wall) : (releaseDeferred on status data w).led.inbandCount = w.led.inbandCount := (releaseDeferred_keep ..).led.inbandCount (by decide)
@[simp] theorem releaseDeferred_led_inbandSent (on : WaitFor) (status : ℕ) (data : Option (List Byte)) (w : Wall) : (releaseDeferred on status data w).led.inbandSent = w.led.inbandSent := (releaseDeferred_keep ..).led.inbandSent (by decide)
@[simp] theorem releaseDeferred_lan (on : WaitFor) (status : ℕ) (data : Option (List Byte)) (w : Wall) : (releaseDeferred on status data w).lan = w.lan := (releaseDeferred_keep ..).lan.same (by decide)
@[simp] theorem releaseDeferred_prt (on : WaitFor) (status : ℕ) (data : Option (List Byte)) (w : Wall) : (releaseDeferred on status data w).prt = w.prt := (releaseDeferred_keep ..).prt.same (by decide)
@[simp] theorem releaseDeferred_ing (on : WaitFor) (status : ℕ) (data : Option (List Byte)) (w : Wall) : (releaseDeferred on status data w).ing = w.ing := (releaseDeferred_keep ..).ing.same (by decide)
@[simp] theorem releaseDeferred_egr (on : WaitFor) (status : ℕ) (data : Option (List Byte)) (w : Wall) : (releaseDeferred on status data w).egr = w.egr := (releaseDeferred_keep ..).egr.same (by decide)
@[simp] theorem releaseDeferred_sec (on : WaitFor) (status : ℕ) (data : Option (List Byte)) (w : Wall) : (releaseDeferred on status data w).sec = w.sec := (releaseDeferred_keep ..).sec.same (by decide)
@[simp] theorem releaseDeferred_gra (on : WaitFor) (status : ℕ) (data : Option (List Byte)) (w : Wall) : (releaseDeferred on status data w).gra = w.gra := (releaseDeferred_keep ..).gra.same (by decide)
@[simp] theorem releaseDeferred_hst_rings (on : WaitFor) (status : ℕ) (data : Option (List Byte)) (w : Wall) : (releaseDeferred on status data w).hst.rings = w.hst.rings := (releaseDeferred_keep ..).hst.rings (by decide)
@[simp] theorem releaseDeferred_hst_mills (on : WaitFor) (status : ℕ) (data : Option (List Byte)) (w : Wall) : (releaseDeferred on status data w).hst.mills = w.hst.mills := (releaseDeferred_keep ..).hst.mills (by decide)
@[simp] theorem releaseDeferred_hst_turn (on : WaitFor) (status : ℕ) (data : Option (List Byte)) (w : Wall) : (releaseDeferred on status data w).hst.turn = w.hst.turn := (releaseDeferred_keep ..).hst.turn (by decide)
@[simp] theorem releaseDeferred_stw (on : WaitFor) (status : ℕ) (data : Option (List Byte)) (w : Wall) : (releaseDeferred on status data w).stw = w.stw := (releaseDeferred_keep ..).stw.same (by decide)
@[simp] theorem releaseDeferred_obs (on : WaitFor) (status : ℕ) (data : Option (List Byte)) (w : Wall) : (releaseDeferred on status data w).obs = w.obs := (releaseDeferred_keep ..).obs.same (by decide)
@[simp] theorem setIndicator_regs (who : Who) (b : Bool) (w : Wall) : (setIndicator who b w).regs = w.regs := (setIndicator_keep ..).regs (by decide)
@[simp] theorem setIndicator_win (who : Who) (b : Bool) (w : Wall) : (setIndicator who b w).win = w.win := (setIndicator_keep ..).win (by decide)
@[simp] theorem setIndicator_freeN (who : Who) (b : Bool) (w : Wall) : (setIndicator who b w).freeN = w.freeN := (setIndicator_keep ..).freeN (by decide)
@[simp] theorem setIndicator_out (who : Who) (b : Bool) (w : Wall) : (setIndicator who b w).out = w.out := (setIndicator_keep ..).out (by decide)
@[simp] theorem setIndicator_get (who : Who) (b : Bool) (w : Wall) (o : Reg) : (setIndicator who b w).get o = w.get o := by unfold Wall.get; rw [setIndicator_regs]
@[simp] theorem setIndicator_time (who : Who) (b : Bool) (w : Wall) : (setIndicator who b w).time = w.time := (setIndicator_keep ..).time.same (by decide)
@[simp] theorem setIndicator_bnd (who : Who) (b : Bool) (w : Wall) : (setIndicator who b w).bnd = w.bnd := (setIndicator_keep ..).bnd.same (by decide)
@[simp] theorem setIndicator_led_queue (who : Who) (b : Bool) (w : Wall) : (setIndicator who b w).led.queue = w.led.queue := (setIndicator_keep ..).led.queue (by decide)
@[simp] theorem setIndicator_led_closed (who : Who) (b : Bool) (w : Wall) : (setIndicator who b w).led.closed = w.led.closed := (setIndicator_keep ..).led.closed (by decide)
@[simp] theorem setIndicator_led_deferred (who : Who) (b : Bool) (w : Wall) : (setIndicator who b w).led.deferred = w.led.deferred := (setIndicator_keep ..).led.deferred (by decide)
@[simp] theorem setIndicator_led_store (who : Who) (b : Bool) (w : Wall) : (setIndicator who b w).led.store = w.led.store := (setIndicator_keep ..).led.store (by decide)
@[simp] theorem setIndicator_led_transfers (who : Who) (b : Bool) (w : Wall) : (setIndicator who b w).led.transfers = w.led.transfers := (setIndicator_keep ..).led.transfers (by decide)
@[simp] theorem setIndicator_led_domGen (who : Who) (b : Bool) (w : Wall) : (setIndicator who b w).led.domGen = w.led.domGen := (setIndicator_keep ..).led.domGen (by decide)
@[simp] theorem setIndicator_led_doms (who : Who) (b : Bool) (w : Wall) : (setIndicator who b w).led.doms = w.led.doms := (setIndicator_keep ..).led.doms (by decide)
@[simp] theorem setIndicator_led_handshakes (who : Who) (b : Bool) (w : Wall) : (setIndicator who b w).led.handshakes = w.led.handshakes := (setIndicator_keep ..).led.handshakes (by decide)
@[simp] theorem setIndicator_led_cursor (who : Who) (b : Bool) (w : Wall) : (setIndicator who b w).led.cursor = w.led.cursor := (setIndicator_keep ..).led.cursor (by decide)
@[simp] theorem setIndicator_led_moveDue (who : Who) (b : Bool) (w : Wall) : (setIndicator who b w).led.moveDue = w.led.moveDue := (setIndicator_keep ..).led.moveDue (by decide)
@[simp] theorem setIndicator_led_icmpSecond (who : Who) (b : Bool) (w : Wall) : (setIndicator who b w).led.icmpSecond = w.led.icmpSecond := (setIndicator_keep ..).led.icmpSecond (by decide)
@[simp] theorem setIndicator_led_icmpCount (who : Who) (b : Bool) (w : Wall) : (setIndicator who b w).led.icmpCount = w.led.icmpCount := (setIndicator_keep ..).led.icmpCount (by decide)
@[simp] theorem setIndicator_led_inbandSecond (who : Who) (b : Bool) (w : Wall) : (setIndicator who b w).led.inbandSecond = w.led.inbandSecond := (setIndicator_keep ..).led.inbandSecond (by decide)
@[simp] theorem setIndicator_led_inbandCount (who : Who) (b : Bool) (w : Wall) : (setIndicator who b w).led.inbandCount = w.led.inbandCount := (setIndicator_keep ..).led.inbandCount (by decide)
@[simp] theorem setIndicator_led_inbandSent (who : Who) (b : Bool) (w : Wall) : (setIndicator who b w).led.inbandSent = w.led.inbandSent := (setIndicator_keep ..).led.inbandSent (by decide)
@[simp] theorem setIndicator_lan (who : Who) (b : Bool) (w : Wall) : (setIndicator who b w).lan = w.lan := (setIndicator_keep ..).lan.same (by decide)
@[simp] theorem setIndicator_prt (who : Who) (b : Bool) (w : Wall) : (setIndicator who b w).prt = w.prt := (setIndicator_keep ..).prt.same (by decide)
@[simp] theorem setIndicator_ing (who : Who) (b : Bool) (w : Wall) : (setIndicator who b w).ing = w.ing := (setIndicator_keep ..).ing.same (by decide)
@[simp] theorem setIndicator_egr (who : Who) (b : Bool) (w : Wall) : (setIndicator who b w).egr = w.egr := (setIndicator_keep ..).egr.same (by decide)
@[simp] theorem setIndicator_sec (who : Who) (b : Bool) (w : Wall) : (setIndicator who b w).sec = w.sec := (setIndicator_keep ..).sec.same (by decide)
@[simp] theorem setIndicator_gra (who : Who) (b : Bool) (w : Wall) : (setIndicator who b w).gra = w.gra := (setIndicator_keep ..).gra.same (by decide)
@[simp] theorem setIndicator_hst (who : Who) (b : Bool) (w : Wall) : (setIndicator who b w).hst = w.hst := (setIndicator_keep ..).hst.same (by decide)
@[simp] theorem setIndicator_stw (who : Who) (b : Bool) (w : Wall) : (setIndicator who b w).stw = w.stw := (setIndicator_keep ..).stw.same (by decide)
@[simp] theorem setIndicator_obs (who : Who) (b : Bool) (w : Wall) : (setIndicator who b w).obs = w.obs := (setIndicator_keep ..).obs.same (by decide)
@[simp] theorem pcCount_win (b : ℕ) (ev : ℕ) (n : ℕ) (sp : Option ℕ) (tc : Option ℕ) (w : Wall) : (pcCount b ev n sp tc w).win = w.win := (pcCount_keep ..).win (by decide)
@[simp] theorem pcCount_freeN (b : ℕ) (ev : ℕ) (n : ℕ) (sp : Option ℕ) (tc : Option ℕ) (w : Wall) : (pcCount b ev n sp tc w).freeN = w.freeN := (pcCount_keep ..).freeN (by decide)
@[simp] theorem pcCount_out (b : ℕ) (ev : ℕ) (n : ℕ) (sp : Option ℕ) (tc : Option ℕ) (w : Wall) : (pcCount b ev n sp tc w).out = w.out := (pcCount_keep ..).out (by decide)
@[simp] theorem pcCount_time (b : ℕ) (ev : ℕ) (n : ℕ) (sp : Option ℕ) (tc : Option ℕ) (w : Wall) : (pcCount b ev n sp tc w).time = w.time := (pcCount_keep ..).time.same (by decide)
@[simp] theorem pcCount_bnd (b : ℕ) (ev : ℕ) (n : ℕ) (sp : Option ℕ) (tc : Option ℕ) (w : Wall) : (pcCount b ev n sp tc w).bnd = w.bnd := (pcCount_keep ..).bnd.same (by decide)
@[simp] theorem pcCount_led (b : ℕ) (ev : ℕ) (n : ℕ) (sp : Option ℕ) (tc : Option ℕ) (w : Wall) : (pcCount b ev n sp tc w).led = w.led := (pcCount_keep ..).led.same (by decide)
@[simp] theorem pcCount_lan (b : ℕ) (ev : ℕ) (n : ℕ) (sp : Option ℕ) (tc : Option ℕ) (w : Wall) : (pcCount b ev n sp tc w).lan = w.lan := (pcCount_keep ..).lan.same (by decide)
@[simp] theorem pcCount_prt (b : ℕ) (ev : ℕ) (n : ℕ) (sp : Option ℕ) (tc : Option ℕ) (w : Wall) : (pcCount b ev n sp tc w).prt = w.prt := (pcCount_keep ..).prt.same (by decide)
@[simp] theorem pcCount_ing (b : ℕ) (ev : ℕ) (n : ℕ) (sp : Option ℕ) (tc : Option ℕ) (w : Wall) : (pcCount b ev n sp tc w).ing = w.ing := (pcCount_keep ..).ing.same (by decide)
@[simp] theorem pcCount_egr (b : ℕ) (ev : ℕ) (n : ℕ) (sp : Option ℕ) (tc : Option ℕ) (w : Wall) : (pcCount b ev n sp tc w).egr = w.egr := (pcCount_keep ..).egr.same (by decide)
@[simp] theorem pcCount_sec (b : ℕ) (ev : ℕ) (n : ℕ) (sp : Option ℕ) (tc : Option ℕ) (w : Wall) : (pcCount b ev n sp tc w).sec = w.sec := (pcCount_keep ..).sec.same (by decide)
@[simp] theorem pcCount_gra (b : ℕ) (ev : ℕ) (n : ℕ) (sp : Option ℕ) (tc : Option ℕ) (w : Wall) : (pcCount b ev n sp tc w).gra = w.gra := (pcCount_keep ..).gra.same (by decide)
@[simp] theorem pcCount_hst_rings (b : ℕ) (ev : ℕ) (n : ℕ) (sp : Option ℕ) (tc : Option ℕ) (w : Wall) : (pcCount b ev n sp tc w).hst.rings = w.hst.rings := (pcCount_keep ..).hst.rings (by decide)
@[simp] theorem pcCount_hst_mills (b : ℕ) (ev : ℕ) (n : ℕ) (sp : Option ℕ) (tc : Option ℕ) (w : Wall) : (pcCount b ev n sp tc w).hst.mills = w.hst.mills := (pcCount_keep ..).hst.mills (by decide)
@[simp] theorem pcCount_hst_turn (b : ℕ) (ev : ℕ) (n : ℕ) (sp : Option ℕ) (tc : Option ℕ) (w : Wall) : (pcCount b ev n sp tc w).hst.turn = w.hst.turn := (pcCount_keep ..).hst.turn (by decide)
@[simp] theorem pcCount_stw (b : ℕ) (ev : ℕ) (n : ℕ) (sp : Option ℕ) (tc : Option ℕ) (w : Wall) : (pcCount b ev n sp tc w).stw = w.stw := (pcCount_keep ..).stw.same (by decide)
@[simp] theorem pcCount_obs_day (b : ℕ) (ev : ℕ) (n : ℕ) (sp : Option ℕ) (tc : Option ℕ) (w : Wall) : (pcCount b ev n sp tc w).obs.day = w.obs.day := (pcCount_keep ..).obs.day (by decide)
@[simp] theorem pcCount_obs_srcSeq (b : ℕ) (ev : ℕ) (n : ℕ) (sp : Option ℕ) (tc : Option ℕ) (w : Wall) : (pcCount b ev n sp tc w).obs.srcSeq = w.obs.srcSeq := (pcCount_keep ..).obs.srcSeq (by decide)
@[simp] theorem pcCount_obs_high (b : ℕ) (ev : ℕ) (n : ℕ) (sp : Option ℕ) (tc : Option ℕ) (w : Wall) : (pcCount b ev n sp tc w).obs.high = w.obs.high := (pcCount_keep ..).obs.high (by decide)
@[simp] theorem pcCount_obs_tally (b : ℕ) (ev : ℕ) (n : ℕ) (sp : Option ℕ) (tc : Option ℕ) (w : Wall) : (pcCount b ev n sp tc w).obs.tally = w.obs.tally := (pcCount_keep ..).obs.tally (by decide)
@[simp] theorem pcCount_obs_tallyRecs (b : ℕ) (ev : ℕ) (n : ℕ) (sp : Option ℕ) (tc : Option ℕ) (w : Wall) : (pcCount b ev n sp tc w).obs.tallyRecs = w.obs.tallyRecs := (pcCount_keep ..).obs.tallyRecs (by decide)
@[simp] theorem pcCount_obs_tallySeq (b : ℕ) (ev : ℕ) (n : ℕ) (sp : Option ℕ) (tc : Option ℕ) (w : Wall) : (pcCount b ev n sp tc w).obs.tallySeq = w.obs.tallySeq := (pcCount_keep ..).obs.tallySeq (by decide)
@[simp] theorem pcCount_obs_books (b : ℕ) (ev : ℕ) (n : ℕ) (sp : Option ℕ) (tc : Option ℕ) (w : Wall) : (pcCount b ev n sp tc w).obs.books = w.obs.books := (pcCount_keep ..).obs.books (by decide)
@[simp] theorem pcCount_obs_booksDue (b : ℕ) (ev : ℕ) (n : ℕ) (sp : Option ℕ) (tc : Option ℕ) (w : Wall) : (pcCount b ev n sp tc w).obs.booksDue = w.obs.booksDue := (pcCount_keep ..).obs.booksDue (by decide)
@[simp] theorem pcCount_obs_illegalS (b : ℕ) (ev : ℕ) (n : ℕ) (sp : Option ℕ) (tc : Option ℕ) (w : Wall) : (pcCount b ev n sp tc w).obs.illegalS = w.obs.illegalS := (pcCount_keep ..).obs.illegalS (by decide)
@[simp] theorem pcSp_win (sp : ℕ) (ev : ℕ) (n : ℕ) (tc : Option ℕ) (w : Wall) : (pcSp sp ev n tc w).win = w.win := (pcSp_keep ..).win (by decide)
@[simp] theorem pcSp_freeN (sp : ℕ) (ev : ℕ) (n : ℕ) (tc : Option ℕ) (w : Wall) : (pcSp sp ev n tc w).freeN = w.freeN := (pcSp_keep ..).freeN (by decide)
@[simp] theorem pcSp_out (sp : ℕ) (ev : ℕ) (n : ℕ) (tc : Option ℕ) (w : Wall) : (pcSp sp ev n tc w).out = w.out := (pcSp_keep ..).out (by decide)
@[simp] theorem pcSp_time (sp : ℕ) (ev : ℕ) (n : ℕ) (tc : Option ℕ) (w : Wall) : (pcSp sp ev n tc w).time = w.time := (pcSp_keep ..).time.same (by decide)
@[simp] theorem pcSp_bnd (sp : ℕ) (ev : ℕ) (n : ℕ) (tc : Option ℕ) (w : Wall) : (pcSp sp ev n tc w).bnd = w.bnd := (pcSp_keep ..).bnd.same (by decide)
@[simp] theorem pcSp_led (sp : ℕ) (ev : ℕ) (n : ℕ) (tc : Option ℕ) (w : Wall) : (pcSp sp ev n tc w).led = w.led := (pcSp_keep ..).led.same (by decide)
@[simp] theorem pcSp_lan (sp : ℕ) (ev : ℕ) (n : ℕ) (tc : Option ℕ) (w : Wall) : (pcSp sp ev n tc w).lan = w.lan := (pcSp_keep ..).lan.same (by decide)
@[simp] theorem pcSp_prt (sp : ℕ) (ev : ℕ) (n : ℕ) (tc : Option ℕ) (w : Wall) : (pcSp sp ev n tc w).prt = w.prt := (pcSp_keep ..).prt.same (by decide)
@[simp] theorem pcSp_ing (sp : ℕ) (ev : ℕ) (n : ℕ) (tc : Option ℕ) (w : Wall) : (pcSp sp ev n tc w).ing = w.ing := (pcSp_keep ..).ing.same (by decide)
@[simp] theorem pcSp_egr (sp : ℕ) (ev : ℕ) (n : ℕ) (tc : Option ℕ) (w : Wall) : (pcSp sp ev n tc w).egr = w.egr := (pcSp_keep ..).egr.same (by decide)
@[simp] theorem pcSp_sec (sp : ℕ) (ev : ℕ) (n : ℕ) (tc : Option ℕ) (w : Wall) : (pcSp sp ev n tc w).sec = w.sec := (pcSp_keep ..).sec.same (by decide)
@[simp] theorem pcSp_gra (sp : ℕ) (ev : ℕ) (n : ℕ) (tc : Option ℕ) (w : Wall) : (pcSp sp ev n tc w).gra = w.gra := (pcSp_keep ..).gra.same (by decide)
@[simp] theorem pcSp_hst_rings (sp : ℕ) (ev : ℕ) (n : ℕ) (tc : Option ℕ) (w : Wall) : (pcSp sp ev n tc w).hst.rings = w.hst.rings := (pcSp_keep ..).hst.rings (by decide)
@[simp] theorem pcSp_hst_mills (sp : ℕ) (ev : ℕ) (n : ℕ) (tc : Option ℕ) (w : Wall) : (pcSp sp ev n tc w).hst.mills = w.hst.mills := (pcSp_keep ..).hst.mills (by decide)
@[simp] theorem pcSp_hst_turn (sp : ℕ) (ev : ℕ) (n : ℕ) (tc : Option ℕ) (w : Wall) : (pcSp sp ev n tc w).hst.turn = w.hst.turn := (pcSp_keep ..).hst.turn (by decide)
@[simp] theorem pcSp_stw (sp : ℕ) (ev : ℕ) (n : ℕ) (tc : Option ℕ) (w : Wall) : (pcSp sp ev n tc w).stw = w.stw := (pcSp_keep ..).stw.same (by decide)
@[simp] theorem pcSp_obs_day (sp : ℕ) (ev : ℕ) (n : ℕ) (tc : Option ℕ) (w : Wall) : (pcSp sp ev n tc w).obs.day = w.obs.day := (pcSp_keep ..).obs.day (by decide)
@[simp] theorem pcSp_obs_srcSeq (sp : ℕ) (ev : ℕ) (n : ℕ) (tc : Option ℕ) (w : Wall) : (pcSp sp ev n tc w).obs.srcSeq = w.obs.srcSeq := (pcSp_keep ..).obs.srcSeq (by decide)
@[simp] theorem pcSp_obs_high (sp : ℕ) (ev : ℕ) (n : ℕ) (tc : Option ℕ) (w : Wall) : (pcSp sp ev n tc w).obs.high = w.obs.high := (pcSp_keep ..).obs.high (by decide)
@[simp] theorem pcSp_obs_tally (sp : ℕ) (ev : ℕ) (n : ℕ) (tc : Option ℕ) (w : Wall) : (pcSp sp ev n tc w).obs.tally = w.obs.tally := (pcSp_keep ..).obs.tally (by decide)
@[simp] theorem pcSp_obs_tallyRecs (sp : ℕ) (ev : ℕ) (n : ℕ) (tc : Option ℕ) (w : Wall) : (pcSp sp ev n tc w).obs.tallyRecs = w.obs.tallyRecs := (pcSp_keep ..).obs.tallyRecs (by decide)
@[simp] theorem pcSp_obs_tallySeq (sp : ℕ) (ev : ℕ) (n : ℕ) (tc : Option ℕ) (w : Wall) : (pcSp sp ev n tc w).obs.tallySeq = w.obs.tallySeq := (pcSp_keep ..).obs.tallySeq (by decide)
@[simp] theorem pcSp_obs_books (sp : ℕ) (ev : ℕ) (n : ℕ) (tc : Option ℕ) (w : Wall) : (pcSp sp ev n tc w).obs.books = w.obs.books := (pcSp_keep ..).obs.books (by decide)
@[simp] theorem pcSp_obs_booksDue (sp : ℕ) (ev : ℕ) (n : ℕ) (tc : Option ℕ) (w : Wall) : (pcSp sp ev n tc w).obs.booksDue = w.obs.booksDue := (pcSp_keep ..).obs.booksDue (by decide)
@[simp] theorem pcSp_obs_illegalS (sp : ℕ) (ev : ℕ) (n : ℕ) (tc : Option ℕ) (w : Wall) : (pcSp sp ev n tc w).obs.illegalS = w.obs.illegalS := (pcSp_keep ..).obs.illegalS (by decide)
@[simp] theorem pcAdd_win (b : ℕ) (k : ℕ) (n : ℕ) (w : Wall) : (pcAdd b k n w).win = w.win := (pcAdd_keep ..).win (by decide)
@[simp] theorem pcAdd_freeN (b : ℕ) (k : ℕ) (n : ℕ) (w : Wall) : (pcAdd b k n w).freeN = w.freeN := (pcAdd_keep ..).freeN (by decide)
@[simp] theorem pcAdd_out (b : ℕ) (k : ℕ) (n : ℕ) (w : Wall) : (pcAdd b k n w).out = w.out := (pcAdd_keep ..).out (by decide)
@[simp] theorem pcAdd_time (b : ℕ) (k : ℕ) (n : ℕ) (w : Wall) : (pcAdd b k n w).time = w.time := (pcAdd_keep ..).time.same (by decide)
@[simp] theorem pcAdd_bnd (b : ℕ) (k : ℕ) (n : ℕ) (w : Wall) : (pcAdd b k n w).bnd = w.bnd := (pcAdd_keep ..).bnd.same (by decide)
@[simp] theorem pcAdd_led (b : ℕ) (k : ℕ) (n : ℕ) (w : Wall) : (pcAdd b k n w).led = w.led := (pcAdd_keep ..).led.same (by decide)
@[simp] theorem pcAdd_lan (b : ℕ) (k : ℕ) (n : ℕ) (w : Wall) : (pcAdd b k n w).lan = w.lan := (pcAdd_keep ..).lan.same (by decide)
@[simp] theorem pcAdd_prt (b : ℕ) (k : ℕ) (n : ℕ) (w : Wall) : (pcAdd b k n w).prt = w.prt := (pcAdd_keep ..).prt.same (by decide)
@[simp] theorem pcAdd_ing (b : ℕ) (k : ℕ) (n : ℕ) (w : Wall) : (pcAdd b k n w).ing = w.ing := (pcAdd_keep ..).ing.same (by decide)
@[simp] theorem pcAdd_egr (b : ℕ) (k : ℕ) (n : ℕ) (w : Wall) : (pcAdd b k n w).egr = w.egr := (pcAdd_keep ..).egr.same (by decide)
@[simp] theorem pcAdd_sec (b : ℕ) (k : ℕ) (n : ℕ) (w : Wall) : (pcAdd b k n w).sec = w.sec := (pcAdd_keep ..).sec.same (by decide)
@[simp] theorem pcAdd_gra (b : ℕ) (k : ℕ) (n : ℕ) (w : Wall) : (pcAdd b k n w).gra = w.gra := (pcAdd_keep ..).gra.same (by decide)
@[simp] theorem pcAdd_hst_rings (b : ℕ) (k : ℕ) (n : ℕ) (w : Wall) : (pcAdd b k n w).hst.rings = w.hst.rings := (pcAdd_keep ..).hst.rings (by decide)
@[simp] theorem pcAdd_hst_mills (b : ℕ) (k : ℕ) (n : ℕ) (w : Wall) : (pcAdd b k n w).hst.mills = w.hst.mills := (pcAdd_keep ..).hst.mills (by decide)
@[simp] theorem pcAdd_hst_turn (b : ℕ) (k : ℕ) (n : ℕ) (w : Wall) : (pcAdd b k n w).hst.turn = w.hst.turn := (pcAdd_keep ..).hst.turn (by decide)
@[simp] theorem pcAdd_stw (b : ℕ) (k : ℕ) (n : ℕ) (w : Wall) : (pcAdd b k n w).stw = w.stw := (pcAdd_keep ..).stw.same (by decide)
@[simp] theorem pcAdd_obs_day (b : ℕ) (k : ℕ) (n : ℕ) (w : Wall) : (pcAdd b k n w).obs.day = w.obs.day := (pcAdd_keep ..).obs.day (by decide)
@[simp] theorem pcAdd_obs_srcSeq (b : ℕ) (k : ℕ) (n : ℕ) (w : Wall) : (pcAdd b k n w).obs.srcSeq = w.obs.srcSeq := (pcAdd_keep ..).obs.srcSeq (by decide)
@[simp] theorem pcAdd_obs_high (b : ℕ) (k : ℕ) (n : ℕ) (w : Wall) : (pcAdd b k n w).obs.high = w.obs.high := (pcAdd_keep ..).obs.high (by decide)
@[simp] theorem pcAdd_obs_tally (b : ℕ) (k : ℕ) (n : ℕ) (w : Wall) : (pcAdd b k n w).obs.tally = w.obs.tally := (pcAdd_keep ..).obs.tally (by decide)
@[simp] theorem pcAdd_obs_tallyRecs (b : ℕ) (k : ℕ) (n : ℕ) (w : Wall) : (pcAdd b k n w).obs.tallyRecs = w.obs.tallyRecs := (pcAdd_keep ..).obs.tallyRecs (by decide)
@[simp] theorem pcAdd_obs_tallySeq (b : ℕ) (k : ℕ) (n : ℕ) (w : Wall) : (pcAdd b k n w).obs.tallySeq = w.obs.tallySeq := (pcAdd_keep ..).obs.tallySeq (by decide)
@[simp] theorem pcAdd_obs_books (b : ℕ) (k : ℕ) (n : ℕ) (w : Wall) : (pcAdd b k n w).obs.books = w.obs.books := (pcAdd_keep ..).obs.books (by decide)
@[simp] theorem pcAdd_obs_booksDue (b : ℕ) (k : ℕ) (n : ℕ) (w : Wall) : (pcAdd b k n w).obs.booksDue = w.obs.booksDue := (pcAdd_keep ..).obs.booksDue (by decide)
@[simp] theorem pcAdd_obs_illegalS (b : ℕ) (k : ℕ) (n : ℕ) (w : Wall) : (pcAdd b k n w).obs.illegalS = w.obs.illegalS := (pcAdd_keep ..).obs.illegalS (by decide)
@[simp] theorem setLaneSt_win (l : ℕ) (st : ℕ) (w : Wall) : (setLaneSt l st w).win = w.win := (setLaneSt_keep ..).win (by decide)
@[simp] theorem setLaneSt_freeN (l : ℕ) (st : ℕ) (w : Wall) : (setLaneSt l st w).freeN = w.freeN := (setLaneSt_keep ..).freeN (by decide)
@[simp] theorem setLaneSt_out (l : ℕ) (st : ℕ) (w : Wall) : (setLaneSt l st w).out = w.out := (setLaneSt_keep ..).out (by decide)
@[simp] theorem setLaneSt_time (l : ℕ) (st : ℕ) (w : Wall) : (setLaneSt l st w).time = w.time := (setLaneSt_keep ..).time.same (by decide)
@[simp] theorem setLaneSt_bnd (l : ℕ) (st : ℕ) (w : Wall) : (setLaneSt l st w).bnd = w.bnd := (setLaneSt_keep ..).bnd.same (by decide)
@[simp] theorem setLaneSt_led (l : ℕ) (st : ℕ) (w : Wall) : (setLaneSt l st w).led = w.led := (setLaneSt_keep ..).led.same (by decide)
@[simp] theorem setLaneSt_lan_groups (l : ℕ) (st : ℕ) (w : Wall) : (setLaneSt l st w).lan.groups = w.lan.groups := (setLaneSt_keep ..).lan.groups (by decide)
@[simp] theorem setLaneSt_lan_exchs (l : ℕ) (st : ℕ) (w : Wall) : (setLaneSt l st w).lan.exchs = w.lan.exchs := (setLaneSt_keep ..).lan.exchs (by decide)
@[simp] theorem setLaneSt_lan_exchNo (l : ℕ) (st : ℕ) (w : Wall) : (setLaneSt l st w).lan.exchNo = w.lan.exchNo := (setLaneSt_keep ..).lan.exchNo (by decide)
@[simp] theorem setLaneSt_lan_rounds (l : ℕ) (st : ℕ) (w : Wall) : (setLaneSt l st w).lan.rounds = w.lan.rounds := (setLaneSt_keep ..).lan.rounds (by decide)
@[simp] theorem setLaneSt_lan_surveys (l : ℕ) (st : ℕ) (w : Wall) : (setLaneSt l st w).lan.surveys = w.lan.surveys := (setLaneSt_keep ..).lan.surveys (by decide)
@[simp] theorem setLaneSt_lan_roundStartS (l : ℕ) (st : ℕ) (w : Wall) : (setLaneSt l st w).lan.roundStartS = w.lan.roundStartS := (setLaneSt_keep ..).lan.roundStartS (by decide)
@[simp] theorem setLaneSt_lan_almanac (l : ℕ) (st : ℕ) (w : Wall) : (setLaneSt l st w).lan.almanac = w.lan.almanac := (setLaneSt_keep ..).lan.almanac (by decide)
@[simp] theorem setLaneSt_prt (l : ℕ) (st : ℕ) (w : Wall) : (setLaneSt l st w).prt = w.prt := (setLaneSt_keep ..).prt.same (by decide)
@[simp] theorem setLaneSt_ing (l : ℕ) (st : ℕ) (w : Wall) : (setLaneSt l st w).ing = w.ing := (setLaneSt_keep ..).ing.same (by decide)
@[simp] theorem setLaneSt_egr (l : ℕ) (st : ℕ) (w : Wall) : (setLaneSt l st w).egr = w.egr := (setLaneSt_keep ..).egr.same (by decide)
@[simp] theorem setLaneSt_sec (l : ℕ) (st : ℕ) (w : Wall) : (setLaneSt l st w).sec = w.sec := (setLaneSt_keep ..).sec.same (by decide)
@[simp] theorem setLaneSt_gra (l : ℕ) (st : ℕ) (w : Wall) : (setLaneSt l st w).gra = w.gra := (setLaneSt_keep ..).gra.same (by decide)
@[simp] theorem setLaneSt_hst_rings (l : ℕ) (st : ℕ) (w : Wall) : (setLaneSt l st w).hst.rings = w.hst.rings := (setLaneSt_keep ..).hst.rings (by decide)
@[simp] theorem setLaneSt_hst_mills (l : ℕ) (st : ℕ) (w : Wall) : (setLaneSt l st w).hst.mills = w.hst.mills := (setLaneSt_keep ..).hst.mills (by decide)
@[simp] theorem setLaneSt_hst_turn (l : ℕ) (st : ℕ) (w : Wall) : (setLaneSt l st w).hst.turn = w.hst.turn := (setLaneSt_keep ..).hst.turn (by decide)
@[simp] theorem setLaneSt_stw (l : ℕ) (st : ℕ) (w : Wall) : (setLaneSt l st w).stw = w.stw := (setLaneSt_keep ..).stw.same (by decide)
@[simp] theorem setLaneSt_obs (l : ℕ) (st : ℕ) (w : Wall) : (setLaneSt l st w).obs = w.obs := (setLaneSt_keep ..).obs.same (by decide)
@[simp] theorem setSpSt_win (sp : ℕ) (v : ℕ) (w : Wall) : (setSpSt sp v w).win = w.win := (setSpSt_keep ..).win (by decide)
@[simp] theorem setSpSt_freeN (sp : ℕ) (v : ℕ) (w : Wall) : (setSpSt sp v w).freeN = w.freeN := (setSpSt_keep ..).freeN (by decide)
@[simp] theorem setSpSt_out (sp : ℕ) (v : ℕ) (w : Wall) : (setSpSt sp v w).out = w.out := (setSpSt_keep ..).out (by decide)
@[simp] theorem setSpSt_time (sp : ℕ) (v : ℕ) (w : Wall) : (setSpSt sp v w).time = w.time := (setSpSt_keep ..).time.same (by decide)
@[simp] theorem setSpSt_bnd (sp : ℕ) (v : ℕ) (w : Wall) : (setSpSt sp v w).bnd = w.bnd := (setSpSt_keep ..).bnd.same (by decide)
@[simp] theorem setSpSt_led (sp : ℕ) (v : ℕ) (w : Wall) : (setSpSt sp v w).led = w.led := (setSpSt_keep ..).led.same (by decide)
@[simp] theorem setSpSt_lan (sp : ℕ) (v : ℕ) (w : Wall) : (setSpSt sp v w).lan = w.lan := (setSpSt_keep ..).lan.same (by decide)
@[simp] theorem setSpSt_prt (sp : ℕ) (v : ℕ) (w : Wall) : (setSpSt sp v w).prt = w.prt := (setSpSt_keep ..).prt.same (by decide)
@[simp] theorem setSpSt_ing (sp : ℕ) (v : ℕ) (w : Wall) : (setSpSt sp v w).ing = w.ing := (setSpSt_keep ..).ing.same (by decide)
@[simp] theorem setSpSt_egr (sp : ℕ) (v : ℕ) (w : Wall) : (setSpSt sp v w).egr = w.egr := (setSpSt_keep ..).egr.same (by decide)
@[simp] theorem setSpSt_sec (sp : ℕ) (v : ℕ) (w : Wall) : (setSpSt sp v w).sec = w.sec := (setSpSt_keep ..).sec.same (by decide)
@[simp] theorem setSpSt_gra (sp : ℕ) (v : ℕ) (w : Wall) : (setSpSt sp v w).gra = w.gra := (setSpSt_keep ..).gra.same (by decide)
@[simp] theorem setSpSt_hst (sp : ℕ) (v : ℕ) (w : Wall) : (setSpSt sp v w).hst = w.hst := (setSpSt_keep ..).hst.same (by decide)
@[simp] theorem setSpSt_stw (sp : ℕ) (v : ℕ) (w : Wall) : (setSpSt sp v w).stw = w.stw := (setSpSt_keep ..).stw.same (by decide)
@[simp] theorem setSpSt_obs_day (sp : ℕ) (v : ℕ) (w : Wall) : (setSpSt sp v w).obs.day = w.obs.day := (setSpSt_keep ..).obs.day (by decide)
@[simp] theorem setSpSt_obs_srcSeq (sp : ℕ) (v : ℕ) (w : Wall) : (setSpSt sp v w).obs.srcSeq = w.obs.srcSeq := (setSpSt_keep ..).obs.srcSeq (by decide)
@[simp] theorem setSpSt_obs_samples (sp : ℕ) (v : ℕ) (w : Wall) : (setSpSt sp v w).obs.samples = w.obs.samples := (setSpSt_keep ..).obs.samples (by decide)
@[simp] theorem setSpSt_obs_sampleSeq (sp : ℕ) (v : ℕ) (w : Wall) : (setSpSt sp v w).obs.sampleSeq = w.obs.sampleSeq := (setSpSt_keep ..).obs.sampleSeq (by decide)
@[simp] theorem setSpSt_obs_high (sp : ℕ) (v : ℕ) (w : Wall) : (setSpSt sp v w).obs.high = w.obs.high := (setSpSt_keep ..).obs.high (by decide)
@[simp] theorem setSpSt_obs_tallyRecs (sp : ℕ) (v : ℕ) (w : Wall) : (setSpSt sp v w).obs.tallyRecs = w.obs.tallyRecs := (setSpSt_keep ..).obs.tallyRecs (by decide)
@[simp] theorem setSpSt_obs_tallySeq (sp : ℕ) (v : ℕ) (w : Wall) : (setSpSt sp v w).obs.tallySeq = w.obs.tallySeq := (setSpSt_keep ..).obs.tallySeq (by decide)
@[simp] theorem setSpSt_obs_books (sp : ℕ) (v : ℕ) (w : Wall) : (setSpSt sp v w).obs.books = w.obs.books := (setSpSt_keep ..).obs.books (by decide)
@[simp] theorem setSpSt_obs_booksDue (sp : ℕ) (v : ℕ) (w : Wall) : (setSpSt sp v w).obs.booksDue = w.obs.booksDue := (setSpSt_keep ..).obs.booksDue (by decide)
@[simp] theorem setSpSt_obs_illegalS (sp : ℕ) (v : ℕ) (w : Wall) : (setSpSt sp v w).obs.illegalS = w.obs.illegalS := (setSpSt_keep ..).obs.illegalS (by decide)
@[simp] theorem setSpGroup_win (sp : ℕ) (st : ℕ) (w : Wall) : (setSpGroup sp st w).win = w.win := (setSpGroup_keep ..).win (by decide)
@[simp] theorem setSpGroup_freeN (sp : ℕ) (st : ℕ) (w : Wall) : (setSpGroup sp st w).freeN = w.freeN := (setSpGroup_keep ..).freeN (by decide)
@[simp] theorem setSpGroup_out (sp : ℕ) (st : ℕ) (w : Wall) : (setSpGroup sp st w).out = w.out := (setSpGroup_keep ..).out (by decide)
@[simp] theorem setSpGroup_time (sp : ℕ) (st : ℕ) (w : Wall) : (setSpGroup sp st w).time = w.time := (setSpGroup_keep ..).time.same (by decide)
@[simp] theorem setSpGroup_bnd (sp : ℕ) (st : ℕ) (w : Wall) : (setSpGroup sp st w).bnd = w.bnd := (setSpGroup_keep ..).bnd.same (by decide)
@[simp] theorem setSpGroup_led (sp : ℕ) (st : ℕ) (w : Wall) : (setSpGroup sp st w).led = w.led := (setSpGroup_keep ..).led.same (by decide)
@[simp] theorem setSpGroup_lan_groups (sp : ℕ) (st : ℕ) (w : Wall) : (setSpGroup sp st w).lan.groups = w.lan.groups := (setSpGroup_keep ..).lan.groups (by decide)
@[simp] theorem setSpGroup_lan_exchs (sp : ℕ) (st : ℕ) (w : Wall) : (setSpGroup sp st w).lan.exchs = w.lan.exchs := (setSpGroup_keep ..).lan.exchs (by decide)
@[simp] theorem setSpGroup_lan_exchNo (sp : ℕ) (st : ℕ) (w : Wall) : (setSpGroup sp st w).lan.exchNo = w.lan.exchNo := (setSpGroup_keep ..).lan.exchNo (by decide)
@[simp] theorem setSpGroup_lan_rounds (sp : ℕ) (st : ℕ) (w : Wall) : (setSpGroup sp st w).lan.rounds = w.lan.rounds := (setSpGroup_keep ..).lan.rounds (by decide)
@[simp] theorem setSpGroup_lan_surveys (sp : ℕ) (st : ℕ) (w : Wall) : (setSpGroup sp st w).lan.surveys = w.lan.surveys := (setSpGroup_keep ..).lan.surveys (by decide)
@[simp] theorem setSpGroup_lan_roundStartS (sp : ℕ) (st : ℕ) (w : Wall) : (setSpGroup sp st w).lan.roundStartS = w.lan.roundStartS := (setSpGroup_keep ..).lan.roundStartS (by decide)
@[simp] theorem setSpGroup_lan_almanac (sp : ℕ) (st : ℕ) (w : Wall) : (setSpGroup sp st w).lan.almanac = w.lan.almanac := (setSpGroup_keep ..).lan.almanac (by decide)
@[simp] theorem setSpGroup_prt (sp : ℕ) (st : ℕ) (w : Wall) : (setSpGroup sp st w).prt = w.prt := (setSpGroup_keep ..).prt.same (by decide)
@[simp] theorem setSpGroup_ing (sp : ℕ) (st : ℕ) (w : Wall) : (setSpGroup sp st w).ing = w.ing := (setSpGroup_keep ..).ing.same (by decide)
@[simp] theorem setSpGroup_egr (sp : ℕ) (st : ℕ) (w : Wall) : (setSpGroup sp st w).egr = w.egr := (setSpGroup_keep ..).egr.same (by decide)
@[simp] theorem setSpGroup_sec (sp : ℕ) (st : ℕ) (w : Wall) : (setSpGroup sp st w).sec = w.sec := (setSpGroup_keep ..).sec.same (by decide)
@[simp] theorem setSpGroup_gra (sp : ℕ) (st : ℕ) (w : Wall) : (setSpGroup sp st w).gra = w.gra := (setSpGroup_keep ..).gra.same (by decide)
@[simp] theorem setSpGroup_hst_rings (sp : ℕ) (st : ℕ) (w : Wall) : (setSpGroup sp st w).hst.rings = w.hst.rings := (setSpGroup_keep ..).hst.rings (by decide)
@[simp] theorem setSpGroup_hst_mills (sp : ℕ) (st : ℕ) (w : Wall) : (setSpGroup sp st w).hst.mills = w.hst.mills := (setSpGroup_keep ..).hst.mills (by decide)
@[simp] theorem setSpGroup_hst_turn (sp : ℕ) (st : ℕ) (w : Wall) : (setSpGroup sp st w).hst.turn = w.hst.turn := (setSpGroup_keep ..).hst.turn (by decide)
@[simp] theorem setSpGroup_stw (sp : ℕ) (st : ℕ) (w : Wall) : (setSpGroup sp st w).stw = w.stw := (setSpGroup_keep ..).stw.same (by decide)
@[simp] theorem setSpGroup_obs (sp : ℕ) (st : ℕ) (w : Wall) : (setSpGroup sp st w).obs = w.obs := (setSpGroup_keep ..).obs.same (by decide)
@[simp] theorem setGroupSt_win (g : Group) (st : ℕ) (w : Wall) : (setGroupSt g st w).win = w.win := (setGroupSt_keep ..).win (by decide)
@[simp] theorem setGroupSt_freeN (g : Group) (st : ℕ) (w : Wall) : (setGroupSt g st w).freeN = w.freeN := (setGroupSt_keep ..).freeN (by decide)
@[simp] theorem setGroupSt_out (g : Group) (st : ℕ) (w : Wall) : (setGroupSt g st w).out = w.out := (setGroupSt_keep ..).out (by decide)
@[simp] theorem setGroupSt_time (g : Group) (st : ℕ) (w : Wall) : (setGroupSt g st w).time = w.time := (setGroupSt_keep ..).time.same (by decide)
@[simp] theorem setGroupSt_bnd (g : Group) (st : ℕ) (w : Wall) : (setGroupSt g st w).bnd = w.bnd := (setGroupSt_keep ..).bnd.same (by decide)
@[simp] theorem setGroupSt_led (g : Group) (st : ℕ) (w : Wall) : (setGroupSt g st w).led = w.led := (setGroupSt_keep ..).led.same (by decide)
@[simp] theorem setGroupSt_lan_groups (g : Group) (st : ℕ) (w : Wall) : (setGroupSt g st w).lan.groups = w.lan.groups := (setGroupSt_keep ..).lan.groups (by decide)
@[simp] theorem setGroupSt_lan_exchs (g : Group) (st : ℕ) (w : Wall) : (setGroupSt g st w).lan.exchs = w.lan.exchs := (setGroupSt_keep ..).lan.exchs (by decide)
@[simp] theorem setGroupSt_lan_exchNo (g : Group) (st : ℕ) (w : Wall) : (setGroupSt g st w).lan.exchNo = w.lan.exchNo := (setGroupSt_keep ..).lan.exchNo (by decide)
@[simp] theorem setGroupSt_lan_rounds (g : Group) (st : ℕ) (w : Wall) : (setGroupSt g st w).lan.rounds = w.lan.rounds := (setGroupSt_keep ..).lan.rounds (by decide)
@[simp] theorem setGroupSt_lan_surveys (g : Group) (st : ℕ) (w : Wall) : (setGroupSt g st w).lan.surveys = w.lan.surveys := (setGroupSt_keep ..).lan.surveys (by decide)
@[simp] theorem setGroupSt_lan_roundStartS (g : Group) (st : ℕ) (w : Wall) : (setGroupSt g st w).lan.roundStartS = w.lan.roundStartS := (setGroupSt_keep ..).lan.roundStartS (by decide)
@[simp] theorem setGroupSt_lan_almanac (g : Group) (st : ℕ) (w : Wall) : (setGroupSt g st w).lan.almanac = w.lan.almanac := (setGroupSt_keep ..).lan.almanac (by decide)
@[simp] theorem setGroupSt_prt (g : Group) (st : ℕ) (w : Wall) : (setGroupSt g st w).prt = w.prt := (setGroupSt_keep ..).prt.same (by decide)
@[simp] theorem setGroupSt_ing (g : Group) (st : ℕ) (w : Wall) : (setGroupSt g st w).ing = w.ing := (setGroupSt_keep ..).ing.same (by decide)
@[simp] theorem setGroupSt_egr (g : Group) (st : ℕ) (w : Wall) : (setGroupSt g st w).egr = w.egr := (setGroupSt_keep ..).egr.same (by decide)
@[simp] theorem setGroupSt_sec (g : Group) (st : ℕ) (w : Wall) : (setGroupSt g st w).sec = w.sec := (setGroupSt_keep ..).sec.same (by decide)
@[simp] theorem setGroupSt_gra (g : Group) (st : ℕ) (w : Wall) : (setGroupSt g st w).gra = w.gra := (setGroupSt_keep ..).gra.same (by decide)
@[simp] theorem setGroupSt_hst_rings (g : Group) (st : ℕ) (w : Wall) : (setGroupSt g st w).hst.rings = w.hst.rings := (setGroupSt_keep ..).hst.rings (by decide)
@[simp] theorem setGroupSt_hst_mills (g : Group) (st : ℕ) (w : Wall) : (setGroupSt g st w).hst.mills = w.hst.mills := (setGroupSt_keep ..).hst.mills (by decide)
@[simp] theorem setGroupSt_hst_turn (g : Group) (st : ℕ) (w : Wall) : (setGroupSt g st w).hst.turn = w.hst.turn := (setGroupSt_keep ..).hst.turn (by decide)
@[simp] theorem setGroupSt_stw (g : Group) (st : ℕ) (w : Wall) : (setGroupSt g st w).stw = w.stw := (setGroupSt_keep ..).stw.same (by decide)
@[simp] theorem setGroupSt_obs (g : Group) (st : ℕ) (w : Wall) : (setGroupSt g st w).obs = w.obs := (setGroupSt_keep ..).obs.same (by decide)
@[simp] theorem queueLevel_win (w : Wall) : (queueLevel w).win = w.win := (queueLevel_keep ..).win (by decide)
@[simp] theorem queueLevel_freeN (w : Wall) : (queueLevel w).freeN = w.freeN := (queueLevel_keep ..).freeN (by decide)
@[simp] theorem queueLevel_out (w : Wall) : (queueLevel w).out = w.out := (queueLevel_keep ..).out (by decide)
@[simp] theorem queueLevel_time (w : Wall) : (queueLevel w).time = w.time := (queueLevel_keep ..).time.same (by decide)
@[simp] theorem queueLevel_bnd (w : Wall) : (queueLevel w).bnd = w.bnd := (queueLevel_keep ..).bnd.same (by decide)
@[simp] theorem queueLevel_led (w : Wall) : (queueLevel w).led = w.led := (queueLevel_keep ..).led.same (by decide)
@[simp] theorem queueLevel_lan (w : Wall) : (queueLevel w).lan = w.lan := (queueLevel_keep ..).lan.same (by decide)
@[simp] theorem queueLevel_prt (w : Wall) : (queueLevel w).prt = w.prt := (queueLevel_keep ..).prt.same (by decide)
@[simp] theorem queueLevel_ing (w : Wall) : (queueLevel w).ing = w.ing := (queueLevel_keep ..).ing.same (by decide)
@[simp] theorem queueLevel_egr (w : Wall) : (queueLevel w).egr = w.egr := (queueLevel_keep ..).egr.same (by decide)
@[simp] theorem queueLevel_sec (w : Wall) : (queueLevel w).sec = w.sec := (queueLevel_keep ..).sec.same (by decide)
@[simp] theorem queueLevel_gra (w : Wall) : (queueLevel w).gra = w.gra := (queueLevel_keep ..).gra.same (by decide)
@[simp] theorem queueLevel_hst_rings (w : Wall) : (queueLevel w).hst.rings = w.hst.rings := (queueLevel_keep ..).hst.rings (by decide)
@[simp] theorem queueLevel_hst_mills (w : Wall) : (queueLevel w).hst.mills = w.hst.mills := (queueLevel_keep ..).hst.mills (by decide)
@[simp] theorem queueLevel_hst_turn (w : Wall) : (queueLevel w).hst.turn = w.hst.turn := (queueLevel_keep ..).hst.turn (by decide)
@[simp] theorem queueLevel_stw_seqs (w : Wall) : (queueLevel w).stw.seqs = w.stw.seqs := (queueLevel_keep ..).stw.seqs (by decide)
@[simp] theorem queueLevel_stw_hooks (w : Wall) : (queueLevel w).stw.hooks = w.stw.hooks := (queueLevel_keep ..).stw.hooks (by decide)
@[simp] theorem queueLevel_stw_restarting (w : Wall) : (queueLevel w).stw.restarting = w.stw.restarting := (queueLevel_keep ..).stw.restarting (by decide)
@[simp] theorem queueLevel_stw_reeveFault (w : Wall) : (queueLevel w).stw.reeveFault = w.stw.reeveFault := (queueLevel_keep ..).stw.reeveFault (by decide)
@[simp] theorem queueLevel_obs (w : Wall) : (queueLevel w).obs = w.obs := (queueLevel_keep ..).obs.same (by decide)
@[simp] theorem arrive_freeN (r : LReq) (w : Wall) : (arrive r w).freeN = w.freeN := (arrive_keep ..).freeN (by decide)
@[simp] theorem arrive_time (r : LReq) (w : Wall) : (arrive r w).time = w.time := (arrive_keep ..).time.same (by decide)
@[simp] theorem arrive_bnd (r : LReq) (w : Wall) : (arrive r w).bnd = w.bnd := (arrive_keep ..).bnd.same (by decide)
@[simp] theorem arrive_led_closed (r : LReq) (w : Wall) : (arrive r w).led.closed = w.led.closed := (arrive_keep ..).led.closed (by decide)
@[simp] theorem arrive_led_deferred (r : LReq) (w : Wall) : (arrive r w).led.deferred = w.led.deferred := (arrive_keep ..).led.deferred (by decide)
@[simp] theorem arrive_led_store (r : LReq) (w : Wall) : (arrive r w).led.store = w.led.store := (arrive_keep ..).led.store (by decide)
@[simp] theorem arrive_led_domGen (r : LReq) (w : Wall) : (arrive r w).led.domGen = w.led.domGen := (arrive_keep ..).led.domGen (by decide)
@[simp] theorem arrive_led_doms (r : LReq) (w : Wall) : (arrive r w).led.doms = w.led.doms := (arrive_keep ..).led.doms (by decide)
@[simp] theorem arrive_led_handshakes (r : LReq) (w : Wall) : (arrive r w).led.handshakes = w.led.handshakes := (arrive_keep ..).led.handshakes (by decide)
@[simp] theorem arrive_led_cursor (r : LReq) (w : Wall) : (arrive r w).led.cursor = w.led.cursor := (arrive_keep ..).led.cursor (by decide)
@[simp] theorem arrive_led_indicator (r : LReq) (w : Wall) : (arrive r w).led.indicator = w.led.indicator := (arrive_keep ..).led.indicator (by decide)
@[simp] theorem arrive_led_moveDue (r : LReq) (w : Wall) : (arrive r w).led.moveDue = w.led.moveDue := (arrive_keep ..).led.moveDue (by decide)
@[simp] theorem arrive_led_icmpSecond (r : LReq) (w : Wall) : (arrive r w).led.icmpSecond = w.led.icmpSecond := (arrive_keep ..).led.icmpSecond (by decide)
@[simp] theorem arrive_led_icmpCount (r : LReq) (w : Wall) : (arrive r w).led.icmpCount = w.led.icmpCount := (arrive_keep ..).led.icmpCount (by decide)
@[simp] theorem arrive_led_inbandSecond (r : LReq) (w : Wall) : (arrive r w).led.inbandSecond = w.led.inbandSecond := (arrive_keep ..).led.inbandSecond (by decide)
@[simp] theorem arrive_led_inbandCount (r : LReq) (w : Wall) : (arrive r w).led.inbandCount = w.led.inbandCount := (arrive_keep ..).led.inbandCount (by decide)
@[simp] theorem arrive_led_inbandSent (r : LReq) (w : Wall) : (arrive r w).led.inbandSent = w.led.inbandSent := (arrive_keep ..).led.inbandSent (by decide)
@[simp] theorem arrive_lan (r : LReq) (w : Wall) : (arrive r w).lan = w.lan := (arrive_keep ..).lan.same (by decide)
@[simp] theorem arrive_prt (r : LReq) (w : Wall) : (arrive r w).prt = w.prt := (arrive_keep ..).prt.same (by decide)
@[simp] theorem arrive_ing (r : LReq) (w : Wall) : (arrive r w).ing = w.ing := (arrive_keep ..).ing.same (by decide)
@[simp] theorem arrive_egr (r : LReq) (w : Wall) : (arrive r w).egr = w.egr := (arrive_keep ..).egr.same (by decide)
@[simp] theorem arrive_sec (r : LReq) (w : Wall) : (arrive r w).sec = w.sec := (arrive_keep ..).sec.same (by decide)
@[simp] theorem arrive_gra (r : LReq) (w : Wall) : (arrive r w).gra = w.gra := (arrive_keep ..).gra.same (by decide)
@[simp] theorem arrive_hst_rings (r : LReq) (w : Wall) : (arrive r w).hst.rings = w.hst.rings := (arrive_keep ..).hst.rings (by decide)
@[simp] theorem arrive_hst_mills (r : LReq) (w : Wall) : (arrive r w).hst.mills = w.hst.mills := (arrive_keep ..).hst.mills (by decide)
@[simp] theorem arrive_hst_turn (r : LReq) (w : Wall) : (arrive r w).hst.turn = w.hst.turn := (arrive_keep ..).hst.turn (by decide)
@[simp] theorem arrive_stw_seqs (r : LReq) (w : Wall) : (arrive r w).stw.seqs = w.stw.seqs := (arrive_keep ..).stw.seqs (by decide)
@[simp] theorem arrive_stw_hooks (r : LReq) (w : Wall) : (arrive r w).stw.hooks = w.stw.hooks := (arrive_keep ..).stw.hooks (by decide)
@[simp] theorem arrive_stw_restarting (r : LReq) (w : Wall) : (arrive r w).stw.restarting = w.stw.restarting := (arrive_keep ..).stw.restarting (by decide)
@[simp] theorem arrive_stw_reeveFault (r : LReq) (w : Wall) : (arrive r w).stw.reeveFault = w.stw.reeveFault := (arrive_keep ..).stw.reeveFault (by decide)
@[simp] theorem arrive_obs (r : LReq) (w : Wall) : (arrive r w).obs = w.obs := (arrive_keep ..).obs.same (by decide)
@[simp] theorem digestEntry_win (src : ℕ) (code : ℕ) (detail : ℕ) (w : Wall) : (digestEntry src code detail w).win = w.win := (digestEntry_keep ..).win (by decide)
@[simp] theorem digestEntry_freeN (src : ℕ) (code : ℕ) (detail : ℕ) (w : Wall) : (digestEntry src code detail w).freeN = w.freeN := (digestEntry_keep ..).freeN (by decide)
@[simp] theorem digestEntry_out (src : ℕ) (code : ℕ) (detail : ℕ) (w : Wall) : (digestEntry src code detail w).out = w.out := (digestEntry_keep ..).out (by decide)
@[simp] theorem digestEntry_time (src : ℕ) (code : ℕ) (detail : ℕ) (w : Wall) : (digestEntry src code detail w).time = w.time := (digestEntry_keep ..).time.same (by decide)
@[simp] theorem digestEntry_bnd (src : ℕ) (code : ℕ) (detail : ℕ) (w : Wall) : (digestEntry src code detail w).bnd = w.bnd := (digestEntry_keep ..).bnd.same (by decide)
@[simp] theorem digestEntry_led (src : ℕ) (code : ℕ) (detail : ℕ) (w : Wall) : (digestEntry src code detail w).led = w.led := (digestEntry_keep ..).led.same (by decide)
@[simp] theorem digestEntry_lan (src : ℕ) (code : ℕ) (detail : ℕ) (w : Wall) : (digestEntry src code detail w).lan = w.lan := (digestEntry_keep ..).lan.same (by decide)
@[simp] theorem digestEntry_prt (src : ℕ) (code : ℕ) (detail : ℕ) (w : Wall) : (digestEntry src code detail w).prt = w.prt := (digestEntry_keep ..).prt.same (by decide)
@[simp] theorem digestEntry_ing (src : ℕ) (code : ℕ) (detail : ℕ) (w : Wall) : (digestEntry src code detail w).ing = w.ing := (digestEntry_keep ..).ing.same (by decide)
@[simp] theorem digestEntry_egr (src : ℕ) (code : ℕ) (detail : ℕ) (w : Wall) : (digestEntry src code detail w).egr = w.egr := (digestEntry_keep ..).egr.same (by decide)
@[simp] theorem digestEntry_sec (src : ℕ) (code : ℕ) (detail : ℕ) (w : Wall) : (digestEntry src code detail w).sec = w.sec := (digestEntry_keep ..).sec.same (by decide)
@[simp] theorem digestEntry_gra_bank0 (src : ℕ) (code : ℕ) (detail : ℕ) (w : Wall) : (digestEntry src code detail w).gra.bank0 = w.gra.bank0 := (digestEntry_keep ..).gra.bank0 (by decide)
@[simp] theorem digestEntry_gra_bank1 (src : ℕ) (code : ℕ) (detail : ℕ) (w : Wall) : (digestEntry src code detail w).gra.bank1 = w.gra.bank1 := (digestEntry_keep ..).gra.bank1 (by decide)
@[simp] theorem digestEntry_gra_hdr0 (src : ℕ) (code : ℕ) (detail : ℕ) (w : Wall) : (digestEntry src code detail w).gra.hdr0 = w.gra.hdr0 := (digestEntry_keep ..).gra.hdr0 (by decide)
@[simp] theorem digestEntry_gra_hdr1 (src : ℕ) (code : ℕ) (detail : ℕ) (w : Wall) : (digestEntry src code detail w).gra.hdr1 = w.gra.hdr1 := (digestEntry_keep ..).gra.hdr1 (by decide)
@[simp] theorem digestEntry_gra_rows (src : ℕ) (code : ℕ) (detail : ℕ) (w : Wall) : (digestEntry src code detail w).gra.rows = w.gra.rows := (digestEntry_keep ..).gra.rows (by decide)
@[simp] theorem digestEntry_gra_done (src : ℕ) (code : ℕ) (detail : ℕ) (w : Wall) : (digestEntry src code detail w).gra.done = w.gra.done := (digestEntry_keep ..).gra.done (by decide)
@[simp] theorem digestEntry_gra_benignAt (src : ℕ) (code : ℕ) (detail : ℕ) (w : Wall) : (digestEntry src code detail w).gra.benignAt = w.gra.benignAt := (digestEntry_keep ..).gra.benignAt (by decide)
@[simp] theorem digestEntry_gra_shelf (src : ℕ) (code : ℕ) (detail : ℕ) (w : Wall) : (digestEntry src code detail w).gra.shelf = w.gra.shelf := (digestEntry_keep ..).gra.shelf (by decide)
@[simp] theorem digestEntry_gra_loadedGen (src : ℕ) (code : ℕ) (detail : ℕ) (w : Wall) : (digestEntry src code detail w).gra.loadedGen = w.gra.loadedGen := (digestEntry_keep ..).gra.loadedGen (by decide)
@[simp] theorem digestEntry_gra_digest (src : ℕ) (code : ℕ) (detail : ℕ) (w : Wall) : (digestEntry src code detail w).gra.digest = w.gra.digest := (digestEntry_keep ..).gra.digest (by decide)
@[simp] theorem digestEntry_gra_digestWait (src : ℕ) (code : ℕ) (detail : ℕ) (w : Wall) : (digestEntry src code detail w).gra.digestWait = w.gra.digestWait := (digestEntry_keep ..).gra.digestWait (by decide)
@[simp] theorem digestEntry_gra_retiredToday (src : ℕ) (code : ℕ) (detail : ℕ) (w : Wall) : (digestEntry src code detail w).gra.retiredToday = w.gra.retiredToday := (digestEntry_keep ..).gra.retiredToday (by decide)
@[simp] theorem digestEntry_gra_retireDay (src : ℕ) (code : ℕ) (detail : ℕ) (w : Wall) : (digestEntry src code detail w).gra.retireDay = w.gra.retireDay := (digestEntry_keep ..).gra.retireDay (by decide)
@[simp] theorem digestEntry_gra_wearDays (src : ℕ) (code : ℕ) (detail : ℕ) (w : Wall) : (digestEntry src code detail w).gra.wearDays = w.gra.wearDays := (digestEntry_keep ..).gra.wearDays (by decide)
@[simp] theorem digestEntry_gra_retention (src : ℕ) (code : ℕ) (detail : ℕ) (w : Wall) : (digestEntry src code detail w).gra.retention = w.gra.retention := (digestEntry_keep ..).gra.retention (by decide)
@[simp] theorem digestEntry_hst (src : ℕ) (code : ℕ) (detail : ℕ) (w : Wall) : (digestEntry src code detail w).hst = w.hst := (digestEntry_keep ..).hst.same (by decide)
@[simp] theorem digestEntry_stw (src : ℕ) (code : ℕ) (detail : ℕ) (w : Wall) : (digestEntry src code detail w).stw = w.stw := (digestEntry_keep ..).stw.same (by decide)
@[simp] theorem digestEntry_obs (src : ℕ) (code : ℕ) (detail : ℕ) (w : Wall) : (digestEntry src code detail w).obs = w.obs := (digestEntry_keep ..).obs.same (by decide)
@[simp] theorem askRecord_regs (type : ℕ) (key : ℕ) (tomb : Bool) (bodies : List ℕ) (rank : ℕ) (after : After) (w : Wall) : (askRecord type key tomb bodies rank after w).regs = w.regs := (askRecord_keep ..).regs (by decide)
@[simp] theorem askRecord_win (type : ℕ) (key : ℕ) (tomb : Bool) (bodies : List ℕ) (rank : ℕ) (after : After) (w : Wall) : (askRecord type key tomb bodies rank after w).win = w.win := (askRecord_keep ..).win (by decide)
@[simp] theorem askRecord_freeN (type : ℕ) (key : ℕ) (tomb : Bool) (bodies : List ℕ) (rank : ℕ) (after : After) (w : Wall) : (askRecord type key tomb bodies rank after w).freeN = w.freeN := (askRecord_keep ..).freeN (by decide)
@[simp] theorem askRecord_out (type : ℕ) (key : ℕ) (tomb : Bool) (bodies : List ℕ) (rank : ℕ) (after : After) (w : Wall) : (askRecord type key tomb bodies rank after w).out = w.out := (askRecord_keep ..).out (by decide)
@[simp] theorem askRecord_get (type : ℕ) (key : ℕ) (tomb : Bool) (bodies : List ℕ) (rank : ℕ) (after : After) (w : Wall) (o : Reg) : (askRecord type key tomb bodies rank after w).get o = w.get o := by unfold Wall.get; rw [askRecord_regs]
@[simp] theorem askRecord_time (type : ℕ) (key : ℕ) (tomb : Bool) (bodies : List ℕ) (rank : ℕ) (after : After) (w : Wall) : (askRecord type key tomb bodies rank after w).time = w.time := (askRecord_keep ..).time.same (by decide)
@[simp] theorem askRecord_bnd (type : ℕ) (key : ℕ) (tomb : Bool) (bodies : List ℕ) (rank : ℕ) (after : After) (w : Wall) : (askRecord type key tomb bodies rank after w).bnd = w.bnd := (askRecord_keep ..).bnd.same (by decide)
@[simp] theorem askRecord_led (type : ℕ) (key : ℕ) (tomb : Bool) (bodies : List ℕ) (rank : ℕ) (after : After) (w : Wall) : (askRecord type key tomb bodies rank after w).led = w.led := (askRecord_keep ..).led.same (by decide)
@[simp] theorem askRecord_lan (type : ℕ) (key : ℕ) (tomb : Bool) (bodies : List ℕ) (rank : ℕ) (after : After) (w : Wall) : (askRecord type key tomb bodies rank after w).lan = w.lan := (askRecord_keep ..).lan.same (by decide)
@[simp] theorem askRecord_prt (type : ℕ) (key : ℕ) (tomb : Bool) (bodies : List ℕ) (rank : ℕ) (after : After) (w : Wall) : (askRecord type key tomb bodies rank after w).prt = w.prt := (askRecord_keep ..).prt.same (by decide)
@[simp] theorem askRecord_ing (type : ℕ) (key : ℕ) (tomb : Bool) (bodies : List ℕ) (rank : ℕ) (after : After) (w : Wall) : (askRecord type key tomb bodies rank after w).ing = w.ing := (askRecord_keep ..).ing.same (by decide)
@[simp] theorem askRecord_egr (type : ℕ) (key : ℕ) (tomb : Bool) (bodies : List ℕ) (rank : ℕ) (after : After) (w : Wall) : (askRecord type key tomb bodies rank after w).egr = w.egr := (askRecord_keep ..).egr.same (by decide)
@[simp] theorem askRecord_sec (type : ℕ) (key : ℕ) (tomb : Bool) (bodies : List ℕ) (rank : ℕ) (after : After) (w : Wall) : (askRecord type key tomb bodies rank after w).sec = w.sec := (askRecord_keep ..).sec.same (by decide)
@[simp] theorem askRecord_gra_bank0 (type : ℕ) (key : ℕ) (tomb : Bool) (bodies : List ℕ) (rank : ℕ) (after : After) (w : Wall) : (askRecord type key tomb bodies rank after w).gra.bank0 = w.gra.bank0 := (askRecord_keep ..).gra.bank0 (by decide)
@[simp] theorem askRecord_gra_bank1 (type : ℕ) (key : ℕ) (tomb : Bool) (bodies : List ℕ) (rank : ℕ) (after : After) (w : Wall) : (askRecord type key tomb bodies rank after w).gra.bank1 = w.gra.bank1 := (askRecord_keep ..).gra.bank1 (by decide)
@[simp] theorem askRecord_gra_hdr0 (type : ℕ) (key : ℕ) (tomb : Bool) (bodies : List ℕ) (rank : ℕ) (after : After) (w : Wall) : (askRecord type key tomb bodies rank after w).gra.hdr0 = w.gra.hdr0 := (askRecord_keep ..).gra.hdr0 (by decide)
@[simp] theorem askRecord_gra_hdr1 (type : ℕ) (key : ℕ) (tomb : Bool) (bodies : List ℕ) (rank : ℕ) (after : After) (w : Wall) : (askRecord type key tomb bodies rank after w).gra.hdr1 = w.gra.hdr1 := (askRecord_keep ..).gra.hdr1 (by decide)
@[simp] theorem askRecord_gra_rows (type : ℕ) (key : ℕ) (tomb : Bool) (bodies : List ℕ) (rank : ℕ) (after : After) (w : Wall) : (askRecord type key tomb bodies rank after w).gra.rows = w.gra.rows := (askRecord_keep ..).gra.rows (by decide)
@[simp] theorem askRecord_gra_done (type : ℕ) (key : ℕ) (tomb : Bool) (bodies : List ℕ) (rank : ℕ) (after : After) (w : Wall) : (askRecord type key tomb bodies rank after w).gra.done = w.gra.done := (askRecord_keep ..).gra.done (by decide)
@[simp] theorem askRecord_gra_benignAt (type : ℕ) (key : ℕ) (tomb : Bool) (bodies : List ℕ) (rank : ℕ) (after : After) (w : Wall) : (askRecord type key tomb bodies rank after w).gra.benignAt = w.gra.benignAt := (askRecord_keep ..).gra.benignAt (by decide)
@[simp] theorem askRecord_gra_digestSeq (type : ℕ) (key : ℕ) (tomb : Bool) (bodies : List ℕ) (rank : ℕ) (after : After) (w : Wall) : (askRecord type key tomb bodies rank after w).gra.digestSeq = w.gra.digestSeq := (askRecord_keep ..).gra.digestSeq (by decide)
@[simp] theorem askRecord_gra_shelf (type : ℕ) (key : ℕ) (tomb : Bool) (bodies : List ℕ) (rank : ℕ) (after : After) (w : Wall) : (askRecord type key tomb bodies rank after w).gra.shelf = w.gra.shelf := (askRecord_keep ..).gra.shelf (by decide)
@[simp] theorem askRecord_gra_loadedGen (type : ℕ) (key : ℕ) (tomb : Bool) (bodies : List ℕ) (rank : ℕ) (after : After) (w : Wall) : (askRecord type key tomb bodies rank after w).gra.loadedGen = w.gra.loadedGen := (askRecord_keep ..).gra.loadedGen (by decide)
@[simp] theorem askRecord_gra_digest (type : ℕ) (key : ℕ) (tomb : Bool) (bodies : List ℕ) (rank : ℕ) (after : After) (w : Wall) : (askRecord type key tomb bodies rank after w).gra.digest = w.gra.digest := (askRecord_keep ..).gra.digest (by decide)
@[simp] theorem askRecord_gra_digestWait (type : ℕ) (key : ℕ) (tomb : Bool) (bodies : List ℕ) (rank : ℕ) (after : After) (w : Wall) : (askRecord type key tomb bodies rank after w).gra.digestWait = w.gra.digestWait := (askRecord_keep ..).gra.digestWait (by decide)
@[simp] theorem askRecord_gra_bucket (type : ℕ) (key : ℕ) (tomb : Bool) (bodies : List ℕ) (rank : ℕ) (after : After) (w : Wall) : (askRecord type key tomb bodies rank after w).gra.bucket = w.gra.bucket := (askRecord_keep ..).gra.bucket (by decide)
@[simp] theorem askRecord_gra_suppressed (type : ℕ) (key : ℕ) (tomb : Bool) (bodies : List ℕ) (rank : ℕ) (after : After) (w : Wall) : (askRecord type key tomb bodies rank after w).gra.suppressed = w.gra.suppressed := (askRecord_keep ..).gra.suppressed (by decide)
@[simp] theorem askRecord_gra_retiredToday (type : ℕ) (key : ℕ) (tomb : Bool) (bodies : List ℕ) (rank : ℕ) (after : After) (w : Wall) : (askRecord type key tomb bodies rank after w).gra.retiredToday = w.gra.retiredToday := (askRecord_keep ..).gra.retiredToday (by decide)
@[simp] theorem askRecord_gra_retireDay (type : ℕ) (key : ℕ) (tomb : Bool) (bodies : List ℕ) (rank : ℕ) (after : After) (w : Wall) : (askRecord type key tomb bodies rank after w).gra.retireDay = w.gra.retireDay := (askRecord_keep ..).gra.retireDay (by decide)
@[simp] theorem askRecord_gra_wearDays (type : ℕ) (key : ℕ) (tomb : Bool) (bodies : List ℕ) (rank : ℕ) (after : After) (w : Wall) : (askRecord type key tomb bodies rank after w).gra.wearDays = w.gra.wearDays := (askRecord_keep ..).gra.wearDays (by decide)
@[simp] theorem askRecord_gra_retention (type : ℕ) (key : ℕ) (tomb : Bool) (bodies : List ℕ) (rank : ℕ) (after : After) (w : Wall) : (askRecord type key tomb bodies rank after w).gra.retention = w.gra.retention := (askRecord_keep ..).gra.retention (by decide)
@[simp] theorem askRecord_hst (type : ℕ) (key : ℕ) (tomb : Bool) (bodies : List ℕ) (rank : ℕ) (after : After) (w : Wall) : (askRecord type key tomb bodies rank after w).hst = w.hst := (askRecord_keep ..).hst.same (by decide)
@[simp] theorem askRecord_stw (type : ℕ) (key : ℕ) (tomb : Bool) (bodies : List ℕ) (rank : ℕ) (after : After) (w : Wall) : (askRecord type key tomb bodies rank after w).stw = w.stw := (askRecord_keep ..).stw.same (by decide)
@[simp] theorem askRecord_obs (type : ℕ) (key : ℕ) (tomb : Bool) (bodies : List ℕ) (rank : ℕ) (after : After) (w : Wall) : (askRecord type key tomb bodies rank after w).obs = w.obs := (askRecord_keep ..).obs.same (by decide)
@[simp] theorem commitReg_regs (r : Reg) (bytes : ℕ) (w : Wall) : (commitReg r bytes w).regs = w.regs := (commitReg_keep ..).regs (by decide)
@[simp] theorem commitReg_win (r : Reg) (bytes : ℕ) (w : Wall) : (commitReg r bytes w).win = w.win := (commitReg_keep ..).win (by decide)
@[simp] theorem commitReg_freeN (r : Reg) (bytes : ℕ) (w : Wall) : (commitReg r bytes w).freeN = w.freeN := (commitReg_keep ..).freeN (by decide)
@[simp] theorem commitReg_out (r : Reg) (bytes : ℕ) (w : Wall) : (commitReg r bytes w).out = w.out := (commitReg_keep ..).out (by decide)
@[simp] theorem commitReg_get (r : Reg) (bytes : ℕ) (w : Wall) (o : Reg) : (commitReg r bytes w).get o = w.get o := by unfold Wall.get; rw [commitReg_regs]
@[simp] theorem commitReg_time (r : Reg) (bytes : ℕ) (w : Wall) : (commitReg r bytes w).time = w.time := (commitReg_keep ..).time.same (by decide)
@[simp] theorem commitReg_bnd (r : Reg) (bytes : ℕ) (w : Wall) : (commitReg r bytes w).bnd = w.bnd := (commitReg_keep ..).bnd.same (by decide)
@[simp] theorem commitReg_led (r : Reg) (bytes : ℕ) (w : Wall) : (commitReg r bytes w).led = w.led := (commitReg_keep ..).led.same (by decide)
@[simp] theorem commitReg_lan (r : Reg) (bytes : ℕ) (w : Wall) : (commitReg r bytes w).lan = w.lan := (commitReg_keep ..).lan.same (by decide)
@[simp] theorem commitReg_prt (r : Reg) (bytes : ℕ) (w : Wall) : (commitReg r bytes w).prt = w.prt := (commitReg_keep ..).prt.same (by decide)
@[simp] theorem commitReg_ing (r : Reg) (bytes : ℕ) (w : Wall) : (commitReg r bytes w).ing = w.ing := (commitReg_keep ..).ing.same (by decide)
@[simp] theorem commitReg_egr (r : Reg) (bytes : ℕ) (w : Wall) : (commitReg r bytes w).egr = w.egr := (commitReg_keep ..).egr.same (by decide)
@[simp] theorem commitReg_sec (r : Reg) (bytes : ℕ) (w : Wall) : (commitReg r bytes w).sec = w.sec := (commitReg_keep ..).sec.same (by decide)
@[simp] theorem commitReg_gra_bank0 (r : Reg) (bytes : ℕ) (w : Wall) : (commitReg r bytes w).gra.bank0 = w.gra.bank0 := (commitReg_keep ..).gra.bank0 (by decide)
@[simp] theorem commitReg_gra_bank1 (r : Reg) (bytes : ℕ) (w : Wall) : (commitReg r bytes w).gra.bank1 = w.gra.bank1 := (commitReg_keep ..).gra.bank1 (by decide)
@[simp] theorem commitReg_gra_hdr0 (r : Reg) (bytes : ℕ) (w : Wall) : (commitReg r bytes w).gra.hdr0 = w.gra.hdr0 := (commitReg_keep ..).gra.hdr0 (by decide)
@[simp] theorem commitReg_gra_hdr1 (r : Reg) (bytes : ℕ) (w : Wall) : (commitReg r bytes w).gra.hdr1 = w.gra.hdr1 := (commitReg_keep ..).gra.hdr1 (by decide)
@[simp] theorem commitReg_gra_rows (r : Reg) (bytes : ℕ) (w : Wall) : (commitReg r bytes w).gra.rows = w.gra.rows := (commitReg_keep ..).gra.rows (by decide)
@[simp] theorem commitReg_gra_done (r : Reg) (bytes : ℕ) (w : Wall) : (commitReg r bytes w).gra.done = w.gra.done := (commitReg_keep ..).gra.done (by decide)
@[simp] theorem commitReg_gra_benignAt (r : Reg) (bytes : ℕ) (w : Wall) : (commitReg r bytes w).gra.benignAt = w.gra.benignAt := (commitReg_keep ..).gra.benignAt (by decide)
@[simp] theorem commitReg_gra_digestSeq (r : Reg) (bytes : ℕ) (w : Wall) : (commitReg r bytes w).gra.digestSeq = w.gra.digestSeq := (commitReg_keep ..).gra.digestSeq (by decide)
@[simp] theorem commitReg_gra_shelf (r : Reg) (bytes : ℕ) (w : Wall) : (commitReg r bytes w).gra.shelf = w.gra.shelf := (commitReg_keep ..).gra.shelf (by decide)
@[simp] theorem commitReg_gra_loadedGen (r : Reg) (bytes : ℕ) (w : Wall) : (commitReg r bytes w).gra.loadedGen = w.gra.loadedGen := (commitReg_keep ..).gra.loadedGen (by decide)
@[simp] theorem commitReg_gra_digest (r : Reg) (bytes : ℕ) (w : Wall) : (commitReg r bytes w).gra.digest = w.gra.digest := (commitReg_keep ..).gra.digest (by decide)
@[simp] theorem commitReg_gra_digestWait (r : Reg) (bytes : ℕ) (w : Wall) : (commitReg r bytes w).gra.digestWait = w.gra.digestWait := (commitReg_keep ..).gra.digestWait (by decide)
@[simp] theorem commitReg_gra_bucket (r : Reg) (bytes : ℕ) (w : Wall) : (commitReg r bytes w).gra.bucket = w.gra.bucket := (commitReg_keep ..).gra.bucket (by decide)
@[simp] theorem commitReg_gra_suppressed (r : Reg) (bytes : ℕ) (w : Wall) : (commitReg r bytes w).gra.suppressed = w.gra.suppressed := (commitReg_keep ..).gra.suppressed (by decide)
@[simp] theorem commitReg_gra_retiredToday (r : Reg) (bytes : ℕ) (w : Wall) : (commitReg r bytes w).gra.retiredToday = w.gra.retiredToday := (commitReg_keep ..).gra.retiredToday (by decide)
@[simp] theorem commitReg_gra_retireDay (r : Reg) (bytes : ℕ) (w : Wall) : (commitReg r bytes w).gra.retireDay = w.gra.retireDay := (commitReg_keep ..).gra.retireDay (by decide)
@[simp] theorem commitReg_gra_wearDays (r : Reg) (bytes : ℕ) (w : Wall) : (commitReg r bytes w).gra.wearDays = w.gra.wearDays := (commitReg_keep ..).gra.wearDays (by decide)
@[simp] theorem commitReg_gra_retention (r : Reg) (bytes : ℕ) (w : Wall) : (commitReg r bytes w).gra.retention = w.gra.retention := (commitReg_keep ..).gra.retention (by decide)
@[simp] theorem commitReg_hst (r : Reg) (bytes : ℕ) (w : Wall) : (commitReg r bytes w).hst = w.hst := (commitReg_keep ..).hst.same (by decide)
@[simp] theorem commitReg_stw (r : Reg) (bytes : ℕ) (w : Wall) : (commitReg r bytes w).stw = w.stw := (commitReg_keep ..).stw.same (by decide)
@[simp] theorem commitReg_obs (r : Reg) (bytes : ℕ) (w : Wall) : (commitReg r bytes w).obs = w.obs := (commitReg_keep ..).obs.same (by decide)
@[simp] theorem enterDetect_win (sp : ℕ) (fails : ℕ) (w : Wall) : (enterDetect sp fails w).win = w.win := (enterDetect_keep ..).win (by decide)
@[simp] theorem enterDetect_time (sp : ℕ) (fails : ℕ) (w : Wall) : (enterDetect sp fails w).time = w.time := (enterDetect_keep ..).time.same (by decide)
@[simp] theorem enterDetect_bnd (sp : ℕ) (fails : ℕ) (w : Wall) : (enterDetect sp fails w).bnd = w.bnd := (enterDetect_keep ..).bnd.same (by decide)
@[simp] theorem enterDetect_led (sp : ℕ) (fails : ℕ) (w : Wall) : (enterDetect sp fails w).led = w.led := (enterDetect_keep ..).led.same (by decide)
@[simp] theorem enterDetect_lan_exchs (sp : ℕ) (fails : ℕ) (w : Wall) : (enterDetect sp fails w).lan.exchs = w.lan.exchs := (enterDetect_keep ..).lan.exchs (by decide)
@[simp] theorem enterDetect_lan_exchNo (sp : ℕ) (fails : ℕ) (w : Wall) : (enterDetect sp fails w).lan.exchNo = w.lan.exchNo := (enterDetect_keep ..).lan.exchNo (by decide)
@[simp] theorem enterDetect_lan_rounds (sp : ℕ) (fails : ℕ) (w : Wall) : (enterDetect sp fails w).lan.rounds = w.lan.rounds := (enterDetect_keep ..).lan.rounds (by decide)
@[simp] theorem enterDetect_lan_surveys (sp : ℕ) (fails : ℕ) (w : Wall) : (enterDetect sp fails w).lan.surveys = w.lan.surveys := (enterDetect_keep ..).lan.surveys (by decide)
@[simp] theorem enterDetect_lan_roundStartS (sp : ℕ) (fails : ℕ) (w : Wall) : (enterDetect sp fails w).lan.roundStartS = w.lan.roundStartS := (enterDetect_keep ..).lan.roundStartS (by decide)
@[simp] theorem enterDetect_lan_almanac (sp : ℕ) (fails : ℕ) (w : Wall) : (enterDetect sp fails w).lan.almanac = w.lan.almanac := (enterDetect_keep ..).lan.almanac (by decide)
@[simp] theorem enterDetect_prt (sp : ℕ) (fails : ℕ) (w : Wall) : (enterDetect sp fails w).prt = w.prt := (enterDetect_keep ..).prt.same (by decide)
@[simp] theorem enterDetect_ing (sp : ℕ) (fails : ℕ) (w : Wall) : (enterDetect sp fails w).ing = w.ing := (enterDetect_keep ..).ing.same (by decide)
@[simp] theorem enterDetect_egr (sp : ℕ) (fails : ℕ) (w : Wall) : (enterDetect sp fails w).egr = w.egr := (enterDetect_keep ..).egr.same (by decide)
@[simp] theorem enterDetect_sec (sp : ℕ) (fails : ℕ) (w : Wall) : (enterDetect sp fails w).sec = w.sec := (enterDetect_keep ..).sec.same (by decide)
@[simp] theorem enterDetect_gra (sp : ℕ) (fails : ℕ) (w : Wall) : (enterDetect sp fails w).gra = w.gra := (enterDetect_keep ..).gra.same (by decide)
@[simp] theorem enterDetect_hst_rings (sp : ℕ) (fails : ℕ) (w : Wall) : (enterDetect sp fails w).hst.rings = w.hst.rings := (enterDetect_keep ..).hst.rings (by decide)
@[simp] theorem enterDetect_hst_mills (sp : ℕ) (fails : ℕ) (w : Wall) : (enterDetect sp fails w).hst.mills = w.hst.mills := (enterDetect_keep ..).hst.mills (by decide)
@[simp] theorem enterDetect_hst_turn (sp : ℕ) (fails : ℕ) (w : Wall) : (enterDetect sp fails w).hst.turn = w.hst.turn := (enterDetect_keep ..).hst.turn (by decide)
@[simp] theorem enterDetect_stw (sp : ℕ) (fails : ℕ) (w : Wall) : (enterDetect sp fails w).stw = w.stw := (enterDetect_keep ..).stw.same (by decide)
@[simp] theorem enterDetect_obs_day (sp : ℕ) (fails : ℕ) (w : Wall) : (enterDetect sp fails w).obs.day = w.obs.day := (enterDetect_keep ..).obs.day (by decide)
@[simp] theorem enterDetect_obs_srcSeq (sp : ℕ) (fails : ℕ) (w : Wall) : (enterDetect sp fails w).obs.srcSeq = w.obs.srcSeq := (enterDetect_keep ..).obs.srcSeq (by decide)
@[simp] theorem enterDetect_obs_samples (sp : ℕ) (fails : ℕ) (w : Wall) : (enterDetect sp fails w).obs.samples = w.obs.samples := (enterDetect_keep ..).obs.samples (by decide)
@[simp] theorem enterDetect_obs_sampleSeq (sp : ℕ) (fails : ℕ) (w : Wall) : (enterDetect sp fails w).obs.sampleSeq = w.obs.sampleSeq := (enterDetect_keep ..).obs.sampleSeq (by decide)
@[simp] theorem enterDetect_obs_high (sp : ℕ) (fails : ℕ) (w : Wall) : (enterDetect sp fails w).obs.high = w.obs.high := (enterDetect_keep ..).obs.high (by decide)
@[simp] theorem enterDetect_obs_tallyRecs (sp : ℕ) (fails : ℕ) (w : Wall) : (enterDetect sp fails w).obs.tallyRecs = w.obs.tallyRecs := (enterDetect_keep ..).obs.tallyRecs (by decide)
@[simp] theorem enterDetect_obs_tallySeq (sp : ℕ) (fails : ℕ) (w : Wall) : (enterDetect sp fails w).obs.tallySeq = w.obs.tallySeq := (enterDetect_keep ..).obs.tallySeq (by decide)
@[simp] theorem enterDetect_obs_books (sp : ℕ) (fails : ℕ) (w : Wall) : (enterDetect sp fails w).obs.books = w.obs.books := (enterDetect_keep ..).obs.books (by decide)
@[simp] theorem enterDetect_obs_booksDue (sp : ℕ) (fails : ℕ) (w : Wall) : (enterDetect sp fails w).obs.booksDue = w.obs.booksDue := (enterDetect_keep ..).obs.booksDue (by decide)
@[simp] theorem enterDetect_obs_illegalS (sp : ℕ) (fails : ℕ) (w : Wall) : (enterDetect sp fails w).obs.illegalS = w.obs.illegalS := (enterDetect_keep ..).obs.illegalS (by decide)
@[simp] theorem runOp_win (u : ℕ) (op : ℕ) (opr : ℕ) (f : SeqRt → SeqRt) (m : Mode) (w : Wall) : (runOp u op opr f m w).win = w.win := (runOp_keep ..).win (by decide)
@[simp] theorem runOp_freeN (u : ℕ) (op : ℕ) (opr : ℕ) (f : SeqRt → SeqRt) (m : Mode) (w : Wall) : (runOp u op opr f m w).freeN = w.freeN := (runOp_keep ..).freeN (by decide)
@[simp] theorem runOp_out (u : ℕ) (op : ℕ) (opr : ℕ) (f : SeqRt → SeqRt) (m : Mode) (w : Wall) : (runOp u op opr f m w).out = w.out := (runOp_keep ..).out (by decide)
@[simp] theorem runOp_time (u : ℕ) (op : ℕ) (opr : ℕ) (f : SeqRt → SeqRt) (m : Mode) (w : Wall) : (runOp u op opr f m w).time = w.time := (runOp_keep ..).time.same (by decide)
@[simp] theorem runOp_bnd (u : ℕ) (op : ℕ) (opr : ℕ) (f : SeqRt → SeqRt) (m : Mode) (w : Wall) : (runOp u op opr f m w).bnd = w.bnd := (runOp_keep ..).bnd.same (by decide)
@[simp] theorem runOp_led (u : ℕ) (op : ℕ) (opr : ℕ) (f : SeqRt → SeqRt) (m : Mode) (w : Wall) : (runOp u op opr f m w).led = w.led := (runOp_keep ..).led.same (by decide)
@[simp] theorem runOp_lan (u : ℕ) (op : ℕ) (opr : ℕ) (f : SeqRt → SeqRt) (m : Mode) (w : Wall) : (runOp u op opr f m w).lan = w.lan := (runOp_keep ..).lan.same (by decide)
@[simp] theorem runOp_prt (u : ℕ) (op : ℕ) (opr : ℕ) (f : SeqRt → SeqRt) (m : Mode) (w : Wall) : (runOp u op opr f m w).prt = w.prt := (runOp_keep ..).prt.same (by decide)
@[simp] theorem runOp_ing (u : ℕ) (op : ℕ) (opr : ℕ) (f : SeqRt → SeqRt) (m : Mode) (w : Wall) : (runOp u op opr f m w).ing = w.ing := (runOp_keep ..).ing.same (by decide)
@[simp] theorem runOp_egr (u : ℕ) (op : ℕ) (opr : ℕ) (f : SeqRt → SeqRt) (m : Mode) (w : Wall) : (runOp u op opr f m w).egr = w.egr := (runOp_keep ..).egr.same (by decide)
@[simp] theorem runOp_sec (u : ℕ) (op : ℕ) (opr : ℕ) (f : SeqRt → SeqRt) (m : Mode) (w : Wall) : (runOp u op opr f m w).sec = w.sec := (runOp_keep ..).sec.same (by decide)
@[simp] theorem runOp_gra (u : ℕ) (op : ℕ) (opr : ℕ) (f : SeqRt → SeqRt) (m : Mode) (w : Wall) : (runOp u op opr f m w).gra = w.gra := (runOp_keep ..).gra.same (by decide)
@[simp] theorem runOp_hst_rings (u : ℕ) (op : ℕ) (opr : ℕ) (f : SeqRt → SeqRt) (m : Mode) (w : Wall) : (runOp u op opr f m w).hst.rings = w.hst.rings := (runOp_keep ..).hst.rings (by decide)
@[simp] theorem runOp_hst_mills (u : ℕ) (op : ℕ) (opr : ℕ) (f : SeqRt → SeqRt) (m : Mode) (w : Wall) : (runOp u op opr f m w).hst.mills = w.hst.mills := (runOp_keep ..).hst.mills (by decide)
@[simp] theorem runOp_hst_turn (u : ℕ) (op : ℕ) (opr : ℕ) (f : SeqRt → SeqRt) (m : Mode) (w : Wall) : (runOp u op opr f m w).hst.turn = w.hst.turn := (runOp_keep ..).hst.turn (by decide)
@[simp] theorem runOp_stw_hooks (u : ℕ) (op : ℕ) (opr : ℕ) (f : SeqRt → SeqRt) (m : Mode) (w : Wall) : (runOp u op opr f m w).stw.hooks = w.stw.hooks := (runOp_keep ..).stw.hooks (by decide)
@[simp] theorem runOp_stw_levels (u : ℕ) (op : ℕ) (opr : ℕ) (f : SeqRt → SeqRt) (m : Mode) (w : Wall) : (runOp u op opr f m w).stw.levels = w.stw.levels := (runOp_keep ..).stw.levels (by decide)
@[simp] theorem runOp_stw_restarting (u : ℕ) (op : ℕ) (opr : ℕ) (f : SeqRt → SeqRt) (m : Mode) (w : Wall) : (runOp u op opr f m w).stw.restarting = w.stw.restarting := (runOp_keep ..).stw.restarting (by decide)
@[simp] theorem runOp_stw_reeveFault (u : ℕ) (op : ℕ) (opr : ℕ) (f : SeqRt → SeqRt) (m : Mode) (w : Wall) : (runOp u op opr f m w).stw.reeveFault = w.stw.reeveFault := (runOp_keep ..).stw.reeveFault (by decide)
@[simp] theorem runOp_obs_day (u : ℕ) (op : ℕ) (opr : ℕ) (f : SeqRt → SeqRt) (m : Mode) (w : Wall) : (runOp u op opr f m w).obs.day = w.obs.day := (runOp_keep ..).obs.day (by decide)
@[simp] theorem runOp_obs_srcSeq (u : ℕ) (op : ℕ) (opr : ℕ) (f : SeqRt → SeqRt) (m : Mode) (w : Wall) : (runOp u op opr f m w).obs.srcSeq = w.obs.srcSeq := (runOp_keep ..).obs.srcSeq (by decide)
@[simp] theorem runOp_obs_high (u : ℕ) (op : ℕ) (opr : ℕ) (f : SeqRt → SeqRt) (m : Mode) (w : Wall) : (runOp u op opr f m w).obs.high = w.obs.high := (runOp_keep ..).obs.high (by decide)
@[simp] theorem runOp_obs_tally (u : ℕ) (op : ℕ) (opr : ℕ) (f : SeqRt → SeqRt) (m : Mode) (w : Wall) : (runOp u op opr f m w).obs.tally = w.obs.tally := (runOp_keep ..).obs.tally (by decide)
@[simp] theorem runOp_obs_tallyRecs (u : ℕ) (op : ℕ) (opr : ℕ) (f : SeqRt → SeqRt) (m : Mode) (w : Wall) : (runOp u op opr f m w).obs.tallyRecs = w.obs.tallyRecs := (runOp_keep ..).obs.tallyRecs (by decide)
@[simp] theorem runOp_obs_tallySeq (u : ℕ) (op : ℕ) (opr : ℕ) (f : SeqRt → SeqRt) (m : Mode) (w : Wall) : (runOp u op opr f m w).obs.tallySeq = w.obs.tallySeq := (runOp_keep ..).obs.tallySeq (by decide)
@[simp] theorem runOp_obs_books (u : ℕ) (op : ℕ) (opr : ℕ) (f : SeqRt → SeqRt) (m : Mode) (w : Wall) : (runOp u op opr f m w).obs.books = w.obs.books := (runOp_keep ..).obs.books (by decide)
@[simp] theorem runOp_obs_booksDue (u : ℕ) (op : ℕ) (opr : ℕ) (f : SeqRt → SeqRt) (m : Mode) (w : Wall) : (runOp u op opr f m w).obs.booksDue = w.obs.booksDue := (runOp_keep ..).obs.booksDue (by decide)
@[simp] theorem runOp_obs_illegalS (u : ℕ) (op : ℕ) (opr : ℕ) (f : SeqRt → SeqRt) (m : Mode) (w : Wall) : (runOp u op opr f m w).obs.illegalS = w.obs.illegalS := (runOp_keep ..).obs.illegalS (by decide)
@[simp] theorem discardOut_freeN (f : EFrame) (status : ℕ) (w : Wall) : (discardOut f status w).freeN = w.freeN := (discardOut_keep ..).freeN (by decide)
@[simp] theorem discardOut_time (f : EFrame) (status : ℕ) (w : Wall) : (discardOut f status w).time = w.time := (discardOut_keep ..).time.same (by decide)
@[simp] theorem discardOut_bnd (f : EFrame) (status : ℕ) (w : Wall) : (discardOut f status w).bnd = w.bnd := (discardOut_keep ..).bnd.same (by decide)
@[simp] theorem discardOut_led (f : EFrame) (status : ℕ) (w : Wall) : (discardOut f status w).led = w.led := (discardOut_keep ..).led.same (by decide)
@[simp] theorem discardOut_lan (f : EFrame) (status : ℕ) (w : Wall) : (discardOut f status w).lan = w.lan := (discardOut_keep ..).lan.same (by decide)
@[simp] theorem discardOut_prt (f : EFrame) (status : ℕ) (w : Wall) : (discardOut f status w).prt = w.prt := (discardOut_keep ..).prt.same (by decide)
@[simp] theorem discardOut_ing (f : EFrame) (status : ℕ) (w : Wall) : (discardOut f status w).ing = w.ing := (discardOut_keep ..).ing.same (by decide)
@[simp] theorem discardOut_egr_queues (f : EFrame) (status : ℕ) (w : Wall) : (discardOut f status w).egr.queues = w.egr.queues := (discardOut_keep ..).egr.queues (by decide)
@[simp] theorem discardOut_egr_active (f : EFrame) (status : ℕ) (w : Wall) : (discardOut f status w).egr.active = w.egr.active := (discardOut_keep ..).egr.active (by decide)
@[simp] theorem discardOut_egr_shapers (f : EFrame) (status : ℕ) (w : Wall) : (discardOut f status w).egr.shapers = w.egr.shapers := (discardOut_keep ..).egr.shapers (by decide)
@[simp] theorem discardOut_egr_building (f : EFrame) (status : ℕ) (w : Wall) : (discardOut f status w).egr.building = w.egr.building := (discardOut_keep ..).egr.building (by decide)
@[simp] theorem discardOut_egr_txNow (f : EFrame) (status : ℕ) (w : Wall) : (discardOut f status w).egr.txNow = w.egr.txNow := (discardOut_keep ..).egr.txNow (by decide)
@[simp] theorem discardOut_egr_hostChunks (f : EFrame) (status : ℕ) (w : Wall) : (discardOut f status w).egr.hostChunks = w.egr.hostChunks := (discardOut_keep ..).egr.hostChunks (by decide)
@[simp] theorem discardOut_egr_gates (f : EFrame) (status : ℕ) (w : Wall) : (discardOut f status w).egr.gates = w.egr.gates := (discardOut_keep ..).egr.gates (by decide)
@[simp] theorem discardOut_egr_wrr (f : EFrame) (status : ℕ) (w : Wall) : (discardOut f status w).egr.wrr = w.egr.wrr := (discardOut_keep ..).egr.wrr (by decide)
@[simp] theorem discardOut_sec (f : EFrame) (status : ℕ) (w : Wall) : (discardOut f status w).sec = w.sec := (discardOut_keep ..).sec.same (by decide)
@[simp] theorem discardOut_gra (f : EFrame) (status : ℕ) (w : Wall) : (discardOut f status w).gra = w.gra := (discardOut_keep ..).gra.same (by decide)
@[simp] theorem discardOut_hst_mills (f : EFrame) (status : ℕ) (w : Wall) : (discardOut f status w).hst.mills = w.hst.mills := (discardOut_keep ..).hst.mills (by decide)
@[simp] theorem discardOut_hst_turn (f : EFrame) (status : ℕ) (w : Wall) : (discardOut f status w).hst.turn = w.hst.turn := (discardOut_keep ..).hst.turn (by decide)
@[simp] theorem discardOut_stw (f : EFrame) (status : ℕ) (w : Wall) : (discardOut f status w).stw = w.stw := (discardOut_keep ..).stw.same (by decide)
@[simp] theorem discardOut_obs (f : EFrame) (status : ℕ) (w : Wall) : (discardOut f status w).obs = w.obs := (discardOut_keep ..).obs.same (by decide)
@[simp] theorem badWindow_win (w : Wall) : (badWindow w).win = w.win := (badWindow_keep ..).win (by decide)
@[simp] theorem badWindow_freeN (w : Wall) : (badWindow w).freeN = w.freeN := (badWindow_keep ..).freeN (by decide)
@[simp] theorem badWindow_out (w : Wall) : (badWindow w).out = w.out := (badWindow_keep ..).out (by decide)
@[simp] theorem badWindow_time (w : Wall) : (badWindow w).time = w.time := (badWindow_keep ..).time.same (by decide)
@[simp] theorem badWindow_bnd (w : Wall) : (badWindow w).bnd = w.bnd := (badWindow_keep ..).bnd.same (by decide)
@[simp] theorem badWindow_led (w : Wall) : (badWindow w).led = w.led := (badWindow_keep ..).led.same (by decide)
@[simp] theorem badWindow_lan (w : Wall) : (badWindow w).lan = w.lan := (badWindow_keep ..).lan.same (by decide)
@[simp] theorem badWindow_prt (w : Wall) : (badWindow w).prt = w.prt := (badWindow_keep ..).prt.same (by decide)
@[simp] theorem badWindow_ing (w : Wall) : (badWindow w).ing = w.ing := (badWindow_keep ..).ing.same (by decide)
@[simp] theorem badWindow_egr (w : Wall) : (badWindow w).egr = w.egr := (badWindow_keep ..).egr.same (by decide)
@[simp] theorem badWindow_sec (w : Wall) : (badWindow w).sec = w.sec := (badWindow_keep ..).sec.same (by decide)
@[simp] theorem badWindow_gra (w : Wall) : (badWindow w).gra = w.gra := (badWindow_keep ..).gra.same (by decide)
@[simp] theorem badWindow_hst (w : Wall) : (badWindow w).hst = w.hst := (badWindow_keep ..).hst.same (by decide)
@[simp] theorem badWindow_stw (w : Wall) : (badWindow w).stw = w.stw := (badWindow_keep ..).stw.same (by decide)
@[simp] theorem badWindow_obs (w : Wall) : (badWindow w).obs = w.obs := (badWindow_keep ..).obs.same (by decide)
@[simp] theorem showSa_win (u : ℕ) (k : ℕ) (w : Wall) : (showSa u k w).win = w.win := (showSa_keep ..).win (by decide)
@[simp] theorem showSa_freeN (u : ℕ) (k : ℕ) (w : Wall) : (showSa u k w).freeN = w.freeN := (showSa_keep ..).freeN (by decide)
@[simp] theorem showSa_out (u : ℕ) (k : ℕ) (w : Wall) : (showSa u k w).out = w.out := (showSa_keep ..).out (by decide)
@[simp] theorem showSa_time (u : ℕ) (k : ℕ) (w : Wall) : (showSa u k w).time = w.time := (showSa_keep ..).time.same (by decide)
@[simp] theorem showSa_bnd (u : ℕ) (k : ℕ) (w : Wall) : (showSa u k w).bnd = w.bnd := (showSa_keep ..).bnd.same (by decide)
@[simp] theorem showSa_led (u : ℕ) (k : ℕ) (w : Wall) : (showSa u k w).led = w.led := (showSa_keep ..).led.same (by decide)
@[simp] theorem showSa_lan (u : ℕ) (k : ℕ) (w : Wall) : (showSa u k w).lan = w.lan := (showSa_keep ..).lan.same (by decide)
@[simp] theorem showSa_prt (u : ℕ) (k : ℕ) (w : Wall) : (showSa u k w).prt = w.prt := (showSa_keep ..).prt.same (by decide)
@[simp] theorem showSa_ing (u : ℕ) (k : ℕ) (w : Wall) : (showSa u k w).ing = w.ing := (showSa_keep ..).ing.same (by decide)
@[simp] theorem showSa_egr (u : ℕ) (k : ℕ) (w : Wall) : (showSa u k w).egr = w.egr := (showSa_keep ..).egr.same (by decide)
@[simp] theorem showSa_sec (u : ℕ) (k : ℕ) (w : Wall) : (showSa u k w).sec = w.sec := (showSa_keep ..).sec.same (by decide)
@[simp] theorem showSa_gra (u : ℕ) (k : ℕ) (w : Wall) : (showSa u k w).gra = w.gra := (showSa_keep ..).gra.same (by decide)
@[simp] theorem showSa_hst (u : ℕ) (k : ℕ) (w : Wall) : (showSa u k w).hst = w.hst := (showSa_keep ..).hst.same (by decide)
@[simp] theorem showSa_stw (u : ℕ) (k : ℕ) (w : Wall) : (showSa u k w).stw = w.stw := (showSa_keep ..).stw.same (by decide)
@[simp] theorem showSa_obs (u : ℕ) (k : ℕ) (w : Wall) : (showSa u k w).obs = w.obs := (showSa_keep ..).obs.same (by decide)
@[simp] theorem newShadow_regs (b : ℕ) (w : Wall) : (newShadow b w).regs = w.regs := (newShadow_keep ..).regs (by decide)
@[simp] theorem newShadow_win (b : ℕ) (w : Wall) : (newShadow b w).win = w.win := (newShadow_keep ..).win (by decide)
@[simp] theorem newShadow_freeN (b : ℕ) (w : Wall) : (newShadow b w).freeN = w.freeN := (newShadow_keep ..).freeN (by decide)
@[simp] theorem newShadow_out (b : ℕ) (w : Wall) : (newShadow b w).out = w.out := (newShadow_keep ..).out (by decide)
@[simp] theorem newShadow_get (b : ℕ) (w : Wall) (o : Reg) : (newShadow b w).get o = w.get o := by unfold Wall.get; rw [newShadow_regs]
@[simp] theorem newShadow_time (b : ℕ) (w : Wall) : (newShadow b w).time = w.time := (newShadow_keep ..).time.same (by decide)
@[simp] theorem newShadow_bnd (b : ℕ) (w : Wall) : (newShadow b w).bnd = w.bnd := (newShadow_keep ..).bnd.same (by decide)
@[simp] theorem newShadow_led_queue (b : ℕ) (w : Wall) : (newShadow b w).led.queue = w.led.queue := (newShadow_keep ..).led.queue (by decide)
@[simp] theorem newShadow_led_closed (b : ℕ) (w : Wall) : (newShadow b w).led.closed = w.led.closed := (newShadow_keep ..).led.closed (by decide)
@[simp] theorem newShadow_led_deferred (b : ℕ) (w : Wall) : (newShadow b w).led.deferred = w.led.deferred := (newShadow_keep ..).led.deferred (by decide)
@[simp] theorem newShadow_led_store (b : ℕ) (w : Wall) : (newShadow b w).led.store = w.led.store := (newShadow_keep ..).led.store (by decide)
@[simp] theorem newShadow_led_transfers (b : ℕ) (w : Wall) : (newShadow b w).led.transfers = w.led.transfers := (newShadow_keep ..).led.transfers (by decide)
@[simp] theorem newShadow_led_doms (b : ℕ) (w : Wall) : (newShadow b w).led.doms = w.led.doms := (newShadow_keep ..).led.doms (by decide)
@[simp] theorem newShadow_led_sessions (b : ℕ) (w : Wall) : (newShadow b w).led.sessions = w.led.sessions := (newShadow_keep ..).led.sessions (by decide)
@[simp] theorem newShadow_led_handshakes (b : ℕ) (w : Wall) : (newShadow b w).led.handshakes = w.led.handshakes := (newShadow_keep ..).led.handshakes (by decide)
@[simp] theorem newShadow_led_cursor (b : ℕ) (w : Wall) : (newShadow b w).led.cursor = w.led.cursor := (newShadow_keep ..).led.cursor (by decide)
@[simp] theorem newShadow_led_indicator (b : ℕ) (w : Wall) : (newShadow b w).led.indicator = w.led.indicator := (newShadow_keep ..).led.indicator (by decide)
@[simp] theorem newShadow_led_moveDue (b : ℕ) (w : Wall) : (newShadow b w).led.moveDue = w.led.moveDue := (newShadow_keep ..).led.moveDue (by decide)
@[simp] theorem newShadow_led_icmpSecond (b : ℕ) (w : Wall) : (newShadow b w).led.icmpSecond = w.led.icmpSecond := (newShadow_keep ..).led.icmpSecond (by decide)
@[simp] theorem newShadow_led_icmpCount (b : ℕ) (w : Wall) : (newShadow b w).led.icmpCount = w.led.icmpCount := (newShadow_keep ..).led.icmpCount (by decide)
@[simp] theorem newShadow_led_inbandSecond (b : ℕ) (w : Wall) : (newShadow b w).led.inbandSecond = w.led.inbandSecond := (newShadow_keep ..).led.inbandSecond (by decide)
@[simp] theorem newShadow_led_inbandCount (b : ℕ) (w : Wall) : (newShadow b w).led.inbandCount = w.led.inbandCount := (newShadow_keep ..).led.inbandCount (by decide)
@[simp] theorem newShadow_led_inbandSent (b : ℕ) (w : Wall) : (newShadow b w).led.inbandSent = w.led.inbandSent := (newShadow_keep ..).led.inbandSent (by decide)
@[simp] theorem newShadow_lan (b : ℕ) (w : Wall) : (newShadow b w).lan = w.lan := (newShadow_keep ..).lan.same (by decide)
@[simp] theorem newShadow_prt (b : ℕ) (w : Wall) : (newShadow b w).prt = w.prt := (newShadow_keep ..).prt.same (by decide)
@[simp] theorem newShadow_ing (b : ℕ) (w : Wall) : (newShadow b w).ing = w.ing := (newShadow_keep ..).ing.same (by decide)
@[simp] theorem newShadow_egr (b : ℕ) (w : Wall) : (newShadow b w).egr = w.egr := (newShadow_keep ..).egr.same (by decide)
@[simp] theorem newShadow_sec (b : ℕ) (w : Wall) : (newShadow b w).sec = w.sec := (newShadow_keep ..).sec.same (by decide)
@[simp] theorem newShadow_gra (b : ℕ) (w : Wall) : (newShadow b w).gra = w.gra := (newShadow_keep ..).gra.same (by decide)
@[simp] theorem newShadow_hst (b : ℕ) (w : Wall) : (newShadow b w).hst = w.hst := (newShadow_keep ..).hst.same (by decide)
@[simp] theorem newShadow_stw (b : ℕ) (w : Wall) : (newShadow b w).stw = w.stw := (newShadow_keep ..).stw.same (by decide)
@[simp] theorem newShadow_obs (b : ℕ) (w : Wall) : (newShadow b w).obs = w.obs := (newShadow_keep ..).obs.same (by decide)
@[simp] theorem setRingStatus_regs (k : ℕ) (v : ℕ) (w : Wall) : (setRingStatus k v w).regs = w.regs := (setRingStatus_keep ..).regs (by decide)
@[simp] theorem setRingStatus_freeN (k : ℕ) (v : ℕ) (w : Wall) : (setRingStatus k v w).freeN = w.freeN := (setRingStatus_keep ..).freeN (by decide)
@[simp] theorem setRingStatus_out (k : ℕ) (v : ℕ) (w : Wall) : (setRingStatus k v w).out = w.out := (setRingStatus_keep ..).out (by decide)
@[simp] theorem setRingStatus_get (k : ℕ) (v : ℕ) (w : Wall) (o : Reg) : (setRingStatus k v w).get o = w.get o := by unfold Wall.get; rw [setRingStatus_regs]
@[simp] theorem setRingStatus_time (k : ℕ) (v : ℕ) (w : Wall) : (setRingStatus k v w).time = w.time := (setRingStatus_keep ..).time.same (by decide)
@[simp] theorem setRingStatus_bnd (k : ℕ) (v : ℕ) (w : Wall) : (setRingStatus k v w).bnd = w.bnd := (setRingStatus_keep ..).bnd.same (by decide)
@[simp] theorem setRingStatus_led (k : ℕ) (v : ℕ) (w : Wall) : (setRingStatus k v w).led = w.led := (setRingStatus_keep ..).led.same (by decide)
@[simp] theorem setRingStatus_lan (k : ℕ) (v : ℕ) (w : Wall) : (setRingStatus k v w).lan = w.lan := (setRingStatus_keep ..).lan.same (by decide)
@[simp] theorem setRingStatus_prt (k : ℕ) (v : ℕ) (w : Wall) : (setRingStatus k v w).prt = w.prt := (setRingStatus_keep ..).prt.same (by decide)
@[simp] theorem setRingStatus_ing (k : ℕ) (v : ℕ) (w : Wall) : (setRingStatus k v w).ing = w.ing := (setRingStatus_keep ..).ing.same (by decide)
@[simp] theorem setRingStatus_egr (k : ℕ) (v : ℕ) (w : Wall) : (setRingStatus k v w).egr = w.egr := (setRingStatus_keep ..).egr.same (by decide)
@[simp] theorem setRingStatus_sec (k : ℕ) (v : ℕ) (w : Wall) : (setRingStatus k v w).sec = w.sec := (setRingStatus_keep ..).sec.same (by decide)
@[simp] theorem setRingStatus_gra (k : ℕ) (v : ℕ) (w : Wall) : (setRingStatus k v w).gra = w.gra := (setRingStatus_keep ..).gra.same (by decide)
@[simp] theorem setRingStatus_hst (k : ℕ) (v : ℕ) (w : Wall) : (setRingStatus k v w).hst = w.hst := (setRingStatus_keep ..).hst.same (by decide)
@[simp] theorem setRingStatus_stw (k : ℕ) (v : ℕ) (w : Wall) : (setRingStatus k v w).stw = w.stw := (setRingStatus_keep ..).stw.same (by decide)
@[simp] theorem setRingStatus_obs (k : ℕ) (v : ℕ) (w : Wall) : (setRingStatus k v w).obs = w.obs := (setRingStatus_keep ..).obs.same (by decide)
@[simp] theorem noteMove_win (old : ℕ) (new : ℕ) (cause : ℕ) (w : Wall) : (noteMove old new cause w).win = w.win := (noteMove_keep ..).win (by decide)
@[simp] theorem noteMove_freeN (old : ℕ) (new : ℕ) (cause : ℕ) (w : Wall) : (noteMove old new cause w).freeN = w.freeN := (noteMove_keep ..).freeN (by decide)
@[simp] theorem noteMove_out (old : ℕ) (new : ℕ) (cause : ℕ) (w : Wall) : (noteMove old new cause w).out = w.out := (noteMove_keep ..).out (by decide)
@[simp] theorem noteMove_time (old : ℕ) (new : ℕ) (cause : ℕ) (w : Wall) : (noteMove old new cause w).time = w.time := (noteMove_keep ..).time.same (by decide)
@[simp] theorem noteMove_bnd (old : ℕ) (new : ℕ) (cause : ℕ) (w : Wall) : (noteMove old new cause w).bnd = w.bnd := (noteMove_keep ..).bnd.same (by decide)
@[simp] theorem noteMove_led (old : ℕ) (new : ℕ) (cause : ℕ) (w : Wall) : (noteMove old new cause w).led = w.led := (noteMove_keep ..).led.same (by decide)
@[simp] theorem noteMove_lan (old : ℕ) (new : ℕ) (cause : ℕ) (w : Wall) : (noteMove old new cause w).lan = w.lan := (noteMove_keep ..).lan.same (by decide)
@[simp] theorem noteMove_prt (old : ℕ) (new : ℕ) (cause : ℕ) (w : Wall) : (noteMove old new cause w).prt = w.prt := (noteMove_keep ..).prt.same (by decide)
@[simp] theorem noteMove_ing (old : ℕ) (new : ℕ) (cause : ℕ) (w : Wall) : (noteMove old new cause w).ing = w.ing := (noteMove_keep ..).ing.same (by decide)
@[simp] theorem noteMove_egr (old : ℕ) (new : ℕ) (cause : ℕ) (w : Wall) : (noteMove old new cause w).egr = w.egr := (noteMove_keep ..).egr.same (by decide)
@[simp] theorem noteMove_sec (old : ℕ) (new : ℕ) (cause : ℕ) (w : Wall) : (noteMove old new cause w).sec = w.sec := (noteMove_keep ..).sec.same (by decide)
@[simp] theorem noteMove_gra (old : ℕ) (new : ℕ) (cause : ℕ) (w : Wall) : (noteMove old new cause w).gra = w.gra := (noteMove_keep ..).gra.same (by decide)
@[simp] theorem noteMove_hst_rings (old : ℕ) (new : ℕ) (cause : ℕ) (w : Wall) : (noteMove old new cause w).hst.rings = w.hst.rings := (noteMove_keep ..).hst.rings (by decide)
@[simp] theorem noteMove_hst_mills (old : ℕ) (new : ℕ) (cause : ℕ) (w : Wall) : (noteMove old new cause w).hst.mills = w.hst.mills := (noteMove_keep ..).hst.mills (by decide)
@[simp] theorem noteMove_hst_turn (old : ℕ) (new : ℕ) (cause : ℕ) (w : Wall) : (noteMove old new cause w).hst.turn = w.hst.turn := (noteMove_keep ..).hst.turn (by decide)
@[simp] theorem noteMove_stw (old : ℕ) (new : ℕ) (cause : ℕ) (w : Wall) : (noteMove old new cause w).stw = w.stw := (noteMove_keep ..).stw.same (by decide)
@[simp] theorem noteMove_obs_samples (old : ℕ) (new : ℕ) (cause : ℕ) (w : Wall) : (noteMove old new cause w).obs.samples = w.obs.samples := (noteMove_keep ..).obs.samples (by decide)
@[simp] theorem noteMove_obs_sampleSeq (old : ℕ) (new : ℕ) (cause : ℕ) (w : Wall) : (noteMove old new cause w).obs.sampleSeq = w.obs.sampleSeq := (noteMove_keep ..).obs.sampleSeq (by decide)
@[simp] theorem noteMove_obs_high (old : ℕ) (new : ℕ) (cause : ℕ) (w : Wall) : (noteMove old new cause w).obs.high = w.obs.high := (noteMove_keep ..).obs.high (by decide)
@[simp] theorem noteMove_obs_tally (old : ℕ) (new : ℕ) (cause : ℕ) (w : Wall) : (noteMove old new cause w).obs.tally = w.obs.tally := (noteMove_keep ..).obs.tally (by decide)
@[simp] theorem noteMove_obs_tallyRecs (old : ℕ) (new : ℕ) (cause : ℕ) (w : Wall) : (noteMove old new cause w).obs.tallyRecs = w.obs.tallyRecs := (noteMove_keep ..).obs.tallyRecs (by decide)
@[simp] theorem noteMove_obs_tallySeq (old : ℕ) (new : ℕ) (cause : ℕ) (w : Wall) : (noteMove old new cause w).obs.tallySeq = w.obs.tallySeq := (noteMove_keep ..).obs.tallySeq (by decide)
@[simp] theorem noteMove_obs_books (old : ℕ) (new : ℕ) (cause : ℕ) (w : Wall) : (noteMove old new cause w).obs.books = w.obs.books := (noteMove_keep ..).obs.books (by decide)
@[simp] theorem noteMove_obs_booksDue (old : ℕ) (new : ℕ) (cause : ℕ) (w : Wall) : (noteMove old new cause w).obs.booksDue = w.obs.booksDue := (noteMove_keep ..).obs.booksDue (by decide)
@[simp] theorem noteMove_obs_illegalS (old : ℕ) (new : ℕ) (cause : ℕ) (w : Wall) : (noteMove old new cause w).obs.illegalS = w.obs.illegalS := (noteMove_keep ..).obs.illegalS (by decide)
@[simp] theorem setMillState_win (sp : ℕ) (v : ℕ) (w : Wall) : (setMillState sp v w).win = w.win := (setMillState_keep ..).win (by decide)
@[simp] theorem setMillState_freeN (sp : ℕ) (v : ℕ) (w : Wall) : (setMillState sp v w).freeN = w.freeN := (setMillState_keep ..).freeN (by decide)
@[simp] theorem setMillState_out (sp : ℕ) (v : ℕ) (w : Wall) : (setMillState sp v w).out = w.out := (setMillState_keep ..).out (by decide)
@[simp] theorem setMillState_time (sp : ℕ) (v : ℕ) (w : Wall) : (setMillState sp v w).time = w.time := (setMillState_keep ..).time.same (by decide)
@[simp] theorem setMillState_bnd (sp : ℕ) (v : ℕ) (w : Wall) : (setMillState sp v w).bnd = w.bnd := (setMillState_keep ..).bnd.same (by decide)
@[simp] theorem setMillState_led (sp : ℕ) (v : ℕ) (w : Wall) : (setMillState sp v w).led = w.led := (setMillState_keep ..).led.same (by decide)
@[simp] theorem setMillState_lan (sp : ℕ) (v : ℕ) (w : Wall) : (setMillState sp v w).lan = w.lan := (setMillState_keep ..).lan.same (by decide)
@[simp] theorem setMillState_prt (sp : ℕ) (v : ℕ) (w : Wall) : (setMillState sp v w).prt = w.prt := (setMillState_keep ..).prt.same (by decide)
@[simp] theorem setMillState_ing (sp : ℕ) (v : ℕ) (w : Wall) : (setMillState sp v w).ing = w.ing := (setMillState_keep ..).ing.same (by decide)
@[simp] theorem setMillState_egr (sp : ℕ) (v : ℕ) (w : Wall) : (setMillState sp v w).egr = w.egr := (setMillState_keep ..).egr.same (by decide)
@[simp] theorem setMillState_sec (sp : ℕ) (v : ℕ) (w : Wall) : (setMillState sp v w).sec = w.sec := (setMillState_keep ..).sec.same (by decide)
@[simp] theorem setMillState_gra (sp : ℕ) (v : ℕ) (w : Wall) : (setMillState sp v w).gra = w.gra := (setMillState_keep ..).gra.same (by decide)
@[simp] theorem setMillState_hst_rings (sp : ℕ) (v : ℕ) (w : Wall) : (setMillState sp v w).hst.rings = w.hst.rings := (setMillState_keep ..).hst.rings (by decide)
@[simp] theorem setMillState_hst_mills (sp : ℕ) (v : ℕ) (w : Wall) : (setMillState sp v w).hst.mills = w.hst.mills := (setMillState_keep ..).hst.mills (by decide)
@[simp] theorem setMillState_hst_turn (sp : ℕ) (v : ℕ) (w : Wall) : (setMillState sp v w).hst.turn = w.hst.turn := (setMillState_keep ..).hst.turn (by decide)
@[simp] theorem setMillState_stw (sp : ℕ) (v : ℕ) (w : Wall) : (setMillState sp v w).stw = w.stw := (setMillState_keep ..).stw.same (by decide)
@[simp] theorem setMillState_obs (sp : ℕ) (v : ℕ) (w : Wall) : (setMillState sp v w).obs = w.obs := (setMillState_keep ..).obs.same (by decide)
@[simp] theorem datagram_win (p : Path) (w : Wall) : (datagram p w).win = w.win := (datagram_keep ..).win (by decide)
@[simp] theorem datagram_freeN (p : Path) (w : Wall) : (datagram p w).freeN = w.freeN := (datagram_keep ..).freeN (by decide)
@[simp] theorem datagram_out (p : Path) (w : Wall) : (datagram p w).out = w.out := (datagram_keep ..).out (by decide)
@[simp] theorem datagram_time (p : Path) (w : Wall) : (datagram p w).time = w.time := (datagram_keep ..).time.same (by decide)
@[simp] theorem datagram_bnd (p : Path) (w : Wall) : (datagram p w).bnd = w.bnd := (datagram_keep ..).bnd.same (by decide)
@[simp] theorem datagram_led (p : Path) (w : Wall) : (datagram p w).led = w.led := (datagram_keep ..).led.same (by decide)
@[simp] theorem datagram_lan (p : Path) (w : Wall) : (datagram p w).lan = w.lan := (datagram_keep ..).lan.same (by decide)
@[simp] theorem datagram_prt (p : Path) (w : Wall) : (datagram p w).prt = w.prt := (datagram_keep ..).prt.same (by decide)
@[simp] theorem datagram_ing (p : Path) (w : Wall) : (datagram p w).ing = w.ing := (datagram_keep ..).ing.same (by decide)
@[simp] theorem datagram_egr (p : Path) (w : Wall) : (datagram p w).egr = w.egr := (datagram_keep ..).egr.same (by decide)
@[simp] theorem datagram_sec (p : Path) (w : Wall) : (datagram p w).sec = w.sec := (datagram_keep ..).sec.same (by decide)
@[simp] theorem datagram_gra (p : Path) (w : Wall) : (datagram p w).gra = w.gra := (datagram_keep ..).gra.same (by decide)
@[simp] theorem datagram_hst_rings (p : Path) (w : Wall) : (datagram p w).hst.rings = w.hst.rings := (datagram_keep ..).hst.rings (by decide)
@[simp] theorem datagram_hst_mills (p : Path) (w : Wall) : (datagram p w).hst.mills = w.hst.mills := (datagram_keep ..).hst.mills (by decide)
@[simp] theorem datagram_hst_turn (p : Path) (w : Wall) : (datagram p w).hst.turn = w.hst.turn := (datagram_keep ..).hst.turn (by decide)
@[simp] theorem datagram_stw_seqs (p : Path) (w : Wall) : (datagram p w).stw.seqs = w.stw.seqs := (datagram_keep ..).stw.seqs (by decide)
@[simp] theorem datagram_stw_hooks (p : Path) (w : Wall) : (datagram p w).stw.hooks = w.stw.hooks := (datagram_keep ..).stw.hooks (by decide)
@[simp] theorem datagram_stw_restarting (p : Path) (w : Wall) : (datagram p w).stw.restarting = w.stw.restarting := (datagram_keep ..).stw.restarting (by decide)
@[simp] theorem datagram_stw_reeveFault (p : Path) (w : Wall) : (datagram p w).stw.reeveFault = w.stw.reeveFault := (datagram_keep ..).stw.reeveFault (by decide)
@[simp] theorem datagram_obs (p : Path) (w : Wall) : (datagram p w).obs = w.obs := (datagram_keep ..).obs.same (by decide)
@[simp] theorem mbxGo_freeN (op : ℕ) (last : Bool) (w : Wall) : (mbxGo op last w).freeN = w.freeN := (mbxGo_keep ..).freeN (by decide)
@[simp] theorem mbxGo_time (op : ℕ) (last : Bool) (w : Wall) : (mbxGo op last w).time = w.time := (mbxGo_keep ..).time.same (by decide)
@[simp] theorem mbxGo_bnd (op : ℕ) (last : Bool) (w : Wall) : (mbxGo op last w).bnd = w.bnd := (mbxGo_keep ..).bnd.same (by decide)
@[simp] theorem mbxGo_led_closed (op : ℕ) (last : Bool) (w : Wall) : (mbxGo op last w).led.closed = w.led.closed := (mbxGo_keep ..).led.closed (by decide)
@[simp] theorem mbxGo_led_deferred (op : ℕ) (last : Bool) (w : Wall) : (mbxGo op last w).led.deferred = w.led.deferred := (mbxGo_keep ..).led.deferred (by decide)
@[simp] theorem mbxGo_led_store (op : ℕ) (last : Bool) (w : Wall) : (mbxGo op last w).led.store = w.led.store := (mbxGo_keep ..).led.store (by decide)
@[simp] theorem mbxGo_led_domGen (op : ℕ) (last : Bool) (w : Wall) : (mbxGo op last w).led.domGen = w.led.domGen := (mbxGo_keep ..).led.domGen (by decide)
@[simp] theorem mbxGo_led_doms (op : ℕ) (last : Bool) (w : Wall) : (mbxGo op last w).led.doms = w.led.doms := (mbxGo_keep ..).led.doms (by decide)
@[simp] theorem mbxGo_led_handshakes (op : ℕ) (last : Bool) (w : Wall) : (mbxGo op last w).led.handshakes = w.led.handshakes := (mbxGo_keep ..).led.handshakes (by decide)
@[simp] theorem mbxGo_led_cursor (op : ℕ) (last : Bool) (w : Wall) : (mbxGo op last w).led.cursor = w.led.cursor := (mbxGo_keep ..).led.cursor (by decide)
@[simp] theorem mbxGo_led_indicator (op : ℕ) (last : Bool) (w : Wall) : (mbxGo op last w).led.indicator = w.led.indicator := (mbxGo_keep ..).led.indicator (by decide)
@[simp] theorem mbxGo_led_moveDue (op : ℕ) (last : Bool) (w : Wall) : (mbxGo op last w).led.moveDue = w.led.moveDue := (mbxGo_keep ..).led.moveDue (by decide)
@[simp] theorem mbxGo_led_icmpSecond (op : ℕ) (last : Bool) (w : Wall) : (mbxGo op last w).led.icmpSecond = w.led.icmpSecond := (mbxGo_keep ..).led.icmpSecond (by decide)
@[simp] theorem mbxGo_led_icmpCount (op : ℕ) (last : Bool) (w : Wall) : (mbxGo op last w).led.icmpCount = w.led.icmpCount := (mbxGo_keep ..).led.icmpCount (by decide)
@[simp] theorem mbxGo_led_inbandSecond (op : ℕ) (last : Bool) (w : Wall) : (mbxGo op last w).led.inbandSecond = w.led.inbandSecond := (mbxGo_keep ..).led.inbandSecond (by decide)
@[simp] theorem mbxGo_led_inbandCount (op : ℕ) (last : Bool) (w : Wall) : (mbxGo op last w).led.inbandCount = w.led.inbandCount := (mbxGo_keep ..).led.inbandCount (by decide)
@[simp] theorem mbxGo_led_inbandSent (op : ℕ) (last : Bool) (w : Wall) : (mbxGo op last w).led.inbandSent = w.led.inbandSent := (mbxGo_keep ..).led.inbandSent (by decide)
@[simp] theorem mbxGo_lan (op : ℕ) (last : Bool) (w : Wall) : (mbxGo op last w).lan = w.lan := (mbxGo_keep ..).lan.same (by decide)
@[simp] theorem mbxGo_prt (op : ℕ) (last : Bool) (w : Wall) : (mbxGo op last w).prt = w.prt := (mbxGo_keep ..).prt.same (by decide)
@[simp] theorem mbxGo_ing (op : ℕ) (last : Bool) (w : Wall) : (mbxGo op last w).ing = w.ing := (mbxGo_keep ..).ing.same (by decide)
@[simp] theorem mbxGo_egr (op : ℕ) (last : Bool) (w : Wall) : (mbxGo op last w).egr = w.egr := (mbxGo_keep ..).egr.same (by decide)
@[simp] theorem mbxGo_sec (op : ℕ) (last : Bool) (w : Wall) : (mbxGo op last w).sec = w.sec := (mbxGo_keep ..).sec.same (by decide)
@[simp] theorem mbxGo_gra (op : ℕ) (last : Bool) (w : Wall) : (mbxGo op last w).gra = w.gra := (mbxGo_keep ..).gra.same (by decide)
@[simp] theorem mbxGo_hst_rings (op : ℕ) (last : Bool) (w : Wall) : (mbxGo op last w).hst.rings = w.hst.rings := (mbxGo_keep ..).hst.rings (by decide)
@[simp] theorem mbxGo_hst_mills (op : ℕ) (last : Bool) (w : Wall) : (mbxGo op last w).hst.mills = w.hst.mills := (mbxGo_keep ..).hst.mills (by decide)
@[simp] theorem mbxGo_hst_turn (op : ℕ) (last : Bool) (w : Wall) : (mbxGo op last w).hst.turn = w.hst.turn := (mbxGo_keep ..).hst.turn (by decide)
@[simp] theorem mbxGo_stw_seqs (op : ℕ) (last : Bool) (w : Wall) : (mbxGo op last w).stw.seqs = w.stw.seqs := (mbxGo_keep ..).stw.seqs (by decide)
@[simp] theorem mbxGo_stw_hooks (op : ℕ) (last : Bool) (w : Wall) : (mbxGo op last w).stw.hooks = w.stw.hooks := (mbxGo_keep ..).stw.hooks (by decide)
@[simp] theorem mbxGo_stw_restarting (op : ℕ) (last : Bool) (w : Wall) : (mbxGo op last w).stw.restarting = w.stw.restarting := (mbxGo_keep ..).stw.restarting (by decide)
@[simp] theorem mbxGo_stw_reeveFault (op : ℕ) (last : Bool) (w : Wall) : (mbxGo op last w).stw.reeveFault = w.stw.reeveFault := (mbxGo_keep ..).stw.reeveFault (by decide)
@[simp] theorem mbxGo_obs (op : ℕ) (last : Bool) (w : Wall) : (mbxGo op last w).obs = w.obs := (mbxGo_keep ..).obs.same (by decide)

end Sys2Proof.Machine
end

