-- ==== Sys2Proof/Laws/Seq.lean ====
section
/-! SUPPORT. What completing a macro-instruction does: one lemma for the instructions that only compute, one for those that
may end in a restart fault. -/

open Sys2Proof

namespace Sys2Proof.Machine

@[simp] theorem seq_setSeq_same (w : Wall) (u : Nat) (r : SeqRt) : (w.setSeq u r).seq u = r := tgetD_tput_same ..
theorem seq_setSeq_other (w : Wall) (u n : Nat) (r : SeqRt) (h : n ≠ u) : (w.setSeq u r).seq n = w.seq n :=
  tgetD_tput_other _ _ _ _ _ h

theorem seq_congr {w x : Wall} (h : x.stw.seqs = w.stw.seqs) (n : Nat) : x.seq n = w.seq n := by
  unfold Wall.seq; rw [h]

/-! ### No latch but one of the host side makes a vector event (R539) -/

theorem latch_hst_of_ne {u s : Nat} {w : Wall} (h : u ≠ 17) : (latch u s w).hst = w.hst := by
  unfold latch setLatch
  split
  · rfl
  · have e : (u == 17) = false := by simpa using h
    simp only [e, Bool.false_and, when_false]
    rfl

theorem takeSample_hst {u k : Nat} {w : Wall} : (takeSample u k w).hst = w.hst := by
  unfold takeSample
  split
  · rfl
  · split
    · rfl
    · dsimp only; unfold when; split
      · rw [latch_hst_of_ne (by decide)]; rfl
      · rfl

theorem pcAdd_hst {b k n : Nat} {w : Wall} (h : b ≠ 17) : (pcAdd b k n w).hst = w.hst := by
  have z : ∀ (b k : Nat) (w : Wall), b ≠ 17 → (counterWrapped b k w).hst = w.hst := by
    intro b k w h
    unfold counterWrapped when
    dsimp only
    split <;> split <;> first | rw [takeSample_hst, latch_hst_of_ne h]; rfl | rw [takeSample_hst]; rfl | rw [latch_hst_of_ne h]; rfl | rfl
  have y : ∀ (b k n : Nat) (w : Wall), b ≠ 17 → (pcBump b k n w).hst = w.hst := by
    intro b k n w h
    unfold pcBump when
    dsimp only
    split
    · rw [z _ _ _ h]; rfl
    · rfl
  unfold pcAdd when
  dsimp only
  split
  · rw [y _ _ _ _ h, y _ _ _ _ h]
  · exact y _ _ _ _ h

theorem pcCount_hst {b ev n : Nat} {sp tc : Option Nat} {w : Wall} (h : b ≠ 17) : (pcCount b ev n sp tc w).hst = w.hst := by
  unfold pcCount
  refine upTo_keeps (fun x : Wall => x.hst = w.hst) _ _ _ rfl fun k x e => ?_
  unfold when
  split
  · rw [pcAdd_hst h, e]
  · exact e

/-! ### Completion (R602 event 0x1C, R610) -/

/-- Completing an instruction touches no sequencer but, for the Reeve, its own count of them. -/
theorem completed_seq (u : Nat) (w : Wall) : ∃ k, ∀ n,
    (completed u w).seq n = if n = u then { w.seq u with macroCount := k } else w.seq n := by
  unfold completed
  split
  · refine ⟨(w.seq u).macroCount, fun n => ?_⟩
    have e : (pcCount u 0x1C 1 none none w).seq n = w.seq n := seq_congr (by rw [pcCount_stw]) n
    rw [e]
    split
    · subst n; rfl
    · rfl
  · dsimp only
    split
    · refine ⟨0, fun n => ?_⟩
      have e : ∀ x : Wall, (takeSample 16 255 x).seq n = x.seq n := fun x =>
        seq_congr ((takeSample_keep 16 255 x).stw.seqs (by decide)) n
      rw [e]
      split
      · subst n; rw [seq_setSeq_same]
      · exact seq_setSeq_other _ _ _ _ ‹_›
    · refine ⟨(w.seq u).macroCount + 1, fun n => ?_⟩
      split
      · subst n; rw [seq_setSeq_same]
      · exact seq_setSeq_other _ _ _ _ ‹_›

theorem completed_hst {u : Nat} (h : u ≤ 16) (w : Wall) : (completed u w).hst = w.hst := by
  unfold completed
  split
  · exact pcCount_hst (by omega)
  · dsimp only
    split
    · rw [takeSample_hst]; rfl
    · rfl

/-! ### Objects that no latch, sample, counter, Daybook entry or event writes -/

theorem Aside.ne {o r : Reg} (h : Aside o)
    (k : r.key / 256 = 0x1101 ∨ r.key / 256 = 0x1500 ∨ r.key / 256 = 0x1520 ∨ (0x1700 ≤ r.key / 256 ∧ r.key / 256 ≤ 0x1711) ∨
      (0x2100 ≤ r.key / 256 ∧ r.key / 256 < 0x2200 ∧ (r.key / 256 % 16 = 13 ∨ r.key / 256 % 16 = 15))) : o.key ≠ r.key := by
  intro e
  unfold Aside at h
  rw [e] at h
  omega

theorem Aside.bump {o r : Reg} {w : Wall} {n : Nat} (h : o.key ≠ r.key) : (w.bump r n).get o = w.get o := get_bump_other _ _ _ _ h

theorem Aside.bh {o : Reg} (h : Aside o) {u : Nat} (hu : u ≤ 17) :
    o.key ≠ (Reg.bhPending u).key ∧ o.key ≠ (Reg.bhCoalesced u).key ∧ o.key ≠ (Reg.bhTaken u).key := by
  refine ⟨h.ne ?_, h.ne ?_, h.ne ?_⟩ <;> simp only [Reg.bhPending, Reg.bhCoalesced, Reg.bhTaken] <;> omega

theorem Aside.latch {o : Reg} (h : Aside o) {u s : Nat} {w : Wall} (hu : u ≤ 17) : (latch u s w).get o = w.get o :=
  get_latch _ _ _ _ (h.bh hu).1 (h.bh hu).2.1 fun _ => (h.bh (Nat.le_refl 17)).2.2

theorem Aside.setLatch {o : Reg} (h : Aside o) {u s : Nat} {w : Wall} (hu : u ≤ 17) : (setLatch u s w).get o = w.get o := by
  unfold Machine.setLatch when
  dsimp only
  split
  · unfold hostEvent
    rw [get_vecEvent, get_bump_other _ _ _ _ (h.bh (Nat.le_refl 17)).2.2, get_setBitR_other _ _ _ _ (h.bh hu).1]
  · exact get_setBitR_other _ _ _ _ (h.bh hu).1

theorem Aside.level {o : Reg} (h : Aside o) {u s : Nat} {b : Bool} {w : Wall} (hu : u ≤ 17) : (level u s b w).get o = w.get o := by
  have e : ∀ (c : Bool) (x : Wall), (when c (Machine.setLatch u s) x).get o = x.get o := fun c x => by
    cases c
    · rfl
    · exact h.setLatch hu
  unfold Machine.level
  exact (e _ _).trans rfl

theorem Aside.takeSample {o : Reg} (h : Aside o) {u k : Nat} {w : Wall} : (takeSample u k w).get o = w.get o := by
  unfold Machine.takeSample
  split
  · rfl
  · split
    · exact get_bump_other _ _ _ _ (h.ne (by decide))
    · dsimp only; unfold when; split
      · rw [h.latch (by decide)]; exact get_bump_other _ _ _ _ (h.ne (by decide))
      · exact get_bump_other _ _ _ _ (h.ne (by decide))

theorem Aside.pcBump {o : Reg} (h : Aside o) {b k n : Nat} {w : Wall} (hb : b < 16) (hk : k < 32) : (pcBump b k n w).get o = w.get o := by
  have e1 : o.key ≠ (Reg.pcValue b k).key := h.ne (by simp only [Reg.pcValue]; omega)
  have e2 : o.key ≠ (Reg.pcOvf b).key := h.ne (by simp only [Reg.pcOvf]; omega)
  unfold Machine.pcBump counterWrapped when
  dsimp only
  split
  · split <;> split <;> simp only [h.takeSample, h.latch (show b ≤ 17 by omega), get_setBitR_other _ _ _ _ e2, get_set_other _ _ _ _ e1]
  · exact get_set_other _ _ _ _ e1

theorem Aside.pcAdd {o : Reg} (h : Aside o) {b k n : Nat} {w : Wall} (hb : b < 16) (hk : k < 32) : (pcAdd b k n w).get o = w.get o := by
  unfold Machine.pcAdd when
  dsimp only
  split
  · rename_i c
    have : k + 1 < 32 := by
      simp only [Bool.and_eq_true, beq_iff_eq] at c
      omega
    rw [h.pcBump hb this, h.pcBump hb hk]
  · exact h.pcBump hb hk

theorem upTo_keeps_lt {β : Type} (P : β → Prop) (n : Nat) (f : Nat → β → β) (a : β) (h : P a)
    (hf : ∀ i a, i < n → P a → P (f i a)) : P (upTo n f a) := by
  unfold upTo
  suffices ∀ (l : List Nat) (a : β), (∀ i ∈ l, i < n) → P a → P (l.foldl (fun x i => f i x) a) from
    this _ _ (fun i hi => List.mem_range.mp hi) h
  intro l
  induction l with
  | nil => exact fun a _ h => h
  | cons i l ih => exact fun a hl h => ih _ (fun j hj => hl j (List.mem_cons_of_mem _ hj)) (hf _ _ (hl i List.mem_cons_self) h)

theorem Aside.pcCount {o : Reg} (h : Aside o) {b ev n : Nat} {sp tc : Option Nat} {w : Wall} (hb : b < 16) :
    (pcCount b ev n sp tc w).get o = w.get o := by
  unfold Machine.pcCount
  refine upTo_keeps_lt (fun x : Wall => x.get o = w.get o) _ _ _ rfl fun k x hk e => ?_
  unfold when
  split
  · rw [h.pcAdd hb hk, e]
  · exact e

theorem Aside.daybook {o : Reg} (h : Aside o) {src code detail : Nat} {w : Wall} : (daybook src code detail w).get o = w.get o := by
  have e : ∀ x : Wall, (x.bump Reg.dbWritten 1).get o = x.get o := fun x => get_bump_other _ _ _ _ (h.ne (by decide))
  unfold Machine.daybook dayHighWater when
  dsimp only
  split
  · rw [h.latch (by decide), e]; rfl
  · rw [e]; rfl

theorem get_closeSession (slot reason : Nat) (send : Bool) (w : Wall) (o : Reg) : (closeSession slot reason send w).get o = w.get o := by
  unfold closeSession
  split
  · rfl
  · dsimp only; unfold when; split <;> rfl

theorem Aside.deliver {o : Reg} (h : Aside o) {src code q detail cls : Nat} {w : Wall} : (deliver src code q detail cls w).get o = w.get o := by
  unfold Machine.deliver
  refine upTo_keeps (fun x : Wall => x.get o = w.get o) _ _ _ rfl fun k x e => ?_
  rw [← e]
  unfold sendEvent
  split
  · rfl
  · split
    · rfl
    · split
      · exact get_bump_other _ _ _ _ (h.ne (by decide))
      · split
        · exact get_closeSession ..
        · rfl

/-- An event writes none of them. -/
theorem Aside.raise {o : Reg} (h : Aside o) {src code detail cls : Nat} {w : Wall} : (raise src code detail cls w).get o = w.get o := by
  unfold Machine.raise eventLatches when
  dsimp only
  split <;> split <;> simp only [h.latch (show 17 ≤ 17 by decide), h.deliver, h.daybook]

/-- A completed instruction writes none of them. -/
theorem Aside.completed {o : Reg} (h : Aside o) {u : Nat} {w : Wall} : (completed u w).get o = w.get o := by
  unfold Machine.completed
  split
  · exact h.pcCount ‹_›
  · dsimp only
    split
    · rw [h.takeSample]; rfl
    · rfl

/-- An instruction that only computes: what is left after it. -/
theorem runOp_does {u op opr : Nat} {f : SeqRt → SeqRt} {s : State} (hu : u ≤ 16) (h : atInstr u s = true) :
    ∃ k t, actSeq (runOp u op opr f) s = .next t ∧ OnlySeq u s t ∧
      t.w.seq u = { f (fetched op opr (s.w.seq u)) with macroCount := k } := by
  unfold atInstr at h
  rw [Bool.and_eq_true, Bool.and_eq_true] at h
  obtain ⟨⟨h1, h2⟩, h3⟩ := h
  have e : runOp u op opr f s.mode s.w = completed u (s.w.setSeq u (f (fetched op opr (s.w.seq u)))) := by
    unfold runOp
    rw [h2, h3]
    rfl
  obtain ⟨k, hk⟩ := completed_seq u (s.w.setSeq u (f (fetched op opr (s.w.seq u))))
  refine ⟨k, { s with w := completed u (s.w.setSeq u (f (fetched op opr (s.w.seq u)))) }, ?_, ?_, ?_⟩
  · unfold actSeq actIfM
    rw [h1, e]
    rfl
  · have c := completed_keep u (s.w.setSeq u (f (fetched op opr (s.w.seq u))))
    constructor
    · rfl
    · rfl
    · intro n hn
      exact (hk n).trans ((if_neg hn).trans (seq_setSeq_other _ _ _ _ hn))
    all_goals first
      | exact completed_hst hu _
      | exact c.time.same (by decide)
      | exact c.bnd.same (by decide)
      | exact c.led.same (by decide)
      | exact c.lan.same (by decide)
      | exact c.prt.same (by decide)
      | exact c.ing.same (by decide)
      | exact c.egr.same (by decide)
      | exact c.sec.same (by decide)
      | exact c.gra.same (by decide)
      | exact c.win (by decide)
      | exact c.out (by decide)
  · have := hk u
    rw [if_pos rfl, seq_setSeq_same] at this
    exact this

end Sys2Proof.Machine
end

