-- ==== Sys2Proof/Laws/Cmd.lean ====
section
/-! SUPPORT. How a command completes: one lemma for each way a meaning is built from its effect. -/

open Sys2Proof

namespace Sys2Proof.Machine

/-- A command without a condition completes with its effect. -/
theorem completes_actM {c : Instr} {s : State} {P : State → Prop} {f : Mode → Wall → Wall} (e : exec c s = actM f s)
    (h : P { s with w := f s.mode s.w }) : Completes c s P := ⟨_, e.trans rfl, h⟩

/-- A command whose condition holds completes with its effect. -/
theorem completes_actIf {c : Instr} {s : State} {P : State → Prop} {g : Mode → Wall → Bool} {f : Wall → Wall}
    (e : exec c s = actIf g f s) (k : g s.mode s.w = true) (h : P { s with w := f s.w }) : Completes c s P := by
  refine ⟨_, e.trans ?_, h⟩
  unfold actIf
  rw [k]
  rfl

theorem completes_actIfM {c : Instr} {s : State} {P : State → Prop} {g : Mode → Wall → Bool} {f : Mode → Wall → Wall}
    (e : exec c s = actIfM g f s) (k : g s.mode s.w = true) (h : P { s with w := f s.mode s.w }) : Completes c s P := by
  refine ⟨_, e.trans ?_, h⟩
  unfold actIfM
  rw [k]
  rfl

/-- A command that may move the mode. -/
theorem completes_actMove {c : Instr} {s : State} {P : State → Prop} {f : Mode → Wall → Mode × Wall} {m : Mode} {w : Wall}
    (e : exec c s = actMove f s) (k : f s.mode s.w = (m, w)) (h : P { s with mode := m, w := w }) : Completes c s P := by
  refine ⟨_, e.trans ?_, h⟩
  unfold actMove
  rw [k]

/-- A command whose condition does not hold changes nothing. -/
theorem actIf_idle {s : State} {g : Mode → Wall → Bool} {f : Wall → Wall} (k : g s.mode s.w = false) : actIf g f s = .next s := by
  unfold actIf
  rw [k]
  rfl

theorem actIfM_idle {s : State} {g : Mode → Wall → Bool} {f : Mode → Wall → Wall} (k : g s.mode s.w = false) :
    actIfM g f s = .next s := by
  unfold actIfM
  rw [k]
  rfl

/-! ### What a restart of the volatile state leaves (R17, R44, R154) -/

theorem fresh_live {α : Type} (f : Wall → α) (w : Wall) (hs : ∀ (x : Wall) (r : Reg) (v : Nat), f (x.set r v) = f x)
    (hl : ∀ (x : Wall) (b : Bool), f (level 16 10 b x) = f x) : f (freshWall w) = f (freshState w) := by
  unfold freshWall
  dsimp only
  rw [hl]
  refine (upTo_keeps (fun x => f x = f (freshState w)) _ _ _ ?_ fun k x h => (hs _ _ _).trans h)
  rw [hs, hs, hs]

theorem freshWall_bnd (w : Wall) : (freshWall w).bnd = (freshState w).bnd := fresh_live (·.bnd) w (fun _ _ _ => rfl) (fun _ _ => by simp)
theorem freshWall_led (w : Wall) : (freshWall w).led = (freshState w).led := fresh_live (·.led) w (fun _ _ _ => rfl) (fun _ _ => by simp)
theorem freshWall_sec (w : Wall) : (freshWall w).sec = (freshState w).sec := fresh_live (·.sec) w (fun _ _ _ => rfl) (fun _ _ => by simp)
theorem freshWall_gra (w : Wall) : (freshWall w).gra = (freshState w).gra := fresh_live (·.gra) w (fun _ _ _ => rfl) (fun _ _ => by simp)
theorem level_hst_of_ne {u k : Nat} {b : Bool} {w : Wall} (h : u ≠ 17) : (level u k b w).hst = w.hst := by
  have z : (u == 17) = false := by simpa using h
  have e : ∀ (c : Bool) (x : Wall), (when c (setLatch u k) x).hst = x.hst := fun c x => by
    cases c
    · rfl
    · show (setLatch u k x).hst = _
      unfold setLatch
      rw [z]
      rfl
  unfold level
  exact (e _ _).trans rfl

theorem freshWall_hst (w : Wall) : (freshWall w).hst = (freshState w).hst :=
  fresh_live (·.hst) w (fun _ _ _ => rfl) (fun _ _ => level_hst_of_ne (by decide))

theorem zeroiseEngines_sec (c : Nat) (w : Wall) : (zeroiseEngines c w).sec = (dropKeys c w).sec := by
  unfold zeroiseEngines
  dsimp only
  have u : ∀ x : Wall, (upTo 4 (fun k w => w.set (Reg.kekState k) 0) x).sec = x.sec := fun x =>
    upTo_keeps (fun y : Wall => y.sec = x.sec) _ _ _ rfl fun _ _ h => h
  split
  · exact (u _).trans rfl
  · unfold writeHeaders
    exact (u _).trans rfl

theorem lastCause_noteMove (a b c : Nat) (w : Wall) : (noteMove a b c w).get Reg.lastCause = c % 256 := by
  unfold noteMove
  dsimp only
  have A : Aside Reg.lastCause := by decide
  rw [A.latch (by decide), A.latch (by decide), get_set_other _ _ _ _ (by decide), A.daybook]
  exact get_set_same ..

theorem Aside.noteMove {o : Reg} (h : Aside o) (h1 : o.key ≠ Reg.lastCause.key) (h2 : o.key ≠ Reg.hostOfficerS.key) (a b c : Nat) (w : Wall) :
   (Machine.noteMove a b c w).get o = w.get o := by
  unfold Machine.noteMove
  dsimp only
  rw [h.latch (by decide), h.latch (by decide), get_set_other _ _ _ _ h2, h.daybook, get_set_other _ _ _ _ h1]

theorem blank_sheaves {w : Wall} (h0 : w.gra.bank0 = []) (h1 : w.gra.bank1 = []) : replaySheaves w = [] := by
  have e : (replayView w).gra = w.gra := by
    unfold replayView; repeat' split
    all_goals rfl
  have : usedSlots (replayView w) = [] := by unfold usedSlots; rw [e, h0, h1]; rfl
  unfold replaySheaves sheaves
  rw [this]; rfl

theorem blank_header {w : Wall} (h0 : w.gra.hdr0 = []) (h1 : w.gra.hdr1 = []) (k : Nat) : headerIn k w = none := by
  unfold headerIn; rw [h0, h1]; split
  · split <;> rfl
  · rfl

theorem blank_recordKeys (t : Nat) : recordKeys [] t = [] := rfl

theorem blank_recordOf (sus) (t k : Nat) : recordOf [] sus t k = none := rfl

theorem blank_unwrap (sus b) : unwrapFails [] sus b = false := by
  have z : (List.range 4).filterMap (fun k => Option.map groupBytes (recordOf [] sus 68 (4640 + k + 1 * 2 ^ 16))) = [] := by
    simp only [blank_recordOf]; decide
  unfold unwrapFails wrappedKeys
  dsimp only
  rw [blank_recordKeys, blank_recordKeys, z]
  cases b <;> rfl

theorem blank_service (i : KindleIn) (w : Wall) (h0 : w.gra.bank0 = []) (h1 : w.gra.bank1 = []) :
    ∃ x : Wall, kindleService i w = (.service, noteMove 2 3 4 ((x.set Reg.kindleStep 8).set Reg.kindleUs i.kindleUs)) := by
  have hs := blank_sheaves h0 h1
  unfold kindleService
  rw [hs]
  dsimp only
  generalize (List.foldl _ _ _ : Wall) = y
  generalize judgeLayout _ _ = z
  have p : ∀ b, (if (!granaryShut z) = true then forwardPads b z [] else ([], [])).1 = [] := by
    intro b; split <;> rfl
  rw [p, blank_unwrap, Bool.and_false]
  exact ⟨_, rfl⟩

theorem kindle_bad (i : KindleIn) (v : Wall) (h : i.romOk = false) : kindle i v = (.kindle, (kindleStart v).set Reg.kindleStep 0xFF) := by
  unfold kindle
  dsimp only
  rw [h]
  rfl

theorem kindle_sealed (i : KindleIn) (v : Wall) (h1 : i.romOk = true) (h2 : i.zeroisePin = false)
    (bw : (readBanks i ((kindleStart v).set Reg.rootLocked 1)).bnd.zeroLatch = false) (h4 : i.selftest ≠ 0) :
    kindle i v = (.sealedMode, zeroiseEngines 3 (sealWall .kindle 3 5 (((readBanks i ((kindleStart v).set Reg.rootLocked 1)).set Reg.kindleStep 3).set Reg.selftestResult i.selftest))) := by
  unfold kindle; dsimp only; rw [h1]
  rw [bw, h2]
  simp only [Bool.not_true, Bool.false_eq_true, or_self, if_false]
  rw [if_pos h4]

theorem rootPllLock_runs {i : KindleIn} {m : Mode} {w : Wall} (hm : m = .kindle) (hw : w.bnd.waitRef = true) (hc : w.bnd.clocksStopped = false)
    (hp : w.bnd.pfail = false) : rootPllLock i m w = kindle i (modBnd (fun b => { b with waitRef := false, fetchDue := false }) w) := by
  unfold rootPllLock
  refine if_pos ⟨hm, Or.inl hw, ?_, ?_⟩
  · rw [hc]; decide
  · rw [hp]; decide

theorem kindleStart_eq (w : Wall) : kindleStart w = ((noteMove (w.bnd.cause / 256) 2 (w.bnd.cause % 256) (freshWall w)).set Reg.kindleStep 1).set Reg.kindleFrom (kindleFromOf (w.bnd.cause % 256)) := rfl

theorem kindleStart_bnd (v : Wall) : (kindleStart v).bnd = (freshState v).bnd := by
  rw [kindleStart_eq, Wall.set_bnd, Wall.set_bnd, noteMove_bnd, freshWall_bnd]

theorem kindleStart_gra (v : Wall) : (kindleStart v).gra = (freshState v).gra := by
  rw [kindleStart_eq, Wall.set_gra, Wall.set_gra, noteMove_gra, freshWall_gra]

theorem kindleStart_waitRef (v : Wall) : (kindleStart v).bnd.waitRef = false := by
  rw [kindleStart_bnd]; rfl

theorem kindleStart_zeroLatch (v : Wall) : (kindleStart v).bnd.zeroLatch = v.bnd.zeroLatch := by
  rw [kindleStart_bnd]; rfl

theorem readBanks_clean {i : KindleIn} {w : Wall} (h5 : i.damage = []) (h6 : i.headerOk0 = true) (h7 : i.headerOk1 = true) : readBanks i w = rebuildRows w := by
  unfold readBanks; dsimp only; rw [h5, h6, h7]; rfl

theorem portsOn_modes {m : Mode} {w : Wall} (h : portsOn m w = true) : m ≠ .off ∧ m ≠ .ember := by
  unfold portsOn inService at h
  constructor <;> (intro e; subst e; simp at h)

theorem reflaneRestored_refLanes (b : Nat) (w : Wall) : (reflaneRestored b w).bnd.refLanes = if bit w.bnd.refLanes b then w.bnd.refLanes else setBit w.bnd.refLanes b := by
  unfold reflaneRestored
  split
  · rfl
  · dsimp only
    refine foldl_keeps (fun x : Wall => x.bnd.refLanes = setBit w.bnd.refLanes b) _ _ _ rfl fun x e h => ?_
    split
    · rw [(enterDetect_keep ..).bnd.refLanes (by decide)]; exact h
    · exact h

theorem reflaneLoss_does (b : Nat) (w : Wall) (hb : bit w.bnd.refLanes b = true) (h : b < 16) : (reflaneLoss b w).bnd.refLanes = clrBit w.bnd.refLanes b ∧
    bit ((reflaneLoss b w).get (Reg.bhPending b)) 15 = true := by
  unfold reflaneLoss
  rw [hb]
  dsimp only
  refine ⟨?_, ?_⟩
  · rw [if_neg (by decide), latch_bnd]
    refine foldl_keeps (fun x : Wall => x.bnd.refLanes = clrBit w.bnd.refLanes b) _ _ _ rfl fun x e h => ?_
    split
    · exact h
    · rw [(downOff_keep ..).bnd.refLanes (by decide)]; exact h
  · rw [if_neg (by decide)]
    refine latch_pending _ _ _ (by simp only [Reg.bhPending]; decide) ?_ ?_
    · simp only [Reg.bhPending, Reg.bhCoalesced]; omega
    · intro e; omega

theorem closeAll_sec (r : Nat) (w : Wall) : (closeAll r w).sec = w.sec := (closeAll_keep r w).sec.same (by decide)

theorem zeroiseStart_sec (w : Wall) : (zeroiseStart (zeroiseEngines 1 w)).sec = { w.sec with sas := [], blobs := [], keks := [], deviceKey := none, zeroising := some 1 } := by
  unfold zeroiseStart
  rw [(closeAll_keep ..).sec.same (by decide), (stopPorts_keep ..).sec.same (by decide), zeroiseEngines_sec]
  rfl

theorem pfailAccept_eq (w : Wall) (h : w.bnd.pfail = false) : pfailAccept w = latch 17 4 (latch 16 0 (daybook 0 0x0E02
   (((modBnd (fun b => { b with pfail := true, pfailHigh := false, avsOut := none }) (setShut true (pfailSheaf w))).bump Reg.pfailCount 1).get Reg.pfailCount)
    ((modBnd (fun b => { b with pfail := true, pfailHigh := false, avsOut := none }) (setShut true (pfailSheaf w))).bump Reg.pfailCount 1))) := by
  unfold pfailAccept; rw [if_neg]; rw [h]; decide

theorem pumpQueue_bnd (w : Wall) : (pumpQueue w).bnd = w.bnd := (pumpQueue_keep w).bnd.same (by decide)

theorem pfailGroup_bnd (w : Wall) : (pfailGroup w).bnd = w.bnd := (pfailGroup_keep w).bnd.same (by decide)

theorem reeveOn_of {s : State} (h : clocksRun s.mode s.w = true) (k : halted s.w = false) : reeveOn s.mode s.w = true := by
  unfold reeveOn awake; rw [h, k]; rfl

theorem windowOpen_of {s : State} (h : clocksRun s.mode s.w = true) (k : halted s.w = false) : windowOpen s.mode s.w = true := by
  unfold windowOpen answers; rw [h, k]; rfl

theorem pumpRings_nil {w : Wall} (h : w.hst.rings = []) : pumpRings w = w := by unfold pumpRings; rw [h]; rfl

theorem daybook_written (a b c : Nat) (w : Wall) : (daybook a b c w).get Reg.dbWritten = (w.get Reg.dbWritten + 1) % 2 ^ 64 := by
  unfold daybook dayHighWater when
  dsimp only
  split
  · rw [get_latch _ _ _ _ (by decide) (by decide) (by decide)]; exact get_bump_same ..
  · exact get_bump_same ..

theorem panicEval_bnd (p : Nat) (w : Wall) : (panicEval p w).bnd = w.bnd := (panicEval_keep p w).bnd.same (by decide)

theorem panicEval_get (p : Nat) (w : Wall) (o : Reg) (h1 : o.key ≠ (Reg.panicNow p).key) (h2 : o.key ≠ (Reg.panicAsserts p).key) : (panicEval p w).get o = w.get o := by
  unfold panicEval
  dsimp only
  split
  · exact get_set_other _ _ _ _ h1
  · split
    · rw [get_bump_other _ _ _ _ h2, get_set_other _ _ _ _ h1]
    · split
      · exact get_set_other _ _ _ _ h1
      · rfl

theorem tget_tupd_same {α : Type} (t : Tbl α) (k : Nat) (f : α → α) (v : α) (h : tget t k = some v) : tget (tupd t k f) k = some (f v) := by
  unfold tupd; rw [h]; exact tget_tput_same ..

theorem respond_get (who : Who) (st : Nat) (d : Option (List Byte)) (w : Wall) (o : Reg) (A : Aside o) (h : o.key ≠ Reg.busyRefused.key) :
   (respond who st d w).get o = w.get o := by
  have wb : ∀ (w : Wall), (when (isBusy st) (fun w => w.bump Reg.busyRefused 1) w).get o = w.get o := fun w => by
    unfold when; split
    · exact get_bump_other _ _ _ _ h
    · rfl
  unfold respond respondG
  dsimp only
  split
  · refine Eq.trans ?_ (wb w)
    unfold mbxComplete
    dsimp only
    rw [A.latch (by decide)]
    have mb : ∀ (l : List Byte) (i : Nat) (x : Wall), (setMbxBytes i l x).get o = x.get o := by
      intro l; induction l with
      | nil => intro i x; rfl
      | cons b l ih => intro i x; unfold setMbxBytes; rw [ih]; rfl
    repeat' split
    all_goals first | exact (mb _ _ _).trans rfl | rfl
  · refine Eq.trans ?_ (wb w)
    unfold sessionRespond
    split
    · rfl
    · split
      · rfl
      · split
        · exact get_closeSession ..
        · rfl

theorem releaseDeferred_get (on : WaitFor) (st : Nat) (d : Option (List Byte)) (w : Wall) (o : Reg) (A : Aside o) (h : o.key ≠ Reg.busyRefused.key) :
   (releaseDeferred on st d w).get o = w.get o := by
  unfold releaseDeferred
  dsimp only
  exact foldl_keeps (fun x : Wall => x.get o = w.get o) _ _ _ rfl fun x e h' => (respond_get _ _ _ _ _ A h).trans h'

theorem releaseDeferred_deferred (on : WaitFor) (st : Nat) (d : Option (List Byte)) (w : Wall) : (releaseDeferred on st d w).led.deferred = w.led.deferred.filter fun d => decide (d.on ≠ on) := by
  unfold releaseDeferred
  dsimp only
  exact foldl_keeps (fun x : Wall => x.led.deferred = w.led.deferred.filter fun d => decide (d.on ≠ on)) _ _ _ rfl fun x e h' => ((respond_keep ..).led.deferred (by decide)).trans h'

theorem lookupResult_two (b : Nat) (w : Wall) : (w.set (Reg.lookupResult b) 2).get (Reg.lookupResult b) = 2 := by
  rw [get_set_same]
  refine Nat.mod_eq_of_lt ?_
  show 2 < 2 ^ 544
  calc 2 < 2 ^ 2 := by decide
    _ ≤ 2 ^ 544 := Nat.pow_le_pow_right (by decide) (by decide)

theorem flushIssue_nil (b : Nat) (w : Wall) (h : w.ing.flushWait = []) : flushIssue b w = w := by unfold flushIssue; rw [h]; rfl

theorem pendingOf_frame {b h n : Nat} {f : IFrame} {w : Wall} (e : pendingOf b h w = some (n, f)) : brickOfSp f.sp = b := by
  unfold pendingOf at e
  have := List.find?_some e
  simp at this
  exact this.1.2

theorem aside_lookup (b : Nat) (h : b < 16) : Aside (Reg.lookupResult b) := by simp only [Aside, Reg.lookupResult]; omega

theorem toInt_ofInt16 (d : Int) (h : -32768 ≤ d) (h' : d < 32768) : toInt 16 (ofInt 16 d % 2 ^ 16) = d := by
  unfold toInt ofInt; norm_num; split <;> omega

theorem aside_tj (k : Nat) (h : k < 5) : Aside (Reg.tj k) := by simp only [Aside, Reg.tj]; omega

theorem tempReading_getI (k : Nat) (d : Int) (w : Wall) (hk : k < 5) (h : -32768 ≤ d) (h' : d < 32768) : (tempReading k d w).getI (Reg.tj k) = d := by
  unfold tempReading Wall.getI
  dsimp only
  rw [(aside_tj k hk).level (by decide), (aside_tj k hk).level (by decide)]
  unfold Wall.setI
  rw [get_set_same]
  exact (congrArg (toInt 16) (Nat.mod_mod _ _).symm).trans ((congrArg (toInt 16) (Nat.mod_mod _ _)).trans (toInt_ofInt16 d h h'))

theorem tempReading_hot (k : Nat) (d : Int) (w : Wall) (hk : k < 5) (h : -32768 ≤ d) (h' : d < 32768) (c : w.getI Reg.tjAlarmC ≤ d) :
    levelHigh 16 11 (tempReading k d w) = true ∧ levelHigh 17 2 (tempReading k d w) = true := by
  have hot : ((List.range 5).any fun j => decide ((w.setI (Reg.tj k) d).getI Reg.tjAlarmC ≤ (w.setI (Reg.tj k) d).getI (Reg.tj j))) = true := by
    rw [List.any_eq_true]
    refine ⟨k, List.mem_range.mpr hk, ?_⟩
    rw [decide_eq_true_iff]
    have e1 : (w.setI (Reg.tj k) d).getI Reg.tjAlarmC = w.getI Reg.tjAlarmC := by
      unfold Wall.getI Wall.setI
      rw [get_set_other]
      simp only [Reg.tj, Reg.tjAlarmC]; omega
    have e2 : (w.setI (Reg.tj k) d).getI (Reg.tj k) = d := by
      unfold Wall.getI Wall.setI
      rw [get_set_same]
      exact toInt_ofInt16 d h h'
    rw [e1, e2]; exact c
  have lv : ∀ (u s : Nat) (x : Wall), s < 64 → levelHigh u s (level u s true x) = true := by
    intro u s x hs
    have : (level u s true x).stw.levels = tputD x.stw.levels u 0 (setBit (tgetD x.stw.levels u 0) s) := by
      unfold level; dsimp only
      have e : ∀ (c : Bool) (y : Wall), (when c (setLatch u s) y).stw.levels = y.stw.levels := by
        intro c y; unfold when; split
        · rw [(setLatch_keep ..).stw.levels (by decide)]
        · rfl
      rw [e]; rfl
    unfold levelHigh; rw [this, tgetD_tputD_same]
    simp [bit, setBit]
  have lo : ∀ (u s v r : Nat) (b : Bool) (x : Wall), u ≠ v → levelHigh u s (level v r b x) = levelHigh u s x := by
    intro u s v r b x huv
    have : (level v r b x).stw.levels = tputD x.stw.levels v 0 (if b then setBit (tgetD x.stw.levels v 0) r else clrBit (tgetD x.stw.levels v 0) r) := by
      unfold level; dsimp only
      have e : ∀ (c : Bool) (y : Wall), (when c (setLatch v r) y).stw.levels = y.stw.levels := by
        intro c y; unfold when; split
        · rw [(setLatch_keep ..).stw.levels (by decide)]
        · rfl
      rw [e]
    unfold levelHigh; rw [this, tgetD_tputD_other _ _ _ _ _ _ huv]
  unfold tempReading
  dsimp only
  rw [hot]
  refine ⟨?_, lv _ _ _ (by decide)⟩
  rw [lo _ _ _ _ _ _ (by decide)]
  exact lv _ _ _ (by decide)

theorem tempReading_bnd (k : Nat) (d : Int) (w : Wall) : (tempReading k d w).bnd = w.bnd := (tempReading_keep ..).bnd.same (by decide)

theorem headTaken_led (w : Wall) : (headTaken w).led = { w.led with queue := w.led.queue.tail } := queueLevel_led _

theorem headTaken_win (w : Wall) : (headTaken w).win = w.win := level_win ..

theorem Aside.headTaken {o : Reg} (h : Aside o) (w : Wall) : (headTaken w).get o = w.get o := h.level (by decide)

theorem serveHead_eq {r : LReq} {w : Wall} (h : w.led.queue.head? = some r) (arg : Nat) (m : Mode) :
    ∃ rest, w.led.queue = r :: rest ∧ serveHead arg m w = match modeAbort m r (headTaken w) with
      | some a => respondG r.who a 0 none (headTaken w)
      | none => match r.op with
        | .read =>
          let x := readObj r m (headTaken w)
          respond r.who x.1 (if x.1 = 0 then some x.2.1 else none) x.2.2
        | .write data => writeHead arg m r data (headTaken w)
        | .segRead off gen len =>
          let x := segRead r off gen len (headTaken w)
          respondG r.who x.1 x.2.1 (if x.1 = 0 then some x.2.2 else none) (headTaken w)
        | .segWrite off _ last data => segWriteHead m r off last data (headTaken w) := by
  cases hq : w.led.queue with
  | nil => rw [hq] at h; cases h
  | cons a rest =>
    rw [hq] at h
    cases h
    refine ⟨rest, rfl, ?_⟩
    have e : headTaken w = queueLevel { w with led := { w.led with queue := rest } } := by unfold headTaken; rw [hq]; rfl
    rw [e]
    unfold serveHead
    rw [hq]
    all_goals rfl

theorem serveIf_eq {r : LReq} {m : Mode} {w : Wall} (h : w.led.queue.head? = some r) (k : serves m w = true) {p : LReq → Bool}
    (hp : p r = true) (arg : Nat) : serveIf p arg m w = serveHead arg m w := by
  cases hq : w.led.queue with
  | nil => rw [hq] at h; cases h
  | cons a rest =>
    rw [hq] at h
    cases h
    unfold serveIf
    rw [hq]
    dsimp only
    rw [k, hp]
    rfl

/-! ### Responses -/

theorem win32_setMbxBytes (l : List Byte) : ∀ (i : Nat) (w : Wall) (o d : Nat), o < 0x1800 → (setMbxBytes i l w).win32 o d = w.win32 o d := by
  induction l with
  | nil => intro i w o d h; rfl
  | cons b l ih =>
    intro i w o d h
    unfold setMbxBytes
    rw [ih _ _ _ _ h]
    unfold setMbxByte
    exact win32_setWin_other _ _ _ _ _ _ (by omega)

theorem win32_latch (u s : Nat) (w : Wall) (o d : Nat) : (latch u s w).win32 o d = w.win32 o d := by
  unfold Wall.win32
  rw [latch_win]

theorem mbxComplete_done (st g : Nat) (d : Option (List Byte)) (w : Wall) : mbxDone st (mbxComplete st g d w) := by
  unfold mbxDone mbxComplete
  dsimp only
  rw [win32_latch, win32_setWin_other _ _ _ _ _ _ (by decide)]
  have k : ∀ n f : Nat, f < 8 → bits ((n % 2 * 8 + f + n / 2 % 2 ^ 16 * 2 ^ 16) % 2 ^ 32) 2 0 = f := by
    intro n f h
    unfold bits
    omega
  have key : ∀ f : Nat, f < 8 → bits ((w.setWin 0x1010 0 (bits (w.win32 0x1010 0) 3 3 * 8 + f + (bits (w.win32 0x1010 0) 31 16 + 1) % 2 ^ 16 * 2 ^ 16)).win32 0x1010 0) 2 0 = f := by
    intro f h
    rw [win32_setWin_same]
    have : ∀ a b : Nat, a < 2 → b < 2 ^ 16 → bits ((a * 8 + f + b * 2 ^ 16) % 2 ^ 32) 2 0 = f := by
      intro a b ha hb
      unfold bits
      omega
    refine this _ _ ?_ (Nat.mod_lt _ (by decide))
    unfold bits
    omega
  by_cases h : st = 0
  · simp only [h, if_true]
    cases d with
    | none => exact key 2 (by decide)
    | some d =>
      dsimp only
      rw [win32_setMbxBytes _ _ _ _ _ (by decide), win32_setWin_other _ _ _ _ _ _ (by decide)]
      exact key 2 (by decide)
  · simp only [h, if_false]
    cases d with
    | none =>
      dsimp only
      rw [win32_setWin_other _ _ _ _ _ _ (by decide)]
      exact key 4 (by decide)
    | some d =>
      dsimp only
      rw [win32_setMbxBytes _ _ _ _ _ (by decide), win32_setWin_other _ _ _ _ _ _ (by decide), win32_setWin_other _ _ _ _ _ _ (by decide)]
      exact key 4 (by decide)

theorem respondG_done (st g : Nat) (d : Option (List Byte)) (w : Wall) : mbxDone st (respondG .mailbox st g d w) := mbxComplete_done ..

theorem respond_done (st : Nat) (d : Option (List Byte)) (w : Wall) : mbxDone st (respond .mailbox st d w) := mbxComplete_done ..

theorem respondG_length (st g : Nat) (d : List Byte) (w : Wall) : (respondG .mailbox st g (some d) w).win32 0x1008 0 = min d.length 2048 := by
  unfold respondG mbxComplete
  dsimp only
  rw [win32_latch, win32_setWin_other _ _ _ _ _ _ (by decide), win32_setMbxBytes _ _ _ _ _ (by decide), win32_setWin_same]
  omega

theorem respondG_queue (who : Who) (st g : Nat) (d : Option (List Byte)) (w : Wall) : (respondG who st g d w).led.queue = w.led.queue :=
  (respondG_keep ..).led.queue (by decide)

theorem ownOf_write {r : LReq} {row : ObjRow} {u k : Nat} {data : List Byte} (h : findRow r.index r.sub objTable = some (row, u, k))
    (o : r.op = .write data) : ownOf r = ownWrite (rowId row) (ofLe data) := by
  unfold ownOf
  rw [h]
  dsimp only
  rw [o]

/-- A write that is ready is judged by its object alone. -/

theorem Ready.head_eq {r : LReq} {row : ObjRow} {u k v : Nat} {data : List Byte} {s : State} (h : Ready r row u k v data s) (arg : Nat) :
    writeHead arg s.mode r data (headTaken s.w) =
      match writeResult arg s.mode r row u k data (headTaken s.w) with
      | .abort a => respond r.who a none (headTaken s.w)
      | .held w => w
      | .later on w => deferResponse r.who r.role on (noteService r (rowId row) data w)
      | .ok w =>
        afterResponse (rowId row) (respond r.who 0 (if rowId row = 0x120004 then some [BitVec.ofNat 8 arg] else none)
          (match needsSteward r.index with
          | some b => latch b 4 (noteService r (rowId row) data w)
          | none => noteService r (rowId row) data w)) := by
  unfold writeHead
  dsimp only
  rw [if_neg (by have := h.index; omega), h.found]
  dsimp only
  rw [if_neg (fun e => h.path e.1), h.access, h.check2, h.value, h.check3]
  rfl

theorem Ready.serve {r : LReq} {row : ObjRow} {u k v : Nat} {data : List Byte} {s : State} (h : Ready r row u k v data s)
    {p : LReq → Bool} (hp : p r = true) (arg : Nat) :
    serveIf p arg s.mode s.w = writeHead arg s.mode r data (headTaken s.w) := by
  rw [serveIf_eq h.head h.served hp]
  obtain ⟨rest, _, e⟩ := serveHead_eq h.head arg s.mode
  rw [e, h.mode]
  dsimp only
  rw [h.op]

/-- A write that its object takes: the wall after its answer. -/
def answered (r : LReq) (row : ObjRow) (data : List Byte) (arg : Nat) (x : Wall) : Wall :=
  afterResponse (rowId row) (respond r.who 0 (if rowId row = 0x120004 then some [BitVec.ofNat 8 arg] else none)
    (match needsSteward r.index with
    | some b => latch b 4 (noteService r (rowId row) data x)
    | none => noteService r (rowId row) data x))

theorem Ready.result {r : LReq} {row : ObjRow} {u k v : Nat} {data : List Byte} {s : State} (h : Ready r row u k v data s) (arg : Nat)
    (hid : rowId row ∉ [0x101001, 0x101101, 0x101102, 0x100202, 0x120101]) :
    writeResult arg s.mode r row u k data (headTaken s.w) = effect arg r row u k v data (headTaken s.w) := by
  simp only [List.mem_cons, List.not_mem_nil, or_false, not_or] at hid
  unfold writeResult
  dsimp only
  rw [h.steward, h.value, h.state, h.present]
  simp only [hid.1, hid.2.1, hid.2.2.1, hid.2.2.2.1, hid.2.2.2.2, if_false, Bool.false_and, Bool.false_eq_true]
  split <;> simp_all

theorem Ready.ok {r : LReq} {row : ObjRow} {u k v : Nat} {data : List Byte} {x : Wall} {s : State} (h : Ready r row u k v data s) {arg : Nat}
    (hid : rowId row ∉ [0x101001, 0x101101, 0x101102, 0x100202, 0x120101]) {p : LReq → Bool} (hp : p r = true)
    (he : effect arg r row u k v data (headTaken s.w) = .ok x) : serveIf p arg s.mode s.w = answered r row data arg x := by
  rw [h.serve hp, h.head_eq, h.result arg hid, he]
  rfl

theorem noteService_get (r : LReq) (id : Nat) (data : List Byte) (w : Wall) (o : Reg) : (noteService r id data w).get o = w.get o := by
  unfold Wall.get
  rw [(noteService_keep ..).regs (by decide)]

theorem needsSteward_lt {i b : Nat} (h : needsSteward i = some b) : b ≤ 17 := by
  unfold needsSteward at h
  split at h
  · injection h with e; omega
  · split at h
    · injection h with e; omega
    · split at h
      · injection h with e; omega
      · split at h
        · injection h with e; omega
        · cases h

/-- The answer of an accepted write changes no object but the latches and the count of refusals. -/

theorem answered_get (r : LReq) (row : ObjRow) (data : List Byte) (arg : Nat) (x : Wall) {o : Reg} (A : Aside o)
    (hb : o.key ≠ Reg.busyRefused.key) (hid : rowId row ∉ [0x118001, 0x118002, 0x118004]) : (answered r row data arg x).get o = x.get o := by
  simp only [List.mem_cons, List.not_mem_nil, or_false, not_or] at hid
  have f : (rowId row == 0x118001 || rowId row == 0x118002 || rowId row == 0x118004) = false := by simp [hid.1, hid.2.1, hid.2.2]
  unfold answered afterResponse
  rw [f, when_false, respond_get _ _ _ _ _ A hb]
  split
  · rename_i b hb'
    rw [A.latch (needsSteward_lt hb'), noteService_get]
  · exact noteService_get ..

theorem answered_keep (r : LReq) (row : ObjRow) (data : List Byte) (arg : Nat) (x : Wall) :
    Keep 0x200642000000000000000000000490000000003 x (answered r row data arg x) := by
  unfold answered
  refine Keep.step ?_ (afterResponse_keep ..) (by decide)
  refine Keep.step ?_ (respond_keep ..) (by decide)
  split
  · refine Keep.step ?_ (latch_keep ..) (by decide)
    exact Keep.step .refl (noteService_keep ..) (by decide)
  · exact Keep.step .refl (noteService_keep ..) (by decide)

theorem afterResponse_win (id : Nat) (w : Wall) : (afterResponse id w).win = w.win := (afterResponse_keep id w).win (by decide)

theorem answered_done (r : LReq) (row : ObjRow) (data : List Byte) (arg : Nat) (x : Wall) (h : r.who = .mailbox) :
    mbxDone 0 (answered r row data arg x) := by
  unfold answered mbxDone Wall.win32
  rw [afterResponse_win, h]
  exact respond_done 0 _ _

theorem effect_queue {arg : Nat} {r : LReq} {row : ObjRow} {u k v : Nat} {data : List Byte} {w x : Wall}
    (he : effect arg r row u k v data w = .ok x) : x.led.queue = w.led.queue :=
  (WRes.Keep.of_ok (effect_keep arg r row u k v data w) he).led.queue (by decide)

theorem setMbxBytes_led (l : List Byte) : ∀ (i : Nat) (w : Wall), (setMbxBytes i l w).led = w.led := by
  induction l with
  | nil => intro i w; rfl
  | cons b l ih => intro i w; unfold setMbxBytes; rw [ih]; rfl

/-- A response to the mailbox leaves the Ledger as it was. -/

theorem respondG_mailbox_led (st g : Nat) (d : Option (List Byte)) (w : Wall) : (respondG .mailbox st g d w).led = w.led := by
  have e : ∀ x : Wall, (mbxComplete st g d x).led = x.led := by
    intro x
    unfold mbxComplete
    dsimp only
    rw [latch_led, Wall.setWin_led]
    split
    · rw [setMbxBytes_led, Wall.setWin_led]
      split <;> rfl
    · split <;> rfl
  unfold respondG
  dsimp only
  rw [e]
  unfold when
  split <;> rfl

theorem Ready.own {r : LReq} {row : ObjRow} {u k v : Nat} {data : List Byte} {s : State} (h : Ready r row u k v data s) {o : Own}
    (ho : ownWrite (rowId row) v = some o) : (ownOf r == some o) = true := by
  rw [ownOf_write h.found h.op, h.raw, ho]; simp

/-- The command of a row of its own completes with its object's effect, answered. -/

theorem Ready.completes {r : LReq} {row : ObjRow} {u k v : Nat} {data : List Byte} {s : State} (h : Ready r row u k v data s) {o : Own} {c : Instr}
    {x : Wall} {P : State → Prop} (e : exec c s = actM (serveOwn o) s) (ho : ownWrite (rowId row) v = some o)
    (special : rowId row ∉ [0x101001, 0x101101, 0x101102, 0x100202, 0x120101]) (he : effect 0 r row u k v data (headTaken s.w) = .ok x)
    (hP : P { s with w := answered r row data 0 x }) : Completes c s P := by
  refine completes_actM e ?_
  rw [show serveOwn o s.mode s.w = answered r row data 0 x from h.ok special (h.own ho) he]
  exact hP

theorem headTaken_lan (w : Wall) : (headTaken w).lan = w.lan := level_lan ..

theorem laneSt_aside (u : Nat) : Aside (Reg.laneState u) := by simp only [Aside, Reg.laneState]; omega

theorem laneUse_aside (u : Nat) : Aside (Reg.laneUse u) := by simp only [Aside, Reg.laneUse]; omega

theorem laneSt_headTaken (u : Nat) (w : Wall) : laneSt u (headTaken w) = laneSt u w := (laneSt_aside u).headTaken w

theorem laneUse_headTaken (u : Nat) (w : Wall) : laneUseOf u (headTaken w) = laneUseOf u w := (laneUse_aside u).headTaken w

/-- An object of an ordinary index other than the lane's own state objects and the pool maps. -/

theorem setUse_get (l c : Nat) (w : Wall) (o : Reg) (h : o.key ≠ (Reg.laneUse l).key ∧ o.key ≠ (Reg.poolMap (brickOfLane l)).key ∧
    o.key ≠ (Reg.heldMap (brickOfLane l)).key ∧ o.key ≠ (Reg.retiredMap (brickOfLane l)).key) : (setUse l c w).get o = w.get o := by
  unfold setUse
  dsimp only
  rw [get_set_other _ _ _ _ h.2.2.2, get_set_other _ _ _ _ h.2.2.1, get_set_other _ _ _ _ h.2.1, get_set_other _ _ _ _ h.1]

theorem setUse_use (l c : Nat) (w : Wall) : laneUseOf l (setUse l c w) = c % 256 := by
  unfold setUse laneUseOf
  dsimp only
  have e : brickOfLane l = l / 68 := rfl
  rw [get_set_other, get_set_other, get_set_other]
  · exact get_set_same ..
  · simp only [Reg.laneUse, Reg.poolMap]; omega
  · simp only [Reg.laneUse, Reg.heldMap]; omega
  · simp only [Reg.laneUse, Reg.retiredMap]; omega

theorem setLaneSt_get (l st : Nat) (w : Wall) (o : Reg) (A : Aside o) (hb : brickOfLane l ≤ 17) (h : o.key ≠ (Reg.laneState l).key ∧
    o.key ≠ (Reg.signalDetect l).key ∧ o.key ≠ (Reg.cdrLocked l).key ∧ o.key ≠ (Reg.eyeState l).key) : (setLaneSt l st w).get o = w.get o := by
  have a : ∀ (c : Bool) (x : Wall), (when c (eyeEnd l 4) x).get o = x.get o := fun c x => by
    cases c
    · rfl
    · show (eyeEnd l 4 x).get o = _
      unfold eyeEnd
      rw [A.latch hb, get_set_other _ _ _ _ h.2.2.2]
  have b : ∀ (c : Bool) (x : Wall), (when c (fun w => (w.set (Reg.signalDetect l) 0).set (Reg.cdrLocked l) 0) x).get o = x.get o := fun c x => by
    cases c
    · rfl
    · show ((x.set _ _).set _ _).get o = _
      rw [get_set_other _ _ _ _ h.2.2.1, get_set_other _ _ _ _ h.2.1]
  unfold setLaneSt
  dsimp only
  rw [a]
  show (when _ _ (w.set (Reg.laneState l) st)).get o = _
  rw [b, get_set_other _ _ _ _ h.1]

theorem setLaneSt_st (l st : Nat) (w : Wall) (hb : brickOfLane l ≤ 17) : laneSt l (setLaneSt l st w) = st % 256 := by
  have a : ∀ (c : Bool) (x : Wall), laneSt l (when c (eyeEnd l 4) x) = laneSt l x := fun c x => by
    cases c
    · rfl
    · show (eyeEnd l 4 x).get (Reg.laneState l) = _
      unfold eyeEnd
      rw [(laneSt_aside l).latch hb, get_set_other]
      · rfl
      · simp only [Reg.laneState, Reg.eyeState]; omega
  have b : ∀ (c : Bool) (x : Wall), (when c (fun w => (w.set (Reg.signalDetect l) 0).set (Reg.cdrLocked l) 0) x).get (Reg.laneState l) = x.get (Reg.laneState l) := fun c x => by
    cases c
    · rfl
    · show ((x.set _ _).set _ _).get (Reg.laneState l) = _
      rw [get_set_other, get_set_other]
      · simp only [Reg.laneState, Reg.signalDetect]; omega
      · simp only [Reg.laneState, Reg.cdrLocked]; omega
  unfold setLaneSt
  dsimp only
  rw [a]
  show (when _ _ (w.set (Reg.laneState l) st)).get (Reg.laneState l) = _
  rw [b]
  exact get_set_same ..

theorem setLaneSt_lane (l st : Nat) (w : Wall) : (setLaneSt l st w).lane l = { w.lane l with lockedOnce := false } := by
  unfold setLaneSt
  dsimp only
  have a : ∀ (c : Bool) (x : Wall), (when c (eyeEnd l 4) x).lane l = x.lane l := fun c x => by
    cases c
    · rfl
    · show (eyeEnd l 4 x).lane l = _
      unfold Wall.lane
      rw [(eyeEnd_keep ..).lan.lanes (by decide)]
  have b : ∀ (c : Bool) (x : Wall), (when c (fun w => (w.set (Reg.signalDetect l) 0).set (Reg.cdrLocked l) 0) x).lane l = x.lane l := fun c x => by
    cases c <;> rfl
  rw [a]
  refine (tgetD_tput_same ..).trans ?_
  rw [b]
  rfl

theorem modLane_lane (l : Nat) (f : LaneRt → LaneRt) (w : Wall) : (w.modLane l f).lane l = f (w.lane l) := tgetD_tput_same ..

theorem enterDetect_does (sp f : Nat) (w : Wall) (h : sp < 512) (hm : mayDetect sp w = true) : spGrpSt sp (enterDetect sp f w) = 0 ∨
    (spGrpSt sp (enterDetect sp f w) = 1 ∧ spSt sp (enterDetect sp f w) = 1 ∧ (enterDetect sp f w).get (Reg.bringupFails (sp / 8) (sp % 8)) = f % 256) := by
  have g : subGroup sp = some (.sub ⟨sp, h⟩) := by unfold subGroup; rw [dif_pos h]
  unfold enterDetect
  rw [hm, g]
  simp only [Bool.not_true, Bool.false_eq_true, if_false]
  cases assignRoles sp w with
  | none =>
    left
    dsimp only
    unfold setSpGroup
    rw [g]
    exact get_set_same ..
  | some y =>
    right
    dsimp only
    refine ⟨?_, ?_, ?_⟩
    · have c : ∀ (v : Nat) (x : Wall), spGrpSt sp (setSpSt sp v x) = spGrpSt sp x := by
        intro v x
        unfold setSpSt spGrpSt when
        split
        · refine (get_set_other _ _ _ _ ?_); simp only [Reg.bringupState, Reg.spState]; omega
        · refine (get_set_other _ _ _ _ ?_); simp only [Reg.bringupState, Reg.spState]; omega
      rw [c]
      unfold spGrpSt
      rw [get_set_other, get_set_other, get_set_other, get_set_other, get_set_same]
      · rfl
      · simp only [Reg.bringupState, Reg.bringupFails]; omega
      · simp only [Reg.bringupState, Reg.rxRefLane]; omega
      · simp only [Reg.bringupState, Reg.rxRefShift]; omega
      · simp only [Reg.bringupState, Reg.agreedCaps]; omega
    · unfold setSpSt spSt when
      split
      · rw [show ∀ (f : Tally → Tally) (x : Wall) (o : Reg), (modTally sp f x).get o = x.get o from fun _ _ _ => rfl]
        exact get_set_same ..
      · exact get_set_same ..
    · have c : ∀ (v : Nat) (x : Wall), (setSpSt sp v x).get (Reg.bringupFails (sp / 8) (sp % 8)) = x.get (Reg.bringupFails (sp / 8) (sp % 8)) := by
        intro v x
        unfold setSpSt when
        split
        · refine (get_set_other _ _ _ _ ?_); simp only [Reg.bringupFails, Reg.spState]; omega
        · refine (get_set_other _ _ _ _ ?_); simp only [Reg.bringupFails, Reg.spState]; omega
      rw [c, get_set_other, get_set_other, get_set_other, get_set_same]
      · rfl
      · simp only [Reg.bringupFails, Reg.rxRefLane]; omega
      · simp only [Reg.bringupFails, Reg.rxRefShift]; omega
      · simp only [Reg.bringupFails, Reg.agreedCaps]; omega

theorem lane_congr {w x : Wall} (h : x.lan.lanes = w.lan.lanes) (l : Nat) : x.lane l = w.lane l := by unfold Wall.lane; rw [h]

theorem Wall.set_lane (w : Wall) (r : Reg) (v l : Nat) : (w.set r v).lane l = w.lane l := rfl

theorem setUse_lane (l c : Nat) (w : Wall) (m : Nat) : (setUse l c w).lane m = w.lane m :=
  lane_congr ((setUse_keep ..).lan.lanes (by decide)) m

theorem testStart_does (u : Nat) (w : Wall) (hu : u < 1088) (hl : laneSt u w = 0 ∨ laneSt u w = 12) : ∃ x, testStart u w = .ok x ∧
    laneSt u x = 13 ∧ x.get (Reg.testEnable u) = 1 ∧ (x.lane u).testFrom = some (laneSt u w, laneUseOf u w) := by
  have hb : brickOfLane u ≤ 17 := by unfold brickOfLane; omega
  unfold testStart
  dsimp only
  rw [if_pos hl]
  refine ⟨_, rfl, ?_, get_set_same .., ?_⟩
  · unfold laneSt
    rw [get_set_other, get_set_other]
    · unfold takeSettings
      dsimp only
      rw [get_set_other, get_set_other]
      · exact setLaneSt_st _ _ _ hb
      · simp only [Reg.laneState, Reg.txSwing]; omega
      · simp only [Reg.laneState, Reg.rxInverted]; omega
    · simp only [Reg.laneState, Reg.ctleCode]; omega
    · simp only [Reg.laneState, Reg.testEnable]; omega
  · unfold takeSettings
    dsimp only
    rw [Wall.set_lane, Wall.set_lane, Wall.set_lane, Wall.set_lane, setLaneSt_lane, setUse_lane, modLane_lane]

theorem testStop_does (u : Nat) (w : Wall) (hu : u < 1088) {st use : Nat} (h : (w.lane u).testFrom = some (st, use)) :
    laneUseOf u (testStop u w) = use % 256 ∧ (testStop u w).get (Reg.prbsLock u) = 0 ∧ ((testStop u w).lane u).testFrom = none := by
  have e : testStop u w = (setUse u use (setLaneSt u st ((w.set (Reg.testEnable u) 0).modLane u fun r => { r with testFrom := none }))).set (Reg.prbsLock u) 0 := by
    unfold testStop
    dsimp only
    rw [show (w.set (Reg.testEnable u) 0).lane u = w.lane u from rfl, h]
  rw [e]
  refine ⟨?_, get_set_same .., ?_⟩
  · unfold laneUseOf
    rw [get_set_other]
    · exact setUse_use ..
    · simp only [Reg.laneUse, Reg.prbsLock]; omega
  · show ((setLaneSt u st _).lane u).testFrom = _
    rw [setLaneSt_lane]
    show ((Wall.modLane _ u _).lane u).testFrom = _
    rw [modLane_lane]

theorem holdForRetest_does (l f : Nat) (w : Wall) (hu : l < 1088) : laneUseOf l (holdForRetest l f w) = 2 ∧ ((holdForRetest l f w).lane l).retestFails = f := by
  have hb : brickOfLane l ≤ 17 := by unfold brickOfLane; omega
  unfold holdForRetest
  refine ⟨?_, ?_⟩
  · show (setLaneSt l 11 _).get (Reg.laneUse l) = 2
    rw [setLaneSt_get _ _ _ _ (laneUse_aside l) hb, get_set_other]
    · exact setUse_use ..
    · simp only [Reg.laneUse, Reg.serves]; omega
    · simp only [Reg.laneUse, Reg.laneState, Reg.signalDetect, Reg.cdrLocked, Reg.eyeState]; omega
  · rw [modLane_lane]

theorem bitList_pow (i : Nat) (h : i < 8) : bitList (2 ^ i) 8 = [i] := by
  have : ∀ i : Fin 8, bitList (2 ^ i.val) 8 = [i.val] := by decide
  exact this ⟨i, h⟩

end Sys2Proof.Machine
end

