-- ==== Sys2Proof/Laws/CmdLane.lean ====
section
/-! SUPPORT. What the commands of lanes, training and repointing do to the objects and records that statements name. -/

open Sys2Proof

namespace Sys2Proof.Machine

theorem get_congr {w x : Wall} (h : x.regs = w.regs) (o : Reg) : x.get o = w.get o := by unfold Wall.get; rw [h]

theorem groupSt_congr {w x : Wall} (h : x.regs = w.regs) (g : Group) : groupSt g x = groupSt g w := by
  cases g <;> exact get_congr h _

theorem laneBrick (l : Lane) : brickOfLane l.val ≤ 17 := by have := l.isLt; unfold brickOfLane; omega

theorem setGroupSt_groupSt (g : Group) (st : Nat) (w : Wall) : groupSt g (setGroupSt g st w) = st % 256 := by
  cases g with
  | sub sp => exact get_set_same ..
  | alone l => exact setLaneSt_st _ _ _ (laneBrick l)

theorem failRecord_groupSt (g : Group) (n : Nat) (w : Wall) : groupSt g (failRecord g n w) = 7 ∨ groupSt g (failRecord g n w) = 8 := by
  unfold failRecord
  dsimp only
  rw [setGroupSt_groupSt]
  generalize (min (_ : Nat) (_ : Nat)) = f
  by_cases c : f = 8
  · rw [if_pos c]; exact .inr rfl
  · rw [if_neg c]; exact .inl rfl

theorem fail_groupSt (g : Group) (n : Nat) (w : Wall) (h : ∀ l, g = .alone l → laneUseOf l.val w ≠ 2) (h1 : 1 ≤ groupSt g w)
    (h5 : groupSt g w ≤ 5) (h3 : ∀ l, g = .alone l → groupSt g w ≤ 3) : groupSt g (fail g n w) = 7 ∨ groupSt g (fail g n w) = 8 := by
  unfold fail
  cases g with
  | sub sp =>
    dsimp only
    rw [if_pos ⟨h1, h5⟩]
    exact failRecord_groupSt ..
  | alone l =>
    dsimp only
    rw [if_pos ⟨h1, h3 l rfl⟩, if_neg (h l rfl)]
    exact failRecord_groupSt ..

theorem tryReady_regs (g : Group) (l : Nat) (w : Wall) : (tryReady g l w).regs = w.regs := (tryReady_keep ..).regs (by decide)

theorem laneDetect_alone (l : Lane) (seed : Nat) (w : Wall) : laneSt l.val (laneDetect (.alone l) seed l.val w) = 1 := by
  have e : (laneDetect (.alone l) seed l.val w).regs = (takeSettings l.val (setLaneSt l.val 1 w)).regs := rfl
  unfold laneSt
  rw [get_congr e]
  unfold takeSettings
  dsimp only
  rw [get_set_other, get_set_other]
  · exact setLaneSt_st _ _ _ (laneBrick l)
  · simp only [Reg.laneState, Reg.txSwing]; omega
  · simp only [Reg.laneState, Reg.rxInverted]; omega

theorem detectAlone_st (l : Lane) (w : Wall) : laneSt l.val (detectAlone l.val w) = 1 := by
  unfold detectAlone
  rw [dif_pos l.isLt]
  exact laneDetect_alone ..

theorem setLane_lane_other (w : Wall) (l m : Nat) (r : LaneRt) (h : m ≠ l) : (w.setLane l r).lane m = w.lane m := tgetD_tput_other _ _ _ _ _ h

theorem setLaneSt_lane_any (m st : Nat) (w : Wall) (l : Nat) : ∃ b, (setLaneSt m st w).lane l = { w.lane l with lockedOnce := b } := by
  by_cases h : l = m
  · subst h; exact ⟨false, setLaneSt_lane ..⟩
  · refine ⟨(w.lane l).lockedOnce, ?_⟩
    unfold setLaneSt
    dsimp only
    have a : ∀ (c : Bool) (x : Wall), (when c (eyeEnd m 4) x).lane l = x.lane l := fun c x => by
      cases c
      · rfl
      · exact lane_congr ((eyeEnd_keep ..).lan.lanes (by decide)) l
    have b : ∀ (c : Bool) (x : Wall), (when c (fun w => (w.set (Reg.signalDetect m) 0).set (Reg.cdrLocked m) 0) x).lane l = x.lane l := fun c x => by
      cases c <;> rfl
    rw [a]
    refine (tgetD_tput_other _ _ _ _ _ h).trans ?_
    exact b ..

theorem setGroupSt_lane (g : Group) (st : Nat) (w : Wall) (l : Nat) : ∃ b, (setGroupSt g st w).lane l = { w.lane l with lockedOnce := b } := by
  have e : ∃ b, ((groupLanes g w).foldl (fun w l => setLaneSt l st w) w).lane l = { w.lane l with lockedOnce := b } := by
    refine foldl_keeps (fun x : Wall => ∃ b, x.lane l = { w.lane l with lockedOnce := b }) _ _ _ ⟨_, rfl⟩ fun x m hx => ?_
    obtain ⟨b, hb⟩ := hx
    obtain ⟨c, hc⟩ := setLaneSt_lane_any m st x l
    exact ⟨c, by rw [hc, hb]⟩
  obtain ⟨b, hb⟩ := e
  refine ⟨b, ?_⟩
  unfold setGroupSt
  dsimp only
  cases g <;> exact hb

theorem trainingFrame_eq (l : Lane) (good : Bool) (msg : List Byte) (w : Wall) (h : laneSt l.val w = 1 ∨ laneSt l.val w = 2) :
    trainingFrame l good msg false w = when (!good) (fun w => w.bump (Reg.trainBadFrames l.val) 1) (w.setLane l.val { w.lane l.val with
      goodRun := runOf (good && ((msg.headD 0).toNat == 1 || (msg.headD 0).toNat == 2)) (w.lane l.val).goodRun
      badRun := 0
      lastMsg := if good && ((msg.headD 0).toNat == 1 || (msg.headD 0).toNat == 2) then msg.take 10 else []
      sameMsgs := if good && ((msg.headD 0).toNat == 1 || (msg.headD 0).toNat == 2) then (if decide (msg.take 10 = (w.lane l.val).lastMsg) then (w.lane l.val).sameMsgs + 1 else 1) else 0 }) := by
  unfold trainingFrame
  dsimp only
  have z : ∀ n, runOf false n = 0 := fun n => rfl
  rw [z, if_neg (by omega), if_neg (fun c => absurd c.1 (by omega)), if_neg (by omega)]

theorem tryReady_lane (g : Group) (k : Nat) (w : Wall) (l : Nat) : ∃ b, (tryReady g k w).lane l = { w.lane l with readySent := b } := by
  have em : ∀ (x : Wall) (o : Out), (x.emit o).lane l = x.lane l := fun _ _ => rfl
  have sg : ∀ (x : Wall) (r : GroupRt), (x.setGrp g r).lane l = x.lane l := fun _ _ => rfl
  unfold tryReady
  dsimp only
  split
  · have e : ∃ b, (w.setLane k { w.lane k with readySent := true }).lane l = { w.lane l with readySent := b } := by
      by_cases h : l = k
      · subst h; exact ⟨true, tgetD_tput_same ..⟩
      · exact ⟨_, setLane_lane_other _ _ _ _ h⟩
    obtain ⟨b, hb⟩ := e
    refine ⟨b, ?_⟩
    split <;> split <;> first | (rw [em, sg]; exact hb) | (rw [em]; exact hb) | (rw [sg]; exact hb) | exact hb
  · exact ⟨_, rfl⟩

theorem joinRole_busy (l role seed : Nat) (w : Wall) (h : laneUseOf l w ≠ 1) : joinRole l role seed w = none := by
  unfold joinRole; rw [if_pos (.inl h)]

theorem setSpSt_other (sp v : Nat) (w : Wall) (o : Reg) (h : o.key ≠ (Reg.spState (sp / 8) (sp % 8)).key) : (setSpSt sp v w).get o = w.get o := by
  unfold setSpSt when
  split <;> exact get_set_other _ _ _ _ h

theorem fcCheckAll_get (sp : Nat) (w : Wall) (o : Reg) (h : o.key ≠ (Reg.txXoff sp).key) : (fcCheckAll sp w).get o = w.get o := by
  have qp : ∀ (tc n : Nat) (x : Wall), (queuePause sp tc n x).get o = x.get o := fun _ _ _ => rfl
  unfold fcCheckAll
  refine upTo_keeps (fun x : Wall => x.get o = w.get o) _ _ _ rfl fun tc x hx => ?_
  rw [← hx]
  unfold fcCheck
  dsimp only
  split
  · exact get_set_other _ _ _ _ h
  · split
    · rw [qp]; exact get_set_other _ _ _ _ h
    · split
      · rw [qp]; exact get_set_other _ _ _ _ h
      · rfl

theorem enterActive_get (sp caps : Nat) (w : Wall) (hs : sp < 512) : spGrpSt sp (enterActive sp caps w) = 6 ∧ spSt sp (enterActive sp caps w) = 2 ∧
    (enterActive sp caps w).get (Reg.agreedCaps (sp / 8) (sp % 8)) = caps % 2 ^ 16 := by
  have A1 : Aside (Reg.bringupState (sp / 8) (sp % 8)) := by simp only [Aside, Reg.bringupState]; omega
  have A2 : Aside (Reg.spState (sp / 8) (sp % 8)) := by simp only [Aside, Reg.spState]; omega
  have A3 : Aside (Reg.agreedCaps (sp / 8) (sp % 8)) := by simp only [Aside, Reg.agreedCaps]; omega
  have sg : ∀ (r : GroupRt) (x : Wall) (o : Reg), (setSpGrp sp r x).get o = x.get o := fun _ _ _ => rfl
  have si : ∀ (i : IngressSt) (x : Wall) (o : Reg), Wall.get { x with ing := i } o = x.get o := fun _ _ _ => rfl
  unfold enterActive spGrpSt spSt
  dsimp only
  refine ⟨?_, ?_, ?_⟩
  · rw [A1.raise, fcCheckAll_get, si, setSpSt_other, get_set_other, sg]
    · unfold setSpGroup subGroup; rw [dif_pos hs]; exact get_set_same ..
    · simp only [Reg.bringupState, Reg.agreedCaps]; omega
    · simp only [Reg.bringupState, Reg.spState]; omega
    · simp only [Reg.bringupState, Reg.txXoff]; omega
  · rw [A2.raise, fcCheckAll_get, si]
    · unfold setSpSt when
      rw [if_neg (by decide)]; exact get_set_same ..
    · simp only [Reg.spState, Reg.txXoff]; omega
  · rw [A3.raise, fcCheckAll_get, si, setSpSt_other]
    · exact get_set_same ..
    · simp only [Reg.agreedCaps, Reg.spState]; omega
    · simp only [Reg.agreedCaps, Reg.txXoff]; omega

theorem sendGroup_regs (sp k e p : Nat) (w : Wall) : (sendGroup sp k e p w).regs = w.regs := (sendGroup_keep ..).regs (by decide)

theorem spGrp_eq (sp : SubPort) (w : Wall) : spGrp sp.val w = w.grp (.sub sp) := rfl

theorem setSpGrp_grp (sp : SubPort) (r : GroupRt) (w : Wall) : (setSpGrp sp.val r w).grp (.sub sp) = r := tgetD_tput_same ..

theorem grp_congr {w x : Wall} (h : x.lan.groups = w.lan.groups) (g : Group) : x.grp g = w.grp g := by unfold Wall.grp; rw [h]

theorem sendGroup_lan (sp k e p : Nat) (w : Wall) : (sendGroup sp k e p w).lan = w.lan := (sendGroup_keep ..).lan.same (by decide)

theorem Aside.pulse {o : Reg} (h : Aside o) {u s : Nat} {w : Wall} (hu : u ≤ 17) : (Machine.pulse u s w).get o = w.get o := by
  unfold Machine.pulse; rw [h.level hu, h.level hu]

theorem serves_aside (u : Nat) : Aside (Reg.serves u) := by simp only [Aside, Reg.serves]; omega

theorem freeList_congr {w x : Wall} (ha : ∀ o, Aside o → x.get o = w.get o) (hl : x.lan = w.lan) (p rate : Nat) : freeList p rate x = freeList p rate w := by
  have hs : ∀ l, Aside (Reg.spareReach (brickOfLane l) (l % 68 - 64)) := fun l => by
    have : l % 68 - 64 < 4 := by omega
    simp only [Aside, Reg.spareReach]; omega
  unfold freeList
  congr 1
  funext l
  unfold freeFor poolIdle reaches laneUseOf laneSt Wall.lane exchHolds
  dsimp only
  rw [ha _ (laneUse_aside l), ha _ (laneSt_aside l), ha _ (hs l), hl]

theorem spOfRole_congr' {w x : Wall} (ha : ∀ sp, x.get (Reg.widthInUse (sp / 8) (sp % 8)) = w.get (Reg.widthInUse (sp / 8) (sp % 8))) (p r : Nat) :
    spOfRole p r x = spOfRole p r w := by
  unfold spOfRole
  congr 1
  congr 1
  funext s
  unfold hasRole spWidthOf
  rw [ha]

theorem spOfRole_congr {w x : Wall} (ha : ∀ o, Aside o → x.get o = w.get o) (p r : Nat) : spOfRole p r x = spOfRole p r w :=
  spOfRole_congr' (fun sp => ha _ (by simp only [Aside, Reg.widthInUse]; omega)) p r

theorem spOfLane_congr' {w x : Wall} {l : Nat} (h1 : x.get (Reg.laneUse l) = w.get (Reg.laneUse l)) (h2 : x.get (Reg.serves l) = w.get (Reg.serves l))
    (ha : ∀ sp, x.get (Reg.widthInUse (sp / 8) (sp % 8)) = w.get (Reg.widthInUse (sp / 8) (sp % 8))) : spOfLane l x = spOfLane l w := by
  unfold spOfLane laneUseOf
  dsimp only
  rw [h1, h2, spOfRole_congr' ha]

theorem spOfLane_congr {w x : Wall} (ha : ∀ o, Aside o → x.get o = w.get o) (l : Nat) : spOfLane l x = spOfLane l w :=
  spOfLane_congr' (ha _ (laneUse_aside l)) (ha _ (serves_aside l)) fun sp => ha _ (by simp only [Aside, Reg.widthInUse]; omega)

theorem sendExch_lan (k : Nat) (e : Exch) (a b : Nat) (w : Wall) : (sendExch k e a b w).lan = w.lan := (sendExch_keep ..).lan.same (by decide)

theorem spOfLane_role {l sp : Nat} {w : Wall} (h : spOfLane l w = some sp) : spOfRole (w.get (Reg.serves l) / 16) (w.get (Reg.serves l) % 16) w = some sp := by
  unfold spOfLane at h
  dsimp only at h
  split at h
  · exact h
  · cases h

theorem startExch_does (k spare sp : Nat) (un sv rt : Bool) (w : Wall) (h : spOfRole (k / 16) (k % 16) w = some sp) : ∃ e,
    tget (startExch k spare un sv rt w).lan.exchs k = some e ∧ e.spare = spare ∧ e.old = laneOf (k / 16) (k % 16) w ∧ e.unplanned = un ∧ e.initiator = true := by
  unfold startExch
  dsimp only
  rw [h]
  dsimp only
  rw [sendExch_lan]
  exact ⟨_, tget_tput_same _ _ _, rfl, rfl, rfl, rfl⟩

theorem downRetrain_young (sp : SubPort) (n : Nat) (w : Wall) (h : (spGrp sp.val w).held10s = false) : spGrpSt sp.val (downRetrain sp.val n w) = 7 ∨ spGrpSt sp.val (downRetrain sp.val n w) = 8 := by
  have g : subGroup sp.val = some (.sub sp) := by unfold subGroup; rw [dif_pos sp.isLt]
  unfold downRetrain
  dsimp only
  rw [g, h]
  exact failRecord_groupSt (.sub sp) 8 _

theorem laneFault_eq (l : Lane) (sp : SubPort) (w : Wall) (h : (w.lan.exchs.find? fun e => e.2.spare == l.val) = none) (hs : spOfLane l.val w = some sp.val)
    (h6 : spGrpSt sp.val w = 6) : laneFault l w = (match tget w.lan.exchs (w.get (Reg.serves l.val)) with
      | some e => if e.unplanned || e.old ≠ l.val then pulse (brickOfLane l.val) 0 w
          else when (e.selfBridged && !e.taken) (sendExch (w.get (Reg.serves l.val)) { e with oldFaulty := true, taken := e.taken || e.selfBridged } 8 (w.get (Reg.serves l.val) % 16))
            (putExch (w.get (Reg.serves l.val)) { e with oldFaulty := true, taken := e.taken || e.selfBridged } (pulse (brickOfLane l.val) 0 w))
      | none => faultRole (w.get (Reg.serves l.val)) sp.val (pulse (brickOfLane l.val) 0 w)) := by
  unfold laneFault
  rw [h]
  dsimp only
  rw [hs]
  dsimp only
  rw [if_neg (by simp [h6]), pulse_lan]
  all_goals cases tget w.lan.exchs (w.get (Reg.serves l.val)) <;> rfl

theorem training_group {l : Lane} {g : Group} {w : Wall} (h : training g w = true) (hm : ∀ m, g = .alone m → laneUseOf m.val w ≠ 2 ∧ laneSt m.val w ≤ 3)
    {x : Wall} (hx : ∀ o, Aside o → o.key ≠ (Reg.signalDetect l.val).key → o.key ≠ (Reg.cdrLocked l.val).key → o.key ≠ (Reg.lockLosses l.val).key → o.key ≠ (Reg.eyeState l.val).key →
      o.key % 256 ≠ 0 → x.get o = w.get o) (n : Nat) :
    groupSt g (fail g n x) = 7 ∨ groupSt g (fail g n x) = 8 := by
  have e : groupSt g x = groupSt g w := by
    cases g with
    | sub sp =>
      have := sp.isLt
      refine hx _ ?_ ?_ ?_ ?_ ?_ ?_ <;> simp only [Aside, Reg.bringupState, Reg.signalDetect, Reg.cdrLocked, Reg.lockLosses, Reg.eyeState] <;> omega
    | alone m =>
      have := m.isLt
      refine hx _ ?_ ?_ ?_ ?_ ?_ ?_ <;> simp only [Aside, Reg.laneState, Reg.signalDetect, Reg.cdrLocked, Reg.lockLosses, Reg.eyeState] <;> omega
  unfold training at h
  simp only [Bool.and_eq_true, decide_eq_true_eq] at h
  refine fail_groupSt g n x (fun m hg => ?_) (by omega) (by omega) fun m hg => ?_
  · have : laneUseOf m.val x = laneUseOf m.val w := by
      refine hx _ (laneUse_aside _) ?_ ?_ ?_ ?_ ?_ <;> simp only [Reg.laneUse, Reg.signalDetect, Reg.cdrLocked, Reg.lockLosses, Reg.eyeState] <;> omega
    rw [this]; exact (hm m hg).1
  · rw [e]; have := (hm m hg).2; subst hg; exact this

theorem laneGroup_congr {w x : Wall} (l : Lane) (h : spOfLane l.val x = spOfLane l.val w) : laneGroup l x = laneGroup l w := by unfold laneGroup; rw [h]

theorem training_congr {w x : Wall} {g : Group} (h : groupSt g x = groupSt g w) : training g x = training g w := by unfold training; rw [h]

theorem cdrLockLoss_eq (l : Lane) (sl : Bool) (w : Wall) (c : w.get (Reg.cdrLocked l.val) ≠ 0) (lo : (w.lane l.val).lockedOnce = true) : ∃ x : Wall,
    (∀ o : Reg, o.key ≠ (Reg.cdrLocked l.val).key → o.key ≠ (Reg.lockLosses l.val).key → o.key ≠ (Reg.eyeState l.val).key → o.key % 256 ≠ 0 → x.get o = w.get o) ∧
    cdrLockLoss l sl w = if training (laneGroup l x) x then fail (laneGroup l x) 5 x else lostLane l x := by
  have fl : w.flag (Reg.cdrLocked l.val) = true := by unfold Wall.flag; simp [c]
  have es : ∀ (x : Wall) (o : Reg), o.key ≠ (Reg.eyeState l.val).key → (eyeSuspend l.val x).get o = x.get o := by
    intro x o ho
    unfold eyeSuspend
    split
    · exact get_set_other _ _ _ _ ho
    · rfl
  have b1 : ∀ o : Reg, o.key ≠ (Reg.cdrLocked l.val).key → o.key ≠ (Reg.lockLosses l.val).key →
      ((w.bump (Reg.lockLosses l.val) 1).setB (Reg.cdrLocked l.val) false).get o = w.get o := fun o h2 h3 => by
    unfold Wall.setB
    rw [get_set_other _ _ _ _ h2, get_bump_other _ _ _ _ h3]
  unfold cdrLockLoss
  rw [fl]
  dsimp only
  rw [if_neg (by decide), lo]
  simp only [if_true]
  generalize spOfLane l.val _ = so
  cases so with
  | none => exact ⟨eyeSuspend l.val ((w.bump (Reg.lockLosses l.val) 1).setB (Reg.cdrLocked l.val) false), fun o h1 h2 h3 _ => (es _ _ h3).trans (b1 o h1 h2), rfl⟩
  | some sp =>
    cases sl
    · exact ⟨eyeSuspend l.val ((w.bump (Reg.lockLosses l.val) 1).setB (Reg.cdrLocked l.val) false), fun o h1 h2 h3 _ => (es _ _ h3).trans (b1 o h1 h2), rfl⟩
    · refine ⟨eyeSuspend l.val (((w.bump (Reg.lockLosses l.val) 1).setB (Reg.cdrLocked l.val) false).bump (Reg.gearboxSlips (sp / 8)) 1), fun o h1 h2 h3 h4 => (es _ _ h3).trans ((get_bump_other _ _ _ _ ?_).trans (b1 o h1 h2)), rfl⟩
      simp only [Reg.gearboxSlips]; omega

theorem cdrLockLoss_young {l : Lane} {sl : Bool} {w : Wall} (c : w.get (Reg.cdrLocked l.val) ≠ 0) (tr : training (laneGroup l w) w = true)
    (lo : (w.lane l.val).lockedOnce = true) (hm : ∀ m, laneGroup l w = .alone m → laneUseOf m.val w ≠ 2 ∧ laneSt m.val w ≤ 3) :
    groupSt (laneGroup l w) (cdrLockLoss l sl w) = 7 ∨ groupSt (laneGroup l w) (cdrLockLoss l sl w) = 8 := by
  obtain ⟨x, hx, hq⟩ := cdrLockLoss_eq l sl w c lo
  have e : spOfLane l.val x = spOfLane l.val w := by
    refine spOfLane_congr' (hx _ ?_ ?_ ?_ ?_) (hx _ ?_ ?_ ?_ ?_) fun sp => hx _ ?_ ?_ ?_ ?_ <;>
      simp only [Reg.laneUse, Reg.serves, Reg.widthInUse, Reg.cdrLocked, Reg.lockLosses, Reg.eyeState] <;> omega
  rw [hq, laneGroup_congr l e]
  have e2 : groupSt (laneGroup l w) x = groupSt (laneGroup l w) w := by
    cases laneGroup l w with
    | sub sp =>
      have := sp.isLt
      refine hx _ ?_ ?_ ?_ ?_ <;> simp only [Reg.bringupState, Reg.cdrLocked, Reg.lockLosses, Reg.eyeState] <;> omega
    | alone m =>
      have := m.isLt
      refine hx _ ?_ ?_ ?_ ?_ <;> simp only [Reg.laneState, Reg.cdrLocked, Reg.lockLosses, Reg.eyeState] <;> omega
  rw [training_congr e2, if_pos tr]
  exact training_group tr hm (fun o _ _ h2 h3 h4 h5 => hx o h2 h3 h4 h5) 5

theorem sendExch_regs (k : Nat) (e : Exch) (a b : Nat) (w : Wall) : (sendExch k e a b w).regs = w.regs := (sendExch_keep ..).regs (by decide)

theorem quietRetry_regs (p : Nat) (w : Wall) : (quietRetry p w).regs = w.regs := (quietRetry_keep ..).regs (by decide)

theorem putExch_tget (k : Nat) (e : Exch) (w : Wall) : tget (putExch k e w).lan.exchs k = some e := tget_tput_same _ _ _

theorem find?_mem {α : Type} {p : α → Bool} {l : List α} {a : α} (h : l.find? p = some a) : a ∈ l := List.mem_of_find?_eq_some h

theorem retire_does (l c : Nat) (w : Wall) (h : l < 1088) : laneUseOf l (retire l c w) = 3 ∧ laneSt l (retire l c w) = 12 ∧
    (retire l c w).get (Reg.retireCause l) = c % 256 := by
  have hb : brickOfLane l ≤ 17 := by unfold brickOfLane; omega
  have A3 : Aside (Reg.retireCause l) := by simp only [Aside, Reg.retireCause]; omega
  have em : ∀ (x : Wall) (o : Out) (r : Reg), (x.emit o).get r = x.get r := fun _ _ _ => rfl
  unfold retire
  dsimp only
  rw [dif_pos h]
  unfold laneUseOf laneSt
  rw [em, em, em, (laneUse_aside l).raise, (laneSt_aside l).raise, A3.raise]
  refine ⟨?_, ?_, get_set_same ..⟩
  · rw [get_set_other, setLaneSt_get _ _ _ _ (laneUse_aside l) hb, get_set_other]
    · exact setUse_use ..
    · simp only [Reg.laneUse, Reg.serves]; omega
    · simp only [Reg.laneUse, Reg.laneState, Reg.signalDetect, Reg.cdrLocked, Reg.eyeState]; omega
    · simp only [Reg.laneUse, Reg.retireCause]; omega
  · rw [get_set_other]
    · exact setLaneSt_st _ _ _ hb
    · simp only [Reg.laneState, Reg.retireCause]; omega

theorem bridge_does (k l : Nat) (w : Wall) (hb : brickOfLane l ≤ 17) : laneUseOf l (bridge k l w) = 0 ∧ (bridge k l w).get (Reg.serves l) = k % 2 ^ 16 := by
  unfold bridge laneUseOf
  rw [setLaneSt_get _ _ _ _ (laneUse_aside l) hb, setLaneSt_get _ _ _ _ (serves_aside l) hb, get_set_other]
  · exact ⟨setUse_use .., get_set_same ..⟩
  · simp only [Reg.laneUse, Reg.serves]; omega
  · simp only [Reg.serves, Reg.laneState, Reg.signalDetect, Reg.cdrLocked, Reg.eyeState]; omega
  · simp only [Reg.laneUse, Reg.laneState, Reg.signalDetect, Reg.cdrLocked, Reg.eyeState]; omega

theorem abandon_gone (k n : Nat) (w : Wall) : tget (abandon k n w).lan.exchs k = none := by
  unfold abandon
  cases h : tget w.lan.exchs k with
  | none => exact h
  | some e =>
    dsimp only
    rw [(raise_keep ..).lan.exchs (by decide)]
    have e2 : ∀ (c : Bool) (x : Wall), (when c (toSpare e.spare) x).lan.exchs = x.lan.exchs := fun c x => by
      cases c
      · rfl
      · exact (toSpare_keep ..).lan.exchs (by decide)
    rw [Wall.bump_lan, e2]
    exact tget_tdel_same ..

theorem leaveLane_surveys (e : Exch) (w : Wall) : (leaveLane e w).lan.surveys = w.lan.surveys := (leaveLane_keep ..).lan.surveys (by decide)

theorem leaveLane_exchs (e : Exch) (w : Wall) : (leaveLane e w).lan.exchs = w.lan.exchs := (leaveLane_keep ..).lan.exchs (by decide)

theorem setLaneSt_exchs (l st : Nat) (w : Wall) : (setLaneSt l st w).lan.exchs = w.lan.exchs := (setLaneSt_keep ..).lan.exchs (by decide)

theorem setLaneSt_surveys (l st : Nat) (w : Wall) : (setLaneSt l st w).lan.surveys = w.lan.surveys := (setLaneSt_keep ..).lan.surveys (by decide)

theorem assign_lan (p r l : Nat) (w : Wall) : (assign p r l w).lan = w.lan := (assign_keep ..).lan.same (by decide)

theorem completeExch_waits (k : Nat) (e : Exch) (w : Wall) (h : tget w.lan.exchs k = some e) (n : e.taken = false ∨ e.peerRolled = false) : completeExch k w = w := by
  unfold completeExch
  rw [h]
  dsimp only
  rw [if_pos (by rcases n with n | n <;> simp [n])]

theorem completeExch_done (k : Nat) (e : Exch) (w : Wall) (h : tget w.lan.exchs k = some e) (t : e.taken = true) (p : e.peerRolled = true) (sv : e.survey = false)
    (ns : tget w.lan.surveys e.spare = none) (hl : e.spare < 1088)
    (hk : k < 1024) :
    tget (completeExch k w).lan.exchs k = none ∧ laneOf (k / 16) (k % 16) (completeExch k w) = e.spare := by
  have hb : brickOfLane e.spare ≤ 17 := by unfold brickOfLane; omega
  have A : Aside (Reg.roleLane (k / 16) (k % 16)) := by simp only [Aside, Reg.roleLane]; omega
  unfold completeExch
  rw [h]
  dsimp only
  rw [if_neg (by simp [t, p])]
  obtain ⟨y, hy⟩ : ∃ y, y = setLaneSt e.spare 6 (assign (k / 16) (k % 16) e.spare (leaveLane e (delExch k w))) := ⟨_, rfl⟩
  rw [← hy]
  have y1 : tget y.lan.exchs k = none := by
    rw [hy, setLaneSt_exchs, assign_lan, leaveLane_exchs]
    exact tget_tdel_same ..
  have y2 : tget y.lan.surveys e.spare = none := by
    rw [hy, setLaneSt_surveys, assign_lan, leaveLane_surveys]
    exact ns
  have y3 : y.get (Reg.roleLane (k / 16) (k % 16)) = e.spare := by
    rw [hy, setLaneSt_get _ _ _ _ A hb]
    · exact (get_set_same ..).trans (Nat.mod_eq_of_lt (by simp only [Reg.roleLane]; omega))
    · simp only [Reg.roleLane, Reg.laneState, Reg.signalDetect, Reg.cdrLocked, Reg.eyeState]; omega
  have key : ∀ z : Wall, z.lan = y.lan → z.get (Reg.roleLane (k / 16) (k % 16)) = e.spare →
      tget (quietRetry (k / 16) (surveyAfter k e (if e.unplanned = true then raise (stewardSrc (brickOfPort (k / 16))) 0x0501
        (e.old + e.spare * 2 ^ 16 + min (z.get (Reg.lastInterruptNs (brickOfPort (k / 16))) / 100) 0xFFFF * 2 ^ 32) 12
        (z.bump (Reg.unplannedCount (brickOfPort (k / 16))) 1) else z.bump (Reg.plannedCount (brickOfPort (k / 16))) 1))).lan.exchs k = none ∧
      laneOf (k / 16) (k % 16) (quietRetry (k / 16) (surveyAfter k e (if e.unplanned = true then raise (stewardSrc (brickOfPort (k / 16))) 0x0501
        (e.old + e.spare * 2 ^ 16 + min (z.get (Reg.lastInterruptNs (brickOfPort (k / 16))) / 100) 0xFFFF * 2 ^ 32) 12
        (z.bump (Reg.unplannedCount (brickOfPort (k / 16))) 1) else z.bump (Reg.plannedCount (brickOfPort (k / 16))) 1))) = e.spare := by
    intro z z1 z3
    obtain ⟨v, hv, v1, v3⟩ : ∃ v, v = (if e.unplanned = true then raise (stewardSrc (brickOfPort (k / 16))) 0x0501
        (e.old + e.spare * 2 ^ 16 + min (z.get (Reg.lastInterruptNs (brickOfPort (k / 16))) / 100) 0xFFFF * 2 ^ 32) 12
        (z.bump (Reg.unplannedCount (brickOfPort (k / 16))) 1) else z.bump (Reg.plannedCount (brickOfPort (k / 16))) 1) ∧
        v.lan = z.lan ∧ v.get (Reg.roleLane (k / 16) (k % 16)) = e.spare := by
      refine ⟨_, rfl, ?_, ?_⟩
      · split
        · rw [(raise_keep ..).lan.same (by decide), Wall.bump_lan]
        · rfl
      · split
        · rw [A.raise, get_bump_other _ _ _ _ (by simp only [Reg.roleLane, Reg.unplannedCount]; omega)]; exact z3
        · rw [get_bump_other _ _ _ _ (by simp only [Reg.roleLane, Reg.plannedCount]; omega)]; exact z3
    rw [← hv]
    have sa : surveyAfter k e v = v := by
      unfold surveyAfter
      dsimp only
      rw [if_neg (by simp [sv]), v1, z1, y2]
    rw [sa]
    refine ⟨?_, ?_⟩
    · rw [(quietRetry_keep ..).lan.same (by decide), v1, z1]; exact y1
    · exact (get_congr (quietRetry_regs ..) _).trans v3
  cases spOfRole (k / 16) (k % 16) y with
  | none => dsimp only; exact key y rfl y3
  | some sp =>
    dsimp only
    by_cases c : k % 16 = 2 * (sp % 8)
    · rw [if_pos c]
      refine key (y.set (Reg.rxRefLane (k / 16) (sp % 8)) e.spare) rfl ?_
      rw [get_set_other _ _ _ _ (by simp only [Reg.roleLane, Reg.rxRefLane]; omega)]; exact y3
    · rw [if_neg c]; exact key y rfl y3

theorem brickLanes_lt {b l : Nat} (hb : b < 16) (h : l ∈ brickLanes b) : l < 1088 := by
  unfold brickLanes at h
  obtain ⟨i, hi, rfl⟩ := List.mem_map.mp h
  have := List.mem_range.mp hi
  omega

theorem prepareHeard_eq (l : Lane) (exch payload k sp : Nat) (w : Wall) (wk : wordKey l (payload % 16) w = some (sp, k)) (h6 : spGrpSt sp w = 6)
    (ne : tget w.lan.exchs k = none) (nf : (w.lan.exchs.find? fun e => e.2.spare == brickOfSp sp * 68 + bits payload 17 11) = none) :
    prepareHeard l exch payload w = match prepareRefusal sp (brickOfSp sp * 68 + bits payload 17 11) (bits payload 10 4) (bit payload 18) (bit payload 19) w with
      | some reason => refuse sp exch (k % 16) reason w
      | none => acceptPrepare k exch (brickOfSp sp * 68 + bits payload 17 11) (bits payload 10 4) (bit payload 18) (bit payload 19) (bit payload 20) w := by
  unfold prepareHeard
  rw [wk]
  dsimp only
  rw [if_neg (by simp [h6]), ne]
  dsimp only
  rw [nf]
  all_goals dsimp only
  all_goals cases prepareRefusal sp (brickOfSp sp * 68 + bits payload 17 11) (bits payload 10 4) (bit payload 18) (bit payload 19) w <;> rfl

theorem bridge_exchs (k l : Nat) (w : Wall) : (bridge k l w).lan.exchs = w.lan.exchs := (bridge_keep ..).lan.exchs (by decide)

theorem exchReady_does (l : Lane) (exch payload sp k : Nat) (e : Exch) (w : Wall) (wk : wordKey l (payload % 16) w = some (sp, k)) (te : tget w.lan.exchs k = some e)
    (ee : e.exch = exch) : tget (exchReady l exch payload w).lan.exchs k = some
      (if bit payload 4 && !e.unplanned && !e.rollSent then { e with bridged := true, peerBridged := true, rollSent := true }
       else { e with bridged := true }) := by
  unfold exchReady
  rw [wk]
  dsimp only
  rw [te]
  dsimp only
  rw [if_neg (by simp [ee])]
  by_cases c : (bit payload 4 && !e.unplanned && !e.rollSent) = true
  · rw [if_pos c, if_pos c, sendExch_lan]
    exact putExch_tget ..
  · rw [if_neg c, if_neg c]
    exact putExch_tget ..

theorem takeRole_does (k : Nat) (e : Exch) (shift : Int) (w : Wall) (h : e.peerRolled = false) : tget (takeRole k e shift w).lan.exchs k = some { e with taken := true } ∧
    ∀ o : Reg, (∀ p n, o.key ≠ (Reg.rxRefShift p n).key) → (takeRole k e shift w).get o = w.get o := by
  obtain ⟨y, hy, y1, y2⟩ : ∃ y : Wall, takeRole k e shift w = completeExch k (sendExch k { e with taken := true } 8 (k % 16) y) ∧
      tget y.lan.exchs k = some { e with taken := true } ∧ ∀ o : Reg, (∀ p n, o.key ≠ (Reg.rxRefShift p n).key) → y.get o = w.get o := by
    refine ⟨_, rfl, ?_, ?_⟩
    · split
      · split
        · exact putExch_tget k { e with taken := true } w
        · exact putExch_tget k { e with taken := true } w
      · exact putExch_tget k { e with taken := true } w
    · intro o ho
      split
      · split
        · exact (get_set_other _ _ _ _ (ho _ _)).trans rfl
        · rfl
      · rfl
  have y3 : tget (sendExch k { e with taken := true } 8 (k % 16) y).lan.exchs k = some { e with taken := true } := by rw [sendExch_lan]; exact y1
  rw [hy, completeExch_waits k _ _ y3 (.inr h)]
  exact ⟨y3, fun o ho => (get_congr (sendExch_regs ..) _).trans (y2 o ho)⟩

theorem laneDetect_retesting (l : Lane) (seed : Nat) (w : Wall) : ((laneDetect (.alone l) seed l.val w).lane l.val).retesting = (w.lane l.val).retesting := by
  have e : (laneDetect (.alone l) seed l.val w).lane l.val = { LaneRt.init with
      seed := seed, testFrom := ((takeSettings l.val (setLaneSt l.val 1 w)).lane l.val).testFrom, eyeCtrl := ((takeSettings l.val (setLaneSt l.val 1 w)).lane l.val).eyeCtrl,
      eyeStartS := ((takeSettings l.val (setLaneSt l.val 1 w)).lane l.val).eyeStartS,
      retestFails := ((takeSettings l.val (setLaneSt l.val 1 w)).lane l.val).retestFails, retesting := ((takeSettings l.val (setLaneSt l.val 1 w)).lane l.val).retesting } :=
    tgetD_tput_same ..
  rw [e]
  have e2 : (takeSettings l.val (setLaneSt l.val 1 w)).lane l.val = (setLaneSt l.val 1 w).lane l.val := rfl
  rw [e2, setLaneSt_lane]

theorem laneDetect_use (l : Lane) (seed : Nat) (w : Wall) : laneUseOf l.val (laneDetect (.alone l) seed l.val w) = laneUseOf l.val w := by
  have e : (laneDetect (.alone l) seed l.val w).regs = (takeSettings l.val (setLaneSt l.val 1 w)).regs := rfl
  unfold laneUseOf
  rw [get_congr e]
  unfold takeSettings
  dsimp only
  rw [get_set_other, get_set_other, setLaneSt_get _ _ _ _ (laneUse_aside _) (laneBrick l)]
  · simp only [Reg.laneUse, Reg.laneState, Reg.signalDetect, Reg.cdrLocked, Reg.eyeState]; omega
  · simp only [Reg.laneUse, Reg.txSwing]; omega
  · simp only [Reg.laneUse, Reg.rxInverted]; omega

theorem detectAlone_eq (l : Lane) (w : Wall) : detectAlone l.val w = laneDetect (.alone l) (drawSeed w).1 l.val (drawSeed w).2 := by
  unfold detectAlone; rw [dif_pos l.isLt]

theorem admitItems_all (cs : List CommitItem) : ∀ q : List CommitItem, (admitItems q cs).1 ++ (admitItems q cs).2 = q ++ cs := by
  induction cs with
  | nil => intro q; simp [admitItems]
  | cons c cs ih =>
    intro q
    unfold admitItems
    split
    · rw [ih]; simp
    · rfl

theorem pumpQueue_all (w : Wall) : (pumpQueue w).gra.queue ++ (pumpQueue w).gra.waiting = w.gra.queue ++ w.gra.waiting := by
  unfold pumpQueue
  split
  · rfl
  · exact admitItems_all ..

theorem askRecord_does (ty key : Nat) (tomb : Bool) (bs : List Nat) (rank : Nat) (a : After) (w : Wall) (h : granaryShut w = false) :
    (askRecord ty key tomb bs rank a w).gra.genNext = w.gra.genNext + 1 ∧
    (askRecord ty key tomb bs rank a w).gra.queue ++ (askRecord ty key tomb bs rank a w).gra.waiting = w.gra.queue ++ w.gra.waiting ++
      groupOf ty key tomb bs rank a w.gra.genNext (w.get Reg.granaryLayout) := by
  have h2 : granaryShut { w with gra := { w.gra with genNext := w.gra.genNext + 1 } } = false := h
  unfold askRecord
  rw [if_neg (by simp [h])]
  dsimp only
  unfold askSheaves
  rw [if_neg (by simp [h2])]
  refine ⟨?_, ?_⟩
  · rw [(pumpQueue_keep ..).gra.genNext (by decide)]
  · rw [pumpQueue_all]
    dsimp only
    rw [List.append_assoc]

theorem almCommit_surveys (r : AlmRec) (w : Wall) : (almCommit r w).lan.surveys = w.lan.surveys := (almCommit_keep ..).lan.surveys (by decide)

theorem showSurvey_lan (r : AlmRec) (w : Wall) : (showSurvey r w).lan = w.lan := rfl

theorem sendResults_lan (x : Nat) (v : SurveyRt) (m : SurveyMeas) (p : Nat) (w : Wall) : (sendResults x v m p w).lan = w.lan := (sendResults_keep ..).lan.same (by decide)

theorem surveyPrbsEnd_own (b l : Nat) (v : SurveyRt) (m : SurveyMeas) (re again : Option SurveyMeas) (w : Wall)
    (h : (measuringIn b w).find? (fun e => e.2.own) = some (l, v)) : surveyPrbsEnd b m re again w = ownSurveyEnd l v m re again w := by
  unfold surveyPrbsEnd
  dsimp only
  rw [show w.lan.surveys.filter (fun e => brickOfLane e.1 == b && e.2.phase == .measuring) = measuringIn b w from rfl, h]

theorem surveyPrbsEnd_partner (b l : Nat) (v : SurveyRt) (m : SurveyMeas) (re again : Option SurveyMeas) (w : Wall)
    (h : (measuringIn b w).find? (fun e => e.2.own) = none) (hd : (measuringIn b w).head? = some (l, v)) :
    tget (surveyPrbsEnd b m re again w).lan.surveys l = some { v with phase := .returning } := by
  unfold surveyPrbsEnd
  dsimp only
  rw [show w.lan.surveys.filter (fun e => brickOfLane e.1 == b && e.2.phase == .measuring) = measuringIn b w from rfl, h]
  dsimp only
  cases hm : measuringIn b w with
  | nil => rw [hm] at hd; cases hd
  | cons e es =>
    rw [hm] at hd
    cases hd
    dsimp only
    rw [almCommit_surveys, showSurvey_lan]
    exact tget_tput_same ..

theorem clearCurrent_surveys (l : Nat) (w : Wall) : (clearCurrent l w).lan.surveys = w.lan.surveys := (clearCurrent_keep ..).lan.surveys (by decide)

theorem ownSurveyEnd_pool (l : Nat) (v : SurveyRt) (m : SurveyMeas) (re again : Option SurveyMeas) (w : Wall) (h : v.role = none) :
    tget (ownSurveyEnd l v m re again w).lan.surveys l = none := by
  unfold ownSurveyEnd
  dsimp only
  rw [h]
  dsimp only
  rw [clearCurrent_surveys]
  exact tget_tdel_same ..

theorem surveyStart_does (b l : Nat) (rest : List Nat) (w : Wall) (hb : b < 16) (c : (w.round b).current = none) (bs : bareSvc w = false) (dz : w.bnd.dozing = false)
    (ak : (w.round b).asked = l :: rest) (u : laneUseOf l w = 1) (st : laneSt l w = 10) (ex : exchHolds l w = false) :
    tget (surveyStart b w).lan.surveys l = some (newSurvey none l .measuring) ∧
      (surveyStart b w).get (Reg.roundLane b) = l % 2 ^ 16 ∧ ((surveyStart b w).round b).current = some l ∧ ((surveyStart b w).round b).asked = rest := by
  have hl : (latch b 8 w).lan = w.lan := (latch_keep ..).lan.same (by decide)
  have hr : (latch b 8 w).round b = w.round b := by unfold Wall.round; rw [hl]
  have hbd : (latch b 8 w).bnd = w.bnd := latch_bnd ..
  have hu : laneUseOf l (latch b 8 w) = 1 := ((laneUse_aside l).latch (by omega)).trans u
  have hs : laneSt l (latch b 8 w) = 10 := ((laneSt_aside l).latch (by omega)).trans st
  have hx : exchHolds l (latch b 8 w) = false := by unfold exchHolds at ex ⊢; rw [hl]; exact ex
  have hbs : bareSvc (latch b 8 w) = false := by
    have A : Aside Reg.bare := by decide
    unfold bareSvc Wall.flag at bs ⊢
    rw [A.latch (by omega)]; exact bs
  have sl : surveyLane b l ((latch b 8 w).setRound b { w.round b with asked := rest }) = some (putSurvey l (newSurvey none l .measuring)
      ((((latch b 8 w).setRound b { w.round b with asked := rest }).setRound b { ((latch b 8 w).setRound b { w.round b with asked := rest }).round b with current := some l }).set (Reg.roundLane b) l)) := by
    unfold surveyLane
    dsimp only
    rw [if_pos (show laneUseOf l ((latch b 8 w).setRound b { w.round b with asked := rest }) = 1 from hu), if_pos]
    exact ⟨hs, by rw [show exchHolds l ((latch b 8 w).setRound b { w.round b with asked := rest }) = exchHolds l (latch b 8 w) from rfl, hx]; rfl⟩
  have q : surveyStart b w = putSurvey l (newSurvey none l .measuring)
      ((((latch b 8 w).setRound b { w.round b with asked := rest }).setRound b { ((latch b 8 w).setRound b { w.round b with asked := rest }).round b with current := some l }).set (Reg.roundLane b) l) := by
    unfold surveyStart
    dsimp only
    rw [if_neg (by simp [c, hbs, hbd, dz]), ak]
    dsimp only
    dsimp only at sl
    rw [sl]
  rw [q]
  have ps : ∀ (v : SurveyRt) (x : Wall), (putSurvey l v x).round b = x.round b := fun _ _ => rfl
  have rs : ∀ (r : Reg) (n : Nat) (x : Wall), (x.set r n).round b = x.round b := fun _ _ _ => rfl
  have rr : ∀ (r : RoundRt) (x : Wall), (x.setRound b r).round b = r := fun _ _ => tgetD_tput_same ..
  refine ⟨tget_tput_same _ _ _, get_set_same .., ?_, ?_⟩
  · rw [ps, rs, rr]
  · rw [ps, rs, rr]
    dsimp only
    rw [rr]

theorem startRound_does (w : Wall) : (startRound w).get Reg.roundActive = 1 ∧ (startRound w).lan.roundStartS = w.get Reg.serviceS := by
  unfold startRound
  dsimp only
  refine upTo_keeps (fun x : Wall => x.get Reg.roundActive = 1 ∧ x.lan.roundStartS = w.get Reg.serviceS) _ _ _ ⟨?_, ?_⟩ fun b x h => ⟨?_, h.2⟩
  · exact get_set_same w Reg.roundActive 1
  · exact get_set_other w Reg.roundActive Reg.serviceS 1 (by decide)
  · rw [get_set_other, get_set_other]
    · exact h.1
    · simp only [Reg.roundActive, Reg.roundDone]; omega
    · simp only [Reg.roundActive, Reg.roundSkipped]; omega

theorem telltale_get (st rf : List Nat) (w : Wall) (c : Nat) (hc : c < 4) : (telltale st rf w).get (Reg.ttDeficitC c) =
    ofInt 32 (((List.range 8).map fun i => deficitPpm (st.getD (c * 8 + i) 0) (rf.getD (c * 8 + i) 0)).foldl max
      (deficitPpm (st.getD (c * 8) 0) (rf.getD (c * 8) 0))) % 2 ^ 32 := by
  have A : Aside (Reg.ttDeficitC c) := by simp only [Aside, Reg.ttDeficitC]; omega
  unfold telltale
  dsimp only
  rw [A.latch (by decide)]
  obtain ⟨g, hg⟩ : ∃ g : Nat → Wall → Wall, g = fun c w => w.setI (Reg.ttDeficitC c)
      (((List.range 8).map fun i => deficitPpm (st.getD (c * 8 + i) 0) (rf.getD (c * 8 + i) 0)).foldl max
        (((List.range 8).map fun i => deficitPpm (st.getD (c * 8 + i) 0) (rf.getD (c * 8 + i) 0)).headD 0)) := ⟨_, rfl⟩
  have e : upTo 4 g w = g 3 (g 2 (g 1 (g 0 w))) := rfl
  rw [← hg, e]
  have same : ∀ x, (g c x).get (Reg.ttDeficitC c) = ofInt 32 (((List.range 8).map fun i => deficitPpm (st.getD (c * 8 + i) 0) (rf.getD (c * 8 + i) 0)).foldl max
      (deficitPpm (st.getD (c * 8) 0) (rf.getD (c * 8) 0))) % 2 ^ 32 := by
    intro x; rw [hg]; exact get_set_same ..
  have other : ∀ d x, d ≠ c → (g d x).get (Reg.ttDeficitC c) = x.get (Reg.ttDeficitC c) := by
    intro d x h; rw [hg]
    exact get_set_other _ _ _ _ (by simp only [Reg.ttDeficitC]; omega)
  have : c = 0 ∨ c = 1 ∨ c = 2 ∨ c = 3 := by omega
  rcases this with h | h | h | h
  · rw [other 3 _ (by omega), other 2 _ (by omega), other 1 _ (by omega)]; subst h; exact same _
  · rw [other 3 _ (by omega), other 2 _ (by omega)]; subst h; exact same _
  · rw [other 3 _ (by omega)]; subst h; exact same _
  · subst h; exact same _

theorem foldl_keeps_mem {β γ : Type} (P : β → Prop) (l : List γ) (f : β → γ → β) (a : β) (h : P a)
    (hf : ∀ a, ∀ x ∈ l, P a → P (f a x)) : P (l.foldl f a) := by
  induction l generalizing a with
  | nil => exact h
  | cons i l ih => exact ih _ (hf a i List.mem_cons_self h) fun a x hx => hf a x (List.mem_cons_of_mem _ hx)

theorem fecCount_get (sp : SubPort) (rc : List Nat) (a b c : Nat) (w : Wall) (o : Reg) (A : Aside o) (h : ∀ k ∈ spRoles sp.val w, o.key ≠ (Reg.roleCorrected (sp.val / 8) k).key) (v : Nat)
    (hs : (stat sp.val 99 rc.sum (stat sp.val 98 c (stat sp.val 97 b (stat sp.val 96 a w)))).get o = v)
    (hk : ∀ n, (stat sp.val 99 rc.sum (stat sp.val 98 c (stat sp.val 97 b (stat sp.val 96 a n)))).get o = v ∨ n.get o ≠ w.get o) :
    (fecCount sp.val rc a b c w).get o = v := by
  have hb : brickOfSp sp.val < 16 := by have := sp.isLt; unfold brickOfSp; omega
  unfold fecCount pcSp
  dsimp only
  rw [A.pcCount hb, A.pcCount hb]
  have e : (((spRoles sp.val w).zip rc).foldl (fun w e => w.bump (Reg.roleCorrected (sp.val / 8) e.1) e.2) w).get o = w.get o :=
    foldl_keeps_mem (fun x : Wall => x.get o = w.get o) _ _ _ rfl fun x e he hx => by
      rw [get_bump_other _ _ _ _ (h _ (List.of_mem_zip he).1)]; exact hx
  rcases hk (((spRoles sp.val w).zip rc).foldl (fun w e => w.bump (Reg.roleCorrected (sp.val / 8) e.1) e.2) w) with h | h
  · exact h
  · exact absurd e h

theorem stat4 (sp a b c d i : Nat) (x : Wall) : ∀ o, o = Reg.statistic sp i → (stat sp 99 d (stat sp 98 c (stat sp 97 b (stat sp 96 a x)))).get o =
    if i = 99 then (x.get o + d) % 2 ^ 64 else if i = 98 then (x.get o + c) % 2 ^ 64 else if i = 97 then (x.get o + b) % 2 ^ 64
    else if i = 96 then (x.get o + a) % 2 ^ 64 else x.get o := by
  have same : ∀ k n (y : Wall), (stat sp k n y).get (Reg.statistic sp k) = (y.get (Reg.statistic sp k) + n) % 2 ^ 64 := fun _ _ _ => get_bump_same ..
  have other : ∀ k j n (y : Wall), j ≠ k → (stat sp k n y).get (Reg.statistic sp j) = y.get (Reg.statistic sp j) := fun k j n y h =>
    get_bump_other _ _ _ _ (by simp only [Reg.statistic]; omega)
  intro o ho
  subst ho
  by_cases h9 : i = 99
  · subst h9; rw [same, other 98 _ _ _ (by decide), other 97 _ _ _ (by decide), other 96 _ _ _ (by decide), if_pos rfl]
  · rw [other 99 _ _ _ h9, if_neg h9]
    by_cases h8 : i = 98
    · subst h8; rw [same, other 97 _ _ _ (by decide), other 96 _ _ _ (by decide), if_pos rfl]
    · rw [other 98 _ _ _ h8, if_neg h8]
      by_cases h7 : i = 97
      · subst h7; rw [same, other 96 _ _ _ (by decide), if_pos rfl]
      · rw [other 97 _ _ _ h7, if_neg h7]
        by_cases h6 : i = 96
        · subst h6; rw [same, if_pos rfl]
        · rw [other 96 _ _ _ h6, if_neg h6]

theorem fecCount_stat (sp : SubPort) (rc : List Nat) (a b c i : Nat) (w : Wall) (hi : i < 128) (hw : spWidthOf sp.val w ≤ 16) : (fecCount sp.val rc a b c w).get (Reg.statistic sp.val i) =
    if i = 99 then (w.get (Reg.statistic sp.val i) + rc.sum) % 2 ^ 64 else if i = 98 then (w.get (Reg.statistic sp.val i) + c) % 2 ^ 64
    else if i = 97 then (w.get (Reg.statistic sp.val i) + b) % 2 ^ 64 else if i = 96 then (w.get (Reg.statistic sp.val i) + a) % 2 ^ 64
    else w.get (Reg.statistic sp.val i) := by
  have A : Aside (Reg.statistic sp.val i) := by have := sp.isLt; simp only [Aside, Reg.statistic]; omega
  refine fecCount_get sp rc a b c w _ A (fun k hk => ?_) _ (stat4 _ _ _ _ _ _ _ _ rfl) fun n => ?_
  · unfold spRoles at hk
    obtain ⟨j, hj, rfl⟩ := List.mem_map.mp hk
    have := List.mem_range.mp hj
    have := sp.isLt
    simp only [Reg.statistic, Reg.roleCorrected]
    omega
  · by_cases h : n.get (Reg.statistic sp.val i) = w.get (Reg.statistic sp.val i)
    · left; rw [stat4 _ _ _ _ _ _ _ _ rfl, h]
    · exact .inr h

theorem fecCount_lan (sp : Nat) (rc : List Nat) (a b c : Nat) (w : Wall) : (fecCount sp rc a b c w).lan = w.lan := (fecCount_keep ..).lan.same (by decide)

theorem fecWindow_eq (sp : SubPort) (rc : List Nat) (a b c : Nat) (w : Wall) (u : spUp sp.val w = true) (hw : spWidthOf sp.val w ≤ 16)
    (h : ∀ n ∈ rc, n < w.get (Reg.laneSerLimit (portOfSp sp.val))) : fecWindow sp rc a b c w = fecCount sp.val rc a b c w := by
  have A : Aside (Reg.laneSerLimit (portOfSp sp.val)) := by simp only [Aside, Reg.laneSerLimit]; omega
  have this : ∀ k n (y : Wall), (stat sp.val k n y).get (Reg.laneSerLimit (portOfSp sp.val)) = y.get (Reg.laneSerLimit (portOfSp sp.val)) := fun k n y =>
    get_bump_other _ _ _ _ (by have := sp.isLt; simp only [portOfSp, Reg.laneSerLimit, Reg.statistic]; omega)
  have e : (fecCount sp.val rc a b c w).get (Reg.laneSerLimit (portOfSp sp.val)) = w.get (Reg.laneSerLimit (portOfSp sp.val)) := by
    refine fecCount_get sp rc a b c w _ A (fun k hk => ?_) _ ?_ fun n => ?_
    · unfold spRoles at hk
      obtain ⟨j, hj, rfl⟩ := List.mem_map.mp hk
      have := List.mem_range.mp hj
      have := sp.isLt
      simp only [portOfSp, Reg.laneSerLimit, Reg.roleCorrected]
      omega
    · rw [this, this, this, this]
    · rw [this, this, this, this]
      exact Decidable.em _
  unfold fecWindow
  rw [if_neg (by simp [u])]
  dsimp only
  refine foldl_keeps_mem (fun x : Wall => x = fecCount sp.val rc a b c w) _ _ _ rfl fun x k hk hx => ?_
  subst hx
  rw [if_neg]
  have := h k.2 (List.of_mem_zip hk).2
  omega

theorem fieldMove_does (f : Nat) (up : Bool) (w : Wall) (hf : f < 2) : (fieldMove f up w).get (fieldUpReg f) = b2n up ∧
    (fieldMove f up w).get Reg.dbWritten = (w.get Reg.dbWritten + 1) % 2 ^ 64 ∧
    ∀ o, Aside o → o.key ≠ (fieldUpReg f).key → (fieldMove f up w).get o = w.get o := by
  have Au : Aside (fieldUpReg f) := by unfold fieldUpReg; split <;> decide
  unfold fieldMove
  refine ⟨?_, ?_, fun o Ao h => ?_⟩
  · rw [Au.latch (by decide), Au.daybook]
    have e : ∀ (r : Reg) (b : Bool), r.bits = 1 → b2n b % 2 ^ r.bits = b2n b := fun r b h => by rw [h]; cases b <;> rfl
    exact (get_setB_same ..).trans (e _ _ (by unfold fieldUpReg; split <;> rfl))
  · rw [get_latch _ _ _ _ (by decide) (by decide) (fun h => absurd h (by decide)), daybook_written]
    unfold Wall.setB
    rw [get_set_other]
    unfold fieldUpReg; split <;> decide
  · rw [Ao.latch (by decide), Ao.daybook]
    exact get_set_other _ _ _ _ h

end Sys2Proof.Machine
end

