-- ==== Sys2Proof/Laws/CmdPort.lean ====
section
/-! SUPPORT. What the commands of ports and sub-ports do to the objects and records that statements name. -/

open Sys2Proof

namespace Sys2Proof.Machine

theorem downRetrain_old (sp : SubPort) (n : Nat) (w : Wall) (h : (spGrp sp.val w).held10s = true) : spGrpSt sp.val (downRetrain sp.val n w) = 0 ∨ spGrpSt sp.val (downRetrain sp.val n w) = 1 := by
  have g : subGroup sp.val = some (.sub sp) := by unfold subGroup; rw [dif_pos sp.isLt]
  have z : ∀ x, spGrpSt sp.val (setSpGroup sp.val 0 x) = 0 := fun x => by
    unfold setSpGroup; rw [g]; exact get_set_same ..
  unfold downRetrain
  dsimp only
  rw [g, h]
  dsimp only
  by_cases m : mayDetect sp.val (setSpGroup sp.val 0 (downCore sp.val n w)) = true
  · rcases enterDetect_does sp.val 0 _ sp.isLt m with e | e
    · exact .inl e
    · exact .inr e.1
  · left
    unfold enterDetect
    simp only [Bool.not_true, Bool.false_eq_true, if_false]
    rw [if_pos (by simpa using m)]
    exact z _

theorem downRetrain_grp (sp : SubPort) (n : Nat) (w : Wall) : if (spGrp sp.val w).held10s then spGrpSt sp.val (downRetrain sp.val n w) = 0 ∨ spGrpSt sp.val (downRetrain sp.val n w) = 1
    else spGrpSt sp.val (downRetrain sp.val n w) = 7 ∨ spGrpSt sp.val (downRetrain sp.val n w) = 8 := by
  by_cases h : (spGrp sp.val w).held10s = true
  · rw [if_pos h]; exact downRetrain_old _ _ _ h
  · rw [if_neg h]; exact downRetrain_young _ _ _ (by simpa using h)

theorem countRx_get (sp : SubPort) (len dst tc : Nat) (w : Wall) (o : Reg) (A : Aside o) (h : ∀ k, o.key ≠ (Reg.statistic sp.val k).key) :
    (countRx sp.val len dst tc w).get o = w.get o := by
  have hb : brickOfSp sp.val < 16 := by have := sp.isLt; unfold brickOfSp; omega
  have st : ∀ k n x, (stat sp.val k n x).get o = x.get o := fun k n x => get_bump_other _ _ _ _ (h k)
  have mt : ∀ (f : Tally → Tally) (x : Wall), (modTally sp.val f x).get o = x.get o := fun _ _ => rfl
  unfold countRx pcSp
  dsimp only
  rw [A.pcCount hb, A.pcCount hb, mt, st, st, st, st, st]

theorem pausePrio_get (sp n q : Nat) (w : Wall) (o : Reg) : (pausePrio sp n q w).get o = w.get o := rfl

theorem setPause_same (k : Nat) (u : Option Nat) (w : Wall) : tget (setPause k u w).prt.pauseUntil k = u := by
  cases u with
  | none => exact tget_tdel_same ..
  | some t => exact tget_tput_same ..

theorem setPause_other (k j : Nat) (u : Option Nat) (w : Wall) (h : j ≠ k) : tget (setPause k u w).prt.pauseUntil j = tget w.prt.pauseUntil j := by
  cases u with
  | none => exact tget_tdel_other _ _ _ h
  | some t => exact tget_tput_other _ _ _ _ h

theorem countRx_prt (sp len dst tc : Nat) (w : Wall) : (countRx sp len dst tc w).prt = w.prt := (countRx_keep ..).prt.same (by decide)

theorem countRx_lan (sp len dst tc : Nat) (w : Wall) : (countRx sp len dst tc w).lan = w.lan := (countRx_keep ..).lan.same (by decide)

theorem countRx_time (sp len dst tc : Nat) (w : Wall) : (countRx sp len dst tc w).time = w.time := (countRx_keep ..).time.same (by decide)

/-- Eight steps, each of which writes its own pause only. -/

theorem eight_pauses (sp : Nat) (f : Nat → Wall → Wall) (v : Nat → Option (Option Nat)) (w : Wall) (n : Nat) (hn : n < 8)
    (I : Wall → Prop) (hi : I w) (hs : ∀ k x, I x → I (f k x)) (same : ∀ x, I x → ∀ k, (∀ u, v k = some u → tget (f k x).prt.pauseUntil (sp * 8 + k) = u) ∧
      (v k = none → tget (f k x).prt.pauseUntil (sp * 8 + k) = tget x.prt.pauseUntil (sp * 8 + k)))
    (other : ∀ x, I x → ∀ k j, j ≠ sp * 8 + k → tget (f k x).prt.pauseUntil j = tget x.prt.pauseUntil j) :
    tget (upTo 8 f w).prt.pauseUntil (sp * 8 + n) = (match v n with | some u => u | none => tget w.prt.pauseUntil (sp * 8 + n)) := by
  suffices ∀ m, I (upTo m f w) ∧ tget (upTo m f w).prt.pauseUntil (sp * 8 + n) = if n < m then (match v n with | some u => u | none => tget w.prt.pauseUntil (sp * 8 + n)) else tget w.prt.pauseUntil (sp * 8 + n) by
    have := (this 8).2
    rw [if_pos hn] at this
    exact this
  intro m
  induction m with
  | zero => exact ⟨hi, by simp [upTo]⟩
  | succ m ih =>
    have e : upTo (m + 1) f w = f m (upTo m f w) := by
      unfold upTo; rw [List.range_succ, List.foldl_append]; rfl
    rw [e]
    refine ⟨hs _ _ ih.1, ?_⟩
    by_cases c : n = m
    · subst c
      rw [if_pos (by omega)]
      cases hv : v n with
      | some u => exact (same _ ih.1 n).1 u hv
      | none =>
        rw [(same _ ih.1 n).2 hv, ih.2, if_neg (by omega)]
    · rw [other _ ih.1 m _ (by omega), ih.2]
      by_cases d : n < m
      · rw [if_pos d, if_pos (by omega)]
      · rw [if_neg d, if_neg (by omega)]

theorem quantum_congr {sp : Nat} {x w : Wall} (h1 : x.get (Reg.widthInUse (sp / 8) (sp % 8)) = w.get (Reg.widthInUse (sp / 8) (sp % 8))) (h2 : x.lan = w.lan) :
    quantumPs sp x = quantumPs sp w := by unfold quantumPs spRate spWidthOf spGrp; rw [h1, h2]

theorem spUp_congr {sp : Nat} {x w : Wall} (h1 : x.get (Reg.spState (sp / 8) (sp % 8)) = w.get (Reg.spState (sp / 8) (sp % 8))) : spUp sp x = spUp sp w := by
  unfold spUp spFlows spSt; rw [h1]

theorem counted_gets (sp : SubPort) (len dst tc : Nat) (w : Wall) : spUp sp.val (countRx sp.val len dst tc w) = spUp sp.val w ∧
    (countRx sp.val len dst tc w).get (Reg.fcMode sp.val) = w.get (Reg.fcMode sp.val) ∧ quantumPs sp.val (countRx sp.val len dst tc w) = quantumPs sp.val w ∧
    nowPs (countRx sp.val len dst tc w) = nowPs w ∧ (countRx sp.val len dst tc w).get (Reg.pfcEnable sp.val) = w.get (Reg.pfcEnable sp.val) ∧
    (∀ n, tcOfPrio sp.val n (countRx sp.val len dst tc w) = tcOfPrio sp.val n w) := by
  have hs := sp.isLt
  refine ⟨spUp_congr (countRx_get _ _ _ _ _ _ ?_ fun k => ?_), countRx_get _ _ _ _ _ _ ?_ fun k => ?_, quantum_congr (countRx_get _ _ _ _ _ _ ?_ fun k => ?_) (countRx_lan ..),
    ?_, countRx_get _ _ _ _ _ _ ?_ fun k => ?_, fun n => ?_⟩
  · simp only [Aside, Reg.spState]; omega
  · simp only [Reg.spState, Reg.statistic]; omega
  · simp only [Aside, Reg.fcMode]; omega
  · simp only [Reg.fcMode, Reg.statistic]; omega
  · simp only [Aside, Reg.widthInUse]; omega
  · simp only [Reg.widthInUse, Reg.statistic]; omega
  · unfold nowPs; rw [countRx_time]
  · simp only [Aside, Reg.pfcEnable]; omega
  · simp only [Reg.pfcEnable, Reg.statistic]; omega
  · unfold tcOfPrio
    rw [countRx_get _ _ _ _ _ _ (by simp only [Aside, Reg.pcpToTc]; omega) fun k => by simp only [Reg.pcpToTc, Reg.statistic]; omega]

/-- What a pause leaves of what its own end is computed from. -/
structure SamePause (sp : Nat) (w x : Wall) : Prop where
  now : nowPs x = nowPs w
  quantum : quantumPs sp x = quantumPs sp w
  regs : x.regs = w.regs

theorem SamePause.step {sp k : Nat} {u : Option Nat} {w x : Wall} (h : SamePause sp w x) : SamePause sp w (setPause k u x) := ⟨h.now, h.quantum, h.regs⟩

theorem pauseFrame_does (sp : SubPort) (q n : Nat) (w : Wall) (u : spUp sp.val w = true) (f : w.get (Reg.fcMode sp.val) = 1) (hn : n < 8) :
    (pauseFrame sp.val q w).get (Reg.rxPaused sp.val) = (if q = 0 then 0 else 0xFF) ∧
      tget (pauseFrame sp.val q w).prt.pauseUntil (sp.val * 8 + n) = if q = 0 then none else some (nowPs w + q * quantumPs sp.val w) := by
  unfold pauseFrame
  rw [if_pos (by simp [u, f])]
  dsimp only
  refine ⟨?_, ?_⟩
  · unfold stat
    rw [get_bump_other _ _ _ _ (by simp only [Reg.rxPaused, Reg.statistic]; omega), get_set_same]
    split <;> rfl
  · show tget (upTo 8 (fun n w => pausePrio sp.val n q w) w).prt.pauseUntil _ = _
    refine eight_pauses sp.val (fun n w => pausePrio sp.val n q w) (fun _ => some (if q = 0 then none else some (nowPs w + q * quantumPs sp.val w))) w n hn
      (SamePause sp.val w) ⟨rfl, rfl, rfl⟩ (fun k x h => h.step) (fun x h k => ⟨fun u' e => ?_, fun e => by cases e⟩) (fun x h k j hj => setPause_other _ _ _ _ hj)
    cases e
    unfold pausePrio
    rw [setPause_same, h.now, h.quantum]

theorem pfcFrame_does (sp : SubPort) (en n : Nat) (times : List Nat) (w : Wall) (u : spUp sp.val w = true) (f : w.get (Reg.fcMode sp.val) = 2) (hn : n < 8) :
    tget (pfcFrame sp.val en times w).prt.pauseUntil (sp.val * 8 + n) = if bit en n && bit (w.get (Reg.pfcEnable sp.val)) (tcOfPrio sp.val n w) then
        (if times.getD n 0 = 0 then none else some (nowPs w + times.getD n 0 * quantumPs sp.val w))
      else tget w.prt.pauseUntil (sp.val * 8 + n) := by
  unfold pfcFrame
  rw [if_pos (by simp [u, f])]
  dsimp only
  have k2 : ∀ (g : Nat → Wall → Wall) (x : Wall), (∀ i y, (g i y).prt = y.prt) → (upTo 8 g x).prt = x.prt := fun g x hg =>
    upTo_keeps (fun y : Wall => y.prt = x.prt) _ _ _ rfl fun i y hy => (hg i y).trans hy
  rw [k2]
  · have := eight_pauses sp.val (fun n w => when (bit en n && bit (w.get (Reg.pfcEnable sp.val)) (tcOfPrio sp.val n w)) (pausePrio sp.val n (times.getD n 0)) w)
      (fun n => if bit en n && bit (w.get (Reg.pfcEnable sp.val)) (tcOfPrio sp.val n w) then
        some (if times.getD n 0 = 0 then none else some (nowPs w + times.getD n 0 * quantumPs sp.val w)) else none) w n hn (SamePause sp.val w) ⟨rfl, rfl, rfl⟩
      (fun k x h => by
        unfold when
        split
        · exact h.step
        · exact h) (fun x h k => by
        have e1 : bit (x.get (Reg.pfcEnable sp.val)) (tcOfPrio sp.val k x) = bit (w.get (Reg.pfcEnable sp.val)) (tcOfPrio sp.val k w) := by
          unfold tcOfPrio; rw [get_congr h.regs, get_congr h.regs]
        rw [e1]
        by_cases c : (bit en k && bit (w.get (Reg.pfcEnable sp.val)) (tcOfPrio sp.val k w)) = true
        · rw [if_pos c, c]
          refine ⟨fun u' e => ?_, fun e => by cases e⟩
          cases e
          show tget (pausePrio _ _ _ _).prt.pauseUntil _ = _
          unfold pausePrio
          rw [setPause_same, h.now, h.quantum]
        · rw [if_neg c]
          refine ⟨fun u' e => (by cases e), fun _ => ?_⟩
          rw [show (bit en k && bit (w.get (Reg.pfcEnable sp.val)) (tcOfPrio sp.val k w)) = false by simpa using c]
          rfl) (fun x h k j hj => by
        unfold when
        split
        · exact setPause_other _ _ _ _ hj
        · rfl)
    refine this.trans ?_
    by_cases c : (bit en n && bit (w.get (Reg.pfcEnable sp.val)) (tcOfPrio sp.val n w)) = true
    · rw [if_pos c, if_pos c]
    · rw [if_neg c, if_neg c]
  · intro i y
    split
    · split <;> rfl
    · rfl

theorem bit_clrBit (v i n : Nat) : bit (clrBit v i % 2 ^ n) i = false := by
  unfold bit clrBit
  rw [Nat.testBit_mod_two_pow]
  suffices h : (if v.testBit i then v - 2 ^ i else v).testBit i = false by rw [h, Bool.and_false]
  by_cases c : v.testBit i = true
  · rw [if_pos c]
    have d : v / 2 ^ i % 2 = 1 := by
      rw [Nat.testBit_eq_decide_div_mod_eq] at c
      simpa using c
    have e : (v - 2 ^ i) / 2 ^ i = v / 2 ^ i - 1 := by
      have := Nat.sub_mul_div v (2 ^ i) 1
      rwa [Nat.mul_one] at this
    rw [Nat.testBit_eq_decide_div_mod_eq, e]
    simp; omega
  · rw [if_neg c]; simpa using c

theorem quiet_set (w : Wall) (p : Nat) (r : QuietRt) : (w.setQuiet p r).quiet p = r := tgetD_tput_same ..

theorem quiet_lpi (p : Nat) (on : Bool) (w : Wall) (q : Nat) : (sendLpi p on w).quiet q = w.quiet q := by unfold sendLpi; split <;> rfl

theorem lpi_out (p : Port) (on : Bool) (w : Wall) : (sendLpi p.val on w).out = .lpi p on :: w.out := by unfold sendLpi; rw [dif_pos p.isLt]; rfl

theorem lpi_regs (p : Nat) (on : Bool) (w : Wall) : (sendLpi p on w).regs = w.regs := by unfold sendLpi; split <;> rfl

theorem lpi_bnd (p : Nat) (on : Bool) (w : Wall) : (sendLpi p on w).bnd = w.bnd := by unfold sendLpi; split <;> rfl

theorem abandonQuiet_does (p : Port) (w : Wall) (h : (w.quiet p.val).phase = .requesting ∨ (w.quiet p.val).phase = .answering) :
    abandonQuiet p.val w = sendLpi p.val false (w.setQuiet p.val { w.quiet p.val with phase := .none }) := by
  unfold abandonQuiet
  rcases h with h | h <;> rw [h]

theorem setSpSt_st (sp v : Nat) (w : Wall) : spSt sp (setSpSt sp v w) = v % 256 := by
  unfold setSpSt spSt when
  split
  · rw [show ∀ (f : Tally → Tally) (x : Wall) (o : Reg), (modTally sp f x).get o = x.get o from fun _ _ _ => rfl]
    exact get_set_same ..
  · exact get_set_same ..

theorem quiet_congr {x w : Wall} (h : x.prt.quiet = w.prt.quiet) (p : Nat) : x.quiet p = w.quiet p := by unfold Wall.quiet; rw [h]

end Sys2Proof.Machine
end

