-- ==== Sys2Proof/Laws/CmdSieve.lean ====
section
/-! SUPPORT. What the commands of received frames, cells and the Sieve do to the objects and records that statements name. -/

open Sys2Proof

namespace Sys2Proof.Machine

theorem stat_get_same (sp k n : Nat) (w : Wall) : (stat sp k n w).get (Reg.statistic sp k) = (w.get (Reg.statistic sp k) + n) % 2 ^ 64 := get_bump_same ..

theorem portBusy_regs (p : Nat) (w : Wall) : (portBusy p w).regs = w.regs := (portBusy_keep ..).regs (by decide)

theorem portBusy_ing (p : Nat) (w : Wall) : (portBusy p w).ing = w.ing := (portBusy_keep ..).ing.same (by decide)

theorem portBusy_prt (p : Nat) (w : Wall) : (portBusy p w).prt.parse = w.prt.parse := (portBusy_keep ..).prt.parse (by decide)

theorem macFault_congr {x w : Wall} (h : x.regs = w.regs) (sp : Nat) (f : List Byte) (c : Bool) : macFault sp f c x = macFault sp f c w := by
  unfold macFault; rw [get_congr h]

theorem filterOk_congr {x w : Wall} (h : x.regs = w.regs) (sp : Nat) (f : List Byte) : filterOk sp f x = filterOk sp f w := by
  have e : ∀ o, x.get o = w.get o := get_congr h
  unfold filterOk
  simp only [e]

theorem flag_congr {x w : Wall} (h : x.regs = w.regs) (o : Reg) : x.flag o = w.flag o := by unfold Wall.flag; rw [get_congr h]

theorem rxFrame_faulty (r : RxFrame) (k : Nat) (w : Wall) (c : r.cut = false) (fl : spFlows r.sp.val w = true) (m : macFault r.sp.val r.bytes r.codeError w = some k) :
    rxFrame r w = stat r.sp.val k 1 (portBusy (r.sp.val / 8) w) := by
  unfold rxFrame
  dsimp only
  rw [if_neg (by simp [c]), if_neg (by simp [fl]), macFault_congr (portBusy_regs _ w), m]

theorem rxFrame_sound (r : RxFrame) (w : Wall) (c : r.cut = false) (fl : spFlows r.sp.val w = true) (m : macFault r.sp.val r.bytes r.codeError w = none)
    (ty : u16at r.bytes 12 ≠ 0x8808) : rxFrame r w = if w.flag (Reg.hostSp r.sp.val) && !filterOk r.sp.val r.bytes w then stat r.sp.val 16 1 (portBusy (r.sp.val / 8) w)
      else match macsecRx r.sp.val (noFcs r.bytes) (portBusy (r.sp.val / 8) w) with
        | (.drop, w) => countRx r.sp.val r.bytes.length (frameBe r.bytes 0 6) (frameTc r.sp.val r.bytes w) w
        | (.pass g secured, w) => writerTakes r.sp.val r.bytes.length r.stamp secured g (countRx r.sp.val r.bytes.length (frameBe r.bytes 0 6) (frameTc r.sp.val g w) w) := by
  unfold rxFrame
  dsimp only
  rw [if_neg (by simp [c]), if_neg (by simp [fl]), macFault_congr (portBusy_regs _ w), m]
  dsimp only
  rw [if_neg ty, flag_congr (portBusy_regs _ w), filterOk_congr (portBusy_regs _ w)]
  all_goals split
  all_goals first
    | rfl
    | (cases macsecRx r.sp.val (noFcs r.bytes) (portBusy (r.sp.val / 8) w) with
      | mk a b => cases a <;> rfl)

theorem classify_nextFrame (n sp tc l : Nat) (w : Wall) : (classify n sp tc l w).ing.nextFrame = w.ing.nextFrame := (classify_keep ..).ing.nextFrame (by decide)

theorem newCell_nextFrame {sp tc st : Nat} {w z : Wall} (h : newCell sp tc st w = .ok z) : z.ing.nextFrame = w.ing.nextFrame := by
  have fk : ∀ sp tc x, (fcCheck sp tc x).ing.nextFrame = x.ing.nextFrame := fun sp tc x => (fcCheck_keep ..).ing.nextFrame (by decide)
  have pk : ∀ sp ev n tc x, (pcSp sp ev n tc x).ing.nextFrame = x.ing.nextFrame := fun sp ev n tc x => (pcSp_keep ..).ing.nextFrame (by decide)
  unfold newCell at h
  dsimp only at h
  split at h
  · split at h
    · cases h
    · cases h; rw [fk]; exact pk ..
  · split at h
    · cases h
    · cases h; rw [fk]; rfl

theorem writeChunks_nextFrame (sp n tc st : Nat) : ∀ (k left off : Nat) (w z : Wall), writeChunks sp n tc st k left off w = .ok z → z.ing.nextFrame = w.ing.nextFrame := by
  intro k
  induction k with
  | zero => intro left off w z h; unfold writeChunks at h; cases h; rfl
  | succ k ih =>
    intro left off w z h
    cases left with
    | zero => unfold writeChunks at h; cases h; rfl
    | succ left =>
      rw [writeChunks] at h
      dsimp only at h
      have go : ∀ (y : Wall), (match (cellsOf sp y).getLast? with
        | none => Room.ok y
        | some c => writeChunks sp n tc st k (left + 1 - min (left + 1) (16 - cellFill c)) (off + 16 * min (left + 1) (16 - cellFill c))
            (setCells sp ((cellsOf sp y).dropLast ++ [{ c with
              segs := c.segs ++ [(⟨n, cellFill c, min (left + 1) (16 - cellFill c), off, off == 0, min (left + 1) (16 - cellFill c) == left + 1⟩ : Seg)],
              closed := cellFill c + min (left + 1) (16 - cellFill c) == 16,
              stamp := if off == 0 && !(c.segs.any fun s => s.starts) then st % 2 ^ 32 else c.stamp }]) y)) = .ok z → z.ing.nextFrame = y.ing.nextFrame := by
        intro y hy
        split at hy
        · cases hy; rfl
        · exact (ih _ _ _ _ hy).trans rfl
      have new : ∀ h' : (match newCell sp tc st w with
          | .ok y => (match (cellsOf sp y).getLast? with
            | none => Room.ok y
            | some c => writeChunks sp n tc st k (left + 1 - min (left + 1) (16 - cellFill c)) (off + 16 * min (left + 1) (16 - cellFill c))
                (setCells sp ((cellsOf sp y).dropLast ++ [{ c with
                  segs := c.segs ++ [(⟨n, cellFill c, min (left + 1) (16 - cellFill c), off, off == 0, min (left + 1) (16 - cellFill c) == left + 1⟩ : Seg)],
                  closed := cellFill c + min (left + 1) (16 - cellFill c) == 16,
                  stamp := if off == 0 && !(c.segs.any fun s => s.starts) then st % 2 ^ 32 else c.stamp }]) y))
          | r => r) = .ok z, z.ing.nextFrame = w.ing.nextFrame := by
        intro h'
        cases hn : newCell sp tc st w with
        | ok y => rw [hn] at h'; exact (go y h').trans (newCell_nextFrame hn)
        | noBuffer => rw [hn] at h'; cases h'
        | noHeadroom => rw [hn] at h'; cases h'
      cases hl : (cellsOf sp w).getLast? with
      | none =>
        rw [hl] at h
        dsimp only at h
        rw [if_neg (by decide)] at h
        exact new h
      | some c =>
        rw [hl] at h
        dsimp only at h
        by_cases op : (!c.closed) = true
        · rw [if_pos op] at h
          exact go w (by rw [hl]; exact h)
        · rw [if_neg op] at h
          exact new h
      · intro e; omega

theorem macsecRx_nextFrame (u : Nat) (f : List Byte) (w : Wall) : (macsecRx u f w).2.ing.nextFrame = w.ing.nextFrame := (macsecRx_keep ..).ing.nextFrame (by decide)

theorem cellSend_eq (b k left : Nat) (c : ICell) (w : Wall) (hc : 0 < courseCredits (courseOfBrick b) w) (hp : (tget w.bnd.pool (courseOfBrick b)).isSome = true)
    (hw : wrrPick b w = some (k, left)) (hn : nextCell (b * 32 + k) w = some c) (hb : courseOfBrick b < 4) :
    courseCredits (courseOfBrick b) (cellSend b w) = courseCredits (courseOfBrick b) w - 1 ∧
      (cellSend b w).out = .pipeCell ⟨courseOfBrick b, hb⟩ (cellOut b (b * 32 + k) c w) :: w.out := by
  have sb : ∀ sp x, (sweep sp x).bnd = x.bnd := fun sp x => (sweep_keep ..).bnd.same (by decide)
  have so : ∀ sp x, (sweep sp x).out = x.out := fun sp x => (sweep_keep ..).out (by decide)
  have pb : ∀ sp ev n tc x, (pcSp sp ev n tc x).bnd = x.bnd := fun sp ev n tc x => (pcSp_keep ..).bnd.same (by decide)
  have po : ∀ sp ev n tc x, (pcSp sp ev n tc x).out = x.out := fun sp ev n tc x => (pcSp_keep ..).out (by decide)
  unfold cellSend
  dsimp only
  rw [if_neg (by intro h; rcases h with h | h
                 · omega
                 · cases hx : tget w.bnd.pool (courseOfBrick b) with
                   | none => rw [hx] at hp; cases hp
                   | some v => rw [hx] at h; cases h), hw]
  dsimp only
  rw [hn]
  dsimp only
  rw [dif_pos hb]
  refine ⟨?_, ?_⟩
  · unfold courseCredits
    rw [sb]
    show tgetD (Wall.bnd (pcSp _ _ _ _ _)).credits _ 0 = _
    rw [pb]
    exact tgetD_tputD_same ..
  · rw [so]
    show _ :: Wall.out (pcSp _ _ _ _ _) = _
    rw [po]
    rfl

theorem entryAt_put_same (b bank i : Nat) (e : SieveEntry) (w : Wall) : entryAt b bank i (putEntry b bank i e w) = storedEntry e := by
  have q : (putEntry b bank i e w).ing.sieve = if storedEntry e = emptyEntry then tdel w.ing.sieve (sieveKeyOf b bank i) else tput w.ing.sieve (sieveKeyOf b bank i) (storedEntry e) := rfl
  unfold entryAt
  rw [q]
  by_cases c : storedEntry e = emptyEntry
  · rw [if_pos c]
    unfold tgetD
    rw [tget_tdel_same, c]
    rfl
  · rw [if_neg c]
    exact tgetD_tput_same ..

theorem entryAt_put_other (b bank i : Nat) (e : SieveEntry) (w : Wall) (c j : Nat) (h : sieveKeyOf b c j ≠ sieveKeyOf b bank i) : entryAt b c j (putEntry b bank i e w) = entryAt b c j w := by
  have q : (putEntry b bank i e w).ing.sieve = if storedEntry e = emptyEntry then tdel w.ing.sieve (sieveKeyOf b bank i) else tput w.ing.sieve (sieveKeyOf b bank i) (storedEntry e) := rfl
  unfold entryAt
  rw [q]
  split
  · unfold tgetD; rw [tget_tdel_other _ _ _ h]
  · exact tgetD_tput_other _ _ _ _ _ h

theorem newShadow_entry (b : Nat) (w : Wall) (c d j : Nat) : entryAt c d j (newShadow b w) = entryAt c d j w := rfl

theorem swapping_congr {b : Nat} {x w : Wall} (h : x.regs = w.regs) : swapping b x = swapping b w := by unfold swapping; rw [get_congr h]

theorem shadowBank_congr {b : Nat} {x w : Wall} (h : x.regs = w.regs) : shadowBank b x = shadowBank b w := by unfold shadowBank activeBank; rw [get_congr h]

theorem stageOf_congr {b : Nat} {x w : Wall} (h : ∀ k, k < 32 → x.win32 (brickWin b + 4 * k) 0 = w.win32 (brickWin b + 4 * k) 0) : stageOf b x = stageOf b w := by
  unfold stageOf
  have : ∀ l : List Nat, (∀ k ∈ l, k < 32) → l.foldr (fun k a => x.win32 (brickWin b + 4 * k) 0 + 2 ^ 32 * a) 0 = l.foldr (fun k a => w.win32 (brickWin b + 4 * k) 0 + 2 ^ 32 * a) 0 := by
    intro l
    induction l with
    | nil => intro _; rfl
    | cons k l ih =>
      intro hl
      rw [List.foldr_cons, List.foldr_cons, ih fun k hk => hl k (List.mem_cons_of_mem _ hk), h k (hl k List.mem_cons_self)]
  exact this _ fun k hk => List.mem_range.mp hk

/-- The wall on which a SIEVE_CMD operation that is not refused acts (R357). -/

theorem sieveCmd_runs (b i op : Nat) (so : Bool) (f : Wall → Wall) (w : Wall) (h : (so && swapping b w) = false) :
    sieveCmd b i op so f w = f (setRefused b false (w.setWin (brickWin b + 0x80) 0 (i + op * 2 ^ 16))) := by
  unfold sieveCmd; rw [h]; rfl

theorem cmdWall_stage (b i op : Nat) (w : Wall) : stageOf b (setRefused b false (w.setWin (brickWin b + 0x80) 0 (i + op * 2 ^ 16))) = stageOf b w := by
  refine stageOf_congr fun k hk => ?_
  unfold setRefused
  rw [win32_setWin_other, win32_setWin_other] <;> omega

theorem setStage_does (b v k : Nat) (w : Wall) (hk : k < 32) : (setStage b v w).win32 (brickWin b + 4 * k) 0 = v / 2 ^ (32 * k) % 2 ^ 32 := by
  unfold setStage
  suffices ∀ m, k < m → (upTo m (fun k w => w.setWin (brickWin b + 4 * k) 0 (v / 2 ^ (32 * k))) w).win32 (brickWin b + 4 * k) 0 = v / 2 ^ (32 * k) % 2 ^ 32 from this 32 hk
  intro m
  induction m with
  | zero => intro h; omega
  | succ m ih =>
    intro h
    have e : ∀ (g : Nat → Wall → Wall), upTo (m + 1) g w = g m (upTo m g w) := fun g => by
      unfold upTo; rw [List.range_succ, List.foldl_append]; rfl
    rw [e]
    by_cases c : k = m
    · subst c; exact win32_setWin_same ..
    · rw [win32_setWin_other _ _ _ _ _ _ (by omega)]
      exact ih (by omega)

theorem sieveRead_does (b bank i : Nat) (w : Wall) : (sieveRead b bank i w).ing = w.ing ∧ ∀ k, k < 32 → (sieveRead b bank i w).win32 (brickWin b + 4 * k) 0 =
      entryBits (entryAt b bank i w) / 2 ^ (32 * k) % 2 ^ 32 := by
  unfold sieveRead
  refine ⟨?_, fun k hk => ?_⟩
  · rw [Wall.setWin_ing]
    exact (setStage_keep ..).ing.same (by decide)
  · rw [win32_setWin_other _ _ _ _ _ _ (by omega)]
    exact setStage_does _ _ _ _ hk

theorem bit63_stored (e : SieveEntry) : bit (storedEntry { e with action := clrBit e.action 63 }).action 63 = false := by
  have h : bit (clrBit e.action 63) 63 = false := by
    have := bit_clrBit e.action 63 64
    unfold bit at this ⊢
    rw [Nat.testBit_mod_two_pow] at this
    simpa using this
  unfold storedEntry bit at *
  dsimp only
  rw [Nat.testBit_mul_two_pow, Nat.testBit_div_two_pow]
  simpa using h

theorem invalidate_same (b bank i : Nat) (w : Wall) : bit (entryAt b bank i (invalidate b bank i w)).action 63 = false := by
  unfold invalidate
  dsimp only
  rw [entryAt_put_same]
  exact bit63_stored _

theorem refused_bit (b : Nat) (w : Wall) : bit (sieveStatus b (setRefused b true w)) 1 = true := by
  unfold sieveStatus setRefused
  rw [win32_setWin_same]
  unfold bit
  rw [Nat.testBit_mod_two_pow, Nat.testBit_eq_decide_div_mod_eq]
  simp [b2n]
  omega

theorem sieveKey_bank {b c d i : Nat} (hc : c < 2) (hd : d < 2) (h : c ≠ d) (hi : i < 8192) : sieveKeyOf b c i ≠ sieveKeyOf b d i := by
  unfold sieveKeyOf; omega

theorem invalidate_other (b c d i : Nat) (w : Wall) (h : sieveKeyOf b c i ≠ sieveKeyOf b d i) : entryAt b c i (invalidate b d i w) = entryAt b c i w := entryAt_put_other _ _ _ _ _ _ _ h

theorem swapStart_does (b : Nat) (w : Wall) : activeBank b (swapStart b w) = shadowBank b w ∧ swapping b (swapStart b w) = true := by
  have n : (Reg.swapState b).key ≠ (Reg.activeBank b).key := by simp only [Reg.swapState, Reg.activeBank]; omega
  have e : (swapStart b w).regs = ((w.set (Reg.swapState b) (if w.flag (Reg.copyAfterSwap b) then 2 else 1)).set (Reg.activeBank b) (shadowBank b w)).regs := rfl
  have sb : shadowBank b w < 2 := by unfold shadowBank; omega
  refine ⟨?_, ?_⟩
  · unfold activeBank
    rw [get_congr e, get_set_same]
    show shadowBank b w % 2 ^ 8 % 2 = _
    omega
  · unfold swapping
    rw [get_congr e, get_set_other _ _ _ _ n, get_set_same]
    split <;> rfl

theorem refused_shadow (b c : Nat) (r : Bool) (w : Wall) : shadowBank c (setRefused b r w) = shadowBank c w := shadowBank_congr rfl

theorem activeBank_congr {b : Nat} {x w : Wall} (h : x.regs = w.regs) : activeBank b x = activeBank b w := by unfold activeBank; rw [get_congr h]

theorem refused_active (b c : Nat) (r : Bool) (w : Wall) : activeBank c (setRefused b r w) = activeBank c w := activeBank_congr rfl

theorem setWin_active (c o d v : Nat) (w : Wall) : activeBank c (w.setWin o d v) = activeBank c w := activeBank_congr rfl

theorem setWin_shadow (c o d v : Nat) (w : Wall) : shadowBank c (w.setWin o d v) = shadowBank c w := shadowBank_congr rfl

theorem tget_tfilter_none {α : Type} (t : Tbl α) (p : Nat → α → Bool) (k : Nat) (h : ∀ a, p k a = false) : tget (tfilter t p) k = none := by
  induction t with
  | nil => rfl
  | cons e t ih =>
    have e2 : tfilter (e :: t) p = if p e.1 e.2 then e :: tfilter t p else tfilter t p := by
      unfold tfilter; rw [List.filter_cons]
    rw [e2]
    split
    · rename_i c
      unfold tget
      rw [if_neg]
      · exact ih
      · intro hk; rw [hk, h] at c; cases c
    · exact ih

theorem cmdWall_entry (b o v c d j : Nat) (r : Bool) (w : Wall) : entryAt c d j (setRefused b r (w.setWin o 0 v)) = entryAt c d j w := by
  have e : (setRefused b r (w.setWin o 0 v)).ing = w.ing := rfl
  unfold entryAt; rw [e]

theorem setRefused_ing (b : Nat) (r : Bool) (w : Wall) : (setRefused b r w).ing = w.ing := rfl

theorem sieveRead_cmd (b bank i o v : Nat) (w : Wall) : (sieveRead b bank i (setRefused b false (w.setWin o 0 v))).ing = w.ing ∧ ∀ k, k < 32 →
    (sieveRead b bank i (setRefused b false (w.setWin o 0 v))).win32 (brickWin b + 4 * k) 0 = entryBits (entryAt b bank i w) / 2 ^ (32 * k) % 2 ^ 32 := by
  obtain ⟨h1, h2⟩ := sieveRead_does b bank i (setRefused b false (w.setWin o 0 v))
  refine ⟨?_, fun k hk => ?_⟩
  · rw [h1, setRefused_ing, Wall.setWin_ing]
  · rw [h2 k hk, cmdWall_entry]

theorem gleanFlush_glean (b : Nat) (w : Wall) : (gleanFlush b w).ing.glean = tfilter w.ing.glean fun k _ => k / 1024 != b := rfl

theorem policerApply_good {b i v : Nat} {w : Wall} (h : policerOk (policerStage b i v w) = true) :
    policerApply b i v w = newDom ((0x2102 + b * 16) * 256 + 1) (putPolicer b i (policerStage b i v w) (w.setWin (brickWin b + 0x30000 + i * 16 + 12) 0 (v % 4))) := by
  unfold policerStage at h ⊢
  unfold policerApply
  dsimp only
  exact if_pos h

theorem policerApply_bad {b i v : Nat} {w : Wall} (h : ¬policerOk (policerStage b i v w) = true) : policerApply b i v w = badWindow w := by
  unfold policerStage at h
  unfold policerApply
  dsimp only
  exact if_neg h

end Sys2Proof.Machine
end

