-- ==== Sys2Proof/Laws/CmdHeld.lean ====
section
/-! SUPPORT. What the rows that one Ledger request reaches do: time writes, store commands, swaps, mode requests, zeroisation. -/

open Sys2Proof

namespace Sys2Proof.Machine

theorem Ready.held {r : LReq} {row : ObjRow} {u k v : Nat} {data : List Byte} {s : State} (h : Ready r row u k v data s) {o : Own} {c : Instr}
    {x : Wall} {P : State → Prop} (e : exec c s = actM (serveOwn o) s) (ho : ownWrite (rowId row) v = some o)
    (special : rowId row ∉ [0x101001, 0x101101, 0x101102, 0x100202, 0x120101]) (he : effect 0 r row u k v data (headTaken s.w) = .held x)
    (hP : P { s with w := x }) : Completes c s P := by
  refine completes_actM e ?_
  have q : serveOwn o s.mode s.w = x := by
    unfold serveOwn
    rw [h.serve (h.own ho), h.head_eq, h.result 0 special, he]
  rw [q]; exact hP

theorem Ready.later {r : LReq} {row : ObjRow} {u k v : Nat} {data : List Byte} {s : State} (h : Ready r row u k v data s) {o : Own} {c : Instr}
    {on : WaitFor} {x : Wall} {P : State → Prop} (e : exec c s = actM (serveOwn o) s) (ho : ownWrite (rowId row) v = some o)
    (hr : writeResult 0 s.mode r row u k data (headTaken s.w) = .later on x)
    (hP : P { s with w := deferResponse r.who r.role on (noteService r (rowId row) data x) }) : Completes c s P := by
  refine completes_actM e ?_
  have q : serveOwn o s.mode s.w = deferResponse r.who r.role on (noteService r (rowId row) data x) := by
    unfold serveOwn
    rw [h.serve (h.own ho), h.head_eq, hr]
  rw [q]; exact hP

theorem headTaken_queue (w : Wall) : (headTaken w).led.queue = w.led.queue.tail := by rw [headTaken_led]

theorem headTaken_time (w : Wall) : (headTaken w).time = w.time := by
  unfold headTaken queueLevel; simp only [level_time]

theorem wallT_congr {x w : Wall} (h : x.time = w.time) : x.wallT = w.wallT := by unfold Wall.wallT Wall.stamp; rw [h]

theorem stepped_time (w : Wall) : (stepped w).time = w.time := by unfold stepped; rw [Wall.set_time, Wall.bump_time]

theorem applyTime_wallT (op : TimeOp) (w : Wall) : (applyTime op w).wallT = match op with | .set v => (v : Int) | .step d => w.wallT + d | .freq _ => w.wallT := by
  cases op with
  | set v =>
    unfold applyTime; dsimp only
    rw [wallT_congr (stepped_time _)]
    unfold Wall.wallT Wall.stamp; dsimp only; omega
  | step d =>
    unfold applyTime; dsimp only
    rw [wallT_congr (stepped_time _)]
    unfold Wall.wallT Wall.stamp; dsimp only; omega
  | freq p => rfl

theorem applyTime_waits (op : TimeOp) (w : Wall) : (applyTime op w).time.waits = w.time.waits := by
  cases op <;> unfold applyTime <;> dsimp only <;> (try rw [stepped_time])

theorem applyAll_time (l : List TimeWait) (w : Wall) : (l.foldl (fun w x => applyTime x.op w) w).wallT = wallAfter l w.wallT ∧
    (l.foldl (fun w x => applyTime x.op w) w).time.waits = w.time.waits := by
  induction l generalizing w with
  | nil => exact ⟨rfl, rfl⟩
  | cons x l ih =>
    have := ih (applyTime x.op w)
    rw [applyTime_wallT, applyTime_waits] at this
    exact this

theorem respondAll_time (l : List TimeWait) (w : Wall) : (l.foldl (fun w x => respond x.who 0 none w) w).time = w.time := by
  induction l generalizing w with
  | nil => rfl
  | cons x l ih => exact (ih _).trans (respond_time ..)

theorem takeAdj_time (w : Wall) : (takeAdj w).wallT = w.wallT ∧ (takeAdj w).time.waits = w.time.waits := by
  unfold takeAdj
  refine upTo_keeps (fun x : Wall => x.wallT = w.wallT ∧ x.time.waits = w.time.waits) _ _ _ ⟨rfl, rfl⟩ fun p x hx => ?_
  exact hx

theorem waitTime_waits (who : Who) (op : TimeOp) (w : Wall) : (waitTime who op w).time.waits = w.time.waits ++ [{ op := op, who := who, applied := w.time.tclk, seen := false }] := rfl

theorem waitTime_queue (who : Who) (op : TimeOp) (w : Wall) : (waitTime who op w).led = w.led := rfl

theorem waitTime_get (who : Who) (op : TimeOp) (w : Wall) (o : Reg) : (waitTime who op w).get o = w.get o := rfl

theorem toInt_ofInt32 (v : Nat) : toInt 32 (ofInt 32 (toInt 32 v)) = toInt 32 v := by
  unfold toInt ofInt
  split <;> split <;> omega

theorem readObj_eq {r : LReq} {row : ObjRow} {u k : Nat} {w : Wall} (m : Mode) (h5 : r.index < 0xF000) (h6 : findRow r.index r.sub objTable = some (row, u, k))
    (h7 : canRead r.role row = true) (h8 : row.type ≠ .domain) (h9 : (bareSvc w && absentBare r.index r.sub) = false) (hid : rowId row ≠ 0x113001) :
    readObj r m w = if rowId row = 0x500404 then (0, toLe 16 (takeStamp u w).1, (takeStamp u w).2)
      else if rowId row = 0x152003 then (0, toLe 32 (takeSampleEntry w).1, (takeSampleEntry w).2)
      else (0, encodeVal row.type (liveVal row u k r.sub r.who m w), w) := by
  unfold readObj
  rw [if_neg (by omega), h6]
  dsimp only
  rw [if_neg (fun e => hid e.1), h7, if_neg (by simp), if_neg h8, if_neg (by simp [h9])]

theorem readHead_eq {r : LReq} {row : ObjRow} {u k : Nat} {s : State} (h1 : serves s.mode s.w = true) (h2 : s.w.led.queue.head? = some r)
    (h3 : r.op = .read) (h4 : modeAbort s.mode r (headTaken s.w) = none) (h5 : r.index < 0xF000) (h6 : findRow r.index r.sub objTable = some (row, u, k))
    (h7 : canRead r.role row = true) (h8 : row.type ≠ .domain) (h9 : (bareSvc (headTaken s.w) && absentBare r.index r.sub) = false)
    (hid : rowId row ≠ 0x113001) {o : Own} (ho : ownOf r = some o) :
    serveOwn o s.mode s.w = if rowId row = 0x500404 then respond r.who 0 (some (toLe 16 (takeStamp u (headTaken s.w)).1)) (takeStamp u (headTaken s.w)).2
      else if rowId row = 0x152003 then respond r.who 0 (some (toLe 32 (takeSampleEntry (headTaken s.w)).1)) (takeSampleEntry (headTaken s.w)).2
      else respond r.who 0 (some (encodeVal row.type (liveVal row u k r.sub r.who s.mode (headTaken s.w)))) (headTaken s.w) := by
  unfold serveOwn
  rw [serveIf_eq h2 h1 (by rw [ho]; simp)]
  obtain ⟨rest, _, e⟩ := serveHead_eq h2 0 s.mode
  rw [e, h4]
  dsimp only
  rw [h3]
  dsimp only
  rw [readObj_eq s.mode h5 h6 h7 h8 h9 hid]
  split
  · rfl
  · split <;> rfl

theorem ownOf_read {r : LReq} {row : ObjRow} {u k : Nat} (h : findRow r.index r.sub objTable = some (row, u, k)) (e : r.op = .read) :
    ownOf r = if rowId row = 0x500404 then some .stampRead else if rowId row = 0x152003 then some .sampleRead else none := by
  unfold ownOf; rw [h]; dsimp only; rw [e]

theorem takeStamp_does (sp : Nat) (w : Wall) : (takeStamp sp w).2.led = w.led ∧ tgetD (takeStamp sp w).2.time.captures sp [] = (tgetD w.time.captures sp []).tail := by
  unfold takeStamp
  cases h : tgetD w.time.captures sp [] with
  | nil => dsimp only; exact ⟨rfl, h⟩
  | cons x l =>
    dsimp only
    have q : tgetD (if l = [] then tdel w.time.captures sp else tput w.time.captures sp l) sp [] = l := by
      split
      · rename_i e; subst e; unfold tgetD; rw [tget_tdel_same]; rfl
      · exact tgetD_tput_same ..
    generalize (if l = [] then tdel w.time.captures sp else tput w.time.captures sp l) = c at q ⊢
    split
    · rw [level_led, level_time]; exact ⟨rfl, q⟩
    · exact ⟨rfl, q⟩

theorem takeSampleEntry_does (w : Wall) : (takeSampleEntry w).2.led = w.led ∧ (takeSampleEntry w).2.obs.samples = w.obs.samples.tail := by
  unfold takeSampleEntry
  cases h : w.obs.samples with
  | nil => dsimp only; exact ⟨rfl, h⟩
  | cons x l => dsimp only; rw [Wall.set_led, Wall.set_obs]; exact ⟨rfl, rfl⟩

theorem headTaken_samples (w : Wall) : (headTaken w).obs.samples = w.obs.samples := by
  unfold headTaken queueLevel
  exact (level_keep ..).obs.samples (by decide)

theorem resync_time (w : Wall) : (resync w).time.waits = (w.time.waits.filter fun x => !timeDue w x).map (fun x => { x with seen := true }) ∧
    (resync w).wallT = wallAfter (w.time.waits.filter (timeDue w)) w.wallT := by
  unfold resync
  dsimp only
  rw [wallT_congr (respondAll_time _ _), respondAll_time, (applyAll_time _ _).1, (applyAll_time _ _).2, (takeAdj_time _).1, (takeAdj_time _).2]
  exact ⟨rfl, rfl⟩

theorem noteService_queue (r : LReq) (id : Nat) (data : List Byte) (w : Wall) : (noteService r id data w).led.queue = w.led.queue := (noteService_keep ..).led.queue (by decide)

theorem noteService_deferred (r : LReq) (id : Nat) (data : List Byte) (w : Wall) : (noteService r id data w).led.deferred = w.led.deferred := (noteService_keep ..).led.deferred (by decide)

theorem noteService_store (r : LReq) (id : Nat) (data : List Byte) (w : Wall) : (noteService r id data w).led.store = w.led.store := (noteService_keep ..).led.store (by decide)

theorem noteService_regs (r : LReq) (id : Nat) (data : List Byte) (w : Wall) : (noteService r id data w).regs = w.regs := (noteService_keep ..).regs (by decide)

theorem storeFold_queue (kind : StoreKind) (role : Role) (l : List (ObjRow × Nat × Nat × Nat × Nat)) (x : Wall × List Nat) :
    (l.foldl (fun x e => storeOne kind role e x) x).1.led.queue = x.1.led.queue := by
  induction l generalizing x with
  | nil => rfl
  | cons e l ih => exact (ih _).trans ((storeOne_keep kind role e x).led.queue (by decide))

theorem storeStart_runs (kind : StoreKind) (r : LReq) (v : Nat) (w : Wall) (h1 : w.led.store = none) (h2 : granaryShut w = false)
    (h3 : sheavesFor kind (covered r.role (v % 2 ^ 16) (v / 2 ^ 16)) w ≤ w.get Reg.storeAllowance) :
    ∃ x, storeStart kind r v w = .later .store x ∧ x.led.queue = w.led.queue ∧ (x.led.store.map fun c => c.kind) = some kind := by
  unfold storeStart
  dsimp only
  rw [if_neg (by rw [h1]; simp), if_neg (by rw [h2]; simp), if_neg (by omega)]
  refine ⟨_, rfl, ?_, rfl⟩
  unfold storeBegin
  dsimp only
  rw [storeFold_queue, Wall.set_led, Wall.set_led]

theorem granaryShut_headTaken (w : Wall) : granaryShut (headTaken w) = granaryShut w := by
  have A : Aside Reg.granaryRo := by decide
  have B : Aside Reg.bankState := by decide
  unfold granaryShut granaryFailed bankWorks Wall.flag
  rw [A.headTaken, B.headTaken]

theorem headTaken_sec (w : Wall) : (headTaken w).sec = w.sec := by unfold headTaken queueLevel; rw [level_sec]

theorem getSa_congr {u k : Nat} {x w : Wall} (h : x.sec = w.sec) : getSa u k x = getSa u k w := by unfold getSa; rw [h]

theorem getSa_put (u k : Nat) (a : Sa) (w : Wall) : getSa u k (putSa u k a w) = some a := tget_tput_same ..

theorem installSa_receive (u k : Nat) (l : List Byte) (m : Bool) (w : Wall) (hk : 4 ≤ k) (h1 : getSa u k w = none) (h2 : saCount u (k / 4) w < 2)
    (h3 : tget w.sec.blobs (saId u k) = some (l, m)) (h4 : (blobOf l).form = 0) (h5 : w.get (Reg.saDurable u k) = 0)
    (h6 : (blobOf l).len = if w.get (Reg.cipher u) = 0 then 16 else 32) : ∃ x, installSa u k true w = .ok x ∧
      (getSa u k x).map (fun a => (a.key, a.pendingInstall)) = some ((blobOf l).bytes.take (blobOf l).len, false) := by
  have hd : w.flag (Reg.saDurable u k) = false := by unfold Wall.flag; rw [h5]; rfl
  have hb : blobKey (blobOf l) w = some ((blobOf l).bytes.take (blobOf l).len) := by unfold blobKey; rw [if_pos h4]
  unfold installSa
  rw [if_neg (by rw [h1]; simp; omega), h3]
  dsimp only
  rw [if_neg (by simp), hb]
  dsimp only
  rw [if_neg (by simp [h6]), hd, if_neg (by simp), if_pos hk]
  simp only [Bool.false_eq_true, if_false]
  refine ⟨_, rfl, ?_⟩
  unfold when
  rw [if_neg (by simp), getSa_congr (showSa_sec u k _), getSa_put]
  rfl

theorem plainOk_congr {u k : Nat} {w : Wall} : plainOk u k (headTaken w) = plainOk u k w := by
  have A : Aside Reg.approvedOnly := by decide
  unfold plainOk Wall.flag
  rw [headTaken_sec, A.headTaken]

theorem effect_queue_later {arg : Nat} {r : LReq} {row : ObjRow} {u k v : Nat} {data : List Byte} {on : WaitFor} {w x : Wall}
    (he : effect arg r row u k v data w = .later on x) : x.led.queue = w.led.queue := by
  have h := effect_keep arg r row u k v data w
  rw [he] at h
  unfold WRes.Keep at h
  exact h.led.queue (by decide)

theorem ownId (o : Own) (id v : Nat) (ho : ownWrite id v = some o) (hn : o ∉ [Own.store, .restore, .dflt, .modeEmber, .modeKindle, .modeService, .modeDoze, .zeroise]) :
    id ∉ [0x101001, 0x101101, 0x101102, 0x100202, 0x120101] := by
  intro e
  simp only [List.mem_cons, List.not_mem_nil, or_false] at e
  rcases e with e | e | e | e | e <;> rw [e] at ho <;> unfold ownWrite at ho <;> simp at ho
  · subst ho; exact hn (by decide)
  · subst ho; exact hn (by decide)
  · subst ho; exact hn (by decide)
  · split at ho <;> first | (cases ho; exact hn (by decide)) | (cases ho)
  · subst ho; exact hn (by decide)

theorem serves_awake {m : Mode} {w : Wall} (h : serves m w = true) : awake m w = true ∧ halted w = false := by
  unfold serves at h
  simp only [Bool.and_eq_true, Bool.not_eq_true'] at h
  exact h

/-- A write of MODE_REQUEST that is served. -/

theorem modeHead_eq {r : LReq} {row : ObjRow} {u k v : Nat} {data : List Byte} {s : State} (h : Ready r row u k v data s) (e : rowId row = 0x100202)
    {o : Own} (ho : ownWrite 0x100202 v = some o) : serveOwn o s.mode s.w = modeRequest r v s.mode (headTaken s.w) := by
  unfold serveOwn
  rw [h.serve (h.own (by rw [e]; exact ho)), h.head_eq]
  have q : writeResult 0 s.mode r row u k data (headTaken s.w) = .held (modeRequest r v s.mode (headTaken s.w)) := by
    unfold writeResult
    dsimp only
    rw [h.steward, h.value, h.state, e]
    rfl
  rw [q]

theorem modeState {r : LReq} {row : ObjRow} {u k v : Nat} {data : List Byte} {s : State} (h : Ready r row u k v data s) (e : rowId row = 0x100202) :
    (s.mode = .service ∨ (s.mode = .doze ∧ v ≠ 4)) ∧ s.w.led.moveDue = 0 ∧ s.w.led.closed = false := by
  have hs := h.state
  rw [e] at hs
  have q : stateRule 0x100202 u k v s.mode (headTaken s.w) = if (match s.mode with
      | .service => (headTaken s.w).led.moveDue == 0
      | .doze => (headTaken s.w).led.moveDue == 0 && v != 4
      | _ => false) then none else some aMode := by unfold stateRule; rfl
  rw [q, headTaken_led] at hs
  have hm := h.mode
  unfold modeAbort at hm
  cases c : s.mode <;> rw [c] at hs hm <;> dsimp only at hs hm
  · simp at hs
  · simp at hs
  · simp at hs
  · refine ⟨.inl rfl, by simpa using hs, ?_⟩
    rw [headTaken_led] at hm; simpa using hm
  · simp at hs
    refine ⟨.inr ⟨rfl, hs.2⟩, hs.1, ?_⟩
    rw [headTaken_led] at hm; simpa using hm
  · simp at hs

theorem modeRequest_does (r : LReq) (v : Nat) (m : Mode) (w : Wall) : (modeRequest r v m w).led.queue = w.led.queue ∧ (modeRequest r v m w).led.store = w.led.store ∧
    (modeRequest r v m w).led.closed = w.led.closed ∧ (modeRequest r v m w).sec.zeroising = w.sec.zeroising ∧
    (modeRequest r v m w).led.moveDue = if m = .service ∧ v = 3 then w.led.moveDue else v := by
  have z : (respond r.who 0 none w).sec.zeroising = w.sec.zeroising := (respond_keep ..).sec.zeroising (by decide)
  unfold modeRequest
  dsimp only
  split
  · rw [respond_led_queue, respond_led_store, respond_led_closed, respond_led_moveDue, z]; exact ⟨rfl, rfl, rfl, rfl, rfl⟩
  · dsimp only; rw [respond_led_queue, respond_led_store, respond_led_closed, z]; exact ⟨rfl, rfl, rfl, rfl, rfl⟩

theorem emberStart_led (w : Wall) : (emberStart w).led.closed = true ∧ (emberStart w).led.queue = [] ∧ (emberStart w).led.moveDue = w.led.moveDue := by
  have q : ∀ (l : List LReq) (w : Wall), (l.foldl (fun w r => respondG r.who aMode 0 none w) w).led.closed = w.led.closed ∧
      (l.foldl (fun w r => respondG r.who aMode 0 none w) w).led.queue = w.led.queue ∧
      (l.foldl (fun w r => respondG r.who aMode 0 none w) w).led.moveDue = w.led.moveDue := by
    intro l
    induction l with
    | nil => exact fun _ => ⟨rfl, rfl, rfl⟩
    | cons r l ih =>
      intro w
      have k := (respondG_keep r.who aMode 0 none w).led
      obtain ⟨a, b, c⟩ := ih (respondG r.who aMode 0 none w)
      exact ⟨a.trans (k.closed (by decide)), b.trans (k.queue (by decide)), c.trans (k.moveDue (by decide))⟩
  have k1 : ∀ w, (askMarks (dropRings (stopStewards (stopPorts 13 (closeAll 5 w))))).led.closed = w.led.closed ∧
      (askMarks (dropRings (stopStewards (stopPorts 13 (closeAll 5 w))))).led.queue = w.led.queue ∧
      (askMarks (dropRings (stopStewards (stopPorts 13 (closeAll 5 w))))).led.moveDue = w.led.moveDue := fun w => by
    rw [(askMarks_keep ..).led.closed (by decide), (dropRings_keep ..).led.closed (by decide), (stopStewards_keep ..).led.closed (by decide),
      (stopPorts_keep ..).led.closed (by decide), (closeAll_keep ..).led.closed (by decide),
      (askMarks_keep ..).led.queue (by decide), (dropRings_keep ..).led.queue (by decide), (stopStewards_keep ..).led.queue (by decide),
      (stopPorts_keep ..).led.queue (by decide), (closeAll_keep ..).led.queue (by decide),
      (askMarks_keep ..).led.moveDue (by decide), (dropRings_keep ..).led.moveDue (by decide), (stopStewards_keep ..).led.moveDue (by decide),
      (stopPorts_keep ..).led.moveDue (by decide), (closeAll_keep ..).led.moveDue (by decide)]
    exact ⟨rfl, rfl, rfl⟩
  unfold emberStart
  dsimp only
  rw [(k1 _).1, (k1 _).2.1, (k1 _).2.2, (q _ _).1, (q _ _).2.1, (q _ _).2.2]
  rw [queueLevel_led]
  exact ⟨rfl, rfl, rfl⟩

theorem restart_does (c : Nat) (m : Mode) (w : Wall) : (restart c m w).1 = .kindle ∧ (restart c m w).2.bnd.fetchDue = true ∧ (restart c m w).2.get Reg.kindleStep = 1 := by
  unfold restart
  dsimp only
  refine ⟨rfl, ?_, ?_⟩
  · unfold clearReeveFault modBnd
    rfl
  · have : ∀ x : Wall, (clearReeveFault x).get Reg.kindleStep = x.get Reg.kindleStep := fun _ => rfl
    rw [this, get_set_other _ _ _ _ (by decide), get_set_same]; rfl

theorem dueMove_held (m : Mode) (w : Wall) (h : w.led.store.isSome = true) : dueMove m w = (m, w) := by
  unfold dueMove; rw [if_pos (.inr (.inl h))]

theorem dueMove_runs (m : Mode) (w : Wall) (h1 : w.led.store = none) (h2 : w.led.closed = false) (h3 : w.sec.zeroising = none) (h4 : inService m = true) (h0 : w.led.moveDue ≠ 0) :
    dueMove m w = if w.led.moveDue = 1 then (m, emberStart w)
    else if w.led.moveDue = 2 then restart 14 m w
    else if w.led.moveDue = 3 then (if m = .doze then (.service, dozeExit 12 5 { w with led := { w.led with moveDue := 0 } }) else (m, { w with led := { w.led with moveDue := 0 } }))
    else if m = .service then (.doze, dozeEnter { w with led := { w.led with moveDue := 0 } }) else (m, { w with led := { w.led with moveDue := 0 } }) := by
  unfold dueMove
  rw [if_neg (by rw [h1, h2, h3, h4]; simp [h0])]

theorem zeroiseEngines_does (c : Nat) (w : Wall) : (zeroiseEngines c w).sec.zeroising = some c ∧ (zeroiseEngines c w).sec.keks = [] ∧ (zeroiseEngines c w).sec.sas = [] := by
  have u : (upTo 4 (fun k w => w.set (Reg.kekState k) 0) (dropKeySheaves (dropKeys c w))).sec = (dropKeys c w).sec :=
    upTo_keeps (fun x : Wall => x.sec = (dropKeys c w).sec) _ _ _ rfl fun _ x hx => hx
  have q : ∀ x : Wall, (dropSaObjects x).sec = x.sec := fun _ => rfl
  have z : ∀ (f) (x : Wall), (writeHeaders f x).sec = x.sec := fun f x => (writeHeaders_keep ..).sec.same (by decide)
  unfold zeroiseEngines
  dsimp only
  split
  · rw [q, u]; exact ⟨rfl, rfl, rfl⟩
  · rw [z, q, u]; exact ⟨rfl, rfl, rfl⟩

theorem zeroiseStart_does (w : Wall) : (zeroiseStart w).sec.zeroising = w.sec.zeroising ∧ (zeroiseStart w).sec.keks = w.sec.keks ∧ (w.sec.sas = [] → (zeroiseStart w).sec.sas = []) := by
  have k := (zeroiseStart_keep w).sec
  refine ⟨k.zeroising (by decide), k.keks (by decide), fun h => ?_⟩
  rw [k.sas (by decide)]; exact h

theorem sealNow_runs (c l : Nat) (m : Mode) (w : Wall) (h1 : clocksRun m w = true) (h2 : halted w = false) (h3 : m ≠ .sealedMode) :
    sealNow c l m w = (.sealedMode, zeroiseEngines c (sealWall m c l w)) := by
  unfold sealNow; rw [if_pos (by simp [h1, h2, h3])]

theorem selftest_ready {r : LReq} {row : ObjRow} {u k : Nat} {data : List Byte} {s : State} (h : Ready r row u k 1 data s) (e : rowId row = 0x120004) (n : Nat) :
    Ready r row u k 1 data { s with w := s.w.set Reg.selftestResult n } := by
  have g : ∀ o : Reg, o.key ≠ Reg.selftestResult.key → Aside o → (headTaken (s.w.set Reg.selftestResult n)).get o = (headTaken s.w).get o := fun o ho A => by
    rw [A.headTaken, A.headTaken]; exact get_set_other _ _ _ _ ho
  refine { served := ?_, head := h.head, op := h.op, index := h.index, found := h.found, path := h.path, value := h.value, raw := h.raw, mode := ?_, access := h.access,
           check2 := h.check2, check3 := ?_, steward := ?_, state := ?_, present := ?_ }
  · have := h.served
    unfold serves halted at this ⊢
    dsimp only
    rw [get_set_other _ _ _ _ (by decide)]; exact this
  · have := h.mode
    unfold modeAbort at this ⊢
    dsimp only
    rw [headTaken_led] at this ⊢
    exact this
  · have q : ∀ w : Wall, rangeRule 0x120004 u k 1 w = true := fun _ => rfl
    have := h.check3
    unfold Machine.check3 at this ⊢
    rw [e] at this ⊢
    dsimp only at this ⊢
    rw [q] at this ⊢
    exact this
  · have := h.steward
    unfold stewardAway at this ⊢
    cases c : needsSteward r.index with
    | none => rfl
    | some b =>
      rw [c] at this
      dsimp only at this ⊢
      rw [g (Reg.stState b) (by simp only [Reg.stState, Reg.selftestResult]; omega) (by have := needsSteward_lt c; simp only [Aside, Reg.stState]; omega)]
      exact this
  · rw [e]; rfl
  · have := h.present
    unfold bareSvc Wall.flag at this ⊢
    rw [g Reg.bare (by decide) (by decide)]; exact this

theorem selftest_runs {r : LReq} {row : ObjRow} {u k : Nat} {data : List Byte} {s : State} (h : Ready r row u k 1 data s) (e : rowId row = 0x120004) (n mark : Nat) :
    serveIf (fun r => ownOf r == some .selftest) n s.mode (s.w.set Reg.selftestResult mark) =
      answered r row data n ((headTaken (s.w.set Reg.selftestResult mark)).set Reg.selftestResult n) := by
  have h2 := selftest_ready h e mark
  refine h2.ok (arg := n) (by rw [e]; decide) (h2.own (o := .selftest) (by rw [e]; rfl)) ?_
  unfold effect
  rw [e]
  rfl

theorem selftest_get {r : LReq} {row : ObjRow} {data : List Byte} (e : rowId row = 0x120004) (n : Nat) (w : Wall) :
    (answered r row data n (w.set Reg.selftestResult n)).get Reg.selftestResult = n % 2 ^ 8 := by
  rw [answered_get _ _ _ _ _ (by decide) (by decide) (by rw [e]; decide), get_set_same]; rfl

end Sys2Proof.Machine
end

