-- ==== Sys2Proof/Laws/CmdEgress.lean ====
section
/-! SUPPORT. What the commands of the scheduler, the shapers and the gates do. -/

open Sys2Proof

namespace Sys2Proof.Machine

theorem issueRead_get (u : ReadUse) (a n : Nat) (w : Wall) (o : Reg) (h : o.key ≠ Reg.tagsOut.key) : (issueRead u a n w).get o = w.get o := by
  unfold issueRead
  split
  · rfl
  · rename_i t _
    have e : ∀ (x : Wall) (q : Out), (x.emit q).get o = x.get o := fun _ _ => rfl
    rw [e, get_bump_other _ _ _ _ h]; rfl

theorem issueReads_get (u : ReadUse) (l : List (Nat × Nat)) (w : Wall) (o : Reg) (h : o.key ≠ Reg.tagsOut.key) : (issueReads u l w).get o = w.get o := by
  unfold issueReads
  induction l generalizing w with
  | nil => rfl
  | cons p l ih => rw [List.foldl_cons, ih, issueRead_get _ _ _ _ _ h]

theorem setRing_get (k : Nat) (r : RingRt) (w : Wall) (o : Reg) : (w.setRing k r).get o = w.get o := rfl

theorem fetchDescs_get (k n : Nat) (w : Wall) (o : Reg) (h : o.key ≠ Reg.tagsOut.key) : (fetchDescs k n w).get o = w.get o := by
  unfold fetchDescs
  dsimp only
  split
  · rw [issueRead_get _ _ _ _ _ h, setRing_get]
  · rfl

theorem startFrame_get (i sp : Nat) (m : Bool) (ds rest : List (Nat × Nat)) (w : Wall) (o : Reg) (h : o.key ≠ Reg.tagsOut.key) : (startFrame i sp m ds rest w).get o = w.get o := by
  unfold startFrame
  dsimp only
  split
  · rw [issueReads_get _ _ _ _ h]; rfl
  · rfl

theorem txComplete_regs (k a b c d e f g : Nat) (w : Wall) : (txComplete k a b c d e f g w).regs = w.regs := (txComplete_keep ..).regs (by decide)

theorem txTake_get (i sp : Nat) (m : Bool) (w : Wall) (o : Reg) (h : o.key ≠ Reg.tagsOut.key) : (txTake i sp m w).get o = w.get o := by
  unfold txTake
  dsimp only
  split
  · rfl
  · split
    · rw [get_congr (txComplete_regs ..)]; rfl
    · rfl
    · split
      · rw [get_congr (txComplete_regs ..)]; rfl
      · exact startFrame_get _ _ _ _ _ _ _ h
    · split <;> rfl

theorem pumpTx_get (i sp : Nat) (m : Bool) (w : Wall) (o : Reg) (h : o.key ≠ Reg.tagsOut.key) : (pumpTx i sp m w).get o = w.get o := by
  unfold pumpTx
  exact upTo_keeps (fun x : Wall => x.get o = w.get o) _ _ _ rfl fun _ x hx => by rw [txTake_get _ _ _ _ _ h, fetchDescs_get _ _ _ _ h]; exact hx

theorem pumpSp_get (sp : Nat) (w : Wall) (o : Reg) (h : o.key ≠ Reg.tagsOut.key) : (pumpSp sp w).get o = w.get o := by
  unfold pumpSp
  dsimp only
  generalize (((List.range 256).map fun j => (tgetD w.hst.turn sp 255 + 1 + j) % 256).filter fun i => bit (w.get (Reg.txRings sp)) i) = l
  suffices ∀ x : Wall, (l.foldl (fun w i =>
    let w' := pumpTx i sp false w
    if (w.ring i).dataFor = [] ∧ (w'.ring i).dataFor ≠ [] then { w' with hst := { w'.hst with turn := tput w'.hst.turn sp i } } else w') x).get o = x.get o from this w
  induction l with
  | nil => exact fun _ => rfl
  | cons i l ih =>
    intro x
    rw [List.foldl_cons, ih]
    dsimp only
    split
    · exact (show _ = _ from rfl : Wall.get { pumpTx i sp false x with hst := _ } o = (pumpTx i sp false x).get o).trans (pumpTx_get _ _ _ _ _ h)
    · exact pumpTx_get _ _ _ _ _ h

theorem pumpRx_get (k : Nat) (w : Wall) (o : Reg) (h : o.key ≠ Reg.tagsOut.key) : (pumpRx k w).get o = w.get o := by
  unfold pumpRx
  generalize (if rxRoom (w.ring k).held < 16392 then 70000 else 32) = n
  exact fetchDescs_get _ _ _ _ h

theorem pumpRings_get (w : Wall) (o : Reg) (h : o.key ≠ Reg.tagsOut.key) : (pumpRings w).get o = w.get o := by
  unfold pumpRings
  generalize w.hst.rings = l
  generalize hw : w.get o = g
  revert hw
  generalize w = x
  intro hw
  subst hw
  revert x
  induction l with
  | nil => exact fun _ => rfl
  | cons e l ih =>
    intro x
    rw [List.foldl_cons, ih]
    split
    · split
      · split
        · exact pumpTx_get _ _ _ _ _ h
        · rfl
      · split
        · exact pumpSp_get _ _ _ h
        · rfl
    · exact pumpRx_get _ _ _ h

theorem pauseSent_out (sp : SubPort) (x : PauseOut) (rest : List PauseOut) (w : Wall) :
    (sendPause sp.val x rest w).out = .pauseFrame sp (w.get (Reg.fcMode sp.val) == 2) x.prios x.quanta :: w.out ∧
    tgetD (sendPause sp.val x rest w).prt.pauseOut sp.val [] = rest ∧ (sendPause sp.val x rest w).egr = w.egr := by
  have e : ∀ (y : Wall) (o : Out), (y.emit o).out = o :: y.out ∧ (y.emit o).prt = y.prt ∧ (y.emit o).egr = y.egr := fun _ _ => ⟨rfl, rfl, rfl⟩
  unfold sendPause
  dsimp only
  rw [dif_pos sp.isLt]
  have hc : ∀ (b : Bool) (y : Wall), (countTx sp.val 64 0x0180C2000001 none (if b then stat sp.val (64 + x.tc) 1 y else stat sp.val 73 1 y)).out = y.out ∧
      (countTx sp.val 64 0x0180C2000001 none (if b then stat sp.val (64 + x.tc) 1 y else stat sp.val 73 1 y)).prt = y.prt ∧
      (countTx sp.val 64 0x0180C2000001 none (if b then stat sp.val (64 + x.tc) 1 y else stat sp.val 73 1 y)).egr = y.egr := fun b y => by
    have k := countTx_keep sp.val 64 0x0180C2000001 none (if b then stat sp.val (64 + x.tc) 1 y else stat sp.val 73 1 y)
    rw [k.out (by decide), k.prt.same (by decide), k.egr.same (by decide)]
    cases b <;> exact ⟨rfl, rfl, rfl⟩
  rw [(e _ _).1, (e _ _).2.1, (e _ _).2.2, (hc _ _).1, (hc _ _).2.1, (hc _ _).2.2]
  exact ⟨rfl, tgetD_tput_same .., rfl⟩

theorem queue_congr {x w : Wall} (p q : Nat) (h : x.egr = w.egr) : x.queue p q = w.queue p q := by unfold Wall.queue; rw [h]

theorem queue_set_same (w : Wall) (p q : Nat) (r : EQueue) : (w.setQueue p q r).queue p q = r := tgetD_tput_same ..

theorem queue_set_other (w : Wall) (p q j : Nat) (r : EQueue) (h : p * 64 + j ≠ p * 64 + q) : (w.setQueue p q r).queue p j = w.queue p j := tgetD_tput_other _ _ _ _ _ h

theorem startTx_clear (sp n q : Nat) (f : EFrame) (l : List EFrame) (w : Wall) (h : txPlan sp f.bytes w = .clear) : ((startTx sp n q f l w).queue (sp / 8) q).frames = l ∧
    tget (startTx sp n q f l w).egr.txNow sp = some { frame := f, queue := q, tc := n, pn := none, maxFrame := w.get (Reg.maxFrame sp) } := by
  unfold startTx
  dsimp only
  rw [h]
  dsimp only
  rw [queue_congr _ _ (pcSp_egr ..), pcSp_egr]
  refine ⟨?_, tget_tput_same ..⟩
  have : ∀ (y : Wall) (t : Tbl TxNow), Wall.queue { y with egr := { y.egr with txNow := t } } (sp / 8) q = y.queue (sp / 8) q := fun _ _ => rfl
  rw [this, queue_set_same]

theorem txEnd_txNow (sp : Nat) (w : Wall) : tget (quietRetry (sp / 8) (pumpRings w)).egr.txNow sp = tget w.egr.txNow sp := by
  rw [(quietRetry_keep ..).egr.txNow (by decide), (pumpRings_keep ..).egr.txNow (by decide)]

theorem txWhole_txNow (t : TxNow) (d : Nat) (w : Wall) : (sendWhole t d w).egr.txNow = w.egr.txNow := (sendWhole_keep ..).egr.txNow (by decide)

theorem freeChunks_get (f : EFrame) (w : Wall) (o : Reg) (h1 : o.key ≠ (Reg.panicNow (f.sp / 8)).key) (h2 : o.key ≠ (Reg.panicAsserts (f.sp / 8)).key) :
    (freeChunks f w).get o = w.get o := by
  unfold freeChunks
  dsimp only
  split
  · rw [panicEval_get _ _ _ h1 h2]
    unfold grant
    dsimp only
    split
    · rfl
    · split <;> rfl
  · rfl

theorem txCut_does (sp : SubPort) (x : TxNow) (w : Wall) :
    (stat sp.val 45 1 (stompLine x.frame w)).get (Reg.statistic sp.val 45) = (w.get (Reg.statistic sp.val 45) + 1) % 2 ^ 64 := by
  rw [stat_get_same, get_congr ((stompLine_keep ..).regs (by decide))]

theorem sendWhole_inband (t : TxNow) (d : Nat) (w : Wall) (h : t.frame.sp < 512) (hs : t.frame.src = .inband) (hp : t.pn = none) :
    (sendWhole t d w).out = .lineFrame ⟨t.frame.sp, h⟩ (macFrame t.maxFrame t.frame.bytes).1 (macFrame t.maxFrame t.frame.bytes).2 :: w.out ∧
    (sendWhole t d w).hst.rings = w.hst.rings := by
  have hck : ckStage t.frame w = (t.frame.bytes, w) := by unfold ckStage; rw [hs]
  have hcap : ∀ (f : List Byte) (n : Nat) (y : Wall), capture t.frame f n y = y := fun f n y => by unfold capture; rw [hs]
  have hptp : ∀ (f : List Byte) (a b : Nat) (y : Wall), ptpStage t.frame f a b y = (f, y) := fun f a b y => by unfold ptpStage; rw [hs]
  have fc : ∀ y : Wall, (freeChunks t.frame y).out = y.out ∧ (freeChunks t.frame y).hst.rings = y.hst.rings := fun y => by unfold freeChunks; rw [hs]; exact ⟨rfl, rfl⟩
  have so : ∀ (a k n : Nat) (y : Wall), (stat a k n y).out = y.out := fun _ _ _ _ => rfl
  have sh : ∀ (a k n : Nat) (y : Wall), (stat a k n y).hst = y.hst := fun _ _ _ _ => rfl
  unfold sendWhole
  dsimp only
  rw [hck, hp, hs]
  simp only [hcap, hptp]
  rw [(fc _).1, (fc _).2, (debit_keep ..).out (by decide), (debit_keep ..).hst.rings (by decide), dif_pos h]
  unfold when
  dsimp only
  simp only [Option.isSome_none, Bool.false_eq_true, if_false]
  have o1 : ∀ (c : Bool) (y : Wall), (if c then stat t.frame.sp 102 1 y else y).out = y.out ∧ (if c then stat t.frame.sp 102 1 y else y).hst = y.hst := fun c y => by cases c <;> exact ⟨rfl, rfl⟩
  split
  · rw [so, sh]
    unfold Wall.emit
    dsimp only
    rw [(o1 _ _).1, (o1 _ _).2]
    exact ⟨rfl, rfl⟩
  · rw [(countTx_keep ..).out (by decide), (countTx_keep ..).hst.rings (by decide)]
    unfold Wall.emit
    dsimp only
    rw [(o1 _ _).1, (o1 _ _).2]
    exact ⟨rfl, rfl⟩

theorem pumpRings_none (w : Wall) (h : w.hst.rings = []) : pumpRings w = w := by unfold pumpRings; rw [h]; rfl

theorem quietRetry_none (p : Nat) (w : Wall) (h : (w.quiet p).idleDue = false) : quietRetry p w = w := by unfold quietRetry; rw [h]; rfl

theorem bit_setBit_mod (v i n : Nat) (h : i < n) : bit (setBit v i % 2 ^ n) i = true := by
  unfold bit setBit
  rw [Nat.testBit_mod_two_pow, Nat.testBit_or, Nat.testBit_two_pow_self]
  simp [h]

theorem shaperRegs_does (p s r b : Nat) (f : Bool) (w : Wall) (hs : s < 128) (hr : r < 2 ^ 32) (hb : b < 2 ^ 32) :
    shaperRate p s (setShaperRegs p s r b f w) = r ∧ shaperBurst p s (setShaperRegs p s r b f w) = b ∧ shaperFull p s (setShaperRegs p s r b f w) = f ∧
    (setShaperRegs p s r b f w).egr = w.egr ∧ (setShaperRegs p s r b f w).time = w.time := by
  unfold shaperRate shaperBurst shaperFull setShaperRegs
  dsimp only
  by_cases c : s < 64
  · simp only [if_pos c]
    refine ⟨?_, ?_, ?_, rfl, rfl⟩
    · rw [get_set_other _ _ _ _ (by simp only [Reg.qShapeRate, Reg.qResetFull]; omega), get_set_other _ _ _ _ (by simp only [Reg.qShapeRate, Reg.qShapeBurst]; omega), get_set_same]
      exact Nat.mod_eq_of_lt hr
    · rw [get_set_other _ _ _ _ (by simp only [Reg.qShapeBurst, Reg.qResetFull]; omega), get_set_same]
      exact Nat.mod_eq_of_lt hb
    · rw [get_set_same]
      cases f
      · exact bit_clrBit ..
      · exact bit_setBit_mod _ _ _ (by show s < 64; exact c)
  · simp only [if_neg c]
    refine ⟨?_, ?_, ?_, rfl, rfl⟩
    · rw [get_set_other _ _ _ _ (by simp only [Reg.cShapeRate, Reg.cResetFull]; omega), get_set_other _ _ _ _ (by simp only [Reg.cShapeRate, Reg.cShapeBurst]; omega), get_set_same]
      exact Nat.mod_eq_of_lt hr
    · rw [get_set_other _ _ _ _ (by simp only [Reg.cShapeBurst, Reg.cResetFull]; omega), get_set_same]
      exact Nat.mod_eq_of_lt hb
    · rw [get_set_same]
      cases f
      · exact bit_clrBit ..
      · exact bit_setBit_mod _ _ _ (by show (s - 64) % 8 < 8; omega)

theorem applyShaper_does (p s : Nat) (w : Wall) : (applyShaper p s w).regs = w.regs ∧ tget (applyShaper p s w).egr.shapers (p * 128 + s) =
    if shaperRate p s w = 0 then none else some (Shaper.mk (shaperRate p s w) (shaperBurst p s w) (if shaperFull p s w then (shaperBurst p s w * shaperUnit : Nat) else 0) w.time.dclk false) := by
  unfold applyShaper
  dsimp only
  refine ⟨?_, ?_⟩
  · rw [Wall.setWin_regs, Wall.setWin_regs, Wall.setWin_regs]
  · rw [Wall.setWin_egr, Wall.setWin_egr, Wall.setWin_egr]
    split
    · exact tget_tdel_same ..
    · rw [Wall.setWin_time, Wall.setWin_time, Wall.setWin_time]
      exact tget_tput_same ..

theorem shaperRate_congr {x w : Wall} (p s : Nat) (h : x.regs = w.regs) : shaperRate p s x = shaperRate p s w ∧ shaperBurst p s x = shaperBurst p s w := by
  unfold shaperRate shaperBurst; simp only [get_congr h]; exact ⟨trivial, trivial⟩

theorem putGate_same (sp : Nat) (g : Gate) (w : Wall) : gateOf sp (putGate sp g w) = some g := tget_tput_same ..

end Sys2Proof.Machine
end

