-- ==== Sys2Proof/Laws/CmdStore.lean ====
section
/-! SUPPORT. What the commands of security and of the Granary do. -/

open Sys2Proof

namespace Sys2Proof.Machine

theorem noteKi_sas (i e : Nat) (w : Wall) : (noteKi i e w).sec.sas = w.sec.sas ∧ (noteKi i e w).regs = w.regs ∧ (noteKi i e w).gra = w.gra ∧ (noteKi i e w).bnd = w.bnd := ⟨rfl, rfl, rfl, rfl⟩

theorem blockB_congr {x w : Wall} (h : x.regs = w.regs) : blockB x = blockB w := by unfold blockB; rw [get_congr h]

theorem requestIfLow_idle {u an : Nat} {a : Sa} {w : Wall} (h : getSa u an w = some a) (n : ((blockB w / 2 : Nat) : Int) ≤ (a.reservedEnd : Nat) - (a.nextPn : Int)) :
    requestIfLow u an w = w := by
  unfold requestIfLow
  rw [h]
  dsimp only
  split
  · rfl
  · rw [if_neg (by omega)]

theorem finishInstall_does (u k : Nat) (w : Wall) : (finishInstall u k w).sec = w.sec ∧ (finishInstall u k w).gra = w.gra := by
  have q : ∀ (on : WaitFor) (st : Nat) (x : Wall), (releaseDeferred on st none x).sec = x.sec ∧ (releaseDeferred on st none x).gra = x.gra := fun on st x =>
    ⟨(releaseDeferred_keep ..).sec.same (by decide), (releaseDeferred_keep ..).gra.same (by decide)⟩
  unfold finishInstall
  split
  · exact ⟨rfl, rfl⟩
  · split
    · exact ⟨rfl, rfl⟩
    · exact q _ _ _

theorem askReservation_runs (u an e r : Nat) (w : Wall) (h1 : w.bnd.queueShut = false) (h2 : w.gra.queue.length < 12) (h3 : w.sec.zeroising = none) :
    ∃ x, askReservation u an e r w = some x ∧ x.sec = w.sec ∧ x.gra.queue.length = w.gra.queue.length + 1 ∧ x.gra.genNext = w.gra.genNext + 1 := by
  unfold askReservation
  rw [if_neg (by rw [h1, h3]; simp; omega)]
  refine ⟨_, rfl, rfl, ?_, rfl⟩
  dsimp only
  rw [List.length_append]
  rfl

theorem pulse_all (u s : Nat) (w : Wall) : (pulse u s w).sec = w.sec ∧ (pulse u s w).gra = w.gra ∧ (pulse u s w).bnd = w.bnd := by
  have k := pulse_keep u s w
  exact ⟨k.sec.same (by decide), k.gra.same (by decide), k.bnd.same (by decide)⟩

theorem requestIfLow_asks {u an : Nat} {a : Sa} {w : Wall} (h : getSa u an w = some a) (h1 : a.want = none) (h2 : a.retry = false)
    (n : (a.reservedEnd : Int) - a.nextPn < (blockB w / 2 : Nat)) (g : granaryShut w = false) (q1 : w.bnd.queueShut = false) (q2 : w.gra.queue.length < 12)
    (z : w.sec.zeroising = none) : getSa u an (requestIfLow u an w) = some { a with want := some (min (a.reservedEnd + blockB w) (2 ^ 64 - 2)) } ∧
      (requestIfLow u an w).gra.queue.length = w.gra.queue.length + 1 ∧ (requestIfLow u an w).gra.genNext = w.gra.genNext + 1 := by
  obtain ⟨p1, p2, p3⟩ := pulse_all 16 (4 + portOfSp u / 16) w
  obtain ⟨x, hx, x1, x2, x3⟩ := askReservation_runs u an (a.ki.getD 0) (min (a.reservedEnd + blockB w) (2 ^ 64 - 2)) (pulse 16 (4 + portOfSp u / 16) w)
    (by rw [p3]; exact q1) (by rw [p2]; exact q2) (by rw [p1]; exact z)
  have q : requestIfLow u an w = putSa u an { a with want := some (min (a.reservedEnd + blockB w) (2 ^ 64 - 2)) } x := by
    unfold requestIfLow
    rw [h]
    dsimp only
    rw [if_neg (by rw [h1, h2]; simp), if_pos n, g, if_neg (by decide), hx]
  rw [q]
  refine ⟨getSa_put .., ?_, ?_⟩
  · show x.gra.queue.length = _; rw [x2, p2]
  · show x.gra.genNext = _; rw [x3, p2]

theorem tget_tfilter_keep {α : Type} (t : Tbl α) (p : Nat → α → Bool) (k : Nat) (h : ∀ a, p k a = true) : tget (tfilter t p) k = tget t k := by
  induction t with
  | nil => rfl
  | cons e t ih =>
    have e2 : tfilter (e :: t) p = if p e.1 e.2 then e :: tfilter t p else tfilter t p := by
      unfold tfilter; rw [List.filter_cons]
    rw [e2]
    split
    · unfold tget
      split
      · rfl
      · exact ih
    · rename_i c
      rw [ih]
      conv => rhs; unfold tget
      rw [if_neg]
      intro hk; rw [hk, h] at c; exact c rfl

theorem dropSaObjects_get (w : Wall) (o : Reg) (h : o.key < 0x7000 * 256) : (dropSaObjects w).get o = w.get o := by
  have q : (dropSaObjects w).regs = tfilter w.regs fun key _ => !(decide (0x7000 * 256 ≤ key) && decide (key < 0x8000 * 256) && decide (16 ≤ key % 256)) := rfl
  unfold Wall.get
  rw [q]
  unfold tgetD
  rw [tget_tfilter_keep _ _ _ fun a => by rw [decide_eq_false (by omega : ¬0x7000 * 256 ≤ o.key)]; rfl]

theorem zeroiseEngines_get (c : Nat) (w : Wall) (o : Reg) (h : o.key < 0x7000 * 256) (h2 : ∀ k, o.key ≠ (Reg.kekState k).key) : (zeroiseEngines c w).get o = w.get o := by
  have z : ∀ (f) (x : Wall), (writeHeaders f x).get o = x.get o := fun _ _ => rfl
  have u : (upTo 4 (fun k w => w.set (Reg.kekState k) 0) (dropKeySheaves (dropKeys c w))).get o = w.get o :=
    upTo_keeps (fun x : Wall => x.get o = w.get o) _ _ _ rfl fun k x hx => by rw [get_set_other _ _ _ _ (h2 k)]; exact hx
  unfold zeroiseEngines
  dsimp only
  split
  · rw [dropSaObjects_get _ _ h]; exact u
  · rw [z, dropSaObjects_get _ _ h]; exact u

theorem digestEntry_get (a b c : Nat) (w : Wall) (o : Reg) (h : o.key ≠ Reg.digestSuppressed.key) : (digestEntry a b c w).get o = w.get o := by
  have e : ∀ (x : Wall) (n : Nat), Wall.get { x with gra := { x.gra with suppressed := n } } o = x.get o := fun _ _ => rfl
  unfold digestEntry
  split
  · dsimp only; rw [e, get_bump_other _ _ _ _ h]
  · dsimp only; rw [get_congr (askRecord_regs ..)]; rfl

theorem sealWall_last (m : Mode) (c l : Nat) (w : Wall) : ∃ y : Wall, sealWall m c l w = digestEntry 0 0x0E0C (c + l * 2 ^ 8) (noteMove (modeCode m) 5 l (dropRings (stopStewards (y.set Reg.sealedCause c)))) := by
    unfold sealWall; dsimp only; exact ⟨_, rfl⟩

theorem stopStewards_cause (x : Wall) : (stopStewards x).get Reg.sealedCause = x.get Reg.sealedCause := by
    unfold stopStewards
    exact upTo_keeps (fun z : Wall => z.get Reg.sealedCause = x.get Reg.sealedCause) _ _ _ rfl fun k z hz => by
      rw [get_set_other _ _ _ _ (by simp only [Reg.sealedCause, Reg.stState]; omega)]; exact hz

theorem digestEntry_cause (a b c : Nat) (w : Wall) : (digestEntry a b c w).get Reg.sealedCause = w.get Reg.sealedCause := digestEntry_get _ _ _ _ _ (by decide)

theorem noteMove_cause (a b c : Nat) (w : Wall) : (noteMove a b c w).get Reg.sealedCause = w.get Reg.sealedCause := by
  have A : Aside Reg.sealedCause := by decide
  rw [A.noteMove (by decide) (by decide)]

theorem dropRings_cause (w : Wall) : (dropRings w).get Reg.sealedCause = w.get Reg.sealedCause := by rw [get_congr ((dropRings_keep ..).regs (by decide))]

theorem setCause (c) (w : Wall) : (w.set Reg.sealedCause c).get Reg.sealedCause = c % 2^8 := by rw [get_set_same]; rfl

theorem sealWall_cause (m : Mode) (c l : Nat) (w : Wall) : (sealWall m c l w).get Reg.sealedCause = c % 2 ^ 8 := by
  obtain ⟨y, hy⟩ := sealWall_last m c l w
  rw [hy, digestEntry_cause, noteMove_cause, dropRings_cause, stopStewards_cause, setCause]

theorem zeroised_cause (c : Nat) (w : Wall) : (zeroiseEngines c w).get Reg.sealedCause = w.get Reg.sealedCause :=
  zeroiseEngines_get _ _ _ (by decide) fun k => by simp only [Reg.sealedCause, Reg.kekState]; omega

theorem zeroised_rest (c : Nat) (w : Wall) : (zeroiseEngines c w).sec.blobs = [] ∧ (zeroiseEngines c w).sec.deviceKey = none := by
  have u : (upTo 4 (fun k w => w.set (Reg.kekState k) 0) (dropKeySheaves (dropKeys c w))).sec = (dropKeys c w).sec :=
    upTo_keeps (fun x : Wall => x.sec = (dropKeys c w).sec) _ _ _ rfl fun _ x hx => hx
  have q : ∀ x : Wall, (dropSaObjects x).sec = x.sec := fun _ => rfl
  have z : ∀ (f) (x : Wall), (writeHeaders f x).sec = x.sec := fun f x => (writeHeaders_keep ..).sec.same (by decide)
  unfold zeroiseEngines
  dsimp only
  split
  · rw [q, u]; exact ⟨rfl, rfl⟩
  · rw [z, q, u]; exact ⟨rfl, rfl⟩

theorem seals_does (c l : Nat) (m : Mode) (w : Wall) (hc : c < 2 ^ 8) (h1 : clocksRun m w = true) (h2 : halted w = false) (h3 : m ≠ .sealedMode) :
    ∃ x, sealNow c l m w = (.sealedMode, x) ∧ x.sec.zeroising = some c ∧ x.sec.sas = [] ∧ x.sec.keks = [] ∧ x.sec.blobs = [] ∧ x.sec.deviceKey = none ∧
      x.get Reg.sealedCause = c := by
  refine ⟨_, sealNow_runs c l m w h1 h2 h3, ?_⟩
  have z := zeroiseEngines_does c (sealWall m c l w)
  have z2 := zeroised_rest c (sealWall m c l w)
  refine ⟨z.1, z.2.2, z.2.1, z2.1, z2.2, ?_⟩
  exact ((zeroised_cause _ _).trans (sealWall_cause m c l w)).trans (Nat.mod_eq_of_lt hc)

theorem latch_runs {m : Mode} {w : Wall} (u s : Nat) (hu : u ≤ 17) (h1 : clocksRun m w = true) (h2 : halted w = false) : clocksRun m (latch u s w) = true ∧ halted (latch u s w) = false := by
  refine ⟨?_, ?_⟩
  · unfold clocksRun at h1 ⊢; rw [latch_bnd]; exact h1
  · unfold halted at h2 ⊢; rw [(show Aside Reg.kindleStep by decide).latch hu]; exact h2

/-- The stores of the Granary that hold sheaves: both banks, the rows and the digest ring. -/
def sameStores (x w : Wall) : Prop := x.gra.bank0 = w.gra.bank0 ∧ x.gra.bank1 = w.gra.bank1 ∧ x.gra.rows = w.gra.rows ∧ x.gra.digest = w.gra.digest

theorem sameStores.trans {x y z : Wall} (h : sameStores x y) (k : sameStores y z) : sameStores x z :=
  ⟨h.1.trans k.1, h.2.1.trans k.2.1, h.2.2.1.trans k.2.2.1, h.2.2.2.trans k.2.2.2⟩

theorem sameStores.bank {x w : Wall} (h : sameStores x w) (k : Nat) : bankOf k x = bankOf k w := by unfold bankOf; rw [h.1, h.2.1]

theorem sameStores.row {x w : Wall} (h : sameStores x w) (r : Nat) : rowAt r x = rowAt r w := by unfold rowAt; rw [h.2.2.1]

theorem settle_stores (w : Wall) : sameStores (settle w) w := by
  have k := (settle_keep w).gra
  exact ⟨k.bank0 (by decide), k.bank1 (by decide), k.rows (by decide), k.digest (by decide)⟩

theorem pumpQueue_stores (w : Wall) : sameStores (pumpQueue w) w := by
  have k := (pumpQueue_keep w).gra
  exact ⟨k.bank0 (by decide), k.bank1 (by decide), k.rows (by decide), k.digest (by decide)⟩

theorem latch_stores (u s : Nat) (w : Wall) : sameStores (latch u s w) w := by
  have k := (latch_keep u s w).gra
  exact ⟨k.bank0 (by decide), k.bank1 (by decide), k.rows (by decide), k.digest (by decide)⟩

/-- The wall on which a commit acts: the sheaf has left the queue. -/
def taken (c : CommitItem) (w : Wall) : Wall := { w with gra := { w.gra with queue := w.gra.queue.erase c } }

theorem taken_stores (c : CommitItem) (w : Wall) : sameStores (taken c w) w := ⟨rfl, rfl, rfl, rfl⟩

theorem commitEvent_runs {bad : Option (Fin 2)} {c : CommitItem} {m : Mode} {w : Wall} (h1 : commitRuns m w = true) (h2 : nextCommit w.gra.queue = some c)
    (h3 : c.after = .none) : sameStores (commitEvent bad m w) (match c.repair with
      | some (bank, slot) => (setBank bank (tput (bankOf bank (taken c w)) slot (.sheaf c.sheaf)) (taken c w)).bump Reg.scrubRepairs (if c.rank = 5 then 1 else 0)
      | none =>
        if c.sheaf.type = 0x06 then digestCommit c.sheaf.body (taken c w)
        else match bad with
          | some b => if bankWorks b (taken c w) then badAppend c.sheaf b (taken c w) else appendSheaf c.sheaf (taken c w)
          | none => appendSheaf c.sheaf (taken c w)) := by
  have q : sheafCommit bad m w = commitOne bad w := by unfold sheafCommit; rw [if_pos h1]
  unfold commitEvent
  rw [q]
  unfold commitOne
  rw [h2]
  dsimp only
  rw [h3]
  unfold afterCommit
  dsimp only
  exact (settle_stores _).trans ((pumpQueue_stores _).trans (latch_stores ..))

theorem setBank_same (k : Nat) (t : Tbl SlotCopy) (w : Wall) : bankOf k (setBank k t w) = t := by
  unfold bankOf setBank; split <;> rfl

theorem setBank_other (k j : Nat) (t : Tbl SlotCopy) (w : Wall) (h : (k = 0) ≠ (j = 0)) : bankOf k (setBank j t w) = bankOf k w := by
  unfold bankOf setBank
  by_cases a : k = 0 <;> by_cases b : j = 0 <;> simp only [a, b, if_true, if_false] at h ⊢ <;> first | rfl | (exact absurd rfl h)

theorem setBank_works (k j : Nat) (t : Tbl SlotCopy) (w : Wall) : bankWorks k (setBank j t w) = bankWorks k w := by
  unfold setBank bankWorks; split <;> rfl

theorem setBank_rows (j : Nat) (t : Tbl SlotCopy) (w : Wall) : (setBank j t w).gra.rows = w.gra.rows := by unfold setBank; split <;> rfl

theorem writeBoth_same (s : Nat) (c : SlotCopy) (w : Wall) (k : Nat) (hk : k < 2) (h : bankWorks k w = true) : tget (bankOf k (writeBoth s c w)) s = some c := by
  unfold writeBoth when
  dsimp only
  have e : k = 0 ∨ k = 1 := by omega
  rcases e with e | e
  · subst e
    rw [if_pos h]
    split
    · rw [setBank_other 0 1 _ _ (by decide), setBank_same]; exact tget_tput_same ..
    · rw [setBank_same]; exact tget_tput_same ..
  · subst e
    by_cases g : bankWorks 0 w = true
    · rw [if_pos g, if_pos (by rw [setBank_works]; exact h), setBank_same]; exact tget_tput_same ..
    · rw [if_neg g, if_pos h, setBank_same]; exact tget_tput_same ..

theorem writeBoth_other (s j : Nat) (c : SlotCopy) (w : Wall) (k : Nat) (hk : k < 2) (h : j ≠ s) : tget (bankOf k (writeBoth s c w)) j = tget (bankOf k w) j := by
  unfold writeBoth when
  dsimp only
  have e : k = 0 ∨ k = 1 := by omega
  rcases e with e | e <;> subst e <;> split <;> split <;>
    simp only [setBank_other 0 1 _ _ (by decide), setBank_other 1 0 _ _ (by decide), setBank_same, tget_tput_other _ _ _ _ h]

theorem writeBoth_rows (s : Nat) (c : SlotCopy) (w : Wall) : (writeBoth s c w).gra.rows = w.gra.rows := by
  unfold writeBoth when
  dsimp only
  split <;> split <;> simp only [setBank_rows]

theorem writeBoth_works (s : Nat) (c : SlotCopy) (w : Wall) (k : Nat) : bankWorks k (writeBoth s c w) = bankWorks k w := by
  unfold writeBoth when
  dsimp only
  split <;> split <;> simp only [setBank_works]

theorem setRow_bank (r k : Nat) (x : Row) (w : Wall) : bankOf k (setRow r x w) = bankOf k w := rfl

theorem setRow_same (r : Nat) (x : Row) (w : Wall) : rowAt r (setRow r x w) = x := tgetD_tput_same ..

theorem setRow_other (r j : Nat) (x : Row) (w : Wall) (h : j ≠ r) : rowAt j (setRow r x w) = rowAt j w := tgetD_tput_other _ _ _ _ _ h

theorem appendSheaf_eq {s : Sheaf} {r : Nat} {w : Wall} (h : openRow (isKeyType s.type) w = some r) (n : (rowAt r w).used + 1 < 64) :
    appendSheaf s w = setRow r { rowAt r w with used := (rowAt r w).used + 1 } (writeBoth (r * 64 + (rowAt r w).used) (.sheaf s) w) := by
  unfold appendSheaf
  dsimp only
  rw [h]
  simp only [Option.isNone_some, Bool.false_eq_true, if_false, h]
  rw [if_neg (by omega)]

theorem bestFree_free (w : Wall) (r : Nat) (h : bestFree w = some r) : (rowAt r w).state = .free := by
  unfold bestFree at h
  revert h
  generalize List.range 1920 = l
  suffices ∀ b : Option Nat, (∀ x, b = some x → (rowAt x w).state = .free) → ∀ x, l.foldl (fun b r =>
    if (rowAt r w).state = .free then
      match b with
      | none => some r
      | some x => if (rowAt r w).cycles < (rowAt x w).cycles then some r else b
    else b) b = some x → (rowAt x w).state = .free from fun h => this none (fun _ e => by cases e) r h
  induction l with
  | nil => exact fun b hb x hx => hb x hx
  | cons a l ih =>
    intro b hb x hx
    rw [List.foldl_cons] at hx
    refine ih _ ?_ x hx
    intro y hy
    by_cases c : (rowAt a w).state = .free
    · rw [if_pos c] at hy
      cases b with
      | none => cases hy; exact c
      | some z =>
        dsimp only at hy
        split at hy
        · cases hy; exact c
        · exact hb y hy
    · rw [if_neg c] at hy; exact hb y hy

theorem eraseRow_other (r : Nat) (w : Wall) (k s : Nat) (hk : k < 2) (h : s / 64 ≠ r) : tget (bankOf k (eraseRow r w)) s = tget (bankOf k w) s := by
  have f : ∀ t : Tbl SlotCopy, tget (tfilter t fun s _ => s / 64 != r) s = tget t s := fun t => tget_tfilter_keep _ _ _ fun _ => by simp [h]
  unfold eraseRow when
  dsimp only
  have e : k = 0 ∨ k = 1 := by omega
  rcases e with e | e <;> subst e <;> split <;> split <;>
    simp only [setBank_other 0 1 _ _ (by decide), setBank_other 1 0 _ _ (by decide), setBank_same, f]

theorem openNew_bank (key : Bool) (w : Wall) (k s : Nat) (hk : k < 2) (h : (rowAt (s / 64) w).state ≠ .free) : tget (bankOf k (openNew key w)) s = tget (bankOf k w) s := by
  have e : ∀ x y : Wall, x.gra.bank0 = y.gra.bank0 → x.gra.bank1 = y.gra.bank1 → bankOf k x = bankOf k y := fun x y a b => by unfold bankOf; rw [a, b]
  have tail : ∀ (r : Nat) (x : Wall), bankOf k (levelWear (reclaimIfFew (askWear r (noteWear r x)))) = bankOf k x := fun r x => by
    refine (e _ _ ((levelWear_keep ..).gra.bank0 (by decide)) ((levelWear_keep ..).gra.bank1 (by decide))).trans ?_
    refine (e _ _ ((reclaimIfFew_keep ..).gra.bank0 (by decide)) ((reclaimIfFew_keep ..).gra.bank1 (by decide))).trans ?_
    refine (e _ _ ((askWear_keep ..).gra.bank0 (by decide)) ((askWear_keep ..).gra.bank1 (by decide))).trans ?_
    exact e _ _ rfl rfl
  unfold openNew
  cases c : bestFree w with
  | none => rfl
  | some r =>
    have hr : s / 64 ≠ r := fun hs => h (by rw [hs]; exact bestFree_free w r c)
    dsimp only
    rw [tail, setRow_bank]
    unfold when
    split
    · exact eraseRow_other _ _ _ _ hk hr
    · rfl

theorem badAppend_bank {s : Sheaf} {b r : Nat} {w : Wall} (hb : b < 2) (h : openRow (isKeyType s.type) w = some r) (n : (rowAt r w).used + 1 < 64) :
    tget (bankOf b (badAppend s b w)) (r * 64 + (rowAt r w).used) = some .invalid := by
  have e : ∀ x y : Wall, x.gra.bank0 = y.gra.bank0 → x.gra.bank1 = y.gra.bank1 → bankOf b x = bankOf b y := fun x y a b => by unfold bankOf; rw [a, b]
  have rd : readyRow (isKeyType s.type) w = w := by unfold readyRow; rw [h]; rfl
  unfold badAppend
  dsimp only
  rw [rd, h]
  dsimp only
  have hld : (!decide ((rowAt r w).used + 1 < 64)) = false := by simp [n]
  rw [hld]
  have body : tget (bankOf b (latch 16 9 (when false (appendSheaf s) (openNew (isKeyType s.type) (writeBad s b r w))))) (r * 64 + (rowAt r w).used) = some .invalid := by
    unfold when
    rw [if_neg (by decide), (latch_stores ..).bank]
    have rw' : rowAt ((r * 64 + (rowAt r w).used) / 64) (writeBad s b r w) = { rowAt r w with state := .full, used := 64 } := by
      rw [show (r * 64 + (rowAt r w).used) / 64 = r by omega]
      unfold writeBad; exact setRow_same ..
    rw [openNew_bank _ _ _ _ hb (by rw [rw']; exact fun x => by cases x)]
    unfold writeBad
    dsimp only
    rw [setRow_bank]
    unfold when
    rw [if_pos (by simp [n]), writeBoth_other _ _ _ _ _ hb (by omega), setBank_same]
    exact tget_tput_same ..
  split
  · rw [e _ _ ((retireRow_keep ..).gra.bank0 (by decide)) ((retireRow_keep ..).gra.bank1 (by decide))]; exact body
  · rw [e _ _ ((moveRow_keep ..).gra.bank0 (by decide)) ((moveRow_keep ..).gra.bank1 (by decide))]; exact body

theorem taken_works (k : Nat) (c : CommitItem) (w : Wall) : bankWorks k (taken c w) = bankWorks k w := rfl

theorem digestCommit_digest (b : Nat) (w : Wall) : (digestCommit b w).gra.digest = (w.gra.digest ++ [b]).drop ((w.gra.digest ++ [b]).length - 512) := by
  unfold digestCommit
  dsimp only
  rw [newDom_gra]

theorem openRow_taken (k : Bool) (c : CommitItem) (w : Wall) : openRow k (taken c w) = openRow k w := rfl

theorem clrBit_other (v i j : Nat) (h : i ≠ j) : bit (clrBit v i) j = bit v j := by
  unfold bit clrBit
  split
  · rename_i hb
    have hm : v / 2 ^ i % 2 = 1 := by rw [Nat.testBit_eq_decide_div_mod_eq] at hb; simpa using hb
    have hv : 2 ^ i ≤ v := by
      by_contra hc
      rw [Nat.div_eq_of_lt (by omega)] at hm; omega
    rw [Nat.testBit_eq_decide_div_mod_eq, Nat.testBit_eq_decide_div_mod_eq]
    congr 1
    rcases Nat.lt_or_gt_of_ne h with g | g
    · obtain ⟨k, rfl⟩ : ∃ k, j = i + 1 + k := ⟨j - (i + 1), by omega⟩
      rw [Nat.pow_add, ← Nat.div_div_eq_div_mul, ← Nat.div_div_eq_div_mul]
      have e : (v - 2 ^ i) / 2 ^ (i + 1) = v / 2 ^ (i + 1) := by
        rw [Nat.pow_succ, ← Nat.div_div_eq_div_mul, ← Nat.div_div_eq_div_mul]
        have : (v - 2 ^ i) / 2 ^ i = v / 2 ^ i - 1 := by
          have := Nat.sub_mul_div v (2 ^ i) 1
          rw [Nat.mul_one] at this; exact this
        rw [this]
        revert hm
        generalize v / 2 ^ i = q
        omega
      rw [e]
    · obtain ⟨k, rfl⟩ : ∃ k, i = j + 1 + k := ⟨i - (j + 1), by omega⟩
      have e : 2 ^ (j + 1 + k) = 2 ^ j * (2 * 2 ^ k) := by rw [Nat.pow_add, Nat.pow_succ, Nat.mul_assoc]
      have := Nat.sub_mul_div v (2 ^ j) (2 * 2 ^ k)
      rw [e, this]
      have hle : 2 * 2 ^ k ≤ v / 2 ^ j := by
        rw [Nat.le_div_iff_mul_le (Nat.two_pow_pos j)]; rw [e] at hv; rw [Nat.mul_comm]; exact hv
      have : (v / 2 ^ j - 2 * 2 ^ k) % 2 = v / 2 ^ j % 2 := by omega
      rw [this]
  · rfl

theorem askSheaves_all (l : List CommitItem) (w : Wall) (h : granaryShut w = false) : (askSheaves l w).gra.queue ++ (askSheaves l w).gra.waiting = w.gra.queue ++ w.gra.waiting ++ l := by
  unfold askSheaves
  rw [h, if_neg (by decide), pumpQueue_all, List.append_assoc]

theorem applyDamage_regs (l : List Damage) (w : Wall) : (applyDamage l w).regs = w.regs := by
  have e : ∀ (k : Nat) (t : Tbl SlotCopy) (x : Wall), (setBank k t x).regs = x.regs := fun k t x => by unfold setBank; split <;> rfl
  unfold applyDamage
  induction l generalizing w with
  | nil => rfl
  | cons d l ih =>
    rw [List.foldl_cons, ih]
    split <;> exact e _ _ _

theorem bankFail_works (k j : Nat) (w : Wall) (h : bankWorks k w = true) : bankWorks j (bankFail k w) = bit (clrBit (w.get Reg.bankState) k % 2 ^ 8) j := by
  have A : Aside Reg.bankState := by decide
  have e1 : ∀ x : Wall, Wall.get { x with gra := { x.gra with queue := [], waiting := [], done := [] } } Reg.bankState = x.get Reg.bankState := fun _ => rfl
  have c : (w.clrBitR Reg.bankState k).get Reg.bankState = clrBit (w.get Reg.bankState) k % 2 ^ 8 := by unfold Wall.clrBitR; rw [get_set_same]; rfl
  rw [← c]
  unfold bankFail
  rw [h, if_neg (by decide)]
  dsimp only
  unfold bankWorks
  split
  · rw [e1, A.raise]
  · rw [digestEntry_get _ _ _ _ _ (by decide), A.raise]

theorem bankFail_id (k : Nat) (w : Wall) (h : bankWorks k w = false) : bankFail k w = w := by unfold bankFail; rw [h]; rfl

theorem bankFail_self (k : Nat) (w : Wall) : bankWorks k (bankFail k w) = false := by
  cases c : bankWorks k w with
  | true => rw [bankFail_works _ _ _ c]; exact bit_clrBit ..
  | false => rw [bankFail_id _ _ c]; exact c

theorem bankFail_other (k j : Nat) (w : Wall) (h : k ≠ j) (hj : j < 2) : bankWorks j (bankFail k w) = bankWorks j w := by
  cases c : bankWorks k w with
  | true =>
    rw [bankFail_works _ _ _ c]
    have := clrBit_other (w.get Reg.bankState) k j h
    unfold bankWorks
    unfold bit at this ⊢
    rw [Nat.testBit_mod_two_pow, this]
    simp; omega
  | false => rw [bankFail_id _ _ c]

theorem bankFail_clears (k j : Nat) (w : Wall) (hkj : (k = 0 ∧ j = 1) ∨ (k = 1 ∧ j = 0)) (h : bankWorks j w = false) (e : bankWorks k w = false → w.gra.queue = [] ∧ w.gra.waiting = []) :
    (bankFail k w).gra.queue = [] ∧ (bankFail k w).gra.waiting = [] := by
  cases c : bankWorks k w with
  | false => rw [bankFail_id _ _ c]; exact e c
  | true =>
    have A : Aside Reg.bankState := by decide
    have g : ∀ i, bankWorks i (raise 0 0x0B04 k 16 (w.clrBitR Reg.bankState k)) = bit (clrBit (w.get Reg.bankState) k % 2 ^ 8) i := fun i => by
      unfold bankWorks; rw [A.raise]; unfold Wall.clrBitR; rw [get_set_same]; rfl
    have gk : bankWorks k (raise 0 0x0B04 k 16 (w.clrBitR Reg.bankState k)) = false := by rw [g]; exact bit_clrBit ..
    have gj : bankWorks j (raise 0 0x0B04 k 16 (w.clrBitR Reg.bankState k)) = false := by
      have := clrBit_other (w.get Reg.bankState) k j (by omega)
      unfold bankWorks at h
      rw [g]
      unfold bit at this h ⊢
      rw [Nat.testBit_mod_two_pow, this, h, Bool.and_false]
    have f : granaryFailed (raise 0 0x0B04 k 16 (w.clrBitR Reg.bankState k)) = true := by
      unfold granaryFailed
      rcases hkj with ⟨rfl, rfl⟩ | ⟨rfl, rfl⟩ <;> rw [gk, gj] <;> rfl
    unfold bankFail
    dsimp only
    rw [c, f]
    exact ⟨rfl, rfl⟩

theorem benignEvent_get (a : Sheaf) (w : Wall) : (benignEvent a w).get Reg.benignDivergence = w.get Reg.benignDivergence := by
  have B : Aside Reg.benignDivergence := by decide
  have e : ∀ x : Wall, Wall.get { x with gra := { x.gra with benignAt := some x.time.tclk } } Reg.benignDivergence = x.get Reg.benignDivergence := fun _ => rfl
  unfold benignEvent
  dsimp only
  split
  · split
    · rw [B.raise, e]
    · rw [B.daybook]
  · rw [if_pos rfl, B.raise, e]

theorem actJudge_does (slot : Nat) (w : Wall) (h : granaryShut w = false) : match judge slot w with
      | .benign _ => (actJudge slot w).get Reg.benignDivergence = (w.get Reg.benignDivergence + 1) % 2 ^ 32
      | .suspect _ _ => (actJudge slot w).get Reg.suspectRecords = (w.get Reg.suspectRecords + 1) % 2 ^ 32
      | .use a (some b) => bankWorks b w = true → { sheaf := a, rank := 5, after := .none, repair := some (b, slot) } ∈ (actJudge slot w).gra.queue ++ (actJudge slot w).gra.waiting
      | _ => actJudge slot w = w := by
  have B : Aside Reg.benignDivergence := by decide
  have S : Aside Reg.suspectRecords := by decide
  have sr : ∀ (l : List CommitItem) (x : Wall), (askSheaves l x).regs = x.regs := fun l x => (askSheaves_keep ..).regs (by decide)
  unfold actJudge
  cases c : judge slot w with
  | free => rfl
  | unreadable => rfl
  | suspect k t =>
    dsimp only
    rw [S.raise, get_bump_same]; rfl
  | benign a =>
    dsimp only
    unfold askRepair
    rw [get_congr (sr _ _)]
    rw [benignEvent_get, get_bump_same]; rfl
  | use a f =>
    cases f with
    | none => rfl
    | some b =>
      dsimp only
      intro hb
      rw [if_pos hb]
      unfold askRepair
      rw [askSheaves_all _ _ h]
      exact List.mem_append_right _ (List.mem_singleton.mpr rfl)

theorem wearProjection_days (w : Wall) : (wearProjection w).gra.wearDays = (w.gra.wearDays ++ [(w.get Reg.serviceS, w.gra.rows.foldl (fun (a : Nat) (e : Nat × Row) => a + e.2.cycles) 0)]).filter
      fun e => decide (w.get Reg.serviceS ≤ e.1 + 30 * 86400) := by
  unfold wearProjection
  dsimp only
  have t : ∀ (d : Nat) (x : Wall), (raise 0 0x0B05 d 16 (digestEntry 0 0x0B05 d ((commitReg Reg.pnBlockLog2 1 (x.bump Reg.pnBlockLog2 1)).bump Reg.blockDoublings 1))).gra.wearDays =
      x.gra.wearDays := fun d x => by
    rw [(raise_keep ..).gra.wearDays (by decide), (digestEntry_keep ..).gra.wearDays (by decide), Wall.bump_gra, (commitReg_keep ..).gra.wearDays (by decide), Wall.bump_gra]
  split <;> repeat' split
  all_goals first | rfl | (rw [t]; rfl)

theorem settle_queue (w : Wall) : (settle w).gra.queue = w.gra.queue ∧ (settle w).gra.waiting = w.gra.waiting ∧ (settle w).regs = (settle w).regs := by
  have k := (settle_keep w).gra
  exact ⟨k.queue (by decide), k.waiting (by decide), rfl⟩

theorem showSa_get (u k : Nat) (w : Wall) (o : Reg) (h : o.key ≠ (Reg.saState u k).key) : (showSa u k w).get o = w.get o := by
  unfold showSa; split <;> exact get_set_other _ _ _ _ h

theorem finishInstall_get (u k : Nat) (w : Wall) (o : Reg) (A : Aside o) (h : o.key ≠ Reg.busyRefused.key) : (finishInstall u k w).get o = w.get o := by
  unfold finishInstall
  split
  · rfl
  · split
    · rfl
    · exact releaseDeferred_get _ _ _ _ _ A h

theorem foldl_same {α : Type} (P : Wall → Prop) (f : Wall → α → Wall) (l : List α) (w : Wall) (h : P w) (hf : ∀ w a, P w → P (f w a)) : P (l.foldl f w) := by
  induction l generalizing w with
  | nil => exact h
  | cons a l ih => exact ih _ (hf _ _ h)

theorem settle_get (w : Wall) (o : Reg) (A : Aside o) (h : o.key ≠ Reg.busyRefused.key) (h7 : o.key < 0x7000 * 256) : (settle w).get o = w.get o := by
  have k1 : ∀ u k, o.key ≠ (Reg.saState u k).key := fun u k => by simp only [Reg.saState, saKey]; omega
  have k2 : ∀ u k, o.key ≠ (Reg.saInstall u k).key := fun u k => by simp only [Reg.saInstall, saKey]; omega
  have d1 : ∀ (x : Wall) (d : List After), Wall.get { x with gra := { x.gra with done := d } } o = x.get o := fun _ _ => rfl
  have d2 : ∀ (x : Wall) (d : Tbl Sa), Wall.get { x with sec := { x.sec with sas := d } } o = x.get o := fun _ _ => rfl
  unfold settle
  dsimp only
  generalize (w.gra.done.filterMap fun a => match a with | .saRecord x => some x | _ => none) = recs
  generalize w.gra.done.filter _ = dn
  have s1 : ∀ x : Wall, x.get o = w.get o → (recs.foldl (fun w x =>
    let u := x / 20
    let k := x % 20
    match getSa u k w with
    | some s => finishInstall u k (putSa u k { s with recordDue := false } w)
    | none => w) x).get o = w.get o := fun x hx => by
    refine foldl_same (fun y : Wall => y.get o = w.get o) _ _ _ hx fun y a hy => ?_
    dsimp only
    split
    · rw [finishInstall_get _ _ _ _ A h]; exact hy
    · exact hy
  split
  · refine foldl_same (fun y : Wall => y.get o = w.get o) _ _ _ (s1 _ rfl) fun y a hy => ?_
    rw [releaseDeferred_get _ _ _ _ _ A h, get_set_other _ _ _ _ (k2 _ _), showSa_get _ _ _ _ (k1 _ _)]
    exact hy
  · exact s1 _ rfl

theorem granaryFailed_congr {x w : Wall} (h : x.get Reg.bankState = w.get Reg.bankState) : granaryFailed x = granaryFailed w := by unfold granaryFailed bankWorks; rw [h]

theorem commitRuns_shut {m : Mode} {w : Wall} (h : commitRuns m w = true) : granaryShut w = false := by unfold commitRuns at h; simp at h; exact h.2

theorem granaryShut_congr {x w : Wall} (h : x.regs = w.regs) : granaryShut x = granaryShut w := by unfold granaryShut granaryFailed bankWorks Wall.flag; rw [get_congr h, get_congr h]

theorem level_bndW (u s : Nat) (b : Bool) (w : Wall) : (level u s b w).bnd = w.bnd := level_bnd ..

theorem setBnds (w : Wall) : (setShut false (setInhibit false w)).bnd = { w.bnd with inhibit := false, queueShut := false } := rfl

end Sys2Proof.Machine
end

