-- ==== Sys2Proof/Laws/CmdDvor.lean ====
section
/-! SUPPORT. What the commands of Dvor, of the store commands and of the modes that follow them do. -/

open Sys2Proof

namespace Sys2Proof.Machine

theorem dvorOn_parts {m : Mode} {w : Wall} (h : dvorOn m w = true) (n : m ≠ .sealedMode) : m ≠ .kindle ∧ inService m = true := by
  unfold dvorOn at h
  cases m <;> simp_all [inService]

/-- The wall on which the SEQ of a request is judged. -/
def heardWall (r : DvorReq) (a : Session) (w : Wall) : Wall := putSession r.slot (heard r.peer w a) (datagram r.peer.path w)

theorem datagram_same (p : Path) (w : Wall) : (datagram p w).led = w.led ∧ (datagram p w).out = w.out ∧ (datagram p w).time = w.time := by
  have k := pulse_keep 16 (50 + pathNo p) w
  exact ⟨k.led.same (by decide), k.out (by decide), k.time.same (by decide)⟩

theorem heardWall_does (r : DvorReq) (a : Session) (w : Wall) : (heardWall r a w).led.queue = w.led.queue ∧ (heardWall r a w).led.closed = w.led.closed ∧
    tget (heardWall r a w).led.sessions r.slot = some (heard r.peer w a) ∧ (heardWall r a w).out = w.out := by
  have d := datagram_same r.peer.path w
  refine ⟨?_, ?_, tget_tput_same .., d.2.1⟩
  · show (datagram r.peer.path w).led.queue = _; rw [d.1]
  · show (datagram r.peer.path w).led.closed = _; rw [d.1]

theorem sessionRequest_eq {r : DvorReq} {a : Session} {m : Mode} {w : Wall} (f : Session → Wall → Wall) (h1 : m ≠ .kindle) (h2 : m ≠ .sealedMode)
    (h3 : pathOpen r.peer.path w = true) (h4 : tget w.led.sessions r.slot = some a) :
    sessionRequest r m f w = match judgeSeq (heard r.peer w a) r.seq with
      | .resend => resendCached r.slot r.peer (heard r.peer w a) r.seq (heardWall r a w)
      | .copy => heardWall r a w
      | .old => (heardWall r a w).bump Reg.seqOld 1
      | .ahead => (heardWall r a w).bump Reg.seqAhead 1
      | .renew => sessionRespond r.slot a.id r.seq r.peer aRenew 0 [] (heardWall r a w)
      | .take => f (heard r.peer w a) (heardWall r a w) := by
  have e : heard r.peer (datagram r.peer.path w) a = heard r.peer w a := by unfold heard; rw [(datagram_same ..).2.2]
  unfold sessionRequest
  rw [if_neg (by simp [h1, h2, h3]), h4]
  dsimp only
  rw [e]
  rfl

theorem dvorAsk_exec {c : Instr} {r : DvorReq} {op : LOp} (h : dvorAsk c = some (r, op)) (s : State) : exec c s = actIfM dvorOn (dvorRequest r op) s := by
  unfold dvorAsk at h
  split at h <;> first | (cases h; rfl) | cases h

theorem dvorReq_exec {c : Instr} {r : DvorReq} (h : dvorReqOf c = some r) (s : State) : ∃ f, exec c s = actIfM dvorOn (fun m w => sessionRequest r m f w) s := by
  unfold dvorReqOf at h
  split at h
  · cases h; exact ⟨_, rfl⟩
  · cases h; exact ⟨_, rfl⟩
  · obtain ⟨⟨r', op⟩, hk, hr⟩ := Option.map_eq_some_iff.mp h
    cases hr
    exact ⟨queueRequest r' op, dvorAsk_exec hk s⟩

theorem sessionRespond_queue (slot id seq : Nat) (p : Peer) (st g : Nat) (d : List Byte) (w : Wall) : (sessionRespond slot id seq p st g d w).led.queue = w.led.queue :=
  (sessionRespond_keep ..).led.queue (by decide)

theorem level_get_bh {u k : Nat} {b : Bool} {w : Wall} {o : Reg} (hu : u ≠ 17) (h : o.key ≠ (Reg.bhPending u).key) : (level u k b w).get o = w.get o := by
  have q : ∀ x : Wall, (setLatch u k x).get o = x.get o := fun x => by
    unfold setLatch when
    rw [show (u == 17) = false from by simpa using hu]
    exact get_setBitR_other _ _ _ _ h
  have q2 : ∀ (x : Bool) (y : Wall), (when x (setLatch u k) y).get o = y.get o := fun x y => by
    cases x
    · rfl
    · exact q y
  exact q2 _ _

theorem datagram_get (p : Path) (w : Wall) {o : Reg} (h : o.key ≠ (Reg.bhPending 16).key) : (datagram p w).get o = w.get o :=
  (level_get_bh (by decide) h).trans (level_get_bh (by decide) h)

theorem heardWall_get (r : DvorReq) (a : Session) (w : Wall) {o : Reg} (h : o.key ≠ (Reg.bhPending 16).key) : (heardWall r a w).get o = w.get o :=
  (putSession_get ..).trans (datagram_get _ _ h)

theorem limitedReply_sent {p : Path} {o : Out} {w : Wall} (h : w.led.icmpSecond ≠ w.second ∨ w.led.icmpCount < 100) :
    (limitedReply p o w).out = o :: w.out ∧ (limitedReply p o w).led.handshakes = w.led.handshakes := by
  unfold limitedReply
  dsimp only
  rw [if_neg (by split <;> omega)]
  exact ⟨rfl, rfl⟩

theorem credRole_bh (k : Nat) : (Reg.credRole k).key ≠ (Reg.bhPending 16).key := by
  show (0x1210 + k) * 256 + 0x02 ≠ (0x1700 + 16) * 256 + 0x01
  omega

theorem credPubkey_bh {k : Nat} (h : k < 256) : (Reg.credPubkey k).key ≠ (Reg.bhPending 16).key := by
  show (0x1210 + k) * 256 + 0x01 ≠ (0x1700 + 16) * 256 + 0x01
  omega

theorem officer_datagram (p : Path) (w : Wall) : officerEnrolled (datagram p w) = officerEnrolled w := by
  unfold officerEnrolled Wall.flag
  rw [Bool.eq_iff_iff, List.any_eq_true, List.any_eq_true]
  refine exists_congr fun k => and_congr_right fun hk => ?_
  have : k < 8 := List.mem_range.mp hk
  rw [datagram_get _ _ (credRole_bh k), datagram_get _ _ (credPubkey_bh (by omega))]

theorem credUsed_datagram {k : Nat} (h : k < 256) (p : Path) (w : Wall) : credUsed k (datagram p w) = credUsed k w := by
  unfold credUsed Wall.flag
  rw [datagram_get _ _ (credRole_bh k), datagram_get _ _ (credPubkey_bh h)]

theorem judgeOpen_datagram (o : DvorOpen) (p : Path) (w : Wall) : judgeOpen o (datagram p w) = judgeOpen o w := by
  unfold judgeOpen
  rw [officer_datagram, datagram_get _ _ (credRole_bh _)]
  by_cases h : o.cred < 8
  · rw [credUsed_datagram (by omega)]
  · have q : ∀ x : Wall, ¬ (o.cred < 8 ∧ credUsed o.cred x = true ∧ w.get (Reg.credRole o.cred) = o.role) := fun _ k => h k.1
    rw [if_neg (q (datagram p w)), if_neg (q w)]

theorem find_key {α : Type} {l : List α} {p q : α → Bool} {r : Option α} (h : l.find? p = r) (e : p = q) : l.find? q = r := e ▸ h

theorem establish_does (k : Nat) (h : Handshake) (peer : Peer) (w : Wall) (hc : h.cred ≠ 0xFF) :
    (establish k h peer w).led.handshakes = w.led.handshakes.filter (fun x => x.id != h.id) ∧
      (tget (establish k h peer w).led.sessions k).map (fun x => (x.id, x.role, x.peer, x.accepted)) = some (h.id, h.role, peer, [1]) := by
  unfold establish
  dsimp only
  rw [show (h.cred == 0xFF) = false from by simpa using hc, when_false]
  unfold sessionRespond
  have e : ∀ (x : Session) (y : Wall), tget (putSession k x y).led.sessions k = some x := fun x y => tget_tput_same ..
  rw [e]
  dsimp only
  rw [if_neg (by simp), if_neg (by decide)]
  refine ⟨rfl, ?_⟩
  show Option.map _ (tget (putSession k _ _).led.sessions k) = _
  rw [e]
  rfl

theorem fieldOther_get {p : Path} (h : p ≠ .inband) (w : Wall) : (fieldOther p w).get Reg.fieldOther = (w.get Reg.fieldOther + 1) % 2 ^ 32 ∧ (fieldOther p w).out = w.out := by
  unfold fieldOther
  rw [if_neg h, get_bump_same]
  exact ⟨rfl, rfl⟩

theorem limitedReply_out {p : Path} {o : Out} {w : Wall} (h : w.led.icmpSecond = w.second) (h2 : 100 ≤ w.led.icmpCount) :
    limitedReply p o w = fieldOther p w := by
  unfold limitedReply
  dsimp only
  rw [if_pos h, if_pos h2]

theorem closeSession_does {k r : Nat} {a : Session} {w : Wall} (h : tget w.led.sessions k = some a) :
    tget (closeSession k r true w).led.sessions k = none ∧ (closeSession k r true w).out = .closeMsg a.id r (a.wallSeq + 1) a.peer :: w.out := by
  unfold closeSession
  rw [h]
  exact ⟨tget_tdel_same .., rfl⟩

theorem storeClose_does (st r : Nat) (w : Wall) (h2 : st < 256) (h3 : r < 2 ^ 32) : (storeClose st r w).led.store = none ∧ (storeClose st r w).led.moveDue = w.led.moveDue ∧
    (storeClose st r w).get Reg.storeState = st ∧ (storeClose st r w).get Reg.storeResult = r := by
  unfold storeClose
  refine ⟨?_, ?_, ?_, ?_⟩
  · exact (releaseDeferred_keep ..).led.store (by decide)
  · exact (releaseDeferred_keep ..).led.moveDue (by decide)
  · rw [releaseDeferred_get _ _ _ _ _ (by decide) (by decide), get_set_other _ _ _ _ (by decide), get_set_same]
    exact Nat.mod_eq_of_lt h2
  · rw [releaseDeferred_get _ _ _ _ _ (by decide) (by decide), get_set_same]
    exact Nat.mod_eq_of_lt h3
def drainedWall (m : Mode) (w : Wall) : Wall := setInhibit true (if commitRuns m w then commitAll w else w)

theorem drainedWall_tick (m : Mode) (w : Wall) : (drainedWall m w).bnd.emberTick = w.bnd.emberTick := by
  refine ((setInhibit_keep true _).bnd.emberTick (by decide)).trans ?_
  split
  · exact (commitAll_keep w).bnd.emberTick (by decide)
  · rfl

theorem emit_bnd (o : Out) (w : Wall) : (w.emit o).bnd = w.bnd := rfl

theorem emberDrained_runs {m : Mode} {w : Wall} (h1 : w.led.closed = true) (h2 : w.led.moveDue = 1) (h3 : inService m = true) (h4 : w.bnd.pfail = false)
    (h5 : w.bnd.vgranOk = true) (h6 : w.sec.zeroising = none) : Machine.emberDrained m w =
      (.ember, freshWall (modBnd (fun b => { b with emberEntry := b.emberTick, wakeReq := false }) ((noteMove (modeCode m) 1 13 (drainedWall m w)).emit .railsOff))) := by
  unfold Machine.emberDrained drainedWall
  rw [if_pos (by rw [h1, h2, h3, h4, h5, h6]; rfl)]

theorem emberWall_does (x : Wall) : (freshWall (modBnd (fun b => { b with emberEntry := b.emberTick, wakeReq := false }) x)).bnd.emberEntry = x.bnd.emberTick ∧
    (freshWall (modBnd (fun b => { b with emberEntry := b.emberTick, wakeReq := false }) x)).bnd.wakeReq = false ∧
    (freshWall (modBnd (fun b => { b with emberEntry := b.emberTick, wakeReq := false }) x)).led.queue = [] := by
  refine ⟨?_, ?_, ?_⟩
  · rw [freshWall_bnd]; rfl
  · rw [freshWall_bnd]; rfl
  · rw [freshWall_led]; rfl

theorem reeveRestart_on {m : Mode} (h : inService m = true) (w : Wall) : reeveRestart m w = restart 16 m w := by
  cases m <;> first | exact absurd h (by decide) | rfl

theorem reeveRestart_off {m : Mode} (h : inService m = false) (w : Wall) : reeveRestart m w = (m, w) := by
  cases m <;> first | exact absurd h (by decide) | rfl

end Sys2Proof.Machine
end

