-- ==== Sys2Proof/Laws/CmdRing.lean ====
section
/-! SUPPORT. What the commands of the rings, the Mill, the host side of the Bellhouse and of observability do. -/

open Sys2Proof

namespace Sys2Proof.Machine

/-- A window word that no transmit ring writes as it completes frames. -/
abbrev ringAside (o : Nat) : Prop := o % 0x1000 < 0x44 ∨ 0x200000 ≤ o

theorem ringBlk_tx {k : Nat} (h : k < 256) : ringBlk k = 0x100000 + k * 0x1000 := by unfold ringBlk; rw [if_pos h]

theorem ringAside.ne {o k j : Nat} (h : ringAside o) (hk : k < 256) (h1 : 0x44 ≤ j) (h2 : j < 0x70) : o ≠ ringBlk k + j := by
  rw [ringBlk_tx hk]
  unfold ringAside at h
  omega

theorem win32_setWin64 {off o v d : Nat} {w : Wall} (h : o ≠ off) (h' : o ≠ off + 4) : (w.setWin64 off v).win32 o d = w.win32 o d :=
  (win32_setWin_other _ _ _ _ _ _ h').trans (win32_setWin_other _ _ _ _ _ _ h)

theorem ringAside.bump64 {o k j n d : Nat} {w : Wall} (h : ringAside o) (hk : k < 256) (h1 : 0x44 ≤ j) (h2 : j < 0x6C) :
    (bump64 (ringBlk k + j) n w).win32 o d = w.win32 o d := by
  unfold Machine.bump64
  exact win32_setWin64 (h.ne hk h1 (by omega)) (by rw [Nat.add_assoc]; exact h.ne hk (by omega) (by omega))

theorem win_congr {x w : Wall} (h : x.win = w.win) (o d : Nat) : x.win32 o d = w.win32 o d := by unfold Wall.win32; rw [h]

theorem ringAside.count {o k len d : Nat} {b : Bool} {w : Wall} (h : ringAside o) (hk : k < 256) : (ringCount k len b w).win32 o d = w.win32 o d := by
  unfold ringCount when
  dsimp only
  have v : ∀ (c : Bool) (n : Nat) (x : Wall), (if c = true then vecEvent n x else x).win32 o d = x.win32 o d := fun c n x => by
    split
    · exact win_congr ((vecEvent_keep ..).win (by decide)) _ _
    · rfl
  rw [v]
  split
  · rw [h.bump64 hk (by decide) (by decide), h.bump64 hk (by decide) (by decide), h.bump64 hk (by decide) (by decide)]
  · rw [h.bump64 hk (by decide) (by decide), h.bump64 hk (by decide) (by decide)]

theorem ringAside.advance {o k d : Nat} {l : List Nat} {w : Wall} (h : ringAside o) (hk : k < 256) : (ringAdvance k l w).win32 o d = w.win32 o d := by
  unfold ringAdvance when
  dsimp only
  have v : ∀ (c : Bool) (a : Nat) (l : List Byte) (x : Wall), (if c = true then writeHost a l x else x).win32 o d = x.win32 o d := fun c a l x => by
    split
    · exact win_congr ((writeHost_keep ..).win (by decide)) _ _
    · rfl
  rw [v, win32_setWin_other _ _ _ _ _ _ (h.ne hk (by decide) (by decide))]
  rfl

theorem ringAside.complete {o k a b c e f g n d : Nat} {w : Wall} (h : ringAside o) (hk : k < 256) : (txComplete k a b c e f g n w).win32 o d = w.win32 o d := by
  unfold txComplete
  dsimp only
  rw [h.count hk, h.advance hk]
  exact win_congr ((txWriteBack_keep ..).win (by decide)) _ _

theorem ringAside.take {o k sp d : Nat} {m : Bool} {w : Wall} (h : ringAside o) (hk : k < 256) : (txTake k sp m w).win32 o d = w.win32 o d := by
  unfold txTake
  dsimp only
  split
  · rfl
  · split
    · rw [h.complete hk]; rfl
    · rfl
    · split
      · rw [h.complete hk]; rfl
      · exact win_congr ((startFrame_keep ..).win (by decide)) _ _
    · split <;> rfl

theorem ringAside.pumpTx {o k sp d : Nat} {m : Bool} {w : Wall} (h : ringAside o) (hk : k < 256) : (pumpTx k sp m w).win32 o d = w.win32 o d := by
  unfold Machine.pumpTx
  exact upTo_keeps (fun x : Wall => x.win32 o d = w.win32 o d) _ _ _ rfl fun _ x hx => by
    rw [h.take hk, win_congr ((fetchDescs_keep ..).win (by decide))]; exact hx

theorem ringAside.pumpSp {o sp d : Nat} {w : Wall} (h : ringAside o) : (pumpSp sp w).win32 o d = w.win32 o d := by
  unfold Machine.pumpSp
  dsimp only
  have m : ∀ i ∈ ((List.range 256).map fun j => (tgetD w.hst.turn sp 255 + 1 + j) % 256).filter fun i => bit (w.get (Reg.txRings sp)) i, i < 256 := by
    intro i hi
    obtain ⟨j, -, e⟩ := List.mem_map.mp (List.mem_filter.mp hi).1
    omega
  revert m
  generalize (((List.range 256).map fun j => (tgetD w.hst.turn sp 255 + 1 + j) % 256).filter fun i => bit (w.get (Reg.txRings sp)) i) = l
  suffices ∀ x : Wall, (∀ i ∈ l, i < 256) → (l.foldl (fun w i =>
    let w' := Machine.pumpTx i sp false w
    if (w.ring i).dataFor = [] ∧ (w'.ring i).dataFor ≠ [] then { w' with hst := { w'.hst with turn := tput w'.hst.turn sp i } } else w') x).win32 o d = x.win32 o d from this w
  induction l with
  | nil => exact fun _ _ => rfl
  | cons i l ih =>
    intro x hl
    rw [List.foldl_cons, ih _ fun j hj => hl j (List.mem_cons_of_mem _ hj)]
    dsimp only
    have hi := hl i List.mem_cons_self
    split
    · exact (show _ = _ from rfl : Wall.win32 { Machine.pumpTx i sp false x with hst := _ } o d = (Machine.pumpTx i sp false x).win32 o d).trans (h.pumpTx hi)
    · exact h.pumpTx hi

theorem ringAside.pump {o d : Nat} {w : Wall} (h : ringAside o) : (pumpRings w).win32 o d = w.win32 o d := by
  unfold pumpRings
  generalize w.hst.rings = l
  generalize hw : w.win32 o d = g
  revert hw
  generalize w = x
  intro hw
  subst hw
  revert x
  induction l with
  | nil => exact fun _ => rfl
  | cons e l ih =>
    intro x
    rw [List.foldl_cons, ih]
    split
    · split
      · split
        · exact h.pumpTx ‹_›
        · rfl
      · split
        · exact h.pumpSp
        · rfl
    · unfold pumpRx
      generalize (if rxRoom (x.ring e.1).held < 16392 then 70000 else 32) = n
      exact win_congr ((fetchDescs_keep ..).win (by decide)) _ _

theorem win32_set_eq (w : Wall) (off d v : Nat) : (w.setWin off d v).win32 off d = v % 2 ^ 32 := tgetD_tputD_same ..

theorem win32_set_ne {off d o v : Nat} {w : Wall} (e : Nat) (h : o ≠ off) : (w.setWin off d v).win32 o e = w.win32 o e := win32_setWin_other _ _ _ _ _ _ h

theorem setRing_win32 (k : Nat) (r : RingRt) (w : Wall) (o d : Nat) : (w.setRing k r).win32 o d = w.win32 o d := rfl

theorem bit_ctrl {v i : Nat} (h : i < 12) (h3 : i ≠ 3) : bit (v % 2 ^ 12 - v % 16 / 8 * 8) i = bit v i := by
  unfold bit
  rw [Nat.testBit_eq_decide_div_mod_eq, Nat.testBit_eq_decide_div_mod_eq]
  congr 1
  rw [eq_iff_iff]
  have : v % 2 ^ 12 = v % 4096 := rfl
  interval_cases i <;> first | exact absurd rfl h3 | omega

theorem ctrlBits_off {k v : Nat} {w : Wall} (h : ringOn k w = false) : ctrlBits k v w = (v % 2 ^ 12 - v % 16 / 8 * 8, false) := by
  unfold ctrlBits
  dsimp only
  rw [show bit (ringCtrl k w) 0 = false from h]
  rfl

theorem ctrlBits_zero {k v : Nat} {w : Wall} : bit (ctrlBits k v w).1 0 = bit v 0 := by
  unfold ctrlBits
  dsimp only
  split
  · split
    · show bit (setBit _ 2) 0 = _
      rw [← bit_ctrl (v := v) (i := 0) (by decide) (by decide)]
      unfold bit setBit
      rw [Nat.testBit_or]
      simp
    · show bit (clrBit _ 2) 0 = _
      rw [← bit_ctrl (v := v) (i := 0) (by decide) (by decide)]
      exact clrBit_other _ _ _ (by decide)
  · exact bit_ctrl (by decide) (by decide)

theorem ringEnable_does {k v : Nat} {w : Wall} (h : ringOn k w = false) (hv : bit v 0 = true) :
    (¬ (ringBase k w % 4096 ≠ 0 ∨ (bit v 2 = true ∧ w.win64 (ringBlk k + 0x10) % 8 ≠ 0)) → ringStatus k (ringEnable k v w) = 1 ∧ ringHead k (ringEnable k v w) = 0 ∧
      ringTail k (ringEnable k v w) = 0 ∧ ((ringEnable k v w).ring k).held = [] ∧ (ringEnable k v w).regs = w.regs) ∧
    (ringBase k w % 4096 ≠ 0 ∨ (bit v 2 = true ∧ w.win64 (ringBlk k + 0x10) % 8 ≠ 0) → ringStatus k (ringEnable k v w) = 4 + 3 * 16 ∧ ringHead k (ringEnable k v w) = 0 ∧
      ringTail k (ringEnable k v w) = 0 ∧ bit ((ringEnable k v w).get (Reg.bhPending 17)) (if k < 256 then 24 else 25) = true) := by
  have hc := ctrlBits_off (v := v) h
  have b2 : bit (v % 2 ^ 12 - v % 16 / 8 * 8) 2 = bit v 2 := bit_ctrl (by decide) (by decide)
  unfold ringEnable
  dsimp only
  rw [hc, h]
  dsimp only
  rw [bit_ctrl (by decide) (by decide), hv, if_neg (by decide), b2]
  generalize hw : Wall.setRing _ k _ = y
  have e1 : ∀ o d, o ≠ ringBlk k + 0x0C → o ≠ ringBlk k + 0x40 → o ≠ ringBlk k + 0x44 → y.win32 o d = w.win32 o d := fun o d h1 h2 h3 => by
    subst hw
    rw [setRing_win32, win32_set_ne _ h3, win32_set_ne _ h2, win32_set_ne _ h1]
  have e2 : y.win32 (ringBlk k + 0x40) 0 = 0 := by
    subst hw
    rw [setRing_win32, win32_set_ne _ (by omega), win32_set_eq]; rfl
  have e3 : y.win32 (ringBlk k + 0x44) 0 = 0 := by
    subst hw
    rw [setRing_win32, win32_set_eq]; rfl
  have e4 : ringBase k y = ringBase k w := by
    unfold ringBase Wall.win64
    rw [e1 _ _ (by omega) (by omega) (by omega), e1 _ _ (by omega) (by omega) (by omega)]
  have e5 : y.win64 (ringBlk k + 0x10) = w.win64 (ringBlk k + 0x10) := by
    unfold Wall.win64
    rw [e1 _ _ (by omega) (by omega) (by omega), e1 _ _ (by omega) (by omega) (by omega)]
  have e6 : (y.ring k).held = [] := by
    subst hw
    exact congrArg RingRt.held (tgetD_tput_same ..)
  have e7 : y.regs = w.regs := by subst hw; rfl
  rw [e4, e5]
  refine ⟨fun c => ?_, fun c => ?_⟩
  · rw [if_neg c]
    refine ⟨?_, ?_, ?_, e6, e7⟩
    · exact (win32_set_eq ..).trans rfl
    · exact (win32_set_ne _ (by omega)).trans e3
    · exact (win32_set_ne _ (by omega)).trans e2
  · rw [if_pos c]
    unfold ringError
    dsimp only
    have s0 : ringStatus k (setRingStatus k 0 y) = 0 := win32_set_eq ..
    have L : ∀ (n o d : Nat) (x : Wall), (latch 17 n x).win32 o d = x.win32 o d := fun n o d x => win_congr (latch_win ..) _ _
    rw [s0]
    refine ⟨?_, ?_, ?_, ?_⟩
    · exact (L ..).trans ((win32_set_eq ..).trans rfl)
    · exact (L ..).trans ((win32_set_ne _ (by omega)).trans ((win32_set_ne _ (by omega)).trans e3))
    · exact (L ..).trans ((win32_set_ne _ (by omega)).trans ((win32_set_ne _ (by omega)).trans e2))
    · exact latch_pending _ _ _ (by split <;> decide) (by decide) (by decide)

theorem setCfgRefused_low {k : Nat} {b : Bool} {w : Wall} (h : ringStatus k w = 0) : bit (ringStatus k (setCfgRefused k b w)) 0 = false := by
  unfold setCfgRefused
  dsimp only
  rw [h]
  have : ∀ v, ringStatus k (setRingStatus k v w) = v % 2 ^ 32 := fun v => win32_set_eq ..
  rw [this]
  cases b <;> decide

theorem ringDisable_does {k v : Nat} {w : Wall} (h : ringOn k w = true) (hv : bit v 0 = false) : ringOn k (ringDisable k v w) = false ∧ ringRuns k (ringDisable k v w) = false ∧
    ((ringDisable k v w).ring k).held = [] ∧ ((ringDisable k v w).ring k).dataFor = (w.ring k).dataFor ∧ (ringDisable k v w).out = w.out ∧ (ringDisable k v w).regs = w.regs := by
  unfold ringDisable
  dsimp only
  rw [h, ctrlBits_zero, hv, if_neg (by decide)]
  have z : bit (ctrlBits k v w).1 0 = false := ctrlBits_zero.trans hv
  generalize ctrlBits k v w = c at z ⊢
  refine ⟨?_, ?_, ?_, ?_, rfl, rfl⟩
  · show bit (Wall.win32 (setCfgRefused k c.2 (setRingStatus k 0 (w.setWin (ringBlk k + 0x0C) 0 c.1))) (ringBlk k + 0x0C) 0) 0 = false
    unfold setCfgRefused setRingStatus
    rw [win32_set_ne _ (by omega), win32_set_ne _ (by omega), win32_set_eq]
    unfold bit at *
    rw [Nat.testBit_mod_two_pow, z]; rfl
  · exact setCfgRefused_low (w := setRingStatus k 0 (w.setWin (ringBlk k + 0x0C) 0 c.1)) (win32_set_eq ..)
  · exact congrArg RingRt.held (tgetD_tput_same ..)
  · exact (congrArg RingRt.dataFor (tgetD_tput_same ..)).trans rfl

theorem ringCtrlAny_on {k v : Nat} {w : Wall} (h : ringOn k w = false) (hv : bit v 0 = true) : ringCtrlAny k v w = ringEnable k v w := by
  unfold ringCtrlAny
  rw [h, hv, if_neg (by decide), if_pos rfl]

theorem ringCtrlAny_off {k v : Nat} {w : Wall} (h : ringOn k w = true) (hv : bit v 0 = false) : ringCtrlAny k v w = ringDisable k v w := by
  unfold ringCtrlAny
  rw [h, hv, if_neg (by decide), if_neg (by decide)]

theorem win64_congr {x w : Wall} (h : ∀ o d, x.win32 o d = w.win32 o d) (o : Nat) : x.win64 o = w.win64 o := by unfold Wall.win64; rw [h, h]

theorem bump64_same (o n : Nat) (w : Wall) : (bump64 o n w).win64 o = (w.win64 o + n) % 2 ^ 64 := by
  unfold bump64 Wall.setWin64 Wall.win64
  generalize (w.win32 o 0 + w.win32 (o + 4) 0 * 2 ^ 32 + n) = v
  rw [win32_set_ne _ (by omega), win32_set_eq, win32_set_eq]
  omega

theorem bump64_other {o p n : Nat} {w : Wall} (h : o + 8 ≤ p ∨ p + 8 ≤ o) : (bump64 o n w).win64 p = w.win64 p := by
  unfold bump64
  have : ∀ q v, q ≠ o → q ≠ o + 4 → (w.setWin64 o v).win32 q 0 = w.win32 q 0 := fun q v a b => win32_setWin64 a b
  show Wall.win32 _ p 0 + Wall.win32 _ (p + 4) 0 * 2 ^ 32 = _
  rw [this _ _ (by omega) (by omega), this _ _ (by omega) (by omega)]
  rfl

theorem ring_set_same (k : Nat) (r : RingRt) (w : Wall) : (w.setRing k r).ring k = r := tgetD_tput_same ..

theorem mem_tfilter_out {α : Type} {t : Tbl α} {p : Nat → α → Bool} {e : Nat × α} (h : e ∈ tfilter t p) : p e.1 e.2 = true := by
  unfold tfilter at h
  exact (List.mem_filter.mp h).2

theorem descDone_takes {d : RingDir} {i : Nat} {descs : List Nat} {w : Wall} (h1 : (w.ring (ringKey d i)).reading = true) (h2 : ringRuns (ringKey d i) w = true)
    (h3 : descs.length ≤ unfetched (ringKey d i) w) (h4 : descs.length ≤ 16 - (w.ring (ringKey d i)).fetchAt % 16)
    (h5 : (w.ring (ringKey d i)).fetchAt + descs.length ≤ ringSize (ringKey d i) w) :
    descDone d i descs w = pumpRings ((freeUse (.desc d i) w).setRing (ringKey d i) { w.ring (ringKey d i) with
      reading := false
      held := (w.ring (ringKey d i)).held ++ ((List.range descs.length).map fun j => (w.ring (ringKey d i)).fetchAt + j).zip descs
      fetchAt := ((w.ring (ringKey d i)).fetchAt + descs.length) % ringSize (ringKey d i) w }) := by
  generalize hk : ringKey d i = k at *
  unfold descDone
  dsimp only
  rw [hk, h1, if_neg (by decide)]
  have w1 : ∀ o d, (freeUse (.desc ‹RingDir› i) w).win32 o d = w.win32 o d := fun o d => rfl
  have e1 : ringRuns k (freeUse (.desc d i) w) = ringRuns k w := rfl
  have e2 : unfetched k (freeUse (.desc d i) w) = unfetched k w := rfl
  have e3 : ringSize k (freeUse (.desc d i) w) = ringSize k w := rfl
  rw [e1, h2, if_neg (by decide), e2, e3, Nat.min_eq_left (show descs.length ≤ min _ _ by omega), List.take_length]
  congr 3
  refine congrArg (fun l => (w.ring k).held ++ List.zip l descs) (List.map_congr_left fun j hj => ?_)
  have := List.mem_range.mp hj
  exact Nat.mod_eq_of_lt (by omega)

theorem millTxOf_congr {x w : Wall} (i : Nat) (h : ∀ n, x.get (Reg.millState n) = w.get (Reg.millState n) ∧ x.get (Reg.millTxRing n) = w.get (Reg.millTxRing n)) :
    millTxOf i x = millTxOf i w := by
  unfold millTxOf
  have : ∀ n, (x.get (Reg.millState n) != 0 && x.get (Reg.millTxRing n) == i) = (w.get (Reg.millState n) != 0 && w.get (Reg.millTxRing n) == i) := fun n => by
    rw [(h n).1, (h n).2]
  simp only [this]

theorem freeUse_get (u : ReadUse) (w : Wall) (o : Reg) (h : o.key ≠ Reg.tagsOut.key) : (freeUse u w).get o = w.get o := get_set_other _ _ _ _ h

theorem tags_ne_sp {n c : Nat} (h : 0x5000 ≤ n) (hc : c < 256) : n * 256 + c ≠ Reg.tagsOut.key := by
  show _ ≠ _; unfold Reg.tagsOut; dsimp only; omega

theorem txDataDone_eq {i : Nat} {data : List Byte} {w x : Wall} {e : Nat × Nat} {l : List (Nat × Nat)} (h : (w.ring i).dataFor = e :: l)
    (hx : (freeUse (.data i) w).setRing i { w.ring i with dataFor := [] } = x) :
    txDataDone i data w = if !ringRuns i w then pumpRings (subHostOcc ((w.ring i).feeds / 8) (chunksOf (frameLen (e :: l))) x)
      else match millTxOf i w with
        | some sp => pumpRings (x.setMill (brickOfSp sp) { w.mill (brickOfSp sp) with
            waiting := (w.mill (brickOfSp sp)).waiting ++ [MillFrame.mk (fit (frameLen (e :: l)) data) e.1 (l.length + 1) e.2 0 false]
            taken := (w.mill (brickOfSp sp)).taken + 1 })
        | none => pumpRings (linkOwned (if bit e.2 85 then bits e.2 91 86 else w.get (Reg.txQueue (w.ring i).feeds))
            (EFrame.mk (.host i e.1 (l.length + 1)) (w.ring i).feeds (fit (frameLen (e :: l)) data) true (chunksOf (frameLen (e :: l))) 0 e.2) x) := by
  have x1 : ∀ o : Reg, o.key ≠ Reg.tagsOut.key → x.get o = w.get o := fun o ho => hx ▸ (setRing_get ..).trans (freeUse_get _ _ _ ho)
  have x2 : millTxOf i x = millTxOf i w := millTxOf_congr i fun n => ⟨x1 _ (tags_ne_sp (by omega) (by omega)), x1 _ (tags_ne_sp (by omega) (by omega))⟩
  have x3 : x.get (Reg.txQueue (w.ring i).feeds) = w.get (Reg.txQueue (w.ring i).feeds) := x1 _ (tags_ne_sp (by omega) (by omega))
  have x4 : ∀ b, x.mill b = w.mill b := fun b => hx ▸ rfl
  have x5 : ringRuns i x = ringRuns i w := hx ▸ rfl
  unfold txDataDone
  dsimp only at hx ⊢
  rw [h]
  dsimp only
  rw [hx, x5, x2, x3]
  split
  · rfl
  · cases millTxOf i w with
    | some sp => dsimp only; rw [x4]; rfl
    | none => rfl

theorem writeHosts_win (l : List (Nat × List Byte)) (w : Wall) : (l.foldl (fun w e => writeHost e.1 e.2 w) w).win = w.win :=
  foldl_keeps (fun x : Wall => x.win = w.win) _ _ _ rfl fun x e h => ((writeHost_keep ..).win (by decide)).trans h

theorem ringCount_does (k len : Nat) (w : Wall) : (ringCount k len false w).win64 (ringBlk k + 0x50) = (w.win64 (ringBlk k + 0x50) + 1) % 2 ^ 64 ∧
    (ringCount k len false w).win64 (ringBlk k + 0x58) = (w.win64 (ringBlk k + 0x58) + len) % 2 ^ 64 ∧
    (ringCount k len false w).win64 (ringBlk k + 0x60) = w.win64 (ringBlk k + 0x60) := by
  unfold ringCount
  dsimp only
  rw [when_false]
  have v : ∀ (c : Bool) (n : Nat) (x : Wall) (o : Nat), (when c (vecEvent n) x).win64 o = x.win64 o := fun c n x o => by
    cases c
    · rfl
    · exact win64_congr (win_congr (vecEvent_win ..)) _
  rw [v, v, v]
  refine ⟨?_, ?_, ?_⟩
  · rw [bump64_other (.inr (by omega)), bump64_same]
  · rw [bump64_same, bump64_other (.inl (by omega))]
  · rw [bump64_other (.inl (by omega)), bump64_other (.inl (by omega))]

theorem ringAdvance_count (k : Nat) (l : List Nat) (w : Wall) (j : Nat) (h : 0x50 ≤ j) : (ringAdvance k l w).win64 (ringBlk k + j) = w.win64 (ringBlk k + j) := by
  have v : ∀ (c : Bool) (a : Nat) (l : List Byte) (x : Wall) (o d : Nat), (when c (writeHost a l) x).win32 o d = x.win32 o d := fun c a l x o d => by
    cases c
    · rfl
    · exact win_congr ((writeHost_keep ..).win (by decide)) _ _
  unfold ringAdvance
  dsimp only
  unfold Wall.win64
  rw [v, v, win32_set_ne _ (by omega), win32_set_ne _ (by omega)]
  rfl

theorem deliverRx_does (k : Nat) (data : List Byte) (eop : Nat) (w : Wall) :
    (deliverRx k data eop w).win64 (ringBlk k + 0x50) = (w.win64 (ringBlk k + 0x50) + 1) % 2 ^ 64 ∧
    (deliverRx k data eop w).win64 (ringBlk k + 0x58) = (w.win64 (ringBlk k + 0x58) + data.length) % 2 ^ 64 ∧
    (deliverRx k data eop w).win64 (ringBlk k + 0x60) = w.win64 (ringBlk k + 0x60) := by
  unfold deliverRx
  dsimp only
  have q : ∀ (l l' : List (Nat × List Byte)) (r : RingRt) (o : Nat), (l'.foldl (fun w e => writeHost e.1 e.2 w) (l.foldl (fun w e => writeHost e.1 e.2 w) (w.setRing k r))).win64 o = w.win64 o :=
    fun l l' r o => win64_congr (fun o d => win_congr ((writeHosts_win ..).trans (writeHosts_win ..)) o d) o
  have C := ringCount_does k data.length
  refine ⟨?_, ?_, ?_⟩
  · rw [(C _).1, ringAdvance_count _ _ _ _ (by decide), q]
  · rw [(C _).2.1, ringAdvance_count _ _ _ _ (by decide), q]
  · rw [(C _).2.2, ringAdvance_count _ _ _ _ (by decide), q]

theorem hostDone_win (n : Nat) (f : IFrame) (w : Wall) : (hostDone n f w).win = w.win ∧ (hostDone n f w).hst = w.hst ∧ (hostDone n f w).out = w.out := by
  have k := hostDone_keep n f w
  exact ⟨k.win (by decide), k.hst.same (by decide), k.out (by decide)⟩

theorem ring_congr {x w : Wall} (h : x.hst = w.hst) (k : Nat) : x.ring k = w.ring k := by unfold Wall.ring; rw [h]

theorem setWin64_rest (o n : Nat) (w : Wall) : (w.setWin64 o n).hst = w.hst ∧ (w.setWin64 o n).out = w.out := ⟨rfl, rfl⟩

theorem bump64_rest (o n : Nat) (w : Wall) : (bump64 o n w).hst = w.hst ∧ (bump64 o n w).out = w.out := setWin64_rest ..

theorem setRing_win64 (k : Nat) (r : RingRt) (w : Wall) (o : Nat) : (w.setRing k r).win64 o = w.win64 o := rfl

theorem deliverDrop_does (k n o : Nat) (f : IFrame) (r : RingRt) (w : Wall) :
    (hostDone n f (bump64 o 1 (w.setRing k r))).win64 o = (w.win64 o + 1) % 2 ^ 64 ∧
    (hostDone n f (bump64 o 1 (w.setRing k r))).ring k = r ∧ (hostDone n f (bump64 o 1 (w.setRing k r))).out = w.out := by
  have D := hostDone_win n f (bump64 o 1 (w.setRing k r))
  refine ⟨?_, ?_, D.2.2.trans (bump64_rest ..).2⟩
  · rw [win64_congr (win_congr D.1), bump64_same, setRing_win64]
  · rw [ring_congr (D.2.1.trans (bump64_rest ..).1), ring_set_same]

theorem deliverTake_does {k n : Nat} {f : IFrame} {r : RingRt} {d : List Byte} {e a b c : Nat} (w : Wall) (hb : 0x200000 ≤ ringBlk k) :
    let x := pumpRings (hostDone n f (stat a b c (deliverRx k d e (w.setRing k r))))
    x.win64 (ringBlk k + 0x50) = (w.win64 (ringBlk k + 0x50) + 1) % 2 ^ 64 ∧ x.win64 (ringBlk k + 0x58) = (w.win64 (ringBlk k + 0x58) + d.length) % 2 ^ 64 ∧
      x.win64 (ringBlk k + 0x60) = w.win64 (ringBlk k + 0x60) := by
  intro x
  have q : ∀ (x : Wall) (j : Nat), (pumpRings (hostDone n f (stat a b c x))).win64 (ringBlk k + j) = x.win64 (ringBlk k + j) := fun x j => by
    unfold Wall.win64
    rw [ringAside.pump (.inr (by omega)), ringAside.pump (.inr (by omega)), win_congr (hostDone_win ..).1, win_congr (hostDone_win ..).1]
    rfl
  have R := deliverRx_does k d e (w.setRing k r)
  refine ⟨(q ..).trans ?_, (q ..).trans ?_, (q ..).trans ?_⟩
  · rw [R.1, setRing_win64]
  · rw [R.2.1, setRing_win64]
  · rw [R.2.2, setRing_win64]

theorem bit_setBit_other {x i n m : Nat} (h : n < m) (hn : n ≠ i) : bit (setBit x i % 2 ^ m) n = bit x n := by
  unfold bit setBit
  rw [Nat.testBit_mod_two_pow, Nat.testBit_or, Nat.testBit_two_pow_of_ne (Ne.symm hn)]
  simp [h]

theorem bit_clrBit_other {x i n m : Nat} (h : n < m) (hn : n ≠ i) : bit (clrBit x i % 2 ^ m) n = bit x n := by
  rw [← clrBit_other x i n (Ne.symm hn)]
  unfold bit
  rw [Nat.testBit_mod_two_pow]
  simp [h]

theorem hostEvent_get (s : Nat) (w : Wall) {o : Reg} (h : o.key ≠ (Reg.bhTaken 17).key) : (hostEvent s w).get o = w.get o := by
  unfold hostEvent
  rw [get_vecEvent, get_bump_other _ _ _ _ h]

theorem when_event_get (c : Bool) (s : Nat) (w : Wall) {o : Reg} (h : o.key ≠ (Reg.bhTaken 17).key) : (when c (hostEvent s) w).get o = w.get o := by
  cases c
  · rfl
  · exact hostEvent_get s w h

theorem hostEnable_fold (v : Nat) (l : List Nat) (hl : ∀ n ∈ l, n < 29) (w : Wall) :
    let x := l.foldl (fun w s =>
      let w := if bit v s then w.setBitR (Reg.bhEnable 17) s else w.clrBitR (Reg.bhEnable 17) s
      when (bit v s && bit (w.get (Reg.bhPending 17)) s) (hostEvent s) w) w
    x.get (Reg.bhPending 17) = w.get (Reg.bhPending 17) ∧
      ∀ n, n < 29 → bit (x.get (Reg.bhEnable 17)) n = if n ∈ l then bit v n else bit (w.get (Reg.bhEnable 17)) n := by
  induction l generalizing w with
  | nil => exact ⟨rfl, fun n _ => rfl⟩
  | cons s l ih =>
    dsimp only
    rw [List.foldl_cons]
    obtain ⟨p, e⟩ := ih (fun n hn => hl n (List.mem_cons_of_mem _ hn)) (when (bit v s && bit ((if bit v s = true then w.setBitR (Reg.bhEnable 17) s else w.clrBitR (Reg.bhEnable 17) s).get (Reg.bhPending 17)) s) (hostEvent s)
      (if bit v s = true then w.setBitR (Reg.bhEnable 17) s else w.clrBitR (Reg.bhEnable 17) s))
    refine ⟨p.trans ?_, fun n hn => (e n hn).trans ?_⟩
    · rw [when_event_get _ _ _ (by decide)]
      split
      · exact get_setBitR_other _ _ _ _ (by decide)
      · exact get_clrBitR_other _ _ _ _ (by decide)
    · rw [when_event_get _ _ _ (by decide)]
      by_cases hm : n ∈ l
      · rw [if_pos hm, if_pos (List.mem_cons_of_mem _ hm)]
      · rw [if_neg hm]
        by_cases hs : n = s
        · subst hs
          rw [if_pos List.mem_cons_self]
          cases hb : bit v n
          · rw [if_neg (by decide), get_clrBitR_same]; exact bit_clrBit ..
          · rw [if_pos rfl, get_setBitR_same]; exact bit_setBit_mod _ _ _ (show n < 128 by omega)
        · rw [if_neg (show n ∉ s :: l by simp [hs, hm])]
          split
          · rw [get_setBitR_same]; exact bit_setBit_other (show n < 128 by omega) hs
          · rw [get_clrBitR_same]; exact bit_clrBit_other (show n < 128 by omega) hs

theorem hostClear_step (v s : Nat) (hs : s < 29) (w : Wall) :
    let x := if bit v s && bit (w.get (Reg.bhPending 17)) s then
        let w := w.clrBitR (Reg.bhPending 17) s
        when (isLevel 17 s && levelHigh 17 s w) (setLatch 17 s) w
      else w
    x.get (Reg.bhEnable 17) = w.get (Reg.bhEnable 17) ∧ x.stw = w.stw ∧
      ∀ n, n < 29 → bit (x.get (Reg.bhPending 17)) n = if n = s then bit (w.get (Reg.bhPending 17)) n && (!bit v n || (isLevel 17 n && levelHigh 17 n w))
        else bit (w.get (Reg.bhPending 17)) n := by
  intro x
  have lat : ∀ y : Wall, (setLatch 17 s y).get (Reg.bhEnable 17) = y.get (Reg.bhEnable 17) ∧ (setLatch 17 s y).stw = y.stw ∧
      (setLatch 17 s y).get (Reg.bhPending 17) = setBit (y.get (Reg.bhPending 17)) s % 2 ^ 128 := fun y => by
    refine ⟨?_, setLatch_stw .., ?_⟩
    · unfold setLatch
      dsimp only
      rw [when_event_get _ _ _ (by decide), get_setBitR_other _ _ _ _ (by decide)]
    · unfold setLatch
      dsimp only
      rw [when_event_get _ _ _ (by decide), get_setBitR_same]
      rfl
  have cl : levelHigh 17 s (w.clrBitR (Reg.bhPending 17) s) = levelHigh 17 s w := rfl
  by_cases hb : (bit v s && bit (w.get (Reg.bhPending 17)) s) = true
  · have hx : x = when (isLevel 17 s && levelHigh 17 s w) (setLatch 17 s) (w.clrBitR (Reg.bhPending 17) s) := if_pos hb
    rw [Bool.and_eq_true] at hb
    cases hl : (isLevel 17 s && levelHigh 17 s w) with
    | false =>
      rw [hl, when_false] at hx
      rw [hx]
      refine ⟨get_clrBitR_other _ _ _ _ (by decide), rfl, fun n hn => ?_⟩
      rw [get_clrBitR_same]
      split
      · rename_i e; subst e
        rw [hb.1, hb.2, hl]
        exact bit_clrBit ..
      · exact bit_clrBit_other (show n < 128 by omega) ‹_›
    | true =>
      rw [hl, when_true] at hx
      rw [hx]
      refine ⟨(lat _).1.trans (get_clrBitR_other _ _ _ _ (by decide)), (lat _).2.1, fun n hn => ?_⟩
      rw [(lat _).2.2]
      split
      · rename_i e; subst e
        rw [hb.1, hb.2, hl]
        exact bit_setBit_mod _ _ _ (show n < 128 by omega)
      · rw [bit_setBit_other (by omega) ‹_›, get_clrBitR_same]
        exact bit_clrBit_other (show n < 128 by omega) ‹_›
  · have hx : x = w := if_neg hb
    rw [hx]
    refine ⟨rfl, rfl, fun n hn => ?_⟩
    split
    · rename_i e; subst e
      cases h1 : bit v n <;> cases h2 : bit (w.get (Reg.bhPending 17)) n <;> simp_all
    · rfl

theorem hostClear_fold (v : Nat) (l : List Nat) (hl : ∀ n ∈ l, n < 29) (w : Wall) :
    let x := l.foldl (fun w s =>
      if bit v s && bit (w.get (Reg.bhPending 17)) s then
        let w := w.clrBitR (Reg.bhPending 17) s
        when (isLevel 17 s && levelHigh 17 s w) (setLatch 17 s) w
      else w) w
    x.get (Reg.bhEnable 17) = w.get (Reg.bhEnable 17) ∧
      ∀ n, n < 29 → bit (x.get (Reg.bhPending 17)) n = if n ∈ l then bit (w.get (Reg.bhPending 17)) n && (!bit v n || (isLevel 17 n && levelHigh 17 n w))
        else bit (w.get (Reg.bhPending 17)) n := by
  induction l generalizing w with
  | nil => exact ⟨rfl, fun n _ => rfl⟩
  | cons s l ih =>
    dsimp only
    rw [List.foldl_cons]
    obtain ⟨a, b, c⟩ := hostClear_step v s (hl s List.mem_cons_self) w
    dsimp only at a b c
    generalize (if (bit v s && bit (w.get (Reg.bhPending 17)) s) = true then _ else w) = y at a b c ⊢
    obtain ⟨p, e⟩ := ih (fun n hn => hl n (List.mem_cons_of_mem _ hn)) y
    refine ⟨p.trans a, fun n hn => (e n hn).trans ?_⟩
    have lv : levelHigh 17 n y = levelHigh 17 n w := by unfold levelHigh; rw [b]
    rw [c n hn, lv]
    by_cases hm : n ∈ l
    · rw [if_pos hm, if_pos (List.mem_cons_of_mem _ hm)]
      split
      · cases bit (w.get (Reg.bhPending 17)) n <;> cases (!bit v n || (isLevel 17 n && levelHigh 17 n w)) <;> rfl
      · rfl
    · rw [if_neg hm]
      by_cases hs : n = s
      · rw [if_pos hs, if_pos (by simp [hs])]
      · rw [if_neg hs, if_neg (by simp [hs, hm])]

theorem millState_aside (sp : Nat) : Aside (Reg.millState sp) := by
  unfold Aside Reg.millState
  dsimp only
  omega

theorem setMillState_get (sp v : Nat) (w : Wall) (h : v < 256) : (setMillState sp v w).get (Reg.millState sp) = v := by
  unfold setMillState
  split
  · assumption
  · rw [(millState_aside sp).latch (by decide), get_set_same]
    exact Nat.mod_eq_of_lt h

theorem setMillState_rest (sp v : Nat) (w : Wall) : (setMillState sp v w).hst.mills = w.hst.mills ∧ (setMillState sp v w).win = w.win := by
  have k := setMillState_keep sp v w
  exact ⟨k.hst.mills (by decide), k.win (by decide)⟩

theorem mill_congr {x w : Wall} (h : x.hst.mills = w.hst.mills) (b : Nat) : x.mill b = w.mill b := by unfold Wall.mill; rw [h]

theorem ringError_stops (k c : Nat) (w : Wall) (hc : c < 16) : ringRuns k (ringError k c w) = false ∧ (ringError k c w).hst.mills = w.hst.mills := by
  refine ⟨?_, (ringError_keep k c w).hst.mills (by decide)⟩
  unfold ringRuns ringStatus ringError
  dsimp only
  rw [win_congr (latch_win ..)]
  unfold setRingStatus
  rw [win32_set_eq]
  unfold bit
  rw [Nat.testBit_eq_decide_div_mod_eq, decide_eq_false_iff_not]
  omega

theorem foldBytes_get (b d : Nat) (w : Wall) {o : Reg} (h : o.key ≠ (Reg.cvFoldSeq b).key) : (foldBytes b d w).2.get o = w.get o := by
  unfold foldBytes
  split
  · rfl
  · exact get_bump_other _ _ _ _ h
  · rfl

theorem cvUnit_does (b : Nat) (f : MillFrame) (w : Wall) : let p := w.get (Reg.cvPoly b) % 4
    let n := cvWidth p
    let op := bits f.desc 114 113
    let start := if bit f.desc 112 then bits f.desc 191 128 % 256 ^ n else if w.flag (Reg.cvChain b) then w.get (Reg.cvRunning b) % 256 ^ n else cvInit p
    let body := if op = 2 ∧ n < f.bytes.length then f.bytes.take (f.bytes.length - n) else f.bytes
    let g := (cvUnit b f w).1
    g.value = cvFinal p (crcReg (cvPolyRef p) start ((foldBytes b f.desc w).1 ++ body)) ∧
      g.bytes = (if op = 1 then body ++ toLe n g.value else body) ∧
      (g.bad = true ↔ op = 2 ∧ (f.bytes.length ≤ n ∨ ofLe (f.bytes.drop (f.bytes.length - n)) ≠ g.value)) ∧
      (cvUnit b f w).2.get (Reg.cvFrames b) = (w.get (Reg.cvFrames b) + 1) % 2 ^ 64 ∧
      (cvUnit b f w).2.get (Reg.millBytes b) = (w.get (Reg.millBytes b) + f.bytes.length) % 2 ^ 64 := by
  intro p n op start body g
  have eb : (if (op == 2 && decide (n < f.bytes.length)) = true then f.bytes.take (f.bytes.length - n) else f.bytes) = body := by
    show _ = if op = 2 ∧ n < f.bytes.length then _ else _
    by_cases h : op = 2 ∧ n < f.bytes.length
    · rw [if_pos h, if_pos (by simp [h])]
    · rw [if_neg h, if_neg (by simpa using h)]
  have ev : g.value = cvFinal p (crcReg (cvPolyRef p) start ((foldBytes b f.desc w).1 ++ body)) := by
    rw [← eb]; rfl
  refine ⟨ev, ?_, ?_, ?_, ?_⟩
  · rw [ev, ← eb]; rfl
  · have : g.bad = (op == 2 && (!(op == 2 && decide (n < f.bytes.length)) || ofLe (f.bytes.drop (f.bytes.length - n)) != g.value)) := rfl
    rw [this]
    by_cases h : op = 2
    · simp [h]
    · simp [h]
  · show Wall.get (Wall.bump (Wall.bump (Wall.set _ _ _) _ _) _ _) _ = _
    rw [get_bump_other _ _ _ _ (by unfold Reg.cvFrames Reg.millBytes; dsimp only; omega), get_bump_same,
      get_set_other _ _ _ _ (by unfold Reg.cvFrames Reg.cvRunning; dsimp only; omega), foldBytes_get _ _ _ (by unfold Reg.cvFrames Reg.cvFoldSeq; dsimp only; omega)]
    rfl
  · show Wall.get (Wall.bump (Wall.bump (Wall.set _ _ _) _ _) _ _) _ = _
    rw [get_bump_same, get_bump_other _ _ _ _ (by unfold Reg.cvFrames Reg.millBytes; dsimp only; omega),
      get_set_other _ _ _ _ (by unfold Reg.millBytes Reg.cvRunning; dsimp only; omega), foldBytes_get _ _ _ (by unfold Reg.millBytes Reg.cvFoldSeq; dsimp only; omega)]
    rfl

theorem millFrame_eq {b sp : Nat} {f : MillFrame} {l : List MillFrame} {w : Wall} (h1 : millSp b w = some sp) (h2 : (w.mill b).waiting = f :: l)
    (h3 : w.get (Reg.millState sp) ≠ 4) (h4 : ((w.mill b).loop.map fun f => f.bytes.length).sum + f.bytes.length + 8 ≤ 65536) :
    ∃ x, millFrame b w = pumpRings (txComplete x f.first f.count f.desc 0 f.bytes.length 0 (cvUnit b f w).1.value
      (subHostOcc (sp / 8) (chunksOf f.bytes.length) ((cvUnit b f w).2.setMill b { w.mill b with waiting := l, loop := (w.mill b).loop ++ [(cvUnit b f w).1] }))) := by
  unfold millFrame
  rw [h1]
  dsimp only
  rw [h2]
  dsimp only
  rw [if_neg (by rintro (h | h) <;> omega)]
  exact ⟨_, rfl⟩

/-- An object of a brick's programmable counters. -/
abbrev PcReg (o : Reg) : Prop := 0x2100 ≤ o.key / 256 ∧ o.key / 256 < 0x2200

theorem PcReg.latch {o : Reg} (h : PcReg o) {u s : Nat} {w : Wall} (hu : u ≤ 17) : (latch u s w).get o = w.get o := by
  unfold PcReg at h
  refine get_latch _ _ _ _ ?_ ?_ fun _ => ?_ <;> (try unfold Reg.bhPending) <;> (try unfold Reg.bhCoalesced) <;> (try unfold Reg.bhTaken) <;> dsimp only <;> omega

theorem PcReg.sample {o : Reg} (h : PcReg o) {u t : Nat} {w : Wall} : (takeSample u t w).get o = w.get o := by
  have h1 : o.key ≠ Reg.samplesLost.key := by unfold PcReg at h; unfold Reg.samplesLost; dsimp only; omega
  have h2 : o.key ≠ Reg.samplesHeld.key := by unfold PcReg at h; unfold Reg.samplesHeld; dsimp only; omega
  unfold takeSample
  split
  · rfl
  · split
    · exact get_bump_other _ _ _ _ h1
    · dsimp only
      unfold when
      split
      · rw [h.latch (by decide), get_bump_other _ _ _ _ h2]; rfl
      · rw [get_bump_other _ _ _ _ h2]; rfl

theorem PcReg.wrapped {o : Reg} (h : PcReg o) {b k : Nat} {w : Wall} (hb : b < 16) : (counterWrapped b k w).get o = (w.setBitR (Reg.pcOvf b) k).get o := by
  unfold counterWrapped
  dsimp only
  have s : ∀ (c : Bool) (x : Wall), (when c (takeSample b k) x).get o = x.get o := fun c x => by
    cases c
    · rfl
    · exact h.sample
  have l : ∀ (c : Bool) (x : Wall), (when c (Machine.latch b (16 + k)) x).get o = x.get o := fun c x => by
    cases c
    · rfl
    · exact h.latch (by omega)
  rw [s, l]

theorem pcOvf_reg {b : Nat} (h : b < 16) : PcReg (Reg.pcOvf b) := by unfold PcReg Reg.pcOvf; dsimp only; omega

theorem pcValue_reg {b k : Nat} (h : b < 16) (hk : k < 255) : PcReg (Reg.pcValue b k) := by unfold PcReg Reg.pcValue; dsimp only; omega

theorem pcBump_get {o : Reg} (h : PcReg o) {b k n : Nat} {w : Wall} (hb : b < 16) (h1 : o.key ≠ (Reg.pcValue b k).key) (h2 : o.key ≠ (Reg.pcOvf b).key) :
    (pcBump b k n w).get o = w.get o := by
  unfold pcBump
  dsimp only
  unfold when
  split
  · rw [h.wrapped hb, get_setBitR_other _ _ _ _ h2, get_set_other _ _ _ _ h1]
  · exact get_set_other _ _ _ _ h1

theorem pcBump_value {b k n : Nat} {w : Wall} (hb : b < 16) (hk : k < 255) : (pcBump b k n w).get (Reg.pcValue b k) = (w.get (Reg.pcValue b k) + n) % 2 ^ 48 := by
  have ho : (Reg.pcValue b k).key ≠ (Reg.pcOvf b).key := by unfold Reg.pcValue Reg.pcOvf; dsimp only; omega
  have e : (w.set (Reg.pcValue b k) ((w.get (Reg.pcValue b k) + n) % 2 ^ 48)).get (Reg.pcValue b k) = (w.get (Reg.pcValue b k) + n) % 2 ^ 48 := by
    rw [get_set_same]
    show _ % 2 ^ 64 = _
    omega
  unfold pcBump
  dsimp only
  unfold when
  split
  · rw [(pcValue_reg hb hk).wrapped hb, get_setBitR_other _ _ _ _ ho, e]
  · exact e

theorem pcBump_ovf {b k n : Nat} {w : Wall} (hb : b < 16) (hk : k < 32) (j : Nat) (h : j = k ∧ 2 ^ 48 ≤ w.get (Reg.pcValue b k) + n ∨ (bit (w.get (Reg.pcOvf b)) j = true ∧ j < 32)) :
    bit ((pcBump b k n w).get (Reg.pcOvf b)) j = true := by
  have hv : (Reg.pcOvf b).key ≠ (Reg.pcValue b k).key := by unfold Reg.pcValue Reg.pcOvf; dsimp only; omega
  unfold pcBump
  dsimp only
  unfold when
  split
  · rw [(pcOvf_reg hb).wrapped hb, get_setBitR_same, get_set_other _ _ _ _ hv]
    by_cases hj : j = k
    · subst hj; exact bit_setBit_mod _ _ _ hk
    · rcases h with ⟨e, -⟩ | ⟨e, e'⟩
      · exact absurd e hj
      · exact (bit_setBit_other (show j < 32 from e') hj).trans e
  · rename_i c
    rw [get_set_other _ _ _ _ hv]
    rcases h with ⟨-, e⟩ | ⟨e, -⟩
    · exact absurd (by simpa using e) c
    · exact e

/-- One sub-port's part of a tally window's end. -/
def tallyOne (p seq : Nat) (partly : Bool) (j : Nat) (w : Wall) : Wall :=
  let sp := p * 8 + j
  let r := tallyRecord (tgetD w.obs.tally sp Tally.init) seq partly
  tallyStart sp ({ w with obs := { w.obs with tallyRecs := tput w.obs.tallyRecs (sp * 16 + seq % 16) r } }.set (Reg.tallySeq sp) seq)

/-- The next tally window of a port takes the next number. -/
def tallyNext (p n : Nat) (x : Wall) : Wall := { x with obs := { x.obs with tallySeq := tput x.obs.tallySeq p n } }

theorem tallyEnd_eq (p : Nat) (b : Bool) (w : Wall) : tallyEnd p b w =
    tallyNext p ((tgetD w.obs.tallySeq p 0 + 1) % 2 ^ 32) (upTo 8 (fun j y => tallyOne p (tgetD w.obs.tallySeq p 0) b j y) w) := by
  unfold tallyEnd tallyNext tallyOne
  rfl

theorem tallyNext_does (p n : Nat) (x : Wall) : (tallyNext p n x).regs = x.regs ∧ (tallyNext p n x).obs.tallyRecs = x.obs.tallyRecs ∧
    (tallyNext p n x).obs.tally = x.obs.tally ∧ tgetD (tallyNext p n x).obs.tallySeq p 0 = n := ⟨rfl, rfl, rfl, tgetD_tput_same ..⟩

theorem tallyOne_other (p seq : Nat) (b : Bool) (j : Nat) (w : Wall) (n : Nat) (hn : n ≠ j) :
    tallyRec (p * 8 + n) (seq % 16) (tallyOne p seq b j w) = tallyRec (p * 8 + n) (seq % 16) w ∧
      (tallyOne p seq b j w).get (Reg.tallySeq (p * 8 + n)) = w.get (Reg.tallySeq (p * 8 + n)) ∧
      tget (tallyOne p seq b j w).obs.tally (p * 8 + n) = tget w.obs.tally (p * 8 + n) := by
  unfold tallyOne tallyStart modTally tallyRec
  refine ⟨?_, ?_, ?_⟩
  · show tgetD (tput w.obs.tallyRecs _ _) _ 0 = _
    exact tgetD_tput_other _ _ _ _ _ (by omega)
  · refine (get_set_other _ (Reg.tallySeq (p * 8 + j)) _ seq ?_).trans rfl
    unfold Reg.tallySeq
    dsimp only
    omega
  · dsimp only
    unfold tmod
    exact (tget_tput_other _ _ _ _ (by omega)).trans rfl

theorem tallyOne_spFlows {p seq : Nat} {b : Bool} {j sp : Nat} {w : Wall} (h : sp < 512) : spFlows sp (tallyOne p seq b j w) = spFlows sp w := by
  have : (tallyOne p seq b j w).get (Reg.spState (sp / 8) (sp % 8)) = w.get (Reg.spState (sp / 8) (sp % 8)) := by
    refine (get_set_other _ (Reg.tallySeq (p * 8 + j)) _ seq ?_).trans rfl
    unfold Reg.tallySeq Reg.spState
    dsimp only
    omega
  unfold spFlows spSt
  rw [this]

theorem tallyOne_same (p seq : Nat) (b : Bool) (j : Nat) (w : Wall) (h : p * 8 + j < 512) :
    tallyRec (p * 8 + j) (seq % 16) (tallyOne p seq b j w) = tallyRecord (tgetD w.obs.tally (p * 8 + j) Tally.init) seq b ∧
      (tallyOne p seq b j w).get (Reg.tallySeq (p * 8 + j)) = seq % 2 ^ 32 ∧
      tget (tallyOne p seq b j w).obs.tally (p * 8 + j) = some { Tally.init with notActive := !spFlows (p * 8 + j) w } := by
  refine ⟨tgetD_tput_same .., get_set_same .., ?_⟩
  unfold tallyOne
  dsimp only
  unfold tallyStart modTally tmod
  dsimp only
  rw [tget_tput_same]
  have : ∀ (o : ObsSt), spFlows (p * 8 + j) (Wall.set { w with obs := o } (Reg.tallySeq (p * 8 + j)) seq) = spFlows (p * 8 + j) w := fun o => by
    unfold spFlows spSt
    rw [get_set_other _ _ _ _ (by unfold Reg.tallySeq Reg.spState; dsimp only; omega)]
    rfl
  rw [this]

theorem tallyFold (p seq : Nat) (b : Bool) (hp : p < 64) (l : List Nat) (nd : l.Nodup) (hl : ∀ j ∈ l, j < 8) (w : Wall) (j : Nat) :
    let x := l.foldl (fun x i => tallyOne p seq b i x) w
    (j ∉ l → tallyRec (p * 8 + j) (seq % 16) x = tallyRec (p * 8 + j) (seq % 16) w ∧ x.get (Reg.tallySeq (p * 8 + j)) = w.get (Reg.tallySeq (p * 8 + j)) ∧
      tget x.obs.tally (p * 8 + j) = tget w.obs.tally (p * 8 + j)) ∧
    (j ∈ l → tallyRec (p * 8 + j) (seq % 16) x = tallyRecord (tgetD w.obs.tally (p * 8 + j) Tally.init) seq b ∧
      x.get (Reg.tallySeq (p * 8 + j)) = seq % 2 ^ 32 ∧ tget x.obs.tally (p * 8 + j) = some { Tally.init with notActive := !spFlows (p * 8 + j) w }) := by
  induction l generalizing w with
  | nil => exact ⟨fun _ => ⟨rfl, rfl, rfl⟩, fun h => absurd h List.not_mem_nil⟩
  | cons i l ih =>
    dsimp only
    rw [List.foldl_cons]
    have hi := hl i List.mem_cons_self
    obtain ⟨a, c⟩ := ih (List.nodup_cons.mp nd).2 (fun j hj => hl j (List.mem_cons_of_mem _ hj)) (tallyOne p seq b i w)
    refine ⟨fun h => ?_, fun h => ?_⟩
    · have o := tallyOne_other p seq b i w j fun e => h (e ▸ List.mem_cons_self)
      have a := a fun e => h (List.mem_cons_of_mem _ e)
      exact ⟨a.1.trans o.1, a.2.1.trans o.2.1, a.2.2.trans o.2.2⟩
    · rcases List.mem_cons.mp h with e | e
      · subst e
        have a := a (List.nodup_cons.mp nd).1
        have o := tallyOne_same p seq b j w (by omega)
        exact ⟨a.1.trans o.1, a.2.1.trans o.2.1, a.2.2.trans o.2.2⟩
      · have hj := hl j h
        have ne : j ≠ i := fun q => (List.nodup_cons.mp nd).1 (q ▸ e)
        have o := tallyOne_other p seq b i w j ne
        obtain ⟨c1, c2, c3⟩ := c e
        rw [tallyOne_spFlows (by omega)] at c3
        have t : tgetD (tallyOne p seq b i w).obs.tally (p * 8 + j) Tally.init = tgetD w.obs.tally (p * 8 + j) Tally.init := by
          unfold tgetD; rw [o.2.2]
        rw [t] at c1
        exact ⟨c1, c2, c3⟩

theorem tallyRec_congr {x w : Wall} (h : x.obs.tallyRecs = w.obs.tallyRecs) (sp k : Nat) : tallyRec sp k x = tallyRec sp k w := by unfold tallyRec; rw [h]

theorem tallyEnd_does (p : Nat) (hp : p < 64) (w : Wall) (n : Nat) (hn : tgetD w.obs.tallySeq p 0 = n) :
    tgetD (tallyEnd p false w).obs.tallySeq p 0 = (n + 1) % 2 ^ 32 ∧ (∀ j, j < 8 →
      tallyRec (p * 8 + j) (n % 16) (tallyEnd p false w) = tallyRecord (tgetD w.obs.tally (p * 8 + j) Tally.init) n false ∧
      (tallyEnd p false w).get (Reg.tallySeq (p * 8 + j)) = n % 2 ^ 32 ∧
      tget (tallyEnd p false w).obs.tally (p * 8 + j) = some { Tally.init with notActive := !spFlows (p * 8 + j) w }) := by
  rw [tallyEnd_eq, hn]
  have F := tallyFold p n false hp (List.range 8) List.nodup_range (fun j => List.mem_range.mp) w
  unfold upTo
  generalize List.foldl _ w _ = x at F ⊢
  generalize (n + 1) % 2 ^ 32 = m
  obtain ⟨e1, e2, e3, e4⟩ := tallyNext_does p m x
  refine ⟨e4, fun j hj => ?_⟩
  obtain ⟨c1, c2, c3⟩ := (F j).2 (List.mem_range.mpr hj)
  exact ⟨(tallyRec_congr e2 _ _).trans c1, (get_congr e1 _).trans c2, (congrArg (fun t => tget t (p * 8 + j)) e3).trans c3⟩

theorem raise_bit {src code d cls n : Nat} {w : Wall} (hn : n < 128) (h7 : n ≠ 7) (h : bit (w.get (Reg.bhPending 17)) n = true) (hc : code = 0x0E08) (hs : cls = 19) :
    bit ((raise src code d cls w).get (Reg.bhPending 17)) n = true := by
  subst hc hs
  have L : ∀ y : Wall, bit (y.get (Reg.bhPending 17)) n = true → bit ((latch 17 7 y).get (Reg.bhPending 17)) n = true := fun y hy => by
    unfold latch setLatch
    split
    · rw [get_bump_other _ _ _ _ (by decide)]; exact hy
    · dsimp only
      rw [when_event_get _ _ _ (by decide), get_setBitR_same]
      exact (bit_setBit_other (show n < 128 from hn) h7).trans hy
  have D : ∀ y : Wall, (deliver src 0x0E08 (nextSrcSeq src w) d 19 y).get (Reg.bhPending 17) = y.get (Reg.bhPending 17) := fun y => by
    unfold deliver
    refine upTo_keeps (fun x : Wall => x.get (Reg.bhPending 17) = y.get (Reg.bhPending 17)) _ _ _ rfl fun k x e => ?_
    rw [← e]
    unfold sendEvent
    split
    · rfl
    · split
      · rfl
      · split
        · exact get_bump_other _ _ _ _ (by decide)
        · split
          · exact get_closeSession ..
          · rfl
  unfold raise eventLatches
  dsimp only
  rw [show ((0x0E08 : Nat) == 0x0B02 || (0x0E08 : Nat) == 0x0B04 || (0x0E08 : Nat) == 0x0B05) = false from by decide, when_false]
  rw [show ((19 : Nat) == 12 || (19 : Nat) == 13 || (19 : Nat) == 14) = false from by decide, Bool.false_and, Bool.false_and, when_false, D]
  unfold daybook dayHighWater
  dsimp only
  have B : ∀ (o : ObsSt) (x : Nat), (Wall.bump { w with obs := o } Reg.dbWritten x).get (Reg.bhPending 17) = w.get (Reg.bhPending 17) := fun o x =>
    (get_bump_other _ _ _ _ (by decide)).trans rfl
  unfold when
  split
  · refine L _ ?_
    rw [B]; exact h
  · rw [B]; exact h

/-- The wall once an audit's result is written and source 5 latched. -/
def auditEnded (sel : Nat) (w : Wall) : Wall :=
  latch 17 5 (({ w with obs := { w.obs with books := none } }.set Reg.booksState 0).set Reg.booksResult
    ((bitList sel 10).foldl (fun a n => a + bookResult (bookOf n w) * 2 ^ (8 * n)) 0))

/-- The first imbalance is reported. -/
def auditFault (d : Option Nat) (w : Wall) : Wall := match d with
  | none => w
  | some d => raise 0 0x0E08 d 19 (latch 17 6 ((w.set Reg.booksDetail d).bump Reg.booksImbalances 1))

/-- A periodic audit that waited starts. -/
def auditNext (due : Bool) (w : Wall) : Wall := if due then booksStart 0x3FF { w with obs := { w.obs with booksDue := false } } else w

theorem booksDone_eq {w : Wall} {sel : Nat} (h : w.obs.books = some sel) : booksDone w =
    auditNext (auditFault ((bitList sel 10).findSome? fun n => (bookFault (bookOf n w)).map fun l => bookDetail n l) (auditEnded sel w)).obs.booksDue
      (auditFault ((bitList sel 10).findSome? fun n => (bookFault (bookOf n w)).map fun l => bookDetail n l) (auditEnded sel w)) := by
  unfold booksDone
  rw [h]
  unfold auditNext auditFault auditEnded
  rfl

theorem latch_bit {n k : Nat} {w : Wall} (hn : n < 128) (h : bit (w.get (Reg.bhPending 17)) n = true ∨ n = k) : bit ((latch 17 k w).get (Reg.bhPending 17)) n = true := by
  by_cases e : n = k
  · subst e
    exact latch_pending _ _ _ hn (by decide) (by decide)
  · have h := h.resolve_right e
    unfold latch setLatch
    split
    · rw [get_bump_other _ _ _ _ (by decide)]; exact h
    · dsimp only
      rw [when_event_get _ _ _ (by decide), get_setBitR_same]
      exact (bit_setBit_other (show n < 128 from hn) e).trans h

theorem auditEnded_does (sel : Nat) (w : Wall) : (auditEnded sel w).obs.books = none ∧ (auditEnded sel w).obs.booksDue = w.obs.booksDue ∧
    (auditEnded sel w).get Reg.booksState = 0 ∧
    (auditEnded sel w).get Reg.booksResult = (bitList sel 10).foldl (fun a n => a + bookResult (bookOf n w) * 2 ^ (8 * n)) 0 % 2 ^ 128 ∧
    bit ((auditEnded sel w).get (Reg.bhPending 17)) 5 = true ∧ (auditEnded sel w).get Reg.booksImbalances = w.get Reg.booksImbalances := by
  have L : ∀ (o : Reg) (y : Wall), Aside o → (latch 17 5 y).get o = y.get o := fun o y h => h.latch (by decide)
  unfold auditEnded
  refine ⟨?_, ?_, ?_, ?_, ?_, ?_⟩
  · rw [latch_obs]; rfl
  · rw [latch_obs]; rfl
  · rw [L _ _ (by decide), get_set_other _ _ _ _ (by decide), get_set_same]; rfl
  · rw [L _ _ (by decide), get_set_same]; rfl
  · exact latch_bit (by decide) (.inr rfl)
  · rw [L _ _ (by decide), get_set_other _ _ _ _ (by decide), get_set_other _ _ _ _ (by decide)]; rfl

theorem raise_obsBooks (a b c d : Nat) (w : Wall) : (raise a b c d w).obs.books = w.obs.books ∧ (raise a b c d w).obs.booksDue = w.obs.booksDue := by
  have k := raise_keep a b c d w
  exact ⟨k.obs.books (by decide), k.obs.booksDue (by decide)⟩

theorem auditFault_does (d : Option Nat) (w : Wall) (h5 : bit (w.get (Reg.bhPending 17)) 5 = true) :
    (auditFault d w).obs.books = w.obs.books ∧ (auditFault d w).obs.booksDue = w.obs.booksDue ∧
    (auditFault d w).get Reg.booksState = w.get Reg.booksState ∧ (auditFault d w).get Reg.booksResult = w.get Reg.booksResult ∧
    bit ((auditFault d w).get (Reg.bhPending 17)) 5 = true ∧
    ∀ x, d = some x → (auditFault d w).get Reg.booksDetail = x % 2 ^ 128 ∧ (auditFault d w).get Reg.booksImbalances = (w.get Reg.booksImbalances + 1) % 2 ^ 32 ∧
      bit ((auditFault d w).get (Reg.bhPending 17)) 6 = true := by
  cases d with
  | none => exact ⟨rfl, rfl, rfl, rfl, h5, fun x h => by cases h⟩
  | some x =>
    unfold auditFault
    dsimp only
    have g : ∀ (o : Reg) (y : Wall), Aside o → (raise 0 0x0E08 x 19 (latch 17 6 y)).get o = y.get o := fun o y h => h.raise.trans (h.latch (by decide))
    have p : (((w.set Reg.booksDetail x).bump Reg.booksImbalances 1)).get (Reg.bhPending 17) = w.get (Reg.bhPending 17) := by
      rw [get_bump_other _ _ _ _ (by decide), get_set_other _ _ _ _ (by decide)]
    have o : ((w.set Reg.booksDetail x).bump Reg.booksImbalances 1).obs = w.obs := rfl
    refine ⟨?_, ?_, ?_, ?_, ?_, fun z hz => ?_⟩
    · rw [(raise_obsBooks ..).1, latch_obs, o]
    · rw [(raise_obsBooks ..).2, latch_obs, o]
    · rw [g _ _ (by decide), get_bump_other _ _ _ _ (by decide), get_set_other _ _ _ _ (by decide)]
    · rw [g _ _ (by decide), get_bump_other _ _ _ _ (by decide), get_set_other _ _ _ _ (by decide)]
    · exact raise_bit (by decide) (by decide) (latch_bit (by decide) (.inl (p ▸ h5))) rfl rfl
    · cases hz
      refine ⟨?_, ?_, ?_⟩
      · rw [g _ _ (by decide), get_bump_other _ _ _ _ (by decide), get_set_same]; rfl
      · rw [g _ _ (by decide), get_bump_same, get_set_other _ _ _ _ (by decide)]; rfl
      · exact raise_bit (by decide) (by decide) (latch_bit (by decide) (.inr rfl)) rfl rfl

theorem auditNext_get (b : Bool) (w : Wall) {o : Reg} (h : o.key ≠ Reg.booksState.key) : (auditNext b w).get o = w.get o := by
  cases b
  · rfl
  · exact (get_set_other _ _ _ _ h).trans rfl

theorem auditNext_does (w : Wall) : (auditNext true w).obs.books = some 0x3FF ∧ (auditNext true w).obs.booksDue = false ∧ (auditNext true w).get Reg.booksState = 1 :=
  ⟨rfl, rfl, get_set_same ..⟩

end Sys2Proof.Machine
end

