-- ==== Sys2Proof/Laws/Macro.lean ====
section
/-! SUPPORT. What the macro-instructions of a sequencer do. -/

open Sys2Proof

namespace Sys2Proof.Machine

theorem reg_setReg_same (r : SeqRt) (d v : Nat) : (r.setReg d v).reg d = v % 2 ^ 32 := tgetD_tputD_same ..

theorem reg_setReg_other (r : SeqRt) (d v i : Nat) (h : i ≠ d) : (r.setReg d v).reg i = r.reg i := tgetD_tputD_other _ _ _ _ _ _ h

/-- computing instruction -/

theorem computes_of {c : Instr} {u op opr : Nat} {f : SeqRt → SeqRt} {s : State} {ds : List Nat} {P : SeqRt → SeqRt → Prop}
    (hu : u ≤ 16) (h : atInstr u s = true) (e : exec c s = actSeq (runOp u op opr f) s)
    (hs : ∀ k, Stepped (s.w.seq u) { f (fetched op opr (s.w.seq u)) with macroCount := k })
    (hc : sameCtl (s.w.seq u) (f (fetched op opr (s.w.seq u))))
    (hr : ∀ i, i ∉ ds → (f (fetched op opr (s.w.seq u))).reg i = (s.w.seq u).reg i)
    (hp : ∀ k, P (s.w.seq u) { f (fetched op opr (s.w.seq u)) with macroCount := k }) : Computes c u ds s P := by
  obtain ⟨k, t, e', o, q⟩ := runOp_does (op := op) (opr := opr) (f := f) hu h
  refine ⟨t, e.trans e', o, ?_, ?_, ?_, ?_⟩ <;> rw [q]
  · exact hs k
  · exact hc
  · exact hr
  · exact hp k

theorem isN_eq (v : Nat) : isN v = decide (2 ^ 31 ≤ v % 2 ^ 32) := by
  unfold isN bit
  rw [Nat.testBit_eq_decide_div_mod_eq]
  congr 1
  apply propext
  omega

theorem sadd (a b : Nat) : (toInt 32 ((a + b) % 2 ^ 32) ≠ toInt 32 a + toInt 32 b) ↔ ¬ fits32 (toInt 32 a + toInt 32 b) := by
  unfold fits32 toInt
  split <;> split <;> split <;> omega

theorem ssub (a b : Nat) : (toInt 32 ((a + 2 ^ 32 - b % 2 ^ 32) % 2 ^ 32) ≠ toInt 32 a - toInt 32 b) ↔ ¬ fits32 (toInt 32 a - toInt 32 b) := by
  unfold fits32 toInt
  split <;> split <;> split <;> omega

theorem subv (a b : Nat) : (a + 2 ^ 32 - b % 2 ^ 32) % 2 ^ 32 = ofInt 32 ((a : Int) - b) := by
  unfold ofInt; omega

theorem smallI (i : Fin 16) : toInt 32 i.val = (i.val : Int) := by
  unfold toInt
  have := i.isLt
  split <;> omega

section

variable (r : SeqRt) (d : Nat) (a : Alu)

theorem alu_reg (op opr : Nat) (k : Nat) (h : a.val < 2 ^ 32) :
  ({ (SeqRt.setReg (fetched op opr r) d a.val).setFlags a with macroCount := k } : SeqRt).reg d = a.val :=
  (reg_setReg_same (fetched _ _ _) _ _).trans (Nat.mod_eq_of_lt h)
end

theorem alu_ok {c : Instr} {u op opr d : Nat} {s : State} {a : Alu} {f : SeqRt → SeqRt} {P : SeqRt → SeqRt → Prop}
    (hu : u ≤ 16) (h : atInstr u s = true) (e : exec c s = actSeq (runOp u op opr f) s)
    (hf : f (fetched op opr (s.w.seq u)) = ((fetched op opr (s.w.seq u)).setReg d a.val).setFlags a)
    (hp : ∀ r', r'.reg d = a.val % 2 ^ 32 → r'.z = a.z → r'.n = a.n → r'.c = a.c → r'.v = a.v → P (s.w.seq u) r') :
    Computes c u [d] s P := by
  refine computes_of hu h e ?_ ?_ ?_ ?_ <;> rw [hf]
  · intro k; exact ⟨⟨rfl, rfl, rfl, rfl, rfl, rfl, rfl, rfl⟩, rfl, rfl, rfl, rfl, rfl⟩
  · exact ⟨rfl, rfl, rfl⟩
  · intro i hi; exact reg_setReg_other (fetched _ _ _) _ _ _ (by simpa using hi)
  · intro k; exact hp _ (reg_setReg_same (fetched _ _ _) _ _) rfl rfl rfl rfl

theorem word_setWord (r : SeqRt) (d v i : Nat) : (r.setWord d v).word i = if i = d then v % 2 ^ 32 else r.word i := by
  split
  · subst i; exact tgetD_tputD_same ..
  · exact tgetD_tputD_other _ _ _ _ _ _ ‹_›

theorem onlySeq_completed {u : Nat} {s : State} {x : Wall} {r : SeqRt} (hu : u ≤ 16) (hx : Keep 0x100000000000000000000000000000000000001 s.w x)
    (hs : x.stw.seqs = s.w.stw.seqs) :
    OnlySeq u s { s with w := completed u (x.setSeq u r) } ∧ ∃ k, (completed u (x.setSeq u r)).seq u = { r with macroCount := k } := by
  obtain ⟨k, hk⟩ := completed_seq u (x.setSeq u r)
  have c := completed_keep u (x.setSeq u r)
  refine ⟨?_, k, ?_⟩
  · constructor
    · rfl
    · rfl
    · intro n hn
      exact (hk n).trans ((if_neg hn).trans ((seq_setSeq_other _ _ _ _ hn).trans (seq_congr hs n)))
    · exact (c.time.same (by decide)).trans (hx.time.same (by decide))
    · exact (c.bnd.same (by decide)).trans (hx.bnd.same (by decide))
    · exact (c.led.same (by decide)).trans (hx.led.same (by decide))
    · exact (c.lan.same (by decide)).trans (hx.lan.same (by decide))
    · exact (c.prt.same (by decide)).trans (hx.prt.same (by decide))
    · exact (c.ing.same (by decide)).trans (hx.ing.same (by decide))
    · exact (c.egr.same (by decide)).trans (hx.egr.same (by decide))
    · exact (c.sec.same (by decide)).trans (hx.sec.same (by decide))
    · exact (c.gra.same (by decide)).trans (hx.gra.same (by decide))
    · exact (completed_hst hu _).trans (hx.hst.same (by decide))
    · exact (c.win (by decide)).trans (hx.win (by decide))
    · exact (c.out (by decide)).trans (hx.out (by decide))
  · have := hk u
    rwa [if_pos rfl, seq_setSeq_same] at this

theorem at1 {u : Nat} {s : State} (h : atInstr u s = true) : awake s.mode s.w = true ∧ (seqRuns s.mode u s.w && !seqIdle u s.w) = true := by
  unfold atInstr at h
  simp only [Bool.and_eq_true] at h ⊢
  exact ⟨h.1.1, h.1.2, h.2⟩

theorem nofault_completed {u : Nat} {x : Wall} {m : Mode} (h : x.stw.reeveFault = false) :
    settleFault m (completed u x) = (m, completed u x) := by
  unfold settleFault
  rw [(completed_keep u x).stw.reeveFault (by decide), h]
  rfl

theorem runOpF_does {u op opr cause : Nat} {f : SeqRt → Option SeqRt} {s : State} {r : SeqRt} (hu : u ≤ 16) (h : atInstr u s = true)
    (hn : noFault s) (hf : f (fetched op opr (s.w.seq u)) = some r) :
    ∃ k t, actSeqF (runOpF u op opr cause f) s = .next t ∧ OnlySeq u s t ∧ t.w.seq u = { r with macroCount := k } := by
  obtain ⟨h1, h2⟩ := at1 h
  obtain ⟨o, k, hk⟩ := onlySeq_completed (r := r) (x := s.w) hu Keep.refl rfl
  refine ⟨k, _, ?_, o, hk⟩
  unfold actSeqF actMove runOpF
  dsimp only
  rw [if_pos h1, if_pos h2, hf]
  dsimp only
  rw [nofault_completed (x := s.w.setSeq u r) hn]

theorem runOp_does' {u op opr : Nat} {f : SeqRt → SeqRt} {s : State} (hu : u ≤ 16) (h : atInstr u s = true) :
    ∃ k t, actSeq (runOp u op opr f) s = .next t ∧ OnlySeq u s t ∧
      t.w.seq u = { f (fetched op opr (s.w.seq u)) with macroCount := k } := runOp_does hu h

theorem branchTo_eq (a : Nat) (off : Byte) : ((branchTo a off : Nat) : Int) = ((a : Int) + off.toInt) % 4096 := by
  unfold branchTo
  split <;> omega

theorem jumps_of {c : Instr} {u op opr : Nat} {f : SeqRt → SeqRt} {s : State} {P : SeqRt → SeqRt → Prop}
    (hu : u ≤ 16) (h : atInstr u s = true) (e : exec c s = actSeq (runOp u op opr f) s)
    (hf : ∃ a st, f (fetched op opr (s.w.seq u)) = { fetched op opr (s.w.seq u) with mpc := a, stack := st } ∧
      ∀ r', r'.mpc = a → r'.stack = st → P (s.w.seq u) r') : Jumps c u s P := by
  obtain ⟨a, st, hf, hp⟩ := hf
  obtain ⟨k, t, e', o, q⟩ := runOp_does (op := op) (opr := opr) (f := f) hu h
  rw [hf] at q
  refine ⟨t, e.trans e', o, ?_, ?_, ?_, ?_, ?_, ?_, ?_⟩ <;> rw [q]
  · exact ⟨rfl, rfl, rfl, rfl, rfl, rfl, rfl, rfl⟩
  · exact ⟨rfl, rfl, rfl, rfl⟩
  · exact ⟨rfl, rfl, rfl⟩
  · rfl
  · rfl
  · rfl
  · exact hp _ rfl rfl

theorem jumpsF_of {c : Instr} {u op opr cause : Nat} {f : SeqRt → Option SeqRt} {s : State} {P : SeqRt → SeqRt → Prop}
    (hu : u ≤ 16) (h : atInstr u s = true) (hn : noFault s) (e : exec c s = actSeqF (runOpF u op opr cause f) s)
    (hf : ∃ a st, f (fetched op opr (s.w.seq u)) = some { fetched op opr (s.w.seq u) with mpc := a, stack := st } ∧
      ∀ r', r'.mpc = a → r'.stack = st → P (s.w.seq u) r') : Jumps c u s P := by
  obtain ⟨a, st, hf, hp⟩ := hf
  obtain ⟨k, t, e', o, q⟩ := runOpF_does (op := op) (opr := opr) (cause := cause) (f := f) hu h hn hf
  refine ⟨t, e.trans e', o, ?_, ?_, ?_, ?_, ?_, ?_, ?_⟩ <;> rw [q]
  · exact ⟨rfl, rfl, rfl, rfl, rfl, rfl, rfl, rfl⟩
  · exact ⟨rfl, rfl, rfl, rfl⟩
  · exact ⟨rfl, rfl, rfl⟩
  · rfl
  · rfl
  · rfl
  · exact hp _ rfl rfl

theorem key_ne (u : Nat) (hu : u < 16) : (Reg.stState u).key ≠ (Reg.bhPending 16).key ∧ (Reg.stState u).key ≠ (Reg.bhCoalesced 16).key ∧
   (Reg.bhEnable u).key ≠ (Reg.bhPending 16).key ∧ (Reg.bhEnable u).key ≠ (Reg.bhCoalesced 16).key ∧ (Reg.bhEnable u).key ≠ (Reg.stState u).key := by
  simp only [Reg.stState, Reg.bhPending, Reg.bhCoalesced, Reg.bhEnable]
  omega

theorem seqFault_steward {u cause : Nat} {w : Wall} (hu : u < 16) :
    tget (seqFault u cause w).stw.restarting u = some cause ∧ (seqFault u cause w).get (Reg.stState u) = 3 ∧
      (seqFault u cause w).get (Reg.bhEnable u) = 0 ∧ ((seqFault u cause w).seq u).stack = [] ∧ ((seqFault u cause w).seq u).ie = false := by
  obtain ⟨e1, e2, e3, e4, e5⟩ := key_ne u hu
  unfold seqFault stewardStop
  rw [if_pos hu]
  dsimp only
  have hs : ∀ x : Wall, (latch 16 (32 + u) x).stw = x.stw := fun x => latch_stw ..
  refine ⟨?_, ?_, ?_, ?_, ?_⟩
  · rw [hs]; exact tget_tput_same ..
  · rw [get_latch _ _ _ _ e1 e2 (by intro h; cases h)]
    unfold Wall.get
    dsimp only
    exact (get_set_same ..).trans rfl
  · rw [get_latch _ _ _ _ e3 e4 (by intro h; cases h)]
    unfold Wall.get
    dsimp only
    exact (get_set_other _ _ _ _ e5).trans ((get_set_same ..).trans rfl)
  · have : ∀ x : Wall, (latch 16 (32 + u) x).seq u = x.seq u := fun x => seq_congr (by rw [hs]) u
    rw [this]
    show ((Wall.setSeq _ _ _).seq u).stack = []
    rw [seq_setSeq_same]
  · have : ∀ x : Wall, (latch 16 (32 + u) x).seq u = x.seq u := fun x => seq_congr (by rw [hs]) u
    rw [this]
    show ((Wall.setSeq _ _ _).seq u).ie = false
    rw [seq_setSeq_same]

theorem restart_spec (cause : Nat) (m : Mode) (w : Wall) : (restart cause m w).1 = .kindle ∧ (restart cause m w).2.bnd.fetchDue = true := ⟨rfl, rfl⟩

theorem faults_of {c : Instr} {u cause : Nat} {s : State} {f : Mode → Wall → Wall} {w : Wall} (h : atInstr u s = true) (hn : w.stw.reeveFault = false)
    (e : exec c s = actSeqF f s) (hf : f s.mode s.w = seqFault u cause w) : Faults c u cause s := by
  obtain ⟨h1, h2⟩ := at1 h
  have e2 : exec c s = .next { s with mode := (settleFault s.mode (seqFault u cause w)).1, w := (settleFault s.mode (seqFault u cause w)).2 } := by
    rw [e]; unfold actSeqF actMove; dsimp only; rw [if_pos h1, hf]
  refine ⟨_, e2, ?_, ?_⟩
  · intro hu
    have k : (seqFault u cause w).stw.reeveFault = false := by
      unfold seqFault stewardStop
      rw [if_pos hu]
      dsimp only
      rw [latch_stw]
      exact hn
    have k2 : settleFault s.mode (seqFault u cause w) = (s.mode, seqFault u cause w) := by unfold settleFault; rw [k]; rfl
    dsimp only
    rw [k2]
    obtain ⟨a, b, c, d, e⟩ := seqFault_steward (cause := cause) (w := w) hu
    exact ⟨rfl, a, b, c, d, e⟩
  · intro hu hm
    subst hu
    have k1 : (seqFault 16 cause w).stw.reeveFault = true := rfl
    have k2 : ∃ x, settleFault s.mode (seqFault 16 cause w) = restart 16 s.mode x := by
      generalize seqFault 16 cause w = y at k1
      unfold settleFault reeveRestart
      rw [if_pos k1]
      rcases hm with hm | hm <;> rw [hm] <;> exact ⟨_, rfl⟩
    obtain ⟨x, k2⟩ := k2
    dsimp only
    rw [k2]
    exact restart_spec _ _ _

theorem settle_ok {m : Mode} {w : Wall} (h : w.stw.reeveFault = false) : settleFault m w = (m, w) := by
  unfold settleFault; rw [h]; rfl

theorem completed_at {u : Nat} (w : Wall) (r : SeqRt) : ∃ k, (completed u (w.setSeq u r)).seq u = { r with macroCount := k } := by
  obtain ⟨k, hk⟩ := completed_seq u (w.setSeq u r)
  have := hk u
  rw [if_pos rfl, seq_setSeq_same] at this
  exact ⟨k, this⟩

theorem illegal_spec (u op opr : Nat) (w : Wall) (hu : u ≤ 16) : ∃ li, (illegal u op opr w).seq u = { fetched op opr (w.seq u) with lastIllegal := li } ∧
    (illegal u op opr w).get (Reg.illegalOps u) = (w.get (Reg.illegalOps u) + 1) % 2 ^ 32 ∧
    (illegal u op opr w).get (Reg.lastIllegal u) = (op + (w.seq u).mpc * 256) % 2 ^ 32 := by
  have a1 : Aside (Reg.illegalOps u) := by simp only [Aside, Reg.illegalOps]; omega
  have a2 : Aside (Reg.lastIllegal u) := by simp only [Aside, Reg.lastIllegal]; omega
  have ne : (Reg.illegalOps u).key ≠ (Reg.lastIllegal u).key := by simp only [Reg.illegalOps, Reg.lastIllegal]; omega
  have rs : ∀ (a b c d : Nat) (x : Wall), (raise a b c d x).seq u = x.seq u := fun a b c d x => seq_congr ((raise_keep a b c d x).stw.seqs (by decide)) u
  have g1 : ∀ (x : Wall) (r : SeqRt), (x.setSeq u r).get (Reg.illegalOps u) = x.get (Reg.illegalOps u) := fun _ _ => rfl
  have g2 : ∀ (x : Wall) (r : SeqRt), (x.setSeq u r).get (Reg.lastIllegal u) = x.get (Reg.lastIllegal u) := fun _ _ => rfl
  have b1 : ∀ v, (((w.bump (Reg.illegalOps u) 1).set (Reg.lastIllegal u) v)).get (Reg.illegalOps u) = (w.get (Reg.illegalOps u) + 1) % 2 ^ 32 :=
    fun v => (get_set_other _ _ _ _ ne).trans (get_bump_same ..)
  unfold illegal
  dsimp only
  split
  · split
    · refine ⟨(w.seq u).lastIllegal, ?_, ?_, ?_⟩
      · rw [seq_setSeq_same]; rfl
      · rw [g1, b1]
      · rw [g2]; exact get_set_same ..
    · refine ⟨some w.time.tclk, ?_, ?_, ?_⟩
      · rw [rs, seq_setSeq_same, seq_setSeq_same]; rfl
      · rw [a1.raise, g1, g1, b1]
      · rw [a2.raise, g2, g2]; exact get_set_same ..
  · refine ⟨some w.time.tclk, ?_, ?_, ?_⟩
    · rw [rs, seq_setSeq_same, seq_setSeq_same]; rfl
    · rw [a1.raise, g1, g1, b1]
    · rw [a2.raise, g2, g2]; exact get_set_same ..

theorem completed_seq_ex (u : Nat) (w : Wall) : ∃ k, (completed u w).seq u = { w.seq u with macroCount := k } := by
  obtain ⟨k, hk⟩ := completed_seq u w
  exact ⟨k, (hk u).trans (if_pos rfl)⟩

end Sys2Proof.Machine
end

