-- ==== Sys2Proof/Laws/Parts.lean ====
section
/-! SUPPORT. The frames of the commands, part by part. -/

open Sys2Proof

namespace Sys2Proof.Machine

/-- The fields of a part, as a mask. -/
def Part.mask : Part → Nat
  | .registers => 0x1
  | .windows => 0x2
  | .clock => 0x1c
  | .timescale => 0x60
  | .time => 0x3fc
  | .boundary => 0xffffffc00
  | .ledger => 0x1ffff000000000
  | .lanes => 0x1fe0000000000000
  | .almanac => 0x1000000000000000
  | .ports => 0xfe000000000000000
  | .ingress => 0x1fffff00000000000000000
  | .egress => 0x1ffe0000000000000000000000
  | .security => 0x7fe0000000000000000000000000
  | .random => 0x800000000000000000000000000
  | .granary => 0xfffff8000000000000000000000000000
  | .banks => 0x18000000000000000000000000000
  | .host => 0xf000000000000000000000000000000000
  | .stewards => 0x1f0000000000000000000000000000000000
  | .observed => 0xffe00000000000000000000000000000000000
  | .emitted => 0x200000000000000000000000000000000000000

theorem touch_registers (c : Instr) (h : reachRegisters c = false) : touch c &&& 0x1 = 0 := by
  cases c <;> first | exact Bool.noConfusion (show true = false from h) | rfl | (dsimp only [touch]; rfl)

theorem touch_windows (c : Instr) (h : reachWindows c = false) : touch c &&& 0x2 = 0 := by
  cases c <;> first | exact Bool.noConfusion (show true = false from h) | rfl | (dsimp only [touch]; rfl)

theorem touch_clock (c : Instr) (h : reachClock c = false) : touch c &&& 0x1c = 0 := by
  cases c <;> first | exact Bool.noConfusion (show true = false from h) | rfl | (dsimp only [touch]; rfl)

theorem touch_timescale (c : Instr) (h : reachTimescale c = false) : touch c &&& 0x60 = 0 := by
  cases c <;> first | exact Bool.noConfusion (show true = false from h) | rfl | (dsimp only [touch]; rfl)

theorem touch_time (c : Instr) (h : reachTime c = false) : touch c &&& 0x3fc = 0 := by
  cases c <;> first | exact Bool.noConfusion (show true = false from h) | rfl | (dsimp only [touch]; rfl)

theorem touch_boundary (c : Instr) (h : reachBoundary c = false) : touch c &&& 0xffffffc00 = 0 := by
  cases c <;> first | exact Bool.noConfusion (show true = false from h) | rfl | (dsimp only [touch]; rfl)

theorem touch_ledger (c : Instr) (h : reachLedger c = false) : touch c &&& 0x1ffff000000000 = 0 := by
  cases c <;> first | exact Bool.noConfusion (show true = false from h) | rfl | (dsimp only [touch]; rfl)

theorem touch_lanes (c : Instr) (h : reachLanes c = false) : touch c &&& 0x1fe0000000000000 = 0 := by
  cases c <;> first | exact Bool.noConfusion (show true = false from h) | rfl | (dsimp only [touch]; rfl)

theorem touch_almanac (c : Instr) (h : reachAlmanac c = false) : touch c &&& 0x1000000000000000 = 0 := by
  cases c <;> first | exact Bool.noConfusion (show true = false from h) | rfl | (dsimp only [touch]; rfl)

theorem touch_ports (c : Instr) (h : reachPorts c = false) : touch c &&& 0xfe000000000000000 = 0 := by
  cases c <;> first | exact Bool.noConfusion (show true = false from h) | rfl | (dsimp only [touch]; rfl)

theorem touch_ingress (c : Instr) (h : reachIngress c = false) : touch c &&& 0x1fffff00000000000000000 = 0 := by
  cases c <;> first | exact Bool.noConfusion (show true = false from h) | rfl | (dsimp only [touch]; rfl)

theorem touch_egress (c : Instr) (h : reachEgress c = false) : touch c &&& 0x1ffe0000000000000000000000 = 0 := by
  cases c <;> first | exact Bool.noConfusion (show true = false from h) | rfl | (dsimp only [touch]; rfl)

theorem touch_security (c : Instr) (h : reachSecurity c = false) : touch c &&& 0x7fe0000000000000000000000000 = 0 := by
  cases c <;> first | exact Bool.noConfusion (show true = false from h) | rfl | (dsimp only [touch]; rfl)

theorem touch_random (c : Instr) (h : reachRandom c = false) : touch c &&& 0x800000000000000000000000000 = 0 := by
  cases c <;> first | exact Bool.noConfusion (show true = false from h) | rfl | (dsimp only [touch]; rfl)

theorem touch_granary (c : Instr) (h : reachGranary c = false) : touch c &&& 0xfffff8000000000000000000000000000 = 0 := by
  cases c <;> first | exact Bool.noConfusion (show true = false from h) | rfl | (dsimp only [touch]; rfl)

theorem touch_banks (c : Instr) (h : reachBanks c = false) : touch c &&& 0x18000000000000000000000000000 = 0 := by
  cases c <;> first | exact Bool.noConfusion (show true = false from h) | rfl | (dsimp only [touch]; rfl)

theorem touch_host (c : Instr) (h : reachHost c = false) : touch c &&& 0xf000000000000000000000000000000000 = 0 := by
  cases c <;> first | exact Bool.noConfusion (show true = false from h) | rfl | (dsimp only [touch]; rfl)

theorem touch_stewards (c : Instr) (h : reachStewards c = false) : touch c &&& 0x1f0000000000000000000000000000000000 = 0 := by
  cases c <;> first | exact Bool.noConfusion (show true = false from h) | rfl | (dsimp only [touch]; rfl)

theorem touch_observed (c : Instr) (h : reachObserved c = false) : touch c &&& 0xffe00000000000000000000000000000000000 = 0 := by
  cases c <;> first | exact Bool.noConfusion (show true = false from h) | rfl | (dsimp only [touch]; rfl)

theorem touch_emitted (c : Instr) (h : reachEmitted c = false) : touch c &&& 0x200000000000000000000000000000000000000 = 0 := by
  cases c <;> first | exact Bool.noConfusion (show true = false from h) | rfl | (dsimp only [touch]; rfl)

end Sys2Proof.Machine
end

