-- ==== Sys2Proof/Laws/Steps.lean ====
section
/-! SUPPORT. What every step does: it answers, it keeps the tables' form, it moves the mode only as its command allows,
it leaves no restart fault over, and it reaches only its command's parts of the wall. -/

set_option linter.unusedTactic false
set_option linter.unreachableTactic false

open Sys2Proof

namespace Sys2Proof.Machine

/-! ### Steps -/

theorem step_front {c : Instr} {rest : List Instr} {s : State} (h : s.pending = c :: rest) :
    step s = exec c { s with pending := rest } := by unfold step; rw [h]

theorem step_idle {s : State} (h : s.pending = []) : step s = .next { s with w := tick s.mode s.w } := by
  unfold step; rw [h]

theorem step_answers (s : State) : ∃ t, step s = .next t ∧ t.pending = s.pending.tail := by
  cases h : s.pending with
  | nil => exact ⟨_, step_idle h, h⟩
  | cons c rest =>
    obtain ⟨t, e, p, -⟩ := exec_kept c { s with pending := rest }
    exact ⟨t, (step_front h).trans e, p⟩

/-- A property of the wall that the tick keeps and that every command keeps is kept by every step. -/
theorem step_wall {P : Wall → Prop} (ht : ∀ m w, P w → P (tick m w))
    (hc : ∀ c (s t : State), exec c s = .next t → P s.w → P t.w) {s t : State} (h : step s = .next t) (hP : P s.w) : P t.w := by
  cases e : s.pending with
  | nil =>
    rw [step_idle e] at h
    cases h; exact ht _ _ hP
  | cons c rest =>
    rw [step_front e] at h
    exact hc c _ t h hP

theorem step_ok {s t : State} (h : step s = .next t) (k : s.w.Ok) : t.w.Ok := by
  refine step_wall (P := Wall.Ok) (fun m w k => (tick_keep m w).ok k) ?_ h k
  intro c s t h k
  obtain ⟨t', e, -, -, q⟩ := exec_kept c s
  rw [e] at h; cases h; exact q.ok k

/-! ### What reset leaves -/

theorem reset_ok : State.reset.w.Ok := by
  constructor <;> first | rfl | (constructor <;> first | rfl | decide | (intro _ h; exact absurd h List.not_mem_nil))

/-! ### Frames -/

theorem SameF.of_and {α : Type} {m k i : Nat} {a b : α} (h : SameF m i a b) (hk : k.testBit i = true) (hm : m &&& k = 0) : b = a := by
  refine h ?_
  have e : (m &&& k).testBit i = false := by rw [hm]; exact Nat.zero_testBit i
  rw [Nat.testBit_and, hk, Bool.and_true] at e
  exact e

theorem off {m k i : Nat} (hm : m &&& k = 0) (hk : k.testBit i = true) : m.testBit i = false := by
  have e : (m &&& k).testBit i = false := by rw [hm]; exact Nat.zero_testBit i
  rwa [Nat.testBit_and, hk, Bool.and_true] at e

theorem Keep.same {m : Nat} {w x : Wall} (h : Keep m w x) (p : Part) (hm : m &&& p.mask = 0) : p.same w x := by
  have a {α : Type} {i : Nat} {a b : α} (h : SameF m i a b) (hk : p.mask.testBit i = true) : b = a := h.of_and hk hm
  cases p
  case registers => exact a h.regs (by decide)
  case windows => exact a h.win (by decide)
  case clock => exact ⟨a h.time.tclk (by decide), a h.time.dclk (by decide), a h.time.acc (by decide)⟩
  case timescale => exact ⟨a h.time.inc (by decide), a h.time.offset (by decide)⟩
  case almanac => exact a h.lan.almanac (by decide)
  case random => exact a h.sec.drbg (by decide)
  case banks => exact ⟨a h.gra.bank0 (by decide), a h.gra.bank1 (by decide)⟩
  case emitted => exact a h.out (by decide)
  case time => exact h.time.same fun i h1 h2 => off hm (by interval_cases i <;> decide)
  case boundary => exact h.bnd.same fun i h1 h2 => off hm (by interval_cases i <;> decide)
  case ledger => exact h.led.same fun i h1 h2 => off hm (by interval_cases i <;> decide)
  case lanes => exact h.lan.same fun i h1 h2 => off hm (by interval_cases i <;> decide)
  case ports => exact h.prt.same fun i h1 h2 => off hm (by interval_cases i <;> decide)
  case ingress => exact h.ing.same fun i h1 h2 => off hm (by interval_cases i <;> decide)
  case egress => exact h.egr.same fun i h1 h2 => off hm (by interval_cases i <;> decide)
  case security => exact h.sec.same fun i h1 h2 => off hm (by interval_cases i <;> decide)
  case granary => exact h.gra.same fun i h1 h2 => off hm (by interval_cases i <;> decide)
  case host => exact h.hst.same fun i h1 h2 => off hm (by interval_cases i <;> decide)
  case stewards => exact h.stw.same fun i h1 h2 => off hm (by interval_cases i <;> decide)
  case observed => exact h.obs.same fun i h1 h2 => off hm (by interval_cases i <;> decide)

theorem touch_part (p : Part) (c : Instr) (h : p.reach c = false) : touch c &&& p.mask = 0 := by
  cases p
  exacts [touch_registers c h, touch_windows c h, touch_clock c h, touch_timescale c h, touch_time c h, touch_boundary c h, touch_ledger c h,
    touch_lanes c h, touch_almanac c h, touch_ports c h, touch_ingress c h, touch_egress c h, touch_security c h, touch_random c h,
    touch_granary c h, touch_banks c h, touch_host c h, touch_stewards c h, touch_observed c h, touch_emitted c h]

theorem exec_same (c : Instr) (s : State) :
    ∃ t, exec c s = .next t ∧ t.pending = s.pending ∧ ∀ p : Part, p.reach c = false → p.same s.w t.w := by
  obtain ⟨t, e, q, -, k⟩ := exec_kept c s
  exact ⟨t, e, q, fun p h => k.same p (touch_part p c h)⟩

/-! ### Mode moves -/

theorem moved {c : Instr} {f : Mode → Wall → Mode × Wall} {s t : State} (e : exec c s = actMove f s) (h : exec c s = .next t) :
    t.mode = (f s.mode s.w).1 ∧ t.w = (f s.mode s.w).2 := by
  rw [e] at h; cases h; exact ⟨rfl, rfl⟩

theorem reeveRestart_mode (m : Mode) (w : Wall) : (reeveRestart m w).1 = m ∨ ((m = .service ∨ m = .doze) ∧ (reeveRestart m w).1 = .kindle) := by
  unfold reeveRestart restart
  cases m <;> simp

theorem settleFault_mode (m : Mode) (w : Wall) : (settleFault m w).1 = m ∨ ((m = .service ∨ m = .doze) ∧ (settleFault m w).1 = .kindle) := by
  unfold settleFault
  split
  · exact reeveRestart_mode _ _
  · exact .inl rfl

theorem sealNow_mode (a b : Nat) (m : Mode) (w : Wall) :
    (sealNow a b m w).1 = m ∨ ((m = .kindle ∨ m = .service ∨ m = .doze) ∧ (sealNow a b m w).1 = .sealedMode) := by
  unfold sealNow
  split
  · rename_i h
    refine .inr ⟨?_, rfl⟩
    cases m <;> simp [clocksRun] at h ⊢
  · exact .inl rfl

theorem dueMove_mode (m : Mode) (w : Wall) :
    (dueMove m w).1 = m ∨ ((m = .service ∨ m = .doze) ∧ (dueMove m w).1 = .kindle) ∨ (m = .doze ∧ (dueMove m w).1 = .service) ∨
      (m = .service ∧ (dueMove m w).1 = .doze) := by
  unfold dueMove restart
  split
  · exact .inl rfl
  · rename_i h
    have k : m = .service ∨ m = .doze := by
      cases m <;> simp [inService] at h ⊢
    split
    · exact .inl rfl
    · split
      · exact .inr (.inl ⟨k, rfl⟩)
      · split
        · split
          · rename_i e; exact .inr (.inr (.inl ⟨e, rfl⟩))
          · exact .inl rfl
        · split
          · rename_i e; exact .inr (.inr (.inr ⟨e, rfl⟩))
          · exact .inl rfl

theorem modeHead_mode (o : Own) (m : Mode) (w : Wall) :
    (modeHead o m w).1 = m ∨ ((m = .service ∨ m = .doze) ∧ (modeHead o m w).1 = .kindle) ∨ (m = .doze ∧ (modeHead o m w).1 = .service) ∨
      (m = .service ∧ (modeHead o m w).1 = .doze) := dueMove_mode _ _

theorem powerGood_mode (r : Nat) (m : Mode) (w : Wall) : (powerGood r m w).1 = m ∨ ((m = .off ∨ m = .ember) ∧ (powerGood r m w).1 = .kindle) := by
  unfold powerGood
  cases m
  case off => exact .inr ⟨.inl rfl, rfl⟩
  case ember =>
    dsimp only
    split
    · exact .inr ⟨.inr rfl, rfl⟩
    · exact .inl rfl
  all_goals exact .inl rfl

theorem zeroiseKindle_mode (c : Nat) (w : Wall) : (zeroiseKindle c w).1 = .kindle ∨ (zeroiseKindle c w).1 = .sealedMode := by
  unfold zeroiseKindle
  dsimp only
  split
  · exact .inl rfl
  · exact .inr rfl

theorem kindleService_mode (i : KindleIn) (w : Wall) :
    (kindleService i w).1 = .kindle ∨ (kindleService i w).1 = .sealedMode ∨ (kindleService i w).1 = .service := by
  unfold kindleService
  extract_lets
  split
  · obtain h | ⟨-, h⟩ := sealNow_mode 4 5 .kindle (latch 16 1 _)
    · exact .inl h
    · exact .inr (.inl h)
  · exact .inr (.inr rfl)

theorem kindle_mode (i : KindleIn) (w : Wall) : (kindle i w).1 = .kindle ∨ (kindle i w).1 = .sealedMode ∨ (kindle i w).1 = .service := by
  unfold kindle
  extract_lets
  split
  · exact .inl rfl
  · split
    · exact (zeroiseKindle_mode _ _).imp id .inl
    · split
      · exact .inr (.inl rfl)
      · split
        · exact (zeroiseKindle_mode _ _).imp id .inl
        · exact kindleService_mode _ _

theorem rootPllLock_mode (i : KindleIn) (m : Mode) (w : Wall) :
    (rootPllLock i m w).1 = m ∨ (m = .kindle ∧ ((rootPllLock i m w).1 = .sealedMode ∨ (rootPllLock i m w).1 = .service)) := by
  unfold rootPllLock
  split
  · rename_i h
    rw [h.1]
    obtain k | k := kindle_mode i (modBnd (fun b => { b with waitRef := false, fetchDue := false }) w)
    · exact .inl k
    · exact .inr ⟨rfl, k⟩
  · exact .inl rfl

theorem refcoreLoss_mode (m : Mode) (w : Wall) : (refcoreLoss m w).1 = m ∨ ((m = .service ∨ m = .doze) ∧ (refcoreLoss m w).1 = .kindle) := by
  unfold refcoreLoss
  split
  · exact .inl rfl
  · split
    · exact .inl rfl
    · cases m <;> simp

theorem emberDrained_mode (m : Mode) (w : Wall) : (emberDrained m w).1 = m ∨ ((m = .service ∨ m = .doze) ∧ (emberDrained m w).1 = .ember) := by
  unfold emberDrained
  split
  · rename_i h
    refine .inr ⟨?_, rfl⟩
    cases m <;> simp [inService] at h ⊢
  · exact .inl rfl

theorem dozeWake_mode (p : Path) (f : List Byte) (m : Mode) (w : Wall) : (dozeWake p f m w).1 = m ∨ (m = .doze ∧ (dozeWake p f m w).1 = .service) := by
  unfold dozeWake
  split
  · rename_i h
    split
    · exact .inr ⟨h.1, rfl⟩
    · exact .inl rfl
  · exact .inl rfl

theorem vcoreRemoved_mode (m : Mode) (w : Wall) : (vcoreRemoved m w).1 = m ∨ (m ≠ .off ∧ m ≠ .ember ∧ (vcoreRemoved m w).1 = .off) := by
  unfold vcoreRemoved
  cases m <;> simp

theorem zeroisationComplete_mode (m : Mode) (w : Wall) :
    (zeroisationComplete m w).1 = m ∨ ((m = .kindle ∨ m = .service ∨ m = .doze) ∧ (zeroisationComplete m w).1 = .sealedMode) := by
  unfold zeroisationComplete
  split
  · exact .inl rfl
  · split
    · exact .inl rfl
    · rename_i h
      dsimp only
      split
      · exact .inl rfl
      · refine .inr ⟨?_, rfl⟩
        cases m <;> simp [clocksRun] at * 

theorem selftestHead_mode (f : Nat) (m : Mode) (w : Wall) :
    (selftestHead f m w).1 = m ∨ ((m = .kindle ∨ m = .service ∨ m = .doze) ∧ (selftestHead f m w).1 = .sealedMode) := by
  unfold selftestHead
  extract_lets
  split
  · exact .inl rfl
  · split
    · exact .inl rfl
    · exact sealNow_mode _ _ _ _

theorem seqF_mode {f : Mode → Wall → Wall} (m : Mode) (w : Wall) :
    ((fun m w => if awake m w then settleFault m (f m w) else (m, w) : Mode → Wall → Mode × Wall) m w).1 = m ∨
      ((m = .service ∨ m = .doze) ∧ ((fun m w => if awake m w then settleFault m (f m w) else (m, w) : Mode → Wall → Mode × Wall) m w).1 = .kindle) := by
  dsimp only
  split
  · exact settleFault_mode _ _
  · exact .inl rfl

theorem movedF {c : Instr} {f : Mode → Wall → Wall} {s t : State} (e : exec c s = actSeqF f s) (h : exec c s = .next t) :
    t.mode = s.mode ∨ ((s.mode = .service ∨ s.mode = .doze) ∧ t.mode = .kindle) := by
  have k := moved (f := fun m w => if awake m w then settleFault m (f m w) else (m, w)) e h
  rw [k.1]; exact seqF_mode ..

theorem ifAwake_mode (m : Mode) (w : Wall) : (if awake m w then reeveRestart m w else (m, w)).1 = m ∨
    ((m = .service ∨ m = .doze) ∧ (if awake m w then reeveRestart m w else (m, w)).1 = .kindle) := by
  split
  · exact reeveRestart_mode _ _
  · exact .inl rfl

theorem storeEnd_mode (m : Mode) (w : Wall) : let x := if reeveOn m w then dueMove m (storeComplete w) else (m, w)
    x.1 = m ∨ ((m = .service ∨ m = .doze) ∧ x.1 = .kindle) ∨ (m = .doze ∧ x.1 = .service) ∨ (m = .service ∧ x.1 = .doze) := by
  dsimp only
  split
  · exact dueMove_mode _ _
  · exact .inl rfl

theorem kat_mode (ok : Bool) (m : Mode) (w : Wall) : let x := if ok || !reeveOn m w then (m, w) else continuousFail m w
    x.1 = m ∨ ((m = .kindle ∨ m = .service ∨ m = .doze) ∧ x.1 = .sealedMode) := by
  dsimp only
  split
  · exact .inl rfl
  · exact sealNow_mode _ _ _ _

theorem exec_moveBy (c : Instr) (s t : State) (h : exec c s = .next t) : t.mode = s.mode ∨ moveBy c s.mode t.mode = true := by
  by_cases hm : mayMoveMode c = false
  · obtain ⟨t', e, -, k, -⟩ := exec_kept c s
    rw [e] at h; cases h; exact .inl (k hm)
  · cases c <;> first | exact absurd rfl hm | skip
    case powerGood r => rw [(moved rfl h).1]; exact (powerGood_mode ..).imp id fun ⟨a, b⟩ => by rw [b]; rcases a with a | a <;> rw [a] <;> rfl
    case rootPllLock i => rw [(moved rfl h).1]; exact (rootPllLock_mode ..).imp id fun ⟨a, b⟩ => by rw [a]; rcases b with b | b <;> rw [a] at b <;> rw [b] <;> rfl
    case refcoreLoss => rw [(moved rfl h).1]; exact (refcoreLoss_mode ..).imp id fun ⟨a, b⟩ => by rw [b]; rcases a with a | a <;> rw [a] <;> rfl
    case vcoreRemoved => rw [(moved rfl h).1]; exact (vcoreRemoved_mode ..).imp id fun ⟨a, b, d⟩ => by rw [d]; generalize s.mode = m at *; cases m <;> first | exact absurd rfl a | exact absurd rfl b | rfl
    case dozeWakeFrame p f => rw [(moved rfl h).1]; exact (dozeWake_mode ..).imp id fun ⟨a, b⟩ => by rw [b, a]; rfl
    case storeComplete =>
      rw [(moved (f := fun m w => if reeveOn m w then dueMove m (Machine.storeComplete w) else (m, w)) rfl h).1]
      refine (storeEnd_mode ..).imp id ?_
      rintro (⟨a, b⟩ | ⟨a, b⟩ | ⟨a, b⟩)
      · rw [b]; rcases a with a | a <;> rw [a] <;> rfl
      · rw [b, a]; rfl
      · rw [b, a]; rfl
    case modeRequestEmber =>
      rw [(moved rfl h).1]
      refine (modeHead_mode ..).imp id ?_
      rintro (⟨a, b⟩ | ⟨a, b⟩ | ⟨a, b⟩)
      · rw [b]; rcases a with a | a <;> rw [a] <;> rfl
      · rw [b, a]; rfl
      · rw [b, a]; rfl
    case modeRequestKindle =>
      rw [(moved rfl h).1]
      refine (modeHead_mode ..).imp id ?_
      rintro (⟨a, b⟩ | ⟨a, b⟩ | ⟨a, b⟩)
      · rw [b]; rcases a with a | a <;> rw [a] <;> rfl
      · rw [b, a]; rfl
      · rw [b, a]; rfl
    case modeRequestService =>
      rw [(moved rfl h).1]
      refine (modeHead_mode ..).imp id ?_
      rintro (⟨a, b⟩ | ⟨a, b⟩ | ⟨a, b⟩)
      · rw [b]; rcases a with a | a <;> rw [a] <;> rfl
      · rw [b, a]; rfl
      · rw [b, a]; rfl
    case modeRequestDoze =>
      rw [(moved rfl h).1]
      refine (modeHead_mode ..).imp id ?_
      rintro (⟨a, b⟩ | ⟨a, b⟩ | ⟨a, b⟩)
      · rw [b]; rcases a with a | a <;> rw [a] <;> rfl
      · rw [b, a]; rfl
      · rw [b, a]; rfl
    case emberDrained => rw [(moved rfl h).1]; exact (emberDrained_mode ..).imp id fun ⟨a, b⟩ => by rw [b]; rcases a with a | a <;> rw [a] <;> rfl
    case reeveWatchdog => rw [(moved (f := fun m w => if awake m w then reeveRestart m w else (m, w)) rfl h).1]; exact (ifAwake_mode ..).imp id fun ⟨a, b⟩ => by rw [b]; rcases a with a | a <;> rw [a] <;> rfl
    case vembRemoved => rw [(moved rfl h).1]; exact .inr rfl
    case selftestNow f => rw [(moved rfl h).1]; exact (selftestHead_mode ..).imp id fun ⟨a, b⟩ => by rw [b]; rcases a with a | a | a <;> rw [a] <;> rfl
    case zeroisationComplete => rw [(moved rfl h).1]; exact (zeroisationComplete_mode ..).imp id fun ⟨a, b⟩ => by rw [b]; rcases a with a | a | a <;> rw [a] <;> rfl
    case macsecKatDaily b ok => rw [(moved (f := fun m w => if ok || !reeveOn m w then (m, w) else continuousFail m w) rfl h).1]; exact (kat_mode ..).imp id fun ⟨a, b⟩ => by rw [b]; rcases a with a | a | a <;> rw [a] <;> rfl
    case continuousTestFail => rw [(moved rfl h).1]; unfold continuousFail; exact (sealNow_mode ..).imp id fun ⟨a, b⟩ => by rw [b]; rcases a with a | a | a <;> rw [a] <;> rfl
    case tamperEvent => rw [(moved rfl h).1]; unfold tamper; exact (sealNow_mode ..).imp id fun ⟨a, b⟩ => by rw [b]; rcases a with a | a | a <;> rw [a] <;> rfl
    all_goals (exact (movedF rfl h).imp id fun ⟨a, b⟩ => by rw [b]; rcases a with a | a <;> rw [a] <;> rfl)

theorem mayMove_of_moveBy (c : Instr) (a b : Mode) (h : moveBy c a b = true) : mayMove a b = true := by
  cases c <;> cases a <;> cases b <;> first | rfl | exact Bool.noConfusion (show false = true from h)

/-! ### No restart fault of the Reeve is left over (R576) -/

theorem fault_of_keep {m : Nat} {w x : Wall} (h : Keep m w x) (k : m.testBit 140 = false) (hw : w.stw.reeveFault = false) : x.stw.reeveFault = false :=
  (h.stw.reeveFault k).trans hw

theorem restart_fault (c : Nat) (m : Mode) (w : Wall) : (restart c m w).2.stw.reeveFault = false := rfl

theorem reeveRestart_fault (m : Mode) (w : Wall) (h : w.stw.reeveFault = false) : (reeveRestart m w).2.stw.reeveFault = false := by
  unfold reeveRestart
  split
  · exact restart_fault ..
  · exact restart_fault ..
  · exact h

theorem settleFault_fault (m : Mode) (w : Wall) : (settleFault m w).2.stw.reeveFault = false := by
  unfold settleFault
  split
  · exact reeveRestart_fault _ _ rfl
  · rename_i h; exact eq_false_of_ne_true h

theorem freshWall_fault (w : Wall) : (freshWall w).stw.reeveFault = false := by
  have e : (freshState w).stw.reeveFault = false := rfl
  unfold freshWall
  generalize freshState w = x at *
  dsimp only
  refine fault_of_keep (level_keep ..) (by decide) ?_
  refine fault_of_keep (m := 1) (Keep.upTo (n := 5) .refl fun k _ h => h.step (set_keep ..) (by decide)) (by decide) ?_
  exact e

theorem restart_fault2 {c : Nat} {m : Mode} {w : Wall} (x : Mode × Wall) (h : x = restart c m w) : x.2.stw.reeveFault = false := by
  rw [h, restart_fault]

theorem snd_fault {m : Mode} {x : Wall} (h : x.stw.reeveFault = false) : ((m, x) : Mode × Wall).2.stw.reeveFault = false := h

theorem dueMove_fault (m : Mode) (w : Wall) (h : w.stw.reeveFault = false) : (dueMove m w).2.stw.reeveFault = false := by
  unfold dueMove
  split
  · exact h
  · dsimp only
    split
    · exact snd_fault (fault_of_keep (emberStart_keep ..) (by decide) h)
    · split
      · exact restart_fault2 _ rfl
      · split
        · split
          · exact snd_fault (fault_of_keep (dozeExit_keep ..) (by decide) h)
          · exact h
        · split
          · exact snd_fault (fault_of_keep (dozeEnter_keep ..) (by decide) h)
          · exact h

theorem modeHead_fault (o : Own) (m : Mode) (w : Wall) (h : w.stw.reeveFault = false) : (modeHead o m w).2.stw.reeveFault = false :=
  dueMove_fault _ _ (fault_of_keep (serveOwn_keep ..) (by decide) h)

theorem powerGood_fault (r : Nat) (m : Mode) (w : Wall) (h : w.stw.reeveFault = false) : (powerGood r m w).2.stw.reeveFault = false := by
  unfold powerGood
  cases m
  case off => exact freshWall_fault _
  case ember =>
    dsimp only
    split
    · exact freshWall_fault _
    · exact h
  all_goals exact h

theorem vcoreRemoved_fault (m : Mode) (w : Wall) (h : w.stw.reeveFault = false) : (vcoreRemoved m w).2.stw.reeveFault = false := by
  unfold vcoreRemoved
  cases m <;> first | exact h | exact freshWall_fault _

theorem emberDrained_fault (m : Mode) (w : Wall) (h : w.stw.reeveFault = false) : (emberDrained m w).2.stw.reeveFault = false := by
  unfold emberDrained
  split
  · exact freshWall_fault _
  · exact h

theorem ite_fault {c : Bool} {x y : Mode × Wall} (h : x.2.stw.reeveFault = false) (k : y.2.stw.reeveFault = false) :
    (if c then x else y).2.stw.reeveFault = false := by
  split
  · exact h
  · exact k

/-- What KINDLE changes once it has started. -/
theorem kindle_rest (i : KindleIn) (w : Wall) :
    Keep 0x3ffefffefffffffffffffffffffffffdc441ff3 (kindleStart w) (kindle i w).2 := by
  unfold kindle
  try dsimp only
  repeat' first
    | with_reducible apply Keep.refl
    | with_reducible assumption
    | (with_reducible apply Keep.step _ (zeroiseKindle_keep ..) _; on_goal 2 => decide)
    | (with_reducible apply Keep.step _ (zeroiseEngines_keep ..) _; on_goal 2 => decide)
    | (with_reducible apply Keep.step _ (restoreRetention_keep ..) _; on_goal 2 => decide)
    | (with_reducible apply Keep.step _ (kindleService_keep ..) _; on_goal 2 => decide)
    | (with_reducible apply Keep.step _ (readBanks_keep ..) _; on_goal 2 => decide)
    | (with_reducible apply Keep.step _ (set_keep ..) _; on_goal 2 => decide)
    | (with_reducible apply Keep.step _ (sealWall_keep ..) _; on_goal 2 => decide)
    | (with_reducible apply Keep.secU; on_goal 2 => (generalize Wall.sec _ = z; revert z; refine id ?_; intro z; refine SecSt.Keep.mk (.free (by decide)) (.free (by decide)) (.free (by decide)) (.free (by decide)) (.free (by decide)) (.free (by decide)) (.free (by decide)) (.free (by decide)) (.free (by decide)) (.free (by decide)) (fun ⟨k0, k1, k2, k3, k4⟩ => ?_); constructor <;> dsimp only))
    | (with_reducible apply modBnd_keep; on_goal 2 => (intro b; refine BoundarySt.Keep.mk (.free (by decide)) (.free (by decide)) (.free (by decide)) .refl .refl .refl .refl .refl (.free (by decide)) .refl .refl .refl (.free (by decide)) .refl .refl .refl (.free (by decide)) (.free (by decide)) (.free (by decide)) .refl (.free (by decide)) (.free (by decide)) (.free (by decide)) (.free (by decide)) (.free (by decide)) (.free (by decide)) (fun ⟨k0, k1, k2⟩ => ?_); constructor <;> dsimp only))
    | split

theorem kindle_fault (i : KindleIn) (w : Wall) : (kindle i w).2.stw.reeveFault = false := by
  have h0 : (kindleStart w).stw.reeveFault = false := by
    unfold kindleStart
    dsimp only
    have e := freshWall_fault w
    generalize freshWall w = x at *
    exact fault_of_keep (((noteMove_keep ..).step (set_keep ..) (by decide)).step (set_keep ..) (by decide)) (by decide) e
  exact fault_of_keep (kindle_rest i w) (by decide) h0

theorem rootPllLock_fault (i : KindleIn) (m : Mode) (w : Wall) (h : w.stw.reeveFault = false) : (rootPllLock i m w).2.stw.reeveFault = false := by
  unfold rootPllLock
  split
  · exact kindle_fault ..
  · exact h

/-- The commands that may touch the mark. -/
def touchesFault (c : Instr) : Bool := (touch c).testBit 140

theorem moved2 {c : Instr} {f : Mode → Wall → Mode × Wall} {s t : State} (e : exec c s = actMove f s) (h : exec c s = .next t)
    (k : (f s.mode s.w).2.stw.reeveFault = false) : t.w.stw.reeveFault = false := by rw [(moved e h).2]; exact k

theorem movedF2 {c : Instr} {f : Mode → Wall → Wall} {s t : State} (e : exec c s = actSeqF f s) (h : exec c s = .next t)
    (hs : s.w.stw.reeveFault = false) : t.w.stw.reeveFault = false := by
  refine moved2 (f := fun m w => if awake m w then settleFault m (f m w) else (m, w)) e h ?_
  split
  · exact settleFault_fault ..
  · exact hs

theorem exec_fault (c : Instr) (s t : State) (h : exec c s = .next t) (hs : s.w.stw.reeveFault = false) : t.w.stw.reeveFault = false := by
  by_cases hm : touchesFault c = false
  · obtain ⟨t', e, -, -, k⟩ := exec_kept c s
    rw [e] at h; cases h; exact fault_of_keep k hm hs
  · cases c <;> first | exact absurd (by dsimp only [touchesFault, touch]; decide) hm | exact movedF2 rfl h hs | skip
    case powerGood r => exact moved2 rfl h (powerGood_fault _ _ _ hs)
    case rootPllLock i => exact moved2 rfl h (rootPllLock_fault _ _ _ hs)
    case vcoreRemoved => exact moved2 rfl h (vcoreRemoved_fault _ _ hs)
    case storeComplete =>
      refine moved2 (f := fun m w => if reeveOn m w then dueMove m (Machine.storeComplete w) else (m, w)) rfl h ?_
      exact ite_fault (dueMove_fault _ _ (fault_of_keep (storeComplete_keep ..) (by decide) hs)) hs
    case modeRequestEmber => exact moved2 rfl h (modeHead_fault _ _ _ hs)
    case modeRequestKindle => exact moved2 rfl h (modeHead_fault _ _ _ hs)
    case modeRequestService => exact moved2 rfl h (modeHead_fault _ _ _ hs)
    case modeRequestDoze => exact moved2 rfl h (modeHead_fault _ _ _ hs)
    case emberDrained => exact moved2 rfl h (emberDrained_fault _ _ hs)
    case reeveWatchdog =>
      refine moved2 (f := fun m w => if awake m w then reeveRestart m w else (m, w)) rfl h ?_
      exact ite_fault (reeveRestart_fault _ _ hs) hs
    case vembRemoved => exact moved2 rfl h (freshWall_fault _)

theorem step_fault {s t : State} (h : step s = .next t) (k : s.w.stw.reeveFault = false) : t.w.stw.reeveFault = false :=
  step_wall (P := fun w => w.stw.reeveFault = false) (fun _ _ k => fault_of_keep (tick_keep ..) (by decide) k) (fun c s t e k => exec_fault c s t e k) h k

end Sys2Proof.Machine
end

