-- ==== Sys2Proof/Laws/Search.lean ====
section
/-! SUPPORT. Moves of the mode by a step, latches and level sources, and the Sieve's search. -/

open Sys2Proof

namespace Sys2Proof.Machine

theorem step_moveBy {c : Instr} {rest : List Instr} {s t : State} (h : s.pending = c :: rest) (k : step s = .next t) :
    t.mode = s.mode ∨ moveBy c s.mode t.mode = true := exec_moveBy c { s with pending := rest } t (by rw [← step_front h]; exact k)

theorem step_mayMove {s t : State} (k : step s = .next t) : mayMove s.mode t.mode = true := by
  cases h : s.pending with
  | nil => rw [step_idle h] at k; cases k; show mayMove s.mode s.mode = true; cases s.mode <;> rfl
  | cons c rest =>
    obtain e | e := step_moveBy h k
    · rw [e]; cases s.mode <;> rfl
    · exact mayMove_of_moveBy c _ _ e

theorem setLatch_val (u n : Nat) (w : Wall) (o : Reg) (h2 : u = 17 → o.key ≠ (Reg.bhTaken 17).key) :
    (setLatch u n w).get o = (w.setBitR (Reg.bhPending u) n).get o := by
  unfold setLatch hostEvent
  dsimp only
  unfold when
  split
  · rename_i j
    have e : u = 17 := by simp at j; exact j.1
    rw [get_vecEvent, get_bump_other _ _ _ _ (h2 e)]
  · rfl

theorem pending_ne_coalesced (u : Nat) : (Reg.bhPending u).key ≠ (Reg.bhCoalesced u).key := by simp only [Reg.bhPending, Reg.bhCoalesced]; omega

theorem pending_ne_taken {u : Nat} : u = 17 → (Reg.bhPending u).key ≠ (Reg.bhTaken 17).key := by rintro rfl; decide

theorem coalesced_ne_taken {u : Nat} : u = 17 → (Reg.bhCoalesced u).key ≠ (Reg.bhTaken 17).key := by rintro rfl; decide

theorem bit_setBit_all (v i m j : Nat) (h : i < m) : bit (setBit v i % 2 ^ m) j = (bit (v % 2 ^ m) j || j == i) := by
  unfold bit setBit
  rw [Nat.testBit_mod_two_pow, Nat.testBit_or, Nat.testBit_mod_two_pow, Nat.testBit_two_pow]
  by_cases e : i = j
  · subst e; simp [h]
  · have e' : ¬ j = i := fun k => e k.symm
    simp [e, e']

theorem testBit_clrBit (v i : Nat) : bit (clrBit v i) i = false := by
  have h := bit_clrBit v i (i + 1)
  unfold bit at *
  rw [Nat.testBit_mod_two_pow] at h
  simpa using h

theorem level_shape (u n : Nat) (b : Bool) (w : Wall) : ∃ y : Wall, y.regs = w.regs ∧
    y.stw.levels = tputD w.stw.levels u 0 (if b then setBit (tgetD w.stw.levels u 0) n else clrBit (tgetD w.stw.levels u 0) n) ∧
    level u n b w = when (b && !bit (w.get (Reg.bhPending u)) n) (setLatch u n) y :=
  ⟨{ w with stw := { w.stw with levels := tputD w.stw.levels u 0 (if b then setBit (tgetD w.stw.levels u 0) n else clrBit (tgetD w.stw.levels u 0) n) } }, rfl, rfl, rfl⟩

theorem when_setLatch_stw (c : Bool) (u n : Nat) (y : Wall) : (when c (setLatch u n) y).stw = y.stw := by
  unfold when; split <;> simp

theorem level_levels (u n : Nat) (b : Bool) (w : Wall) : levelHigh u n (level u n b w) = b := by
  obtain ⟨y, -, h, e⟩ := level_shape u n b w
  unfold levelHigh
  rw [e, when_setLatch_stw, h, tgetD_tputD_same]
  cases b
  · exact testBit_clrBit ..
  · simp [bit, setBit]

theorem tget_of_mem {α : Type} : ∀ {t : Tbl α} {k : Nat} {v : α}, twf t = true → (k, v) ∈ t → tget t k = some v
  | (j, b) :: t, k, v, h, m => by
    rw [twf_iff, List.pairwise_cons] at h
    unfold tget
    rcases List.mem_cons.1 m with e | e
    · cases e; rw [if_pos rfl]
    · have n : j ≠ k := Nat.ne_of_lt (h.1 _ e)
      rw [if_neg n]
      exact tget_of_mem (twf_iff _ |>.2 h.2) e

/-- An entry of the active bank that matches a key (R330). -/
abbrev Hits (b key : Nat) (w : Wall) (i : Nat) : Prop :=
  i < 8192 ∧ bit (entryAt b (activeBank b w) i w).action 63 = true ∧
    (key ^^^ (entryAt b (activeBank b w) i w).value) &&& (entryAt b (activeBank b w) i w).mask = 0

theorem mem_matches {b key : Nat} {w : Wall} (h : twf w.ing.sieve = true) (i a : Nat) :
    (i, a) ∈ sieveMatches b key w ↔ Hits b key w i ∧ a = (entryAt b (activeBank b w) i w).action := by
  have hk : sieveKeyOf b (activeBank b w) i = sieveKeyOf b (activeBank b w) 0 + i := by unfold sieveKeyOf; omega
  unfold sieveMatches Hits
  dsimp only
  generalize activeBank b w = bank at *
  rw [List.mem_filterMap]
  constructor
  · rintro ⟨⟨k, e⟩, m, g⟩
    dsimp only at g
    split at g
    · rename_i c
      obtain ⟨c1, c2, c3, c4⟩ := c
      cases g
      have t := tget_of_mem h m
      have q : entryAt b bank (k - sieveKeyOf b bank 0) w = e := by
        unfold entryAt tgetD
        rw [hk, show sieveKeyOf b bank 0 + (k - sieveKeyOf b bank 0) = k by omega, t]
        rfl
      rw [q]
      exact ⟨⟨by omega, c3, c4⟩, rfl⟩
    · exact absurd g (by simp)
  · rintro ⟨⟨c1, c2, c3⟩, rfl⟩
    unfold entryAt tgetD at *
    rw [hk] at *
    cases g : tget w.ing.sieve (sieveKeyOf b bank 0 + i) with
    | none => rw [g] at c2; exact absurd c2 (by decide)
    | some e =>
      rw [g] at c2 c3
      refine ⟨_, tget_mem g, ?_⟩
      simp only [Option.getD_some] at *
      rw [if_pos ⟨by omega, by omega, c2, c3⟩, Nat.add_sub_cancel_left]

theorem matches_rising {b key : Nat} {w : Wall} (h : twf w.ing.sieve = true) : (sieveMatches b key w).Pairwise fun x y => x.1 < y.1 := by
  unfold sieveMatches
  dsimp only
  refine List.Pairwise.filterMap _ ?_ (twf_iff _ |>.1 h)
  intro x y hxy u hu v hv
  split at hu
  · split at hv
    · cases hu; cases hv; dsimp only; omega
    · exact absurd hv (by simp)
  · exact absurd hu (by simp)

theorem aside_sieveMisses (b : Nat) (h : b < 16) : Aside (Reg.sieveMisses b) := by simp only [Aside, Reg.sieveMisses]; omega

theorem aside_shadowed (b : Nat) (h : b < 16) : Aside (Reg.shadowed b) := by simp only [Aside, Reg.shadowed]; omega

theorem aside_noMatch (sp : Nat) (h : sp < 512) : Aside (Reg.noMatchAction sp) := by simp only [Aside, Reg.noMatchAction]; omega

theorem Aside.pcSp {o : Reg} (h : Aside o) {sp ev n : Nat} {tc : Option Nat} {w : Wall} (hs : sp < 512) : (pcSp sp ev n tc w).get o = w.get o := by
  unfold Machine.pcSp
  exact h.pcCount (by unfold brickOfSp; omega)

theorem count_tmod (t : Tbl Nat) (i k : Nat) (f : Nat → Nat) : tgetD (tmod t i 0 f) k 0 = if k = i then f (tgetD t k 0) else tgetD t k 0 := by
  split
  · rename_i h; subst h; exact tgetD_tmod_same ..
  · rename_i h; unfold tmod; exact tgetD_tput_other _ _ _ _ _ h

/-- What a search that hits does with the counters. -/
def searchTail (b sp : Nat) (c : Bool) (y : Wall) : Wall :=
  when c (fun w => pcSp sp 0x08 1 none (w.bump (Reg.shadowed b) 1)) (pcSp sp 0x07 1 none y)

theorem searchTail_ing (b sp : Nat) (c : Bool) (y : Wall) : (searchTail b sp c y).ing = y.ing := by
  unfold searchTail when
  split
  · rw [pcSp_ing]; exact pcSp_ing ..
  · exact pcSp_ing ..

theorem searchTail_get (b sp : Nat) (c : Bool) (y : Wall) (o : Reg) (A : Aside o) (hs : sp < 512) (n : o.key ≠ (Reg.shadowed b).key) :
    (searchTail b sp c y).get o = y.get o := by
  unfold searchTail when
  split
  · rw [A.pcSp hs, get_bump_other _ _ _ _ n, A.pcSp hs]
  · exact A.pcSp hs

theorem searchTail_shadowed (b sp : Nat) (c : Bool) (y : Wall) (A : Aside (Reg.shadowed b)) (hs : sp < 512) :
    (searchTail b sp c y).get (Reg.shadowed b) = if c then (y.get (Reg.shadowed b) + 1) % 2 ^ 64 else y.get (Reg.shadowed b) := by
  unfold searchTail when
  split
  · rw [A.pcSp hs, get_bump_same, A.pcSp hs]; rfl
  · exact A.pcSp hs

theorem search_shape {b sp key i a : Nat} {rest : List (Nat × Nat)} {w : Wall} (e : sieveMatches b key (pcSp sp 0x06 1 none w) = (i, a) :: rest) :
    ∃ y : Wall, y.regs = (pcSp sp 0x06 1 none w).regs ∧ y.ing.hits = tmod (pcSp sp 0x06 1 none w).ing.hits (b * 8192 + i) 0 (fun n => (n + 1) % 2 ^ 64) ∧
      sieveSearch b sp key w = (a, searchTail b sp (rest != []) y) := by
  unfold sieveSearch
  generalize pcSp sp 0x06 1 none w = x at *
  simp only [e]
  exact ⟨{ x with ing := { x.ing with hits := tmod x.ing.hits (b * 8192 + i) 0 (fun n => (n + 1) % 2 ^ 64) } }, rfl, rfl, rfl⟩

theorem search_hit {b sp key i a : Nat} {rest : List (Nat × Nat)} {w : Wall} (hb : b < 16) (hs : sp < 512) (e : sieveMatches b key (pcSp sp 0x06 1 none w) = (i, a) :: rest) :
    let x := (sieveSearch b sp key w).2
    (sieveSearch b sp key w).1 = a ∧
    (∀ k, tgetD x.ing.hits k 0 = if k = b * 8192 + i then (tgetD w.ing.hits k 0 + 1) % 2 ^ 64 else tgetD w.ing.hits k 0) ∧
    x.get (Reg.sieveMisses b) = w.get (Reg.sieveMisses b) ∧
    x.get (Reg.shadowed b) = if rest = [] then w.get (Reg.shadowed b) else (w.get (Reg.shadowed b) + 1) % 2 ^ 64 := by
  have A := aside_sieveMisses b hb
  have B := aside_shadowed b hb
  obtain ⟨y, h1, h2, h3⟩ := search_shape e
  have gy (o : Reg) (A : Aside o) : y.get o = w.get o := by
    rw [← A.pcSp (sp := sp) (ev := 0x06) (n := 1) (tc := none) (w := w) hs]
    unfold Wall.get; rw [h1]
  rw [h3]
  refine ⟨rfl, fun k => ?_, ?_, ?_⟩
  · dsimp only
    rw [searchTail_ing, h2, pcSp_ing]
    exact count_tmod ..
  · rw [searchTail_get _ _ _ _ _ A hs (by simp only [Reg.sieveMisses, Reg.shadowed]; omega), gy _ A]
  · rw [searchTail_shadowed _ _ _ _ B hs, gy _ B]
    cases rest <;> rfl

theorem matches_pcSp (b sp key : Nat) (w : Wall) (hb : b < 16) (hs : sp < 512) : sieveMatches b key (pcSp sp 0x06 1 none w) = sieveMatches b key w := by
  have e : activeBank b (pcSp sp 0x06 1 none w) = activeBank b w := by
    unfold activeBank
    rw [Aside.pcSp (by simp only [Aside, Reg.activeBank]; omega) hs]
  unfold sieveMatches
  rw [e, pcSp_ing]

end Sys2Proof.Machine
end

