-- ==== Sys2Proof/Tests/Slice0.lean ====
section
/-! SUPPORT. Tests: well-formedness, single steps and known answers from the spec's tables, and for every statement with
hypotheses a state and operands that meet them, clause by clause. -/

namespace Sys2Proof.Machine.Tests

-- One theorem at a time: run at once, the kernel evaluations below take a thread and a stack each.
set_option Elab.async false

/-! ### Small states -/

/-- The wall of reset in a mode. -/
abbrev on (m : Mode) (w : Wall) : State := ⟨[], m, w⟩

abbrev bare0 : Wall := Wall.reset

/-- The wall of reset with some objects written. -/
abbrev wr (l : List (Reg × Nat)) (w : Wall) : Wall := l.foldl (fun w e => w.set e.1 e.2) w

abbrev wBnd (b : BoundarySt) : Wall := { Wall.reset with bnd := b }
abbrev wLed (x : LedgerSt) : Wall := { Wall.reset with led := x }
abbrev wLan (x : LaneSt) : Wall := { Wall.reset with lan := x }
abbrev wPrt (x : PortSt) : Wall := { Wall.reset with prt := x }
abbrev wIng (x : IngressSt) : Wall := { Wall.reset with ing := x }
abbrev wEgr (x : EgressSt) : Wall := { Wall.reset with egr := x }
abbrev wSec (x : SecSt) : Wall := { Wall.reset with sec := x }
abbrev wGra (x : GranarySt) : Wall := { Wall.reset with gra := x }
abbrev wHst (x : HostSt) : Wall := { Wall.reset with hst := x }
abbrev wStw (x : StewardSt) : Wall := { Wall.reset with stw := x }
abbrev wObs (x : ObsSt) : Wall := { Wall.reset with obs := x }

/-- The wall of reset in SERVICE, and with a changed wall. -/
abbrev up : State := on .service bare0

/-! ### Requests at the head of the Ledger queue -/

/-- The row of an object of the tables. -/
def rowOf (i s : Nat) : ObjRow :=
  ((findRow i s objTable).map (·.1)).getD ⟨"", .sa 0, .bool, .ro, .ro, .ro, .v, .any, 0, fun _ _ => Reg.railGood⟩

/-- A write by the mailbox in a role. -/
abbrev ask (role : Role) (i s : Nat) (data : List Byte) : LReq := ⟨.mailbox, role, i, s, .write data⟩

/-- A request alone in the queue. -/
abbrev asked (r : LReq) (m : Mode) (w : Wall) : State := on m { w with led := { w.led with queue := [r] } }

/-- What `Ready` asks beside the object's row. -/
def readyChecks (r : LReq) (row : ObjRow) (u k v : Nat) (data : List Byte) (s : State) : Bool :=
  serves s.mode s.w && decide (s.w.led.queue.head? = some r) && decide (r.op = .write data) && decide (r.index < 0xF000) &&
  decide (rowId row ≠ 0x113001) && decide (decodeVal row.type data = v) && decide (ofLe data = v) &&
  (modeAbort s.mode r (headTaken s.w)).isNone && canWrite r.role row && (check2 row data).isNone &&
  (check3 row u k v (headTaken s.w)).isNone && !stewardAway r.index (headTaken s.w) &&
  (stateRule (rowId row) u k v s.mode (headTaken s.w)).isNone && !(bareSvc (headTaken s.w) && absentBare r.index r.sub)

theorem found_of {i s u k : Nat} (h : (findRow i s objTable).map (·.2) = some (u, k)) : findRow i s objTable = some (rowOf i s, u, k) := by
  unfold rowOf
  cases e : findRow i s objTable with
  | none => rw [e] at h; cases h
  | some x =>
    obtain ⟨r, p⟩ := x
    rw [e] at h
    obtain rfl : p = (u, k) := Option.some.inj h
    rfl

theorem ready_of {r : LReq} {u k v : Nat} {data : List Byte} {s : State} (f : (findRow r.index r.sub objTable).map (·.2) = some (u, k))
    (h : readyChecks r (rowOf r.index r.sub) u k v data s = true) : Ready r (rowOf r.index r.sub) u k v data s := by
  have f := found_of f
  simp only [readyChecks, Bool.and_eq_true, decide_eq_true_eq, Option.isNone_iff_eq_none, Bool.not_eq_true'] at h
  obtain ⟨⟨⟨⟨⟨⟨⟨⟨⟨⟨⟨⟨⟨a, b⟩, c⟩, d⟩, e⟩, g⟩, i⟩, j⟩, l⟩, m⟩, n⟩, o⟩, p⟩, q⟩ := h
  exact ⟨a, b, c, d, f, e, g, i, j, l, m, n, o, p, q⟩

/-- The wall that an accepted write leaves. -/
def okOf : WRes → Wall
  | .ok w => w
  | .later _ w => w
  | _ => Wall.reset

def laterOf : WRes → WaitFor
  | .later on _ => on
  | _ => .store

theorem later_of {r : WRes} (h : (match r with | .later _ _ => true | _ => false) = true) : r = .later (laterOf r) (okOf r) := by
  cases r with
  | later on w => rfl
  | _ => cases h

/-! ### Sequencers and frames -/

/-- A steward or the Reeve with a routine of one microword, NOP with END, for opcode 0x40 (R564). -/
def seqA : SeqRt := { SeqRt.init with g := [(0, 0x2000), (1, 0xF010), (2, 0x10000)], micro := [(0x4800, 0x90020000)], dispatch := [(0x40, 0x4800)] }

/-- SERVICE with steward 0 running as `r`. -/
abbrev stw (r : SeqRt) : State := on .service (wr [(Reg.stState 0, 1)] (wStw { StewardSt.reset with seqs := [(0, r)] }))

/-- 60 bytes of zero with their FCS (CRC-32: 0x04128908). -/
def frame64 : List Byte := List.replicate 60 0 ++ [8, 137, 18, 4]

/-- The frame at sub-port 0. -/
abbrev rx64 : RxFrame := ⟨0, frame64, false, false, 0⟩

/-- Sub-port 0 active, with room for cells in brick 0. -/
def wActive : Wall := wr [(Reg.spState 0 0, 2)] Wall.reset

/-- What the steps of its reception leave. -/
def rxX : Wall := (macsecRx 0 (noFcs frame64) (portBusy 0 wActive)).2
def rxY : Wall := countRx 0 64 (frameBe frame64 0 6) (frameTc 0 (noFcs frame64) rxX) rxX
def rxV : Wall := (parseRoom 0 rxY).getD Wall.reset

def rxRoomOf : Room :=
  writeChunks 0 rxV.ing.nextFrame (frameTc 0 (noFcs frame64) rxY) (rxStamp 0 0 rxV) 1100 4 0 (placed 0 (rxStamp 0 0 rxV) false (noFcs frame64) rxV)

def rxZ : Wall := match rxRoomOf with | .ok w => w | _ => Wall.reset

theorem rxZ_of (h : (match rxRoomOf with | .ok _ => true | _ => false) = true) : rxRoomOf = .ok rxZ := by
  unfold rxZ
  cases e : rxRoomOf with
  | ok w => rfl
  | _ => rw [e] at h; cases h

/-- One whole frame waits in the highest queue of sub-port 511. -/
def txWaits : Wall :=
  wr [(Reg.spState 63 7, 2)] (wEgr { EgressSt.reset with
    queues := [(63 * 64 + 63, ⟨[⟨.inband, 511, [], true, 0, 0, 0⟩], 0, false, 0, 0⟩)], active := [(511 * 8 + 7, [63])] })

def chosen (sp : Nat) (w : Wall) : Nat × Nat × Wall := (choose sp (upTo 8 (fun n w => dropAllOversize sp n w) w)).getD (0, 0, Wall.reset)

theorem some_getD_of {α : Type} {o : Option α} {d : α} (h : o.isSome = true) : o = some (o.getD d) := by
  cases o with
  | some x => rfl
  | none => cases h

theorem chosen_of {sp n q : Nat} {w : Wall} (h : (choose sp (upTo 8 (fun n w => dropAllOversize sp n w) w)).isSome = true)
    (hn : (chosen sp w).1 = n) (hq : (chosen sp w).2.1 = q) :
    choose sp (upTo 8 (fun n w => dropAllOversize sp n w) w) = some (n, q, (chosen sp w).2.2) := by
  subst hn hq
  exact some_getD_of h

theorem clear_of {x : TxPlan} (h : (match x with | .clear => true | _ => false) = true) : x = .clear := by
  cases x with
  | clear => rfl
  | _ => cases h

theorem test_hypotheses_PowerMovesTheMode :
    (∃ (s : State), s.mode = .off) ∧
    (∃ (s : State), s.mode = .ember ∧ s.w.bnd.wakeReq = true) ∧
    (∃ (s : State), s.mode = .ember ∧ s.w.bnd.wakeReq = false) ∧
    (∃ (s : State), s.mode ≠ .off ∧ s.mode ≠ .ember) :=
  ⟨⟨on .off bare0, by decide⟩,
    ⟨on .ember (wBnd { BoundarySt.reset with wakeReq := true }), by decide⟩,
    ⟨on .ember bare0, by decide⟩,
    ⟨up, by decide⟩⟩


theorem test_hypotheses_RootPllLockRunsKindle :
    (∃ (i : KindleIn) (s : State), s.mode = .kindle ∧ s.w.bnd.waitRef = true ∧ s.w.bnd.clocksStopped = false ∧ s.w.bnd.pfail = false ∧ i.romOk =
      false) ∧
    (∃ (i : KindleIn) (s : State), s.mode = .kindle ∧ s.w.bnd.waitRef = true ∧ s.w.bnd.clocksStopped = false ∧ s.w.bnd.pfail = false ∧ i.romOk = true
      ∧ i.zeroisePin = false ∧ s.w.bnd.zeroLatch = false ∧ i.selftest ≠ 0) ∧
    (∃ (i : KindleIn) (s : State), s.mode = .kindle ∧ s.w.bnd.waitRef = true ∧ s.w.bnd.clocksStopped = false ∧ s.w.bnd.pfail = false ∧ i.romOk = true
      ∧ i.zeroisePin = false ∧ s.w.bnd.zeroLatch = false ∧ i.selftest = 0 ∧ i.damage = [] ∧ i.headerOk0 = true ∧ i.headerOk1 = true ∧ s.w.gra.bank0 =
      [] ∧ s.w.gra.bank1 = [] ∧ s.w.gra.hdr0 = [] ∧ s.w.gra.hdr1 = []) :=
  ⟨⟨⟨false, false, 0, true, true, true, [], true, 0, 0, 0, 0⟩, on .kindle (wBnd { BoundarySt.reset with waitRef := true }), by decide⟩,
    ⟨⟨true, false, 255, true, true, true, [], true, 0, 0, 0, 0⟩, on .kindle (wBnd { BoundarySt.reset with waitRef := true }), by decide⟩,
    ⟨⟨true, false, 0, true, true, true, [], true, 0, 0, 0, 0⟩, on .kindle
      { Wall.reset with bnd := { BoundarySt.reset with waitRef := true }, gra := { GranarySt.reset with hdr0 := [], hdr1 := [] } }, by decide⟩⟩


theorem test_hypotheses_ReferencesAndTolerance :
    (∃ (s : State), clocksRun s.mode s.w = true ∧ halted s.w = false ∧ s.mode ≠ .sealedMode) ∧
    (∃ (s : State), clocksRun s.mode s.w = true ∧ halted s.w = false ∧ s.mode = .sealedMode) ∧
    (∃ (s : State), s.mode = .kindle ∧ s.w.bnd.clocksStopped = true ∧ halted s.w = false) ∧
    (∃ (b : Brick) (s : State), portsOn s.mode s.w = true ∧ bit s.w.bnd.refLanes b.val = true) ∧
    (∃ (b : Brick) (s : State), portsOn s.mode s.w = true ∧ bit s.w.bnd.refLanes b.val = false) ∧
    (∃ (s : State), s.mode ≠ .off ∧ s.mode ≠ .ember) ∧
    (∃ (s : State), s.mode ≠ .off ∧ s.mode ≠ .ember ∧ s.w.bnd.pfail = false ∧ s.w.bnd.vgranOk = true) :=
  ⟨⟨up, by decide⟩,
    ⟨on .sealedMode bare0, by decide⟩,
    ⟨on .kindle (wBnd { BoundarySt.reset with clocksStopped := true }), by decide⟩,
    ⟨15, on .service (wBnd { BoundarySt.reset with refLanes := 0x8000 }), by decide⟩,
    ⟨15, up, by decide⟩,
    ⟨on .sealedMode bare0, by decide⟩,
    ⟨up, by decide⟩⟩


theorem test_hypotheses_PowerFailAndWake :
    (∃ (s : State), s.mode ≠ .off ∧ s.mode ≠ .ember ∧ beforeReplay s.mode s.w = false ∧ s.w.bnd.pfail = false) ∧
    (∃ (s : State), s.mode ≠ .off ∧ s.mode ≠ .ember ∧ s.w.bnd.pfail = true ∧ s.w.bnd.inhibit = false) ∧
    (∃ (s : State), s.mode ≠ .off ∧ s.mode ≠ .ember ∧ s.w.bnd.pfail = true ∧ s.w.bnd.vcoreIn = true) ∧
    (∃ (s : State), s.mode ≠ .off ∧ s.mode ≠ .ember ∧ s.w.bnd.pfail = true ∧ s.w.bnd.pfailHigh = true ∧ s.w.bnd.vcoreIn = true ∧ s.w.bnd.vgranOk =
      true) ∧
    (∃ (s : State), s.mode = .ember) ∧
    (∃ (s : State), s.mode ≠ .ember) ∧
    (∃ (s : State), s.mode = .ember ∧ s.w.bnd.vembUp = true) ∧
    (∃ (s : State), (s.mode = .service ∨ s.mode = .doze) ∧ s.w.bnd.vembUp = true) :=
  ⟨⟨up, by decide⟩,
    ⟨on .service (wBnd { BoundarySt.reset with pfail := true }), by decide⟩,
    ⟨on .kindle (wBnd { BoundarySt.reset with pfail := true }), by decide⟩,
    ⟨on .service (wBnd { BoundarySt.reset with pfail := true, pfailHigh := true }), by decide⟩,
    ⟨on .ember bare0, by decide⟩,
    ⟨up, by decide⟩,
    ⟨on .ember bare0, by decide⟩,
    ⟨on .doze bare0, by decide⟩⟩


theorem test_hypotheses_HostAccesses :
    (∃ (o : Nat) (size : Nat) (s : State), clocksRun s.mode s.w = true ∧ ¬ ((size = 4 ∨ size = 8) ∧ o % size = 0)) ∧
    (∃ (o : Nat) (s : State), clocksRun s.mode s.w = true ∧ halted s.w = false ∧ windowDefined o = false) ∧
    (∃ (o : Nat) (s : State), clocksRun s.mode s.w = true ∧ halted s.w = false ∧ (o = 0x100C ∨ o = 0x1018)) ∧
    (∃ (s : State), clocksRun s.mode s.w = true ∧ halted s.w = false) ∧
    (∃ (tag : Fin 512) (u : ReadUse) (s : State), clocksRun s.mode s.w = true ∧ halted s.w = false ∧ tget s.w.bnd.tags tag.val = some (.out u) ∧
      s.w.hst.rings = []) ∧
    (∃ (tag : Fin 512) (s : State), clocksRun s.mode s.w = true ∧ halted s.w = false ∧ tget s.w.bnd.tags tag.val = some .quarantined) ∧
    (∃ (tag : Fin 512) (u : ReadUse) (s : State), clocksRun s.mode s.w = true ∧ halted s.w = false ∧ tget s.w.bnd.tags tag.val = some (.out u)) ∧
    (∃ (tag : Fin 512) (s : State), clocksRun s.mode s.w = true ∧ tget s.w.bnd.tags tag.val = some .quarantined ∧ s.w.hst.rings = []) :=
  ⟨⟨6, 4, up, by decide⟩,
    ⟨0x101C, up, by decide⟩,
    ⟨0x1018, up, by decide⟩,
    ⟨up, by decide⟩,
    ⟨511, .data 255, on .service (wBnd { BoundarySt.reset with tags := [(511, .out (.data 255))] }), by decide⟩,
    ⟨511, on .service (wBnd { BoundarySt.reset with tags := [(511, .quarantined)] }), by decide⟩,
    ⟨0, .desc .rx 255, on .service (wBnd { BoundarySt.reset with tags := [(0, .out (.desc .rx 255))] }), by decide⟩,
    ⟨0, on .service (wBnd { BoundarySt.reset with tags := [(0, .quarantined)] }), by decide⟩⟩


theorem test_hypotheses_CreditsAndEgressCells :
    (∃ (c : Course) (n : Nat) (s : State), portsOn s.mode s.w = true ∧ n ≤ 16 ∧ (tget s.w.bnd.pool c.val).isSome = true) ∧
    (∃ (c : Course) (v : Nat) (s : State), portsOn s.mode s.w = true ∧ 1 ≤ v ∧ v ≤ 4095 ∧ tget s.w.bnd.pool c.val = none) ∧
    (∃ (c : Course) (v : Nat) (s : State), portsOn s.mode s.w = true ∧ ((tget s.w.bnd.pool c.val).isSome = true ∨ v = 0 ∨ 4095 < v)) ∧
    (∃ (s : State), portsOn s.mode s.w = true) ∧
    (∃ (s : State), portsOn s.mode s.w = true) ∧
    (∃ (p : Port) (c : PipeCell) (s : State), portsOn s.mode s.w = true ∧ 0 < coreCredits p.val s.w ∧ s.w.bnd.dozing = true ∧ c.kind = 0 ∧ c.sp / 8 ≠
      p.val) :=
  ⟨⟨3, 16, on .service (wBnd { BoundarySt.reset with pool := [(3, 4095)] }), by decide⟩,
    ⟨3, 4095, up, by decide⟩,
    ⟨0, 4096, up, by decide⟩,
    ⟨up, by decide⟩,
    ⟨up, by decide⟩,
    ⟨0, ⟨0, 511, 0, 0, 0, 0, 0, []⟩, on .doze
      { Wall.reset with bnd := { BoundarySt.reset with dozing := true }, egr := { EgressSt.reset with coreCredits := [(0, 1)] } }, by decide⟩⟩


theorem test_hypotheses_DecisionsAndLookups :
    (∃ (b : Brick) (h : Nat) (s : State), portsOn s.mode s.w = true ∧ pendingOf b.val h s.w = none) ∧
    (∃ (b : Brick) (h : Nat) (r : Nat) (n : Nat) (f : IFrame) (s : State), portsOn s.mode s.w = true ∧ pendingOf b.val h s.w = some (n, f) ∧ tget
      s.w.ing.frames n = some f ∧ f.down = false ∧ f.copy = false ∧ bits r 63 62 = 0) ∧
    (∃ (b : Brick) (h : Nat) (n : Nat) (f : IFrame) (s : State), portsOn s.mode s.w = true ∧ pendingOf b.val h s.w = some (n, f)) ∧
    (∃ (b : Brick) (sp : Nat) (s : State), portsOn s.mode s.w = true ∧ s.w.ing.flushWait.find? (fun p => brickOfSp p == b.val) = some sp ∧ lookupsOut
      b.val s.w < 16) ∧
    (∃ (b : Brick) (tag : Nat) (sp : Nat) (s : State), portsOn s.mode s.w = true ∧ tget s.w.ing.lookups (b.val * 256 + tag) = some (.flush sp) ∧
      s.w.ing.flushWait = [] ∧ (∀ e ∈ s.w.ing.lookups, e.2 = .flush sp → e.1 = b.val * 256 + tag) ∧ twf s.w.ing.lookups = true) ∧
    (∃ (b : Brick) (tag : Nat) (sp : Nat) (s : State), portsOn s.mode s.w = true ∧ tget s.w.ing.lookups (b.val * 256 + tag) = some (.flush sp)) ∧
    (∃ (b : Brick) (tag : Nat) (s : State), portsOn s.mode s.w = true ∧ tget s.w.ing.lookups (b.val * 256 + tag) = some .relay ∧ s.w.ing.flushWait =
      []) ∧
    (∃ (b : Brick) (tag : Nat) (s : State), portsOn s.mode s.w = true ∧ tget s.w.ing.lookups (b.val * 256 + tag) = some .relay) :=
  ⟨⟨15, 0, up, by decide⟩,
    ⟨0, 7, 0x3FFFFFFFFFFFFFFF, 3, ⟨0, [], 7, 0, true, true, .waiting, false, false, 0, 0, 0, 0, false, false, 0, 0, none, false⟩, on .service (wIng
      { IngressSt.reset with frames := [(3, ⟨0, [], 7, 0, true, true, .waiting, false, false, 0, 0, 0, 0, false, false, 0, 0, none, false⟩)] }), by
      decide⟩,
    ⟨0, 7, 3, ⟨0, [], 7, 0, true, true, .waiting, false, false, 0, 0, 0, 0, false, false, 0, 0, none, false⟩, on .service (wIng
      { IngressSt.reset with frames := [(3, ⟨0, [], 7, 0, true, true, .waiting, false, false, 0, 0, 0, 0, false, false, 0, 0, none, false⟩)] }), by
      decide⟩,
    ⟨15, 511, on .service (wIng { IngressSt.reset with flushWait := [0, 511] }), by decide⟩,
    ⟨15, 255, 511, on .service (wIng { IngressSt.reset with lookups := [(15 * 256 + 255, .flush 511)] }), by decide⟩,
    ⟨15, 255, 511, on .service (wIng { IngressSt.reset with lookups := [(15 * 256 + 255, .flush 511)] }), by decide⟩,
    ⟨15, 255, on .service (wIng { IngressSt.reset with lookups := [(15 * 256 + 255, .relay)] }), by decide⟩,
    ⟨15, 255, on .service (wIng { IngressSt.reset with lookups := [(15 * 256 + 255, .relay)] }), by decide⟩⟩


theorem test_hypotheses_AvsAndTemperature :
    (∃ (mv : Nat) (s : State), awake s.mode s.w = true ∧ avsMay s.mode s.w = true ∧ avsNext s.w = some mv) ∧
    (∃ (mv : Nat) (s : State), reeveOn s.mode s.w = true ∧ s.w.bnd.avsOut = some mv) ∧
    (∃ (d : Int) (s : State), reeveOn s.mode s.w = true ∧ -32768 ≤ d ∧ d < 32768) ∧
    (∃ (d : Int) (s : State), reeveOn s.mode s.w = true ∧ portsOn s.mode s.w = true ∧ 115 ≤ d) ∧
    (∃ (d : Int) (s : State), reeveOn s.mode s.w = true ∧ portsOn s.mode s.w = false ∧ -32768 ≤ d ∧ d < 32768) :=
  ⟨⟨755, on .service (wr [(Reg.avsEnable, 1), (Reg.vcoreMv, 750), (Reg.avsMinMv, 755), (Reg.avsMaxMv, 800)] bare0), by decide⟩,
    ⟨650, on .service (wBnd { BoundarySt.reset with avsOut := some 650 }), by decide⟩,
    ⟨32767, up, by decide⟩,
    ⟨115, on .doze bare0, by decide⟩,
    ⟨-32768, on .sealedMode bare0, by decide⟩⟩


theorem test_hypotheses_MailboxRequestsAreQueued :
    (∃ (s : State), windowOpen s.mode s.w = true ∧ bit (s.w.win32 0x1010 0) 0 = false ∧ s.w.win32 0x1008 0 ≤ 2048 ∧ s.w.led.closed = false ∧
      s.w.led.queue.length < 16) ∧
    (∃ (b : Bool) (c : Instr) (s : State), c ∈ [Instr.mbxRead, .mbxWrite, .mbxSegRead, .mbxSegWrite b] ∧ windowOpen s.mode s.w = true ∧ bit (s.w.win32
      0x1010 0) 0 = true) :=
  ⟨⟨on .service { Wall.reset with win := [(0x1008, 2048)] }, by decide⟩,
    ⟨true, .mbxSegWrite true, on .service { Wall.reset with win := [(0x1010, 1)] }, by decide⟩⟩


theorem test_hypotheses_LedgerHeadsAreServed :
    (∃ (r : LReq) (s : State), serves s.mode s.w = true ∧ s.w.led.queue.head? = some r ∧ isRead r = true ∧ ownOf r = none ∧ r.who = .mailbox ∧
      modeAbort s.mode r (headTaken s.w) = none) ∧
    (∃ (r : LReq) (row : ObjRow) (u : Nat) (k : Nat) (v : Nat) (data : List Byte) (s : State), Ready r row u k v data s ∧ ownOf r = none ∧ r.who =
      .mailbox ∧ rowId row ∉ [0x100202, 0x118001, 0x118002, 0x118004] ∧ Aside (row.reg u k) ∧ (row.reg u k).key ≠ Reg.busyRefused.key ∧ effect 0 r row
      u k v data (headTaken s.w) = .ok ((headTaken s.w).set (row.reg u k) v)) ∧
    (∃ (r : LReq) (off : Nat) (g : Nat) (len : Nat) (s : State), serves s.mode s.w = true ∧ s.w.led.queue.head? = some r ∧ r.op = .segRead off g len ∧
      r.who = .mailbox ∧ modeAbort s.mode r (headTaken s.w) = none) ∧
    (∃ (r : LReq) (row : ObjRow) (u : Nat) (k : Nat) (g : Nat) (data : List Byte) (s : State), serves s.mode s.w = true ∧ s.w.led.queue.head? = some r
      ∧ r.op = .segWrite 0 g false data ∧ r.index < 0xF000 ∧ findRow r.index r.sub objTable = some (row, u, k) ∧ canWrite r.role row = true ∧ row.type
      = .domain ∧ data.length ≤ segLimit r.who ∧ isImage (rowId row) = false ∧ tget s.w.led.transfers (r.index * 256 + r.sub) = none ∧ modeAbort
      s.mode r (headTaken s.w) = none ∧ segState (rowId row) u s.mode (headTaken s.w) = none ∧ r.who = .mailbox) :=
  ⟨⟨⟨.mailbox, .h, 0x1040, 1, .read⟩, asked ⟨.mailbox, .h, 0x1040, 1, .read⟩ .service bare0, by decide⟩,
    ⟨ask .h 0x1041 6 [80, 0], rowOf 0x1041 6, 0, 0, 80, [80, 0], asked (ask .h 0x1041 6 [80, 0]) .service bare0, ready_of (by decide) (by decide), by
      decide, by decide, by decide, by decide, by decide, rfl⟩,
    ⟨⟨.mailbox, .o, 0x2104, 1, .segRead 0 0 2048⟩, 0, 0, 2048, asked ⟨.mailbox, .o, 0x2104, 1, .segRead 0 0 2048⟩ .service bare0, by decide⟩,
    ⟨⟨.mailbox, .h, 0x21F4, 1, .segWrite 0 7 false [1]⟩, rowOf 0x21F4 1, 15, 0, 7, [1], asked ⟨.mailbox, .h, 0x21F4, 1, .segWrite 0 7 false [1]⟩
      .service bare0, by decide, by decide, by decide, by decide, found_of (by decide), by decide, by decide, by decide, by decide, by decide, by
      decide, by decide, by decide⟩⟩


theorem test_hypotheses_OwnRowsAreServed :
    (∃ (o : Own) (c : Instr) (r : LReq) (row : ObjRow) (u : Nat) (k : Nat) (v : Nat) (data : List Byte) (x : Wall) (s : State), ownCmd o = some c ∧
      Ready r row u k v data s ∧ ownWrite (rowId row) v = some o ∧ effect 0 r row u k v data (headTaken s.w) = .ok x) :=
  ⟨.prbsClear, .prbsClear, ask .f 0x643F 0x18 [1], rowOf 0x643F 0x18, 1087, 0, 1, [1], okOf (effect 0 (ask .f 0x643F 0x18 [1]) (rowOf 0x643F 0x18)
    1087 0 1 [1] (headTaken (asked (ask .f 0x643F 0x18 [1]) .doze bare0).w)), asked (ask .f 0x643F 0x18 [1]) .doze bare0, rfl, ready_of (by decide)
    (by decide), by decide, rfl⟩

theorem test_hypotheses_LaneWritesTakeEffect :
    (∃ (r : LReq) (row : ObjRow) (u : Nat) (k : Nat) (data : List Byte) (s : State), u < 1088 ∧ rowId row = 0x600011 ∧ Ready r row u k 1 data s ∧
      (laneSt u s.w = 0 ∨ laneSt u s.w = 12)) ∧
    (∃ (r : LReq) (row : ObjRow) (u : Nat) (k : Nat) (data : List Byte) (s : State) (st : _) (use : _), u < 1088 ∧ rowId row = 0x600011 ∧ Ready r row
      u k 0 data s ∧ (s.w.lane u).testFrom = some (st, use)) ∧
    (∃ (r : LReq) (row : ObjRow) (u : Nat) (k : Nat) (data : List Byte) (s : State), u < 1088 ∧ rowId row = 0x600018 ∧ Ready r row u k 1 data s) ∧
    (∃ (r : LReq) (row : ObjRow) (u : Nat) (k : Nat) (data : List Byte) (s : State) (v : _), u < 1088 ∧ rowId row = 0x600019 ∧ Ready r row u k v data
      s ∧ v < 2 ^ 11 ∧ bits v 1 0 = 0 ∧ 20 ≤ bits v 7 2 ∧ bits v 7 2 ≤ 40 ∧ (laneSt u s.w = 6 ∨ laneSt u s.w = 9 ∨ laneSt u s.w = 13)) ∧
    (∃ (r : LReq) (row : ObjRow) (u : Nat) (k : Nat) (data : List Byte) (s : State), u < 1088 ∧ rowId row = 0x60002D ∧ Ready r row u k 1 data s ∧
      laneUseOf u s.w = 3) ∧
    (∃ (r : LReq) (row : ObjRow) (u : Nat) (k : Nat) (data : List Byte) (s : State), u < 1088 ∧ rowId row = 0x148004 ∧ Ready r row u k 1 data s ∧
      roundMay (headTaken s.w) = true) ∧
    (∃ (r : LReq) (row : ObjRow) (u : Nat) (k : Nat) (data : List Byte) (s : State), u < 1088 ∧ rowId row = 0x60002E ∧ Ready r row u k 1 data s) ∧
    (∃ (r : LReq) (row : ObjRow) (u : Nat) (k : Nat) (data : List Byte) (s : State) (i : _), u < 1088 ∧ i < 8 ∧ u < 64 ∧ rowId row = 0x400800 ∧ Ready
      r row u k (2 ^ i) data s ∧ mayDetect (u * 8 + i) (headTaken s.w) = true ∧ (spGrpSt (u * 8 + i) s.w = 7 ∨ spGrpSt (u * 8 + i) s.w = 8)) :=
  ⟨⟨(ask .h 0x643F 0x11 [1]), rowOf 0x643F 0x11, 1087, 0, [1], asked (ask .h 0x643F 0x11 [1]) .service (bare0), by decide, by decide, ready_of (by
      decide) (by decide), by decide⟩,
    ⟨(ask .h 0x643F 0x11 [0]), rowOf 0x643F 0x11, 1087, 0, [0], asked (ask .h 0x643F 0x11 [0]) .service (wLan
      { LaneSt.reset with lanes := [(1087, { LaneRt.init with testFrom := some (12, 3) })] }), 12, 3, by decide, by decide, ready_of (by decide) (by
      decide), by decide⟩,
    ⟨(ask .h 0x643F 0x18 [1]), rowOf 0x643F 0x18, 1087, 0, [1], asked (ask .h 0x643F 0x18 [1]) .service (bare0), by decide, by decide, ready_of (by
      decide) (by decide)⟩,
    ⟨(ask .h 0x6000 0x19 [160, 0, 0, 0]), rowOf 0x6000 0x19, 0, 0, [160, 0, 0, 0], asked (ask .h 0x6000 0x19 [160, 0, 0, 0]) .service (wr
      [(Reg.laneState 0, 13)] bare0), 160, by decide, by decide, ready_of (by decide) (by decide), by decide⟩,
    ⟨(ask .h 0x6000 0x2D [1]), rowOf 0x6000 0x2D, 0, 0, [1], asked (ask .h 0x6000 0x2D [1]) .service (wr [(Reg.laneUse 0, 3)] bare0), by decide, by
      decide, ready_of (by decide) (by decide), by decide⟩,
    ⟨(ask .h 0x1480 0x4 [1]), rowOf 0x1480 0x4, 0, 0, [1], asked (ask .h 0x1480 0x4 [1]) .service (bare0), by decide, by decide, ready_of (by decide)
      (by decide), by decide⟩,
    ⟨(ask .h 0x643F 0x2E [1]), rowOf 0x643F 0x2E, 1087, 0, [1], asked (ask .h 0x643F 0x2E [1]) .service (bare0), by decide, by decide, ready_of (by
      decide) (by decide)⟩,
    ⟨(ask .h 0x4FC8 0x0 [128]), rowOf 0x4FC8 0x0, 63, 0, [128], asked (ask .h 0x4FC8 0x0 [128]) .service
      ({ wr [(Reg.widthInUse 63 7, 2), (Reg.spAdmin 63 7, 1), (Reg.bringupState 63 7, 8)] bare0 with bnd := { BoundarySt.reset with refLanes := 0x8000 } }),
      7, by decide, by decide, by decide, by decide, ready_of (by decide) (by decide), by decide, by decide⟩⟩


theorem test_hypotheses_BringupTimersAndFailures :
    (∃ (g : Group) (s : State), portsOn s.mode s.w = true ∧ groupSt g s.w = 1) ∧
    (∃ (g : Group) (s : State), portsOn s.mode s.w = true ∧ (∀ l, g = .alone l → laneUseOf l.val s.w ≠ 2) ∧ groupSt g s.w = 1) ∧
    (∃ (g : Group) (s : State), portsOn s.mode s.w = true ∧ (∀ l, g = .alone l → laneUseOf l.val s.w ≠ 2) ∧ groupSt g s.w = 2 ∧ noGossip g s.w =
      false) ∧
    (∃ (g : Group) (s : State), portsOn s.mode s.w = true ∧ (∀ l, g = .alone l → laneUseOf l.val s.w ≠ 2) ∧ (groupSt g s.w = 2 ∨ groupSt g s.w = 3)) ∧
    (∃ (sp : SubPort) (s : State), portsOn s.mode s.w = true ∧ groupSt (.sub sp) s.w = 5) ∧
    (∃ (l : Lane) (s : State), portsOn s.mode s.w = true ∧ laneUseOf l.val s.w = 2 ∧ laneSt l.val s.w = 1 ∧ (s.w.lane l.val).retestFails < 2) ∧
    (∃ (sp : SubPort) (s : State), portsOn s.mode s.w = true ∧ spGrpSt sp.val s.w = 7 ∧ mayDetect sp.val s.w = true) ∧
    (∃ (l : Lane) (s : State), portsOn s.mode s.w = true ∧ laneSt l.val s.w = 7) ∧
    (∃ (g : Group) (s : State), portsOn s.mode s.w = true ∧ groupSt g s.w = 8) ∧
    (∃ (sp : SubPort) (s : State), portsOn s.mode s.w = true ∧ (spGrpSt sp.val s.w = 6 ∨ spGrpSt sp.val s.w = 9)) :=
  ⟨⟨.alone 1087, on .service (wr [(Reg.laneState 1087, 1)] bare0), by decide⟩,
    ⟨.sub 511, on .service (wr [(Reg.bringupState 63 7, 1)] bare0), by decide, (fun l h => nomatch h), by decide⟩,
    ⟨.sub 511, on .service (wr [(Reg.bringupState 63 7, 2)] bare0), by decide, (fun l h => nomatch h), by decide, by decide⟩,
    ⟨.alone 1087, on .service (wr [(Reg.laneState 1087, 3)] bare0), by decide, (fun l h => by cases h; decide), by decide⟩,
    ⟨511, on .service (wr [(Reg.bringupState 63 7, 5)] bare0), by decide⟩,
    ⟨1087, on .service (wr [(Reg.laneUse 1087, 2), (Reg.laneState 1087, 1)] (wLan
      { LaneSt.reset with lanes := [(1087, { LaneRt.init with retestFails := 1 })] })), by decide⟩,
    ⟨511, on .service
      { wr [(Reg.widthInUse 63 7, 2), (Reg.spAdmin 63 7, 1), (Reg.bringupState 63 7, 7)] bare0 with bnd := { BoundarySt.reset with refLanes := 0x8000 } },
      by decide⟩,
    ⟨1087, on .service (wr [(Reg.laneState 1087, 7)] bare0), by decide⟩,
    ⟨.alone 1087, on .service (wr [(Reg.laneState 1087, 8)] bare0), by decide⟩,
    ⟨0, on .doze (wr [(Reg.bringupState 0 0, 9)] bare0), by decide⟩⟩


theorem test_hypotheses_TrainingMessages :
    (∃ (l : Lane) (s : State), portsOn s.mode s.w = true ∧ (laneSt l.val s.w = 1 ∨ laneSt l.val s.w = 2)) ∧
    (∃ (l : Lane) (msg : List Byte) (s : State), portsOn s.mode s.w = true ∧ (laneSt l.val s.w = 1 ∨ laneSt l.val s.w = 2) ∧ ((msg.headD 0).toNat = 1
      ∨ (msg.headD 0).toNat = 2)) ∧
    (∃ (l : Lane) (rates : Nat) (role : Nat) (seed : Nat) (sp : SubPort) (s : State), portsOn s.mode s.w = true ∧ laneGroup l s.w = .sub sp ∧
      laneUseOf l.val s.w = 0 ∧ (spGrpSt sp.val s.w = 1 ∨ spGrpSt sp.val s.w = 2) ∧ noGossip (.sub sp) s.w = false ∧ role = laneRole l.val s.w ∧
      (commonRate (offered (.sub sp) s.w) (rates % 8)).isSome = true ∧ seed ≠ (s.w.lane l.val).seed) ∧
    (∃ (l : Lane) (s : State), portsOn s.mode s.w = true ∧ laneSt l.val s.w = 2) ∧
    (∃ (l : Lane) (s : State), portsOn s.mode s.w = true ∧ laneSt l.val s.w = 2 ∧ (s.w.lane l.val).readySent = true) ∧
    (∃ (l : Lane) (s : State), portsOn s.mode s.w = true ∧ laneSt l.val s.w = 3 ∧ (s.w.lane l.val).rxPam4 = true) ∧
    (∃ (l : Lane) (s : State), portsOn s.mode s.w = true ∧ laneSt l.val s.w = 3 ∧ (s.w.lane l.val).rxReady = true ∧ 3 ≤ (s.w.lane l.val).peerRxReady) ∧
    (∃ (sp : SubPort) (s : State), portsOn s.mode s.w = true ∧ spGrpSt sp.val s.w = 4) :=
  ⟨⟨1087, on .service (wr [(Reg.laneState 1087, 2)] bare0), by decide⟩,
    ⟨1087, [2], on .service (wr [(Reg.laneState 1087, 1)] bare0), by decide⟩,
    ⟨0, 4, 0, 1, 0, on .service (wr [(Reg.bringupState 0 0, 2)] bare0), by decide⟩,
    ⟨1087, on .service (wr [(Reg.laneState 1087, 2)] bare0), by decide⟩,
    ⟨1087, on .service (wr [(Reg.laneState 1087, 2)] (wLan { LaneSt.reset with lanes := [(1087, { LaneRt.init with readySent := true })] })), by
      decide⟩,
    ⟨1087, on .service (wr [(Reg.laneState 1087, 3)] (wLan { LaneSt.reset with lanes := [(1087, { LaneRt.init with rxPam4 := true })] })), by decide⟩,
    ⟨1087, on .service (wr [(Reg.laneState 1087, 3)] (wLan
      { LaneSt.reset with lanes := [(1087, { LaneRt.init with rxReady := true, peerRxReady := 3 })] })), by decide⟩,
    ⟨0, on .service (wr [(Reg.bringupState 0 0, 4)] bare0), by decide⟩⟩


theorem test_hypotheses_GossipCapabilityWords :
    (∃ (l : Lane) (payload : Nat) (s : State), portsOn s.mode s.w = true ∧ laneSt l.val s.w = 3 ∧ bit payload 2 = true) ∧
    (∃ (l : Lane) (exch : Nat) (payload : Nat) (c : Nat) (sp : SubPort) (s : State), portsOn s.mode s.w = true ∧ laneSt l.val s.w ≠ 3 ∧ laneGroup l
      s.w = .sub sp ∧ spGrpSt sp.val s.w = 5 ∧ bit payload 1 = true ∧ (s.w.grp (.sub sp)).leader = true ∧ (s.w.grp (.sub sp)).exch = exch ∧ (s.w.grp
      (.sub sp)).accepted = some c) ∧
    (∃ (l : Lane) (sp : SubPort) (s : State), portsOn s.mode s.w = true ∧ spOfLane l.val s.w = some sp.val ∧ spGrpSt sp.val s.w = 5 ∧ (s.w.grp (.sub
      sp)).leader = false ∧ (s.w.grp (.sub sp)).accepted = none) ∧
    (∃ (l : Lane) (exch : Nat) (sp : SubPort) (s : State), portsOn s.mode s.w = true ∧ spOfLane l.val s.w = some sp.val ∧ spGrpSt sp.val s.w = 5 ∧
      (s.w.grp (.sub sp)).leader = true ∧ (s.w.grp (.sub sp)).exch = exch ∧ (s.w.grp (.sub sp)).accepted = none) ∧
    (∃ (l : Lane) (exch : Nat) (c : Nat) (sp : SubPort) (s : State), portsOn s.mode s.w = true ∧ spOfLane l.val s.w = some sp.val ∧ spGrpSt sp.val s.w
      = 5 ∧ (s.w.grp (.sub sp)).leader = false ∧ (s.w.grp (.sub sp)).exch = exch ∧ (s.w.grp (.sub sp)).accepted = some c) ∧
    (∃ (s : State), portsOn s.mode s.w = true) :=
  ⟨⟨1087, 4, on .service (wr [(Reg.laneState 1087, 3)] bare0), by decide⟩,
    ⟨0, 255, 2, 7, 0, on .service (wr [(Reg.bringupState 0 0, 5)] (wLan
      { LaneSt.reset with groups := [(0, { GroupRt.init with leader := true, exch := 255, accepted := some 7 })] })), by decide⟩,
    ⟨15, 0, on .service (wr [(Reg.bringupState 0 0, 5)] (wLan { LaneSt.reset with groups := [(0, { GroupRt.init with exch := 1 })] })), by decide⟩,
    ⟨15, 255, 0, on .service (wr [(Reg.bringupState 0 0, 5)] (wLan
      { LaneSt.reset with groups := [(0, { GroupRt.init with leader := true, exch := 255 })] })), by decide⟩,
    ⟨15, 255, 7, 0, on .service (wr [(Reg.bringupState 0 0, 5)] (wLan
      { LaneSt.reset with groups := [(0, { GroupRt.init with exch := 255, accepted := some 7 })] })), by decide⟩,
    ⟨up, by decide⟩⟩


theorem test_hypotheses_LaneLossesAndFaults :
    (∃ (s : State), portsOn s.mode s.w = true) ∧
    (∃ (l : Lane) (s : State), portsOn s.mode s.w = true ∧ s.w.get (Reg.cdrLocked l.val) ≠ 0 ∧ laneSt l.val s.w = 13 ∧ laneUseOf l.val s.w = 4) ∧
    (∃ (l : Lane) (s : State), portsOn s.mode s.w = true ∧ s.w.get (Reg.cdrLocked l.val) ≠ 0 ∧ training (laneGroup l s.w) s.w = true ∧ (s.w.lane
      l.val).lockedOnce = true ∧ (∀ m, laneGroup l s.w = .alone m → laneUseOf m.val s.w ≠ 2 ∧ laneSt m.val s.w ≤ 3)) ∧
    (∃ (l : Lane) (s : State), portsOn s.mode s.w = true ∧ training (laneGroup l s.w) s.w = true ∧ (∀ m, laneGroup l s.w = .alone m → laneUseOf m.val
      s.w ≠ 2 ∧ laneSt m.val s.w ≤ 3)) ∧
    (∃ (l : Lane) (sp : SubPort) (e : Exch) (s : State), portsOn s.mode s.w = true ∧ laneSt l.val s.w = 6 ∧ spOfLane l.val s.w = some sp.val ∧ spGrpSt
      sp.val s.w = 6 ∧ (s.w.lan.exchs.find? fun e => e.2.spare == l.val) = none ∧ tget s.w.lan.exchs (s.w.get (Reg.serves l.val)) = some e ∧
      e.unplanned = false ∧ e.old = l.val) ∧
    (∃ (l : Lane) (sp : SubPort) (x : Nat) (s : State), portsOn s.mode s.w = true ∧ laneSt l.val s.w = 6 ∧ spOfLane l.val s.w = some sp.val ∧ spGrpSt
      sp.val s.w = 6 ∧ (s.w.lan.exchs.find? fun e => e.2.spare == l.val) = none ∧ tget s.w.lan.exchs (s.w.get (Reg.serves l.val)) = none ∧ capOf
      sp.val 0 s.w = true ∧ s.w.get (Reg.trainMode (s.w.get (Reg.serves l.val) / 16)) ≠ 1 ∧ s.w.get (Reg.serves l.val) < 1024 ∧ (freeList (s.w.get
      (Reg.serves l.val) / 16) (groupRate sp.val s.w) s.w).head? = some x) ∧
    (∃ (l : Lane) (sp : SubPort) (s : State), portsOn s.mode s.w = true ∧ laneSt l.val s.w = 6 ∧ spOfLane l.val s.w = some sp.val ∧ spGrpSt sp.val s.w
      = 6 ∧ (s.w.lan.exchs.find? fun e => e.2.spare == l.val) = none ∧ tget s.w.lan.exchs (s.w.get (Reg.serves l.val)) = none ∧ capOf sp.val 0 s.w =
      false) :=
  ⟨⟨up, by decide⟩,
    ⟨1087, on .service (wr [(Reg.cdrLocked 1087, 1), (Reg.laneState 1087, 13), (Reg.laneUse 1087, 4)] bare0), by decide⟩,
    ⟨1087, on .service (wr [(Reg.cdrLocked 1087, 1), (Reg.laneState 1087, 3), (Reg.laneUse 1087, 1)] (wLan
      { LaneSt.reset with lanes := [(1087, { LaneRt.init with lockedOnce := true })] })), by decide, by decide, by decide, by decide, fun m h => by
      cases h; decide⟩,
    ⟨1087, on .service (wr [(Reg.laneState 1087, 2), (Reg.laneUse 1087, 1)] bare0), by decide, by decide, fun m h => by cases h; decide⟩,
    ⟨0, 0, ⟨true, 9, 64, 64, 0, false, false, false, false, false, false, [], false, false, false, 0, false, true⟩, on .service (wr [(Reg.laneState 0,
      6), (Reg.bringupState 0 0, 6)] (wLan
      { LaneSt.reset with exchs := [(0, ⟨true, 9, 64, 64, 0, false, false, false, false, false, false, [], false, false, false, 0, false, true⟩)] })),
      by decide⟩,
    ⟨0, 0, 64, on .service (wr [(Reg.laneState 0, 6), (Reg.bringupState 0 0, 6), (Reg.agreedCaps 0 0, 1), (Reg.laneUse 64, 1), (Reg.laneState 64, 10)]
      (wLan { LaneSt.reset with lanes := [(64, { LaneRt.init with trained := some 0, freeSeen := true })] })), by decide⟩,
    ⟨0, 0, on .service (wr [(Reg.laneState 0, 6), (Reg.bringupState 0 0, 6)] bare0), by decide⟩⟩


theorem test_hypotheses_ExchangeWords :
    (∃ (l : Lane) (payload : Nat) (s : State), portsOn s.mode s.w = true ∧ laneUseOf l.val s.w = 1 ∧ laneSt l.val s.w = 10 ∧ ((s.w.lane
      l.val).freeSeen = true ∨ bit payload 7 = false)) ∧
    (∃ (l : Lane) (payload : Nat) (k : Nat) (sp : SubPort) (s : State), portsOn s.mode s.w = true ∧ wordKey l (payload % 16) s.w = some (sp.val, k) ∧
      spGrpSt sp.val s.w = 6 ∧ tget s.w.lan.exchs k = none ∧ (s.w.lan.exchs.find? fun e => e.2.spare == brickOfSp sp.val * 68 + bits payload 17 11) =
      none ∧ prepareRefusal sp.val (brickOfSp sp.val * 68 + bits payload 17 11) (bits payload 10 4) (bit payload 18) (bit payload 19) s.w = none) ∧
    (∃ (l : Lane) (payload : Nat) (k : Nat) (reason : Nat) (sp : SubPort) (s : State), portsOn s.mode s.w = true ∧ wordKey l (payload % 16) s.w = some
      (sp.val, k) ∧ spGrpSt sp.val s.w = 6 ∧ tget s.w.lan.exchs k = none ∧ (s.w.lan.exchs.find? fun e => e.2.spare == brickOfSp sp.val * 68 + bits
      payload 17 11) = none ∧ prepareRefusal sp.val (brickOfSp sp.val * 68 + bits payload 17 11) (bits payload 10 4) (bit payload 18) (bit payload 19)
      s.w = some reason) ∧
    (∃ (l : Lane) (exch : Nat) (payload : Nat) (k : Nat) (sp : Nat) (e : Exch) (s : State), portsOn s.mode s.w = true ∧ wordKey l (payload % 16) s.w =
      some (sp, k) ∧ tget s.w.lan.exchs k = some e ∧ e.exch = exch) ∧
    (∃ (l : Lane) (exch : Nat) (payload : Nat) (k : Nat) (sp : Nat) (e : Exch) (s : State), portsOn s.mode s.w = true ∧ wordKey l (payload % 16) s.w =
      some (sp, k) ∧ tget s.w.lan.exchs k = some e ∧ e.exch = exch ∧ e.taken = false) ∧
    (∃ (l : Lane) (exch : Nat) (payload : Nat) (k : Nat) (sp : Nat) (e : Exch) (s : State), portsOn s.mode s.w = true ∧ wordKey l (payload % 16) s.w =
      some (sp, k) ∧ tget s.w.lan.exchs k = some e ∧ e.exch = exch ∧ e.taken = false) ∧
    (∃ (l : Lane) (exch : Nat) (payload : Nat) (k : Nat) (sp : Nat) (e : Exch) (s : State), portsOn s.mode s.w = true ∧ wordKey l (payload % 16) s.w =
      some (sp, k) ∧ tget s.w.lan.exchs k = some e ∧ e.exch = exch ∧ e.taken = true ∧ e.survey = false ∧ tget s.w.lan.surveys e.spare = none ∧ e.spare
      < 1088 ∧ k < 1024) ∧
    (∃ (l : Lane) (exch : Nat) (payload : Nat) (k : Nat) (sp : Nat) (e : Exch) (s : State), portsOn s.mode s.w = true ∧ wordKey l (payload % 16) s.w =
      some (sp, k) ∧ tget s.w.lan.exchs k = some e ∧ e.exch = exch ∧ e.unplanned = false ∧ e.survey = false) ∧
    (∃ (l : Lane) (payload : Nat) (x : Nat) (v : SurveyRt) (s : State), portsOn s.mode s.w = true ∧ (s.w.lan.surveys.find? fun e => brickOfLane e.1 ==
      brickOfLane l.val && (e.1 == l.val ||
      (match e.2.role with | some k => k % 16 == payload % 16 && (spOfLane l.val s.w).map (· / 8) == some (k / 16) | none => false))) = some (x, v) ∧
      bits payload 5 4 = 1) ∧
    (∃ (l : Lane) (payload : Nat) (x : Nat) (v : SurveyRt) (s : State), portsOn s.mode s.w = true ∧ (s.w.lan.surveys.find? fun e => brickOfLane e.1 ==
      brickOfLane l.val && (e.1 == l.val ||
      (match e.2.role with | some k => k % 16 == payload % 16 && (spOfLane l.val s.w).map (· / 8) == some (k / 16) | none => false))) = some (x, v) ∧
      bits payload 5 4 = 2 ∧ v.own = false) ∧
    (∃ (l : Lane) (payload : Nat) (x : Nat) (s : State), portsOn s.mode s.w = true ∧ ((brickLanes (brickOfLane l.val)).find? fun y => (s.w.lane
      y).pair == some (bits payload 10 4) && laneUseOf y s.w == 1) = some x) :=
  ⟨⟨1087, 0x7F, on .service (wr [(Reg.laneUse 1087, 1), (Reg.laneState 1087, 10)] bare0), by decide⟩,
    ⟨0, 132096, 0, 0, on .service (wr [(Reg.bringupState 0 0, 6), (Reg.laneUse 64, 1), (Reg.laneState 64, 10), (Reg.agreedCaps 0 0, 2)] (wLan
      { LaneSt.reset with lanes := [(64, { LaneRt.init with trained := some 0, freeSeen := true, pair := some 64 })] })), by decide⟩,
    ⟨0, 132096, 0, 2, 0, on .service (wr [(Reg.bringupState 0 0, 6), (Reg.laneUse 64, 1), (Reg.laneState 64, 10)] bare0), by decide⟩,
    ⟨0, 9, 0, 0, 0, ⟨true, 9, 64, 64, 0, false, false, false, false, false, false, [], false, false, false, 0, false, true⟩, on .service (wLan
      { LaneSt.reset with exchs := [(0, ⟨true, 9, 64, 64, 0, false, false, false, false, false, false, [], false, false, false, 0, false, true⟩)] }),
      by decide⟩,
    ⟨0, 9, 0, 0, 0, ⟨true, 9, 64, 64, 0, false, false, false, false, false, false, [], false, false, false, 0, false, true⟩, on .service (wLan
      { LaneSt.reset with exchs := [(0, ⟨true, 9, 64, 64, 0, false, false, false, false, false, false, [], false, false, false, 0, false, true⟩)] }),
      by decide⟩,
    ⟨0, 9, 0, 0, 0, ⟨true, 9, 64, 64, 0, false, false, false, false, false, false, [], false, false, false, 0, false, true⟩, on .service (wLan
      { LaneSt.reset with exchs := [(0, ⟨true, 9, 64, 64, 0, false, false, false, false, false, false, [], false, false, false, 0, false, true⟩)] }),
      by decide⟩,
    ⟨0, 9, 0, 0, 0, ⟨true, 9, 1087, 64, 0, false, false, false, false, false, false, [], false, true, false, 0, false, true⟩, on .service (wLan
      { LaneSt.reset with exchs := [(0, ⟨true, 9, 1087, 64, 0, false, false, false, false, false, false, [], false, true, false, 0, false, true⟩)] }),
      by decide⟩,
    ⟨0, 9, 0, 0, 0, ⟨true, 9, 64, 64, 0, false, false, false, false, false, false, [], false, false, false, 0, false, true⟩, on .service (wLan
      { LaneSt.reset with exchs := [(0, ⟨true, 9, 64, 64, 0, false, false, false, false, false, false, [], false, false, false, 0, false, true⟩)] }),
      by decide⟩,
    ⟨0, 16, 0, ⟨none, 0, .measuring, true, 0, 0, 0, none⟩, on .service (wLan
      { LaneSt.reset with surveys := [(0, ⟨none, 0, .measuring, true, 0, 0, 0, none⟩)] }), by decide⟩,
    ⟨0, 32, 0, ⟨none, 0, .measuring, false, 0, 0, 0, none⟩, on .service (wLan
      { LaneSt.reset with surveys := [(0, ⟨none, 0, .measuring, false, 0, 0, 0, none⟩)] }), by decide⟩,
    ⟨0, 1024, 64, on .service (wr [(Reg.laneUse 64, 1)] (wLan
      { LaneSt.reset with lanes := [(64, { LaneRt.init with trained := some 0, freeSeen := true, pair := some 64 })] })), by decide⟩⟩


theorem test_hypotheses_ExchangeEvents :
    (∃ (p : Port) (role : Reg4) (e : Exch) (s : State), portsOn s.mode s.w = true ∧ tget s.w.lan.exchs (p.val * 16 + role.val) = some e ∧ e.bridged =
      true ∧ e.unplanned = false ∧ e.selfBridged = false ∧ e.oldFaulty = false) ∧
    (∃ (p : Port) (role : Reg4) (e : Exch) (s : State), portsOn s.mode s.w = true ∧ tget s.w.lan.exchs (p.val * 16 + role.val) = some e ∧ e.unplanned
      = false ∧ e.taken = false ∧ rollHeld e.rollCopies = true ∧ e.peerRolled = false) ∧
    (∃ (p : Port) (role : Reg4) (e : Exch) (s : State), portsOn s.mode s.w = true ∧ tget s.w.lan.exchs (p.val * 16 + role.val) = some e ∧ e.rollSent =
      true ∧ e.peerRolled = false ∧ e.tries < 8) ∧
    (∃ (p : Port) (role : Reg4) (e : Exch) (s : State), portsOn s.mode s.w = true ∧ tget s.w.lan.exchs (p.val * 16 + role.val) = some e ∧ e.rollSent =
      true ∧ e.peerRolled = false ∧ 8 ≤ e.tries) ∧
    (∃ (p : Port) (role : Reg4) (e : Exch) (s : State), portsOn s.mode s.w = true ∧ tget s.w.lan.exchs (p.val * 16 + role.val) = some e ∧ e.bridged =
      true ∧ e.oldFaulty = true ∧ e.taken = false ∧ e.peerRolled = false) :=
  ⟨⟨63, 15, ⟨true, 9, 64, 64, 0, false, false, false, true, false, false, [], false, false, false, 0, false, true⟩, on .service (wLan
      { LaneSt.reset with exchs := [(1023, ⟨true, 9, 64, 64, 0, false, false, false, true, false, false, [], false, false, false, 0, false, true⟩)] }),
      by decide⟩,
    ⟨63, 15, ⟨true, 9, 64, 64, 0, false, false, false, false, false, false, [(0, 5), (1, 5)], false, false, false, 0, false, true⟩, on .service (wLan
      { LaneSt.reset with exchs := [(1023, ⟨true, 9, 64, 64, 0, false, false, false, false, false, false, [(0, 5), (1, 5)], false, false, false, 0, false, true⟩)] }),
      by decide⟩,
    ⟨63, 15, ⟨true, 9, 64, 64, 0, false, false, false, false, false, false, [], true, false, false, 7, false, true⟩, on .service (wLan
      { LaneSt.reset with exchs := [(1023, ⟨true, 9, 64, 64, 0, false, false, false, false, false, false, [], true, false, false, 7, false, true⟩)] }),
      by decide⟩,
    ⟨63, 15, ⟨true, 9, 64, 64, 0, false, false, false, false, false, false, [], true, false, false, 8, false, true⟩, on .service (wLan
      { LaneSt.reset with exchs := [(1023, ⟨true, 9, 64, 64, 0, false, false, false, false, false, false, [], true, false, false, 8, false, true⟩)] }),
      by decide⟩,
    ⟨63, 15, ⟨true, 9, 64, 64, 0, true, false, false, true, false, false, [], false, false, false, 0, true, true⟩, on .service (wLan
      { LaneSt.reset with exchs := [(1023, ⟨true, 9, 64, 64, 0, true, false, false, true, false, false, [], false, false, false, 0, true, true⟩)] }),
      by decide⟩⟩


theorem test_hypotheses_PoolLanesAndSurveys :
    (∃ (l : Lane) (s : State), portsOn s.mode s.w = true ∧ laneUseOf l.val s.w = 1 ∧ laneSt l.val s.w = 10) ∧
    (∃ (l : Lane) (s : State), portsOn s.mode s.w = true ∧ laneUseOf l.val s.w = 2 ∧ laneSt l.val s.w = 11 ∧ surveying l.val s.w = false) ∧
    (∃ (l : Lane) (m : SurveyMeas) (s : State), portsOn s.mode s.w = true ∧ laneUseOf l.val s.w = 2 ∧ (s.w.lane l.val).retesting = true ∧ (s.w.lane
      l.val).trained.isSome = true ∧ m.errors * 1000000 ≤ m.bits ∧ s.w.get Reg.vFloorMv ≤ minOf m.v ∧ s.w.get Reg.hFloor ≤ minOf m.h) ∧
    (∃ (l : Lane) (m : SurveyMeas) (s : State), portsOn s.mode s.w = true ∧ laneUseOf l.val s.w = 2 ∧ (s.w.lane l.val).retesting = true ∧ (s.w.lane
      l.val).trained.isSome = true ∧ m.bits < m.errors * 1000000) ∧
    (∃ (s : State), portsOn s.mode s.w = true ∧ roundMay s.w = true) ∧
    (∃ (b : Brick) (l : Nat) (rest : List Nat) (s : State), portsOn s.mode s.w = true ∧ (s.w.round b.val).current = none ∧ bareSvc s.w = false ∧
      s.w.bnd.dozing = false ∧ (s.w.round b.val).asked = l :: rest ∧ laneUseOf l s.w = 1 ∧ laneSt l s.w = 10 ∧ exchHolds l s.w = false) ∧
    (∃ (b : Brick) (s : State), portsOn s.mode s.w = true ∧ ((s.w.round b.val).current.isSome = true ∨ bareSvc s.w = true ∨ s.w.bnd.dozing = true)) ∧
    (∃ (b : Brick) (l : Nat) (v : SurveyRt) (s : State), portsOn s.mode s.w = true ∧ (measuringIn b.val s.w).find? (fun e => e.2.own) = some (l, v) ∧
      v.role = none) ∧
    (∃ (b : Brick) (l : Nat) (v : SurveyRt) (s : State), portsOn s.mode s.w = true ∧ (measuringIn b.val s.w).find? (fun e => e.2.own) = none ∧
      (measuringIn b.val s.w).head? = some (l, v)) ∧
    (∃ (c : Nat) (s : State), portsOn s.mode s.w = true ∧ c < 4) ∧
    (∃ (s : State), reeveOn s.mode s.w = true ∧ granaryShut s.w = false) :=
  ⟨⟨1087, on .service (wr [(Reg.laneUse 1087, 1), (Reg.laneState 1087, 10)] bare0), by decide⟩,
    ⟨1087, on .service (wr [(Reg.laneUse 1087, 2), (Reg.laneState 1087, 11)] bare0), by decide⟩,
    ⟨1087, ⟨[60], [60], 1, 1000000⟩, on .service (wr [(Reg.laneUse 1087, 2)] (wLan
      { LaneSt.reset with lanes := [(1087, { LaneRt.init with retesting := true, trained := some 0 })] })), by decide⟩,
    ⟨1087, ⟨[60], [60], 2, 1000000⟩, on .service (wr [(Reg.laneUse 1087, 2)] (wLan
      { LaneSt.reset with lanes := [(1087, { LaneRt.init with retesting := true, trained := some 0 })] })), by decide⟩,
    ⟨up, by decide⟩,
    ⟨15, 1087, [], on .service (wr [(Reg.laneUse 1087, 1), (Reg.laneState 1087, 10)] (wLan
      { LaneSt.reset with rounds := [(15, { RoundRt.init with asked := [1087] })] })), by decide⟩,
    ⟨15, on .doze (wBnd { BoundarySt.reset with dozing := true }), by decide⟩,
    ⟨0, 0, ⟨none, 0, .measuring, true, 0, 0, 0, none⟩, on .service (wLan
      { LaneSt.reset with surveys := [(0, ⟨none, 0, .measuring, true, 0, 0, 0, none⟩)] }), by decide⟩,
    ⟨0, 0, ⟨none, 0, .measuring, false, 0, 0, 0, none⟩, on .service (wLan
      { LaneSt.reset with surveys := [(0, ⟨none, 0, .measuring, false, 0, 0, 0, none⟩)] }), by decide⟩,
    ⟨3, up, by decide⟩,
    ⟨up, by decide⟩⟩


theorem test_hypotheses_LaneMeasurementsAndFieldLanes :
    (∃ (sp : SubPort) (rc : List Nat) (s : State), portsOn s.mode s.w = true ∧ spUp sp.val s.w = true ∧ spWidthOf sp.val s.w ≤ 16 ∧ (∀ n ∈ rc, n <
      s.w.get (Reg.laneSerLimit (portOfSp sp.val)))) ∧
    (∃ (l : Lane) (s : State), portsOn s.mode s.w = true ∧ laneSt l.val s.w = 13 ∧ s.w.get (Reg.prbsRx l.val) % 4 ≠ 0) ∧
    (∃ (l : Lane) (s : State), portsOn s.mode s.w = true ∧ s.w.get (Reg.eyeState l.val) = 1) ∧
    (∃ (l : Lane) (s : State), portsOn s.mode s.w = true ∧ s.w.get (Reg.eyeState l.val) = 3) ∧
    (∃ (f : Fin 2) (s : State), reeveOn s.mode s.w = true ∧ fieldRuns s.mode = true ∧ bit (s.w.get Reg.fEnable) f.val = true ∧ s.w.get (fieldUpReg
      f.val) = 0 ∧ s.w.bnd.clocksStopped = false ∧ s.w.bnd.fetchDue = false) ∧
    (∃ (f : Fin 2) (s : State), reeveOn s.mode s.w = true ∧ s.w.get (fieldUpReg f.val) ≠ 0) :=
  ⟨⟨511, [0], on .service (wr [(Reg.spState 63 7, 2)] bare0), by decide⟩,
    ⟨1087, on .service (wr [(Reg.laneState 1087, 13), (Reg.prbsRx 1087, 1)] bare0), by decide⟩,
    ⟨1087, on .service (wr [(Reg.eyeState 1087, 1)] bare0), by decide⟩,
    ⟨1087, on .service (wr [(Reg.eyeState 1087, 3)] bare0), by decide⟩,
    ⟨1, on .sealedMode (wr [(Reg.fEnable, 3)] bare0), by decide⟩,
    ⟨1, on .sealedMode (wr [(fieldUpReg 1, 1)] bare0), by decide⟩⟩


theorem test_hypotheses_HeaderLockAndPauses :
    (∃ (sp : SubPort) (s : State), portsOn s.mode s.w = true ∧ spFlows sp.val s.w = true ∧ sp.val ∉ s.w.prt.lockLost) ∧
    (∃ (sp : SubPort) (s : State), portsOn s.mode s.w = true ∧ sp.val ∈ s.w.prt.lockLost ∧ unplannedRuns sp.val s.w = false) ∧
    (∃ (s : State), portsOn s.mode s.w = true) ∧
    (∃ (sp : SubPort) (s : State), portsOn s.mode s.w = true ∧ spUp sp.val s.w = true ∧ sp.val ∉ s.w.prt.lockLost ∧ unplannedRuns sp.val s.w = false) ∧
    (∃ (sp : SubPort) (n : Nat) (s : State), portsOn s.mode s.w = true ∧ spUp sp.val s.w = true ∧ s.w.get (Reg.fcMode sp.val) = 1 ∧ n < 8) ∧
    (∃ (sp : SubPort) (n : Nat) (s : State), portsOn s.mode s.w = true ∧ spUp sp.val s.w = true ∧ s.w.get (Reg.fcMode sp.val) = 2 ∧ n < 8) ∧
    (∃ (s : State), portsOn s.mode s.w = true) ∧
    (∃ (sp : SubPort) (tc : Fin 8) (s : State), portsOn s.mode s.w = true ∧ bit (s.w.get (Reg.txXoff sp.val)) tc.val = true ∧ s.w.get (Reg.xonCells
      sp.val) < classCells sp.val tc.val s.w ∧ spUp sp.val s.w = true) :=
  ⟨⟨511, on .service (wr [(Reg.spState 63 7, 2)] bare0), by decide⟩,
    ⟨511, on .service (wPrt { PortSt.reset with lockLost := [511] }), by decide⟩,
    ⟨up, by decide⟩,
    ⟨511, on .service (wr [(Reg.spState 63 7, 2)] bare0), by decide⟩,
    ⟨511, 7, on .service (wr [(Reg.spState 63 7, 2), (Reg.fcMode 511, 1)] bare0), by decide⟩,
    ⟨511, 7, on .service (wr [(Reg.spState 63 7, 2), (Reg.fcMode 511, 2)] bare0), by decide⟩,
    ⟨up, by decide⟩,
    ⟨0, 7, on .service (wr [(Reg.spState 0 0, 2), (Reg.txXoff 0, 128), (Reg.xonCells 0, 0)] (wIng
      { IngressSt.reset with cells := [(0, [⟨0, [], 0, true, false, 7, false⟩])] })), by decide⟩⟩


theorem test_hypotheses_QuietHandshake :
    (∃ (p : Port) (s : State), portsOn s.mode s.w = true ∧ s.w.bnd.dozing = false ∧ (s.w.quiet p.val).phase = .none ∧ quietReady p.val s.w = true ∧
      portIdle p.val s.w = true ∧ s.w.get (Reg.quietEnable p.val) ≠ 0) ∧
    (∃ (p : Port) (s : State), portsOn s.mode s.w = true ∧ ((s.w.quiet p.val).phase = .requesting ∨ (s.w.quiet p.val).phase = .answering) ∧ quietReady
      p.val s.w = true) ∧
    (∃ (p : Port) (s : State), portsOn s.mode s.w = true ∧ s.w.bnd.dozing = false ∧ (s.w.quiet p.val).phase = .requesting) ∧
    (∃ (p : Port) (s : State), portsOn s.mode s.w = true ∧ s.w.bnd.dozing = false ∧ ((s.w.quiet p.val).phase = .requesting ∨ (s.w.quiet p.val).phase =
      .answering)) ∧
    (∃ (p : Port) (s : State), portsOn s.mode s.w = true ∧ s.w.bnd.dozing = false ∧ quietSps p.val s.w ≠ [] ∧ (s.w.quiet p.val).phase ≠ .waking) ∧
    (∃ (p : Port) (s : State), portsOn s.mode s.w = true ∧ (s.w.quiet p.val).phase = .waking) ∧
    (∃ (p : Port) (s : State), portsOn s.mode s.w = true ∧ (s.w.quiet p.val).awaiting = true) :=
  ⟨⟨0, on .service (wr [(Reg.spState 0 0, 2), (Reg.agreedCaps 0 0, 8), (Reg.quietEnable 0, 1)] bare0), by decide⟩,
    ⟨0, on .service (wr [(Reg.spState 0 0, 2), (Reg.agreedCaps 0 0, 8)] (wPrt
      { PortSt.reset with quiet := [(0, { QuietRt.init with phase := .answering })] })), by decide⟩,
    ⟨0, on .service (wr [(Reg.spState 0 0, 2), (Reg.agreedCaps 0 0, 8)] (wPrt
      { PortSt.reset with quiet := [(0, { QuietRt.init with phase := .requesting })] })), by decide⟩,
    ⟨0, on .service (wr [(Reg.spState 0 0, 2), (Reg.agreedCaps 0 0, 8)] (wPrt
      { PortSt.reset with quiet := [(0, { QuietRt.init with phase := .answering })] })), by decide⟩,
    ⟨0, on .service (wr [(Reg.spState 0 0, 3)] bare0), by decide⟩,
    ⟨63, on .service (wPrt { PortSt.reset with quiet := [(63, { QuietRt.init with phase := .waking })] }), by decide⟩,
    ⟨63, on .service (wPrt { PortSt.reset with quiet := [(63, { QuietRt.init with awaiting := true })] }), by decide⟩⟩


theorem test_hypotheses_MacroMovesWriteOneRegister :
    (∃ (u : Seqr) (s : State), atInstr u.val s = true) :=
  ⟨16, on .sealedMode bare0, by decide⟩

theorem test_hypotheses_MacroAddSubSetTheFlags :
    (∃ (u : Seqr) (s : State), atInstr u.val s = true) :=
  ⟨0, stw SeqRt.init, by decide⟩

theorem test_hypotheses_MacroLogicAndShifts :
    (∃ (u : Seqr) (s : State), atInstr u.val s = true) :=
  ⟨16, up, by decide⟩

theorem test_hypotheses_MacroMemoryAndIo :
    (∃ (u : Seqr) (s : State) (g : Reg4), atInstr u.val s = true ∧ noFault s ∧ (s.w.seq u.val).reg g.val < dataSize u.val) ∧
    (∃ (u : Seqr) (s : State) (d : Reg4), atInstr u.val s = true ∧ noFault s ∧ (s.w.seq u.val).reg d.val < dataSize u.val) ∧
    (∃ (u : Seqr) (s : State) (d : Reg4), atInstr u.val s = true ∧ noFault s ∧ u.val < 16 ∧ 0xF010 ≤ (s.w.seq u.val).reg d.val % 2 ^ 16 ∧ (s.w.seq
      u.val).reg d.val % 2 ^ 16 ≤ 0xF0FF) :=
  ⟨⟨0, stw SeqRt.init, 1, by decide, rfl, by decide⟩,
    ⟨16, up, 0, by decide, rfl, by decide⟩,
    ⟨0, stw seqA, 1, by decide, rfl, by decide, by decide, by decide⟩⟩


theorem test_hypotheses_MacroControlGoesWhereItSays :
    (∃ (u : Seqr) (s : State), atInstr u.val s = true ∧ noFault s) ∧
    (∃ (u : Seqr) (s : State), atInstr u.val s = true ∧ noFault s ∧ (s.w.seq u.val).stack.length < 16) ∧
    (∃ (u : Seqr) (s : State) (a : _) (st : _), atInstr u.val s = true ∧ noFault s ∧ (s.w.seq u.val).stack = a :: st) :=
  ⟨⟨16, up, by decide, rfl⟩,
    ⟨0, stw { seqA with stack := List.replicate 15 4095 }, by decide, rfl, by decide⟩,
    ⟨0, stw { seqA with stack := [4095, 1] }, 4095, [1], by decide, rfl, rfl⟩⟩


theorem test_hypotheses_MacroWaitsInterruptsAndTraps :
    (∃ (u : Seqr) (s : State), atInstr u.val s = true ∧ noFault s) ∧
    (∃ (u : Seqr) (s : State), atInstr u.val s = true ∧ noFault s ∧ (s.w.seq u.val).inHandler = true) :=
  ⟨⟨0, stw seqA, by decide, rfl⟩,
    ⟨0, stw { seqA with inHandler := true }, by decide, rfl, by decide⟩⟩


theorem test_hypotheses_MacroFaultsRestartTheSequencer :
    (∃ (u : Seqr) (s : State), atInstr u.val s = true ∧ noFault s ∧ (s.w.seq u.val).stack.length = 16) ∧
    (∃ (u : Seqr) (s : State), atInstr u.val s = true ∧ noFault s ∧ (s.w.seq u.val).stack = []) ∧
    (∃ (u : Seqr) (s : State), atInstr u.val s = true ∧ noFault s ∧ (s.w.seq u.val).inHandler = false) ∧
    (∃ (u : Seqr) (s : State) (g : Reg4), atInstr u.val s = true ∧ noFault s ∧ dataSize u.val ≤ (s.w.seq u.val).reg g.val) ∧
    (∃ (u : Seqr) (s : State) (d : Reg4), atInstr u.val s = true ∧ noFault s ∧ dataSize u.val ≤ (s.w.seq u.val).reg d.val) :=
  ⟨⟨0, stw { seqA with stack := List.replicate 16 0 }, by decide, rfl, by decide⟩,
    ⟨0, stw seqA, by decide, rfl, by decide⟩,
    ⟨16, up, by decide, rfl, by decide⟩,
    ⟨0, stw seqA, 0, by decide, rfl, by decide⟩,
    ⟨0, stw seqA, 2, by decide, rfl, by decide⟩⟩


theorem test_hypotheses_VendorIllegalAndHookOpcodes :
    (∃ (u : Seqr) (s : State) (op : Byte) (opr : Byte) (a : Nat) (n : Nat) (r : SeqRt) (w : Wall), atInstr u.val s = true ∧ noFault s ∧ 0x40 ≤
      op.toNat ∧ op.toNat < 0xC0 ∧ tget (s.w.seq u.val).dispatch op.toNat = some a ∧ microRun u.val opr.toNat 4096 4096 0 a [] (fetched op.toNat
      opr.toNat (s.w.seq u.val)) s.w = .done r w n) ∧
    (∃ (u : Seqr) (s : State) (op : Byte), atInstr u.val s = true ∧ noFault s ∧ dispatchesIllegal u.val op.toNat s.w = true) ∧
    (∃ (u : Seqr) (s : State) (n : Byte), atInstr u.val s = true ∧ noFault s ∧ (u.val = 16 ∨ s.w.flag (Reg.customerActive u.val) = false ∨ tget
      s.w.stw.hooks n.toNat = none)) ∧
    (∃ (u : Seqr) (s : State) (n : Byte) (h : Nat) (a : Nat) (k : Nat) (r : SeqRt) (w : Wall), atInstr u.val s = true ∧ noFault s ∧ u.val < 16 ∧
      s.w.flag (Reg.customerActive u.val) = true ∧ tget s.w.stw.hooks n.toNat = some h ∧ tget (s.w.seq u.val).dispatch (h % 256) = some a ∧ inCustomer
      u.val a = true ∧ microRun u.val (h / 256) 1024 1024 0 a [] { fetched 0x24 n.toNat (s.w.seq u.val) with nowCust := true } s.w = .done r w k) :=
  ⟨⟨0, stw seqA, 0x40, 255, 0x4800, 1, fetched 0x40 255 ((stw seqA).w.seq 0), (stw seqA).w, by decide, rfl, by decide, by decide, by decide, rfl⟩,
    ⟨0, stw seqA, 0xFF, by decide, rfl, by decide⟩,
    ⟨16, up, 255, by decide, rfl, by decide⟩,
    ⟨0, on .service (wr [(Reg.stState 0, 1), (Reg.customerActive 0, 1)] (wStw { StewardSt.reset with seqs := [(0, seqA)], hooks := [(7, 0x40)] })), 7,
      0x40, 0x4800, 1, { fetched 0x24 7 seqA with nowCust := true }, wr [(Reg.stState 0, 1), (Reg.customerActive 0, 1)] (wStw
      { StewardSt.reset with seqs := [(0, seqA)], hooks := [(7, 0x40)] }), by decide, rfl, by decide, by decide, by decide, by decide, by decide, rfl⟩⟩


theorem test_hypotheses_BellhouseTimersAndRestarts :
    (∃ (u : Seqr) (s : State) (src : Nat), awake s.mode s.w = true ∧ seqRuns s.mode u.val s.w = true ∧ noFault s ∧ (s.w.seq u.val).ie = true ∧
      (s.w.seq u.val).inHandler = false ∧ winner s.w u.val = some src ∧ tget (s.w.seq u.val).handlers src = none) ∧
    (∃ (u : Seqr) (g : Fin 8) (s : State), awake s.mode s.w = true ∧ (tget (s.w.seq u.val).holdoff g.val).isSome = true) ∧
    (∃ (u : Seqr) (s : State), awake s.mode s.w = true ∧ seqRuns s.mode u.val s.w = true) ∧
    (∃ (s : State), reeveOn s.mode s.w = true) ∧
    (∃ (u : Seqr) (s : State), awake s.mode s.w = true ∧ seqRuns s.mode u.val s.w = true ∧ noFault s) ∧
    (∃ (n : Fin 16) (s : State), awake s.mode s.w = true ∧ seqRuns s.mode n.val s.w = true) ∧
    (∃ (n : Fin 16) (s : State) (cause : Nat), reeveOn s.mode s.w = true ∧ (s.mode = .kindle ∨ s.mode = .service) ∧ tget s.w.stw.restarting n.val =
      some cause) :=
  ⟨⟨16, on .service (wr [(Reg.bhPending 16, 2 ^ 63), (Reg.bhEnable 16, 2 ^ 63)] (wStw
      { StewardSt.reset with seqs := [(16, { SeqRt.init with ie := true })] })), 63, by decide, by decide, rfl, by decide +kernel⟩,
    ⟨0, 7, stw { seqA with holdoff := [(7, 9)] }, by decide⟩,
    ⟨0, stw seqA, by decide⟩,
    ⟨up, by decide⟩,
    ⟨0, stw seqA, by decide, by decide, rfl⟩,
    ⟨0, stw seqA, by decide⟩,
    ⟨15, on .kindle (wStw { StewardSt.reset with restarting := [(15, 7)] }), 7, by decide⟩⟩


theorem test_hypotheses_FramesReceivedAndCellsSent :
    (∃ (r : RxFrame) (s : State), portsOn s.mode s.w = true ∧ r.cut = true ∧ spWidthOf r.sp.val s.w ≠ 0 ∧ spSt r.sp.val s.w ≠ 5) ∧
    (∃ (r : RxFrame) (s : State), portsOn s.mode s.w = true ∧ r.cut = false ∧ spFlows r.sp.val s.w = false) ∧
    (∃ (r : RxFrame) (k : Nat) (s : State), portsOn s.mode s.w = true ∧ r.cut = false ∧ spFlows r.sp.val s.w = true ∧ macFault r.sp.val r.bytes
      r.codeError s.w = some k) ∧
    (∃ (r : RxFrame) (s : State), portsOn s.mode s.w = true ∧ r.cut = false ∧ spFlows r.sp.val s.w = true ∧ macFault r.sp.val r.bytes r.codeError s.w
      = none ∧ u16at r.bytes 12 ≠ 0x8808 ∧ s.w.get (Reg.hostSp r.sp.val) ≠ 0 ∧ filterOk r.sp.val r.bytes s.w = false) ∧
    (∃ (r : RxFrame) (g : List Byte) (sec : Bool) (x : Wall) (y : Wall) (v : Wall) (z : Wall) (s : State), portsOn s.mode s.w = true ∧ r.cut = false ∧
      spFlows r.sp.val s.w = true ∧ macFault r.sp.val r.bytes r.codeError s.w = none ∧ u16at r.bytes 12 ≠ 0x8808 ∧ s.w.get (Reg.hostSp r.sp.val) = 0 ∧
      macsecRx r.sp.val (noFcs r.bytes) (portBusy (r.sp.val / 8) s.w) = (.pass g sec, x) ∧ y = countRx r.sp.val r.bytes.length (frameBe r.bytes 0 6)
      (frameTc r.sp.val g x) x ∧ ptpAt r.sp.val g y = none ∧ admits r.sp.val (frameTc r.sp.val g y) y = true ∧ parseRoom (r.sp.val / 8) y = some v ∧
      isInband r.sp.val g v = false ∧ writeChunks r.sp.val v.ing.nextFrame (frameTc r.sp.val g y) (rxStamp r.sp.val r.stamp v) 1100 (ceilDiv g.length
      16) 0 (placed r.sp.val (rxStamp r.sp.val r.stamp v) sec g v) = .ok z) ∧
    (∃ (sp : SubPort) (cs : List ICell) (c : ICell) (s : State), portsOn s.mode s.w = true ∧ cellsOf sp.val s.w = cs ++ [c] ∧ c.closed = false) ∧
    (∃ (b : Brick) (k : Nat) (left : Nat) (c : ICell) (s : State), portsOn s.mode s.w = true ∧ 0 < courseCredits (courseOfBrick b.val) s.w ∧ (tget
      s.w.bnd.pool (courseOfBrick b.val)).isSome = true ∧ wrrPick b.val s.w = some (k, left) ∧ nextCell (b.val * 32 + k) s.w = some c) ∧
    (∃ (b : Brick) (s : State), portsOn s.mode s.w = true ∧ anyEligible b.val s.w = true ∧ courseCredits (courseOfBrick b.val) s.w = 0 ∧ bit
      s.w.ing.stalled b.val = false) :=
  ⟨⟨⟨0, [], false, true, 0⟩, up, by decide⟩,
    ⟨rx64, up, by decide⟩,
    ⟨⟨0, List.replicate 4 0, false, false, 0⟩, 15, on .service wActive, by decide⟩,
    ⟨rx64, on .service { Wall.reset with regs := [((Reg.spState 0 0).key, 2), ((Reg.hostSp 0).key, 1), ((Reg.spMac 0).key, 16)] }, by decide, by
      decide, by decide, by decide +kernel, by decide, by decide, by decide +kernel⟩,
    ⟨rx64, noFcs frame64, false, rxX, rxY, rxV, rxZ, on .service wActive, by decide, by decide, by decide, by decide +kernel, by decide +kernel, by decide, by rfl,
      rfl, by decide +kernel, by decide +kernel, some_getD_of (by decide +kernel), by decide +kernel, rxZ_of (by decide +kernel)⟩,
    ⟨511, [⟨0, [], 0, true, false, 0, false⟩], ⟨0, [], 0, false, false, 0, false⟩, on .service (wIng
      { IngressSt.reset with cells := [(511, [⟨0, [], 0, true, false, 0, false⟩, ⟨0, [], 0, false, false, 0, false⟩])] }), by decide⟩,
    ⟨0, 0, 15, ⟨0, [], 0, true, false, 0, false⟩, on .service
      { Wall.reset with bnd := { BoundarySt.reset with pool := [(0, 8)], credits := [(0, 1)] }, ing := { IngressSt.reset with cells := [(0, [⟨0, [], 0, true, false, 0, false⟩])] } },
      by decide⟩,
    ⟨0, on .service (wIng { IngressSt.reset with cells := [(0, [⟨0, [], 0, true, false, 0, false⟩])] }), by decide⟩⟩


theorem test_hypotheses_SieveOperations :
    (∃ (b : Brick) (s : State), windowOpen s.mode s.w = true ∧ swapping b.val s.w = false) ∧
    (∃ (b : Brick) (i : Fin 8192) (c : Instr) (s : State), windowOpen s.mode s.w = true ∧ swapping b.val s.w = true ∧ (c = .sieveWriteShadow b i ∨ c =
      .sieveReadShadow b i ∨ c = .sieveInvalidateShadow b i ∨ c = .sieveSwap (some b))) ∧
    (∃ (b : Brick) (s : State), awake s.mode s.w = true ∧ swapping b.val s.w = true) ∧
    (∃ (b : Brick) (e : Fin 1024) (s : State), portsOn s.mode s.w = true ∧ (tget s.w.ing.glean (gleanKey b.val e.val)).isSome = true) ∧
    (∃ (r : LReq) (row : ObjRow) (u : Nat) (k : Nat) (data : List Byte) (s : State), u < 16 ∧ rowId row = 0x210308 ∧ Ready r row u k 1 data s) :=
  ⟨⟨15, up, by decide⟩,
    ⟨15, 8191, .sieveSwap (some 15), on .service (wr [(Reg.swapState 15, 1)] bare0), by decide⟩,
    ⟨15, on .service (wr [(Reg.swapState 15, 1)] bare0), by decide⟩,
    ⟨15, 1023, on .service (wIng { IngressSt.reset with glean := [(15 * 1024 + 1023, ⟨0, 0, 0, 0, 0, [], 0, none, 0⟩)] }), by decide⟩,
    ⟨(ask .h 0x21F3 0x8 [1]), rowOf 0x21F3 0x8, 15, 0, [1], asked (ask .h 0x21F3 0x8 [1]) .service (bare0), by decide, by decide, ready_of (by decide)
      (by decide)⟩⟩


theorem test_hypotheses_TimeWritesAndCaptures :
    (∃ (r : LReq) (row : ObjRow) (u : Nat) (k : Nat) (v : Nat) (data : List Byte) (s : State), Ready r row u k v data s ∧ rowId row = 0x130401) ∧
    (∃ (r : LReq) (row : ObjRow) (u : Nat) (k : Nat) (v : Nat) (data : List Byte) (s : State), Ready r row u k v data s ∧ rowId row = 0x130402 ∧ 0 ≤
      wallAfter s.w.time.waits s.w.wallT + toInt 64 v) ∧
    (∃ (r : LReq) (row : ObjRow) (u : Nat) (k : Nat) (v : Nat) (data : List Byte) (s : State), Ready r row u k v data s ∧ rowId row = 0x130403) ∧
    (∃ (s : State), clocksRun s.mode s.w = true) ∧
    (∃ (r : LReq) (row : ObjRow) (u : Nat) (k : Nat) (s : State), serves s.mode s.w = true ∧ s.w.led.queue.head? = some r ∧ r.op = .read ∧ modeAbort
      s.mode r (headTaken s.w) = none ∧ r.index < 0xF000 ∧ findRow r.index r.sub objTable = some (row, u, k) ∧ canRead r.role row = true ∧ row.type ≠
      .domain ∧ (bareSvc (headTaken s.w) && absentBare r.index r.sub) = false ∧ rowId row = 0x500404) ∧
    (∃ (r : LReq) (row : ObjRow) (u : Nat) (k : Nat) (s : State), serves s.mode s.w = true ∧ s.w.led.queue.head? = some r ∧ r.op = .read ∧ modeAbort
      s.mode r (headTaken s.w) = none ∧ r.index < 0xF000 ∧ findRow r.index r.sub objTable = some (row, u, k) ∧ canRead r.role row = true ∧ row.type ≠
      .domain ∧ (bareSvc (headTaken s.w) && absentBare r.index r.sub) = false ∧ rowId row = 0x152003) :=
  ⟨⟨(ask .h 0x1304 0x1 (List.replicate 12 0)), rowOf 0x1304 0x1, 0, 0, 0, (List.replicate 12 0), asked (ask .h 0x1304 0x1 (List.replicate 12 0))
      .service (bare0), ready_of (by decide) (by decide), by decide⟩,
    ⟨(ask .h 0x1304 0x2 [1, 0, 0, 0, 0, 0, 0, 0]), rowOf 0x1304 0x2, 0, 0, 1, [1, 0, 0, 0, 0, 0, 0, 0], asked (ask .h 0x1304 0x2 [1, 0, 0, 0, 0, 0, 0,
      0]) .service (bare0), ready_of (by decide) (by decide), by decide, by decide⟩,
    ⟨(ask .h 0x1304 0x3 [0, 155, 50, 226]), rowOf 0x1304 0x3, 0, 0, 3794967296, [0, 155, 50, 226], asked (ask .h 0x1304 0x3 [0, 155, 50, 226])
      .service (bare0), ready_of (by decide) (by decide), by decide⟩,
    ⟨on .sealedMode bare0, by decide⟩,
    ⟨⟨.mailbox, .h, 0x5FFC, 4, .read⟩, rowOf 0x5FFC 4, 511, 0, asked ⟨.mailbox, .h, 0x5FFC, 4, .read⟩ .doze (bare0), by decide, by decide, by decide,
      by decide, by decide, found_of (by decide), by decide, by decide, by decide, by decide⟩,
    ⟨⟨.mailbox, .h, 0x1520, 3, .read⟩, rowOf 0x1520 3, 0, 0, asked ⟨.mailbox, .h, 0x1520, 3, .read⟩ .doze (bare0), by decide +kernel, by decide +kernel, by decide +kernel,
      by decide +kernel, by decide +kernel, found_of (by decide +kernel), by decide +kernel, by decide +kernel, by decide +kernel, by decide +kernel⟩⟩


theorem test_hypotheses_DeferredResponses :
    (∃ (kind : StoreKind) (c : Instr) (id : Nat) (r : LReq) (row : ObjRow) (u : Nat) (k : Nat) (v : Nat) (data : List Byte) (s : State), (kind, c, id)
      ∈ [(StoreKind.store, Instr.storeRange, 0x101001), (.restore, .restoreRange, 0x101101), (.dflt, .defaultRange, 0x101102)] ∧ Ready r row u k v
      data s ∧ rowId row = id ∧ s.w.led.store = none ∧ granaryShut s.w = false ∧ sheavesFor kind (covered r.role (v % 2 ^ 16) (v / 2 ^ 16)) (headTaken
      s.w) ≤ s.w.get Reg.storeAllowance) ∧
    (∃ (b : Brick) (r : LReq) (row : ObjRow) (k : Nat) (data : List Byte) (s : State), Ready r row b.val k 1 data s ∧ rowId row = 0x210002 ∧ swapping
      b.val s.w = false) ∧
    (∃ (o : Own) (c : Instr) (r : LReq) (row : ObjRow) (u : Nat) (k : Nat) (v : Nat) (data : List Byte) (on : WaitFor) (x : Wall) (s : State), (o, c)
      ∈ [(Own.lookupSearch, Instr.lookupSearch), (.lookupNext, .lookupNext), (.saInstall, .saInstall)] ∧ Ready r row u k v data s ∧ ownWrite (rowId
      row) v = some o ∧ effect 0 r row u k v data (headTaken s.w) = .later on x) ∧
    (∃ (r : LReq) (row : ObjRow) (u : Nat) (k : Nat) (l : List Byte) (m : Bool) (data : List Byte) (s : State), Ready r row u k 1 data s ∧ rowId row =
      0x700119 ∧ 4 ≤ k ∧ getSa u k s.w = none ∧ saCount u (k / 4) s.w < 2 ∧ tget s.w.sec.blobs (saId u k) = some (l, m) ∧ (blobOf l).form = 0 ∧
      plainOk u k s.w = true ∧ s.w.get (Reg.saDurable u k) = 0 ∧ (blobOf l).len = (if s.w.get (Reg.cipher u) = 0 then 16 else 32)) :=
  ⟨⟨.restore, .restoreRange, 0x101101, (ask .h 0x1011 0x1 [0, 16, 255, 255]), rowOf 0x1011 0x1, 0, 0, 4294905856, [0, 16, 255, 255], asked (ask .h
      0x1011 0x1 [0, 16, 255, 255]) .service (bare0), by decide, ready_of (by decide) (by decide), by decide, by decide, by decide, by decide⟩,
    ⟨15, (ask .h 0x21F0 2 [1]), rowOf 0x21F0 2, 0, [1], asked (ask .h 0x21F0 2 [1]) .doze bare0, ready_of (by decide) (by decide), by decide, by
      decide⟩,
    ⟨.lookupSearch, .lookupSearch, (ask .h 0x21F6 0x1 (2 :: List.replicate 67 0)), rowOf 0x21F6 0x1, 15, 0, 2, (2 :: List.replicate 67 0), laterOf
      (effect 0 (ask .h 0x21F6 0x1 (2 :: List.replicate 67 0)) (rowOf 0x21F6 1) 15 0 2 (2 :: List.replicate 67 0) (headTaken (asked (ask .h 0x21F6 0x1
      (2 :: List.replicate 67 0)) .service bare0).w)), okOf (effect 0 (ask .h 0x21F6 0x1 (2 :: List.replicate 67 0)) (rowOf 0x21F6 1) 15 0 2 (2 ::
      List.replicate 67 0) (headTaken (asked (ask .h 0x21F6 0x1 (2 :: List.replicate 67 0)) .service bare0).w)), asked (ask .h 0x21F6 0x1 (2 ::
      List.replicate 67 0)) .service (bare0), by decide, ready_of (by decide +kernel) (by decide +kernel), by decide, later_of (by decide +kernel)⟩,
    ⟨(ask .o 0x7002 0x19 [1]), rowOf 0x7002 0x19, 0, 4, (0 :: 32 :: List.replicate 38 0), false, [1], asked (ask .o 0x7002 0x19 [1]) .service (wSec
      { SecSt.reset with blobs := [(4, ((0 :: 32 :: List.replicate 38 0), false))] }), ready_of (by decide) (by decide), by decide⟩⟩


theorem test_hypotheses_ModeRequests :
    (∃ (c : Instr) (r : LReq) (row : ObjRow) (u : Nat) (k : Nat) (v : Nat) (data : List Byte) (s : State), (v, c) ∈ [(1, Instr.modeRequestEmber), (2,
      .modeRequestKindle), (3, .modeRequestService), (4, .modeRequestDoze)] ∧ Ready r row u k v data s ∧ rowId row = 0x100202 ∧ s.w.led.store.isSome =
      true) ∧
    (∃ (r : LReq) (row : ObjRow) (u : Nat) (k : Nat) (v : Nat) (data : List Byte) (s : State), Ready r row u k v data s ∧ rowId row = 0x100202 ∧
      s.w.led.store = none ∧ s.w.sec.zeroising = none ∧ v = 1) ∧
    (∃ (r : LReq) (row : ObjRow) (u : Nat) (k : Nat) (v : Nat) (data : List Byte) (s : State), Ready r row u k v data s ∧ rowId row = 0x100202 ∧
      s.w.led.store = none ∧ s.w.sec.zeroising = none ∧ v = 2) ∧
    (∃ (r : LReq) (row : ObjRow) (u : Nat) (k : Nat) (v : Nat) (data : List Byte) (s : State), Ready r row u k v data s ∧ rowId row = 0x100202 ∧
      s.w.led.store = none ∧ s.w.sec.zeroising = none ∧ v = 3) ∧
    (∃ (r : LReq) (row : ObjRow) (u : Nat) (k : Nat) (v : Nat) (data : List Byte) (s : State), Ready r row u k v data s ∧ rowId row = 0x100202 ∧
      s.w.led.store = none ∧ s.w.sec.zeroising = none ∧ v = 4) ∧
    (∃ (r : LReq) (row : ObjRow) (u : Nat) (k : Nat) (v : Nat) (data : List Byte) (s : State), Ready r row u k v data s ∧ rowId row = 0x120101 ∧
      s.w.sec.zeroising = none) ∧
    (∃ (r : LReq) (row : ObjRow) (u : Nat) (k : Nat) (f : Nat) (data : List Byte) (s : State), Ready r row u k 1 data s ∧ rowId row = 0x120004 ∧ f %
      256 = 0) ∧
    (∃ (r : LReq) (row : ObjRow) (u : Nat) (k : Nat) (f : Nat) (data : List Byte) (s : State), Ready r row u k 1 data s ∧ rowId row = 0x120004 ∧ f %
      256 ≠ 0) :=
  ⟨⟨.modeRequestDoze, (ask .h 0x1002 0x2 [4]), rowOf 0x1002 0x2, 0, 0, 4, [4], asked (ask .h 0x1002 0x2 [4]) .service (wLed
      { LedgerSt.reset with store := some ⟨.store, [1]⟩ }), by decide, ready_of (by decide) (by decide), by decide⟩,
    ⟨(ask .h 0x1002 0x2 [1]), rowOf 0x1002 0x2, 0, 0, 1, [1], asked (ask .h 0x1002 0x2 [1]) .service (bare0), ready_of (by decide) (by decide), by
      decide⟩,
    ⟨(ask .h 0x1002 0x2 [2]), rowOf 0x1002 0x2, 0, 0, 2, [2], asked (ask .h 0x1002 0x2 [2]) .doze (bare0), ready_of (by decide) (by decide), by
      decide⟩,
    ⟨(ask .h 0x1002 0x2 [3]), rowOf 0x1002 0x2, 0, 0, 3, [3], asked (ask .h 0x1002 0x2 [3]) .doze (bare0), ready_of (by decide) (by decide), by
      decide⟩,
    ⟨(ask .h 0x1002 0x2 [4]), rowOf 0x1002 0x2, 0, 0, 4, [4], asked (ask .h 0x1002 0x2 [4]) .service (bare0), ready_of (by decide) (by decide), by
      decide⟩,
    ⟨(ask .o 0x1201 0x1 [79, 82, 69, 90]), rowOf 0x1201 0x1, 0, 0, 1514492495, [79, 82, 69, 90], asked (ask .o 0x1201 0x1 [79, 82, 69, 90]) .service
      (bare0), ready_of (by decide) (by decide), by decide⟩,
    ⟨(ask .o 0x1200 0x4 [1]), rowOf 0x1200 0x4, 0, 0, 256, [1], asked (ask .o 0x1200 0x4 [1]) .service (bare0), ready_of (by decide) (by decide), by
      decide⟩,
    ⟨(ask .o 0x1200 0x4 [1]), rowOf 0x1200 0x4, 0, 0, 255, [1], asked (ask .o 0x1200 0x4 [1]) .service (bare0), ready_of (by decide) (by decide), by
      decide⟩⟩


theorem test_hypotheses_SelectionAndTransmission :
    (∃ (sp : SubPort) (s : State), portsOn s.mode s.w = true ∧ (spFlows sp.val s.w = false ∨ (tget s.w.egr.txNow sp.val).isSome = true)) ∧
    (∃ (sp : SubPort) (x : PauseOut) (rest : List PauseOut) (s : State), portsOn s.mode s.w = true ∧ spFlows sp.val s.w = true ∧ tget s.w.egr.txNow
      sp.val = none ∧ tgetD s.w.prt.pauseOut sp.val [] = x :: rest) ∧
    (∃ (sp : SubPort) (s : State), portsOn s.mode s.w = true ∧ tget s.w.egr.txNow sp.val = none) ∧
    (∃ (sp : SubPort) (x : TxNow) (s : State), portsOn s.mode s.w = true ∧ tget s.w.egr.txNow sp.val = some x ∧ x.frame.whole = false) ∧
    (∃ (sp : SubPort) (x : TxNow) (s : State), portsOn s.mode s.w = true ∧ tget s.w.egr.txNow sp.val = some x ∧ x.frame.whole = true) ∧
    (∃ (sp : SubPort) (n : Nat) (q : Nat) (f : EFrame) (l : List EFrame) (y : Wall) (s : State), portsOn s.mode s.w = true ∧ spFlows sp.val s.w = true
      ∧ tget s.w.egr.txNow sp.val = none ∧ tgetD s.w.prt.pauseOut sp.val [] = [] ∧ choose sp.val (upTo 8 (fun n w => dropAllOversize sp.val n w) s.w)
      = some (n, q, y) ∧ (y.queue (sp.val / 8) q).frames = f :: l ∧ txPlan sp.val f.bytes y = .clear) :=
  ⟨⟨511, up, by decide⟩,
    ⟨511, ⟨7, 1, 0⟩, [], on .service (wr [(Reg.spState 63 7, 2)] (wPrt { PortSt.reset with pauseOut := [(511, [⟨7, 1, 0⟩])] })), by decide⟩,
    ⟨511, up, by decide⟩,
    ⟨511, ⟨⟨.inband, 511, [], false, 0, 0, 0⟩, 0, 0, none, 1518⟩, on .service (wEgr
      { EgressSt.reset with txNow := [(511, ⟨⟨.inband, 511, [], false, 0, 0, 0⟩, 0, 0, none, 1518⟩)] }), by decide⟩,
    ⟨511, ⟨⟨.inband, 511, [], true, 0, 0, 0⟩, 0, 0, none, 1518⟩, on .service (wEgr
      { EgressSt.reset with txNow := [(511, ⟨⟨.inband, 511, [], true, 0, 0, 0⟩, 0, 0, none, 1518⟩)] }), by decide⟩,
    ⟨511, 7, 63, ⟨.inband, 511, [], true, 0, 0, 0⟩, [], (chosen 511 txWaits).2.2, on .service txWaits, by decide, by decide +kernel, by decide, by decide,
      chosen_of (by decide +kernel) (by decide +kernel) (by decide +kernel), by decide +kernel, clear_of (by decide +kernel)⟩⟩


theorem test_hypotheses_ShapersAndGates :
    (∃ (p : Port) (k : Fin 128) (x : Shaper) (s : State), portsOn s.mode s.w = true ∧ tget s.w.egr.shapers (p.val * 128 + k.val) = some x ∧ x.calendar
      = true) ∧
    (∃ (p : Port) (k : Fin 128) (x : Shaper) (s : State), portsOn s.mode s.w = true ∧ tget s.w.egr.shapers (p.val * 128 + k.val) = some x ∧ x.calendar
      = false) ∧
    (∃ (p : Port) (k : Fin 128) (s : State), windowOpen s.mode s.w = true ∧ (s.w.win32 (shaperWin p.val k.val) 0) ≤ 3200000 ∧ (s.w.win32 (shaperWin
      p.val k.val + 4) 65536) ≤ 16777215) ∧
    (∃ (p : Port) (k : Fin 128) (s : State), windowOpen s.mode s.w = true ∧ (3200000 < (s.w.win32 (shaperWin p.val k.val) 0) ∨ 16777215 < (s.w.win32
      (shaperWin p.val k.val + 4) 65536))) ∧
    (∃ (s : State), windowOpen s.mode s.w = true) ∧
    (∃ (sp : SubPort) (g : Gate) (s : State), portsOn s.mode s.w = true ∧ gateOf sp.val s.w = some g ∧ g.oper ≠ []) ∧
    (∃ (sp : SubPort) (g : Gate) (s : State), portsOn s.mode s.w = true ∧ gateOf sp.val s.w = some g ∧ g.changeAt.isSome = true) :=
  ⟨⟨63, 127, ⟨1, 1, 0, 0, true⟩, on .service (wEgr { EgressSt.reset with shapers := [(63 * 128 + 127, ⟨1, 1, 0, 0, true⟩)] }), by decide⟩,
    ⟨63, 127, ⟨1, 1, 0, 0, false⟩, on .service (wEgr { EgressSt.reset with shapers := [(63 * 128 + 127, ⟨1, 1, 0, 0, false⟩)] }), by decide⟩,
    ⟨63, 127, on .service { Wall.reset with win := [(shaperWin 63 127, 3200000), (shaperWin 63 127 + 4, 16777215)] }, by decide⟩,
    ⟨63, 127, on .service { Wall.reset with win := [(shaperWin 63 127, 3200001), (shaperWin 63 127 + 4, 16777216)] }, by decide⟩,
    ⟨up, by decide⟩,
    ⟨511, ⟨[(1, 255)], 1000, 0, 0, none, none⟩, on .service (wEgr { EgressSt.reset with gates := [(511, ⟨[(1, 255)], 1000, 0, 0, none, none⟩)] }), by
      decide⟩,
    ⟨511, ⟨[], 1000, 0, 0, some 0, none⟩, on .service (wEgr { EgressSt.reset with gates := [(511, ⟨[], 1000, 0, 0, some 0, none⟩)] }), by decide⟩⟩


theorem test_hypotheses_ReservationsCommitAndRetry :
    (∃ (sp : SubPort) (an : Fin 4) (e : Nat) (a : Sa) (s : State), reeveOn s.mode s.w = true ∧ s.w.gra.done.find? (fun d =>
      match d with | .reservation i _ => i == saId sp.val an.val | _ => false) = some (.reservation (saId sp.val an.val) e) ∧ getSa sp.val an.val s.w
      = some a ∧ ((blockB s.w / 2 : Nat) : Int) ≤ (max a.reservedEnd e : Nat) - (a.nextPn : Int)) ∧
    (∃ (sp : SubPort) (an : Fin 4) (s : State), reeveOn s.mode s.w = true ∧ s.w.gra.done.find? (fun d =>
      match d with | .reservation i _ => i == saId sp.val an.val | _ => false) = none) ∧
    (∃ (sp : SubPort) (an : Fin 4) (s : State), reeveOn s.mode s.w = true ∧ (getSa sp.val an.val s.w).all (fun a => !a.retry) = true) ∧
    (∃ (sp : SubPort) (an : Fin 4) (a : Sa) (s : State), reeveOn s.mode s.w = true ∧ getSa sp.val an.val s.w = some a ∧ a.retry = true ∧ a.want = none
      ∧ (a.reservedEnd : Int) - a.nextPn < (blockB s.w / 2 : Nat) ∧ granaryShut s.w = false ∧ s.w.bnd.queueShut = false ∧ s.w.gra.queue.length < 12 ∧
      s.w.sec.zeroising = none) :=
  ⟨⟨511, 3, 2 ^ 27 + 1, ⟨[], true, none, 0, 0, 1, 0, none, false, false, false, 0, 0, false, false⟩, on .service
      { Wall.reset with sec := { SecSt.reset with sas := [(saId 511 3, ⟨[], true, none, 0, 0, 1, 0, none, false, false, false, 0, 0, false, false⟩)] }, gra := { GranarySt.reset with done := [.reservation (saId 511 3) (2 ^ 27 + 1)] } },
      by decide +kernel, by decide +kernel, by decide +kernel, by decide +kernel⟩,
    ⟨511, 3, up, by decide⟩,
    ⟨511, 3, up, by decide⟩,
    ⟨511, 3, ⟨[], true, none, 0, 0, 1, 0, none, true, false, false, 0, 0, false, false⟩, on .service (wSec
      { SecSt.reset with sas := [(saId 511 3, ⟨[], true, none, 0, 0, 1, 0, none, true, false, false, 0, 0, false, false⟩)] }), by decide +kernel, by decide +kernel,
      by decide +kernel, by decide +kernel, by decide, by decide, by decide, by decide, by decide⟩⟩


theorem test_hypotheses_SealingAndZeroisation :
    (∃ (s : State), reeveOn s.mode s.w = true ∧ s.mode ≠ .sealedMode) ∧
    (∃ (c : Nat) (s : State), clocksRun s.mode s.w = true ∧ halted s.w = false ∧ s.w.bnd.inhibit = false ∧ s.w.sec.zeroising = some c) ∧
    (∃ (s : State), reeveOn s.mode s.w = true) :=
  ⟨⟨up, by decide⟩,
    ⟨5, on .sealedMode (wSec { SecSt.reset with zeroising := some 5 }), by decide⟩,
    ⟨up, by decide⟩⟩


theorem test_hypotheses_CommitsWriteSheaves :
    (∃ (c : CommitItem) (s : State) (bank : _) (slot : _), storesOpen s.mode s.w = true ∧ commitRuns s.mode s.w = true ∧ nextCommit s.w.gra.queue =
      some c ∧ c.after = .none ∧ c.repair = some (bank, slot)) ∧
    (∃ (c : CommitItem) (s : State), storesOpen s.mode s.w = true ∧ commitRuns s.mode s.w = true ∧ nextCommit s.w.gra.queue = some c ∧ c.after = .none
      ∧ c.repair = none ∧ c.sheaf.type = 0x06) ∧
    (∃ (bad : Option (Fin 2)) (c : CommitItem) (s : State) (r : _), storesOpen s.mode s.w = true ∧ commitRuns s.mode s.w = true ∧ nextCommit
      s.w.gra.queue = some c ∧ c.after = .none ∧ c.repair = none ∧ c.sheaf.type ≠ 0x06 ∧ openRow (isKeyType c.sheaf.type) s.w = some r ∧ (rowAt r
      s.w).used + 1 < 64 ∧ bad.all (fun b => !bankWorks b.val s.w) = true) ∧
    (∃ (bad : Option (Fin 2)) (c : CommitItem) (s : State) (r : Nat) (b : Fin 2), storesOpen s.mode s.w = true ∧ commitRuns s.mode s.w = true ∧
      nextCommit s.w.gra.queue = some c ∧ c.after = .none ∧ c.repair = none ∧ c.sheaf.type ≠ 0x06 ∧ openRow (isKeyType c.sheaf.type) s.w = some r ∧
      (rowAt r s.w).used + 1 < 64 ∧ bankWorks b.val s.w = true ∧ bad = some b) :=
  ⟨⟨⟨⟨1, false, true, 0, 1, 0, 0⟩, 0, .none, some (1, 122879)⟩, on .service
      { Wall.reset with gra := { GranarySt.reset with queue := [⟨⟨1, false, true, 0, 1, 0, 0⟩, 0, .none, some (1, 122879)⟩] } }, 1, 122879, by decide,
      by decide, by decide, by decide, by decide⟩,
    ⟨⟨⟨6, false, true, 0, 1, 0, 0⟩, 0, .none, none⟩, on .service
      { Wall.reset with gra := { GranarySt.reset with queue := [⟨⟨6, false, true, 0, 1, 0, 0⟩, 0, .none, none⟩] } }, by decide⟩,
    ⟨some 1, ⟨⟨1, false, true, 0, 1, 0, 0⟩, 0, .none, none⟩, on .service
      { Wall.reset with regs := [(Reg.bankState.key, 1)], gra := { GranarySt.reset with queue := [⟨⟨1, false, true, 0, 1, 0, 0⟩, 0, .none, none⟩], rows := [(7, ⟨.opened, false, 0, 62⟩)] } },
      7, by decide, by decide, by decide, by decide, by decide, by decide, by decide, by decide, by decide⟩,
    ⟨some 1, ⟨⟨1, false, true, 0, 1, 0, 0⟩, 0, .none, none⟩, on .service
      { Wall.reset with gra := { GranarySt.reset with queue := [⟨⟨1, false, true, 0, 1, 0, 0⟩, 0, .none, none⟩], rows := [(7, ⟨.opened, false, 0, 62⟩)] } },
      7, 1, by decide, by decide, by decide, by decide, by decide, by decide, by decide, by decide, by decide, by decide⟩⟩


theorem test_hypotheses_ScrubWearAndSupply :
    (∃ (slot : Nat) (s : State), scrubOn s.mode s.w = true ∧ commitRuns s.mode s.w = true ∧ slot < 122880) ∧
    (∃ (s : State), scrubOn s.mode s.w = true) ∧
    (∃ (s : State), s.mode ∈ [Mode.kindle, .service, .doze] ∧ s.w.bnd.vgranOk = true) ∧
    (∃ (s : State), s.mode ∉ [Mode.off, .ember] ∧ s.w.bnd.vgranOk = false) ∧
    (∃ (s : State), reeveOn s.mode s.w = true) ∧
    (∃ (s : State), reeveOn s.mode s.w = true) ∧
    (∃ (index : Nat) (sub : Nat) (u : Nat) (k : Nat) (row : ObjRow) (s : State), reeveOn s.mode s.w = true ∧ findRow index sub objTable = some (row,
      u, k) ∧ onChange row u s.w = true ∧ granaryShut s.w = false ∧ s.w.bnd.queueShut = false) :=
  ⟨⟨122879, up, by decide⟩,
    ⟨up, by decide⟩,
    ⟨on .kindle (wBnd { BoundarySt.reset with vgranOk := true }), by decide⟩,
    ⟨on .kindle (wBnd { BoundarySt.reset with vgranOk := false }), by decide⟩,
    ⟨up, by decide⟩,
    ⟨up, by decide⟩,
    ⟨0x1230, 4, 0, 0, rowOf 0x1230 4, up, by decide, found_of (by decide +kernel), by decide +kernel, by decide, by decide⟩⟩


theorem test_hypotheses_DvorRequestsAreJudged :
    (∃ (r : DvorReq) (a : Session) (s : State) (c : Instr) (op : LOp), dvorOn s.mode s.w = true ∧ s.mode ≠ .sealedMode ∧ pathOpen r.peer.path s.w =
      true ∧ tget s.w.led.sessions r.slot = some a ∧ judgeSeq (heard r.peer s.w a) r.seq = .take ∧ dvorAsk c = some (r, op) ∧ s.w.led.queue.length <
      16 ∧ s.w.led.closed = false) ∧
    (∃ (r : DvorReq) (a : Session) (s : State), dvorOn s.mode s.w = true ∧ s.mode ≠ .sealedMode ∧ pathOpen r.peer.path s.w = true ∧ tget
      s.w.led.sessions r.slot = some a ∧ judgeSeq (heard r.peer s.w a) r.seq = .take) ∧
    (∃ (r : DvorReq) (a : Session) (c : Instr) (s : State), dvorOn s.mode s.w = true ∧ s.mode ≠ .sealedMode ∧ pathOpen r.peer.path s.w = true ∧ tget
      s.w.led.sessions r.slot = some a ∧ judgeSeq (heard r.peer s.w a) r.seq = .copy ∧ dvorReqOf c = some r) ∧
    (∃ (r : DvorReq) (a : Session) (c : Instr) (s : State), dvorOn s.mode s.w = true ∧ s.mode ≠ .sealedMode ∧ pathOpen r.peer.path s.w = true ∧ tget
      s.w.led.sessions r.slot = some a ∧ judgeSeq (heard r.peer s.w a) r.seq = .old ∧ dvorReqOf c = some r) ∧
    (∃ (r : DvorReq) (a : Session) (c : Instr) (s : State), dvorOn s.mode s.w = true ∧ s.mode ≠ .sealedMode ∧ pathOpen r.peer.path s.w = true ∧ tget
      s.w.led.sessions r.slot = some a ∧ judgeSeq (heard r.peer s.w a) r.seq = .ahead ∧ dvorReqOf c = some r) ∧
    (∃ (r : DvorReq) (a : Session) (c : Instr) (s : State), dvorOn s.mode s.w = true ∧ s.mode ≠ .sealedMode ∧ pathOpen r.peer.path s.w = true ∧ tget
      s.w.led.sessions r.slot = some a ∧ judgeSeq (heard r.peer s.w a) r.seq = .renew ∧ dvorReqOf c = some r) ∧
    (∃ (r : DvorReq) (a : Session) (c : Instr) (s : State) (x : Response), dvorOn s.mode s.w = true ∧ s.mode ≠ .sealedMode ∧ pathOpen r.peer.path s.w
      = true ∧ tget s.w.led.sessions r.slot = some a ∧ judgeSeq (heard r.peer s.w a) r.seq = .resend ∧ dvorReqOf c = some r ∧ a.cache.find? (fun x =>
      x.seq == r.seq) = some x) :=
  ⟨⟨⟨7, ⟨.f0, 0, 0, 0⟩, 8, 0x1000, 1⟩, ⟨1, .h, 0, ⟨.f0, 0, 0, 0⟩, 0, [], [], [], 0, 0, 0, [], 0, 0, false, 0⟩, on .service (wLed
      { LedgerSt.reset with sessions := [(7, ⟨1, .h, 0, ⟨.f0, 0, 0, 0⟩, 0, [], [], [], 0, 0, 0, [], 0, 0, false, 0⟩)] }), .dvorRead ⟨7, ⟨.f0, 0, 0,
      0⟩, 8, 0x1000, 1⟩, .read, by decide⟩,
    ⟨⟨7, ⟨.f0, 0, 0, 0⟩, 8, 0x1000, 1⟩, ⟨1, .h, 0, ⟨.f0, 0, 0, 0⟩, 0, [], [], [], 0, 0, 0, [], 0, 0, false, 0⟩, on .service (wLed
      { LedgerSt.reset with sessions := [(7, ⟨1, .h, 0, ⟨.f0, 0, 0, 0⟩, 0, [], [], [], 0, 0, 0, [], 0, 0, false, 0⟩)] }), by decide⟩,
    ⟨⟨7, ⟨.f0, 0, 0, 0⟩, 8, 0x1000, 1⟩, ⟨1, .h, 0, ⟨.f0, 0, 0, 0⟩, 8, [8], [], [], 0, 0, 0, [], 0, 0, false, 0⟩, .dvorKeepalive ⟨7, ⟨.f0, 0, 0, 0⟩, 8,
      0x1000, 1⟩, on .service (wLed
      { LedgerSt.reset with sessions := [(7, ⟨1, .h, 0, ⟨.f0, 0, 0, 0⟩, 8, [8], [], [], 0, 0, 0, [], 0, 0, false, 0⟩)] }), by decide⟩,
    ⟨⟨7, ⟨.f0, 0, 0, 0⟩, 1, 0x1000, 1⟩, ⟨1, .h, 0, ⟨.f0, 0, 0, 0⟩, 65, [], [], [], 0, 0, 0, [], 0, 0, false, 0⟩, .dvorKeepalive ⟨7, ⟨.f0, 0, 0, 0⟩, 1,
      0x1000, 1⟩, on .service (wLed
      { LedgerSt.reset with sessions := [(7, ⟨1, .h, 0, ⟨.f0, 0, 0, 0⟩, 65, [], [], [], 0, 0, 0, [], 0, 0, false, 0⟩)] }), by decide⟩,
    ⟨⟨7, ⟨.f0, 0, 0, 0⟩, 9, 0x1000, 1⟩, ⟨1, .h, 0, ⟨.f0, 0, 0, 0⟩, 0, [], [], [], 0, 0, 0, [], 0, 0, false, 0⟩, .dvorKeepalive ⟨7, ⟨.f0, 0, 0, 0⟩, 9,
      0x1000, 1⟩, on .service (wLed
      { LedgerSt.reset with sessions := [(7, ⟨1, .h, 0, ⟨.f0, 0, 0, 0⟩, 0, [], [], [], 0, 0, 0, [], 0, 0, false, 0⟩)] }), by decide⟩,
    ⟨⟨7, ⟨.f0, 0, 0, 0⟩, 0x80000000, 0x1000, 1⟩, ⟨1, .h, 0, ⟨.f0, 0, 0, 0⟩, 0, [], [], [], 0, 0, 0, [], 0, 0, false, 0⟩, .dvorKeepalive ⟨7, ⟨.f0, 0,
      0, 0⟩, 0x80000000, 0x1000, 1⟩, on .service (wLed
      { LedgerSt.reset with sessions := [(7, ⟨1, .h, 0, ⟨.f0, 0, 0, 0⟩, 0, [], [], [], 0, 0, 0, [], 0, 0, false, 0⟩)] }), by decide⟩,
    ⟨⟨7, ⟨.f0, 0, 0, 0⟩, 8, 0x1000, 1⟩, ⟨1, .h, 0, ⟨.f0, 0, 0, 0⟩, 71, [8], [], [⟨8, 0, false, 0, 0, []⟩], 0, 0, 0, [], 0, 0, false, 0⟩,
      .dvorKeepalive ⟨7, ⟨.f0, 0, 0, 0⟩, 8, 0x1000, 1⟩, on .service (wLed
      { LedgerSt.reset with sessions := [(7, ⟨1, .h, 0, ⟨.f0, 0, 0, 0⟩, 71, [8], [], [⟨8, 0, false, 0, 0, []⟩], 0, 0, 0, [], 0, 0, false, 0⟩)] }), ⟨8,
      0, false, 0, 0, []⟩, by decide⟩⟩


theorem test_hypotheses_FieldPortAndSessions :
    (∃ (s : State), dvorOn s.mode s.w = true ∧ s.mode ≠ .sealedMode) ∧
    (∃ (p : Path) (s : State), dvorOn s.mode s.w = true ∧ p ≠ .inband ∧ (s.w.led.icmpSecond ≠ s.w.second ∨ s.w.led.icmpCount < 100)) ∧
    (∃ (p : Path) (s : State), dvorOn s.mode s.w = true ∧ p ≠ .inband ∧ s.w.led.icmpSecond = s.w.second ∧ 100 ≤ s.w.led.icmpCount) ∧
    (∃ (p : Path) (s : State), dvorOn s.mode s.w = true ∧ p ≠ .inband) ∧
    (∃ (slot : Fin 8) (a : Session) (s : State), tget s.w.led.sessions slot = some a ∧ dvorOn s.mode s.w = true) ∧
    (∃ (slot : Fin 8) (a : Session) (s : State), tget s.w.led.sessions slot = some a ∧ reeveOn s.mode s.w = true) ∧
    (∃ (slot : Fin 8) (a : Session) (s : State) (e : _) (u : _), tget s.w.led.sessions slot = some a ∧ reeveOn s.mode s.w = true ∧ a.unacked.find?
      (fun u => u.no == e) = some u) ∧
    (∃ (s : State), reeveOn s.mode s.w = true) ∧
    (∃ (p : Path) (f : List Byte) (s : State) (k : _), s.mode = .doze ∧ p ≠ .inband ∧ wakeMatch f s.w = some k) ∧
    (∃ (p : Path) (f : List Byte) (s : State), s.mode = .doze ∧ p ≠ .inband ∧ wakeMatch f s.w = none) ∧
    (∃ (p : Path) (s : State), (s.mode ≠ .doze ∨ p = .inband)) :=
  ⟨⟨up, by decide⟩,
    ⟨.f1, on .service (wLed { LedgerSt.reset with icmpCount := 99 }), by decide⟩,
    ⟨.f0, on .service (wLed { LedgerSt.reset with icmpCount := 100 }), by decide⟩,
    ⟨.f1, up, by decide⟩,
    ⟨7, ⟨1, .h, 0, ⟨.f0, 0, 0, 0⟩, 0, [], [], [], 0, 0, 0, [], 0, 0, false, 0⟩, on .sealedMode (wLed
      { LedgerSt.reset with sessions := [(7, ⟨1, .h, 0, ⟨.f0, 0, 0, 0⟩, 0, [], [], [], 0, 0, 0, [], 0, 0, false, 0⟩)] }), by decide⟩,
    ⟨7, ⟨1, .h, 0, ⟨.f0, 0, 0, 0⟩, 0, [], [], [], 0, 0, 0, [], 0, 0, false, 0⟩, on .kindle (wLed
      { LedgerSt.reset with sessions := [(7, ⟨1, .h, 0, ⟨.f0, 0, 0, 0⟩, 0, [], [], [], 0, 0, 0, [], 0, 0, false, 0⟩)] }), by decide⟩,
    ⟨7, ⟨1, .h, 0, ⟨.f0, 0, 0, 0⟩, 0, [], [], [], 0, 0, 0, [⟨5, 0, 0, 0, 0, 0, 0, 0, 0, false, 0⟩], 0, 0, false, 0⟩, on .service (wLed
      { LedgerSt.reset with sessions := [(7, ⟨1, .h, 0, ⟨.f0, 0, 0, 0⟩, 0, [], [], [], 0, 0, 0, [⟨5, 0, 0, 0, 0, 0, 0, 0, 0, false, 0⟩], 0, 0, false, 0⟩)] }),
      5, ⟨5, 0, 0, 0, 0, 0, 0, 0, 0, false, 0⟩, by decide⟩,
    ⟨up, by decide⟩,
    ⟨.f1, [], on .doze (wr [(Reg.wakeEnable, 8)] (Wall.reset)), 3, by decide, by decide, by decide +kernel⟩,
    ⟨.f0, [], on .doze bare0, by decide⟩,
    ⟨.inband, on .doze bare0, by decide⟩⟩


theorem test_hypotheses_StoresEndAndModesFollow :
    (∃ (c : StoreCmd) (s : State), reeveOn s.mode s.w = true ∧ s.w.led.store = some c ∧ s.w.led.moveDue = 0 ∧ (c.gens.all fun g => s.w.gra.done.any
      fun a => match a with | .store x => x == g | _ => false) = true) ∧
    (∃ (c : StoreCmd) (s : State), reeveOn s.mode s.w = true ∧ s.w.led.store = some c ∧ s.w.led.moveDue = 0 ∧ (c.gens.all fun g => s.w.gra.done.any
      fun a => match a with | .store x => x == g | _ => false) = false ∧ granaryFailed s.w = true) ∧
    (∃ (s : State), reeveOn s.mode s.w = true ∧ s.w.led.store = none ∧ s.w.led.moveDue = 0) ∧
    (∃ (s : State), s.w.led.closed = true ∧ s.w.led.moveDue = 1 ∧ inService s.mode = true ∧ s.w.bnd.pfail = false ∧ s.w.bnd.vgranOk = true ∧
      s.w.sec.zeroising = none) ∧
    (∃ (s : State), awake s.mode s.w = true ∧ inService s.mode = true) ∧
    (∃ (s : State), inService s.mode = false) :=
  ⟨⟨⟨.store, [7]⟩, on .service
      { Wall.reset with led := { LedgerSt.reset with store := some ⟨.store, [7]⟩ }, gra := { GranarySt.reset with done := [.store 7] } }, by decide⟩,
    ⟨⟨.store, [7]⟩, on .service
      { Wall.reset with regs := [(Reg.bankState.key, 0)], led := { LedgerSt.reset with store := some ⟨.store, [7]⟩ }, gra := { GranarySt.reset with done := [] } },
      by decide⟩,
    ⟨up, by decide⟩,
    ⟨on .doze { Wall.reset with led := { LedgerSt.reset with closed := true, moveDue := 1 }, bnd := { BoundarySt.reset with vgranOk := true } }, by
      decide⟩,
    ⟨on .doze bare0, by decide⟩,
    ⟨on .ember bare0, by decide⟩⟩


theorem test_hypotheses_RingsAreSwitched :
    (∃ (d : RingDir) (i : RingNo) (s : State) (v : _), windowOpen s.mode s.w = true ∧ (ringOn (ringKey d i.val) s.w = false ∨ ringSize (ringKey d
      i.val) s.w ≤ v % 2 ^ 16)) ∧
    (∃ (d : RingDir) (i : RingNo) (s : State) (v : _), windowOpen s.mode s.w = true ∧ ringOn (ringKey d i.val) s.w = true ∧ v < ringSize (ringKey d
      i.val) s.w ∧ v < 2 ^ 16 ∧ s.w.bnd.dozing = false) ∧
    (∃ (d : RingDir) (i : RingNo) (s : State) (v : _), windowOpen s.mode s.w = true ∧ ringOn (ringKey d i.val) s.w = true ∧ v < ringSize (ringKey d
      i.val) s.w ∧ v < 2 ^ 16 ∧ s.w.bnd.dozing = true) ∧
    (∃ (d : RingDir) (i : RingNo) (s : State) (v : _), windowOpen s.mode s.w = true ∧ ringOn (ringKey d i.val) s.w = false ∧ bit v 0 = true ∧ ¬
      (ringBase (ringKey d i.val) s.w % 4096 ≠ 0 ∨ (bit v 2 = true ∧ s.w.win64 (ringBlk (ringKey d i.val) + 0x10) % 8 ≠ 0))) ∧
    (∃ (d : RingDir) (i : RingNo) (s : State) (v : _), windowOpen s.mode s.w = true ∧ ringOn (ringKey d i.val) s.w = false ∧ bit v 0 = true ∧
      (ringBase (ringKey d i.val) s.w % 4096 ≠ 0 ∨ (bit v 2 = true ∧ s.w.win64 (ringBlk (ringKey d i.val) + 0x10) % 8 ≠ 0))) ∧
    (∃ (d : RingDir) (i : RingNo) (s : State) (v : _), windowOpen s.mode s.w = true ∧ ringOn (ringKey d i.val) s.w = true ∧ bit v 0 = false) ∧
    (∃ (d : RingDir) (i : RingNo) (s : State), awake s.mode s.w = true ∧ ringOn (ringKey d i.val) s.w = false ∧ ringReads (ringKey d i.val) s.w =
      false ∧ ringBusy (ringKey d i.val) s.w = false) ∧
    (∃ (d : RingDir) (i : RingNo) (s : State), awake s.mode s.w = true ∧ (ringOn (ringKey d i.val) s.w = true ∨ ringReads (ringKey d i.val) s.w = true
      ∨ ringBusy (ringKey d i.val) s.w = true)) :=
  ⟨⟨.tx, 255, up, 7, by decide⟩,
    ⟨.tx, 255, on .service { Wall.reset with win := [(ringBlk 255 + 0x0C, 1)] }, 7, by decide⟩,
    ⟨.rx, 255, on .service { Wall.reset with win := [(ringBlk 511 + 0x0C, 1)], bnd := { BoundarySt.reset with dozing := true } }, 7, by decide⟩,
    ⟨.tx, 0, up, 1, by decide⟩,
    ⟨.rx, 255, on .service { Wall.reset with win := [(ringBlk 511 + 0x10, 4)] }, 5, by decide⟩,
    ⟨.rx, 0, on .service { Wall.reset with win := [(ringBlk 256 + 0x0C, 1)] }, 0, by decide⟩,
    ⟨.tx, 255, up, by decide⟩,
    ⟨.rx, 255, on .service { Wall.reset with win := [(ringBlk 511 + 0x0C, 1)] }, by decide⟩⟩


theorem test_hypotheses_RingsMoveFrames :
    (∃ (d : RingDir) (i : RingNo) (s : State), portsOn s.mode s.w = true ∧ (s.w.ring (ringKey d i.val)).reading = false) ∧
    (∃ (d : RingDir) (i : RingNo) (descs : List Nat) (s : State), portsOn s.mode s.w = true ∧ (s.w.ring (ringKey d i.val)).reading = true ∧ ringRuns
      (ringKey d i.val) s.w = true ∧ descs.length ≤ unfetched (ringKey d i.val) s.w ∧ descs.length ≤ 16 - (s.w.ring (ringKey d i.val)).fetchAt % 16 ∧
      (s.w.ring (ringKey d i.val)).fetchAt + descs.length ≤ ringSize (ringKey d i.val) s.w) ∧
    (∃ (i : RingNo) (s : State), portsOn s.mode s.w = true ∧ (s.w.ring i).dataFor = []) ∧
    (∃ (i : RingNo) (s : State) (e : _) (l : _), portsOn s.mode s.w = true ∧ (s.w.ring i).dataFor = e :: l ∧ ringRuns i s.w = false) ∧
    (∃ (i : RingNo) (s : State) (e : _) (l : _) (sp : _), portsOn s.mode s.w = true ∧ (s.w.ring i).dataFor = e :: l ∧ ringRuns i s.w = true ∧ millTxOf
      i s.w = some sp) ∧
    (∃ (i : RingNo) (s : State) (e : _) (l : _), portsOn s.mode s.w = true ∧ (s.w.ring i).dataFor = e :: l ∧ ringRuns i s.w = true ∧ millTxOf i s.w =
      none) ∧
    (∃ (i : RingNo) (s : State), portsOn s.mode s.w = true ∧ (s.w.ring (256 + i.val)).due = [] ∧ millRxOf i s.w = none) ∧
    (∃ (i : RingNo) (s : State) (n : _) (rest : _) (f : _), portsOn s.mode s.w = true ∧ (s.w.ring (256 + i.val)).due = n :: rest ∧ frameOf n s.w =
      some f ∧ (ringRuns (256 + i.val) s.w = false ∨ (millRxOf i s.w).isSome = true)) ∧
    (∃ (i : RingNo) (s : State) (n : _) (rest : _) (f : _), portsOn s.mode s.w = true ∧ (s.w.ring (256 + i.val)).due = n :: rest ∧ frameOf n s.w =
      some f ∧ ringRuns (256 + i.val) s.w = true ∧ millRxOf i s.w = none ∧ f.bytes.length ≤ rxRoom (s.w.ring (256 + i.val)).held) :=
  ⟨⟨.rx, 255, up, by decide⟩,
    ⟨.tx, 255, [0, 0], on .service
      { Wall.reset with hst := { HostSt.reset with rings := [(255, { RingRt.init with reading := true, fetchAt := 6 })] }, win := [(ringBlk 255 + 0x20, 1), (ringBlk 255 + 0x40, 0)] },
      by decide⟩,
    ⟨255, up, by decide⟩,
    ⟨255, on .service { Wall.reset with hst := { HostSt.reset with rings := [(255, { RingRt.init with dataFor := [(0, 0)] })] } }, (0, 0), [], by
      decide⟩,
    ⟨255, on .service
      { Wall.reset with hst := { HostSt.reset with rings := [(255, { RingRt.init with dataFor := [(0, 0)] })] }, regs := [((Reg.millTxRing 511).key, 255), ((Reg.millState 511).key, 1)], win := [(ringBlk 255 + 0x20, 1)] },
      (0, 0), [], 511, by decide, by decide, by decide, by decide +kernel⟩,
    ⟨255, on .service
      { Wall.reset with hst := { HostSt.reset with rings := [(255, { RingRt.init with dataFor := [(0, 0)] })] }, win := [(ringBlk 255 + 0x20, 1)] },
      (0, 0), [], by decide, by decide, by decide, by decide +kernel⟩,
    ⟨255, up, by decide, by decide, by decide +kernel⟩,
    ⟨255, on .service
      { Wall.reset with hst := { HostSt.reset with rings := [(511, { RingRt.init with due := [9] })] }, ing := { IngressSt.reset with frames := [(9, ⟨511, [0], 0, 0, false, false, .waiting, false, false, 0, 0, 0, 0, false, false, 0, 0, none, false⟩)] } },
      9, [], ⟨511, [0], 0, 0, false, false, .waiting, false, false, 0, 0, 0, 0, false, false, 0, 0, none, false⟩, by decide, by decide, by decide, by
      decide⟩,
    ⟨255, on .service
      { Wall.reset with hst := { HostSt.reset with rings := [(511, { RingRt.init with due := [9], held := [(0, 64 * 2 ^ 64)] })] }, win := [(ringBlk 511 + 0x20, 1)], ing := { IngressSt.reset with frames := [(9, ⟨511, [0], 0, 0, false, false, .waiting, false, false, 0, 0, 0, 0, false, false, 0, 0, none, false⟩)] } },
      9, [], ⟨511, [0], 0, 0, false, false, .waiting, false, false, 0, 0, 0, 0, false, false, 0, 0, none, false⟩, by decide, by decide, by decide, by
      decide +kernel, by decide +kernel, by decide +kernel⟩⟩


theorem test_hypotheses_MillsVectorsAndHostLatches :
    (∃ (b : Brick) (sp : Nat) (f : MillFrame) (l : List MillFrame) (s : State), portsOn s.mode s.w = true ∧ millSp b s.w = some sp ∧ (s.w.mill
      b).waiting = f :: l ∧ s.w.get (Reg.millState sp) ≠ 4 ∧ ((s.w.mill b).loop.map fun f => f.bytes.length).sum + f.bytes.length + 8 ≤ 65536) ∧
    (∃ (b : Brick) (s : State), portsOn s.mode s.w = true ∧ millSp b s.w = none) ∧
    (∃ (b : Brick) (sp : Nat) (f : MillFrame) (l : List MillFrame) (s : State), portsOn s.mode s.w = true ∧ millSp b s.w = some sp ∧ (s.w.mill b).loop
      = f :: l ∧ ringRuns (256 + s.w.get (Reg.millRxRing sp)) s.w = true ∧ (s.w.ring (256 + s.w.get (Reg.millRxRing sp))).held.length = ringSize (256
      + s.w.get (Reg.millRxRing sp)) s.w - 1 ∧ rxRoom (s.w.ring (256 + s.w.get (Reg.millRxRing sp))).held < f.bytes.length) ∧
    (∃ (b : Brick) (sp : Nat) (f : MillFrame) (l : List MillFrame) (s : State), portsOn s.mode s.w = true ∧ millSp b s.w = some sp ∧ (s.w.mill b).loop
      = f :: l ∧ (ringRuns (256 + s.w.get (Reg.millRxRing sp)) s.w = false ∨ (s.w.ring (256 + s.w.get (Reg.millRxRing sp))).held.length ≠ ringSize
      (256 + s.w.get (Reg.millRxRing sp)) s.w - 1 ∨ f.bytes.length ≤ rxRoom (s.w.ring (256 + s.w.get (Reg.millRxRing sp))).held)) ∧
    (∃ (sp : SubPort) (s : State), portsOn s.mode s.w = true ∧ s.w.get (Reg.millState sp) = 2 ∧ (s.w.mill (brickOfSp sp)).waiting = [] ∧ (s.w.mill
      (brickOfSp sp)).loop = [] ∧ (s.w.ring (s.w.get (Reg.millTxRing sp))).dataFor = []) ∧
    (∃ (sp : SubPort) (s : State), portsOn s.mode s.w = true ∧ ¬ (s.w.get (Reg.millState sp) = 2 ∧ (s.w.mill (brickOfSp sp)).waiting = [] ∧ (s.w.mill
      (brickOfSp sp)).loop = [] ∧ (s.w.ring (s.w.get (Reg.millTxRing sp))).dataFor = [])) ∧
    (∃ (v : Fin 256) (s : State), reeveOn s.mode s.w = true ∧ (tgetD s.w.hst.vecs v { pending := 0, first := 0, last := 0 }).pending = 0) ∧
    (∃ (v : Fin 256) (s : State), reeveOn s.mode s.w = true ∧ (tgetD s.w.hst.vecs v { pending := 0, first := 0, last := 0 }).pending ≠ 0) ∧
    (∃ (s : State), windowOpen s.mode s.w = true) :=
  ⟨⟨15, 511, ⟨[0], 0, 1, 0, 0, false⟩, [], on .service
      { Wall.reset with hst := { HostSt.reset with mills := [(15, { MillRt.init with waiting := [⟨[0], 0, 1, 0, 0, false⟩] })] }, regs := [((Reg.millState 511).key, 1)] },
      by decide +kernel, by decide +kernel, by decide +kernel, by decide +kernel, by decide +kernel⟩,
    ⟨15, up, by decide, by decide +kernel⟩,
    ⟨15, 511, ⟨[0], 0, 1, 0, 0, false⟩, [], on .service
      { Wall.reset with hst := { HostSt.reset with mills := [(15, { MillRt.init with loop := [⟨[0], 0, 1, 0, 0, false⟩] })], rings := [(256, { RingRt.init with held := List.replicate 7 (0, 0) })] }, regs := [((Reg.millState 511).key, 1)], win := [(ringBlk 256 + 0x20, 1)] },
      by decide +kernel, by decide +kernel, by decide +kernel, by decide +kernel, by decide +kernel, by decide +kernel⟩,
    ⟨15, 511, ⟨[0], 0, 1, 0, 0, false⟩, [], on .service
      { Wall.reset with hst := { HostSt.reset with mills := [(15, { MillRt.init with loop := [⟨[0], 0, 1, 0, 0, false⟩] })] }, regs := [((Reg.millState 511).key, 1)] },
      by decide +kernel, by decide +kernel, by decide +kernel, by decide +kernel⟩,
    ⟨511, on .service { Wall.reset with regs := [((Reg.millState 511).key, 2)] }, by decide⟩,
    ⟨511, up, by decide⟩,
    ⟨255, up, by decide⟩,
    ⟨255, on .service (wHst { HostSt.reset with vecs := [(255, ⟨1, 0, 0⟩)] }), by decide⟩,
    ⟨up, by decide⟩⟩


theorem test_hypotheses_CountersTalliesAndBooks :
    (∃ (b : Brick) (k : Fin 32) (s : State), portsOn s.mode s.w = true ∧ s.w.get (Reg.pcValue b k) < 2 ^ 48 ∧ (pcCounting b k s.w = true ∨ pcChained b
      k s.w = true)) ∧
    (∃ (b : Brick) (k : Fin 32) (s : State), portsOn s.mode s.w = true ∧ s.w.get (Reg.pcValue b k) < 2 ^ 48 ∧ ¬ (pcCounting b k s.w = true ∨ pcChained
      b k s.w = true)) ∧
    (∃ (k : Fin 32) (s : State), windowOpen s.mode s.w = true ∧ k.val % 2 = 0) ∧
    (∃ (k : Fin 32) (s : State), windowOpen s.mode s.w = true ∧ k.val % 2 = 1) ∧
    (∃ (s : State), portsOn s.mode s.w = true) ∧
    (∃ (s : State), portsOn s.mode s.w = true ∧ s.w.get Reg.booksPeriodS = 0) ∧
    (∃ (s : State), portsOn s.mode s.w = true ∧ s.w.get Reg.booksPeriodS ≠ 0 ∧ s.w.obs.books = none) ∧
    (∃ (s : State), portsOn s.mode s.w = true ∧ s.w.get Reg.booksPeriodS ≠ 0 ∧ s.w.obs.books ≠ none) ∧
    (∃ (s : State), reeveOn s.mode s.w = true ∧ s.w.obs.books = none) ∧
    (∃ (s : State) (sel : _), reeveOn s.mode s.w = true ∧ s.w.obs.books = some sel ∧ s.w.obs.booksDue = false) ∧
    (∃ (s : State) (sel : _), reeveOn s.mode s.w = true ∧ s.w.obs.books = some sel ∧ s.w.obs.booksDue = true) ∧
    (∃ (s : State) (sel : _), reeveOn s.mode s.w = true ∧ s.w.obs.books = some sel) :=
  ⟨⟨15, 31, on .service (wr [(Reg.pcConfig 15 31, 2 ^ 18)] (Wall.reset)), by decide⟩,
    ⟨15, 31, up, by decide⟩,
    ⟨30, up, by decide⟩,
    ⟨31, up, by decide⟩,
    ⟨up, by decide⟩,
    ⟨on .service { Wall.reset with regs := [(Reg.booksPeriodS.key, 0)] }, by decide⟩,
    ⟨up, by decide⟩,
    ⟨on .service (wObs { ObsSt.reset with books := some 0 }), by decide⟩,
    ⟨up, by decide⟩,
    ⟨on .service (wObs { ObsSt.reset with books := some 3, booksDue := false }), 3, by decide⟩,
    ⟨on .service (wObs { ObsSt.reset with books := some 3, booksDue := true }), 3, by decide⟩,
    ⟨on .service (wObs { ObsSt.reset with books := some 3 }), 3, by decide⟩⟩


/-! ### Dvor handshakes, the queue, the whole machine -/

/-- An OPEN by credential `c` in the role of an officer. -/
abbrev opening (c : Nat) : DvorOpen := ⟨⟨.f0, 0, 0, 0⟩, 2, c, 0, 0, 0⟩

/-- A handshake in progress by credential `c`. -/
abbrev handshake (c : Nat) : Handshake := ⟨some 0, 5, ⟨.f0, 0, 0, 0⟩, .h, c, 0, 1, 0, 0, 0, [], 0, false⟩

theorem opening_discarded (w : Wall) : judgeOpen (opening 8) w = .discard := by
  unfold judgeOpen
  cases h : Config.onCurve (opening 8).point <;> rfl

/-- An enrolled officer and a handshake in progress by credential `c`. -/
def shakes (c : Nat) : State := on .service (wr [(Reg.credPubkey 7, 7), (Reg.credRole 7, 2)] (wLed { LedgerSt.reset with handshakes := [handshake c] }))

theorem shakes_key : (shakes 7).w.get (Reg.credPubkey 7) = 7 := by decide +kernel

/-- Whether a point lies on the curve is the world's: where the outcome rests on it, the witness takes that it does. -/
theorem test_hypotheses_DvorHandshakes :
    (∃ (o : DvorOpen) (s : State), dvorOn s.mode s.w = true ∧ pathOpen o.peer.path s.w = true ∧ s.mode = .sealedMode ∧
      (s.w.led.icmpSecond ≠ s.w.second ∨ s.w.led.icmpCount < 100)) ∧
    (∃ (o : DvorOpen) (s : State), dvorOn s.mode s.w = true ∧ pathOpen o.peer.path s.w = true ∧ s.mode ≠ .sealedMode ∧
      s.w.led.handshakes.find? (fun h => h.nonce == o.nonce) = none ∧ judgeOpen o s.w = .discard) ∧
    (Config.onCurve 0 = true → ∃ (o : DvorOpen) (s : State) (c : Nat), dvorOn s.mode s.w = true ∧ pathOpen o.peer.path s.w = true ∧
      s.mode ≠ .sealedMode ∧ s.w.led.handshakes.find? (fun h => h.nonce == o.nonce) = none ∧ judgeOpen o s.w = .abort c) ∧
    (Config.onCurve 0 = true → ∃ (o : DvorOpen) (s : State), dvorOn s.mode s.w = true ∧ pathOpen o.peer.path s.w = true ∧ s.mode ≠ .sealedMode ∧
      s.w.led.handshakes.find? (fun h => h.nonce == o.nonce) = none ∧ judgeOpen o s.w = .go ∧ s.w.led.sessions.length < 8 ∧
      s.w.led.handshakes.length < 4) ∧
    (∃ (peer : Peer) (id sig : Nat) (h : Handshake) (s : State), dvorOn s.mode s.w = true ∧ s.mode ≠ .sealedMode ∧ pathOpen peer.path s.w = true ∧
      s.w.led.handshakes.find? (fun h => h.id == id) = some h ∧ h.cred < 256 ∧
      (!Config.ecdsaVerify h.staticPoint (h.transcript ++ [0x63, 0x6F, 0x6E, 0x66, 0x69, 0x72, 0x6D]) sig ||
        (h.cred == 0xFF && officerEnrolled s.w)) = true) ∧
    (Config.ecdsaVerify 7 [0x63, 0x6F, 0x6E, 0x66, 0x69, 0x72, 0x6D] 0 = true →
      ∃ (peer : Peer) (id k : Nat) (h : Handshake) (s : State), dvorOn s.mode s.w = true ∧ s.mode ≠ .sealedMode ∧ pathOpen peer.path s.w = true ∧
        s.w.led.handshakes.find? (fun h => h.id == id) = some h ∧ h.cred < 256 ∧ h.slot = some k ∧ h.cred ≠ 0xFF ∧
        (!Config.ecdsaVerify (s.w.get (Reg.credPubkey h.cred)) (h.transcript ++ [0x63, 0x6F, 0x6E, 0x66, 0x69, 0x72, 0x6D]) 0 ||
          (h.cred == 0xFF && officerEnrolled s.w)) = false) ∧
    (∃ (peer : Peer) (id : Nat) (s : State), dvorOn s.mode s.w = true ∧ s.mode ≠ .sealedMode ∧ pathOpen peer.path s.w = true ∧
      s.w.led.handshakes.find? (fun h => h.id == id) = none ∧ s.w.led.sessions.find? (fun e => e.2.id == id) = none) ∧
    (∃ s : State, reeveOn s.mode s.w = true) :=
  ⟨⟨opening 0, on .sealedMode bare0, by decide⟩,
    ⟨opening 8, up, by decide, by decide, by decide, by decide, opening_discarded _⟩,
    fun hp => ⟨opening 0xFF, shakes 9, aOfficer, by decide +kernel, by decide, by decide, by decide +kernel,
      by unfold judgeOpen; rw [show Config.onCurve (opening 0xFF).point = true from hp]; decide +kernel⟩,
    fun hp => ⟨opening 7, shakes 9, by decide +kernel, by decide, by decide, by decide +kernel,
      by unfold judgeOpen; rw [show Config.onCurve (opening 7).point = true from hp]; decide +kernel, by decide +kernel, by decide +kernel⟩,
    ⟨⟨.f0, 0, 0, 0⟩, 5, 0, handshake 0xFF, shakes 0xFF, by decide +kernel, by decide, by decide, by decide +kernel, by decide,
      Bool.or_eq_true_iff.2 (.inr (by decide +kernel))⟩,
    fun hv => ⟨⟨.f0, 0, 0, 0⟩, 5, 0, handshake 7, shakes 7, by decide +kernel, by decide, by decide, by decide +kernel, by decide, by decide, by decide,
      Bool.or_eq_false_iff.2 ⟨by
        show (!Config.ecdsaVerify ((shakes 7).w.get (Reg.credPubkey 7)) [0x63, 0x6F, 0x6E, 0x66, 0x69, 0x72, 0x6D] 0) = false
        rw [shakes_key, hv]
        rfl, by decide⟩⟩,
    ⟨⟨.f1, 0, 0, 0⟩, 5, up, by decide⟩,
    ⟨on .kindle bare0, by decide⟩⟩

theorem test_hypotheses_StepTakesTheFront : ∃ (c : Instr) (rest : List Instr) (s : State), s.pending = c :: rest :=
  ⟨.vembRemoved, [.cellSend 0], ⟨[.vembRemoved, .cellSend 0], .off, bare0⟩, rfl⟩

theorem test_hypotheses_EmptyQueueTicks :
    (∃ s : State, s.pending = [] ∧ clocksRun s.mode s.w = true) ∧
    (∃ s : State, s.pending = [] ∧ clocksRun s.mode s.w = false ∧ s.mode ≠ .off ∧ s.w.bnd.vembUp = true) ∧
    (∃ s : State, s.pending = [] ∧ s.mode = .off) :=
  ⟨⟨up, by decide⟩, ⟨on .ember (wBnd { BoundarySt.reset with vembUp := true }), by decide⟩, ⟨State.reset, by decide⟩⟩

theorem test_hypotheses_ModesMoveOnlyAsListed :
    (∃ s t : State, step s = .next t) ∧
    (∃ (c : Instr) (rest : List Instr) (s t : State), s.pending = c :: rest ∧ step s = .next t ∧ s.mode ≠ t.mode) ∧
    (∃ s t : State, s.pending = [] ∧ step s = .next t) ∧ (∃ s t : State, s.mode = .sealedMode ∧ step s = .next t) :=
  ⟨⟨State.reset, _, rfl⟩, ⟨.vembRemoved, [], ⟨[.vembRemoved], .ember, bare0⟩, _, rfl, rfl, by decide⟩, ⟨up, _, rfl, rfl⟩,
    ⟨on .sealedMode bare0, _, rfl, rfl⟩⟩

theorem test_hypotheses_StepsKeepTheForm : (∃ s t : State, s.w.Ok ∧ step s = .next t) ∧ (∃ s t : State, noFault s ∧ step s = .next t) :=
  ⟨⟨State.reset, _, Sys2Proof.Machine.reset_ok, rfl⟩, ⟨up, _, rfl, rfl⟩⟩

theorem test_hypotheses_LatchesFollowTheirCauses :
    (∃ (u n : Nat) (w : Wall), u ≤ 17 ∧ n < 128 ∧ bit (w.get (Reg.bhPending u)) n = false) ∧
    (∃ (u n : Nat) (w : Wall), u ≤ 17 ∧ n < 128 ∧ bit (w.get (Reg.bhPending u)) n = true) ∧
    (∃ (u n : Nat) (r : SeqRt), u ≤ 17 ∧ n < 128 ∧ r.source = some n ∧ isLevel u n = true) :=
  ⟨⟨17, 127, bare0, by decide⟩, ⟨17, 127, wr [(Reg.bhPending 17, 2 ^ 127)] bare0, by decide⟩, ⟨17, 28, { SeqRt.init with source := some 28 }, by decide⟩⟩

theorem test_hypotheses_CommandsReachOnlyTheirParts : ∃ (c : Instr) (p : Part), p.reach c = false := ⟨.mNop 0, .lanes, by decide⟩

/-- Entries that match every key, in the active bank of brick 0. -/
abbrev sieved (l : List Nat) : Wall := wIng { IngressSt.reset with sieve := l.map fun i => (i, ⟨0, 0, 2 ^ 63⟩) }

/-- Entry `i` matches `key` in brick 0. -/
abbrev hits (key : Nat) (w : Wall) (i : Nat) : Prop :=
  i < 8192 ∧ bit (entryAt 0 (activeBank 0 w) i w).action 63 = true ∧
    (key ^^^ (entryAt 0 (activeBank 0 w) i w).value) &&& (entryAt 0 (activeBank 0 w) i w).mask = 0

theorem only_first (j : Nat) (h : hits 0 (sieved [0]) j) : j = 0 := by
  obtain ⟨_, h, _⟩ := h
  cases j with
  | zero => rfl
  | succ j =>
    exfalso
    have e : entryAt 0 (activeBank 0 (sieved [0])) (j + 1) (sieved [0]) = emptyEntry := by
      show tgetD [(0, (⟨0, 0, 2 ^ 63⟩ : SieveEntry))] (sieveKeyOf 0 0 (j + 1)) emptyEntry = emptyEntry
      simp [tgetD, tget, sieveKeyOf]
    rw [e] at h
    exact absurd h (by decide)

theorem test_hypotheses_SearchTakesTheLowestEntry :
    (∃ (w : Wall) (i : Nat), twf w.ing.sieve = true ∧ hits 0 w i ∧ (∀ j, hits 0 w j → i ≤ j) ∧ (∀ j, hits 0 w j → j = i)) ∧
    (∃ (w : Wall) (i j : Nat), twf w.ing.sieve = true ∧ hits 0 w i ∧ (∀ j, hits 0 w j → i ≤ j) ∧ hits 0 w j ∧ j ≠ i) ∧
    (∃ w : Wall, twf w.ing.sieve = true ∧ ∀ i, ¬ hits 0 w i) :=
  ⟨⟨sieved [0], 0, by decide, by decide, fun _ _ => Nat.zero_le _, only_first⟩,
    ⟨sieved [0, 8191], 0, 8191, by decide, by decide, fun _ _ => Nat.zero_le _, by decide, by decide⟩,
    ⟨bare0, by decide, fun _ h => absurd h.2.1 (by show ¬ bit emptyEntry.action 63 = true; decide)⟩⟩

/-! ### Well-formedness -/

/-- Each kind of check takes a command at its bound. -/
theorem test_wellformed_accepts :
    ([.powerGood 0xFFFF, .targetAccessError 2 4, .unmappedAccess true 0x3FFFFFC, .hostWindowWrite 8 8 (2 ^ 64 - 1), .egressCell 0
      ⟨0xFFFF, 511, 7, 0xFFFF, 0xFFFF, 2 ^ 32 - 1, 2 ^ 32 - 1, List.replicate 256 0⟩, .decisionArrive 0 (2 ^ 32 - 1) 0 3, .fecWindowEnd 0 (List.replicate 16 0) 9 4 5,
      .trainingFrame 0 true (List.replicate 12 0) false, .pfcFrameRx 0 255 (List.replicate 8 65535), .granaryScrubRead 122879 [⟨1, 122879, none⟩],
      .ringEnable .tx 0 1, .ringDisable .tx 0 0, .descriptorFetchDone .rx 0 (List.replicate 32 0), .telltaleMeasure (List.replicate 32 0) (List.replicate 32 0),
      .vendorOpcode 0 0x40 0, .vendorOpcode 0 0xBF 0, .dvorWrite ⟨0, ⟨.f0, 0, 0, 0⟩, 2 ^ 32 - 1, 0xFFFF, 255⟩ [], .eyeScanDone 0 [2 ^ 41 - 1]] :
      List Instr).all WellFormed = true := by decide +kernel

/-- One ill-formed term for each kind of check. -/
theorem test_wellformed_refuses :
    ([.powerGood 0x10000, .targetAccessError 4 4, .targetAccessError (2 ^ 26) 1, .unmappedAccess true 2, .hostWindowWrite 4 8 0, .hostWindowWrite 0 3 0,
      .hostWindowWrite 0 4 (2 ^ 32), .creditReturn 0 0x10000, .egressCell 0 ⟨0, 512, 0, 0, 0, 0, 0, List.replicate 256 0⟩,
      .egressCell 0 ⟨0, 0, 0, 0, 0, 0, 0, List.replicate 255 0⟩, .decisionArrive 0 0 0 4, .flushSpComplete 0 256, .lookupComplete 0 0 true (2 ^ 512),
      .dvorOpen ⟨⟨.f0, 2 ^ 48, 0, 0⟩, 0, 0, 0, 0, 0⟩, .dvorRead ⟨0, ⟨.f0, 0, 0, 0⟩, 2 ^ 32, 0, 0⟩, .dvorEventAck ⟨0, ⟨.f0, 0, 0, 0⟩, 0, 0, 0⟩ [2 ^ 32],
      .segTransferTimeout 0 256, .trainingFrame 0 true [] false, .hello 0 0 16 0, .rxReady 0 (List.replicate 33 0) [], .gossipOffer 0 256 0,
      .gossipRoll 0 0 0 (2 ^ 24), .fecWindowEnd 0 [] 9 5 5, .eyeScanDone 0 [2 ^ 41], .retestMeasured 0 ⟨[1, 1, 1, 1], [], 0, 0⟩,
      .telltaleMeasure [] [], .rxFrame ⟨0, [], false, false, 2 ^ 96⟩, .pauseFrameRx 0 0x10000, .pfcFrameRx 0 0 [], .policerApply 0 0 (2 ^ 32),
      .selftestNow 256, .granaryScrubRead 122880 [], .granaryScrubRead 0 [⟨0, 122880, none⟩], .granaryScrubRead 0 [⟨0, 0, some (.sheaf ⟨256, false, true, 0, 0, 0, 0⟩)⟩],
      .ringDoorbell .tx 0 (2 ^ 32), .ringEnable .tx 0 0, .ringDisable .tx 0 1, .descriptorFetchDone .tx 0 [2 ^ 256], .hostBhClear false (2 ^ 32),
      .vendorOpcode 0 0x3F 0, .vendorOpcode 0 0xC0 0] : List Instr).all (fun c => !WellFormed c) = true := by decide +kernel

/-! ### Single steps and known answers -/

/-- The state after a command. -/
def after (c : Instr) (s : State) : State := match exec c s with | .next t => t | _ => State.reset

/-- The values the table of R542 gives for the nine characters 1 to 9. -/
theorem test_crc_check_values :
    ([0, 1, 2, 3].map fun p => cvFinal p (crcReg (cvPolyRef p) (cvInit p) [0x31, 0x32, 0x33, 0x34, 0x35, 0x36, 0x37, 0x38, 0x39])) =
      [0xE3069283, 0xCBF43926, 0x995DC9BBDF1939FA, 0xAE8B14860A799888] := by decide +kernel

/-- The words above bits that the table does not give spell no command (log entry 8). -/
theorem test_no_word : decodeTableWord 16 0x0401 = none := rfl

/-- A steward with values in two registers. -/
def two (a b : Nat) : State := stw { seqA with g := [(2, a), (3, b)] }

/-- ADD wraps at 32 bits and sets Z and C, not V (R560). -/
theorem test_add_wraps :
    let r := (after (.mAdd 0 2 3) (two 0xFFFFFFFF 1)).w.seq 0
    (tgetD r.g 2 0, r.z, r.n, r.c, r.v) = (0, true, false, true, false) := by decide +kernel

/-- ADD of two positive numbers past 2 ^ 31 sets N and V (R560). -/
theorem test_add_overflows :
    let r := (after (.mAdd 0 2 3) (two 0x7FFFFFFF 1)).w.seq 0
    (tgetD r.g 2 0, r.z, r.n, r.c, r.v) = (0x80000000, false, true, false, true) := by decide +kernel

/-- SHL takes its count modulo 32 (R560). -/
theorem test_shl_by_33 : tgetD ((after (.mShl 0 2 3) (two 0x80000001 33)).w.seq 0).g 2 0 = 2 := by decide +kernel

/-- SHR brings zeros in, also when a register is its own count (R560). -/
theorem test_shr_self : tgetD ((after (.mShr 0 2 2) (two 0x80000003 0)).w.seq 0).g 2 0 = 0x10000000 := by decide +kernel

/-- LDH shifts g0 left by a byte (R560). -/
theorem test_ldh : tgetD ((after (.mLdh 0 0xCD) (stw { seqA with g := [(0, 0xAB)] })).w.seq 0).g 0 0 = 0xABCD := by decide +kernel

/-- A command runs with the rest of the queue behind it. -/
theorem test_step_keeps_the_rest :
    (match step ⟨[.vembRemoved, .cellSend 0], .ember, bare0⟩ with | .next t => decide (t.mode = .off ∧ t.pending = [.cellSend 0]) | _ => false) = true := by
  decide +kernel

/-- The FCS of 60 bytes of zero (CRC-32 of IEEE 802.3, R542). -/
theorem test_fcs : fcsGood frame64 = true := by decide +kernel

/-- The last power-good starts KINDLE (R41, R127). -/
theorem test_power_good : (after (.powerGood 0xFFFF) State.reset).mode = .kindle := by decide +kernel

/-- Without VCORE the wall is OFF (R127). -/
theorem test_vcore_removed : (after .vcoreRemoved up).mode = .off := by decide +kernel

/-- A credit word of 3 credits adds 3 to what the wall holds for its course (R60). -/
theorem test_credit_return :
    courseCredits 2 (after (.creditReturn 2 3) (on .service (wBnd { BoundarySt.reset with pool := [(2, 8)], credits := [(2, 5)] }))).w = 8 := by
  decide +kernel

/-- A handshake that times out is dropped (R99). -/
theorem test_handshake_timeout : (after (.handshakeTimeout 0) (shakes 7)).w.led.handshakes = [] := by decide +kernel

/-- The host clears the edge latches whose bit it writes 1 (R580). -/
theorem test_host_clear :
    (after (.hostBhClear false 0x1) (on .service (wr [(Reg.bhPending 17, 0x3)] bare0))).w.get (Reg.bhPending 17) = 0x2 := by decide +kernel


end Sys2Proof.Machine.Tests
end

section
/-! The Sieve's search (R331): the list of matches read by the entries that hit, and the obligation about the winner. -/

open Sys2Proof

namespace Sys2Proof.Machine

section
variable {b sp key i : Nat} {w : Wall}

theorem mem_matches_of_hits (h : twf w.ing.sieve = true) (hi : Hits b key w i) :
    (i, (entryAt b (activeBank b w) i w).action) ∈ sieveMatches b key w :=
  (mem_matches h _ _).2 ⟨hi, rfl⟩

theorem matches_eq_nil (h : twf w.ing.sieve = true) (miss : ∀ i, ¬ Hits b key w i) : sieveMatches b key w = [] :=
  List.eq_nil_iff_forall_not_mem.2 fun ⟨i, _⟩ m => miss i ((mem_matches h _ _).1 m).1

/-- The list of matches rises: what follows its head has a higher index. -/
theorem lt_of_mem_matches_tail {a : Nat} {rest : List (Nat × Nat)} {x : Nat × Nat} (h : twf w.ing.sieve = true)
    (e : sieveMatches b key w = (i, a) :: rest) (m : x ∈ rest) : i < x.1 := by
  have rising := matches_rising (b := b) (key := key) h
  rw [e] at rising
  exact List.rel_of_pairwise_cons rising m

theorem matches_eq_cons_of_lowest (h : twf w.ing.sieve = true) (hi : Hits b key w i) (low : ∀ j, Hits b key w j → i ≤ j) :
    ∃ rest, sieveMatches b key w = (i, (entryAt b (activeBank b w) i w).action) :: rest := by
  have mi := mem_matches_of_hits h hi
  cases e : sieveMatches b key w with
  | nil => simp [e] at mi
  | cons x rest =>
    rw [e] at mi
    rcases List.mem_cons.1 mi with head | tail
    · exact ⟨rest, by rw [head]⟩
    · have hx : Hits b key w x.1 := ((mem_matches h x.1 x.2).1 (e ▸ List.mem_cons_self)).1
      exact absurd (lt_of_mem_matches_tail h e tail) (low _ hx).not_gt

/-- What follows the head of the list of matches is empty just when the head's entry alone hits. -/
theorem matches_tail_eq_nil_iff {a : Nat} {rest : List (Nat × Nat)} (h : twf w.ing.sieve = true)
    (e : sieveMatches b key w = (i, a) :: rest) : rest = [] ↔ ∀ j, Hits b key w j → j = i := by
  constructor
  · rintro rfl j hj
    have mj := mem_matches_of_hits h hj
    rw [e, List.mem_singleton] at mj
    exact (Prod.mk.inj mj).1
  · intro only
    refine List.eq_nil_iff_forall_not_mem.2 fun x m => ?_
    have hx : Hits b key w x.1 := ((mem_matches h x.1 x.2).1 (e ▸ List.mem_cons_of_mem _ m)).1
    exact (lt_of_mem_matches_tail h e m).ne' (only _ hx)

/-- What a search that hits nothing answers and leaves. -/
theorem search_miss (hb : b < 16) (hs : sp < 512) (e : sieveMatches b key (pcSp sp 0x06 1 none w) = []) :
    (sieveSearch b sp key w).1 = w.get (Reg.noMatchAction sp) ∧
    (sieveSearch b sp key w).2.ing = w.ing ∧
    (sieveSearch b sp key w).2.get (Reg.shadowed b) = w.get (Reg.shadowed b) ∧
    (sieveSearch b sp key w).2.get (Reg.sieveMisses b) = (w.get (Reg.sieveMisses b) + 1) % 2 ^ 64 := by
  have shape : sieveSearch b sp key w =
      ((pcSp sp 0x06 1 none w).get (Reg.noMatchAction sp), (pcSp sp 0x06 1 none w).bump (Reg.sieveMisses b) 1) := by
    unfold sieveSearch
    simp only [e]
  rw [shape]
  refine ⟨(aside_noMatch sp hs).pcSp hs, ?_, ?_, ?_⟩
  · rw [Wall.bump_ing, pcSp_ing]
  · rw [get_bump_other _ _ _ _ (by simp only [Reg.shadowed, Reg.sieveMisses]; omega), (aside_shadowed b hb).pcSp hs]
  · rw [get_bump_same, (aside_sieveMisses b hb).pcSp hs]; rfl

end

/-- Settles O60: the matches rise, so the lowest hit is their head, and SHADOWED asks whether anything follows it. -/
theorem searchTakesTheLowestEntry : Obligations.SearchTakesTheLowestEntry := by
  intro b sp key w hb hs h
  have same := matches_pcSp b sp key w hb hs
  constructor
  · intro i hi low
    obtain ⟨rest, e⟩ := matches_eq_cons_of_lowest h hi low
    obtain ⟨action, hits, misses, shadowed⟩ := search_hit hb hs (same.trans e)
    have tail := matches_tail_eq_nil_iff h e
    refine ⟨action, hits, misses, fun only => ?_, fun j hj ne => ?_⟩
    · rw [shadowed, if_pos (tail.2 only)]
    · rw [shadowed, if_neg fun q => ne (tail.1 q j hj)]
  · intro miss
    obtain ⟨action, ing, shadowed, misses⟩ := search_miss hb hs (same.trans (matches_eq_nil h miss))
    exact ⟨action, fun k => congrArg (fun g => tgetD g.hits k 0) ing, shadowed, misses⟩

end Sys2Proof.Machine
end

section
/-! The latches of a Bellhouse (R580, R581): what an edge, a level cause and a RETI leave in BH_PENDING and BH_COALESCED. -/

open Sys2Proof

namespace Sys2Proof.Machine

section
variable {u n : Nat} {w : Wall}

/-! ### A latch that sets -/

/-- ENABLE decides a vector event alone: the latch that sets is the same with it and without it. -/
theorem setLatch_pending : (setLatch u n w).get (Reg.bhPending u) = setBit (w.get (Reg.bhPending u)) n % 2 ^ 128 := by
  rw [setLatch_val _ _ _ _ pending_ne_taken, get_setBitR_same]; rfl

theorem setLatch_coalesced : (setLatch u n w).get (Reg.bhCoalesced u) = w.get (Reg.bhCoalesced u) := by
  rw [setLatch_val _ _ _ _ coalesced_ne_taken, get_setBitR_other _ _ _ _ (pending_ne_coalesced u).symm]

/-! ### An edge -/

theorem latch_of_clear (h : bit (w.get (Reg.bhPending u)) n = false) : latch u n w = setLatch u n w :=
  if_neg (by simp [h])

theorem latch_of_set (h : bit (w.get (Reg.bhPending u)) n = true) : latch u n w = w.bump (Reg.bhCoalesced u) 1 :=
  if_pos h

/-! ### A level cause -/

/-- A cause that goes high leaves its latch set, whether it sets now or was set before, and coalesces nothing. -/
theorem level_high_latches (hn : n < 128) :
    bit ((level u n true w).get (Reg.bhPending u)) n = true ∧
    (level u n true w).get (Reg.bhCoalesced u) = w.get (Reg.bhCoalesced u) := by
  obtain ⟨y, regs, -, shape⟩ := level_shape u n true w
  have same (o : Reg) : y.get o = w.get o := by unfold Wall.get; rw [regs]
  rw [shape]
  cases c : bit (w.get (Reg.bhPending u)) n with
  | false =>
    show bit ((setLatch u n y).get (Reg.bhPending u)) n = true ∧ (setLatch u n y).get (Reg.bhCoalesced u) = _
    exact ⟨setLatch_pending ▸ bit_setBit_mod _ _ _ hn, setLatch_coalesced.trans (same _)⟩
  | true =>
    show bit (y.get (Reg.bhPending u)) n = true ∧ y.get (Reg.bhCoalesced u) = _
    exact ⟨by rw [same, c], same _⟩

/-! ### RETI -/

/-- RETI for a level source writes that source's latch from its cause, and no other object. -/
theorem doReti_get_of_level {r : SeqRt} (o : Reg) (hr : r.source = some n) (hl : isLevel u n = true) :
    (doReti u r w).get o =
      (if levelHigh u n w then w.setBitR (Reg.bhPending u) n else w.clrBitR (Reg.bhPending u) n).get o := by
  unfold doReti
  simp only [hr, hl, if_true]
  split <;> rw [Wall.setSeq_get]

theorem doReti_resamples {r : SeqRt} (hn : n < 128) (hr : r.source = some n) (hl : isLevel u n = true) :
    bit ((doReti u r w).get (Reg.bhPending u)) n = levelHigh u n w := by
  rw [doReti_get_of_level _ hr hl]
  cases levelHigh u n w with
  | true => exact (congrArg (bit · n) (get_setBitR_same ..)).trans (bit_setBit_mod _ _ _ hn)
  | false => exact (congrArg (bit · n) (get_clrBitR_same ..)).trans (bit_clrBit ..)

end

/-- Settles O59: an edge splits on its latch, a level cause latches in both cases, and RETI writes the latch from the cause. -/
theorem latchesFollowTheirCauses : Obligations.LatchesFollowTheirCauses := by
  intro u n w _ hn
  obtain ⟨latched, coalesced⟩ := level_high_latches (u := u) (w := w) hn
  refine ⟨fun hclear => ?_, fun hset => ?_, latched, level_levels u n true w, coalesced, level_levels u n false w,
    fun _ hr hl => doReti_resamples hn hr hl⟩
  · rw [latch_of_clear hclear]
    exact ⟨fun j => setLatch_pending ▸ bit_setBit_all _ _ _ _ hn, setLatch_coalesced⟩
  · rw [latch_of_set hset]
    exact ⟨get_bump_other _ _ _ _ (pending_ne_coalesced u), get_bump_same ..⟩

end Sys2Proof.Machine
end

section
/-! The whole wall: its queue, its reset, the tick, the modes, the form of the state and the frames of every command. -/

open Sys2Proof

namespace Sys2Proof.Machine

/-- Settles O55: `exec_moveBy` says which command triggers a move, and every triggered move is listed. -/
theorem modesMoveOnlyAsListed : Obligations.ModesMoveOnlyAsListed := by
  refine ⟨fun _ _ => step_mayMove, fun _ _ _ _ => step_moveBy, fun s t idle h => ?_, fun s t sealedNow h => ?_⟩
  · rw [step_idle idle] at h
    cases h; rfl
  · have listed : mayMove s.mode t.mode = true := step_mayMove h
    rw [sealedNow] at listed
    revert listed
    cases t.mode <;> decide

/-- Settles O56: `step_ok` and `step_fault`, each from what every command and the tick keep. -/
theorem stepsKeepTheForm : Obligations.StepsKeepTheForm :=
  ⟨fun _ _ ok h => step_ok h ok, fun _ _ none h => step_fault h none⟩

/-- Settles O57: what `exec_kept` says of every field, gathered into parts by `exec_same`. -/
theorem commandsReachOnlyTheirParts : Obligations.CommandsReachOnlyTheirParts := fun c s => exec_same c s

/-! ### The tick -/

/-- What a tick does after its clocks have moved: the per-dclk counters, the second, and the in-band messages. -/
def tickRest (m : Mode) (t : Nat) (w : Wall) : Wall :=
  let w := upTo 16 (fun b w => if spineRuns (courseOfBrick b) m w then dclkCounts b w else w) w
  inbandTick (if (t + 1) % 800000000 = 0 then secondTick w else w)

/-- It moves neither a clock nor the boundary. -/
theorem tickRest_keep (m : Mode) (t : Nat) (w : Wall) : Keep 0x301803000000005c60000002010000000000003 w (tickRest m t w) := by
  unfold tickRest
  refine Keep.step ?_ (inbandTick_keep _) (by decide)
  have counted : Keep 0x301803000000005c60000002010000000000003 w
      (upTo 16 (fun b w => if spineRuns (courseOfBrick b) m w then dclkCounts b w else w) w) :=
    Keep.upTo .refl fun b x h => Keep.ite (fun _ => h.step (dclkCounts_keep b x) (by decide)) fun _ => h
  exact Keep.ite (fun _ => counted.step (secondTick_keep _) (by decide)) fun _ => counted

/-- The clocks that a tick moves: the ember tick, the stamp count and wall time, and dclk where it counts. -/
def tickClocks (m : Mode) (w : Wall) : Wall :=
  let n := (w.time.tclk + 1) * 32768 / 800000000 - w.time.tclk * 32768 / 800000000
  let w := tickTime (modBnd (fun b => { b with emberTick := (b.emberTick + n) % 2 ^ 48 }) w)
  if m = .kindle ∨ m = .service then { w with time := { w.time with dclk := w.time.dclk + 2 } } else w

theorem tick_eq {m : Mode} {w : Wall} (run : clocksRun m w = true) : tick m w = tickRest m w.time.tclk (tickClocks m w) :=
  if_neg (by simp [run])

theorem tickClocks_does (m : Mode) (w : Wall) :
    (tickClocks m w).time = { w.time with
      tclk := w.time.tclk + 1
      acc := (w.time.acc + w.time.inc) % 2 ^ 96
      dclk := w.time.dclk + if m = .kindle ∨ m = .service then 2 else 0 } ∧
    (tickClocks m w).bnd.emberTick =
      (w.bnd.emberTick + ((w.time.tclk + 1) * 32768 / 800000000 - w.time.tclk * 32768 / 800000000)) % 2 ^ 48 := by
  unfold tickClocks tickTime modBnd
  by_cases serves : m = .kindle ∨ m = .service
  · simp only [if_pos serves, and_self]
  · simp only [if_neg serves, Nat.add_zero, and_self]

theorem tick_running {m : Mode} {w : Wall} (run : clocksRun m w = true) :
    (tick m w).time = { w.time with
      tclk := w.time.tclk + 1
      acc := (w.time.acc + w.time.inc) % 2 ^ 96
      dclk := w.time.dclk + if m = .kindle ∨ m = .service then 2 else 0 } ∧
    (tick m w).bnd.emberTick =
      (w.bnd.emberTick + ((w.time.tclk + 1) * 32768 / 800000000 - w.time.tclk * 32768 / 800000000)) % 2 ^ 48 := by
  rw [tick_eq run, (tickRest_keep ..).time.same (by decide), (tickRest_keep ..).bnd.emberTick (by decide)]
  exact tickClocks_does m w

theorem tick_stopped {m : Mode} {w : Wall} (stop : clocksRun m w = false) (on : m ≠ .off) (vemb : w.bnd.vembUp = true) :
    tick m w = { w with bnd := { w.bnd with emberTick := (w.bnd.emberTick + 1) % 2 ^ 48 } } := by
  unfold tick
  rw [if_pos (by simp [stop]), if_neg (by simp [on, vemb])]
  rfl

theorem tick_off (w : Wall) : tick .off w = w := rfl

/-- Settles O52: the tick of running clocks, of stopped ones, and of OFF. -/
theorem emptyQueueTicks : Obligations.EmptyQueueTicks := by
  intro s idle
  refine ⟨_, step_idle idle, rfl, idle, tick_running, tick_stopped, fun off => ?_⟩
  rw [off, tick_off, ← off]

/-! ### Steps and reset -/

/-- Settles O54: a command of the queue by `exec_kept`, an empty queue by its tick. -/
theorem everyStepAnswers : Obligations.EveryStepAnswers := step_answers

/-- Settles O51. -/
theorem stepTakesTheFront : Obligations.StepTakesTheFront := fun _ _ _ => step_front

/-- Settles O53: every field is read off `State.reset`; its tables are empty, hence `reset_ok`. -/
theorem resetLeaves : Obligations.ResetLeaves := by
  have empty : ∀ o : Reg, State.reset.w.get o = o.dflt := fun _ => rfl
  have blank : ∀ o d, State.reset.w.win32 o d = d := fun _ _ => rfl
  exact ⟨rfl, rfl, empty, blank, rfl, rfl, rfl, rfl, rfl, rfl, rfl, rfl, rfl, rfl, rfl, rfl, rfl, rfl, rfl, rfl, rfl, rfl, rfl, rfl,
    reset_ok, rfl⟩

/-- Settles O58: the table spells no command, so placing a word finds nothing to queue. -/
theorem noWordSpellsACommand : Obligations.NoWordSpellsACommand := fun _ _ => ⟨rfl, fun _ => rfl⟩

end Sys2Proof.Machine
end

section
/-! Power, references, KINDLE's ends at its first ROM fetch, and the power-fail warning (R30 to R42, R127, R131 to R134). -/

open Sys2Proof

namespace Sys2Proof.Machine

/-! ### Power-good and the loss of the rails -/

section
variable {r cause : Nat} {m : Mode} {w : Wall}

/-- The wall in which KINDLE waits for REFCORE after the last power-good (R41). -/
def poweredWall (r cause : Nat) (m : Mode) (w : Wall) : Wall :=
  (((modBnd (fun b => { b with waitRef := true }) (freshWall (modBnd (fun b => { b with
      cause := cause + (modeCode m) * 256, wakeReq := false, vembUp := true, vcoreIn := true, vgranOk := true, pfail := false,
      pfailHigh := false, inhibit := false, refLanes := r % 2 ^ 16 }) w))).set Reg.railGood 0x1F).set Reg.vcoreMv 700).set
    Reg.reflanePresent (r % 2 ^ 16)

theorem powerGood_off : powerGood r .off w = (.kindle, poweredWall r 1 .off w) := rfl

theorem powerGood_ember_wake (wake : w.bnd.wakeReq = true) :
    powerGood r .ember w = (.kindle, poweredWall r (if w.bnd.zeroLatch then 3 else 2) .ember w) := by
  show (if w.bnd.wakeReq then _ else _) = _
  rw [if_pos wake]
  rfl

theorem powerGood_ember_asleep (asleep : w.bnd.wakeReq = false) : powerGood r .ember w = (.ember, w) := by
  show (if w.bnd.wakeReq then _ else _) = _
  rw [if_neg (by simp [asleep])]

theorem poweredWall_bnd : (poweredWall r cause m w).bnd.waitRef = true ∧ (poweredWall r cause m w).bnd.cause = cause + modeCode m * 256 ∧
    (poweredWall r cause m w).bnd.emberTick = w.bnd.emberTick ∧ (poweredWall r cause m w).bnd.zeroLatch = w.bnd.zeroLatch := by
  unfold poweredWall
  rw [Wall.set_bnd, Wall.set_bnd, Wall.set_bnd, modBnd, freshWall_bnd]
  exact ⟨rfl, rfl, rfl, rfl⟩

theorem poweredWall_rails : (poweredWall r cause m w).get Reg.railGood = 0x1F ∧
    (poweredWall r cause m w).get Reg.reflanePresent = r % 2 ^ 16 := by
  unfold poweredWall
  constructor
  · rw [get_set_other _ _ _ _ (by decide), get_set_other _ _ _ _ (by decide), get_set_same]; rfl
  · rw [get_set_same]; exact Nat.mod_mod _ _

theorem poweredWall_led : (poweredWall r cause m w).led.queue = [] ∧ (poweredWall r cause m w).led.sessions = [] := by
  unfold poweredWall
  simp only [Wall.set_led, modBnd, freshWall_led]
  exact ⟨rfl, rfl⟩

theorem poweredWall_sas : (poweredWall r cause m w).sec.sas = [] := by
  unfold poweredWall
  simp only [Wall.set_sec, modBnd, freshWall_sec]
  rfl

theorem poweredWall_retention : (poweredWall r cause m w).gra.retention = w.gra.retention := by
  unfold poweredWall
  simp only [Wall.set_gra, modBnd, freshWall_gra]
  rfl

theorem vcoreRemoved_powered (on : m ≠ .off) (up : m ≠ .ember) : vcoreRemoved m w =
    (.off, freshWall { w with gra := { w.gra with retention := { w.gra.retention with valid := false } } }) := by
  cases m with
  | off => exact absurd rfl on
  | ember => exact absurd rfl up
  | _ => rfl

end

/-- Settles O1: what stays of a wall that loses its rails is `freshWall` of it, and power-good starts from that. -/
theorem powerMovesTheMode : Obligations.PowerMovesTheMode := by
  refine ⟨fun r s off => ?_, fun r s ember wake => ?_, fun r s ember asleep => ?_, fun s on up => ?_, fun s => ?_⟩
  · obtain ⟨wait, cause, -, -⟩ := poweredWall_bnd (r := r) (cause := 1) (m := .off) (w := s.w)
    obtain ⟨rails, lanes⟩ := poweredWall_rails (r := r) (cause := 1) (m := .off) (w := s.w)
    obtain ⟨queue, sessions⟩ := poweredWall_led (r := r) (cause := 1) (m := .off) (w := s.w)
    exact completes_actMove rfl (by rw [off]; exact powerGood_off) ⟨rfl, wait, cause, rails, lanes, queue, sessions, poweredWall_sas⟩
  · obtain ⟨wait, cause, tick, zero⟩ := poweredWall_bnd (r := r) (cause := if s.w.bnd.zeroLatch then 3 else 2) (m := .ember) (w := s.w)
    exact completes_actMove rfl (by rw [ember]; exact powerGood_ember_wake wake) ⟨rfl, wait, cause, poweredWall_retention, tick, zero⟩
  · show actMove (powerGood r) s = .next s
    unfold actMove
    rw [ember, powerGood_ember_asleep asleep, ← ember]
  · refine completes_actMove rfl (vcoreRemoved_powered on up) ⟨rfl, ?_⟩
    simp only [freshWall_gra, freshWall_sec, freshWall_led]
    exact ⟨rfl, rfl, rfl, rfl, rfl, rfl⟩
  · refine completes_actMove rfl rfl ⟨rfl, ?_⟩
    simp only [freshWall_bnd, freshWall_gra]
    exact ⟨rfl, rfl, rfl, rfl, rfl⟩

/-! ### KINDLE at its first ROM fetch -/

section
variable {i : KindleIn} {v : Wall}

/-- The banks as KINDLE reads them at its first step. -/
def readWall (i : KindleIn) (v : Wall) : Wall := readBanks i ((kindleStart v).set Reg.rootLocked 1)

/-- The wall at step 4, its self-tests passed. -/
def testedWall (i : KindleIn) (v : Wall) : Wall :=
  restoreRetention i.retentionCrcOk
    (Wall.set { readWall i v with sec := { (readWall i v).sec with testsPassed := true } } Reg.kindleStep 4)

theorem readWall_zeroLatch : (readWall i v).bnd.zeroLatch = v.bnd.zeroLatch := by
  refine ((readBanks_keep ..).bnd.zeroLatch (by decide)).trans ?_
  rw [Wall.set_bnd, kindleStart_zeroLatch]

theorem kindle_unmarked (rom : i.romOk = true) (pin : i.zeroisePin = false) (zero : v.bnd.zeroLatch = false) (test : i.selftest = 0)
    (clear : markerOf (testedWall i v) = none) : kindle i v = kindleService i (testedWall i v) := by
  have held : (readBanks i ((kindleStart v).set Reg.rootLocked 1)).bnd.zeroLatch = false := readWall_zeroLatch.trans zero
  unfold kindle
  extract_lets start read failed sec passed tested
  rw [if_neg (by simp [rom]), if_neg (by rw [pin, held]; simp), if_neg (by simp [test])]
  show (match markerOf tested with | some c => _ | none => kindleService i tested) = kindleService i tested
  rw [show markerOf tested = none from clear]

/-- Blank banks read back blank, with no zeroisation marker. -/
theorem testedWall_blank (damage : i.damage = []) (ok0 : i.headerOk0 = true) (ok1 : i.headerOk1 = true) (bank0 : v.gra.bank0 = [])
    (bank1 : v.gra.bank1 = []) (hdr0 : v.gra.hdr0 = []) (hdr1 : v.gra.hdr1 = []) :
    (testedWall i v).gra.bank0 = [] ∧ (testedWall i v).gra.bank1 = [] ∧ markerOf (testedWall i v) = none := by
  have start : ((kindleStart v).set Reg.rootLocked 1).gra = (freshState v).gra := by rw [Wall.set_gra, kindleStart_gra]
  have read := rebuildRows_keep ((kindleStart v).set Reg.rootLocked 1)
  rw [← readBanks_clean damage ok0 ok1] at read
  have restored := restoreRetention_keep i.retentionCrcOk
    (Wall.set { readWall i v with sec := { (readWall i v).sec with testsPassed := true } } Reg.kindleStep 4)
  have h0 : (testedWall i v).gra.hdr0 = [] :=
    (restored.gra.hdr0 (by decide)).trans ((read.gra.hdr0 (by decide)).trans (by rw [start]; exact hdr0))
  have h1 : (testedWall i v).gra.hdr1 = [] :=
    (restored.gra.hdr1 (by decide)).trans ((read.gra.hdr1 (by decide)).trans (by rw [start]; exact hdr1))
  refine ⟨?_, ?_, ?_⟩
  · exact (restored.gra.bank0 (by decide)).trans ((read.gra.bank0 (by decide)).trans (by rw [start]; exact bank0))
  · exact (restored.gra.bank1 (by decide)).trans ((read.gra.bank1 (by decide)).trans (by rw [start]; exact bank1))
  · unfold markerOf
    rw [blank_header h0 h1, blank_header h0 h1]
    rfl

theorem noteMove_kindleStep (x : Wall) (us : Nat) :
    (noteMove 2 3 4 ((x.set Reg.kindleStep 8).set Reg.kindleUs us)).get Reg.kindleStep = 8 := by
  have aside : Aside Reg.kindleStep := by decide
  rw [aside.noteMove (by decide) (by decide), get_set_other _ _ _ _ (by decide), get_set_same]
  rfl

end

/-- Settles O2: the first ROM fetch runs KINDLE, which ends at step 1, at the self-tests, or past blank banks at step 8. -/
theorem rootPllLockRunsKindle : Obligations.RootPllLockRunsKindle := by
  intro i s kindling wait clocks pfail
  have runs := rootPllLock_runs (i := i) kindling wait clocks pfail
  refine ⟨fun rom => ?_, fun rom pin zero test => ?_, fun rom pin zero test damage ok0 ok1 bank0 bank1 hdr0 hdr1 => ?_⟩
  · refine completes_actMove rfl (runs.trans (kindle_bad i _ rom)) ⟨rfl, get_set_same .., ?_⟩
    exact (congrArg BoundarySt.waitRef (Wall.set_bnd ..)).trans (kindleStart_waitRef _)
  · refine completes_actMove rfl (runs.trans (kindle_sealed i _ rom pin (readWall_zeroLatch.trans zero) test)) ⟨rfl, ?_⟩
    simp only [zeroiseEngines_sec]
    exact ⟨rfl, rfl⟩
  · obtain ⟨blank0, blank1, clear⟩ := testedWall_blank (i := i)
      (v := modBnd (fun b => { b with waitRef := false, fetchDue := false }) s.w) damage ok0 ok1 bank0 bank1 hdr0 hdr1
    obtain ⟨x, service⟩ := blank_service i _ blank0 blank1
    exact completes_actMove rfl (runs.trans ((kindle_unmarked rom pin zero test clear).trans service))
      ⟨rfl, noteMove_kindleStep .., lastCause_noteMove ..⟩

/-! ### References and VCORE's tolerance -/

section
variable {b : Nat} {m : Mode} {w : Wall}

/-- Clocks that run are those of a mode with rails (R126). -/
theorem clocksRun_modes (run : clocksRun m w = true) : m ≠ .off ∧ m ≠ .ember := by
  unfold clocksRun at run
  constructor <;> (rintro rfl; simp at run)

theorem refcoreLoss_serving (run : clocksRun m w = true) (live : halted w = false) (open_ : m ≠ .sealedMode) :
    ∃ x, refcoreLoss m w = (.kindle, modBnd (fun b => { b with
      clocksStopped := true, fetchDue := false, cause := 15 + modeCode m * 256, dozing := false }) x) := by
  obtain ⟨on, up⟩ := clocksRun_modes run
  unfold refcoreLoss
  rw [if_neg (by simp [run]), if_neg (by simp [live])]
  cases m with
  | off => exact absurd rfl on
  | ember => exact absurd rfl up
  | sealedMode => exact absurd rfl open_
  | _ => exact ⟨_, rfl⟩

theorem refcoreLoss_sealed (run : clocksRun .sealedMode w = true) (live : halted w = false) :
    ∃ x, refcoreLoss .sealedMode w = (.sealedMode, modBnd (fun b => { b with clocksStopped := true }) x) := by
  unfold refcoreLoss
  rw [if_neg (by simp [run]), if_neg (by simp [live])]
  exact ⟨_, rfl⟩

theorem refcoreRestored_kindle (stopped : w.bnd.clocksStopped = true) (live : halted w = false) :
    refcoreRestored .kindle w = modBnd (fun b => { b with clocksStopped := false, fetchDue := true }) w := by
  unfold refcoreRestored
  rw [if_neg (by simp [stopped])]
  show (if halted w then _ else _) = _
  rw [if_neg (by simp [live])]
  rfl

theorem reflaneEvent_serving {present : Bool} (serves : portsOn m w = true) :
    reflaneEvent b present m w = if present then reflaneRestored b w else reflaneLoss b w := by
  obtain ⟨on, up⟩ := portsOn_modes serves
  unfold reflaneEvent
  rw [if_neg (by simp [on, up]), if_pos serves]

theorem vcoreTolerance_out : (vcoreTolerance false w).bnd.inhibit = true ∧ (vcoreTolerance false w).bnd.vcoreIn = false := ⟨rfl, rfl⟩

theorem vcoreTolerance_back (quiet : w.bnd.pfail = false) (vgran : w.bnd.vgranOk = true) :
    (vcoreTolerance true w).bnd.inhibit = false ∧ (vcoreTolerance true w).bnd.vcoreIn = true := by
  have free : (w.bnd.pfail || !w.bnd.vgranOk) = false := by simp [quiet, vgran]
  have shape : vcoreTolerance true w = setInhibit false (modBnd (fun b => { b with vcoreIn := true }) w) :=
    if_neg (by show ¬ (w.bnd.pfail || !w.bnd.vgranOk) = true; simp [free])
  rw [shape]
  exact ⟨rfl, rfl⟩

end

/-- A command whose event needs rails. -/
theorem completes_railed {c : Instr} {s : State} {P : State → Prop} {f : Wall → Wall}
    (e : exec c s = actIf (fun m _ => m != .off && m != .ember) f s) (on : s.mode ≠ .off) (up : s.mode ≠ .ember)
    (h : P { s with w := f s.w }) : Completes c s P :=
  completes_actIf e (by simp [on, up]) h

/-- Settles O3: one case for each thing that REFCORE, a REFLANE or VCORE can do in the modes named. -/
theorem referencesAndTolerance : Obligations.ReferencesAndTolerance := by
  refine ⟨fun s run live open_ => ?_, fun s run live seald => ?_, fun s kindling stopped live => ?_, fun b s serves there => ?_,
    fun b s serves gone => ?_, fun s on up => ⟨?_, fun quiet vgran => ?_⟩⟩
  · obtain ⟨x, loss⟩ := refcoreLoss_serving run live open_
    exact completes_actMove rfl loss ⟨rfl, rfl, rfl, rfl⟩
  · obtain ⟨x, loss⟩ := refcoreLoss_sealed (seald ▸ run) live
    exact completes_actMove rfl (by rw [seald]; exact loss) ⟨rfl, rfl⟩
  · refine completes_actM rfl ?_
    dsimp only
    rw [kindling, refcoreRestored_kindle stopped live]
    exact ⟨rfl, rfl, rfl⟩
  · refine completes_actM rfl ?_
    dsimp only
    rw [reflaneEvent_serving serves]
    exact reflaneLoss_does b.val s.w there b.isLt
  · refine completes_actM rfl ?_
    dsimp only
    rw [reflaneEvent_serving serves]
    exact (reflaneRestored_refLanes b.val s.w).trans (if_neg (by simp [gone]))
  · exact completes_railed rfl on up vcoreTolerance_out
  · exact completes_railed rfl on up (vcoreTolerance_back quiet vgran)

/-! ### The power-fail warning, WAKE and ZEROISE -/

section
variable {m : Mode} {w : Wall}

theorem pfailEvent_accepts (on : m ≠ .off) (up : m ≠ .ember) (replayed : beforeReplay m w = false) : pfailEvent m w = pfailAccept w := by
  unfold pfailEvent
  rw [if_neg (by simp [on, up]), if_neg (by simp [replayed])]

theorem pfailAccept_bnd (h : w.bnd.pfail = false) : (pfailAccept w).bnd.pfail = true ∧ (pfailAccept w).bnd.queueShut = true ∧
    (pfailAccept w).bnd.avsOut = none := by
  rw [pfailAccept_eq w h, latch_bnd, latch_bnd, daybook_bnd, Wall.bump_bnd]
  exact ⟨rfl, rfl, rfl⟩

theorem pfailAccept_latches (h : w.bnd.pfail = false) :
    bit ((pfailAccept w).get (Reg.bhPending 16)) 0 = true ∧ bit ((pfailAccept w).get (Reg.bhPending 17)) 4 = true := by
  rw [pfailAccept_eq w h]
  constructor
  · rw [get_latch _ _ _ _ (by decide) (by decide) (by decide)]
    exact latch_pending _ _ _ (by decide) (by decide) (by decide)
  · exact latch_pending _ _ _ (by decide) (by decide) (by decide)

theorem pfailDrainEvent_inhibits (on : m ≠ .off) (up : m ≠ .ember) (low : w.bnd.pfail = true) (writes : w.bnd.inhibit = false) :
    (pfailDrainEvent m w).bnd.inhibit = true ∧ (pfailDrainEvent m w).bnd.pfail = true := by
  unfold pfailDrainEvent
  rw [if_neg (by simp [on, up])]
  by_cases run : clocksRun m w = true
  · unfold pfailDrained
    rw [if_pos run, if_pos (by simp [low, writes])]
    refine ⟨rfl, ?_⟩
    show (if commitRuns m w then drainQueue w else w).bnd.pfail = true
    split
    · exact ((drainQueue_keep w).bnd.pfail (by decide)).trans low
    · exact low
  · rw [if_neg run, if_pos low]
    exact ⟨rfl, low⟩

theorem pfailReopenEvent_bnd (on : m ≠ .off) (up : m ≠ .ember) (low : w.bnd.pfail = true) (high : w.bnd.pfailHigh = true)
    (vcore : w.bnd.vcoreIn = true) (vgran : w.bnd.vgranOk = true) :
    (pfailReopenEvent m w).bnd = { w.bnd with pfail := false, pfailHigh := false, inhibit := false, queueShut := false } := by
  unfold pfailReopenEvent
  rw [if_neg (by simp [on, up])]
  by_cases early : beforeReplay m w = true
  · rw [if_pos early, if_pos (by simp [low, high])]
    rfl
  · unfold pfailReopen
    rw [if_neg early, if_pos (by simp [low, high, vcore])]
    dsimp only
    rw [pfailGroup_bnd, if_pos (by exact vgran), pumpQueue_bnd]
    show { (pfailGroup _).bnd with inhibit := false, queueShut := false } = _
    rw [pfailGroup_bnd]
    rfl

theorem wakeAccept_awake (h : m ≠ .ember) : wakeAccept m w = w := if_neg h

theorem zeroiseAccept_ember (vemb : w.bnd.vembUp = true) : zeroiseAccept .ember w =
    (modBnd (fun b => { b with zeroLatch := true, wakeReq := true }) w).emit .wakeRequest := by
  unfold zeroiseAccept
  rw [if_neg (by simp [vemb])]
  rfl

theorem zeroiseAccept_service (serving : m = .service ∨ m = .doze) (vemb : w.bnd.vembUp = true) :
    zeroiseAccept m w = zeroiseStart (zeroiseEngines 1 (modBnd (fun b => { b with zeroLatch := true }) w)) := by
  unfold zeroiseAccept
  rw [if_neg (by rcases serving with rfl | rfl <;> simp [vemb])]
  rcases serving with rfl | rfl <;> rfl

theorem zeroiseStart_zeroLatch (x : Wall) : (zeroiseStart (zeroiseEngines 1 x)).bnd.zeroLatch = x.bnd.zeroLatch :=
  ((zeroiseStart_keep _).bnd.zeroLatch (by decide)).trans ((zeroiseEngines_keep ..).bnd.zeroLatch (by decide))

end

/-- Settles O4: the warning, its drain, its rise and its reopening in turn, then WAKE, and ZEROISE in EMBER and in service. -/
theorem powerFailAndWake : Obligations.PowerFailAndWake := by
  refine ⟨fun s on up replayed high => ?_, fun s on up low writes => ?_, fun s on up low vcore => ?_, fun s on up low high vcore vgran => ?_,
    fun s ember => ?_, fun s awake => ?_, fun s ember vemb => ?_, fun s serving vemb => ?_⟩
  · refine completes_actM rfl ?_
    dsimp only
    rw [pfailEvent_accepts on up replayed]
    obtain ⟨pfail, shut, avs⟩ := pfailAccept_bnd high
    exact ⟨pfail, shut, avs, pfailAccept_latches high⟩
  · exact completes_actM rfl (pfailDrainEvent_inhibits on up low writes)
  · refine completes_railed rfl on up ?_
    dsimp only
    unfold pfailRise
    rw [if_pos (by simp [low, vcore])]
    rfl
  · exact completes_actM rfl (pfailReopenEvent_bnd on up low high vcore vgran)
  · refine completes_actM rfl ?_
    dsimp only
    unfold wakeAccept
    rw [if_pos ember]
    exact ⟨rfl, rfl⟩
  · show actM wakeAccept s = .next s
    unfold actM
    rw [wakeAccept_awake awake]
  · refine completes_actM rfl ?_
    dsimp only
    rw [ember, zeroiseAccept_ember vemb]
    exact ⟨rfl, rfl⟩
  · refine completes_actM rfl ?_
    dsimp only
    rw [zeroiseAccept_service serving vemb, zeroiseStart_zeroLatch, zeroiseStart_sec]
    exact ⟨rfl, rfl, rfl, rfl, rfl⟩

end Sys2Proof.Machine
end

section
/-! The host's accesses (R49, R50, R52, R617, R628), GO of the mailbox (R88, R89), and the writes with a row of their own (R79, R80, R90). -/

open Sys2Proof

namespace Sys2Proof.Machine

/-! ### Target writes and read tags -/

section
variable {o size v tag : Nat} {m : Mode} {w : Wall}

theorem targetWrite_aligned (runs : clocksRun m w = true) (live : halted w = false) (ok : (size == 4 || size == 8) && o % size == 0) :
    targetWrite o size v m w = windowWrite o size v w := by
  unfold targetWrite answers
  rw [if_neg (by simp [runs]), if_neg (by simp [ok]), if_neg (by simp [live])]

/-- MBX_DATA_OFF and MBX_GEN take any word. -/
theorem windowWrite_mailbox (h : o = 0x100C ∨ o = 0x1018) : windowWrite o 4 v w = w.setWin o 0 (v % 2 ^ 32) := by
  obtain rfl | rfl := h <;> rfl

theorem win64_setWin64 : (w.setWin64 o v).win64 o = v % 2 ^ 64 := by
  unfold Wall.setWin64 Wall.win64
  rw [win32_set_ne _ (by omega), win32_set_eq, win32_set_eq]
  omega

theorem tagTimeout_quarantines {u : ReadUse} (h : tget w.bnd.tags tag = some (.out u)) :
    tget (tagTimeout tag w).bnd.tags tag = some .quarantined := by
  unfold tagTimeout
  rw [h]
  dsimp only
  cases u with
  | desc d i =>
    dsimp only
    rw [(descFail_keep ..).bnd.same (by decide)]
    exact tget_tput_same ..
  | data i =>
    dsimp only
    rw [(dataFail_keep ..).bnd.same (by decide)]
    exact tget_tput_same ..

theorem readCompletion_frees {u : ReadUse} (h : tget w.bnd.tags tag = some (.out u)) (idle : w.hst.rings = []) :
    readCompletion tag w = (dropTag tag w).set Reg.tagsOut (w.get Reg.tagsOut - 1) := by
  unfold readCompletion
  rw [h]
  exact pumpRings_nil idle

theorem readCompletion_late (h : tget w.bnd.tags tag = some .quarantined) : readCompletion tag w = w.bump Reg.lateCompletions 1 := by
  unfold readCompletion
  rw [h]

theorem quarantineEnd_frees (h : tget w.bnd.tags tag = some .quarantined) (idle : w.hst.rings = []) :
    quarantineEnd tag w = dropTag tag w := by
  unfold quarantineEnd
  rw [h]
  exact pumpRings_nil idle

end

/-- Settles O5: each access is one word of the window, one tag, or an error completion. -/
theorem hostAccesses : Obligations.HostAccesses := by
  refine ⟨fun o size s runs bad => ?_, fun b o s runs live undefined => ?_, fun o v s runs live word => ?_, fun v s runs live => ?_,
    fun tag u s runs live out idle => ?_, fun tag s runs live held => ?_, fun tag u s runs live out => ?_, fun tag s runs held idle => ?_⟩
  · refine completes_actM rfl ?_
    unfold accessError answers
    rw [if_pos (by simp [runs]; tauto)]
    rfl
  · refine completes_actM rfl ?_
    unfold unmapped
    rw [if_pos (by rw [windowOpen_of runs live, undefined]; rfl)]
    exact get_bump_same ..
  · refine completes_actM rfl ?_
    rw [targetWrite_aligned runs live (by obtain rfl | rfl := word <;> rfl), windowWrite_mailbox word]
    exact ⟨(win32_setWin_same ..).trans (Nat.mod_mod ..), fun p d other => win32_setWin_other _ _ _ _ _ _ other⟩
  · refine completes_actM rfl ?_
    rw [targetWrite_aligned runs live rfl]
    exact win64_setWin64
  · refine completes_actIf rfl (reeveOn_of runs live) ?_
    rw [readCompletion_frees out idle]
    exact ⟨tget_tdel_same .., get_set_same ..⟩
  · refine completes_actIf rfl (reeveOn_of runs live) ?_
    rw [readCompletion_late held]
    exact ⟨get_bump_same .., rfl⟩
  · exact completes_actIf rfl (reeveOn_of runs live) (tagTimeout_quarantines out)
  · refine completes_actIf rfl runs ?_
    rw [quarantineEnd_frees held idle]
    exact tget_tdel_same ..

/-! ### GO of the mailbox -/

section
variable {op n : Nat} {last : Bool} {o : LOp} {w : Wall}

/-- The wall once GO is taken: BUSY set, and its latch raised. -/
def goTaken (op : Nat) (last : Bool) (w : Wall) : Wall :=
  latch 16 48 (((w.setWin 0x1000 0 (op * 16 + b2n last * 256))).setWin 0x1010 0
    (bits ((w.setWin 0x1000 0 (op * 16 + b2n last * 256)).win32 0x1010 0) 31 16 * 2 ^ 16 + 1))

theorem goTaken_win32 {p d : Nat} (h : p ≠ 0x1000) (h' : p ≠ 0x1010) : (goTaken op last w).win32 p d = w.win32 p d := by
  unfold goTaken
  rw [win32_latch, win32_set_ne _ h', win32_set_ne _ h]

theorem goTaken_busy : bit ((goTaken op last w).win32 0x1010 0) 0 = true := by
  unfold goTaken
  rw [win32_latch, win32_set_eq]
  simp only [bit, Nat.testBit_zero, decide_eq_true_eq]
  omega

theorem goTaken_led : (goTaken op last w).led = w.led := by
  unfold goTaken
  rw [latch_led, Wall.setWin_led, Wall.setWin_led]

theorem goTaken_role : mbxRole (goTaken op last w) = mbxRole w := by
  have officer : Aside Reg.hostOfficerS := by decide
  unfold mbxRole Wall.flag goTaken
  rw [officer.latch (by decide), Wall.setWin_get, Wall.setWin_get]

theorem goTaken_data : mbxData (goTaken op last w) n = mbxData w n := by
  have same : mbxByte (goTaken op last w) = mbxByte w := funext fun i => by
    unfold mbxByte
    rw [goTaken_win32 (by omega) (by omega)]
  unfold mbxData
  rw [same]

/-- The request of the mailbox's registers. -/
def mbxReq (o : LOp) (w : Wall) : LReq :=
  { who := .mailbox, role := mbxRole w, index := w.win32 0x1004 0 % 2 ^ 16, sub := w.win32 0x1004 0 / 2 ^ 16 % 256, op := o }

theorem goTaken_req : mbxReq o (goTaken op last w) = mbxReq o w := by
  unfold mbxReq
  rw [goTaken_role, goTaken_win32 (by decide) (by decide)]

theorem arrive_queues {r : LReq} (queueOpen : w.led.closed = false) (room : w.led.queue.length < 16) :
    (arrive r w).led.queue = w.led.queue ++ [r] ∧ (arrive r w).win = w.win := by
  unfold arrive
  rw [if_neg (by simp [queueOpen]), if_neg (by omega), queueLevel_led, queueLevel_win]
  exact ⟨rfl, rfl⟩

/-- A request that GO makes of the registers, the queue open and not full. -/
theorem arrive_goTaken (queueOpen : w.led.closed = false) (room : w.led.queue.length < 16) :
    (arrive (mbxReq o (goTaken op last w)) (goTaken op last w)).led.queue = w.led.queue ++ [mbxReq o w] ∧
      bit ((arrive (mbxReq o (goTaken op last w)) (goTaken op last w)).win32 0x1010 0) 0 = true := by
  have same : (goTaken op last w).led = w.led := goTaken_led
  obtain ⟨queue, win⟩ := arrive_queues (r := mbxReq o (goTaken op last w)) (w := goTaken op last w)
    (by rw [same]; exact queueOpen) (by rw [same]; exact room)
  rw [queue, win_congr win, same, goTaken_req]
  exact ⟨rfl, goTaken_busy⟩

/-- The operation of GO's OP (R88). -/
def goOp (op : Nat) (last : Bool) (w : Wall) : Option LOp :=
  match op with
  | 1 => some .read
  | 2 => some (.write (mbxData w (w.win32 0x1008 0)))
  | 3 => some (.segRead (w.win32 0x100C 0) (w.win32 0x1018 0) (min (w.win32 0x1008 0) 2048))
  | 4 => some (.segWrite (w.win32 0x100C 0) (w.win32 0x1018 0) last (mbxData w (w.win32 0x1008 0)))
  | _ => none

theorem goTaken_op : goOp op last (goTaken op last w) = goOp op last w := by
  unfold goOp
  rw [goTaken_win32 (by decide) (by decide), goTaken_win32 (by decide) (by decide), goTaken_win32 (by decide) (by decide), goTaken_data]

theorem mbxGo_free (free : bit (w.win32 0x1010 0) 0 = false) (len : w.win32 0x1008 0 ≤ 2048) (known : goOp op last w = some o) :
    mbxGo op last w = arrive (mbxReq o (goTaken op last w)) (goTaken op last w) := by
  have taken : goOp op last (goTaken op last w) = some o := goTaken_op.trans known
  have short : ¬ 2048 < (goTaken op last w).win32 0x1008 0 := by rw [goTaken_win32 (by decide) (by decide)]; omega
  unfold mbxGo
  extract_lets go st busy a n off gen lop
  rw [if_neg (by rw [show st = w.win32 0x1010 0 from win32_set_ne _ (by decide), free]; decide)]
  rw [show lop = some o from taken]
  exact if_neg short

theorem mbxGo_queues (free : bit (w.win32 0x1010 0) 0 = false) (len : w.win32 0x1008 0 ≤ 2048) (queueOpen : w.led.closed = false)
    (room : w.led.queue.length < 16) (known : goOp op last w = some o) :
    (mbxGo op last w).led.queue = w.led.queue ++ [mbxReq o w] ∧ bit ((mbxGo op last w).win32 0x1010 0) 0 = true := by
  rw [mbxGo_free free len known]
  exact arrive_goTaken queueOpen room

theorem mbxGo_collides (busy : bit (w.win32 0x1010 0) 0 = true) :
    (mbxGo op last w).led = w.led ∧ bit ((mbxGo op last w).win32 0x1010 0) 3 = true := by
  unfold mbxGo
  extract_lets go st
  rw [if_pos (by rw [show st = w.win32 0x1010 0 from win32_set_ne _ (by decide), busy])]
  refine ⟨rfl, ?_⟩
  rw [win32_set_eq]
  exact bit_setBit_mod _ _ _ (by decide)

end

/-- Settles O9: GO while free makes the request of the registers and appends it; while BUSY it only sets COLLIDE. -/
theorem mailboxRequestsAreQueued : Obligations.MailboxRequestsAreQueued := by
  refine ⟨fun b s isOpen free len queueOpen room => ?_, fun b c s mem isOpen busy => ?_⟩
  · have short : min (s.w.win32 0x1008 0) 2048 = s.w.win32 0x1008 0 := Nat.min_eq_left len
    have queues {op last o} (known : goOp op last s.w = some o) := mbxGo_queues free len queueOpen room known
    exact ⟨completes_actIf rfl isOpen (queues rfl), completes_actIf rfl isOpen (queues rfl),
      completes_actIf rfl isOpen (queues (congrArg (fun n => some (LOp.segRead _ _ n)) short)), completes_actIf rfl isOpen (queues rfl)⟩
  · simp only [List.mem_cons, List.not_mem_nil, or_false] at mem
    obtain rfl | rfl | rfl | rfl := mem <;> exact completes_actIf rfl isOpen (mbxGo_collides busy)

/-! ### Writes with a row of their own -/

section
variable {id v : Nat} {o : Own} {c : Instr} {s : State}

theorem exec_ownCmd (h : ownCmd o = some c) : exec c s = actM (serveOwn o) s := by
  cases o <;> cases h <;> rfl

/-- The writes that answer later, or with a mode request, have no command in `ownCmd`. -/
theorem ownCmd_special (own : ownWrite id v = some o) (cmd : ownCmd o = some c) :
    id ∉ [0x101001, 0x101101, 0x101102, 0x100202, 0x120101] := by
  intro mem
  simp only [List.mem_cons, List.not_mem_nil, or_false] at mem
  unfold ownWrite at own
  obtain rfl | rfl | rfl | rfl | rfl := mem
  · cases own; cases cmd
  · cases own; cases cmd
  · cases own; cases cmd
  · rcases v with _ | _ | _ | _ | _ | v <;> cases own <;> cases cmd
  · cases own; cases cmd

theorem answered_queue {r : LReq} {row : ObjRow} {data : List Byte} {arg : Nat} {x : Wall} :
    (answered r row data arg x).led.queue = x.led.queue := (answered_keep ..).led.queue (by decide)

end

/-- Settles O11: the command of a row of its own serves the head, which `answered` describes. -/
theorem ownRowsAreServed : Obligations.OwnRowsAreServed := by
  intro o c r row u k v data x s cmd ready own takes
  refine ready.completes (exec_ownCmd cmd) own (ownCmd_special own cmd) takes ⟨rfl, ?_, answered_done r row data 0 x⟩
  rw [answered_queue, effect_queue takes, headTaken_led]

end Sys2Proof.Machine
end

section
/-! Bring-up of lane groups, the training channel, and Gossip's capability exchange (R167 to R174, R179 to R192). -/

open Sys2Proof

namespace Sys2Proof.Machine

/-! ### Bring-up -/

section
variable {g : Group} {l : Lane} {sp : SubPort} {w : Wall}

/-- Every lane of a group senses its partner (R168). -/
def sensed (g : Group) (w : Wall) : Wall := (groupLanes g w).foldl (fun w l => w.set (Reg.signalDetect l) 1) w

theorem sensed_get {o : Reg} (other : ∀ k, o.key ≠ (Reg.signalDetect k).key) : (sensed g w).get o = w.get o := by
  unfold sensed
  refine foldl_keeps (fun x : Wall => x.get o = w.get o) _ _ _ rfl fun x k same => ?_
  rw [get_set_other _ _ _ _ (other k), same]

theorem sensed_noGossip : noGossip g (sensed g w) = noGossip g w := by
  cases g with
  | alone l => rfl
  | sub sp =>
    show ((sensed (.sub sp) w).get (Reg.trainMode (sp.val / 8)) == 1) = (w.get (Reg.trainMode (sp.val / 8)) == 1)
    rw [sensed_get fun k => by simp only [Reg.trainMode, Reg.signalDetect]; omega]

theorem tryReady_groupSt (k : Nat) : groupSt g (tryReady g k w) = groupSt g w := groupSt_congr (tryReady_regs g k w) g

theorem detectDone_groupSt (detect : groupSt g w = 1) : groupSt g (detectDone g w) = if noGossip g w then 3 else 2 := by
  unfold detectDone
  rw [if_neg (by simp [detect])]
  cases g with
  | alone l =>
    show groupSt (.alone l) (tryReady (.alone l) l.val (setGroupSt (.alone l) 2 (sensed (.alone l) w))) = 2
    rw [tryReady_groupSt, setGroupSt_groupSt]
  | sub sp =>
    extract_lets x y
    dsimp only
    rw [show noGossip (.sub sp) x = noGossip (.sub sp) w from sensed_noGossip]
    by_cases gossip : noGossip (.sub sp) w = true
    · rw [if_pos gossip, if_pos gossip]
      exact setGroupSt_groupSt ..
    · rw [if_neg gossip, if_neg gossip]
      exact foldl_keeps (fun x : Wall => groupSt (.sub sp) x = 2) _ _ _ (setGroupSt_groupSt ..)
        fun x k same => (tryReady_groupSt k).trans same

/-- A timer of a training state fails its group, unless a lane alone is under retest. -/
theorem timer_fails {n : Nat} (free : ∀ l, g = .alone l → laneUseOf l.val w ≠ 2) (st : 1 ≤ groupSt g w ∧ groupSt g w ≤ 3) :
    groupSt g (fail g n w) = 7 ∨ groupSt g (fail g n w) = 8 :=
  fail_groupSt g n w free st.1 (by omega) fun _ _ => st.2

theorem detectTimeout_retest (held : laneUseOf l.val w = 2) (detect : laneSt l.val w = 1) (few : (w.lane l.val).retestFails < 2) :
    detectTimeout (.alone l) w =
      holdForRetest l.val ((w.lane l.val).retestFails + 1) (w.bump (Reg.trainFails l.val) 1) := by
  unfold detectTimeout fail
  dsimp only
  rw [if_pos (show groupSt (.alone l) w = 1 from detect), if_pos ⟨by omega, by omega⟩, if_pos held]
  exact if_neg (by show ¬ 3 ≤ (w.lane l.val).retestFails + 1; omega)

theorem backoffExpiry_sub (backoff : spGrpSt sp.val w = 7) :
    backoffExpiry (.sub sp) w = enterDetect sp.val (failsOf (.sub sp) w) w := if_pos backoff

theorem backoffExpiry_alone (backoff : laneSt l.val w = 7) : backoffExpiry (.alone l) w = detectAlone l.val w := if_pos backoff

theorem listeningBurst_out (listening : groupSt g w = 8) : listeningBurst g w = { w with out := (listeningBurst g w).out } := by
  unfold listeningBurst
  rw [if_pos listening]
  refine foldl_keeps (fun x : Wall => x = { w with out := x.out }) _ _ _ rfl fun x k same => ?_
  split
  · unfold Wall.emit
    rw [same]
  · exact same

theorem listeningBurst_alone (listening : laneSt l.val w = 8) : listeningBurst (.alone l) w =
    w.emit (.hello l (offered (.alone l) w) (laneRole l.val w) (w.lane l.val).seed) := by
  unfold listeningBurst
  rw [if_pos (show groupSt (.alone l) w = 8 from listening)]
  exact dif_pos l.isLt

theorem activeHold_does (active : spGrpSt sp.val w = 6 ∨ spGrpSt sp.val w = 9) :
    failsOf (.sub sp) (activeHold sp.val w) = 0 ∧ ((activeHold sp.val w).grp (.sub sp)).held10s = true := by
  unfold activeHold
  rw [if_pos active]
  refine ⟨(get_set_same w (Reg.bringupFails (sp.val / 8) (sp.val % 8)) 0).trans (Nat.zero_mod _), ?_⟩
  rw [setSpGrp_grp]

end

/-- Settles O13: a timer in force fails its group (`fail_groupSt`), and a back-off's end is `enterDetect` or `detectAlone`. -/
theorem bringupTimersAndFailures : Obligations.BringupTimersAndFailures := by
  refine ⟨fun g s on detect => ?_, fun g s on free detect => ?_, fun g s on free pam2 gossip => ?_, fun g s on free st => ?_,
    fun sp s on exch => ?_, fun l s on held detect few => ?_, fun sp s on backoff may => ?_, fun l s on backoff => ?_,
    fun g s on listening => ?_, fun sp s on active => ?_⟩
  · exact completes_actIf rfl on (detectDone_groupSt detect)
  · refine completes_actIf rfl on ?_
    unfold detectTimeout
    rw [if_pos detect]
    exact timer_fails free (by omega)
  · refine completes_actIf rfl on ?_
    unfold pam2Timeout
    rw [if_pos ⟨pam2, by simp [gossip]⟩]
    exact timer_fails free (by omega)
  · refine completes_actIf rfl on ?_
    unfold trainingTimeout
    rw [if_pos (by omega)]
    exact timer_fails free (by omega)
  · refine completes_actIf rfl on ?_
    unfold exchangeTimeout
    rw [if_pos exch]
    exact fail_groupSt _ _ _ (fun _ e => nomatch e) (by omega) (by omega) fun _ e => nomatch e
  · refine completes_actIf rfl on ?_
    rw [detectTimeout_retest held detect few]
    exact holdForRetest_does _ _ _ l.isLt
  · refine completes_actIf rfl on ?_
    rw [backoffExpiry_sub backoff]
    exact enterDetect_does _ _ _ sp.isLt may
  · refine completes_actIf rfl on ?_
    rw [backoffExpiry_alone backoff]
    exact detectAlone_st ..
  · refine completes_actIf rfl on ⟨?_, fun l e => ?_⟩
    · exact congrArg (fun x => { s with w := x }) (listeningBurst_out listening)
    · subst e
      rw [listeningBurst_alone listening]
      rfl
  · exact completes_actIf rfl on (activeHold_does active)

/-! ### The training channel -/

section
variable {l : Lane} {sp : SubPort} {w : Wall}

/-- A HELLO for the lane's own role, with a rate both offer and another SEED (R182). -/
theorem helloHeard_heard {rates role seed : Nat} (group : laneGroup l w = .sub sp) (inUse : laneUseOf l.val w = 0)
    (st : spGrpSt sp.val w = 1 ∨ spGrpSt sp.val w = 2) (gossip : noGossip (.sub sp) w = false) (own : role = laneRole l.val w)
    (rate : (commonRate (offered (.sub sp) w) (rates % 8)).isSome = true) (other : seed ≠ (w.lane l.val).seed) :
    helloHeard l rates role seed w = tryReady (.sub sp) l.val (w.setLane l.val { w.lane l.val with
      heard := true, peerHeard := (w.lane l.val).peerHeard || bit rates 3, peerRates := rates % 8, peerSeed := seed }) := by
  obtain ⟨c, common⟩ := Option.isSome_iff_exists.1 rate
  have away : (if role < 16 then joinRole l.val role seed w else none) = none := by
    rw [joinRole_busy _ _ _ _ (by omega)]
    exact ite_self _
  have may : ¬ ((groupSt (.sub sp) w ≠ 1 ∧ groupSt (.sub sp) w ≠ 2) ∨ noGossip (.sub sp) w = true) := by
    rintro (⟨not1, not2⟩ | silent)
    · exact st.elim not1 not2
    · exact Bool.false_ne_true (gossip.symm.trans silent)
  unfold helloHeard
  rw [away]
  dsimp only
  rw [group]
  dsimp only
  rw [if_neg may, if_neg (by simp [own]), if_neg other,
    show commonRate (offered (.sub sp) (w.setLane l.val _)) (rates % 8) = some c from common]

theorem readyEnd_lane (st : laneSt l.val w = 2) (sent : (w.lane l.val).readySent = true) : ((readyEnd l w).lane l.val).txPam4 = true := by
  unfold readyEnd
  dsimp only
  rw [if_pos ⟨st, sent⟩]
  split
  · obtain ⟨b, same⟩ := setGroupSt_lane (laneGroup l w) 3 (w.modLane l.val fun r => { r with txPam4 := true }) l.val
    rw [same, modLane_lane]
  · rw [modLane_lane]

theorem rxReadySet_lane {coarse fine : List Nat} (st : laneSt l.val w = 3) (rx : (w.lane l.val).rxPam4 = true) :
    ((rxReadySet l coarse fine w).lane l.val).rxReady = true := by
  unfold rxReadySet
  extract_lets g x y
  have ready : (y.lane l.val).rxReady = true := by
    show ((x.modLane l.val _).lane l.val).rxReady = true
    rw [modLane_lane]
  rw [if_pos ⟨st, .inl rx⟩]
  split
  · obtain ⟨b, same⟩ := setGroupSt_lane g 4 y l.val
    rw [same]
    exact ready
  · exact ready

theorem aloneTrained_trained : ((aloneTrained l.val w).lane l.val).trained.isSome = true := by
  unfold aloneTrained
  extract_lets rate x
  have trained : (x.lane l.val).trained = some rate := by
    show ((w.modLane l.val _).lane l.val).trained = _
    rw [modLane_lane]
  split
  · rw [trained]; rfl
  · rw [setLaneSt_lane, dif_pos l.isLt]
    exact congrArg Option.isSome trained

theorem aloneTrained_spare (fresh : laneUseOf l.val w ≠ 2) : laneSt l.val (aloneTrained l.val w) = 10 := by
  unfold aloneTrained
  extract_lets rate x
  rw [if_neg (show ¬ laneUseOf l.val x = 2 from fresh)]
  exact setLaneSt_st _ _ _ (laneBrick l)

theorem trainingEnd_alone {m : Lane} (st : laneSt l.val w = 3) (ready : (w.lane l.val).rxReady = true) (peer : 3 ≤ (w.lane l.val).peerRxReady)
    (group : laneGroup l w = .alone m) : trainingEnd l w = aloneTrained l.val w := by
  unfold trainingEnd
  dsimp only
  rw [if_pos ⟨st, ready, peer⟩, group]

theorem trainingEnd_sub (st : laneSt l.val w = 3) (ready : (w.lane l.val).rxReady = true) (peer : 3 ≤ (w.lane l.val).peerRxReady)
    (group : laneGroup l w = .sub sp) : ((trainingEnd l w).lane l.val).txData = true := by
  unfold trainingEnd
  dsimp only
  rw [if_pos ⟨st, ready, peer⟩, group]
  dsimp only
  split
  · obtain ⟨b, same⟩ := setGroupSt_lane (.sub sp) 4 (w.modLane l.val fun r => { r with txData := true }) l.val
    rw [same, modLane_lane]
  · rw [modLane_lane]

theorem blockLock_sub (locked : spGrpSt sp.val w = 4) :
    spGrpSt sp.val (blockLock (.sub sp) w) = if noGossip (.sub sp) w then 6 else 5 := by
  unfold blockLock
  dsimp only
  rw [if_neg (by simp [locked])]
  by_cases gossip : noGossip (.sub sp) w = true
  · rw [if_pos gossip, if_pos gossip]
    exact (enterActive_get sp.val 0 w sp.isLt).1
  · rw [if_neg gossip, if_neg gossip]
    have exch : spGrpSt sp.val (setGroupSt (.sub sp) 5 w) = 5 := setGroupSt_groupSt (.sub sp) 5 w
    split
    · exact (groupSt_congr (sendGroup_regs ..) (.sub sp)).trans exch
    · exact exch

end

/-- Settles O14: each message's effect on the lane's record, which the later move of its group keeps but for `lockedOnce`. -/
theorem trainingMessages : Obligations.TrainingMessages := by
  refine ⟨fun l msg s on st => ?_, fun l msg s on st known => ?_, fun l rates role seed sp s on group inUse st gossip own rate other => ?_,
    fun l s on st => ?_, fun l s on st sent => ?_, fun l coarse fine s on st rx => ?_, fun l s on st ready peer => ?_, fun sp s on locked => ?_⟩
  · refine completes_actIf rfl on ?_
    rw [trainingFrame_eq l false msg s.w st]
    exact ⟨get_bump_same .., congrArg LaneRt.goodRun (tgetD_tput_same ..), congrArg LaneRt.sameMsgs (tgetD_tput_same ..)⟩
  · refine completes_actIf rfl on ?_
    have kind : ((msg.headD 0).toNat == 1 || (msg.headD 0).toNat == 2) = true := by simpa using known
    rw [trainingFrame_eq l true msg s.w st, kind]
    exact ⟨rfl, congrArg LaneRt.goodRun (tgetD_tput_same ..)⟩
  · refine completes_actIf rfl on ?_
    rw [helloHeard_heard group inUse st gossip own rate other]
    obtain ⟨b, same⟩ := tryReady_lane (.sub sp) l.val (s.w.setLane l.val { s.w.lane l.val with
      heard := true, peerHeard := (s.w.lane l.val).peerHeard || bit rates 3, peerRates := rates % 8, peerSeed := seed }) l.val
    rw [same]
    exact ⟨congrArg LaneRt.heard (tgetD_tput_same ..), congrArg LaneRt.peerSeed (tgetD_tput_same ..)⟩
  · refine completes_actIf rfl on ?_
    unfold readyHeard
    rw [if_pos ⟨st, rfl⟩]
    exact ⟨congrArg LaneRt.rxPam4 (modLane_lane ..), rfl⟩
  · exact completes_actIf rfl on (readyEnd_lane st sent)
  · exact completes_actIf rfl on (rxReadySet_lane st rx)
  · refine completes_actIf rfl on ?_
    cases group : laneGroup l s.w with
    | sub sp => exact trainingEnd_sub st ready peer group
    | alone m =>
      rw [trainingEnd_alone st ready peer group]
      exact ⟨aloneTrained_trained, aloneTrained_spare⟩
  · exact completes_actIf rfl on (blockLock_sub locked)

end Sys2Proof.Machine
end

section
/-! Gossip's capability words (R184 to R192), and the loss of lock, of signal and of a lane in service (R165, R170, R193, R227 to R230). -/

open Sys2Proof

namespace Sys2Proof.Machine

/-! ### Capability words -/

section
variable {l : Lane} {sp : SubPort} {exch payload c : Nat} {w : Wall}

theorem statusHeard_counts (st : laneSt l.val w = 3) (pam4 : bit payload 2 = true) : statusHeard l exch payload w =
    w.modLane l.val fun r => { r with peerRxReady := if bit payload 0 then r.peerRxReady + 1 else 0 } := if_pos ⟨st, pam4⟩

theorem statusHeard_ends (st : laneSt l.val w ≠ 3) (group : laneGroup l w = .sub sp) (exchanging : spGrpSt sp.val w = 5)
    (ends : bit payload 1 = true) (leader : (w.grp (.sub sp)).leader = true) (same : (w.grp (.sub sp)).exch = exch)
    (set : (w.grp (.sub sp)).accepted = some c) : statusHeard l exch payload w = enterActive sp.val (c + exch * 256) w := by
  have accepted : (spGrp sp.val w).accepted = some c := set
  unfold statusHeard
  dsimp only
  rw [if_neg (fun h => st h.1), group]
  dsimp only
  rw [if_pos ⟨exchanging, ends, leader, same⟩, accepted]

theorem onLaneSp_sub {f : Nat → Wall → Wall} (serves : spOfLane l.val w = some sp.val) : onLaneSp l f w = f sp.val w := by
  unfold onLaneSp
  rw [serves]

theorem offerHeard_answers (exchanging : spGrpSt sp.val w = 5) (follower : (w.grp (.sub sp)).leader = false)
    (fresh : (w.grp (.sub sp)).accepted = none) : offerHeard sp.val exch payload w =
    sendGroup sp.val 2 exch (capSet payload (ownCaps sp.val w)) (setSpGrp sp.val { w.grp (.sub sp) with
      exch := exch, accepted := some (capSet payload (ownCaps sp.val w)) } w) := by
  unfold offerHeard
  rw [spGrp_eq]
  dsimp only
  rw [if_neg (by simp [follower]), if_pos ⟨exchanging, by rw [fresh]; rfl⟩]

theorem acceptHeard_confirms (exchanging : spGrpSt sp.val w = 5) (leader : (w.grp (.sub sp)).leader = true)
    (same : (w.grp (.sub sp)).exch = exch) (fresh : (w.grp (.sub sp)).accepted = none) : acceptHeard sp.val exch payload w =
    sendGroup sp.val 3 exch (payload % 256) (setSpGrp sp.val { w.grp (.sub sp) with accepted := some (payload % 256) } w) := by
  unfold acceptHeard
  rw [spGrp_eq]
  exact if_pos ⟨leader, exchanging, same, by rw [fresh]; rfl⟩

theorem confirmHeard_active (exchanging : spGrpSt sp.val w = 5) (follower : (w.grp (.sub sp)).leader = false)
    (same : (w.grp (.sub sp)).exch = exch) (set : (w.grp (.sub sp)).accepted = some c) : confirmHeard sp.val exch w =
    sendGroup sp.val 0 exch 2 (enterActive sp.val (c + exch * 256) w) := by
  unfold confirmHeard
  rw [spGrp_eq]
  dsimp only
  rw [if_neg (by simp [follower, same]), set]
  exact if_pos exchanging

theorem brickOfLane_lt (l : Lane) : brickOfLane l.val < 16 := by have := l.isLt; unfold brickOfLane; omega

theorem gossipBad_does : (gossipBad l w).get (Reg.gossipBad l.val) = (w.get (Reg.gossipBad l.val) + 1) % 2 ^ 32 ∧
    (gossipBad l w).lan = w.lan := by
  have aside : Aside (Reg.gossipBad l.val) := by simp only [Aside, Reg.gossipBad]; omega
  unfold gossipBad
  rw [aside.pcCount (brickOfLane_lt l), (pcCount_keep ..).lan.same (by decide)]
  exact ⟨get_bump_same .., rfl⟩

end

/-- Settles O15: each word's effect on the group's record, and the group's entry into ACTIVE. -/
theorem gossipCapabilityWords : Obligations.GossipCapabilityWords := by
  refine ⟨fun l exch payload s on st pam4 => ?_, fun l exch payload c sp s on st group exchanging ends leader same set => ?_,
    fun l exch payload sp s on serves exchanging follower fresh => ?_, fun l exch payload sp s on serves exchanging leader same fresh => ?_,
    fun l exch payload c sp s on serves exchanging follower same set => ?_, fun l s on => ?_⟩
  · refine completes_actIf rfl on ?_
    rw [statusHeard_counts st pam4, modLane_lane]
  · refine completes_actIf rfl on ?_
    rw [statusHeard_ends st group exchanging ends leader same set]
    exact enterActive_get _ _ _ sp.isLt
  · refine completes_actIf rfl on ?_
    rw [onLaneSp_sub serves, offerHeard_answers exchanging follower fresh, grp_congr (congrArg LaneSt.groups (sendGroup_lan ..)),
      setSpGrp_grp, sendGroup_regs]
    exact ⟨rfl, rfl, rfl⟩
  · refine completes_actIf rfl on ?_
    rw [onLaneSp_sub serves, acceptHeard_confirms exchanging leader same fresh, grp_congr (congrArg LaneSt.groups (sendGroup_lan ..)),
      setSpGrp_grp, sendGroup_regs]
    exact ⟨rfl, rfl⟩
  · refine completes_actIf rfl on ?_
    rw [onLaneSp_sub serves, confirmHeard_active exchanging follower same set]
    have sent := sendGroup_regs sp.val 0 exch 2 (enterActive sp.val (c + exch * 256) s.w)
    unfold spGrpSt spSt
    rw [get_congr sent, get_congr sent, get_congr sent]
    exact enterActive_get _ _ _ sp.isLt
  · exact completes_actIf rfl on gossipBad_does

/-! ### Losses and faults of a lane -/

section
variable {l : Lane} {sp : SubPort} {w : Wall}

theorem cdrLock_does : (cdrLock l w).get (Reg.cdrLocked l.val) = 1 ∧ ((cdrLock l w).lane l.val).lockedOnce = true :=
  ⟨get_setB_same w (Reg.cdrLocked l.val) true, congrArg LaneRt.lockedOnce (modLane_lane ..)⟩

theorem eyeSuspend_get {o : Reg} (h : o.key ≠ (Reg.eyeState l.val).key) : (eyeSuspend l.val w).get o = w.get o := by
  unfold eyeSuspend
  split
  · exact get_set_other _ _ _ _ h
  · rfl

/-- The wall with a loss of lock counted. -/
def lockLost (l : Lane) (w : Wall) : Wall := (w.bump (Reg.lockLosses l.val) 1).setB (Reg.cdrLocked l.val) false

theorem lockLost_get {o : Reg} (h1 : o.key ≠ (Reg.cdrLocked l.val).key) (h2 : o.key ≠ (Reg.lockLosses l.val).key) :
    (lockLost l w).get o = w.get o := by
  unfold lockLost
  rw [get_setB_other _ _ _ _ h1, get_bump_other _ _ _ _ h2]

theorem lockLost_does : (lockLost l w).get (Reg.cdrLocked l.val) = 0 ∧
    (lockLost l w).get (Reg.lockLosses l.val) = (w.get (Reg.lockLosses l.val) + 1) % 2 ^ 32 := by
  unfold lockLost
  refine ⟨(get_setB_same ..).trans (Nat.zero_mod _), ?_⟩
  rw [get_setB_other _ _ _ _ (by simp only [Reg.lockLosses, Reg.cdrLocked]; omega)]
  exact get_bump_same ..

theorem lockLost_use : laneUseOf l.val (lockLost l w) = laneUseOf l.val w :=
  lockLost_get (by simp only [Reg.laneUse, Reg.cdrLocked]; omega) (by simp only [Reg.laneUse, Reg.lockLosses]; omega)

theorem lockLost_st : laneSt l.val (lockLost l w) = laneSt l.val w :=
  lockLost_get (by simp only [Reg.laneState, Reg.cdrLocked]; omega) (by simp only [Reg.laneState, Reg.lockLosses]; omega)

theorem spOfLane_unused {k : Nat} (h : laneUseOf k w ≠ 0) : spOfLane k w = none := if_neg fun c => h c.1

theorem laneGroup_unused (h : laneUseOf l.val w ≠ 0) : laneGroup l w = .alone l := by
  unfold laneGroup
  rw [spOfLane_unused h]

/-- A lane under test loses nothing but its lock: it has no role, and its group is not training. -/
theorem cdrLockLoss_test (locked : w.get (Reg.cdrLocked l.val) ≠ 0) (st : laneSt l.val w = 13) (use : laneUseOf l.val w = 4) :
    cdrLockLoss l false w = eyeSuspend l.val (lockLost l w) := by
  have flag : w.flag (Reg.cdrLocked l.val) = true := by unfold Wall.flag; simp [locked]
  have use' : laneUseOf l.val (eyeSuspend l.val (lockLost l w)) = 4 :=
    ((eyeSuspend_get (by simp only [Reg.laneUse, Reg.eyeState]; omega)).trans lockLost_use).trans use
  have st' : laneSt l.val (eyeSuspend l.val (lockLost l w)) = 13 :=
    ((eyeSuspend_get (by simp only [Reg.laneState, Reg.eyeState]; omega)).trans lockLost_st).trans st
  have idle : training (.alone l) (eyeSuspend l.val (lockLost l w)) = false := by
    unfold training
    rw [show groupSt (.alone l) (eyeSuspend l.val (lockLost l w)) = 13 from st']
    rfl
  have kept : lostLane l (eyeSuspend l.val (lockLost l w)) = eyeSuspend l.val (lockLost l w) := if_neg (by omega)
  unfold cdrLockLoss
  dsimp only
  rw [if_neg (by simp [flag]), ← lockLost, spOfLane_unused (by rw [lockLost_use]; omega)]
  dsimp only
  rw [laneGroup_unused (by omega), idle]
  exact kept

theorem signalLoss_training (tr : training (laneGroup l w) w = true)
    (alone : ∀ m, laneGroup l w = .alone m → laneUseOf m.val w ≠ 2 ∧ laneSt m.val w ≤ 3) :
    groupSt (laneGroup l w) (signalLoss l w) = 7 ∨ groupSt (laneGroup l w) (signalLoss l w) = 8 := by
  have other {o : Reg} (h : o.key ≠ (Reg.signalDetect l.val).key) : (w.setB (Reg.signalDetect l.val) false).get o = w.get o :=
    get_setB_other _ _ _ _ h
  have role : spOfLane l.val (w.setB (Reg.signalDetect l.val) false) = spOfLane l.val w :=
    spOfLane_congr' (other (by simp only [Reg.laneUse, Reg.signalDetect]; omega)) (other (by simp only [Reg.serves, Reg.signalDetect]; omega))
      fun sp => other (by simp only [Reg.widthInUse, Reg.signalDetect]; omega)
  have same : groupSt (laneGroup l w) (w.setB (Reg.signalDetect l.val) false) = groupSt (laneGroup l w) w := by
    cases laneGroup l w with
    | sub sp => exact other (by have := sp.isLt; simp only [Reg.bringupState, Reg.signalDetect]; omega)
    | alone m => exact other (by simp only [Reg.laneState, Reg.signalDetect]; omega)
  unfold signalLoss
  dsimp only
  rw [laneGroup_congr l role, training_congr same, if_pos tr]
  exact training_group tr alone (fun o _ h _ _ _ _ => other h) 5

/-- A fault pulses source 0 of its brick first; that leaves what a repointing reads. -/
theorem pulse_aside {o : Reg} (A : Aside o) : (pulse (brickOfLane l.val) 0 w).get o = w.get o := A.pulse (laneBrick l)

theorem faultRole_starts {k x : Nat} (cap : capOf sp.val 0 w = true) (gossip : w.get (Reg.trainMode (k / 16)) ≠ 1)
    (free : (freeList (k / 16) (groupRate sp.val w) w).head? = some x) : faultRole k sp.val w = startExch k x true false false w := by
  unfold faultRole
  dsimp only
  rw [if_neg (by simp [cap, gossip])]
  cases list : freeList (k / 16) (groupRate sp.val w) w with
  | nil => rw [list] at free; cases free
  | cons y rest => rw [list] at free; cases free; rfl

theorem faultRole_down {k : Nat} (cap : capOf sp.val 0 w = false) : faultRole k sp.val w = downRetrain sp.val 4 w := if_pos (by simp [cap])

theorem capOf_congr {x : Wall} (same : ∀ o, Aside o → x.get o = w.get o) (i : Nat) : capOf sp.val i x = capOf sp.val i w := by
  unfold capOf
  rw [same _ (by have := sp.isLt; simp only [Aside, Reg.agreedCaps]; omega)]

end

/-- Settles O16: what the loss itself leaves, then `fail` of a training group, or `laneFault` of a lane in service. -/
theorem laneLossesAndFaults : Obligations.LaneLossesAndFaults := by
  refine ⟨fun l s on => completes_actIf rfl on cdrLock_does, fun l s on locked st use => ?_, fun l slip s on locked tr once alone => ?_,
    fun l s on tr alone => completes_actIf rfl on (signalLoss_training tr alone),
    fun l sp e s on st serves active spare found planned old => ?_,
    fun l sp x s on st serves active spare found cap gossip role free => ?_, fun l sp s on st serves active spare found cap => ?_⟩
  · refine completes_actIf rfl on ?_
    rw [cdrLockLoss_test locked st use, eyeSuspend_get (by simp only [Reg.cdrLocked, Reg.eyeState]; omega),
      eyeSuspend_get (by simp only [Reg.lockLosses, Reg.eyeState]; omega)]
    exact lockLost_does
  · exact completes_actIf rfl on (cdrLockLoss_young locked tr once alone)
  · refine completes_actIf rfl on ?_
    rw [show gossipLoss l s.w = laneFault l s.w from if_pos st, laneFault_eq l sp s.w spare serves active, found]
    dsimp only
    rw [if_neg (by simp [planned, old])]
    unfold when
    split
    · rw [sendExch_lan]
      exact putExch_tget ..
    · exact putExch_tget ..
  all_goals
    refine completes_actIf rfl on ?_
    rw [show gossipLoss l s.w = laneFault l s.w from if_pos st, laneFault_eq l sp s.w spare serves active, found]
    dsimp only
    have aside : ∀ o, Aside o → (pulse (brickOfLane l.val) 0 s.w).get o = s.w.get o := fun o A => pulse_aside A
    have lan : (pulse (brickOfLane l.val) 0 s.w).lan = s.w.lan := pulse_lan ..
    have rate : groupRate sp.val (pulse (brickOfLane l.val) 0 s.w) = groupRate sp.val s.w := congrArg GroupRt.rate (grp_congr (congrArg LaneSt.groups lan) (.sub sp))
  · rw [faultRole_starts (x := x) ((capOf_congr aside 0).trans cap)
      (by rw [aside _ (by simp only [Aside, Reg.trainMode]; omega)]; exact gossip) (by rw [rate, freeList_congr aside lan]; exact free)]
    obtain ⟨e, has, spareEq, oldEq, un, init⟩ := startExch_does (s.w.get (Reg.serves l.val)) x sp.val true false false _
      ((spOfRole_congr aside _ _).trans (spOfLane_role serves))
    refine ⟨e, has, spareEq, oldEq.trans ?_, un, init⟩
    unfold laneOf
    rw [aside _ (by simp only [Aside, Reg.roleLane]; omega)]
  · rw [faultRole_down ((capOf_congr aside 0).trans cap)]
    intro young
    refine downRetrain_young sp 4 _ ?_
    rw [← young]
    exact congrArg GroupRt.held10s (grp_congr (congrArg LaneSt.groups lan) (.sub sp))

end Sys2Proof.Machine
end

section
/-! Repointing exchanges: their words and their local events (R217 to R228, R232, R236, R239). -/

open Sys2Proof

namespace Sys2Proof.Machine

/-! ### Words of an exchange -/

section
variable {l : Lane} {sp k exch payload reason x : Nat} {e : Exch} {w : Wall}

theorem spareHeard_records (use : laneUseOf l.val w = 1) (st : laneSt l.val w = 10) (seen : (w.lane l.val).freeSeen = true ∨ bit payload 7 = false) :
    spareHeard l payload w = w.modLane l.val fun r => { r with freeSeen := bit payload 7, pair := some (payload % 128) } := by
  have still : (!(w.lane l.val).freeSeen && bit payload 7) = false := by obtain h | h := seen <;> simp [h]
  unfold spareHeard
  dsimp only
  rw [if_pos ⟨use, st⟩, still, when_false]

theorem acceptPrepare_does {mine theirs : Nat} {un sv rt : Bool} (brick : brickOfLane mine ≤ 17) :
    laneUseOf mine (acceptPrepare k exch mine theirs un sv rt w) = 0 ∧
    (acceptPrepare k exch mine theirs un sv rt w).get (Reg.serves mine) = k % 2 ^ 16 ∧
    ∃ e, tget (acceptPrepare k exch mine theirs un sv rt w).lan.exchs k = some e ∧ e.initiator = false ∧ e.exch = exch ∧ e.spare = mine ∧
      e.peerSpare = theirs ∧ e.bridged = true ∧ e.unplanned = un ∧ e.survey = sv ∧ e.retire = rt := by
  obtain ⟨use, serves⟩ := bridge_does k mine w brick
  unfold acceptPrepare laneUseOf
  dsimp only
  rw [sendExch_lan, get_congr (sendExch_regs ..), get_congr (sendExch_regs ..)]
  exact ⟨use, serves, _, putExch_tget .., rfl, rfl, rfl, rfl, rfl, rfl, rfl, rfl⟩

/-- The partner names a lane of this sub-port's brick by seven bits. -/
theorem named_brick (sp : SubPort) (n : Nat) : brickOfLane (brickOfSp sp.val * 68 + bits n 17 11) ≤ 17 := by
  have := sp.isLt
  have seven : bits n 17 11 < 2 ^ 7 := Nat.mod_lt _ (by decide)
  unfold brickOfLane brickOfSp
  omega

theorem refuse_lan : (refuse sp exch k reason w).lan = w.lan := sendGroup_lan ..

theorem refuse_regs : (refuse sp exch k reason w).regs = w.regs := sendGroup_regs ..

theorem rollHeard_records {codeword : Nat} (key : wordKey l (payload % 16) w = some (sp, k)) (has : tget w.lan.exchs k = some e) (same : e.exch = exch)
    (waiting : e.taken = false) : rollHeard l exch payload codeword w =
    putExch k { e with rollCopies := (l.val, codeword) :: e.rollCopies.filter fun c => c.1 != l.val } w := by
  unfold rollHeard
  rw [key]
  dsimp only
  rw [has]
  exact if_pos ⟨same, by simp [waiting]⟩

theorem rolledHeard_eq (key : wordKey l (payload % 16) w = some (sp, k)) (has : tget w.lan.exchs k = some e) (same : e.exch = exch) :
    rolledHeard l exch payload w = completeExch k (putExch k { e with peerRolled := true } w) := by
  unfold rolledHeard
  rw [key]
  dsimp only
  rw [has]
  exact if_pos same

theorem refuseHeard_abandons (key : wordKey l (payload % 16) w = some (sp, k)) (has : tget w.lan.exchs k = some e) (same : e.exch = exch)
    (planned : e.unplanned = false) (plain : e.survey = false) : refuseHeard l exch payload w = abandon k (bits payload 7 4) w := by
  unfold refuseHeard
  rw [key]
  dsimp only
  rw [has]
  dsimp only
  rw [if_neg (by simp [same]), if_neg (by simp [planned])]
  split
  · exact if_neg (by simp [plain])
  · rfl

theorem abandon_counts (has : tget w.lan.exchs k = some e) (notYet : e.bridged = false) :
    (abandon k reason w).get (Reg.abandonedCount (brickOfPort (k / 16))) = (w.get (Reg.abandonedCount (brickOfPort (k / 16))) + 1) % 2 ^ 32 := by
  have aside : Aside (Reg.abandonedCount (brickOfPort (k / 16))) := by simp only [Aside, Reg.abandonedCount]; omega
  unfold abandon
  rw [has]
  dsimp only
  rw [notYet, when_false, aside.raise, get_bump_same]
  rfl

/-- The survey that a SURVEY word of lane `l` is about. -/
def surveyNamed (l : Lane) (payload : Nat) (w : Wall) : Option (Nat × SurveyRt) :=
  w.lan.surveys.find? fun e => brickOfLane e.1 == brickOfLane l.val && (e.1 == l.val || (match e.2.role with
    | some k => k % 16 == payload % 16 && (spOfLane l.val w).map (· / 8) == some (k / 16)
    | none => false))

theorem surveyHeard_named {v : SurveyRt} (named : surveyNamed l payload w = some (x, v)) : surveyHeard l payload w =
    if bits payload 5 4 = 1 then
      putSurvey x { v with peerV := bits payload 13 6, peerH := bits payload 19 14, peerErr := bits payload 27 20 } w
    else if bits payload 5 4 = 2 then (if v.own then w else delSurvey x w) else w := by
  show (match surveyNamed l payload w with | none => w | some (x, v) => _) = _
  rw [named]
  dsimp only
  split <;> simp_all

theorem retireHeard_paired (paired : ((brickLanes (brickOfLane l.val)).find? fun y =>
    (w.lane y).pair == some (bits payload 10 4) && laneUseOf y w == 1) = some x) : retireHeard l payload w = retire x 4 w := by
  unfold retireHeard
  dsimp only
  rw [paired]

end

/-- Settles O17: each word names an exchange by `wordKey`, a survey or a pool lane, and writes that record. -/
theorem exchangeWords : Obligations.ExchangeWords := by
  refine ⟨fun l payload s on use st seen => ?_, fun l exch payload k sp s on key active fresh spare ok => ?_,
    fun l exch payload k reason sp s on key active fresh spare no => ?_, fun l exch payload k sp e s on key has same => ?_,
    fun l exch payload codeword k sp e s on key has same waiting => ?_, fun l exch payload k sp e s on key has same => ⟨fun waiting => ?_, ?_⟩,
    fun l exch payload k sp e s on key has same planned plain => ?_, fun l exch payload x v s on named => ⟨fun phase => ?_, fun phase other => ?_⟩,
    fun l payload x s on paired => ?_⟩
  · exact completes_actIf rfl on (spareHeard_records use st seen)
  · refine completes_actIf rfl on ?_
    rw [prepareHeard_eq l exch payload k sp.val s.w key active fresh spare, ok]
    exact acceptPrepare_does (named_brick sp payload)
  · refine completes_actIf rfl on ?_
    rw [prepareHeard_eq l exch payload k sp.val s.w key active fresh spare, no]
    exact ⟨refuse_lan, refuse_regs⟩
  · exact completes_actIf rfl on (exchReady_does l exch payload sp k e s.w key has same)
  · refine completes_actIf rfl on ?_
    rw [rollHeard_records key has same waiting]
    exact ⟨putExch_tget .., rfl⟩
  · refine completes_actIf rfl on ?_
    rw [rolledHeard_eq key has same, completeExch_waits k { e with peerRolled := true } _ (putExch_tget ..) (.inl waiting)]
    exact ⟨putExch_tget .., rfl⟩
  · intro taken plain noSurvey spare role
    refine completes_actIf rfl on ?_
    rw [rolledHeard_eq key has same]
    exact completeExch_done k { e with peerRolled := true } _ (putExch_tget ..) taken rfl plain noSurvey spare role
  · refine completes_actIf rfl on ?_
    rw [refuseHeard_abandons key has same planned plain]
    exact ⟨abandon_gone .., abandon_counts has⟩
  · refine completes_actIf rfl on ?_
    rw [surveyHeard_named named, if_pos phase]
    exact ⟨tget_tput_same .., rfl⟩
  · refine completes_actIf rfl on ?_
    rw [surveyHeard_named named, if_neg (by omega), if_pos phase, if_neg (by simp [other])]
    exact ⟨tget_tdel_same .., rfl⟩
  · refine completes_actIf rfl on ?_
    have inBrick := brickLanes_lt (brickOfLane_lt l) (find?_mem paired)
    rw [retireHeard_paired paired]
    exact retire_does x 4 s.w inBrick

/-! ### Local events of an exchange -/

section
variable {p role ns : Nat} {shift : Int} {e : Exch} {w : Wall}

theorem bridgeDone_does (has : tget w.lan.exchs (p * 16 + role) = some e) (bridged : e.bridged = true) (planned : e.unplanned = false)
    (first : e.selfBridged = false) (good : e.oldFaulty = false) :
    tget (bridgeDone p role w).lan.exchs (p * 16 + role) = some { e with selfBridged := true } ∧ (bridgeDone p role w).regs = w.regs := by
  unfold bridgeDone
  dsimp only
  rw [has]
  dsimp only
  rw [if_pos (by simp [bridged, planned, first, good]), sendExch_lan, sendExch_regs]
  exact ⟨putExch_tget .., rfl⟩

theorem rollCodeword_takes (has : tget w.lan.exchs (p * 16 + role) = some e) (planned : e.unplanned = false) (waiting : e.taken = false)
    (held : rollHeld e.rollCopies = true) : rollCodeword p role shift w = takeRole (p * 16 + role) e shift w := by
  unfold rollCodeword
  dsimp only
  rw [has]
  exact if_pos (by simp [planned, waiting, held])

theorem rollTimeout_repeats (has : tget w.lan.exchs (p * 16 + role) = some e) (sent : e.rollSent = true) (waiting : e.peerRolled = false)
    (more : e.tries < 8) : tget (rollTimeout p role w).lan.exchs (p * 16 + role) = some { e with tries := e.tries + 1 } ∧
    (rollTimeout p role w).regs = w.regs := by
  unfold rollTimeout
  dsimp only
  rw [has]
  dsimp only
  rw [if_neg (by simp [sent, waiting]), if_pos more, sendExch_lan, sendExch_regs]
  exact ⟨putExch_tget .., rfl⟩

theorem rollTimeout_abandons (has : tget w.lan.exchs (p * 16 + role) = some e) (sent : e.rollSent = true) (waiting : e.peerRolled = false)
    (spent : 8 ≤ e.tries) : tget (rollTimeout p role w).lan.exchs (p * 16 + role) = none := by
  unfold rollTimeout
  dsimp only
  rw [has]
  dsimp only
  rw [if_neg (by simp [sent, waiting]), if_neg (by omega)]
  exact abandon_gone ..

theorem spareDeskewed_takes (has : tget w.lan.exchs (p * 16 + role) = some e) (bridged : e.bridged = true) (lost : e.oldFaulty = true)
    (waiting : e.taken = false) : spareDeskewed p role shift ns w = takeRole (p * 16 + role) e shift
      (when e.unplanned (fun w => w.set (Reg.lastInterruptNs (brickOfPort p)) ns) w) := by
  unfold spareDeskewed
  dsimp only
  rw [has]
  exact if_pos (by simp [bridged, lost, waiting])

theorem rxRefShift_ne {b : Nat} (small : b < 16) (q n : Nat) : (Reg.lastInterruptNs b).key ≠ (Reg.rxRefShift q n).key := by
  simp only [Reg.lastInterruptNs, Reg.rxRefShift]; omega

end

/-- Settles O18: the exchange's record after each event; `takeRole` waits for the partner's ROLLED. -/
theorem exchangeEvents : Obligations.ExchangeEvents := by
  refine ⟨fun p role e s on has bridged planned first good => completes_actIf rfl on (bridgeDone_does has bridged planned first good),
    fun p role shift e s on has planned waiting held alone => ?_,
    fun p role e s on has sent waiting => ⟨fun more => completes_actIf rfl on (rollTimeout_repeats has sent waiting more),
      fun spent => completes_actIf rfl on (rollTimeout_abandons has sent waiting spent)⟩,
    fun p role shift ns e s on has bridged lost waiting alone => ?_⟩
  · refine completes_actIf rfl on ?_
    rw [rollCodeword_takes has planned waiting held]
    exact (takeRole_does _ e shift s.w alone).1
  · refine completes_actIf rfl on ?_
    rw [spareDeskewed_takes has bridged lost waiting]
    obtain ⟨took, kept⟩ := takeRole_does (p.val * 16 + role.val) e shift
      (when e.unplanned (fun w => w.set (Reg.lastInterruptNs (brickOfPort p.val)) ns) s.w) alone
    refine ⟨took, fun unplanned => ?_⟩
    rw [kept _ (rxRefShift_ne (by have := p.isLt; unfold brickOfPort; omega)), unplanned, when_true]
    exact get_set_same ..

end Sys2Proof.Machine
end

section
/-! Pool lanes, retests, the round and its surveys (R216, R217, R231, R234 to R240, R243). -/

open Sys2Proof

namespace Sys2Proof.Machine

section
variable {l : Lane} {w : Wall}

theorem spareFault_holds (use : laneUseOf l.val w = 1) (st : laneSt l.val w = 10) :
    laneUseOf l.val (spareFault l.val w) = 2 ∧ ((spareFault l.val w).lane l.val).retestFails = 0 := by
  unfold spareFault
  rw [if_pos ⟨use, st⟩]
  split <;> exact holdForRetest_does l.val 0 _ l.isLt

theorem drawSeed_lane (m : Nat) : (drawSeed w).2.lane m = w.lane m := rfl

theorem drawSeed_regs : (drawSeed w).2.regs = w.regs := rfl

theorem detectAlone_retesting : ((detectAlone l.val w).lane l.val).retesting = (w.lane l.val).retesting := by
  rw [detectAlone_eq, laneDetect_retesting, drawSeed_lane]

theorem detectAlone_use : laneUseOf l.val (detectAlone l.val w) = laneUseOf l.val w := by
  rw [detectAlone_eq, laneDetect_use]
  exact get_congr drawSeed_regs _

theorem retestStart_detects (use : laneUseOf l.val w = 2) (st : laneSt l.val w = 11) (idle : surveying l.val w = false) :
    retestStart l w = detectAlone l.val (w.modLane l.val fun r => { r with retesting := true }) := if_pos ⟨use, st, by simp [idle]⟩

/-- A held lane whose retest has passed, back in the pool. -/
def pooled (l : Lane) (w : Wall) : Wall :=
  setLaneSt l.val 10 (setUse l.val 1 (w.modLane l.val fun r => { r with retesting := false, retestFails := 0, freeSeen := false, pair := none }))

theorem pooled_use : laneUseOf l.val (pooled l w) = 1 := by
  unfold pooled laneUseOf
  rw [setLaneSt_get _ _ _ _ (laneUse_aside _) (laneBrick l)
    (by simp only [Reg.laneUse, Reg.laneState, Reg.signalDetect, Reg.cdrLocked, Reg.eyeState]; omega)]
  exact setUse_use ..

theorem pooled_st : laneSt l.val (pooled l w) = 10 := setLaneSt_st _ _ _ (laneBrick l)

theorem pooled_bare : bareSvc (pooled l w) = bareSvc w := by
  have apart : ∀ r : Nat, Reg.bare.key ≠ (Reg.laneUse r).key ∧ Reg.bare.key ≠ (Reg.poolMap r).key ∧ Reg.bare.key ≠ (Reg.heldMap r).key ∧
      Reg.bare.key ≠ (Reg.retiredMap r).key ∧ Reg.bare.key ≠ (Reg.laneState r).key ∧ Reg.bare.key ≠ (Reg.signalDetect r).key ∧
      Reg.bare.key ≠ (Reg.cdrLocked r).key ∧ Reg.bare.key ≠ (Reg.eyeState r).key := fun r => by
    simp only [Reg.bare, Reg.laneUse, Reg.poolMap, Reg.heldMap, Reg.retiredMap, Reg.laneState, Reg.signalDetect, Reg.cdrLocked, Reg.eyeState]
    omega
  obtain ⟨use, -, -, -, st, signal, cdr, eye⟩ := apart l.val
  obtain ⟨-, pool, held, retired, -⟩ := apart (brickOfLane l.val)
  unfold bareSvc Wall.flag pooled
  rw [setLaneSt_get _ _ _ _ (by decide) (laneBrick l) ⟨st, signal, cdr, eye⟩, setUse_get _ _ _ _ ⟨use, pool, held, retired⟩]
  rfl

theorem pooled_spareRate : (pooled l w).get (Reg.spareRate (brickOfLane l.val)) = w.get (Reg.spareRate (brickOfLane l.val)) := by
  have := brickOfLane_lt l
  unfold pooled
  rw [setLaneSt_get _ _ _ _ (by simp only [Aside, Reg.spareRate]; omega) (laneBrick l)
      (by simp only [Reg.spareRate, Reg.laneState, Reg.signalDetect, Reg.cdrLocked, Reg.eyeState]; omega),
    setUse_get _ _ _ _ (by simp only [Reg.spareRate, Reg.laneUse, Reg.poolMap, Reg.heldMap, Reg.retiredMap]; omega)]
  rfl

section
variable {m : SurveyMeas} (held : laneUseOf l.val w = 2) (retesting : (w.lane l.val).retesting = true)
  (trained : (w.lane l.val).trained.isSome = true)
include held retesting trained

theorem retestMeasured_passes (ok : m.errors * 1000000 ≤ m.bits) (v : w.get Reg.vFloorMv ≤ minOf m.v) (h : w.get Reg.hFloor ≤ minOf m.h) :
    retestMeasured l m w = if (w.lane l.val).trained = some (if bareSvc w then 1 else w.get (Reg.spareRate (brickOfLane l.val)))
      then pooled l w else detectAlone l.val (pooled l w) := by
  unfold retestMeasured
  dsimp only
  rw [if_pos ⟨held, retesting, trained⟩, if_pos ⟨ok, v, h⟩, ← pooled, pooled_bare, pooled_spareRate]

theorem retestMeasured_fails (bad : m.bits < m.errors * 1000000) : retestMeasured l m w = retestFailed l.val w := by
  unfold retestMeasured
  dsimp only
  rw [if_pos ⟨held, retesting, trained⟩, if_neg (fun ok => by omega)]

end

theorem retestFailed_does : if 3 ≤ (w.lane l.val).retestFails + 1
    then laneUseOf l.val (retestFailed l.val w) = 3 ∧ (retestFailed l.val w).get (Reg.retireCause l.val) = 1
    else laneUseOf l.val (retestFailed l.val w) = 2 ∧ ((retestFailed l.val w).lane l.val).retestFails = (w.lane l.val).retestFails + 1 := by
  unfold retestFailed
  by_cases third : 3 ≤ (w.lane l.val).retestFails + 1
  · rw [if_pos third]
    dsimp only
    rw [if_pos third]
    obtain ⟨use, -, cause⟩ := retire_does l.val 1 w l.isLt
    exact ⟨use, cause⟩
  · rw [if_neg third]
    dsimp only
    rw [if_neg third]
    exact holdForRetest_does l.val _ w l.isLt

/-- A brick with a survey under way, or that makes none, leaves the event for later. -/
theorem surveyStart_idle {b : Nat} (idle : (w.round b).current.isSome = true ∨ bareSvc w = true ∨ w.bnd.dozing = true) (brick : b < 16) :
    surveyStart b w = latch b 8 w := by
  have bare : bareSvc (latch b 8 w) = bareSvc w := by
    have A : Aside Reg.bare := by decide
    unfold bareSvc Wall.flag
    rw [A.latch (by omega)]
  unfold surveyStart
  dsimp only
  rw [if_pos]
  rw [bare, latch_bnd]
  simpa [or_assoc] using idle

end

/-- Settles O19: pool lanes by `holdForRetest`, `retire` and `detectAlone`; the rest by what each command does once. -/
theorem poolLanesAndSurveys : Obligations.PoolLanesAndSurveys := by
  refine ⟨fun l s on use st => ?_, fun l s on use st => completes_actIf rfl on (spareFault_holds use st), fun l s on use st idle => ?_,
    fun l m s on held retesting trained => ⟨fun ok v h => ?_, fun bad => ?_⟩, fun s on may => ?_,
    fun b l rest s on none_ bare awake asked use st free => ?_, fun b s on idle => ?_, fun b l v m re again s on own role => ?_,
    fun b l v m re again s on none_ first => ?_, fun st rf c s on lt => ?_, fun s on isOpen => ?_⟩
  · exact completes_actIf rfl on (if_pos ⟨use, st⟩)
  · refine completes_actIf rfl on ?_
    rw [retestStart_detects use st idle]
    refine ⟨detectAlone_st .., detectAlone_retesting.trans ?_⟩
    rw [modLane_lane]
  · refine completes_actIf rfl on ?_
    rw [retestMeasured_passes held retesting trained ok v h]
    by_cases same : (s.w.lane l.val).trained = some (if bareSvc s.w then 1 else s.w.get (Reg.spareRate (brickOfLane l.val)))
    · rw [if_pos same]
      exact ⟨pooled_use, fun _ => pooled_st⟩
    · rw [if_neg same]
      exact ⟨detectAlone_use.trans pooled_use, fun e => absurd e same⟩
  · refine completes_actIf rfl on ?_
    rw [retestMeasured_fails held retesting trained bad]
    exact retestFailed_does
  · refine completes_actIf rfl on ?_
    rw [show roundPeriod s.w = startRound s.w from if_pos may]
    exact startRound_does s.w
  · exact completes_actIf rfl on (surveyStart_does b.val l rest s.w b.isLt none_ bare awake asked use st free)
  · refine completes_actIf rfl on ?_
    rw [surveyStart_idle idle b.isLt]
    exact ⟨latch_lan .., fun o A => A.latch (by have := b.isLt; omega)⟩
  · refine completes_actIf rfl on ?_
    rw [surveyPrbsEnd_own b.val l v m re again s.w own]
    exact ownSurveyEnd_pool l v m re again s.w role
  · exact completes_actIf rfl on (surveyPrbsEnd_partner b.val l v m re again s.w none_ first)
  · exact completes_actIf rfl on (telltale_get st rf s.w c lt)
  · exact completes_actIf rfl on (askRecord_does _ _ _ _ _ _ s.w isOpen)

end Sys2Proof.Machine
end

section
/-! Measurements of lanes and the field lanes (R198 to R207, R273), header lock and pauses (R272, R274, R287, R289), and quiet (R293 to R299). -/

open Sys2Proof

namespace Sys2Proof.Machine

/-! ### Measurements and field lanes -/

section
variable {l : Lane} {sp : SubPort} {w : Wall}

theorem fecWindow_counts {rc : List Nat} {cw co un : Nat} (up : spUp sp.val w = true) (width : spWidthOf sp.val w ≤ 16)
    (few : ∀ n ∈ rc, n < w.get (Reg.laneSerLimit (portOfSp sp.val))) :
    (fecWindow sp rc cw co un w).get (Reg.statistic sp.val 96) = (w.get (Reg.statistic sp.val 96) + cw) % 2 ^ 64 ∧
    (fecWindow sp rc cw co un w).get (Reg.statistic sp.val 97) = (w.get (Reg.statistic sp.val 97) + co) % 2 ^ 64 ∧
    (fecWindow sp rc cw co un w).get (Reg.statistic sp.val 98) = (w.get (Reg.statistic sp.val 98) + un) % 2 ^ 64 ∧
    (fecWindow sp rc cw co un w).get (Reg.statistic sp.val 99) = (w.get (Reg.statistic sp.val 99) + rc.sum) % 2 ^ 64 ∧
    (fecWindow sp rc cw co un w).lan = w.lan := by
  rw [fecWindow_eq sp rc cw co un w up width few, fecCount_lan]
  exact ⟨fecCount_stat sp rc cw co un 96 w (by decide) width, fecCount_stat sp rc cw co un 97 w (by decide) width,
    fecCount_stat sp rc cw co un 98 w (by decide) width, fecCount_stat sp rc cw co un 99 w (by decide) width, rfl⟩

theorem prbsCheck_does {gained : Bool} {n e : Nat} (st : laneSt l.val w = 13) (on : w.get (Reg.prbsRx l.val) % 4 ≠ 0) :
    prbsCheck l.val gained n e w =
      (when (w.flag (Reg.prbsLock l.val)) (fun w => (w.bump (Reg.prbsBits l.val) n).bump (Reg.prbsErrors l.val) e) w).setB (Reg.prbsLock l.val) gained :=
  if_pos ⟨st, on⟩

theorem prbs_ne : (Reg.prbsBits l.val).key ≠ (Reg.prbsLock l.val).key ∧ (Reg.prbsErrors l.val).key ≠ (Reg.prbsLock l.val).key ∧
    (Reg.prbsBits l.val).key ≠ (Reg.prbsErrors l.val).key := by
  simp only [Reg.prbsBits, Reg.prbsErrors, Reg.prbsLock]; omega

theorem eyeEnd_state {st : Nat} : (eyeEnd l.val st w).get (Reg.eyeState l.val) = st % 256 := by
  have aside : Aside (Reg.eyeState l.val) := by simp only [Aside, Reg.eyeState]; omega
  unfold eyeEnd
  rw [aside.latch (laneBrick l)]
  exact get_set_same ..

theorem eyeDone_does {counts : List Nat} (runs : w.get (Reg.eyeState l.val) = 1) :
    (eyeDone l.val counts w).get (Reg.eyeState l.val) = 2 ∧
    (tget (eyeDone l.val counts w).led.doms ((0x6000 + l.val) * 256 + 0x1E)).isSome = true := by
  unfold eyeDone
  rw [if_neg (by simp [runs])]
  dsimp only
  refine ⟨eyeEnd_state, ?_⟩
  rw [(eyeEnd_keep ..).led.same (by decide)]
  exact congrArg Option.isSome (tget_tput_same ..)

theorem fieldUp_moves {f : Nat} {m : Mode} (runs : fieldRuns m = true) (enabled : bit (w.get Reg.fEnable) f = true) (down : w.get (fieldUpReg f) = 0)
    (clocks : w.bnd.clocksStopped = false) (fetched : w.bnd.fetchDue = false) : fieldUp f m w = fieldMove f true w := by
  have flag : w.flag (fieldUpReg f) = false := by unfold Wall.flag; simp [down]
  exact if_pos (by simp [runs, enabled, flag, clocks, fetched])

theorem fieldDown_moves {f : Nat} (up : w.get (fieldUpReg f) ≠ 0) : fieldDown f w = fieldMove f false (w.bump (fieldDownsReg f) 1) := by
  have flag : w.flag (fieldUpReg f) = true := by unfold Wall.flag; simp [up]
  exact if_pos flag

theorem fieldDowns_apart (f : Fin 2) : Aside (fieldDownsReg f.val) ∧ (fieldDownsReg f.val).key ≠ (fieldUpReg f.val).key ∧
    Reg.dbWritten.key ≠ (fieldDownsReg f.val).key ∧ (fieldDownsReg f.val).bits = 32 := by
  revert f
  decide

theorem fieldDown_does {f : Fin 2} (up : w.get (fieldUpReg f.val) ≠ 0) : (fieldDown f.val w).get (fieldUpReg f.val) = 0 ∧
    (fieldDown f.val w).get (fieldDownsReg f.val) = (w.get (fieldDownsReg f.val) + 1) % 2 ^ 32 ∧
    (fieldDown f.val w).get Reg.dbWritten = (w.get Reg.dbWritten + 1) % 2 ^ 64 := by
  obtain ⟨aside, other, book, bits⟩ := fieldDowns_apart f
  obtain ⟨moved, entry, kept⟩ := fieldMove_does f.val false (w.bump (fieldDownsReg f.val) 1) f.isLt
  rw [fieldDown_moves up]
  refine ⟨moved, ?_, ?_⟩
  · rw [kept _ aside other, get_bump_same, bits]
  · rw [entry, get_bump_other _ _ _ _ book]

end

/-- Settles O20: the counts of a FEC window by `fecCount_stat`; the lane's own objects for the rest. -/
theorem laneMeasurementsAndFieldLanes : Obligations.LaneMeasurementsAndFieldLanes := by
  refine ⟨fun sp rc cw co un s on up width few => completes_actIf rfl on (fecWindow_counts up width few), fun l gained n e s on st active => ?_,
    fun l counts s on runs => ?_, fun l s on held => ?_, fun l s on held => ?_, fun f s on runs enabled down clocks fetched => ?_,
    fun f s on up => completes_actIf rfl on (fieldDown_does up), fun f s => ⟨s, rfl, rfl⟩⟩
  · refine completes_actIf rfl on ?_
    obtain ⟨bitsNe, errorsNe, apart⟩ := prbs_ne (l := l)
    rw [prbsCheck_does st active]
    refine ⟨(get_setB_same ..).trans (by cases gained <;> rfl), fun locked => ?_, fun unlocked => ?_⟩
    · have flag : s.w.flag (Reg.prbsLock l.val) = true := by unfold Wall.flag; simp [locked]
      rw [flag, when_true, get_setB_other _ _ _ _ bitsNe, get_setB_other _ _ _ _ errorsNe, get_bump_other _ _ _ _ apart, get_bump_same, get_bump_same,
        get_bump_other _ _ _ _ apart.symm]
      exact ⟨rfl, rfl⟩
    · have flag : s.w.flag (Reg.prbsLock l.val) = false := by unfold Wall.flag; simp [unlocked]
      rw [flag, when_false, get_setB_other _ _ _ _ bitsNe]
  · obtain ⟨state, map⟩ := eyeDone_does (counts := counts) runs
    exact completes_actIf rfl on ⟨state, (eyeDone_keep ..).lan.same (by decide), map⟩
  · refine completes_actIf rfl on ?_
    rw [show eyeResume l.val s.w = s.w.set (Reg.eyeState l.val) 1 from if_pos held]
    exact ⟨get_set_same .., fun o other => get_set_other _ _ _ _ other⟩
  · refine completes_actIf rfl on ?_
    rw [show eyeAbort l.val s.w = eyeEnd l.val 4 s.w from if_pos held]
    exact ⟨eyeEnd_state, (eyeEnd_keep ..).lan.same (by decide)⟩
  · refine completes_actIfM rfl on ?_
    rw [fieldUp_moves runs enabled down clocks fetched]
    obtain ⟨moved, entry, -⟩ := fieldMove_does f.val true s.w f.isLt
    exact ⟨moved, entry⟩

/-! ### Header lock and pauses -/

section
variable {sp : SubPort} {w : Wall}

theorem headerLockLoss_does (flows : spFlows sp.val w = true) (fresh : sp.val ∉ w.prt.lockLost) :
    (headerLockLoss sp.val w).prt.lockLost = sp.val :: w.prt.lockLost ∧
    (headerLockLoss sp.val w).get (Reg.statistic sp.val 100) = (w.get (Reg.statistic sp.val 100) + 1) % 2 ^ 64 := by
  have inRange := sp.isLt
  have aside : Aside (Reg.statistic sp.val 100) := by simp only [Aside, Reg.statistic]; omega
  unfold headerLockLoss
  rw [if_pos ⟨flows, fresh⟩]
  dsimp only
  rw [latch_prt, aside.latch (by unfold brickOfSp; omega)]
  exact ⟨rfl, get_bump_same ..⟩

theorem pauseExpiry_does {tc : Nat} : bit ((pauseExpiry sp.val tc w).get (Reg.rxPaused sp.val)) tc = false ∧
    (w.get (Reg.fcMode sp.val) = 1 → tget (pauseExpiry sp.val tc w).prt.pauseUntil (sp.val * 8 + tc) = none) := by
  unfold pauseExpiry
  dsimp only
  refine ⟨?_, fun pause => ?_⟩
  · rw [get_clrBitR_same]
    exact bit_clrBit ..
  · rw [if_pos pause]
    exact setPause_same (sp.val * 8 + tc) none w

theorem pauseRx_does {q n : Nat} (up : spUp sp.val w = true) (mode : w.get (Reg.fcMode sp.val) = 1) (lt : n < 8) :
    (pauseRx sp.val q w).get (Reg.rxPaused sp.val) = (if q = 0 then 0 else 0xFF) ∧
      tget (pauseRx sp.val q w).prt.pauseUntil (sp.val * 8 + n) = if q = 0 then none else some (nowPs w + q * quantumPs sp.val w) := by
  obtain ⟨upC, modeC, quantum, now, -, -⟩ := counted_gets sp 64 0x0180C2000001 (w.get (Reg.defaultTc sp.val)) w
  unfold pauseRx
  rw [if_pos (by simp [up, mode]), ← now, ← quantum]
  exact pauseFrame_does sp q n _ (upC.trans up) (modeC.trans mode) lt

theorem pfcRx_does {en n : Nat} {times : List Nat} (up : spUp sp.val w = true) (mode : w.get (Reg.fcMode sp.val) = 2) (lt : n < 8) :
    tget (pfcRx sp.val en times w).prt.pauseUntil (sp.val * 8 + n) =
      if bit en n && bit (w.get (Reg.pfcEnable sp.val)) (tcOfPrio sp.val n w) then
        (if times.getD n 0 = 0 then none else some (nowPs w + times.getD n 0 * quantumPs sp.val w))
      else tget w.prt.pauseUntil (sp.val * 8 + n) := by
  obtain ⟨upC, modeC, quantum, now, enable, prio⟩ := counted_gets sp 64 0x0180C2000001 (w.get (Reg.defaultTc sp.val)) w
  unfold pfcRx
  rw [if_pos (by simp [up, mode]), ← now, ← quantum, ← enable, ← prio n,
    pfcFrame_does sp en n times _ (upC.trans up) (modeC.trans mode) lt, countRx_prt]

theorem queuePause_out (k tc q : Nat) (x : Wall) :
    tgetD (queuePause k tc q x).prt.pauseOut k [] = tgetD x.prt.pauseOut k [] ++ [⟨tc, priosOf k tc x, q⟩] :=
  tgetD_tmod_same x.prt.pauseOut k [] fun l => l ++ [PauseOut.mk tc (priosOf k tc x) q]

theorem pfcRefresh_queues {tc : Nat} (xoff : bit (w.get (Reg.txXoff sp.val)) tc = true) (above : w.get (Reg.xonCells sp.val) < classCells sp.val tc w)
    (up : spUp sp.val w = true) : pfcRefresh sp.val tc w = queuePause sp.val tc (w.get (Reg.pauseQuanta sp.val)) w :=
  if_pos (by simp [xoff, above, up])

end

/-- Settles O21: a sub-port goes down by `downRetrain`; a pause frame is counted first, then pauses its priorities. -/
theorem headerLockAndPauses : Obligations.HeaderLockAndPauses := by
  refine ⟨fun sp s on flows fresh => completes_actIf rfl on (headerLockLoss_does flows fresh), fun sp s on lost planned => ?_,
    fun sp s on => completes_actIf rfl on ⟨rfl, rfl⟩, fun sp s on up fresh planned => ?_,
    fun sp q n s on up mode lt => completes_actIf rfl on (pauseRx_does up mode lt),
    fun sp en n times s on up mode lt => completes_actIf rfl on (pfcRx_does up mode lt),
    fun sp tc s on => completes_actIf rfl on pauseExpiry_does, fun sp tc s on xoff above up => ?_⟩
  · refine completes_actIf rfl on ?_
    rw [show headerTimeout sp.val s.w = downRetrain sp.val 5 (headerLockBack sp.val s.w) from if_pos ⟨lost, by simp [planned]⟩]
    exact downRetrain_grp sp 5 (headerLockBack sp.val s.w)
  · refine completes_actIf rfl on ?_
    rw [show hiBer sp.val s.w = downRetrain sp.val 5 s.w from if_pos ⟨up, fresh, by simp [planned]⟩]
    exact downRetrain_grp sp 5 s.w
  · refine completes_actIf rfl on ?_
    rw [pfcRefresh_queues xoff above up]
    exact ⟨queuePause_out .., rfl⟩

/-! ### Quiet -/

section
variable {p : Port} {w : Wall}

theorem quietRequest_sends (idle : (w.quiet p.val).phase = .none) (ready : quietReady p.val w = true) (empty : portIdle p.val w = true)
    (enabled : w.get (Reg.quietEnable p.val) ≠ 0) : quietRequest p.val w =
    sendLpi p.val true (w.setQuiet p.val { w.quiet p.val with phase := .requesting, idleDue := false }) := by
  have flag : w.flag (Reg.quietEnable p.val) = true := by unfold Wall.flag; simp [enabled]
  exact if_pos (by simp [idle, ready, empty, flag])

theorem quietIdle_requests (awake : w.bnd.dozing = false) (idle : (w.quiet p.val).phase = .none) (ready : quietReady p.val w = true)
    (empty : portIdle p.val w = true) (enabled : w.get (Reg.quietEnable p.val) ≠ 0) :
    ((quietIdle p.val w).quiet p.val).phase = .requesting ∧ (quietIdle p.val w).out = .lpi p true :: w.out ∧ (quietIdle p.val w).regs = w.regs := by
  have sends := quietRequest_sends (w := w.setQuiet p.val { w.quiet p.val with idleDue := true }) (by rw [quiet_set]; exact idle) ready empty enabled
  unfold quietIdle
  rw [if_neg (by simp [awake]), sends, quiet_lpi, quiet_set, lpi_out, lpi_regs]
  exact ⟨rfl, rfl, rfl⟩

theorem lpiReceived_answers (awake : w.bnd.dozing = false) (idle : (w.quiet p.val).phase = .none) (ready : quietReady p.val w = true)
    (empty : portIdle p.val w = true) (enabled : w.get (Reg.quietEnable p.val) ≠ 0) : lpiReceived p.val w =
    sendLpi p.val true (w.setQuiet p.val { w.quiet p.val with phase := .answering }) := by
  have flag : w.flag (Reg.quietEnable p.val) = true := by unfold Wall.flag; simp [enabled]
  unfold lpiReceived
  rw [idle]
  exact if_pos (by simp [ready, empty, flag, awake])

theorem lpiReceived_quiet (asked : (w.quiet p.val).phase = .requesting ∨ (w.quiet p.val).phase = .answering) (ready : quietReady p.val w = true) :
    lpiReceived p.val w = enterQuiet p.val w := by
  unfold lpiReceived
  obtain h | h := asked <;> rw [h] <;> exact if_pos ready

theorem enterQuiet_does : ((enterQuiet p.val w).quiet p.val).phase = .none ∧ ∀ sp, activeSps p.val w = [sp] → spSt sp (enterQuiet p.val w) = 3 := by
  unfold enterQuiet
  refine ⟨congrArg QuietRt.phase (quiet_set ..), fun sp one => ?_⟩
  have other : (Reg.spState (sp / 8) (sp % 8)).key ≠ (Reg.quietEntries p.val).key := by
    have := p.isLt
    simp only [Reg.spState, Reg.quietEntries]; omega
  rw [one]
  exact (get_bump_other _ _ _ _ other).trans (setSpSt_st sp 3 _)

/-- A handshake given up sends idle. -/
theorem abandonQuiet_gives (asked : (w.quiet p.val).phase = .requesting ∨ (w.quiet p.val).phase = .answering) :
    ((abandonQuiet p.val w).quiet p.val).phase = .none ∧ (abandonQuiet p.val w).out = .lpi p false :: w.out ∧ (abandonQuiet p.val w).regs = w.regs := by
  rw [abandonQuiet_does p w asked, quiet_lpi, quiet_set, lpi_out, lpi_regs]
  exact ⟨rfl, rfl, rfl⟩

theorem quietTimeout_refuses (awake : w.bnd.dozing = false) (asked : (w.quiet p.val).phase = .requesting) :
    quietTimeout p.val w = (abandonQuiet p.val w).bump (Reg.quietRefused p.val) 1 := by
  unfold quietTimeout
  rw [if_pos asked, awake, when_false]

theorem idleAfterLpi_abandons (awake : w.bnd.dozing = false) (asked : (w.quiet p.val).phase = .requesting ∨ (w.quiet p.val).phase = .answering) :
    idleAfterLpi p.val w = abandonQuiet p.val w := by
  unfold idleAfterLpi
  obtain h | h := asked <;> rw [h, awake] <;> rfl

theorem partnerBurst_wakes (awake : w.bnd.dozing = false) (quiet : quietSps p.val w ≠ []) (still : (w.quiet p.val).phase ≠ .waking) :
    ((partnerBurst p.val w).quiet p.val).phase = .waking ∧ ((partnerBurst p.val w).quiet p.val).awaiting = false ∧
    (partnerBurst p.val w).out = .wakeBurst p :: w.out := by
  have burst : wakePort p.val w = (w.setQuiet p.val { phase := .waking, idleDue := false, awaiting := true }).emit (.wakeBurst p) := by
    unfold wakePort
    rw [if_neg (by simp [quiet, still, awake])]
    exact dif_pos p.isLt
  unfold partnerBurst
  rw [if_neg (by simp [awake]), burst]
  dsimp only
  rw [quiet_set]
  exact ⟨congrArg QuietRt.phase (quiet_set ..), rfl, rfl⟩

theorem wakeComplete_does (waking : (w.quiet p.val).phase = .waking) : ((wakeComplete p.val w).quiet p.val).phase = .none ∧
    ∀ sp, quietSps p.val w = [sp] → spSt sp (wakeComplete p.val w) = 2 := by
  unfold wakeComplete
  rw [if_pos waking]
  refine ⟨congrArg QuietRt.phase (quiet_set ..), fun sp one => ?_⟩
  rw [one]
  exact setSpSt_st sp 2 _

theorem partnerTimeout_does (waiting : (w.quiet p.val).awaiting = true) :
    ((partnerTimeout p.val w).quiet p.val).phase = .none ∧ ((partnerTimeout p.val w).quiet p.val).awaiting = false := by
  have given := quiet_set w p.val { w.quiet p.val with awaiting := false, phase := .none }
  have kept : (partnerTimeout p.val w).quiet p.val = { w.quiet p.val with awaiting := false, phase := .none } := by
    unfold partnerTimeout
    rw [if_pos waiting]
    exact foldl_keeps (fun x : Wall => x.quiet p.val = { w.quiet p.val with awaiting := false, phase := .none }) _ _ _ given
      fun x sp same => (quiet_congr ((downRetrain_keep ..).prt.quiet (by decide)) _).trans same
  rw [kept]
  exact ⟨rfl, rfl⟩

theorem partnerTimeout_one {sp : SubPort} (waiting : (w.quiet p.val).awaiting = true)
    (one : (portSps p.val w).filter (fun sp => spUp sp w) = [sp.val]) (young : (spGrp sp.val w).held10s = false) :
    spGrpSt sp.val (partnerTimeout p.val w) = 7 ∨ spGrpSt sp.val (partnerTimeout p.val w) = 8 := by
  unfold partnerTimeout
  rw [if_pos waiting]
  show spGrpSt sp.val (((portSps p.val w).filter fun sp => spUp sp w).foldl (fun w sp => downRetrain sp 10 w) _) = 7 ∨
    spGrpSt sp.val (((portSps p.val w).filter fun sp => spUp sp w).foldl (fun w sp => downRetrain sp 10 w) _) = 8
  rw [one]
  exact downRetrain_young sp 10 _ young

end

/-- Settles O22: each event of the handshake by the phase it finds. -/
theorem quietHandshake : Obligations.QuietHandshake := by
  refine ⟨fun p s on awake idle ready empty enabled => completes_actIf rfl on (quietIdle_requests awake idle ready empty enabled),
    fun p s on awake idle ready empty enabled => ?_, fun p s on asked ready => ?_, fun p s on awake asked => ?_, fun p s on awake asked => ?_,
    fun p s on awake quiet still => completes_actIf rfl on (partnerBurst_wakes awake quiet still),
    fun p s on waking => completes_actIf rfl on (wakeComplete_does waking), fun p s on waiting => ?_⟩
  · refine completes_actIf rfl on ?_
    rw [lpiReceived_answers awake idle ready empty enabled, quiet_lpi, quiet_set, lpi_out, lpi_regs]
    exact ⟨rfl, rfl, rfl⟩
  · refine completes_actIf rfl on ?_
    rw [lpiReceived_quiet asked ready]
    exact enterQuiet_does
  · refine completes_actIf rfl on ?_
    obtain ⟨phase, out, regs⟩ := abandonQuiet_gives (.inl asked)
    rw [quietTimeout_refuses awake asked]
    exact ⟨phase, out, (get_bump_same ..).trans (by rw [get_congr regs]; rfl)⟩
  · refine completes_actIf rfl on ?_
    rw [idleAfterLpi_abandons awake asked]
    exact abandonQuiet_gives asked
  · obtain ⟨phase, awaiting⟩ := partnerTimeout_does waiting
    exact completes_actIf rfl on ⟨phase, awaiting, fun sp one young => partnerTimeout_one waiting one young⟩

end Sys2Proof.Machine
end

section
/-! Obligations O24 to O27 and O29: arithmetic, logic, memory, control and faults of the base instructions. -/

open Sys2Proof
namespace Sys2Proof.Machine

/-! ### Results and flags of an addition and of a difference -/

theorem seqr_le (u : Seqr) : u.val ≤ 16 := by omega

section

variable (a b : Nat)

theorem aluAdd_val_mod : (aluAdd a b 0).val % 2 ^ 32 = (a + b) % 2 ^ 32 := Nat.mod_mod _ _

theorem aluAdd_z : (aluAdd a b 0).z = ((a + b) % 2 ^ 32 == 0) := congrArg (· == 0) (Nat.mod_mod _ _)

theorem aluAdd_n : (aluAdd a b 0).n = decide (2 ^ 31 ≤ (a + b) % 2 ^ 32) := by
  have : (aluAdd a b 0).n = isN ((a + b) % 2 ^ 32) := rfl
  rw [this, isN_eq, Nat.mod_mod]

theorem aluAdd_c : (aluAdd a b 0).c = decide (2 ^ 32 ≤ a + b) := rfl

theorem aluAdd_v : (aluAdd a b 0).v = true ↔ ¬ fits32 (toInt 32 a + toInt 32 b) := by
  have : (aluAdd a b 0).v = decide (toInt 32 ((a + b) % 2 ^ 32) ≠ toInt 32 a + toInt 32 b + ((0 : Nat) : Int)) := rfl
  rw [this, decide_eq_true_iff, Nat.cast_zero, add_zero]
  exact sadd a b

theorem aluSub_val : (aluSub a b).val = ofInt 32 ((a : Int) - b) := subv a b

theorem ofInt_lt (i : Int) : ofInt 32 i < 2 ^ 32 := by unfold ofInt; omega

theorem aluSub_val_mod : (aluSub a b).val % 2 ^ 32 = ofInt 32 ((a : Int) - b) := by
  rw [aluSub_val, Nat.mod_eq_of_lt (ofInt_lt _)]

theorem aluSub_z : (aluSub a b).z = (ofInt 32 ((a : Int) - b) == 0) := congrArg (· == 0) (aluSub_val_mod a b)

theorem aluSub_n : (aluSub a b).n = decide (2 ^ 31 ≤ ofInt 32 ((a : Int) - b)) := by
  have : (aluSub a b).n = isN (aluSub a b).val := rfl
  rw [this, isN_eq, aluSub_val_mod]

theorem aluSub_c : (aluSub a b).c = (decide (a % 2 ^ 32 < b % 2 ^ 32) == Config.carryIsBorrow 0) := rfl

theorem aluSub_v : (aluSub a b).v = true ↔ ¬ fits32 (toInt 32 a - toInt 32 b) :=
  decide_eq_true_iff.trans (ssub a b)

/-- CMP's Z: a difference is zero modulo 2^32 exactly when the operands agree there. -/
theorem ofInt_sub_eq_zero : (ofInt 32 ((a : Int) - b) == 0) = decide (a % 2 ^ 32 = b % 2 ^ 32) := by
  rw [beq_eq_decide]
  congr 1
  apply propext
  unfold ofInt
  omega

end

/-- Settles O24: each is its `Alu` result with the flags of that result. -/
theorem macroAddSubSetTheFlags : Obligations.MacroAddSubSetTheFlags := by
  intro u s h
  have hu := seqr_le u
  refine ⟨fun d g => alu_ok (a := aluAdd ((s.w.seq u.val).reg d.val) ((s.w.seq u.val).reg g.val) 0) hu h rfl rfl ?_,
    fun d g => alu_ok (a := aluSub ((s.w.seq u.val).reg d.val) ((s.w.seq u.val).reg g.val)) hu h rfl rfl ?_,
    fun d g => computes_of (f := fun r => r.setFlags (aluSub (r.reg d.val) (r.reg g.val))) hu h rfl
      (fun _ => ⟨⟨rfl, rfl, rfl, rfl, rfl, rfl, rfl, rfl⟩, rfl, rfl, rfl, rfl, rfl⟩) ⟨rfl, rfl, rfl⟩ (fun _ _ => rfl) ?_,
    fun d i => alu_ok (a := aluAdd ((s.w.seq u.val).reg d.val) i.val 0) hu h rfl rfl ?_,
    fun d i => alu_ok (a := aluSub ((s.w.seq u.val).reg d.val) i.val) hu h rfl rfl ?_⟩
  · intro r' hv hz hn hc ho
    rw [aluAdd_val_mod] at hv
    exact ⟨hv, by rw [hz, aluAdd_z, hv], by rw [hn, aluAdd_n, hv], hc.trans (aluAdd_c _ _), by rw [ho]; exact aluAdd_v _ _⟩
  · intro r' hv hz hn hc ho
    rw [aluSub_val_mod] at hv
    exact ⟨hv, by rw [hz, aluSub_z, hv], by rw [hn, aluSub_n, hv], hc.trans (aluSub_c _ _), by rw [ho]; exact aluSub_v _ _⟩
  · intro k
    exact ⟨(aluSub_z _ _).trans (ofInt_sub_eq_zero _ _), aluSub_n _ _, aluSub_c _ _, aluSub_v _ _⟩
  · intro r' hv hz hn hc ho
    rw [aluAdd_val_mod] at hv
    refine ⟨hv, by rw [hz, aluAdd_z, hv], by rw [hn, aluAdd_n, hv], hc.trans (aluAdd_c _ _), ?_⟩
    rw [ho, aluAdd_v, smallI]
  · intro r' hv hz hn hc ho
    rw [aluSub_val_mod] at hv
    refine ⟨hv, by rw [hz, aluSub_z, hv], by rw [hn, aluSub_n, hv], ?_, ?_⟩
    · rw [hc, aluSub_c, Nat.mod_eq_of_lt (a := i.val) (by omega)]
    · rw [ho, aluSub_v, smallI]

/-! ### Logic and shifts -/

section

variable {c : Instr} {u op opr d v : Nat} {s : State} {f : SeqRt → SeqRt}
variable (hu : u ≤ 16) (h : atInstr u s = true) (e : exec c s = actSeq (runOp u op opr f) s)

include hu h e

theorem computes_setZN (hf : f (fetched op opr (s.w.seq u)) = ((fetched op opr (s.w.seq u)).setReg d v).setZN v) :
    Computes c u [d] s fun r r' => r'.reg d = v % 2 ^ 32 ∧ r'.z = (r'.reg d == 0) ∧
      r'.n = decide (2 ^ 31 ≤ r'.reg d) ∧ r'.c = r.c ∧ r'.v = r.v := by
  have hv : ∀ k, ({ ((fetched op opr (s.w.seq u)).setReg d v).setZN v with macroCount := k } : SeqRt).reg d = v % 2 ^ 32 :=
    fun _ => reg_setReg_same (fetched _ _ _) _ _
  refine computes_of hu h e ?_ ?_ ?_ ?_ <;> rw [hf]
  · intro k; exact ⟨⟨rfl, rfl, rfl, rfl, rfl, rfl, rfl, rfl⟩, rfl, rfl, rfl, rfl, rfl⟩
  · exact ⟨rfl, rfl, rfl⟩
  · intro i hi; exact reg_setReg_other (fetched _ _ _) _ _ _ (by simpa using hi)
  · intro k
    rw [hv]
    exact ⟨rfl, rfl, isN_eq v, rfl, rfl⟩

theorem computes_setReg (hf : f (fetched op opr (s.w.seq u)) = (fetched op opr (s.w.seq u)).setReg d v) :
    Computes c u [d] s fun r r' => r'.reg d = v % 2 ^ 32 ∧ sameFlags r r' := by
  refine computes_of hu h e ?_ ?_ ?_ ?_ <;> rw [hf]
  · intro k; exact ⟨⟨rfl, rfl, rfl, rfl, rfl, rfl, rfl, rfl⟩, rfl, rfl, rfl, rfl, rfl⟩
  · exact ⟨rfl, rfl, rfl⟩
  · intro i hi; exact reg_setReg_other (fetched _ _ _) _ _ _ (by simpa using hi)
  · intro k; exact ⟨reg_setReg_same (fetched _ _ _) _ _, rfl, rfl, rfl, rfl⟩

end

theorem shl32_mod (a n : Nat) : shl32 a n % 2 ^ 32 = a * 2 ^ (n % 32) % 2 ^ 32 := Nat.mod_mod _ _

theorem shr32_mod (a n : Nat) : shr32 a n % 2 ^ 32 = a % 2 ^ 32 / 2 ^ (n % 32) :=
  Nat.mod_eq_of_lt (Nat.lt_of_le_of_lt (Nat.div_le_self _ _) (Nat.mod_lt _ (by decide)))

/-- Settles O25: AND, OR and XOR write a register with its Z and N, the shifts a register alone. -/
theorem macroLogicAndShifts : Obligations.MacroLogicAndShifts := by
  intro u s h
  have hu := seqr_le u
  refine ⟨fun d g => computes_setZN hu h rfl rfl, fun d g => computes_setZN hu h rfl rfl, fun d g => computes_setZN hu h rfl rfl,
    fun d g => ?_, fun d g => ?_⟩
  · obtain ⟨t, ht, o, st, ctl, regs, hv, fl⟩ := computes_setReg hu h (c := .mShl u d g) rfl rfl
    exact ⟨t, ht, o, st, ctl, regs, hv.trans (shl32_mod _ _), fl⟩
  · obtain ⟨t, ht, o, st, ctl, regs, hv, fl⟩ := computes_setReg hu h (c := .mShr u d g) rfl rfl
    exact ⟨t, ht, o, st, ctl, regs, hv.trans (shr32_mod _ _), fl⟩

/-! ### Branches, calls and returns -/

section

variable {c : Instr} {u op : Nat} {off : Byte} {cond : SeqRt → Bool} {s : State}

/-- A branch whose condition reads FLAGS alone goes to its target or on. -/
theorem jumps_branch (hu : u ≤ 16) (h : atInstr u s = true) (e : exec c s = actSeq (branch u op off cond) s)
    (hc : cond (fetched op off.toNat (s.w.seq u)) = cond (s.w.seq u)) :
    Jumps c u s fun r r' => r'.stack = r.stack ∧ if cond r then branches r r' off else r'.mpc = (r.mpc + 1) % 4096 := by
  refine jumps_of hu h e ?_
  dsimp only
  rw [hc]
  by_cases taken : cond (s.w.seq u) = true
  · rw [if_pos taken]
    exact ⟨_, _, rfl, fun r' hm hs => ⟨hs, by rw [if_pos taken]; unfold branches; rw [hm]; exact branchTo_eq _ _⟩⟩
  · rw [if_neg taken]
    exact ⟨_, _, rfl, fun r' hm hs => ⟨hs, by rw [if_neg taken]; exact hm⟩⟩

end

section

variable {u : Seqr} {s : State} (h : atInstr u.val s = true) (hn : noFault s)

include h hn

theorem mCall_jumps (off : Byte) (room : (s.w.seq u.val).stack.length < 16) : Jumps (.mCall u off) u.val s fun r r' =>
    r'.stack = (r.mpc + 1) % 4096 :: r.stack ∧ branches r r' off := by
  refine jumpsF_of (seqr_le u) h hn rfl ⟨_, _, if_pos room, fun r' hm hs => ⟨hs, ?_⟩⟩
  unfold branches
  rw [hm]
  exact branchTo_eq _ _

theorem mRet_jumps {a : Nat} {st : List Nat} (top : (s.w.seq u.val).stack = a :: st) :
    Jumps (.mRet u) u.val s fun _ r' => r'.stack = st ∧ r'.mpc = a := by
  refine jumpsF_of (seqr_le u) h hn rfl ⟨a, st, ?_, fun r' hm hs => ⟨hs, hm⟩⟩
  have : (fetched 0x1E 0 (s.w.seq u.val)).stack = a :: st := top
  rw [this]

end

/-- Settles O27: the conditional branches by one lemma over the condition, CALL, RET and JR by where they put MPC and the stack. -/
theorem macroControlGoesWhereItSays : Obligations.MacroControlGoesWhereItSays := by
  intro u s h hn
  have hu := seqr_le u
  refine ⟨fun off => ?_, fun off => jumps_branch hu h rfl rfl, fun off => ?_, fun off => jumps_branch hu h rfl rfl,
    fun off => jumps_branch hu h rfl rfl, fun off => mCall_jumps h hn off, fun a st => mRet_jumps h hn,
    fun d g => jumps_of hu h rfl ⟨_, _, rfl, fun r' hm hs => ⟨hs, hm⟩⟩⟩
  · obtain ⟨t, ht, o, held, fl, ctl, g, data, ih, stack, goes⟩ := jumps_branch hu h (c := .mBr u off) rfl rfl
    exact ⟨t, ht, o, held, fl, ctl, g, data, ih, stack, goes⟩
  · obtain ⟨t, ht, o, held, fl, ctl, g, data, ih, stack, goes⟩ := jumps_branch hu h (c := .mBnz u off) rfl rfl
    refine ⟨t, ht, o, held, fl, ctl, g, data, ih, stack, ?_⟩
    cases hz : (s.w.seq u.val).z <;> simpa [hz] using goes

/-! ### Restart faults -/

/-- An operation that answers no sequencer takes its restart fault. -/
theorem runOpF_faults {c : Instr} {u op opr cause : Nat} {f : SeqRt → Option SeqRt} {s : State} (h : atInstr u s = true) (hn : noFault s)
    (e : exec c s = actSeqF (runOpF u op opr cause f) s) (hf : f (fetched op opr (s.w.seq u)) = none) : Faults c u cause s := by
  refine faults_of (w := s.w.setSeq u (fetched op opr (s.w.seq u))) h hn e ?_
  unfold runOpF
  rw [if_pos (at1 h).2, hf]

/-- Settles O29: each instruction answers no sequencer in the case that it names, and RETI takes the fault itself. -/
theorem macroFaultsRestartTheSequencer : Obligations.MacroFaultsRestartTheSequencer := by
  intro u s h hn
  refine ⟨fun off full => runOpF_faults h hn rfl ?_, fun empty => runOpF_faults h hn rfl ?_, fun out => ?_,
    fun d g beyond => runOpF_faults h hn rfl (if_neg (Nat.not_lt.mpr beyond)),
    fun d g beyond => runOpF_faults h hn rfl (if_neg (Nat.not_lt.mpr beyond))⟩
  · exact if_neg (fun room : (s.w.seq u.val).stack.length < 16 => by omega)
  · have : (fetched 0x1E 0 (s.w.seq u.val)).stack = [] := empty
    rw [this]
  · refine faults_of (f := mReti u.val) (w := s.w.setSeq u.val (fetched 0x21 0 (s.w.seq u.val))) h hn rfl ?_
    have out' : ¬ (fetched 0x21 0 (s.w.seq u.val)).inHandler = true := by
      show ¬ (s.w.seq u.val).inHandler = true
      rw [out]; decide
    unfold mReti
    rw [if_pos (at1 h).2]
    exact if_neg out'

/-! ### Memory and I/O words -/

theorem scratch_of {u a : Nat} (steward : u < 16) (lo : 0xF010 ≤ a) (hi : a ≤ 0xF0FF) : isScratch u a = true := by
  unfold isScratch
  simp [steward, lo, hi]

section

variable {u : Seqr} {s : State} (h : atInstr u.val s = true)

include h

theorem mLd_computes (hn : noFault s) (d g : Reg4) (inside : (s.w.seq u.val).reg g.val < dataSize u.val) :
    Computes (.mLd u d g) u.val [d.val] s fun r r' => sameFlags r r' ∧ r'.reg d.val = r.word (r.reg g.val) % 2 ^ 32 := by
  obtain ⟨k, t, e, o, q⟩ := runOpF_does (op := 0x10) (opr := oprR d.val g.val) (cause := 4)
    (f := fun r => if r.reg g.val < dataSize u.val then some { r.setReg d.val (r.word (r.reg g.val)) with nowAddr := r.reg g.val, nowKind := 1 } else none)
    (seqr_le u) h hn (if_pos inside)
  refine ⟨t, e, o, ?_, ?_, ?_, ?_⟩ <;> rw [q]
  · exact ⟨⟨rfl, rfl, rfl, rfl, rfl, rfl, rfl, rfl⟩, rfl, rfl, rfl, rfl, rfl⟩
  · exact ⟨rfl, rfl, rfl⟩
  · intro i hi
    exact reg_setReg_other (fetched _ _ _) _ _ _ (by simpa using hi)
  · exact ⟨⟨rfl, rfl, rfl, rfl⟩, reg_setReg_same (fetched _ _ _) _ _⟩

theorem mSt_stores (hn : noFault s) (d g : Reg4) (inside : (s.w.seq u.val).reg d.val < dataSize u.val) :
    Completes (.mSt u d g) s fun t => OnlySeq u.val s t ∧ SeqHeld (s.w.seq u.val) (t.w.seq u.val) ∧
      sameFlags (s.w.seq u.val) (t.w.seq u.val) ∧ sameCtl (s.w.seq u.val) (t.w.seq u.val) ∧
      (t.w.seq u.val).g = (s.w.seq u.val).g ∧ (t.w.seq u.val).stack = (s.w.seq u.val).stack ∧
      (t.w.seq u.val).mpc = ((s.w.seq u.val).mpc + 1) % 4096 ∧
      ∀ a, (t.w.seq u.val).word a =
        if a = (s.w.seq u.val).reg d.val then (s.w.seq u.val).reg g.val % 2 ^ 32 else (s.w.seq u.val).word a := by
  obtain ⟨k, t, e, o, q⟩ := runOpF_does (op := 0x11) (opr := oprR d.val g.val) (cause := 4)
    (f := fun r => if r.reg d.val < dataSize u.val then some { r.setWord (r.reg d.val) (r.reg g.val) with nowAddr := r.reg d.val, nowKind := 1 } else none)
    (seqr_le u) h hn (if_pos inside)
  refine ⟨t, e, o, ?_, ?_, ?_, ?_, ?_, ?_, ?_⟩ <;> rw [q]
  · exact ⟨rfl, rfl, rfl, rfl, rfl, rfl, rfl, rfl⟩
  · exact ⟨rfl, rfl, rfl, rfl⟩
  · exact ⟨rfl, rfl, rfl⟩
  · rfl
  · rfl
  · rfl
  · exact fun a => word_setWord (fetched _ _ _) _ _ a

theorem mIn_computes (d g : Reg4) : Computes (.mIn u d g) u.val [d.val] s fun r r' => sameFlags r r' ∧
    (u.val < 16 → 0xF010 ≤ r.reg g.val % 2 ^ 16 → r.reg g.val % 2 ^ 16 ≤ 0xF0FF →
      r'.reg d.val = tgetD r.io (r.reg g.val % 2 ^ 16) 0 % 2 ^ 32) := by
  obtain ⟨h1, h2⟩ := at1 h
  let r := fetched 0x12 (oprR d.val g.val) (s.w.seq u.val)
  let vw := ioRead u.val (r.reg g.val % 2 ^ 16) r s.w
  obtain ⟨o, k, q⟩ := onlySeq_completed (s := s) (x := vw.2)
    (r := { r.setReg d.val vw.1 with nowAddr := r.reg g.val % 2 ^ 16, nowKind := 2 })
    (seqr_le u) ((ioRead_keep _ _ _ _).mono (by decide)) ((ioRead_keep _ _ _ _).stw.seqs (by decide))
  refine completes_actIfM rfl h1 ?_
  have e : mIn u.val d.val g.val s.mode s.w =
    completed u.val (vw.2.setSeq u.val { r.setReg d.val vw.1 with nowAddr := r.reg g.val % 2 ^ 16, nowKind := 2 }) := if_pos h2
  rw [e]
  refine ⟨o, ?_, ?_, ?_, ?_⟩ <;> dsimp only <;> rw [q]
  · exact ⟨⟨rfl, rfl, rfl, rfl, rfl, rfl, rfl, rfl⟩, rfl, rfl, rfl, rfl, rfl⟩
  · exact ⟨rfl, rfl, rfl⟩
  · intro i hi
    exact reg_setReg_other r _ _ _ (by simpa using hi)
  · refine ⟨⟨rfl, rfl, rfl, rfl⟩, fun steward lo hi => (reg_setReg_same r _ _).trans ?_⟩
    have sc : isScratch u.val (r.reg g.val % 2 ^ 16) = true := scratch_of steward lo hi
    have : vw = (tgetD r.io (r.reg g.val % 2 ^ 16) 0, s.w) := if_pos sc
    rw [this]
    rfl

theorem mOut_writes (d g : Reg4) (steward : u.val < 16) (lo : 0xF010 ≤ (s.w.seq u.val).reg d.val % 2 ^ 16)
    (hi : (s.w.seq u.val).reg d.val % 2 ^ 16 ≤ 0xF0FF) :
    Completes (.mOut u d g) s fun t => OnlySeq u.val s t ∧ sameFlags (s.w.seq u.val) (t.w.seq u.val) ∧
      (t.w.seq u.val).g = (s.w.seq u.val).g ∧ (t.w.seq u.val).data = (s.w.seq u.val).data ∧
      (t.w.seq u.val).mpc = ((s.w.seq u.val).mpc + 1) % 4096 ∧
      ∀ a, tgetD (t.w.seq u.val).io a 0 =
        if a = (s.w.seq u.val).reg d.val % 2 ^ 16 then (s.w.seq u.val).reg g.val % 2 ^ 32 else tgetD (s.w.seq u.val).io a 0 := by
  obtain ⟨h1, h2⟩ := at1 h
  let r := fetched 0x13 (oprR d.val g.val) (s.w.seq u.val)
  let r' : SeqRt := { r with nowAddr := r.reg d.val % 2 ^ 16, nowKind := 2, io := tputD r.io (r.reg d.val % 2 ^ 16) 0 (r.reg g.val % 2 ^ 32) }
  obtain ⟨o, k, q⟩ := onlySeq_completed (s := s) (x := s.w) (r := r') (seqr_le u) Keep.refl rfl
  refine completes_actIfM rfl h1 ?_
  have sc : isScratch u.val (r.reg d.val % 2 ^ 16) = true := scratch_of steward lo hi
  have io : ioWrite u.val (r.reg d.val % 2 ^ 16) (r.reg g.val) { r with nowAddr := r.reg d.val % 2 ^ 16, nowKind := 2 } s.w = (r', s.w) :=
    if_pos sc
  have e : mOut u.val d.val g.val s.mode s.w = completed u.val (s.w.setSeq u.val r') := by
    unfold mOut
    rw [if_pos h2]
    dsimp only
    rw [io]
  rw [e]
  refine ⟨o, ?_, ?_, ?_, ?_, fun a => ?_⟩ <;> dsimp only <;> rw [q]
  · exact ⟨rfl, rfl, rfl, rfl⟩
  · rfl
  · rfl
  · rfl
  · by_cases at_a : a = (s.w.seq u.val).reg d.val % 2 ^ 16
    · subst at_a
      rw [if_pos rfl]
      exact tgetD_tputD_same ..
    · rw [if_neg at_a]
      exact tgetD_tputD_other _ _ _ _ _ _ at_a

end

/-- Settles O26: LD, ST, IN and OUT by the one word that each reads or writes. -/
theorem macroMemoryAndIo : Obligations.MacroMemoryAndIo := fun _ _ h hn =>
  ⟨mLd_computes h hn, mSt_stores h hn, mIn_computes h, mOut_writes h⟩

end Sys2Proof.Machine
end

section
/-! The brick window's Sieve operations, swap, scrub, policers and the Gleaner (R328, R330, R337 to R340, R355 to R358), and the time writes and FIFO reads (R411, R426, R612). -/

open Sys2Proof
namespace Sys2Proof.Machine

/-! ### Operations on a bank -/

section

variable {b i bank op : Nat} {w : Wall}

theorem sieveCmd_refused {f : Wall → Wall} (running : swapping b w = true) : sieveCmd b i op true f w = setRefused b true w := by
  unfold sieveCmd
  rw [running]
  rfl

theorem swapWindow_refused (running : swapping b w = true) : swapWindow b w = setRefused b true w := if_pos running

theorem sieveWriteShadow_entry (idle : swapping b w = false) :
    entryAt b (shadowBank b w) i (sieveWriteShadow b i w) = storedEntry (entryOf (stageOf b w)) := by
  unfold sieveWriteShadow
  rw [sieveCmd_runs _ _ _ _ _ _ (by rw [idle]; rfl), newShadow_entry, refused_shadow, setWin_shadow, cmdWall_stage]
  exact entryAt_put_same ..

theorem sieveReadShadow_stage (idle : swapping b w = false) : (sieveReadShadow b i w).ing = w.ing ∧
    ∀ k, k < 32 → (sieveReadShadow b i w).win32 (brickWin b + 4 * k) 0 =
      entryBits (entryAt b (shadowBank b w) i w) / 2 ^ (32 * k) % 2 ^ 32 := by
  unfold sieveReadShadow
  rw [sieveCmd_runs _ _ _ _ _ _ (by rw [idle]; rfl), refused_shadow, setWin_shadow]
  exact sieveRead_cmd ..

theorem sieveReadActive_stage : (sieveReadActive b i w).ing = w.ing ∧
    ∀ k, k < 32 → (sieveReadActive b i w).win32 (brickWin b + 4 * k) 0 =
      entryBits (entryAt b (activeBank b w) i w) / 2 ^ (32 * k) % 2 ^ 32 := by
  unfold sieveReadActive
  rw [sieveCmd_runs _ _ _ _ _ _ rfl, refused_active, setWin_active]
  exact sieveRead_cmd ..

theorem sieveInvalidateShadow_invalid (idle : swapping b w = false) :
    bit (entryAt b (shadowBank b w) i (sieveInvalidateShadow b i w)).action 63 = false := by
  unfold sieveInvalidateShadow
  rw [sieveCmd_runs _ _ _ _ _ _ (by rw [idle]; rfl), newShadow_entry, refused_shadow, setWin_shadow]
  exact invalidate_same ..

theorem swapWindow_swaps (idle : swapping b w = false) :
    activeBank b (swapWindow b w) = shadowBank b w ∧ swapping b (swapWindow b w) = true := by
  have starts : swapWindow b w = swapStart b (setRefused b false w) := if_neg (by rw [idle]; decide)
  rw [starts]
  exact swapStart_does b (setRefused b false w)

theorem sieveWriteBoth_entry (hi : i < 8192) (hb : bank < 2) :
    entryAt b bank i (sieveWriteBoth b i w) = storedEntry (entryOf (stageOf b w)) := by
  unfold sieveWriteBoth
  rw [sieveCmd_runs _ _ _ _ _ _ rfl]
  dsimp only
  rw [newShadow_entry, cmdWall_stage]
  by_cases second : bank = 1
  · rw [second]
    exact entryAt_put_same ..
  · have first : bank = 0 := by omega
    rw [first, entryAt_put_other _ _ _ _ _ _ _ (sieveKey_bank (by decide) (by decide) (by decide) hi)]
    exact entryAt_put_same ..

theorem sieveInvalidateBoth_invalid (hi : i < 8192) (hb : bank < 2) :
    bit (entryAt b bank i (sieveInvalidateBoth b i w)).action 63 = false := by
  unfold sieveInvalidateBoth
  rw [sieveCmd_runs _ _ _ _ _ _ rfl, newShadow_entry]
  by_cases second : bank = 1
  · rw [second]
    exact invalidate_same ..
  · have first : bank = 0 := by omega
    rw [first, invalidate_other _ _ _ _ _ (sieveKey_bank (by decide) (by decide) (by decide) hi)]
    exact invalidate_same ..

/-! ### The end of a swap, and the scrub -/

/-- The bank copy of COPY_AFTER_SWAP changes the banks alone. -/
theorem swapDone_eq (running : swapping b w = true) : ∃ x : Wall, x.regs = w.regs ∧ x.led.deferred = w.led.deferred ∧
    swapDone b w = releaseDeferred (.swap b) 0 none ((x.set (Reg.swapState b) 0).bump (Reg.swapCount b) 1) := by
  unfold swapDone
  rw [running, if_neg (by decide)]
  dsimp only
  split
  · refine ⟨_, ?_, ?_, rfl⟩ <;> rfl
  · exact ⟨w, rfl, rfl, rfl⟩

theorem swapDone_does (running : swapping b w = true) : swapping b (swapDone b w) = false ∧
    (swapDone b w).get (Reg.swapCount b) = (w.get (Reg.swapCount b) + 1) % 2 ^ 32 ∧
    (swapDone b w).led.deferred = w.led.deferred.filter fun d => decide (d.on ≠ .swap b) := by
  have aside_state : Aside (Reg.swapState b) := by simp only [Aside, Reg.swapState]; omega
  have aside_count : Aside (Reg.swapCount b) := by simp only [Aside, Reg.swapCount]; omega
  have apart : (Reg.swapState b).key ≠ (Reg.swapCount b).key := by simp only [Reg.swapState, Reg.swapCount]; omega
  obtain ⟨x, regs, deferred, done⟩ := swapDone_eq running
  rw [done]
  refine ⟨?_, ?_, ?_⟩
  · unfold swapping
    rw [releaseDeferred_get _ _ _ _ _ aside_state (by simp only [Reg.swapState, Reg.busyRefused]; omega),
      get_bump_other _ _ _ _ apart, get_set_same]
    rfl
  · rw [releaseDeferred_get _ _ _ _ _ aside_count (by simp only [Reg.swapCount, Reg.busyRefused]; omega), get_bump_same,
      get_set_other _ _ _ _ apart.symm, get_congr regs]
    rfl
  · rw [releaseDeferred_deferred]
    exact congrArg _ deferred

theorem shadowNoted_regs (c : Bool) : (when c (newShadow b) w).regs = w.regs := by cases c <;> rfl

theorem shadowNoted_ing (c : Bool) : (when c (newShadow b) w).ing = w.ing := by cases c <;> rfl

theorem scrubCompare_repairs : (scrubCompare b bank i .correct false w).get (Reg.sieveRepairs b) = (w.get (Reg.sieveRepairs b) + 1) % 2 ^ 32 ∧
    entryAt b bank i (scrubCompare b bank i .correct false w) = tgetD w.ing.master (sieveKeyOf b bank i) emptyEntry := by
  unfold scrubCompare
  dsimp only [Bool.false_and]
  refine ⟨?_, ?_⟩
  · rw [get_bump_same]
    exact congrArg (fun n => (n + 1) % 2 ^ 32) (get_congr (shadowNoted_regs _) _)
  · unfold entryAt
    rw [Wall.bump_ing]
    dsimp only
    rw [shadowNoted_ing]
    show tgetD (match tget w.ing.master (sieveKeyOf b bank i) with
      | some e => tput w.ing.sieve (sieveKeyOf b bank i) e
      | none => tdel w.ing.sieve (sieveKeyOf b bank i)) _ _ = (tget w.ing.master (sieveKeyOf b bank i)).getD emptyEntry
    cases tget w.ing.master (sieveKeyOf b bank i) with
    | none => exact congrArg (·.getD emptyEntry) (tget_tdel_same ..)
    | some e => exact tgetD_tput_same ..

theorem scrubCompare_disables :
    (scrubCompare b bank i .uncorrectable false w).get (Reg.sieveDisabled b) = (w.get (Reg.sieveDisabled b) + 1) % 2 ^ 16 ∧
    bit (entryAt b bank i (scrubCompare b bank i .uncorrectable false w)).action 63 = false := by
  have aside : Aside (Reg.sieveDisabled b) := by simp only [Aside, Reg.sieveDisabled]; omega
  unfold scrubCompare
  dsimp only [Bool.false_and]
  refine ⟨?_, ?_⟩
  · rw [aside.raise, get_bump_same]
    exact congrArg (fun n => (n + 1) % 2 ^ 16) (get_congr (shadowNoted_regs _) _)
  · unfold entryAt
    rw [raise_ing, Wall.bump_ing]
    exact invalidate_same ..

end

/-! ### Policers and the Gleaner -/

section

variable {b i e v : Nat} {w : Wall}

theorem gleanExpire_frees (held : (tget w.ing.glean (gleanKey b e)).isSome = true) :
    tget (gleanExpire b e w).ing.glean (gleanKey b e) = none ∧
    (gleanExpire b e w).get (Reg.gleanExpired b) = (w.get (Reg.gleanExpired b) + 1) % 2 ^ 64 ∧
    (gleanExpire b e w).get (Reg.gleanUsed b) = (w.get (Reg.gleanUsed b) - 1) % 2 ^ 16 := by
  have apart : (Reg.gleanUsed b).key ≠ (Reg.gleanExpired b).key := by simp only [Reg.gleanUsed, Reg.gleanExpired]; omega
  have frees : gleanExpire b e w = (freeGlean b e w).bump (Reg.gleanExpired b) 1 := by
    obtain ⟨g, hg⟩ := Option.isSome_iff_exists.mp held
    unfold gleanExpire
    rw [hg]
  rw [frees]
  refine ⟨tget_tdel_same .., ?_, ?_⟩
  · rw [get_bump_same]
    unfold freeGlean
    rw [get_set_other _ _ _ _ apart.symm]
    rfl
  · rw [get_bump_other _ _ _ _ apart]
    exact get_set_same ..

theorem gleanFlush_frees (he : e < 1024) : tget (gleanFlush b w).ing.glean (gleanKey b e) = none := by
  rw [gleanFlush_glean]
  refine tget_tfilter_none _ _ _ fun _ => ?_
  unfold gleanKey
  simp only [bne_eq_false_iff_eq]
  omega

end

/-- Settles O33: each operation by what it leaves in the bank, the counter or the record that it names. -/
theorem sieveOperations : Obligations.SieveOperations := by
  refine ⟨fun b i s open' idle => ⟨?_, ?_, ?_, ?_⟩, fun b i c s open' running which => ?_,
    fun b i s open' => ⟨?_, ?_, ?_, ?_⟩, fun b s on running => completes_actIf rfl on (swapDone_does running),
    fun b bank i s on => ⟨?_, ?_, ?_⟩, fun b i v s open' => completes_actIf rfl open' ?_,
    fun b e s on held => completes_actIf rfl on (gleanExpire_frees held), fun r row u k data s hu id ready => ?_⟩
  · exact completes_actIf rfl open' (sieveWriteShadow_entry idle)
  · exact completes_actIf rfl open' (sieveReadShadow_stage idle)
  · exact completes_actIf rfl open' (sieveInvalidateShadow_invalid idle)
  · exact completes_actIf rfl open' (swapWindow_swaps idle)
  · have refused : Completes c s fun t => t = { s with w := setRefused b.val true s.w } := by
      rcases which with rfl | rfl | rfl | rfl
      · exact completes_actIf rfl open' (congrArg (fun x => { s with w := x }) (sieveCmd_refused running))
      · exact completes_actIf rfl open' (congrArg (fun x => { s with w := x }) (sieveCmd_refused running))
      · exact completes_actIf rfl open' (congrArg (fun x => { s with w := x }) (sieveCmd_refused running))
      · exact completes_actIf rfl open' (congrArg (fun x => { s with w := x }) (swapWindow_refused running))
    obtain ⟨t, ht, rfl⟩ := refused
    exact ⟨_, ht, rfl, rfl, refused_bit _ _⟩
  · exact completes_actIf rfl open' fun bank hb => sieveWriteBoth_entry i.isLt hb
  · exact completes_actIf rfl open' sieveReadActive_stage
  · exact completes_actIf rfl open' fun bank hb => sieveInvalidateBoth_invalid i.isLt hb
  · exact completes_actIf rfl open' ⟨tget_tdel_same .., rfl⟩
  · exact completes_actIf rfl on rfl
  · exact completes_actIf rfl on scrubCompare_repairs
  · exact completes_actIf rfl on scrubCompare_disables
  · dsimp only
    by_cases good : policerOk (policerStage b.val i.val v s.w) = true
    · rw [if_pos good, policerApply_good good]
      exact ⟨tgetD_tput_same .., rfl⟩
    · rw [if_neg good, policerApply_bad good]
      exact ⟨rfl, get_bump_same ..⟩
  · have takes : effect 0 r row u k 1 data (headTaken s.w) = .ok (gleanFlush u (headTaken s.w)) := by
      unfold effect
      rw [id]
      rfl
    refine ready.completes (o := .gleanFlush) rfl (by rw [id]; rfl) (by rw [id]; decide) takes ⟨?_, fun e he => ?_⟩
    · rw [answered_get _ _ _ _ _ (by simp only [Aside, Reg.gleanUsed]; omega) (by simp only [Reg.gleanUsed, Reg.busyRefused]; omega)
        (by rw [id]; decide)]
      exact get_set_same ..
    · dsimp only
      rw [(answered_keep ..).ing.same (by decide)]
      exact gleanFlush_frees he

/-! ### Time writes and the reads of a FIFO -/

section

variable {r : LReq} {row : ObjRow} {u k v : Nat} {data : List Byte} {s : State}

/-- A held write has left the queue, waits with its requester, and shows the register that it set. -/
theorem held_waits {op : TimeOp} {x : Wall} (time : x.time = (headTaken s.w).time) (led : x.led = (headTaken s.w).led) :
    (waitTime r.who op x).led.queue = s.w.led.queue.tail ∧
    (waitTime r.who op x).time.waits =
      s.w.time.waits ++ [{ op := op, who := r.who, applied := s.w.time.tclk, seen := false }] := by
  rw [waitTime_queue, waitTime_waits, led, time, headTaken_time, headTaken_queue]
  exact ⟨rfl, rfl⟩

theorem timeSet_held (ready : Ready r row u k v data s) (id : rowId row = 0x130401) : Completes .timeSet s fun t =>
    (t.w.led.queue = s.w.led.queue.tail ∧
      t.w.time.waits = s.w.time.waits ++ [{ op := .set (ofT96 v), who := r.who, applied := s.w.time.tclk, seen := false }]) ∧
    t.w.get Reg.timeValid = 1 := by
  have takes : effect 0 r row u k v data (headTaken s.w) =
      .held (waitTime r.who (.set (ofT96 v)) ((headTaken s.w).set Reg.timeValid 1)) := by
    unfold effect; rw [id]; rfl
  exact ready.held (o := .timeSet) rfl (by rw [id]; rfl) (by rw [id]; decide) takes ⟨held_waits rfl rfl, get_set_same (headTaken s.w) Reg.timeValid 1⟩

theorem timeStep_held (ready : Ready r row u k v data s) (id : rowId row = 0x130402)
    (fits : 0 ≤ wallAfter s.w.time.waits s.w.wallT + toInt 64 v) : Completes .timeStep s fun t =>
    (t.w.led.queue = s.w.led.queue.tail ∧
      t.w.time.waits = s.w.time.waits ++ [{ op := .step (toInt 64 v), who := r.who, applied := s.w.time.tclk, seen := false }]) ∧
    t.w.get Reg.timeValid = 1 := by
  have takes : effect 0 r row u k v data (headTaken s.w) = timeStep r.who (toInt 64 v) (headTaken s.w) := by
    unfold effect; rw [id]; rfl
  have held : timeStep r.who (toInt 64 v) (headTaken s.w) =
      .held (waitTime r.who (.step (toInt 64 v)) ((headTaken s.w).set Reg.timeValid 1)) :=
    if_neg (by rw [headTaken_time, wallT_congr (headTaken_time s.w)]; omega)
  exact ready.held (o := .timeStep) rfl (by rw [id]; rfl) (by rw [id]; decide) (takes.trans held) ⟨held_waits rfl rfl, get_set_same (headTaken s.w) Reg.timeValid 1⟩

theorem freqAdj_held (ready : Ready r row u k v data s) (id : rowId row = 0x130403) : Completes .freqAdjWrite s fun t =>
    (t.w.led.queue = s.w.led.queue.tail ∧
      t.w.time.waits = s.w.time.waits ++ [{ op := .freq (toInt 32 v), who := r.who, applied := s.w.time.tclk, seen := false }]) ∧
    t.w.getI Reg.freqAdjPpt = toInt 32 v := by
  have takes : effect 0 r row u k v data (headTaken s.w) =
      .held (waitTime r.who (.freq (toInt 32 v)) ((headTaken s.w).setI Reg.freqAdjPpt (toInt 32 v))) := by
    unfold effect; rw [id]; rfl
  refine ready.held (o := .freqAdj) rfl (by rw [id]; rfl) (by rw [id]; decide) takes ⟨held_waits rfl rfl, ?_⟩
  have stored : (waitTime r.who (.freq (toInt 32 v)) ((headTaken s.w).setI Reg.freqAdjPpt (toInt 32 v))).get Reg.freqAdjPpt =
      ofInt 32 (toInt 32 v) % 2 ^ 32 := get_set_same ..
  show toInt 32 (Wall.get _ Reg.freqAdjPpt) = _
  rw [stored, Nat.mod_eq_of_lt (ofInt_lt _)]
  exact toInt_ofInt32 v

end

/-- Settles O34: a time write is held with its requester, a resync is its two filters, and a FIFO read takes the head of its list. -/
theorem timeWritesAndCaptures : Obligations.TimeWritesAndCaptures := by
  refine ⟨fun r row u k v data s ready => ⟨timeSet_held ready, timeStep_held ready, freqAdj_held ready⟩,
    fun s runs => completes_actIf rfl runs (resync_time s.w),
    fun r row u k s served head op mode index found access type present => ⟨fun id => ?_, fun id => ?_⟩⟩
  · refine completes_actM rfl ?_
    obtain ⟨led, captures⟩ := takeStamp_does u (headTaken s.w)
    rw [readHead_eq (o := .stampRead) served head op mode index found access type present (by rw [id]; decide)
      (by rw [ownOf_read found op, if_pos id]), if_pos id]
    refine ⟨?_, ?_⟩
    · exact (respondG_queue ..).trans (by rw [led, headTaken_queue])
    · rw [respond_time, captures, headTaken_time]
  · refine completes_actM rfl ?_
    obtain ⟨led, samples⟩ := takeSampleEntry_does (headTaken s.w)
    rw [readHead_eq (o := .sampleRead) served head op mode index found access type present (by rw [id]; decide)
      (by rw [ownOf_read found op, if_neg (by rw [id]; decide), if_pos id]), if_neg (by rw [id]; decide), if_pos id]
    refine ⟨?_, ?_⟩
    · exact (respondG_queue ..).trans (by rw [led, headTaken_queue])
    · rw [respond_obs, samples, headTaken_samples]

end Sys2Proof.Machine
end

section
/-! The scheduler's selection and the end of a transmission (R276, R279, R375, R377, R389), shapers, drop counts and gate lists (R381 to R400). -/

open Sys2Proof
namespace Sys2Proof.Machine

/-! ### Selection -/

section

variable {sp : Nat} {w : Wall}

theorem schedulerSelect_held (held : spFlows sp w = false ∨ (tget w.egr.txNow sp).isSome = true) : schedulerSelect sp w = w :=
  if_pos (by rcases held with h | h <;> simp [h])

theorem schedulerSelect_pause {x : PauseOut} {rest : List PauseOut} (flows : spFlows sp w = true) (free : tget w.egr.txNow sp = none)
    (first : tgetD w.prt.pauseOut sp [] = x :: rest) : schedulerSelect sp w = sendPause sp x rest w := by
  unfold schedulerSelect
  rw [if_neg (by simp [flows, free]), first]

theorem schedulerSelect_starts {n q : Nat} {f : EFrame} {l : List EFrame} {y : Wall} (flows : spFlows sp w = true)
    (free : tget w.egr.txNow sp = none) (noPause : tgetD w.prt.pauseOut sp [] = [])
    (chosen : choose sp (upTo 8 (fun n w => dropAllOversize sp n w) w) = some (n, q, y)) (front : (y.queue (sp / 8) q).frames = f :: l) :
    schedulerSelect sp w = startTx sp n q f l y := by
  unfold schedulerSelect
  rw [if_neg (by simp [flows, free]), noPause]
  dsimp only
  rw [chosen]
  dsimp only
  rw [front]

end

/-! ### The end of a transmission -/

section

variable {sp d : Nat} {x : TxNow} {w : Wall}

/-- No frame is in transmission on the sub-port. -/
def txCleared (sp : Nat) (w : Wall) : Wall := { w with egr := { w.egr with txNow := tdel w.egr.txNow sp } }

theorem txCleared_txNow : tget (txCleared sp w).egr.txNow sp = none := tget_tdel_same ..

theorem txFrameDone_none (free : tget w.egr.txNow sp = none) : txFrameDone sp d w = w := by
  unfold txFrameDone
  rw [free]

theorem txFrameDone_cut (now : tget w.egr.txNow sp = some x) (cut : x.frame.whole = false) : txFrameDone sp d w =
    quietRetry (sp / 8) (pumpRings (skipRest x.frame (freeChunks x.frame (debit x (x.frame.bytes.length + 4)
      (stat sp 45 1 (stompLine x.frame (txCleared sp w))))))) := by
  unfold txFrameDone
  rw [now]
  dsimp only
  rw [if_neg (by rw [cut]; decide)]
  rfl

theorem txFrameDone_whole (now : tget w.egr.txNow sp = some x) (whole : x.frame.whole = true) :
    txFrameDone sp d w = quietRetry (sp / 8) (pumpRings (sendWhole x d (txCleared sp w))) := by
  unfold txFrameDone
  rw [now]
  dsimp only
  rw [if_pos whole]
  rfl

theorem txFrameDone_txNow (now : tget w.egr.txNow sp = some x) : tget (txFrameDone sp d w).egr.txNow sp = none := by
  cases whole : x.frame.whole with
  | true =>
    rw [txFrameDone_whole now whole, txEnd_txNow, txWhole_txNow]
    exact txCleared_txNow
  | false =>
    rw [txFrameDone_cut now whole, txEnd_txNow, (skipRest_keep ..).egr.txNow (by decide), (freeChunks_keep ..).egr.txNow (by decide),
      (debit_keep ..).egr.txNow (by decide), (stat_keep ..).egr.txNow (by decide), (stompLine_keep ..).egr.txNow (by decide)]
    exact txCleared_txNow

theorem txFrameDone_counts {sp : SubPort} (now : tget w.egr.txNow sp.val = some x) (cut : x.frame.whole = false) :
    (txFrameDone sp.val d w).get (Reg.statistic sp.val 45) = (w.get (Reg.statistic sp.val 45) + 1) % 2 ^ 64 := by
  rw [txFrameDone_cut now cut, get_congr ((quietRetry_keep ..).regs (by decide)),
    pumpRings_get _ _ (by simp only [Reg.statistic, Reg.tagsOut]; omega), get_congr ((skipRest_keep ..).regs (by decide)),
    freeChunks_get _ _ _ (by simp only [Reg.statistic, Reg.panicNow]; omega) (by simp only [Reg.statistic, Reg.panicAsserts]; omega),
    get_congr ((debit_keep ..).regs (by decide)), txCut_does]
  rfl

theorem txFrameDone_inband {sp : SubPort} (now : tget w.egr.txNow sp.val = some x) (whole : x.frame.whole = true)
    (own : x.frame.sp = sp.val) (inband : x.frame.src = .inband) (clear : x.pn = none) (idle : w.hst.rings = [])
    (awake' : (w.quiet (sp.val / 8)).idleDue = false) : (txFrameDone sp.val d w).out =
      .lineFrame sp (macFrame x.maxFrame x.frame.bytes).1 (macFrame x.maxFrame x.frame.bytes).2 :: w.out := by
  obtain ⟨out, rings⟩ := sendWhole_inband x d (txCleared sp.val w) (by rw [own]; exact sp.isLt) inband clear
  have quiet : (sendWhole x d (txCleared sp.val w)).prt.quiet = w.prt.quiet := (sendWhole_keep ..).prt.quiet (by decide)
  rw [txFrameDone_whole now whole, pumpRings_none _ (rings.trans idle), quietRetry_none, out]
  · exact congrArg (fun i => Out.lineFrame i _ _ :: w.out) (Fin.ext own)
  · unfold Wall.quiet at awake' ⊢
    rw [quiet]
    exact awake'

end

/-- Settles O37: a selection by what holds it, starts a pause or starts a frame, and the end of a transmission whole or cut. -/
theorem selectionAndTransmission : Obligations.SelectionAndTransmission := by
  refine ⟨fun sp s on held => completes_actIf rfl on ?_, fun sp x rest s on flows free first => completes_actIf rfl on ?_,
    fun sp n q f l y s on flows free noPause chosen front clear => completes_actIf rfl on ?_,
    fun sp d s on free => completes_actIf rfl on ?_,
    fun sp d x s on now cut => completes_actIf rfl on ⟨txFrameDone_txNow now, txFrameDone_counts now cut⟩,
    fun sp d x s on now whole => completes_actIf rfl on ⟨txFrameDone_txNow now, txFrameDone_inband now whole⟩⟩
  · rw [schedulerSelect_held held]
  · obtain ⟨out, pauses, egr⟩ := pauseSent_out sp x rest s.w
    rw [schedulerSelect_pause flows free first]
    exact ⟨pauses, egr, out⟩
  · rw [schedulerSelect_starts flows free noPause chosen front]
    exact startTx_clear _ _ _ _ _ _ clear
  · rw [txFrameDone_none free]

/-! ### Shapers and drop counts -/

section

variable {p k : Nat} {w : Wall}

theorem calendarRelease_released {x : Shaper} (shaper : tget w.egr.shapers (p * 128 + k) = some x) (listed : x.calendar = true) :
    tget (calendarRelease p k w).egr.shapers (p * 128 + k) =
      some { accrue x w.time.dclk with tokens := max (accrue x w.time.dclk).tokens 0, calendar := false } := by
  unfold calendarRelease
  rw [shaper]
  dsimp only
  rw [if_pos listed, pcCount_egr]
  exact tget_tput_same ..

theorem calendarRelease_unlisted {x : Shaper} (shaper : tget w.egr.shapers (p * 128 + k) = some x) (unlisted : x.calendar = false) :
    calendarRelease p k w = w := by
  unfold calendarRelease
  rw [shaper]
  exact if_neg (by rw [unlisted]; decide)

theorem shaperApplyWin_applies (hk : k < 128) (rate : w.win32 (shaperWin p k) 0 ≤ 3200000)
    (burst : w.win32 (shaperWin p k + 4) 65536 ≤ 16777215) :
    shaperRate p k (shaperApplyWin p k w) = w.win32 (shaperWin p k) 0 ∧
    shaperBurst p k (shaperApplyWin p k w) = w.win32 (shaperWin p k + 4) 65536 ∧
    tget (shaperApplyWin p k w).egr.shapers (p * 128 + k) = if w.win32 (shaperWin p k) 0 = 0 then none else
      some { rate := w.win32 (shaperWin p k) 0, burst := w.win32 (shaperWin p k + 4) 65536,
             tokens := if bit (w.win32 (shaperWin p k + 8) 0) 0 then (w.win32 (shaperWin p k + 4) 65536 * shaperUnit : Nat) else 0,
             last := w.time.dclk, calendar := false } := by
  have applies : shaperApplyWin p k w = applyShaper p k (setShaperRegs p k (w.win32 (shaperWin p k) 0) (w.win32 (shaperWin p k + 4) 65536)
      (bit (w.win32 (shaperWin p k + 8) 0) 0) w) := if_pos ⟨rate, burst⟩
  obtain ⟨hr, hb, hf, -, time⟩ := shaperRegs_does p k (w.win32 (shaperWin p k) 0) (w.win32 (shaperWin p k + 4) 65536)
    (bit (w.win32 (shaperWin p k + 8) 0) 0) w hk (by omega) (by omega)
  obtain ⟨regs, shaper⟩ := applyShaper_does p k (setShaperRegs p k (w.win32 (shaperWin p k) 0) (w.win32 (shaperWin p k + 4) 65536)
    (bit (w.win32 (shaperWin p k + 8) 0) 0) w)
  rw [applies, (shaperRate_congr p k regs).1, (shaperRate_congr p k regs).2, shaper, hr, hb, hf, time]
  exact ⟨rfl, rfl, rfl⟩

theorem shaperApplyWin_refused (bad : 3200000 < w.win32 (shaperWin p k) 0 ∨ 16777215 < w.win32 (shaperWin p k + 4) 65536) :
    shaperApplyWin p k w = badWindow w := if_neg (by omega)

end

/-! ### Gate lists -/

section

variable {sp : Nat} {g : Gate} {w : Wall}

theorem gateEntryChange_moves (gate : gateOf sp w = some g) (runs : g.oper ≠ []) :
    gateEntryChange sp w = putGate sp { g with index := gateIndex g w.wallT } w := by
  unfold gateEntryChange
  rw [gate]
  exact if_neg runs

/-- The MAX_WINDOW_NS values of a list in force change neither the gates nor the other objects. -/
theorem setMaxWindows_frame (sp c : Nat) (l : List (Nat × Nat)) (x : Wall) :
    (upTo 8 (fun n w => w.set (Reg.maxWindowNs sp n) (maxWindow n c l)) x).egr = x.egr ∧
    ∀ o : Reg, o.key % 256 < 0x26 → (upTo 8 (fun n w => w.set (Reg.maxWindowNs sp n) (maxWindow n c l)) x).get o = x.get o := by
  refine ⟨upTo_keeps (fun y : Wall => y.egr = x.egr) _ _ _ rfl fun _ _ h => h, fun o low => ?_⟩
  refine upTo_keeps_lt (fun y : Wall => y.get o = x.get o) _ _ _ rfl fun n y hn h => ?_
  rw [get_set_other _ _ _ _ (by simp only [Reg.maxWindowNs]; omega), h]

theorem gateConfigChange_installs (gate : gateOf sp w = some g) (due : g.changeAt.isSome = true) :
    (gateConfigChange sp w).get (Reg.gateState sp) = 1 ∧
    (gateConfigChange sp w).get (Reg.operCycleNs sp) = w.get (Reg.pendingCycleNs sp) % 2 ^ 32 ∧
    (gateOf sp (gateConfigChange sp w)).map (fun g => (g.oper, g.cycle, g.base, g.changeAt, g.extendTo)) =
      some (pendingList sp w, w.get (Reg.pendingCycleNs sp), ofT96 (w.get (Reg.pendingBase sp)), none, none) := by
  unfold gateConfigChange
  rw [gate]
  dsimp only
  rw [if_neg (by rw [Option.isNone_iff_eq_none]; intro h; rw [h] at due; cases due)]
  refine ⟨?_, ?_, ?_⟩
  · rw [(setMaxWindows_frame _ _ _ _).2 _ (by simp only [Reg.gateState]; omega), putDom_get]
    exact get_set_same ..
  · rw [(setMaxWindows_frame _ _ _ _).2 _ (by simp only [Reg.operCycleNs]; omega), putDom_get]
    exact (get_set_other _ _ _ _ (by simp only [Reg.operCycleNs, Reg.gateState]; omega)).trans (get_set_same ..)
  · unfold gateOf
    rw [(setMaxWindows_frame _ _ _ _).1]
    exact congrArg _ (putGate_same sp _ w)

end

/-- Settles O38: the calendar, the record's word, the drop count and the two gate changes, each by what it writes. -/
theorem shapersAndGates : Obligations.ShapersAndGates := by
  refine ⟨fun p k x s on shaper => ⟨fun listed => completes_actIf rfl on (calendarRelease_released shaper listed),
      fun unlisted => completes_actIf rfl on ?_⟩,
    fun p k v s opened => ⟨fun rate burst => completes_actIf rfl opened (shaperApplyWin_applies k.isLt rate burst),
      fun bad => completes_actIf rfl opened ?_⟩,
    fun p q s opened => completes_actIf rfl opened ⟨queue_set_same .., fun j other _ => queue_set_other _ _ _ _ _ (by omega), rfl⟩,
    fun sp g s on gate runs => completes_actIf rfl on ?_,
    fun sp g s on gate due => completes_actIf rfl on (gateConfigChange_installs gate due)⟩
  · rw [calendarRelease_unlisted shaper unlisted]
  · rw [shaperApplyWin_refused bad]
    exact ⟨rfl, get_bump_same ..⟩
  · rw [gateEntryChange_moves gate runs]
    exact ⟨putGate_same .., rfl⟩

end Sys2Proof.Machine
end

section
/-! Reservations (R448, R449), sealing and zeroisation (R462, R468 to R471, R502), and scrub, wear and supply of the Granary (R492 to R501, R507, R626). -/

open Sys2Proof
namespace Sys2Proof.Machine

/-! ### Reservations -/

section

variable {u an e : Nat} {a : Sa} {w : Wall}

/-- The wall once a committed reservation has left the list of done commits. -/
def reservationTaken (u an e : Nat) (w : Wall) : Wall :=
  { w with gra := { w.gra with done := w.gra.done.erase (.reservation (saId u an) e) } }

/-- The SA that holds a committed reservation. -/
def reserved (e : Nat) (a : Sa) : Sa :=
  { a with reservedEnd := max a.reservedEnd e, want := none, stalled := false, pendingInstall := false }

theorem reservationCommit_held
    (done : w.gra.done.find? (fun d => match d with | .reservation i _ => i == saId u an | _ => false) = some (.reservation (saId u an) e))
    (sa : getSa u an w = some a) : reservationCommit u an w = finishInstall u an (showSa u an (requestIfLow u an
      (putSa u an (reserved e a) (noteKi (a.ki.getD 4096) e (reservationTaken u an e w))))) := by
  unfold reservationCommit
  split
  · rename_i i e' found
    cases found.symm.trans done
    have sa' : getSa u an (reservationTaken u an e w) = some a := sa
    unfold reservationTaken at sa'
    dsimp only
    rw [sa']
    rfl
  · rename_i other
    exact absurd done (other _ _)

theorem reservationCommit_none
    (done : w.gra.done.find? (fun d => match d with | .reservation i _ => i == saId u an | _ => false) = none) :
    reservationCommit u an w = w := by
  unfold reservationCommit
  split
  · rename_i found
    cases found.symm.trans done
  · rfl

theorem reservationCommit_does
    (done : w.gra.done.find? (fun d => match d with | .reservation i _ => i == saId u an | _ => false) = some (.reservation (saId u an) e))
    (sa : getSa u an w = some a) (enough : ((blockB w / 2 : Nat) : Int) ≤ (max a.reservedEnd e : Nat) - (a.nextPn : Int)) :
    (reservationCommit u an w).gra.done = w.gra.done.erase (.reservation (saId u an) e) ∧
    getSa u an (reservationCommit u an w) = some (reserved e a) := by
  have idle := requestIfLow_idle (w := putSa u an (reserved e a) (noteKi (a.ki.getD 4096) e (reservationTaken u an e w)))
    (getSa_put ..) enough
  rw [reservationCommit_held done sa, idle]
  refine ⟨?_, ?_⟩
  · rw [(finishInstall_does ..).2, showSa_gra]
    rfl
  · rw [getSa_congr (finishInstall_does ..).1, getSa_congr (showSa_sec ..)]
    exact getSa_put ..

theorem reservationRetry_idle (calm : (getSa u an w).all (fun a => !a.retry) = true) : reservationRetry u an w = w := by
  unfold reservationRetry
  cases h : getSa u an w with
  | none => rfl
  | some a =>
    rw [h] at calm
    exact if_neg (by simpa using calm)

theorem reservationRetry_asks (sa : getSa u an w = some a) (retry : a.retry = true) :
    reservationRetry u an w = requestIfLow u an (putSa u an { a with retry := false } w) := by
  unfold reservationRetry
  rw [sa]
  exact if_pos retry

end

/-- Settles O39: the commit holds the end of its block and asks no more; a retry asks as `requestIfLow` does. -/
theorem reservationsCommitAndRetry : Obligations.ReservationsCommitAndRetry := by
  refine ⟨fun sp an e a s on done sa enough => completes_actIf rfl on (reservationCommit_does done sa enough),
    fun sp an s on done => completes_actIf rfl on ?_, fun sp an s on calm => completes_actIf rfl on ?_,
    fun sp an a s on sa retry want low store queue room keys => completes_actIf rfl on ?_⟩
  · rw [reservationCommit_none done]
  · rw [reservationRetry_idle calm]
  · rw [reservationRetry_asks sa retry]
    exact requestIfLow_asks (w := putSa sp.val an.val { a with retry := false } s.w) (getSa_put ..) want rfl low store queue room keys

/-! ### Sealing and zeroisation -/

/-- SEALED is entered with its cause, zeroisation runs, and no key is held. -/
def sealedWith (cause : Nat) (t : State) : Prop :=
  t.mode = .sealedMode ∧ t.w.sec.zeroising = some cause ∧ t.w.sec.sas = [] ∧ t.w.sec.keks = [] ∧
    t.w.sec.blobs = [] ∧ t.w.sec.deviceKey = none ∧ t.w.get Reg.sealedCause = cause

section

variable {c : Instr} {s : State}

theorem reeveOn_parts {m : Mode} {w : Wall} (on : reeveOn m w = true) : clocksRun m w = true ∧ halted w = false := by
  unfold reeveOn awake at on
  simpa using on

/-- A cause whose latch is raised first seals the wall from any mode but SEALED. -/
theorem completes_seals {f : Mode → Wall → Mode × Wall} {src cause last : Nat} (e : exec c s = actMove f s)
    (seals : f s.mode s.w = sealNow cause last s.mode (if clocksRun s.mode s.w then latch 16 src s.w else s.w))
    (small : cause < 2 ^ 8) (on : reeveOn s.mode s.w = true) (notYet : s.mode ≠ .sealedMode) : Completes c s (sealedWith cause) := by
  obtain ⟨runs, live⟩ := reeveOn_parts on
  obtain ⟨runs', live'⟩ := latch_runs 16 src (by decide) runs live
  obtain ⟨x, sealed, holds⟩ := seals_does cause last s.mode (latch 16 src s.w) small runs' live' notYet
  rw [if_pos runs] at seals
  exact completes_actMove e (seals.trans sealed) ⟨rfl, holds⟩

theorem zeroiseGranary_clears (cause : Nat) (w : Wall) : (zeroiseGranary cause w).sec.zeroising = none ∧
    (zeroiseGranary cause w).sec.kis = [] ∧ (zeroiseGranary cause w).bnd.zeroLatch = false := by
  unfold zeroiseGranary
  dsimp only
  rw [(commitReg_keep ..).sec.same (by decide), (commitReg_keep ..).bnd.same (by decide)]
  exact ⟨rfl, rfl, rfl⟩

theorem settled_clears (cause : Nat) (w : Wall) : (settle (zeroiseGranary cause w)).sec.zeroising = none ∧
    (settle (zeroiseGranary cause w)).sec.kis = [] ∧ (settle (zeroiseGranary cause w)).bnd.zeroLatch = false := by
  have k := settle_keep (zeroiseGranary cause w)
  rw [k.sec.zeroising (by decide), k.sec.kis (by decide), k.bnd.zeroLatch (by decide)]
  exact zeroiseGranary_clears cause w

theorem zeroisationComplete_does {m : Mode} {w : Wall} {k : Nat} (runs : clocksRun m w = true) (live : halted w = false)
    (writes : w.bnd.inhibit = false) (busy : w.sec.zeroising = some k) : (zeroisationComplete m w).1 = .sealedMode ∧
      (zeroisationComplete m w).2.sec.zeroising = none ∧ (zeroisationComplete m w).2.sec.kis = [] ∧
      (zeroisationComplete m w).2.bnd.zeroLatch = false := by
  unfold zeroisationComplete
  rw [busy]
  dsimp only
  rw [if_neg (by simp [runs, live, writes])]
  by_cases already : m = .sealedMode
  · rw [if_pos already]
    exact ⟨already, settled_clears _ _⟩
  · have kept := sealWall_keep m (k % 16) (zeroCause k) (settle (zeroiseGranary (k % 16) w))
    rw [if_neg already]
    dsimp only
    rw [kept.sec.zeroising (by decide), kept.sec.kis (by decide), kept.bnd.zeroLatch (by decide)]
    exact ⟨rfl, settled_clears _ _⟩

end

/-- Settles O40: each failure seals through `sealNow`, and the end of zeroisation clears what it held. -/
theorem sealingAndZeroisation : Obligations.SealingAndZeroisation := by
  refine ⟨fun p s => completes_actMove rfl rfl rfl, fun p s on notYet => ⟨?_, ?_, ?_⟩, fun c s runs live writes busy =>
    completes_actMove rfl rfl (zeroisationComplete_does runs live writes busy), fun s on => completes_actIf (f := fun w => w.set Reg.hostOfficerS 0) rfl on rfl⟩
  · exact completes_seals (f := fun m w => if false || !reeveOn m w then (m, w) else continuousFail m w) (src := 1) rfl
      (if_neg (by simp [on])) (by decide) on notYet
  · exact completes_seals (f := continuousFail) (src := 1) rfl rfl (by decide) on notYet
  · exact completes_seals (f := tamper) (src := 2) rfl rfl (by decide) on notYet

/-! ### Scrub, wear and supply -/

section

variable {m : Mode} {w : Wall}

theorem scrubRead_does {slot : Nat} {d : List Damage} (runs : commitRuns m w = true) (inside : slot < 122880) :
    scrubRead slot d m w = actJudge slot (applyDamage (d.filter fun e => e.slot == slot) w) := if_pos ⟨runs, inside⟩

theorem vgranLoss_bnd (mode : m ∈ [Mode.kindle, .service, .doze]) (good : w.bnd.vgranOk = true) :
    (vgranLoss m w).bnd = { w.bnd with vgranOk := false, queueShut := true, inhibit := true } := by
  unfold vgranLoss
  rw [if_pos (by simpa using mode), if_pos good, level_bndW]
  rfl

theorem vgranRestored_bnd (mode : m ∉ [Mode.off, .ember]) (bad : w.bnd.vgranOk = false) : (vgranRestored m w).bnd =
    if w.bnd.pfail then { w.bnd with vgranOk := true } else { w.bnd with vgranOk := true, queueShut := false, inhibit := false } := by
  have back : (level 16 10 false { w with bnd := { w.bnd with vgranOk := true } }).bnd = { w.bnd with vgranOk := true } := level_bndW ..
  unfold vgranRestored
  rw [if_neg (by simp at mode; simp [mode, bad])]
  dsimp only
  rw [back]
  dsimp only
  by_cases pfail : w.bnd.pfail = true
  · rw [if_pos pfail, if_pos pfail, back]
  · rw [if_neg pfail, if_neg pfail, pumpQueue_bnd, setBnds, back]

/-- With the queue emptied first, the failure of both banks leaves nothing queued or waiting. -/
theorem vgranFailTimeout_fails (mode : m ∉ [Mode.off, .ember]) (bad : w.bnd.vgranOk = false) :
    granaryFailed (vgranFailTimeout m w) = true ∧ (vgranFailTimeout m w).gra.queue = [] ∧ (vgranFailTimeout m w).gra.waiting = [] := by
  have fails : vgranFailTimeout m w = bankFail 1 (bankFail 0 { w with gra := { w.gra with queue := [], waiting := [] } }) :=
    if_neg (by simp at mode; simp [mode, bad])
  rw [fails]
  have first := bankFail_self 0 { w with gra := { w.gra with queue := [], waiting := [] } }
  refine ⟨?_, bankFail_clears 1 0 _ (.inr ⟨rfl, rfl⟩) first fun second => ?_⟩
  · unfold granaryFailed
    rw [bankFail_self, bankFail_other _ _ _ (by decide) (by decide), first]
    rfl
  · rw [bankFail_other _ _ _ (by decide) (by decide)] at second
    exact bankFail_clears 0 1 _ (.inl ⟨rfl, rfl⟩) second fun _ => ⟨rfl, rfl⟩

theorem settle_failed : granaryFailed (settle w) = granaryFailed w :=
  granaryFailed_congr (settle_get w Reg.bankState (by decide) (by decide) (by decide))

theorem askLedger_genNext {index sub : Nat} {l : List Byte} {after : After} (store : granaryShut w = false) :
    (askLedger index sub l after w).gra.genNext = w.gra.genNext + 1 := by
  unfold askLedger askRecord
  rw [if_neg (by rw [store]; decide)]
  dsimp only
  rw [(askSheaves_keep ..).gra.genNext (by decide)]

theorem changeCommit_commits {index sub u k : Nat} {row : ObjRow} (found : findRow index sub objTable = some (row, u, k))
    (kept : onChange row u w = true) (store : granaryShut w = false) (queue : w.bnd.queueShut = false) :
    changeCommit index sub w = if (storedBytes true index sub w).getD (defaultBytes row u k) = objBytes row index sub u k w then w
      else askLedger index sub (objBytes row index sub u k w) .none w := by
  unfold changeCommit
  rw [found]
  exact if_pos (by rw [kept, store, queue]; rfl)

end

/-- Settles O42: the scrub by its judgement, the supply by the boundary's flags, the refills and the change timer by what they write. -/
theorem scrubWearAndSupply : Obligations.ScrubWearAndSupply := by
  refine ⟨fun slot d s on runs inside => ?_, fun s on => completes_actIf rfl on (wearProjection_days s.w),
    fun s mode good => completes_actM rfl (vgranLoss_bnd mode good), fun s mode bad => completes_actM rfl (vgranRestored_bnd mode bad),
    fun s mode bad => completes_actM (f := fun m w => settle (vgranFailTimeout m w)) rfl ?_, fun s on => ⟨completes_actIf rfl on rfl, completes_actIf rfl on ⟨rfl, rfl⟩⟩,
    fun index sub u k row s on found kept store queue => completes_actIf rfl on ?_⟩
  · dsimp only
    refine completes_actIfM rfl on ?_
    have regs := applyDamage_regs (d.filter fun e => e.slot == slot) s.w
    have does := actJudge_does slot (applyDamage (d.filter fun e => e.slot == slot) s.w)
      ((granaryShut_congr regs).trans (commitRuns_shut runs))
    dsimp only
    rw [scrubRead_does runs inside]
    cases h : judge slot (applyDamage (d.filter fun e => e.slot == slot) s.w) with
    | free => rw [h] at does; exact does
    | unreadable => rw [h] at does; exact does
    | benign a => rw [h] at does; exact does.trans (by rw [get_congr regs])
    | suspect a b => rw [h] at does; exact does.trans (by rw [get_congr regs])
    | use a repair =>
      rw [h] at does
      cases repair with
      | none => exact does
      | some b => exact does
  · obtain ⟨failed, queue, waiting⟩ := vgranFailTimeout_fails mode bad
    obtain ⟨queue', waiting', -⟩ := settle_queue (vgranFailTimeout s.mode s.w)
    exact ⟨settle_failed.trans failed, queue'.trans queue, waiting'.trans waiting⟩
  · rw [changeCommit_commits found kept store queue]
    dsimp only
    by_cases same : (storedBytes true index sub s.w).getD (defaultBytes row u k) = objBytes row index sub u k s.w
    · rw [if_pos same, if_pos same]
    · rw [if_neg same, if_neg same]
      exact askLedger_genNext store

end Sys2Proof.Machine
end

section
/-! The field port and the life of a session (R94 to R114, R149), and the ends of store commands, of EMBER entry and of a stopped Reeve (R84, R130, R143, R576, R579). -/

open Sys2Proof
namespace Sys2Proof.Machine

/-! ### Field port and sessions -/

section

variable {p : Path} {w : Wall}

theorem badDatagram_other {m : Mode} {why : BadDatagram} (open' : m ≠ .sealedMode) (other : why ≠ .oversize) :
    (badDatagram p why m w).get Reg.authFail = (w.get Reg.authFail + 1) % 2 ^ 32 := by
  have counted : badDatagram p why m w = authFail (datagram p w) := by
    unfold badDatagram
    rw [if_neg open']
    cases why with
    | oversize => exact absurd rfl other
    | _ => rfl
  rw [counted]
  unfold authFail
  rw [get_bump_same, datagram_get _ _ (by decide)]
  rfl

theorem badDatagram_oversize {m : Mode} (open' : m ≠ .sealedMode) : badDatagram p .oversize m w = fieldOther p w := if_neg open'

theorem datagram_second : (datagram p w).second = w.second := by
  obtain ⟨-, -, time⟩ := datagram_same p w
  unfold Wall.second
  rw [time]

theorem icmpv6_eq {e : Bool} (line : p ≠ .inband) : icmpv6 p e w = limitedReply p (.icmp p e) (datagram p w) := if_neg line

theorem icmpv6_answers {e : Bool} (line : p ≠ .inband) (may : w.led.icmpSecond ≠ w.second ∨ w.led.icmpCount < 100) :
    (icmpv6 p e w).out = .icmp p e :: w.out := by
  rw [icmpv6_eq line, (limitedReply_sent (by rw [datagram_led, datagram_second]; exact may)).1, datagram_out]

theorem icmpv6_limited {e : Bool} (line : p ≠ .inband) (now : w.led.icmpSecond = w.second) (full : 100 ≤ w.led.icmpCount) :
    (icmpv6 p e w).out = w.out ∧ (icmpv6 p e w).get Reg.fieldOther = (w.get Reg.fieldOther + 1) % 2 ^ 32 := by
  obtain ⟨counted, out⟩ := fieldOther_get line (datagram p w)
  rw [icmpv6_eq line, limitedReply_out (by rw [datagram_led, datagram_second]; exact now) (by rw [datagram_led]; exact full),
    counted, out, datagram_out, datagram_get _ _ (by decide)]
  exact ⟨rfl, rfl⟩

theorem eventRetransmit_sends {slot e : Nat} {a : Session} {u : UnackedEvent} (session : tget w.led.sessions slot = some a)
    (held : a.unacked.find? (fun u => u.no == e) = some u) :
    (eventRetransmit slot e w).out =
      .event slot u.no u.wallSeq u.src u.code u.srcSeq u.detail u.stamp u.lost u.cls u.renew a.peer :: w.out ∧
    tget (eventRetransmit slot e w).led.sessions slot = some { a with unacked := a.unacked.map fun x =>
      if x.no = e then { x with interval := min (x.interval * 2) 1280 } else x } := by
  unfold eventRetransmit
  rw [session]
  dsimp only
  rw [held]
  exact ⟨rfl, tget_tput_same ..⟩

theorem dozeWake_matches {m : Mode} {f : List Byte} {k : Nat} (dozes : m = .doze) (line : p ≠ .inband) (found : wakeMatch f w = some k) :
    dozeWake p f m w = (.service, fieldOther p (dozeExit 11 (1 + k) w)) := by
  unfold dozeWake
  rw [if_pos ⟨dozes, line⟩, found]

theorem dozeWake_other {m : Mode} {f : List Byte} (dozes : m = .doze) (line : p ≠ .inband) (found : wakeMatch f w = none) :
    dozeWake p f m w = (m, fieldOther p w) := by
  unfold dozeWake
  rw [if_pos ⟨dozes, line⟩, found]

theorem dozeWake_idle {m : Mode} {f : List Byte} (away : m ≠ .doze ∨ p = .inband) : dozeWake p f m w = (m, w) :=
  if_neg (by tauto)

end

/-- Settles O45: each datagram, session and wake frame by its one counter, message or mode. -/
theorem fieldPortAndSessions : Obligations.FieldPortAndSessions := by
  refine ⟨fun p why s on open' => completes_actIfM rfl on ⟨fun other => badDatagram_other open' other, fun large line => ?_⟩,
    fun p s on line => ⟨fun e may => completes_actIf rfl on (icmpv6_answers line may),
      fun e now full => completes_actIf rfl on (icmpv6_limited line now full),
      completes_actIf rfl on (fieldOther_get line s.w)⟩,
    fun slot a s session => ⟨fun on => completes_actIf rfl on (closeSession_does session),
      fun on => completes_actIf rfl on (closeSession_does session),
      fun e u on held => completes_actIf rfl on (eventRetransmit_sends session held)⟩,
    fun i sub s on => completes_actIf rfl on ⟨tget_tdel_same .., rfl⟩,
    fun p f s => ⟨fun k dozes line found => completes_actMove rfl (dozeWake_matches dozes line found) rfl,
      fun dozes line found => completes_actMove rfl (dozeWake_other dozes line found) ⟨dozes, (fieldOther_get line s.w).1⟩,
      fun away => completes_actMove rfl (dozeWake_idle away) rfl⟩⟩
  · rw [large]
    dsimp only
    rw [badDatagram_oversize open']
    exact (fieldOther_get line s.w).1

/-! ### The end of a store command -/

section

variable {c : StoreCmd} {m : Mode} {w : Wall}

/-- Has a sheaf of every record of the command been committed? -/
def storeDone (c : StoreCmd) (w : Wall) : Bool :=
  c.gens.all fun g => w.gra.done.any fun a => match a with | .store x => x == g | _ => false

theorem storeComplete_done (runs : w.led.store = some c) (done : storeDone c w = true) : storeComplete w = storeClose 2 0 w := by
  unfold storeComplete
  rw [runs]
  exact if_pos done

theorem storeComplete_failed (runs : w.led.store = some c) (open' : storeDone c w = false) (failed : granaryFailed w = true) :
    storeComplete w = storeClose 3 aState w := by
  unfold storeComplete
  rw [runs]
  exact (if_neg (fun done => Bool.false_ne_true (open'.symm.trans done))).trans (if_pos failed)

theorem dueMove_idle (idle : w.led.moveDue = 0) : dueMove m w = (m, w) := if_pos (.inl idle)

/-- A store command that closes with a state and a result, no mode request waiting for it. -/
theorem storeComplete_closes {s : State} {st r : Nat} (on : reeveOn s.mode s.w = true) (idle : s.w.led.moveDue = 0)
    (closes : storeComplete s.w = storeClose st r s.w) (hst : st < 256) (hr : r < 2 ^ 32) : Completes .storeComplete s fun t =>
      t.mode = s.mode ∧ t.w.led.store = none ∧ t.w.get Reg.storeState = st ∧ t.w.get Reg.storeResult = r := by
  obtain ⟨store, due, state, result⟩ := storeClose_does st r s.w hst hr
  refine completes_actMove (f := fun m w => if reeveOn m w then dueMove m (storeComplete w) else (m, w)) (w := storeClose st r s.w) rfl
    ((if_pos on).trans ?_) ⟨rfl, store, state, result⟩
  rw [closes]
  exact dueMove_idle (due.trans idle)

end

/-- Settles O46: a store command closes as done or failed, EMBER is entered from the drained wall, and a stopped Reeve restarts. -/
theorem storesEndAndModesFollow : Obligations.StoresEndAndModesFollow := by
  refine ⟨fun c s on runs idle => ⟨fun done => ?_, fun open' failed => ?_⟩, fun s on none' idle => ?_,
    fun s closed due service pfail vgran keys => completes_actMove rfl (emberDrained_runs closed due service pfail vgran keys) ?_,
    fun s runs service => completes_actMove (f := fun m w => if awake m w then reeveRestart m w else (m, w)) rfl
      ((if_pos runs).trans (reeveRestart_on service s.w)) (restart_does 16 s.mode s.w), fun s away => ?_⟩
  · exact storeComplete_closes on idle (storeComplete_done runs done) (by decide) (by decide)
  · exact storeComplete_closes on idle (storeComplete_failed runs open' failed) (by decide) (by decide)
  · refine completes_actMove (f := fun m w => if reeveOn m w then dueMove m (storeComplete w) else (m, w)) rfl ((if_pos on).trans ?_) rfl
    have same : storeComplete s.w = s.w := by
      unfold storeComplete
      rw [none']
    rw [same]
    exact dueMove_idle idle
  · obtain ⟨entry, wake, queue⟩ := emberWall_does ((noteMove (modeCode s.mode) 1 13 (drainedWall s.mode s.w)).emit .railsOff)
    refine ⟨rfl, entry.trans ?_, wake, queue⟩
    rw [emit_bnd, (noteMove_keep ..).bnd.emberTick (by decide)]
    exact drainedWall_tick ..
  · refine completes_actMove (f := fun m w => if awake m w then reeveRestart m w else (m, w)) (m := s.mode) (w := s.w) rfl ?_ rfl
    rw [reeveRestart_off away, ite_self]

end Sys2Proof.Machine
end

section
/-! Rings (R514 to R534), the Mill (R543 to R552), vectors (R540) and the host side of the Bellhouse (R588). -/

open Sys2Proof
namespace Sys2Proof.Machine

/-! ### A ring's block -/

section

variable {k v : Nat} {w : Wall}

theorem ringDoorbell_refused (bad : ringOn k w = false ∨ ringSize k w ≤ v % 2 ^ 16) :
    ringDoorbell k v w = w.setWin (ringBlk k + 0x48) 0 (w.win32 (ringBlk k + 0x48) 0 + 1) :=
  by
  refine if_pos ?_
  rw [Bool.or_eq_true, decide_eq_true_iff, Bool.not_eq_true']
  exact bad

theorem ringDoorbell_dozing (on : ringOn k w = true) (inside : v < ringSize k w) (word : v < 2 ^ 16) (dozes : w.bnd.dozing = true) :
    ringDoorbell k v w = w.setRing k { w.ring k with dozeTail := some v } := by
  unfold ringDoorbell
  rw [Nat.mod_eq_of_lt word, if_neg (by simp [on]; omega), if_pos dozes]

theorem ringDoorbell_stores (on : ringOn k w = true) (inside : v < ringSize k w) (word : v < 2 ^ 16) (live : w.bnd.dozing = false) :
    ringDoorbell k v w = pumpRings (w.setWin (ringBlk k + 0x40) 0 v) := by
  unfold ringDoorbell
  rw [Nat.mod_eq_of_lt word, if_neg (by simp [on]; omega), if_neg (by simp [live])]

/-- RING_TAIL is a word that the pump of the rings never writes. -/
theorem tail_aside : ringAside (ringBlk k + 0x40) := by
  unfold ringBlk ringAside
  split <;> omega

theorem ringTail_pump : ringTail k (pumpRings w) = ringTail k w := tail_aside.pump

theorem ringTail_setTail (word : v < 2 ^ 16) : ringTail k (w.setWin (ringBlk k + 0x40) 0 v) = v :=
  (win32_set_eq ..).trans (Nat.mod_eq_of_lt (by omega))

theorem ringStopped_stops (off : ringOn k w = false) (reads : ringReads k w = false) (busy : ringBusy k w = false) :
    ringStopped k w = setRingStatus k (setBit (ringStatus k w) 1) w := if_neg (by simp [off, reads, busy])

theorem ringStopped_waits (held : ringOn k w = true ∨ ringReads k w = true ∨ ringBusy k w = true) : ringStopped k w = w := if_pos held

end

/-- Settles O47: the tail word, the two changes of ENABLE and STOPPED, each by the words it leaves. -/
theorem ringsAreSwitched : Obligations.RingsAreSwitched := by
  intro d i s
  refine ⟨fun opened => ⟨fun v bad => completes_actIf rfl opened ?_, fun v on inside word => ⟨fun live => completes_actIf rfl opened ?_,
      fun dozes => completes_actIf rfl opened ?_⟩, fun v off set => ⟨fun good => completes_actIf rfl opened ?_,
      fun bad => completes_actIf rfl opened ?_⟩, fun v on clear => completes_actIf rfl opened ?_⟩,
    fun runs => ⟨fun off reads busy => completes_actIf rfl runs ?_, fun held => completes_actIf rfl runs ?_⟩⟩
  · rw [ringDoorbell_refused bad]
    exact ⟨win32_set_ne _ (by omega), win32_set_eq .., rfl⟩
  · rw [ringDoorbell_stores on inside word live, ringTail_pump]
    exact ringTail_setTail word
  · rw [ringDoorbell_dozing on inside word dozes]
    exact ⟨rfl, congrArg RingRt.dozeTail (ring_set_same ..)⟩
  · rw [ringCtrlAny_on off set]
    exact (ringEnable_does off set).1 good
  · rw [ringCtrlAny_on off set]
    exact (ringEnable_does off set).2 bad
  · rw [ringCtrlAny_off on clear]
    exact ringDisable_does on clear
  · rw [ringStopped_stops off reads busy]
    refine ⟨?_, rfl⟩
    have status : ringStatus (ringKey d i.val) (setRingStatus (ringKey d i.val) (setBit (ringStatus (ringKey d i.val) s.w) 1) s.w) =
        setBit (ringStatus (ringKey d i.val) s.w) 1 % 2 ^ 32 := win32_set_eq ..
    dsimp only
    rw [status]
    exact bit_setBit_mod _ _ _ (by decide)
  · rw [ringStopped_waits held]

/-! ### Descriptors and transmit data -/

section

variable {d : RingDir} {i : Nat} {descs : List Nat} {data : List Byte} {w : Wall}

theorem descDone_idle (idle : (w.ring (ringKey d i)).reading = false) : descDone d i descs w = w := if_pos (by rw [idle]; rfl)

theorem freeUse_tags {u : ReadUse} : ∀ e ∈ (freeUse u w).bnd.tags, e.2 ≠ TagState.out u := by
  intro e he
  have kept : e ∈ tfilter w.bnd.tags fun _ t => t != TagState.out u := he
  exact bne_iff_ne.mp (mem_tfilter_out kept)

theorem txDataDone_idle (empty : (w.ring i).dataFor = []) : txDataDone i data w = w := by
  unfold txDataDone
  dsimp only
  rw [empty]

/-- The wall once the data of ring `i` has arrived: its tags free, no read outstanding for it. -/
def dataTaken (i : Nat) (w : Wall) : Wall := (freeUse (.data i) w).setRing i { w.ring i with dataFor := [] }

theorem dataTaken_dataFor : ((dataTaken i w).ring i).dataFor = [] := congrArg RingRt.dataFor (ring_set_same ..)

theorem mill_setMill_same (b : Nat) (r : MillRt) (w : Wall) : (w.setMill b r).mill b = r := tgetD_tput_same ..

theorem setMill_get (b : Nat) (r : MillRt) (w : Wall) (o : Reg) : (w.setMill b r).get o = w.get o := rfl

theorem pumpRings_mill (b : Nat) (w : Wall) : (pumpRings w).mill b = w.mill b :=
  mill_congr ((pumpRings_keep w).hst.mills (by decide)) b

end

/-! ### Receive delivery -/

section

variable {i n : Nat} {rest : List Nat} {f : IFrame} {w : Wall}

theorem rxDeliver_idle (empty : (w.ring (256 + i)).due = []) (off : millRxOf i w = none) : rxDeliver i w = w := by
  unfold rxDeliver
  dsimp only
  rw [empty, off]

theorem rxDeliver_due (due : (w.ring (256 + i)).due = n :: rest) : rxDeliver i w = deliverDue (256 + i) n rest w := by
  unfold rxDeliver
  dsimp only
  rw [due]

theorem deliverDue_drops (frame : frameOf n w = some f) (off : ringRuns (256 + i) w = false ∨ (millRxOf i w).isSome = true) :
    deliverDue (256 + i) n rest w =
      hostDone n f (bump64 (ringBlk (256 + i) + 0x60) 1 (w.setRing (256 + i) { w.ring (256 + i) with due := rest })) := by
  unfold deliverDue
  rw [frame]
  exact if_pos (by rw [Nat.add_sub_cancel_left]; rcases off with h | h <;> simp [h])

theorem deliverDue_takes (frame : frameOf n w = some f) (on : ringRuns (256 + i) w = true) (noMill : millRxOf i w = none)
    (room : f.bytes.length ≤ rxRoom (w.ring (256 + i)).held) : deliverDue (256 + i) n rest w =
      pumpRings (hostDone n f (stat f.sp (if f.disp = .pipe then 33 else 32) 1
        (deliverRx (256 + i) f.bytes (eopOf f) (w.setRing (256 + i) { w.ring (256 + i) with due := rest })))) := by
  unfold deliverDue
  rw [frame]
  exact (if_neg (by rw [Nat.add_sub_cancel_left]; simp [on, noMill])).trans (if_pos room)

theorem ringBlk_rx : 0x200000 ≤ ringBlk (256 + i) := by
  unfold ringBlk
  rw [if_neg (by omega)]
  omega

end

/-- Settles O48: descriptors and data by the wall that the pump then runs on, delivery by the ring's counts. -/
theorem ringsMoveFrames : Obligations.RingsMoveFrames := by
  refine ⟨fun d i descs s on => ⟨fun idle => completes_actIf rfl on ?_, fun reading runs few inBlock inRing => completes_actIf rfl on ?_⟩,
    fun i data s on => ⟨fun empty => completes_actIf rfl on ?_, fun e l held => ⟨fun off => completes_actIf rfl on ?_,
      fun sp runs mill => completes_actIf rfl on ?_, fun runs mill => completes_actIf rfl on ?_⟩⟩,
    fun i s on => ⟨fun empty off => completes_actIf rfl on ?_, fun n rest f due frame =>
      ⟨fun off => completes_actIf rfl on ?_, fun runs mill room => completes_actIf rfl on ?_⟩⟩⟩
  · rw [descDone_idle idle]
  · refine ⟨_, descDone_takes reading runs few inBlock inRing, ?_, ?_, ?_, freeUse_tags, rfl⟩ <;> rw [ring_set_same]
  · rw [txDataDone_idle empty]
  · refine ⟨subHostOcc ((s.w.ring i.val).feeds / 8) (chunksOf (frameLen (e :: l))) (dataTaken i.val s.w), ?_, tgetD_tputD_same .., ?_, rfl⟩
    · dsimp only
      rw [txDataDone_eq (x := dataTaken i.val s.w) held rfl, off]
      rfl
    · exact dataTaken_dataFor
  · dsimp only
    rw [txDataDone_eq (x := dataTaken i.val s.w) held rfl, runs, if_neg (by decide), mill]
    dsimp only
    rw [pumpRings_mill, mill_setMill_same]
    exact ⟨rfl, rfl⟩
  · refine ⟨dataTaken i.val s.w, _, ?_, rfl, dataTaken_dataFor, rfl⟩
    dsimp only
    rw [txDataDone_eq (x := dataTaken i.val s.w) held rfl, runs, if_neg (by decide), mill]
  · rw [rxDeliver_idle empty off]
  · obtain ⟨drops, ring, out⟩ := deliverDrop_does (256 + i.val) n (ringBlk (256 + i.val) + 0x60) f
      { s.w.ring (256 + i.val) with due := rest } s.w
    dsimp only
    rw [rxDeliver_due due, deliverDue_drops frame off, ring]
    exact ⟨drops, rfl, out⟩
  · have takes := deliverTake_does (n := n) (f := f) (r := { s.w.ring (256 + i.val) with due := rest }) (d := f.bytes) (e := eopOf f)
      (a := f.sp) (b := if f.disp = .pipe then 33 else 32) (c := 1) s.w (ringBlk_rx (i := i.val))
    dsimp only at takes ⊢
    rw [rxDeliver_due due, deliverDue_takes frame runs mill room]
    exact takes

/-! ### The Mill -/

section

variable {b sp : Nat} {f : MillFrame} {l : List MillFrame} {w : Wall}

theorem millFrame_passes (mill : millSp b w = some sp) (front : (w.mill b).waiting = f :: l) (live : w.get (Reg.millState sp) ≠ 4)
    (room : ((w.mill b).loop.map fun f => f.bytes.length).sum + f.bytes.length + 8 ≤ 65536) :
    (millFrame b w).mill b = { w.mill b with waiting := l, loop := (w.mill b).loop ++ [(cvUnit b f w).1] } ∧
    ∀ o : Reg, o.key ≠ Reg.tagsOut.key → (millFrame b w).get o = (cvUnit b f w).2.get o := by
  obtain ⟨x, passes⟩ := millFrame_eq mill front live room
  rw [passes]
  refine ⟨?_, fun o other => ?_⟩
  · rw [pumpRings_mill, mill_congr ((txComplete_keep ..).hst.mills (by decide)), mill_congr ((subHostOcc_keep ..).hst.mills (by decide))]
    exact mill_setMill_same ..
  · rw [pumpRings_get _ _ other, get_congr (txComplete_regs ..), get_congr ((subHostOcc_keep ..).regs (by decide)), setMill_get]

theorem millFrame_idle (off : millSp b w = none) : millFrame b w = w := by
  unfold millFrame
  rw [off]

theorem millOversize_idle (off : millSp b w = none) : millOversize b w = w := by
  unfold millOversize
  rw [off]

theorem millOversize_waits (mill : millSp b w = some sp) (front : (w.mill b).loop = f :: l)
    (may : ringRuns (256 + w.get (Reg.millRxRing sp)) w = false ∨
      (w.ring (256 + w.get (Reg.millRxRing sp))).held.length ≠ ringSize (256 + w.get (Reg.millRxRing sp)) w - 1 ∨
      f.bytes.length ≤ rxRoom (w.ring (256 + w.get (Reg.millRxRing sp))).held) : millOversize b w = w := by
  unfold millOversize
  rw [mill]
  dsimp only
  rw [front]
  refine if_neg ?_
  simp only [Bool.and_eq_true, decide_eq_true_eq]
  rintro ⟨⟨runs, full⟩, large⟩
  rcases may with h | h | h
  · rw [h] at runs; cases runs
  · exact h full
  · omega

/-- The frame that no descriptors can take: written back with an error, counted as dropped, and out of the loop. -/
def millStopped (b sp : Nat) (f : MillFrame) (l : List MillFrame) (w : Wall) : Wall :=
  (bump64 (ringBlk (w.get (Reg.millTxRing sp)) + 0x60) 1
    (txWriteBack (w.get (Reg.millTxRing sp)) f.first f.count f.desc 5 f.bytes.length 0 f.value w)).setMill b
      { w.mill b with loop := l, lost := (w.mill b).lost + 1 }

theorem millOversize_stops (mill : millSp b w = some sp) (front : (w.mill b).loop = f :: l)
    (runs : ringRuns (256 + w.get (Reg.millRxRing sp)) w = true)
    (full : (w.ring (256 + w.get (Reg.millRxRing sp))).held.length = ringSize (256 + w.get (Reg.millRxRing sp)) w - 1)
    (large : rxRoom (w.ring (256 + w.get (Reg.millRxRing sp))).held < f.bytes.length) :
    millOversize b w = setMillState sp 4 (ringError (256 + w.get (Reg.millRxRing sp)) 4 (millStopped b sp f l w)) := by
  unfold millOversize
  rw [mill]
  dsimp only
  rw [front]
  exact if_pos (by simp [runs, full, large])

theorem ringRuns_congr {x w : Wall} (h : x.win = w.win) (k : Nat) : ringRuns k x = ringRuns k w :=
  congrArg (bit · 0) (win_congr h _ _)

theorem millOversize_does {k : Nat} (x : Wall) : (setMillState sp 4 (ringError k 4 x)).get (Reg.millState sp) = 4 ∧
    (setMillState sp 4 (ringError k 4 x)).mill b = x.mill b ∧ ringRuns k (setMillState sp 4 (ringError k 4 x)) = false := by
  obtain ⟨mills, win⟩ := setMillState_rest sp 4 (ringError k 4 x)
  obtain ⟨stops, mills'⟩ := ringError_stops k 4 x (by decide)
  exact ⟨setMillState_get _ _ _ (by decide), mill_congr (mills.trans mills') b, (ringRuns_congr win k).trans stops⟩

/-- The wall of a Mill that has drained, before its sub-port goes on. -/
def millLeft (sp : Nat) (w : Wall) : Wall := setSpSt sp 0 (setMillState sp 0 w)

theorem millLeft_state : (millLeft sp w).get (Reg.millState sp) = 0 := by
  have same : (millLeft sp w).get (Reg.millState sp) = (setMillState sp 0 w).get (Reg.millState sp) :=
    (get_set_other _ (Reg.spState (sp / 8) (sp % 8)) (Reg.millState sp) 0 (by simp only [Reg.millState, Reg.spState]; omega))
  rw [same]
  exact setMillState_get _ _ _ (by decide)

theorem millLeft_led : (millLeft sp w).led = w.led := (setSpSt_led ..).trans ((setMillState_keep ..).led.same (by decide))

end

/-! ### Vectors -/

section

variable {v : Nat} {w : Wall}

theorem vectorDeliver_idle (none' : (tgetD w.hst.vecs v { pending := 0, first := 0, last := 0 }).pending = 0) : vectorDeliver v w = w :=
  if_pos none'

theorem vectorDeliver_writes (due : (tgetD w.hst.vecs v { pending := 0, first := 0, last := 0 }).pending ≠ 0) :
    tget (vectorDeliver v w).hst.vecs v =
      some { tgetD w.hst.vecs v { pending := 0, first := 0, last := 0 } with pending := 0, last := w.time.tclk } ∧
    (vectorDeliver v w).out = .mortarWrite (bits (w.get (Reg.vector (v / 128) (v % 128))) 63 0)
      (toLe 4 (bits (w.get (Reg.vector (v / 128) (v % 128))) 95 64)) :: w.out ∧
    (vectorDeliver v w).get Reg.vectorsSent = (w.get Reg.vectorsSent + 1) % 2 ^ 64 := by
  unfold vectorDeliver
  dsimp only
  rw [if_neg due]
  exact ⟨tget_tput_same .., rfl, get_bump_same ..⟩

/-! ### The host side of the Bellhouse -/

theorem hostEnable_sets : (hostEnable false v w).get (Reg.bhPending 17) = w.get (Reg.bhPending 17) ∧
    ∀ n, n < 29 → bit ((hostEnable false v w).get (Reg.bhEnable 17)) n = bit v n := by
  obtain ⟨pending, enable⟩ := hostEnable_fold v (List.range 29) (fun n hn => List.mem_range.mp hn) w
  exact ⟨pending, fun n hn => (enable n hn).trans (if_pos (List.mem_range.mpr hn))⟩

theorem hostClear_clears : (hostClear false v w).get (Reg.bhEnable 17) = w.get (Reg.bhEnable 17) ∧
    ∀ n, n < 29 → bit ((hostClear false v w).get (Reg.bhPending 17)) n =
      (bit (w.get (Reg.bhPending 17)) n && (!bit v n || (isLevel 17 n && levelHigh 17 n w))) := by
  obtain ⟨enable, pending⟩ := hostClear_fold v (List.range 29) (fun n hn => List.mem_range.mp hn) w
  exact ⟨enable, fun n hn => (pending n hn).trans (if_pos (List.mem_range.mpr hn))⟩

end

/-- Settles O49: the Mill by its lists and its state, vectors and the host's words by what they write. -/
theorem millsVectorsAndHostLatches : Obligations.MillsVectorsAndHostLatches := by
  refine ⟨fun b sp f l s on mill front live room => completes_actIf rfl on ?_,
    fun b s on off => ⟨completes_actIf rfl on ?_, completes_actIf rfl on ?_⟩,
    fun b sp f l s on mill front => ⟨fun runs full large => completes_actIf rfl on ?_, fun may => completes_actIf rfl on ?_⟩,
    fun sp s on => ⟨fun drained => completes_actIf rfl on ⟨millLeft sp.val s.w, if_pos drained, millLeft_state, setSpSt_st .., millLeft_led⟩,
      fun busy => completes_actIf rfl on ?_⟩,
    fun v s on => ⟨fun none' => completes_actIf rfl on ?_, fun due => completes_actIf rfl on (vectorDeliver_writes due)⟩,
    fun v s opened => ⟨completes_actIf rfl opened hostEnable_sets, completes_actIf rfl opened hostClear_clears,
      completes_actIf rfl opened rfl, completes_actIf rfl opened rfl⟩⟩
  · obtain ⟨value, bytes, bad, frames, counted⟩ := cvUnit_does b.val f s.w
    obtain ⟨lists, gets⟩ := millFrame_passes mill front live room
    dsimp only
    rw [lists, gets _ (by simp only [Reg.cvFrames, Reg.tagsOut]; omega), gets _ (by simp only [Reg.millBytes, Reg.tagsOut]; omega)]
    exact ⟨rfl, ⟨(cvUnit b.val f s.w).1, rfl, value, bytes, bad⟩, frames, counted⟩
  · rw [millFrame_idle off]
  · rw [millOversize_idle off]
  · obtain ⟨state, lists, stops⟩ := millOversize_does (b := b.val) (sp := sp) (k := 256 + s.w.get (Reg.millRxRing sp)) (millStopped b.val sp f l s.w)
    have lost : (millStopped b.val sp f l s.w).mill b.val = { s.w.mill b.val with loop := l, lost := (s.w.mill b.val).lost + 1 } :=
      mill_setMill_same ..
    dsimp only
    rw [millOversize_stops mill front runs full large, lists, lost]
    exact ⟨state, rfl, rfl, stops⟩
  · rw [millOversize_waits mill front may]
  · exact congrArg (fun x => { s with w := x }) (if_neg busy)
  · rw [vectorDeliver_idle none']

end Sys2Proof.Machine
end
